-- ==== Sys2Proof/Word.lean ====
section
/-!
DEFINITION. The words of the machine and their plainest arithmetic: 32-bit words, 64-bit addresses, 32-lane masks and
2-bit sensitivity marks (R5, R18, R36, R54).
-/
namespace Sys2Proof

/-- A 32-bit word: one register element, one instruction word (R5, R83). -/
abbrev Word := BitVec 32

/-- A 64-bit virtual address (R18, R84). -/
abbrev Addr := BitVec 64

/-- One byte. -/
abbrev Byte := BitVec 8

/-- A set of lanes of one sheaf: bit l stands for lane l (R18, R44). -/
abbrev Mask := BitVec 32

/-- A sensitivity mark: 0 OPEN, 1 GROUP, 2 PRIVATE, 3 SEALED, ordered by value (R54). -/
abbrev Mark := BitVec 2

/-- The larger of two marks (R55). -/
def maxMark (a b : Mark) : Mark := if a.toNat < b.toNat then b else a

/-- The smaller of two marks (R323). -/
def minMark (a b : Mark) : Mark := if a.toNat < b.toNat then a else b

/-- The lane numbers of a sheaf in ascending order (R3). -/
def laneNumbers : List Nat :=
  [0, 1, 2, 3, 4, 5, 6, 7, 8, 9, 10, 11, 12, 13, 14, 15, 16, 17, 18, 19, 20, 21, 22, 23, 24, 25, 26, 27, 28, 29, 30, 31]

/-- Lane l belongs to the set m. -/
def hasLane (m : Mask) (l : Nat) : Bool := m.getLsbD l

/-- The lanes of a set in ascending order. -/
def lanesOf (m : Mask) : List Nat := laneNumbers.filter (hasLane m)

/-- The set of the lanes for which p holds. -/
def maskOf (p : Nat → Bool) : Mask :=
  BitVec.ofNat 32 (laneNumbers.foldr (fun l acc => (if p l then 1 else 0) + 2 * acc) 0)

/-- All 32 lanes. -/
def allLanes : Mask := 0xFFFFFFFF#32

/-- Number of 1 bits. -/
def popCount (w : Word) : Nat := (laneNumbers.filter (hasLane w)).length

end Sys2Proof
end

