-- ==== Sys2Proof/Syntax.lean ====
section
/-!
DEFINITION. The instructions: one constructor per row of spec/opcode_table.json, first the 275 encoded instructions with
the fields of their words (R83 to R94), then the 116 happenings of the machine that have no word (spec/95). Fields hold
the bits of the word; what a field may name is judged in WellFormed. The records that the events carry stand first.
-/
namespace Sys2Proof

/-- What Campion's formation command gives (R299, R302, R306): the partition, its slices (10-bit package and slice as
package * 8 + slice, ascending), the window base of each package it spans, its named routes, the measured boot
configuration (MS8), and the slices whose fabric ports it owns (R300). -/
structure FormRequest where
  part    : Nat
  slices  : List Nat
  memBase : List (Nat × Nat)
  routes  : List Nat
  ports   : List Nat
  bootConfig : List Byte
  deriving DecidableEq, Repr

/-- The offer of NEGOTIATE_ALGORITHMS (R362): the package it goes to, the sets of signature and of digest algorithms. -/
structure AlgorithmOffer where
  package : Nat
  sign    : Nat
  hash    : Nat
  deriving DecidableEq, Repr

/-- A key command block as the partition kernel wrote it (R316): OP is the event itself. -/
structure KeyCommand where
  kh       : Nat
  reserved : Bool
  control  : BitVec 64
  digest   : List Byte
  key      : List Byte
  deriving DecidableEq, Repr

/-- Where an uncorrectable error strikes (R338): a sector of the slice cache or HBM, or the state of a core that belongs
to a tuft. -/
inductive ErrorSite where
  | sector (paddr : Nat)
  | tuft (tid : Nat)
  deriving DecidableEq, Repr

/-- The opcode of a link packet (R342). -/
inductive LinkOp where
  | read | readResp | write | wack | atomic | atomResp | engineRead | engineReadResp | engineWrite | engineWack | engineAtomic | engineAtomResp
  deriving DecidableEq, Repr

/-- A packet as it arrives at a port (R342, R345, R346): source identifier (package [9:0] and slice [12:10], or what Campion gave a CPU
tray), route, packet number, transaction tag, opcode, physical address, the bytes of its mask with their distance from the
address (of a READ, zeros), key handle, of an ATOMIC its operation and operands, the payload as it is encrypted, and the 16 bytes of its
authentication tag. -/
structure LinkPacket where
  source : Nat
  route  : Nat
  number : Nat
  tag    : Nat
  op     : LinkOp
  paddr  : Nat
  bytes  : List (Nat × Byte)
  kh     : Nat
  atomic : Option (Nat × Nat × Nat) := none
  cipher : List Byte := []
  auth   : List Byte
  deriving DecidableEq, Repr

/-- One memory access of a service core (R318): the slice whose service core acts, the physical address, the key handle of
the mapping it uses, and the bytes it writes (none for a read of len bytes). -/
structure ServiceAccess where
  slice : Nat
  paddr : Nat
  kh    : Nat
  len   : Nat
  data  : Option (List Byte)
  deriving DecidableEq, Repr

/-- The instructions and happenings of the machine. -/
inductive Instr where
  /-- VADD (R111): Per-lane wrapped 32-bit add of va and b into vd. -/
  | vadd (g : BitVec 4) (n : BitVec 1) (d a : BitVec 5) (b : BitVec 8)
  /-- VSUB (R111): Per-lane wrapped subtraction va minus b into vd. -/
  | vsub (g : BitVec 4) (n : BitVec 1) (d a : BitVec 5) (b : BitVec 8)
  /-- VSUBR (R111): Per-lane wrapped reverse subtraction b minus va into vd. -/
  | vsubr (g : BitVec 4) (n : BitVec 1) (d a : BitVec 5) (b : BitVec 8)
  /-- VMIN_S (R111): Per-lane signed minimum of va and b. -/
  | vminS (g : BitVec 4) (n : BitVec 1) (d a : BitVec 5) (b : BitVec 8)
  /-- VMAX_S (R111): Per-lane signed maximum of va and b. -/
  | vmaxS (g : BitVec 4) (n : BitVec 1) (d a : BitVec 5) (b : BitVec 8)
  /-- VMIN_U (R111): Per-lane unsigned minimum of va and b. -/
  | vminU (g : BitVec 4) (n : BitVec 1) (d a : BitVec 5) (b : BitVec 8)
  /-- VMAX_U (R111): Per-lane unsigned maximum of va and b. -/
  | vmaxU (g : BitVec 4) (n : BitVec 1) (d a : BitVec 5) (b : BitVec 8)
  /-- VADIF_S (R111): Per-lane exact absolute signed difference of va and b. -/
  | vadifS (g : BitVec 4) (n : BitVec 1) (d a : BitVec 5) (b : BitVec 8)
  /-- VAND (R112): Per-lane bitwise AND. -/
  | vand (g : BitVec 4) (n : BitVec 1) (d a : BitVec 5) (b : BitVec 8)
  /-- VOR (R112): Per-lane bitwise OR. -/
  | vor (g : BitVec 4) (n : BitVec 1) (d a : BitVec 5) (b : BitVec 8)
  /-- VXOR (R112): Per-lane bitwise XOR. -/
  | vxor (g : BitVec 4) (n : BitVec 1) (d a : BitVec 5) (b : BitVec 8)
  /-- VANDN (R112): Per-lane va AND NOT b. -/
  | vandn (g : BitVec 4) (n : BitVec 1) (d a : BitVec 5) (b : BitVec 8)
  /-- VSHL (R112): Per-lane left shift, zero for counts of 32 or more. -/
  | vshl (g : BitVec 4) (n : BitVec 1) (d a : BitVec 5) (b : BitVec 8)
  /-- VSHR_U (R112): Per-lane logical right shift. -/
  | vshrU (g : BitVec 4) (n : BitVec 1) (d a : BitVec 5) (b : BitVec 8)
  /-- VSHR_S (R112): Per-lane arithmetic right shift. -/
  | vshrS (g : BitVec 4) (n : BitVec 1) (d a : BitVec 5) (b : BitVec 8)
  /-- VROTL (R112): Per-lane rotate left by b mod 32. -/
  | vrotl (g : BitVec 4) (n : BitVec 1) (d a : BitVec 5) (b : BitVec 8)
  /-- VMUL (R111): Per-lane low 32 bits of the product. -/
  | vmul (g : BitVec 4) (n : BitVec 1) (d a : BitVec 5) (b : BitVec 8)
  /-- VMULH_S (R111): Per-lane high word of the signed product. -/
  | vmulhS (g : BitVec 4) (n : BitVec 1) (d a : BitVec 5) (b : BitVec 8)
  /-- VMULH_U (R111): Per-lane high word of the unsigned product. -/
  | vmulhU (g : BitVec 4) (n : BitVec 1) (d a : BitVec 5) (b : BitVec 8)
  /-- VMAD (R111): Per-lane wrapped multiply-add into vd. -/
  | vmad (g : BitVec 4) (n : BitVec 1) (d a : BitVec 5) (b : BitVec 8)
  /-- VADDS_S (R111): Per-lane signed saturating add. -/
  | vaddsS (g : BitVec 4) (n : BitVec 1) (d a : BitVec 5) (b : BitVec 8)
  /-- VSUBS_S (R111): Per-lane signed saturating subtract. -/
  | vsubsS (g : BitVec 4) (n : BitVec 1) (d a : BitVec 5) (b : BitVec 8)
  /-- VADDS_U (R111): Per-lane unsigned saturating add. -/
  | vaddsU (g : BitVec 4) (n : BitVec 1) (d a : BitVec 5) (b : BitVec 8)
  /-- VSUBS_U (R111): Per-lane unsigned saturating subtract. -/
  | vsubsU (g : BitVec 4) (n : BitVec 1) (d a : BitVec 5) (b : BitVec 8)
  /-- VPOPC (R113): Per-lane population count of b. -/
  | vpopc (g : BitVec 4) (n : BitVec 1) (d : BitVec 5) (b : BitVec 8)
  /-- VCLZ (R113): Per-lane count of leading zeros of b. -/
  | vclz (g : BitVec 4) (n : BitVec 1) (d : BitVec 5) (b : BitVec 8)
  /-- VBREV (R113): Per-lane bit reversal of b. -/
  | vbrev (g : BitVec 4) (n : BitVec 1) (d : BitVec 5) (b : BitVec 8)
  /-- VBFE_U (R113): Per-lane unsigned bit-field extract. -/
  | vbfeU (g : BitVec 4) (n : BitVec 1) (d a : BitVec 5) (b : BitVec 8)
  /-- VBFE_S (R113): Per-lane signed bit-field extract. -/
  | vbfeS (g : BitVec 4) (n : BitVec 1) (d a : BitVec 5) (b : BitVec 8)
  /-- VBFI (R113): Per-lane bit-field insert into vd. -/
  | vbfi (g : BitVec 4) (n : BitVec 1) (d a : BitVec 5) (b : BitVec 8)
  /-- VPERMB (R113): Per-lane byte permutation of va by selector nibbles. -/
  | vpermb (g : BitVec 4) (n : BitVec 1) (d a : BitVec 5) (b : BitVec 8)
  /-- VMOV (R113): Per-lane copy of b, materialising affine or uniform operands. -/
  | vmov (g : BitVec 4) (n : BitVec 1) (d : BitVec 5) (b : BitVec 8)
  /-- VFADD (R114): Per-lane FP32 add, rounded once. -/
  | vfadd (g : BitVec 4) (n : BitVec 1) (d a : BitVec 5) (b : BitVec 8)
  /-- VFSUB (R114): Per-lane FP32 subtract. -/
  | vfsub (g : BitVec 4) (n : BitVec 1) (d a : BitVec 5) (b : BitVec 8)
  /-- VFMUL (R114): Per-lane FP32 multiply. -/
  | vfmul (g : BitVec 4) (n : BitVec 1) (d a : BitVec 5) (b : BitVec 8)
  /-- VFMA (R114): Per-lane fused multiply-add into vd with one rounding. -/
  | vfma (g : BitVec 4) (n : BitVec 1) (d a : BitVec 5) (b : BitVec 8)
  /-- VFNMA (R114): Per-lane fused vd minus va times b with one rounding. -/
  | vfnma (g : BitVec 4) (n : BitVec 1) (d a : BitVec 5) (b : BitVec 8)
  /-- VFMIN (R114): Per-lane FP32 minimum per R65. -/
  | vfmin (g : BitVec 4) (n : BitVec 1) (d a : BitVec 5) (b : BitVec 8)
  /-- VFMAX (R114): Per-lane FP32 maximum per R65. -/
  | vfmax (g : BitVec 4) (n : BitVec 1) (d a : BitVec 5) (b : BitVec 8)
  /-- VFCPYS (R114): Per-lane copy of va's magnitude with b's sign, bitwise. -/
  | vfcpys (g : BitVec 4) (n : BitVec 1) (d a : BitVec 5) (b : BitVec 8)
  /-- VHADD2 (R115): Packed BF16 add of both halves. -/
  | vhadd2 (g : BitVec 4) (n : BitVec 1) (d a : BitVec 5) (b : BitVec 8)
  /-- VHSUB2 (R115): Packed BF16 subtract. -/
  | vhsub2 (g : BitVec 4) (n : BitVec 1) (d a : BitVec 5) (b : BitVec 8)
  /-- VHMUL2 (R115): Packed BF16 multiply. -/
  | vhmul2 (g : BitVec 4) (n : BitVec 1) (d a : BitVec 5) (b : BitVec 8)
  /-- VHFMA2 (R115): Packed BF16 fused multiply-add into vd. -/
  | vhfma2 (g : BitVec 4) (n : BitVec 1) (d a : BitVec 5) (b : BitVec 8)
  /-- VHMIN2 (R115): Packed BF16 minimum. -/
  | vhmin2 (g : BitVec 4) (n : BitVec 1) (d a : BitVec 5) (b : BitVec 8)
  /-- VHMAX2 (R115): Packed BF16 maximum. -/
  | vhmax2 (g : BitVec 4) (n : BitVec 1) (d a : BitVec 5) (b : BitVec 8)
  /-- VCVT_F32_SI32 (R116): Convert signed integer to FP32 with the named rounding. -/
  | vcvtF32Si32 (g : BitVec 4) (n : BitVec 1) (d : BitVec 5) (r : BitVec 2) (b : BitVec 8)
  /-- VCVT_F32_UI32 (R116): Convert unsigned integer to FP32 with the named rounding. -/
  | vcvtF32Ui32 (g : BitVec 4) (n : BitVec 1) (d : BitVec 5) (r : BitVec 2) (b : BitVec 8)
  /-- VCVT_SI32_F32 (R116): Convert FP32 to signed integer, saturating per R68. -/
  | vcvtSi32F32 (g : BitVec 4) (n : BitVec 1) (d : BitVec 5) (r : BitVec 2) (b : BitVec 8)
  /-- VCVT_UI32_F32 (R116): Convert FP32 to unsigned integer, saturating per R68. -/
  | vcvtUi32F32 (g : BitVec 4) (n : BitVec 1) (d : BitVec 5) (r : BitVec 2) (b : BitVec 8)
  /-- VFRINT (R116): Round FP32 to an integral FP32 value. -/
  | vfrint (g : BitVec 4) (n : BitVec 1) (d : BitVec 5) (r : BitVec 2) (b : BitVec 8)
  /-- VCVT_F32_BF16 (R116): Widen half p of b from BF16 to FP32. -/
  | vcvtF32Bf16 (g : BitVec 4) (n : BitVec 1) (d : BitVec 5) (p : BitVec 2) (b : BitVec 8)
  /-- VCVT_F32_E4M3 (R116): Widen byte p of b from E4M3 to FP32. -/
  | vcvtF32E4m3 (g : BitVec 4) (n : BitVec 1) (d : BitVec 5) (p : BitVec 2) (b : BitVec 8)
  /-- VCVT_F32_E5M2 (R116): Widen byte p of b from E5M2 to FP32. -/
  | vcvtF32E5m2 (g : BitVec 4) (n : BitVec 1) (d : BitVec 5) (p : BitVec 2) (b : BitVec 8)
  /-- VCVT_BF16_F32 (R116): Narrow FP32 into half p of vd on the storing path. -/
  | vcvtBf16F32 (g : BitVec 4) (n : BitVec 1) (d : BitVec 5) (p : BitVec 2) (b : BitVec 8)
  /-- VCVT_E4M3_F32 (R116): Narrow FP32 into byte p of vd as E4M3. -/
  | vcvtE4m3F32 (g : BitVec 4) (n : BitVec 1) (d : BitVec 5) (p : BitVec 2) (b : BitVec 8)
  /-- VCVT_E5M2_F32 (R116): Narrow FP32 into byte p of vd as E5M2. -/
  | vcvtE5m2F32 (g : BitVec 4) (n : BitVec 1) (d : BitVec 5) (p : BitVec 2) (b : BitVec 8)
  /-- VFCLASS (R117): Write the one-hot class mask of b. -/
  | vfclass (g : BitVec 4) (n : BitVec 1) (d : BitVec 5) (b : BitVec 8)
  /-- VFGETEXP (R117): Write the exponent of b as a signed integer. -/
  | vfgetexp (g : BitVec 4) (n : BitVec 1) (d : BitVec 5) (b : BitVec 8)
  /-- VFSCALEB (R117): Scale vd by 2 to the power b with one rounding. -/
  | vfscaleb (g : BitVec 4) (n : BitVec 1) (d : BitVec 5) (b : BitVec 8)
  /-- VRCP (R118): Per-lane correctly rounded reciprocal, long-latency. -/
  | vrcp (g : BitVec 4) (n : BitVec 1) (d : BitVec 5) (l : BitVec 4) (b : BitVec 8)
  /-- VRSQ (R118): Per-lane reciprocal square root. -/
  | vrsq (g : BitVec 4) (n : BitVec 1) (d : BitVec 5) (l : BitVec 4) (b : BitVec 8)
  /-- VSQRT (R118): Per-lane square root. -/
  | vsqrt (g : BitVec 4) (n : BitVec 1) (d : BitVec 5) (l : BitVec 4) (b : BitVec 8)
  /-- VEXP2 (R118): Per-lane base-2 exponential. -/
  | vexp2 (g : BitVec 4) (n : BitVec 1) (d : BitVec 5) (l : BitVec 4) (b : BitVec 8)
  /-- VLOG2 (R118): Per-lane base-2 logarithm. -/
  | vlog2 (g : BitVec 4) (n : BitVec 1) (d : BitVec 5) (l : BitVec 4) (b : BitVec 8)
  /-- VSINPI (R118): Per-lane sin of pi times x. -/
  | vsinpi (g : BitVec 4) (n : BitVec 1) (d : BitVec 5) (l : BitVec 4) (b : BitVec 8)
  /-- VCOSPI (R118): Per-lane cos of pi times x. -/
  | vcospi (g : BitVec 4) (n : BitVec 1) (d : BitVec 5) (l : BitVec 4) (b : BitVec 8)
  /-- VTANH (R118): Per-lane hyperbolic tangent. -/
  | vtanh (g : BitVec 4) (n : BitVec 1) (d : BitVec 5) (l : BitVec 4) (b : BitVec 8)
  /-- VCMP_I (R119): Per-lane integer compare into a predicate bit. -/
  | vcmpI (g : BitVec 4) (n : BitVec 1) (p : BitVec 4) (a : BitVec 5) (b : BitVec 8) (c : BitVec 4)
  /-- VCMP_F (R119): Per-lane FP32 compare into a predicate bit. -/
  | vcmpF (g : BitVec 4) (n : BitVec 1) (p : BitVec 4) (a : BitVec 5) (b : BitVec 8) (c : BitVec 4)
  /-- PAND (R120): Per-lane predicate AND. -/
  | pand (g : BitVec 4) (n : BitVec 1) (d a b : BitVec 4)
  /-- POR (R120): Per-lane predicate OR. -/
  | por (g : BitVec 4) (n : BitVec 1) (d a b : BitVec 4)
  /-- PXOR (R120): Per-lane predicate XOR. -/
  | pxor (g : BitVec 4) (n : BitVec 1) (d a b : BitVec 4)
  /-- PANDN (R120): Per-lane predicate AND NOT. -/
  | pandn (g : BitVec 4) (n : BitVec 1) (d a b : BitVec 4)
  /-- PNOT (R120): Per-lane predicate NOT. -/
  | pnot (g : BitVec 4) (n : BitVec 1) (d a : BitVec 4)
  /-- PMOV (R120): Per-lane predicate copy. -/
  | pmov (g : BitVec 4) (n : BitVec 1) (d a : BitVec 4)
  /-- PSET (R120): Set predicate bits of acting lanes. -/
  | pset (g : BitVec 4) (n : BitVec 1) (d : BitVec 4)
  /-- PCLR (R120): Clear predicate bits of acting lanes. -/
  | pclr (g : BitVec 4) (n : BitVec 1) (d : BitVec 4)
  /-- VRANK (R121): Write each lane's count of set predicate bits below it. -/
  | vrank (g : BitVec 4) (n : BitVec 1) (a : BitVec 4) (v : BitVec 5)
  /-- SHFL_IDX (R122): Shuffle va from an indexed member lane. -/
  | shflIdx (g : BitVec 4) (n : BitVec 1) (d a : BitVec 5) (b : BitVec 8) (m : BitVec 3)
  /-- SHFL_XOR (R122): Shuffle va from lane l XOR b. -/
  | shflXor (g : BitVec 4) (n : BitVec 1) (d a : BitVec 5) (b : BitVec 8) (m : BitVec 3)
  /-- SHFL_UP (R122): Shuffle va from lane l minus b. -/
  | shflUp (g : BitVec 4) (n : BitVec 1) (d a : BitVec 5) (b : BitVec 8) (m : BitVec 3)
  /-- SHFL_DN (R122): Shuffle va from lane l plus b. -/
  | shflDn (g : BitVec 4) (n : BitVec 1) (d a : BitVec 5) (b : BitVec 8) (m : BitVec 3)
  /-- SADD (R128): Uniform wrapped add. -/
  | sadd (g : BitVec 4) (n : BitVec 1) (s b : BitVec 8)
  /-- SSUB (R128): Uniform wrapped subtract. -/
  | ssub (g : BitVec 4) (n : BitVec 1) (s b : BitVec 8)
  /-- SSUBR (R128): Uniform reverse subtract. -/
  | ssubr (g : BitVec 4) (n : BitVec 1) (s b : BitVec 8)
  /-- SMUL (R128): Uniform low-word multiply. -/
  | smul (g : BitVec 4) (n : BitVec 1) (s b : BitVec 8)
  /-- SMULH_S (R128): Uniform signed high-word multiply. -/
  | smulhS (g : BitVec 4) (n : BitVec 1) (s b : BitVec 8)
  /-- SMULH_U (R128): Uniform unsigned high-word multiply. -/
  | smulhU (g : BitVec 4) (n : BitVec 1) (s b : BitVec 8)
  /-- SDIV_S (R128): Uniform signed division per R60. -/
  | sdivS (g : BitVec 4) (n : BitVec 1) (s b : BitVec 8)
  /-- SDIV_U (R128): Uniform unsigned division per R60. -/
  | sdivU (g : BitVec 4) (n : BitVec 1) (s b : BitVec 8)
  /-- SREM_S (R128): Uniform signed remainder. -/
  | sremS (g : BitVec 4) (n : BitVec 1) (s b : BitVec 8)
  /-- SREM_U (R128): Uniform unsigned remainder. -/
  | sremU (g : BitVec 4) (n : BitVec 1) (s b : BitVec 8)
  /-- SAND (R128): Uniform bitwise AND. -/
  | sand (g : BitVec 4) (n : BitVec 1) (s b : BitVec 8)
  /-- SOR (R128): Uniform bitwise OR. -/
  | sor (g : BitVec 4) (n : BitVec 1) (s b : BitVec 8)
  /-- SXOR (R128): Uniform bitwise XOR. -/
  | sxor (g : BitVec 4) (n : BitVec 1) (s b : BitVec 8)
  /-- SANDN (R128): Uniform AND NOT. -/
  | sandn (g : BitVec 4) (n : BitVec 1) (s b : BitVec 8)
  /-- SSHL (R128): Uniform left shift. -/
  | sshl (g : BitVec 4) (n : BitVec 1) (s b : BitVec 8)
  /-- SSHR_U (R128): Uniform logical right shift. -/
  | sshrU (g : BitVec 4) (n : BitVec 1) (s b : BitVec 8)
  /-- SSHR_S (R128): Uniform arithmetic right shift. -/
  | sshrS (g : BitVec 4) (n : BitVec 1) (s b : BitVec 8)
  /-- SMIN_S (R128): Uniform signed minimum. -/
  | sminS (g : BitVec 4) (n : BitVec 1) (s b : BitVec 8)
  /-- SMAX_S (R128): Uniform signed maximum. -/
  | smaxS (g : BitVec 4) (n : BitVec 1) (s b : BitVec 8)
  /-- SMIN_U (R128): Uniform unsigned minimum. -/
  | sminU (g : BitVec 4) (n : BitVec 1) (s b : BitVec 8)
  /-- SMAX_U (R128): Uniform unsigned maximum. -/
  | smaxU (g : BitVec 4) (n : BitVec 1) (s b : BitVec 8)
  /-- SMOV (R128): Uniform move of b into sd. -/
  | smov (g : BitVec 4) (n : BitVec 1) (s b : BitVec 8)
  /-- SPOPC (R128): Uniform population count. -/
  | spopc (g : BitVec 4) (n : BitVec 1) (s b : BitVec 8)
  /-- SCLZ (R128): Uniform count of leading zeros. -/
  | sclz (g : BitVec 4) (n : BitVec 1) (s b : BitVec 8)
  /-- SSEQ (R128): Uniform set-if-equal. -/
  | sseq (g : BitVec 4) (n : BitVec 1) (s b : BitVec 8)
  /-- SSNE (R128): Uniform set-if-not-equal. -/
  | ssne (g : BitVec 4) (n : BitVec 1) (s b : BitVec 8)
  /-- SSLT_S (R128): Uniform signed set-if-less. -/
  | ssltS (g : BitVec 4) (n : BitVec 1) (s b : BitVec 8)
  /-- SSLT_U (R128): Uniform unsigned set-if-less. -/
  | ssltU (g : BitVec 4) (n : BitVec 1) (s b : BitVec 8)
  /-- SADD_W (R128): Uniform 64-bit pair add. -/
  | saddW (g : BitVec 4) (n : BitVec 1) (s b : BitVec 8)
  /-- SSUB_W (R128): Uniform 64-bit pair subtract. -/
  | ssubW (g : BitVec 4) (n : BitVec 1) (s b : BitVec 8)
  /-- SMOVP (R128): Ballot: copy the stored bits of a predicate into sd. -/
  | smovp (g : BitVec 4) (n : BitVec 1) (s b : BitVec 8)
  /-- PMOVS (R128): Write all 32 bits of a predicate from a uniform register. -/
  | pmovs (g : BitVec 4) (n : BitVec 1) (s b : BitVec 8)
  /-- SFADD (R129): Uniform FP32 add. -/
  | sfadd (g : BitVec 4) (n : BitVec 1) (s b : BitVec 8)
  /-- SFSUB (R129): Uniform FP32 subtract. -/
  | sfsub (g : BitVec 4) (n : BitVec 1) (s b : BitVec 8)
  /-- SFMUL (R129): Uniform FP32 multiply. -/
  | sfmul (g : BitVec 4) (n : BitVec 1) (s b : BitVec 8)
  /-- SFDIV (R129): Uniform correctly rounded FP32 divide. -/
  | sfdiv (g : BitVec 4) (n : BitVec 1) (s b : BitVec 8)
  /-- SFSQRT (R129): Uniform correctly rounded square root. -/
  | sfsqrt (g : BitVec 4) (n : BitVec 1) (s b : BitVec 8)
  /-- SFRCP (R129): Uniform reciprocal with VRCP's bits. -/
  | sfrcp (g : BitVec 4) (n : BitVec 1) (s b : BitVec 8)
  /-- SFRSQ (R129): Uniform reciprocal square root with VRSQ's bits. -/
  | sfrsq (g : BitVec 4) (n : BitVec 1) (s b : BitVec 8)
  /-- SFMIN (R129): Uniform FP32 minimum. -/
  | sfmin (g : BitVec 4) (n : BitVec 1) (s b : BitVec 8)
  /-- SFMAX (R129): Uniform FP32 maximum. -/
  | sfmax (g : BitVec 4) (n : BitVec 1) (s b : BitVec 8)
  /-- SCVT_F32_SI32 (R129): Uniform signed integer to FP32. -/
  | scvtF32Si32 (g : BitVec 4) (n : BitVec 1) (s b : BitVec 8)
  /-- SCVT_F32_UI32 (R129): Uniform unsigned integer to FP32. -/
  | scvtF32Ui32 (g : BitVec 4) (n : BitVec 1) (s b : BitVec 8)
  /-- SCVT_SI32_F32 (R129): Uniform FP32 to signed integer toward zero. -/
  | scvtSi32F32 (g : BitVec 4) (n : BitVec 1) (s b : BitVec 8)
  /-- SCVT_UI32_F32 (R129): Uniform FP32 to unsigned integer toward zero. -/
  | scvtUi32F32 (g : BitVec 4) (n : BitVec 1) (s b : BitVec 8)
  /-- SCVT_SI32_F32_RN (R129): Uniform FP32 to signed integer nearest-even. -/
  | scvtSi32F32Rn (g : BitVec 4) (n : BitVec 1) (s b : BitVec 8)
  /-- SFLT (R129): Uniform FP32 less-than into 1 or 0. -/
  | sflt (g : BitVec 4) (n : BitVec 1) (s b : BitVec 8)
  /-- SFLE (R129): Uniform FP32 less-or-equal into 1 or 0. -/
  | sfle (g : BitVec 4) (n : BitVec 1) (s b : BitVec 8)
  /-- SFEQ (R129): Uniform FP32 equality into 1 or 0. -/
  | sfeq (g : BitVec 4) (n : BitVec 1) (s b : BitVec 8)
  /-- SMOVI (R130): Move a sign-extended or XIMM-extended immediate into sd. -/
  | smovi (g : BitVec 4) (n : BitVec 1) (s : BitVec 8) (i : BitVec 13)
  /-- SADDI (R130): Add an immediate to sd. -/
  | saddi (g : BitVec 4) (n : BitVec 1) (s : BitVec 8) (i : BitVec 13)
  /-- SRD (R131): Read a special register into sd. -/
  | srd (g : BitVec 4) (n : BitVec 1) (s r : BitVec 8)
  /-- SWR (R131): Write a special register from sd, with its checks. -/
  | swr (g : BitVec 4) (n : BitVec 1) (s r : BitVec 8)
  /-- AGETB (R132): Read an affine register's base. -/
  | agetb (g : BitVec 4) (n : BitVec 1) (s r : BitVec 8)
  /-- AGETS (R132): Read an affine register's stride. -/
  | agets (g : BitVec 4) (n : BitVec 1) (s r : BitVec 8)
  /-- AGETW (R132): Read an affine register's wrap flags. -/
  | agetw (g : BitVec 4) (n : BitVec 1) (s r : BitVec 8)
  /-- LDS (R162): Load 4 bytes into a uniform register. -/
  | lds (g : BitVec 4) (n : BitVec 1) (s b : BitVec 8)
  /-- LDS_W (R162): Load 8 bytes into a uniform pair. -/
  | ldsW (g : BitVec 4) (n : BitVec 1) (s b : BitVec 8)
  /-- LDS_Q (R162): Load 16 bytes into a uniform quad. -/
  | ldsQ (g : BitVec 4) (n : BitVec 1) (s b : BitVec 8)
  /-- LDS_O (R162): Load 32 bytes into a uniform octet. -/
  | ldsO (g : BitVec 4) (n : BitVec 1) (s b : BitVec 8)
  /-- LDP (R163): Load 8 bytes from a bound parameter window into a pair. -/
  | ldp (g : BitVec 4) (n : BitVec 1) (s : BitVec 8) (o : BitVec 5) (w : BitVec 3)
  /-- LDLS (R164): Load 4 bytes from a local address into a uniform register. -/
  | ldls (g : BitVec 4) (n : BitVec 1) (s b : BitVec 8)
  /-- AADD (R133): Affine add with wrap flags. -/
  | aadd (g : BitVec 4) (n : BitVec 1) (d a : BitVec 5) (b : BitVec 8)
  /-- ASUB (R133): Affine subtract. -/
  | asub (g : BitVec 4) (n : BitVec 1) (d a : BitVec 5) (b : BitVec 8)
  /-- AMUL (R133): Affine multiply by a uniform. -/
  | amul (g : BitVec 4) (n : BitVec 1) (d a : BitVec 5) (b : BitVec 8)
  /-- ASHL (R133): Affine shift left by a uniform. -/
  | ashl (g : BitVec 4) (n : BitVec 1) (d a : BitVec 5) (b : BitVec 8)
  /-- ASET (R133): Set an affine register from a uniform pair. -/
  | aset (g : BitVec 4) (n : BitVec 1) (d : BitVec 5) (b : BitVec 8)
  /-- ALANE (R133): Set an affine register to (u, 1). -/
  | alane (g : BitVec 4) (n : BitVec 1) (d : BitVec 5) (b : BitVec 8)
  /-- ANEG (R133): Negate an affine register. -/
  | aneg (g : BitVec 4) (n : BitVec 1) (d a : BitVec 5)
  /-- AMOV (R133): Copy an affine register. -/
  | amov (g : BitVec 4) (n : BitVec 1) (d : BitVec 5) (b : BitVec 8)
  /-- ACMP (R134): Compare an affine register's lane values into predicate bits. -/
  | acmp (g : BitVec 4) (n : BitVec 1) (p : BitVec 4) (a : BitVec 5) (b : BitVec 8) (c : BitVec 4)
  /-- BRA (R137): Relative branch of the acting lanes. -/
  | bra (g : BitVec 4) (n : BitVec 1) (o : BitVec 21)
  /-- BRZ (R137): Branch if a uniform register is zero. -/
  | brz (g : BitVec 4) (n : BitVec 1) (s : BitVec 8) (o : BitVec 13)
  /-- BRNZ (R137): Branch if a uniform register is non-zero. -/
  | brnz (g : BitVec 4) (n : BitVec 1) (s : BitVec 8) (o : BitVec 13)
  /-- CALL (R138): Relative call writing the link and sliding the window. -/
  | call (g : BitVec 4) (n : BitVec 1) (w : BitVec 2) (o : BitVec 19)
  /-- NOP (R139): Advance the issuing lanes only. -/
  | nop (g : BitVec 4) (n : BitVec 1)
  /-- EXIT (R139): Make acting lanes EXITED, possibly ending the sheaf. -/
  | exit (g : BitVec 4) (n : BitVec 1)
  /-- RET (R138): Return to a uniform pair, sliding the window back. -/
  | ret (g : BitVec 4) (n : BitVec 1) (b : BitVec 8) (w : BitVec 2)
  /-- CALLR (R138): Call to a register target writing the link. -/
  | callr (g : BitVec 4) (n : BitVec 1) (b : BitVec 8) (w : BitVec 2)
  /-- BRX (R137): Branch by a uniform instruction offset. -/
  | brx (g : BitVec 4) (n : BitVec 1) (b : BitVec 8)
  /-- YIELD (R139): NOP that ends greedy issue for the next slot. -/
  | yield (g : BitVec 4) (n : BitVec 1)
  /-- LOOPX (R143): Clear a hardware loop slot's count. -/
  | loopx (g : BitVec 4) (n s : BitVec 1)
  /-- WSPILL (R148): Handler spill of n window registers to the spill area. -/
  | wspill (g : BitVec 4) (n : BitVec 1) (x : BitVec 8)
  /-- WFILL (R148): Handler fill of n window registers from the spill area. -/
  | wfill (g : BitVec 4) (n : BitVec 1) (x : BitVec 8)
  /-- BKPT (R144): Trap the sheaf with cause BKPT. -/
  | bkpt (g : BitVec 4) (n : BitVec 1) (c : BitVec 8)
  /-- TRAP (R144): Trap the sheaf with cause TRAP. -/
  | trap (g : BitVec 4) (n : BitVec 1) (c : BitVec 8)
  /-- RTE (R146): Return from a trap handler, reinstating saved state. -/
  | rte (g : BitVec 4) (n : BitVec 1)
  /-- SVC (R149): Post a service request to the partition kernel and wait. -/
  | svc (g : BitVec 4) (n : BitVec 1) (b x : BitVec 8)
  /-- XPCR (R147): Read one lane's saved PC into a pair. -/
  | xpcr (g : BitVec 4) (n : BitVec 1) (b : BitVec 8) (l : BitVec 5)
  /-- XPCW (R147): Write one lane's saved PC from a pair. -/
  | xpcw (g : BitVec 4) (n : BitVec 1) (b : BitVec 8) (l : BitVec 5)
  /-- LOOP (R140): Arm a hardware loop slot or skip a zero-count body. -/
  | loop (g : BitVec 4) (n c : BitVec 1) (b : BitVec 8) (e : BitVec 12)
  /-- SFROMV (R135): Demote lane x of a varying register to uniform. -/
  | sfromv (g : BitVec 4) (n : BitVec 1) (d : BitVec 8) (a l : BitVec 5)
  /-- SFIRST (R135): Demote the lowest issuing lane's value. -/
  | sfirst (g : BitVec 4) (n : BitVec 1) (d : BitVec 8) (a : BitVec 5)
  /-- SUNIF (R135): Demote a value all lanes agree on, else DEMOTE. -/
  | sunif (g : BitVec 4) (n : BitVec 1) (d : BitVec 8) (a : BitVec 5)
  /-- AFROMV (R136): Demote a varying register to an affine register. -/
  | afromv (g : BitVec 4) (n : BitVec 1) (d : BitVec 8) (a : BitVec 5)
  /-- SREDADD_SI32 (R135): Wrapped integer sum over the reduction set. -/
  | sredaddSi32 (g : BitVec 4) (n : BitVec 1) (d : BitVec 8) (a : BitVec 5) (m : BitVec 1) (p : BitVec 4)
  /-- SREDADD_F32 (R135): Order-independent FP32 sum via the dot-product adder. -/
  | sredaddF32 (g : BitVec 4) (n : BitVec 1) (d : BitVec 8) (a : BitVec 5) (m : BitVec 1) (p : BitVec 4)
  /-- SREDMIN_SI32 (R135): Signed minimum over the reduction set. -/
  | sredminSi32 (g : BitVec 4) (n : BitVec 1) (d : BitVec 8) (a : BitVec 5) (m : BitVec 1) (p : BitVec 4)
  /-- SREDMAX_SI32 (R135): Signed maximum over the reduction set. -/
  | sredmaxSi32 (g : BitVec 4) (n : BitVec 1) (d : BitVec 8) (a : BitVec 5) (m : BitVec 1) (p : BitVec 4)
  /-- LDG (R156): Per-lane 4-byte global load, weak or fresh. -/
  | ldg (g : BitVec 4) (n : BitVec 1) (d : BitVec 5) (o : BitVec 8) (b : BitVec 3) (f : BitVec 1) (l : BitVec 4)
  /-- LDG_W (R156): Per-lane 8-byte global load. -/
  | ldgW (g : BitVec 4) (n : BitVec 1) (d : BitVec 5) (o : BitVec 8) (b : BitVec 3) (f : BitVec 1) (l : BitVec 4)
  /-- LDG_Q (R156): Per-lane 16-byte global load. -/
  | ldgQ (g : BitVec 4) (n : BitVec 1) (d : BitVec 5) (o : BitVec 8) (b : BitVec 3) (f : BitVec 1) (l : BitVec 4)
  /-- STG (R156): Per-lane 4-byte global store, weak or strong. -/
  | stg (g : BitVec 4) (n : BitVec 1) (d : BitVec 5) (o : BitVec 8) (b : BitVec 3) (k : BitVec 1) (c : BitVec 4)
  /-- STG_W (R156): Per-lane 8-byte global store. -/
  | stgW (g : BitVec 4) (n : BitVec 1) (d : BitVec 5) (o : BitVec 8) (b : BitVec 3) (k : BitVec 1) (c : BitVec 4)
  /-- STG_Q (R156): Per-lane 16-byte global store. -/
  | stgQ (g : BitVec 4) (n : BitVec 1) (d : BitVec 5) (o : BitVec 8) (b : BitVec 3) (k : BitVec 1) (c : BitVec 4)
  /-- LDL (R159): Per-lane 4-byte local-store load. -/
  | ldl (g : BitVec 4) (n : BitVec 1) (d : BitVec 5) (o : BitVec 8) (b : BitVec 3) (l : BitVec 4)
  /-- LDL_W (R159): Per-lane 8-byte local-store load. -/
  | ldlW (g : BitVec 4) (n : BitVec 1) (d : BitVec 5) (o : BitVec 8) (b : BitVec 3) (l : BitVec 4)
  /-- LDL_Q (R159): Per-lane 16-byte local-store load. -/
  | ldlQ (g : BitVec 4) (n : BitVec 1) (d : BitVec 5) (o : BitVec 8) (b : BitVec 3) (l : BitVec 4)
  /-- STL (R159): Per-lane 4-byte local-store store. -/
  | stl (g : BitVec 4) (n : BitVec 1) (d : BitVec 5) (o : BitVec 8) (b : BitVec 3) (c : BitVec 4)
  /-- STL_W (R159): Per-lane 8-byte local-store store. -/
  | stlW (g : BitVec 4) (n : BitVec 1) (d : BitVec 5) (o : BitVec 8) (b : BitVec 3) (c : BitVec 4)
  /-- STL_Q (R159): Per-lane 16-byte local-store store. -/
  | stlQ (g : BitVec 4) (n : BitVec 1) (d : BitVec 5) (o : BitVec 8) (b : BitVec 3) (c : BitVec 4)
  /-- LDG_U8 (R160): Global byte load, zero-extended. -/
  | ldgU8 (g : BitVec 4) (n : BitVec 1) (d : BitVec 5) (o : BitVec 8) (b : BitVec 3) (f : BitVec 1)
  /-- LDG_S8 (R160): Global byte load, sign-extended. -/
  | ldgS8 (g : BitVec 4) (n : BitVec 1) (d : BitVec 5) (o : BitVec 8) (b : BitVec 3) (f : BitVec 1)
  /-- LDG_U16 (R160): Global half load, zero-extended. -/
  | ldgU16 (g : BitVec 4) (n : BitVec 1) (d : BitVec 5) (o : BitVec 8) (b : BitVec 3) (f : BitVec 1)
  /-- LDG_S16 (R160): Global half load, sign-extended. -/
  | ldgS16 (g : BitVec 4) (n : BitVec 1) (d : BitVec 5) (o : BitVec 8) (b : BitVec 3) (f : BitVec 1)
  /-- STG_B8 (R160): Global byte store. -/
  | stgB8 (g : BitVec 4) (n : BitVec 1) (d : BitVec 5) (o : BitVec 8) (b : BitVec 3) (k : BitVec 1)
  /-- STG_B16 (R160): Global half store. -/
  | stgB16 (g : BitVec 4) (n : BitVec 1) (d : BitVec 5) (o : BitVec 8) (b : BitVec 3) (k : BitVec 1)
  /-- LDL_U8 (R160): Local byte load, zero-extended. -/
  | ldlU8 (g : BitVec 4) (n : BitVec 1) (d : BitVec 5) (o : BitVec 8) (b : BitVec 3)
  /-- LDL_S8 (R160): Local byte load, sign-extended. -/
  | ldlS8 (g : BitVec 4) (n : BitVec 1) (d : BitVec 5) (o : BitVec 8) (b : BitVec 3)
  /-- LDL_U16 (R160): Local half load, zero-extended. -/
  | ldlU16 (g : BitVec 4) (n : BitVec 1) (d : BitVec 5) (o : BitVec 8) (b : BitVec 3)
  /-- LDL_S16 (R160): Local half load, sign-extended. -/
  | ldlS16 (g : BitVec 4) (n : BitVec 1) (d : BitVec 5) (o : BitVec 8) (b : BitVec 3)
  /-- STL_B8 (R160): Local byte store. -/
  | stlB8 (g : BitVec 4) (n : BitVec 1) (d : BitVec 5) (o : BitVec 8) (b : BitVec 3)
  /-- STL_B16 (R160): Local half store. -/
  | stlB16 (g : BitVec 4) (n : BitVec 1) (d : BitVec 5) (o : BitVec 8) (b : BitVec 3)
  /-- PFG (R161): Prefetch each acting lane's sector into L1. -/
  | pfg (g : BitVec 4) (n : BitVec 1) (o : BitVec 8) (b : BitVec 3) (f : BitVec 1)
  /-- ATOMG (R165): Per-lane global atomic of the selected op at the chosen scope. -/
  | atomg (g : BitVec 4) (n : BitVec 1) (d v : BitVec 5) (b : BitVec 3) (o : BitVec 4) (s r : BitVec 2)
  /-- ATOML (R165): Per-lane local-store atomic. -/
  | atoml (g : BitVec 4) (n : BitVec 1) (d v : BitVec 5) (b : BitVec 3) (o : BitVec 4) (s r : BitVec 2)
  /-- ATOMS (R169): One uniform PART-scope atomic on a pair address. -/
  | atoms (g : BitVec 4) (n : BitVec 1) (s b : BitVec 8) (o : BitVec 4) (a : BitVec 1)
  /-- FENCE (R171): Release then acquire at the scope. -/
  | fence (g : BitVec 4) (n : BitVec 1) (s : BitVec 3)
  /-- REL (R171): Release: wait loads, send buffer, wait scope counters. -/
  | rel (g : BitVec 4) (n : BitVec 1) (s : BitVec 3)
  /-- ACQ (R171): Acquire: wait loads, invalidate covered L1 sectors. -/
  | acq (g : BitVec 4) (n : BitVec 1) (s : BitVec 3)
  /-- ACQ_RMT (R172): Promote a target core's CORE releases, then ACQ.PART. -/
  | acqRmt (g : BitVec 4) (n : BitVec 1) (b : BitVec 8)
  /-- WDRAIN (R171): Send the buffer and wait until all counters are zero. -/
  | wdrain (g : BitVec 4) (n : BitVec 1)
  /-- L1WB (R171): Send every unsent buffer entry of the core. -/
  | l1wb (g : BitVec 4) (n : BitVec 1)
  /-- L1INV (R171): Invalidate every L1 sector of the core. -/
  | l1inv (g : BitVec 4) (n : BitVec 1)
  /-- LEASE_SET (R245): Set the sheaf's declared lease. -/
  | leaseSet (g : BitVec 4) (n : BitVec 1) (b : BitVec 8)
  /-- LEASE_MEAS (R245): Put the sheaf in measured lease mode. -/
  | leaseMeas (g : BitVec 4) (n : BitVec 1)
  /-- LEASE_GET (R245): Read the measured lease estimate. -/
  | leaseGet (g : BitVec 4) (n : BitVec 1) (b : BitVec 8)
  /-- BARV (R278): Arrive at a group barrier and return the phase. -/
  | barv (g : BitVec 4) (n : BitVec 1) (q b : BitVec 8)
  /-- BWAIT (R278): Wait for a barrier phase token to complete. -/
  | bwait (g : BitVec 4) (n : BitVec 1) (q b : BitVec 8)
  /-- BSYNC (R278): Arrive and wait for the phase to complete. -/
  | bsync (g : BitVec 4) (n : BitVec 1) (q : BitVec 8)
  /-- BARVN (R278): Arrive and retire from a group. -/
  | barvn (g : BitVec 4) (n : BitVec 1) (q : BitVec 8)
  /-- BTEST (R278): Test a phase token's completion state. -/
  | btest (g : BitVec 4) (n : BitVec 1) (q b : BitVec 8)
  /-- GMASK (R270): Read a group's member bitmap. -/
  | gmask (g : BitVec 4) (n : BitVec 1) (q b : BitVec 8)
  /-- GQRY (R270): Read a group's counts, phase and flags. -/
  | gqry (g : BitVec 4) (n : BitVec 1) (q b : BitVec 8)
  /-- GSAVE (R270): Handler read of a group entry image. -/
  | gsave (g : BitVec 4) (n : BitVec 1) (q b : BitVec 8)
  /-- GLOAD (R271): Handler write of a group's arrival, phase and poison. -/
  | gload (g : BitVec 4) (n : BitVec 1) (q b : BitVec 8)
  /-- MMA (R181): Matrix multiply-accumulate into a tile, alone or fused. -/
  | mma (g : BitVec 4) (n : BitVec 1) (t : BitVec 3) (f : BitVec 2) (v : BitVec 5) (a : BitVec 3) (y : BitVec 4) (z : BitVec 1) (s : BitVec 3)
  /-- MZERO (R187): Zero the acting rows of a tile. -/
  | mzero (g : BitVec 4) (n : BitVec 1) (t : BitVec 3)
  /-- MLDT (R188): Load tile rows from local store through a descriptor. -/
  | mldt (g : BitVec 4) (n : BitVec 1) (t d : BitVec 3) (f : BitVec 2)
  /-- MSTT (R189): Store tile rows to local store through a descriptor. -/
  | mstt (g : BitVec 4) (n : BitVec 1) (t d : BitVec 3) (f : BitVec 2)
  /-- MROWV (R190): Copy a tile into eight varying registers. -/
  | mrowv (g : BitVec 4) (n : BitVec 1) (v : BitVec 5) (t : BitVec 3)
  /-- MWAIT (R193): Wait until the sheaf's matrix operations complete. -/
  | mwait (g : BitVec 4) (n : BitVec 1)
  /-- MFENCE (R192): Wait for register writes and local accesses before later matrix reads. -/
  | mfence (g : BitVec 4) (n : BitVec 1)
  /-- MDESC (R191): Write a matrix descriptor from a uniform pair. -/
  | mdesc (g : BitVec 4) (n : BitVec 1) (d : BitVec 3) (b : BitVec 8)
  /-- MDESC_GET (R191): Read a matrix descriptor into a uniform pair. -/
  | mdescGet (g : BitVec 4) (n : BitVec 1) (d : BitVec 3) (b : BitVec 8)
  /-- CPY_LIN (R199): Enqueue a linear global-to-local copy. -/
  | cpyLin (g : BitVec 4) (n : BitVec 1) (t : BitVec 6) (b : BitVec 8)
  /-- CPY_LINW (R199): Enqueue a linear local-to-global copy. -/
  | cpyLinw (g : BitVec 4) (n : BitVec 1) (t : BitVec 6) (b : BitVec 8)
  /-- CPY_T2D (R199): Enqueue a 2-D global-to-local swizzled copy. -/
  | cpyT2d (g : BitVec 4) (n : BitVec 1) (t : BitVec 6) (b : BitVec 8)
  /-- CPY_T2DW (R199): Enqueue a 2-D local-to-global copy. -/
  | cpyT2dw (g : BitVec 4) (n : BitVec 1) (t : BitVec 6) (b : BitVec 8)
  /-- CPY_XPND (R200): Enqueue an umbel-block expansion into BF16 rows. -/
  | cpyXpnd (g : BitVec 4) (n : BitVec 1) (t : BitVec 6) (b : BitVec 8)
  /-- CPY_GATH (R199): Enqueue an indexed gather of global rows. -/
  | cpyGath (g : BitVec 4) (n : BitVec 1) (t : BitVec 6) (b : BitVec 8)
  /-- CPY_SCAT (R199): Enqueue an indexed scatter to global rows. -/
  | cpyScat (g : BitVec 4) (n : BitVec 1) (t : BitVec 6) (b : BitVec 8)
  /-- CPY_L2L (R199): Enqueue a local-to-local copy. -/
  | cpyL2l (g : BitVec 4) (n : BitVec 1) (t : BitVec 6) (b : BitVec 8)
  /-- CPY_FILL (R199): Enqueue a local pattern fill. -/
  | cpyFill (g : BitVec 4) (n : BitVec 1) (t : BitVec 6) (b : BitVec 8)
  /-- TWAITANY (R208): Wait for any masked tag DONE and return it. -/
  | twaitany (g : BitVec 4) (n : BitVec 1) (s b : BitVec 8)
  /-- TWAITALL (R208): Wait until every masked tag has COUNT 0. -/
  | twaitall (g : BitVec 4) (n : BitVec 1) (s b : BitVec 8)
  /-- TFIND (R208): Return a DONE masked tag without waiting. -/
  | tfind (g : BitVec 4) (n : BitVec 1) (s b : BitVec 8)
  /-- TCLR (R208): Clear DONE, FAIL and CODE of idle masked tags. -/
  | tclr (g : BitVec 4) (n : BitVec 1) (b : BitVec 8)
  /-- TSTAT (R208): Read one tag's status. -/
  | tstat (g : BitVec 4) (n : BitVec 1) (s b : BitVec 8)
  /-- RPUT (R211): Append a token to a stage ring, waiting while full. -/
  | rput (g : BitVec 4) (n : BitVec 1) (r : BitVec 4) (s : BitVec 8)
  /-- RGET (R211): Remove the oldest ring token, waiting while empty. -/
  | rget (g : BitVec 4) (n : BitVec 1) (r : BitVec 4) (s : BitVec 8)
  /-- RPUT_NB (R211): Non-blocking ring put with success predicate. -/
  | rputNb (g : BitVec 4) (n : BitVec 1) (r : BitVec 4) (s : BitVec 8) (p : BitVec 4)
  /-- RGET_NB (R211): Non-blocking ring get with success predicate. -/
  | rgetNb (g : BitVec 4) (n : BitVec 1) (r : BitVec 4) (s : BitVec 8) (p : BitVec 4)
  /-- RCLOSE (R211): Mark the issuing sheaf closed as a ring producer. -/
  | rclose (g : BitVec 4) (n : BitVec 1) (r : BitVec 4)
  /-- RSTAT (R211): Read a ring's status. -/
  | rstat (g : BitVec 4) (n : BitVec 1) (r : BitVec 4) (s : BitVec 8)
  /-- HGIVE (R214): Give a local-store buffer to another core's arrival queue. -/
  | hgive (g : BitVec 4) (n : BitVec 1) (b x : BitVec 8)
  /-- HRECV (R214): Wait for a buffer arrival and take it into a handle slot. -/
  | hrecv (g : BitVec 4) (n : BitVec 1) (b x : BitVec 8)
  /-- HQRY (R214): Read a handle slot's status. -/
  | hqry (g : BitVec 4) (n : BitVec 1) (b : BitVec 8)
  /-- HDROP (R214): Free a handle slot and return its buffer. -/
  | hdrop (g : BitVec 4) (n : BitVec 1) (b : BitVec 8)
  /-- KLAUNCH (R250): Judge and enqueue a child KERNEL packet. -/
  | klaunch (g : BitVec 4) (n : BitVec 1) (b : BitVec 8)
  /-- KWAIT (R251): Wait for a child kernel to end and report its status. -/
  | kwait (g : BitVec 4) (n : BitVec 1) (b : BitVec 8)
  /-- KQUOTA (R252): Snapshot the context's remaining quotas. -/
  | kquota (g : BitVec 4) (n : BitVec 1) (b : BitVec 8)
  /-- CRS (R352): Enqueue a collective reduce-scatter. -/
  | crs (g : BitVec 4) (n : BitVec 1) (t : BitVec 6) (b : BitVec 8) (c : BitVec 1) (y : BitVec 2)
  /-- CAG (R352): Enqueue a collective all-gather. -/
  | cag (g : BitVec 4) (n : BitVec 1) (t : BitVec 6) (b : BitVec 8) (c : BitVec 1) (y : BitVec 2)
  /-- CAR (R352): Enqueue a collective all-reduce. -/
  | car (g : BitVec 4) (n : BitVec 1) (t : BitVec 6) (b : BitVec 8) (c : BitVec 1) (y : BitVec 2)
  /-- MKDOWN (R323): Lower a register's mark under the declassify grant. -/
  | mkdown (g : BitVec 4) (n : BitVec 1) (m : BitVec 2) (b : BitVec 8)
  /-- MKGET (R324): Read the mark or binding selected by sK. -/
  | mkget (g : BitVec 4) (n : BitVec 1) (b : BitVec 8)
  /-- TRMARK (R325): Post a user-mark event to Teasel. -/
  | trmark (g : BitVec 4) (n : BitVec 1) (b : BitVec 8)
  /-- CLKRD (R326): Read CLK after earlier results are written. -/
  | clkrd (g : BitVec 4) (n : BitVec 1) (b : BitVec 8)
  /-- XIMM (R93): Hint prefix extending the next instruction's immediate or offset. -/
  | ximm (p : BitVec 19)
  /-- REP (R94): Hint prefix repeating the next instruction with stepped fields. -/
  | rep (b a d : BitVec 1) (s : BitVec 2) (c : BitVec 6)
  /-- LA (R96): Hint prefix giving the next instruction a lookahead. -/
  | la (l : BitVec 4)
  /-- QUANTUM_EXPIRY (R24): A fairness turn ends when its count reaches FAIRQ.Q. -/
  | quantumExpiry (sid : Nat)
  /-- STARVATION_LIMIT (R246): A sheaf's starvation count reaches 512 and takes priority. -/
  | starvationLimit (core quad : Nat)
  /-- GREEDY_LIMIT (R246): The greedy sheaf's 32-slot run ends. -/
  | greedyLimit (core quad : Nat)
  /-- ADMISSION_PASS (R243): Yarrow admits parked sheaves within the lease budget. -/
  | admissionPass (core : Nat)
  /-- AGE_BOUND_EXPIRY (R243): A parked sheaf is admitted when its age bound passes. -/
  | ageBoundExpiry (sid : Nat)
  /-- FOOTPRINT_WINDOW (R242): A 1,024-instruction sketch window ends and VG halves. -/
  | footprintWindow (sid lines : Nat)
  /-- KERNEL_DISPATCH (R233): Read and check the descriptor and tables of a queued kernel. -/
  | kernelDispatch (kid : Nat)
  /-- KERNEL_RUNNING (R234): The kernel becomes RUNNING once its ranges are resident. -/
  | kernelRunning (kid : Nat)
  /-- TUFT_PLACEMENT (R238): Place a tuft on a core that meets every condition. -/
  | tuftPlacement (kid : Nat)
  /-- TUFT_COMPLETE (R34): A tuft with all sheaves exited and no commands completes. -/
  | tuftComplete (tid : Nat)
  /-- COMPLETION_SIGNAL (R262): Write the kernel record and completion signal after REL.SYS. -/
  | completionSignal (kid : Nat)
  /-- RUNMAX_EXPIRY (R240): A tuft resident beyond RUNMAX is faulted. -/
  | runmaxExpiry (tid : Nat)
  /-- TUFT_SUSPEND (R247): Suspend eligible waiting tufts to their save areas. -/
  | tuftSuspend (tid : Nat)
  /-- FORCED_SUSPENSION (R247): Halt and suspend a tuft regardless of eligibility. -/
  | forcedSuspension (tid : Nat)
  /-- TUFT_RELOAD (R248): Reload a reloadable SUSPENDED tuft onto a core. -/
  | tuftReload (tid : Nat)
  /-- TUFT_ABORT (R293): RESTART-mode fault aborts the tuft back to PENDING. -/
  | tuftAbort (tid : Nat)
  /-- STORE_BUFFER_SEND (R158): A store-buffer entry is sent toward its home. -/
  | storeBufferSend (sid : Nat)
  /-- WRITE_PERFORM (R221): A sent write performs at its home in coherence order. -/
  | writePerform (mid : Nat)
  /-- WRITE_ACK (R170): A home acknowledgement decrements an outstanding-write counter. -/
  | writeAck (mid : Nat)
  /-- LOAD_RETURN (R157): A load's data returns and its destination is written. -/
  | loadReturn (sid pid : Nat) (lanes : BitVec 32)
  /-- ATOMIC_REPLY (R166): A home atomic's reply returns the old value. -/
  | atomicReply (mid : Nat)
  /-- WALK (R283): The slice walker translates a TLB miss. -/
  | walk (core ctx : Nat) (va : BitVec 64)
  /-- WALK_WAKE (R284): Waiting walks retry after a commit write or shoot-down completion. -/
  | walkWake (slice : Nat)
  /-- SHOOTDOWN_GO (R294): Accept a shoot-down command and number it. -/
  | shootdownGo (slice : Nat)
  /-- SHOOTDOWN_COMPLETE (R296): A shoot-down completes and SDDONE advances. -/
  | shootdownComplete (part : Nat)
  /-- MATRIX_OP_COMPLETE (R193): A matrix operation finishes its reads and writes. -/
  | matrixOpComplete (sid : Nat)
  /-- COPY_START (R201): The engine starts a queued command after its release. -/
  | copyStart (core : Nat)
  /-- COPY_COMPLETE (R207): A copy command completes and updates its tag. -/
  | copyComplete (core cmd : Nat)
  /-- COLLECTIVE_JOIN (R351): All members' k-th commands join, or fail with PEER. -/
  | collectiveJoin (part group : Nat)
  /-- COLLECTIVE_COMPLETE (R352): A collective finishes its fold or gather and records DONE. -/
  | collectiveComplete (part group : Nat)
  /-- SERVICE_REPLY (R149): The partition kernel's reply resumes a sheaf in SVC. -/
  | serviceReply (sid : Nat) (failed : Bool)
  /-- REPLY_RESUME (R335): Fault reply RESUME replays the faulting access. -/
  | replyResume (slice token : Nat)
  /-- REPLY_ABANDON (R335): Fault reply ABANDON faults the lanes or fails the access. -/
  | replyAbandon (slice token : Nat)
  /-- REPLY_DROPLANES (R335): Fault reply DROPLANES faults named lanes and replays the rest. -/
  | replyDroplanes (slice token : Nat)
  /-- REPLY_DISCARD (R335): Fault reply DISCARD discards the record's tuft or kernel. -/
  | replyDiscard (slice token : Nat)
  /-- QUEUE_REGISTER (R256): Register a queue in the launch-unit table. -/
  | queueRegister (slice entry : Nat)
  /-- QUEUE_DESTROY (R256): Move a queue to DRAINING. -/
  | queueDestroy (slice entry : Nat)
  /-- QUEUE_WAKE (R258): A write to header line 0 wakes the launch unit to read WRIDX. -/
  | queueWake (slice entry : Nat)
  /-- PACKET_FETCH (R258): Fetch the head packet once it may start and advance RDIDX. -/
  | packetFetch (slice entry : Nat)
  /-- PACKET_KERNEL (R261): A KERNEL packet queues its kernel. -/
  | packetKernel (slice entry : Nat)
  /-- PACKET_WAITALL (R261): Wait until every signal reaches TARGET. -/
  | packetWaitall (slice entry : Nat)
  /-- PACKET_WAITANY (R261): Wait until some signal reaches TARGET. -/
  | packetWaitany (slice entry : Nat)
  /-- PACKET_SIGNAL (R261): Store or add a value at a signal address. -/
  | packetSignal (slice entry : Nat)
  /-- PACKET_HOLD (R263): Take a grant from a hold counter. -/
  | packetHold (slice entry : Nat)
  /-- PACKET_RELEASE (R263): Add a grant to a hold counter. -/
  | packetRelease (slice entry : Nat)
  /-- PACKET_NOP (R261): A packet that ends at once. -/
  | packetNop (slice entry : Nat)
  /-- WAIT_REEVALUATE (R261): Re-read a waiting packet's signals after a signal write. -/
  | waitReevaluate (slice entry : Nat)
  /-- PARTITION_FORM (R306): Campion forms a partition and scrubs its planes. -/
  | partitionForm (req : FormRequest)
  /-- PARTITION_READY (R306): The partition kernel reports ready; RUNNING. -/
  | partitionReady (part : Nat)
  /-- BOOT_FAILURE (R306): A boot failure dissolves a BOOTING partition. -/
  | bootFailure (part : Nat)
  /-- PART_ADD (R307): Mailbox request adding a slice to the partition. -/
  | partAdd (part slice : Nat)
  /-- PART_REMOVE (R307): Mailbox request draining and removing a slice. -/
  | partRemove (part slice drainMax : Nat)
  /-- DRAINMAX_EXPIRY (R307): DRAINMAX passes and remaining tufts are suspended or discarded. -/
  | drainmaxExpiry (part : Nat)
  /-- PART_LEND (R310): Mailbox request lending a slice to a borrower. -/
  | partLend (part slice borrower deadline : Nat)
  /-- PART_RECALL (R311): Mailbox request recalling a lent slice. -/
  | partRecall (part slice : Nat)
  /-- RECALL_DEADLINE (R311): Unhalted borrower tufts are discarded at the deadline. -/
  | recallDeadline (slice : Nat)
  /-- RECALL_WRITE_OUT (R311): Parked borrower tufts are written out and the back plane scrubbed. -/
  | recallWriteOut (slice : Nat)
  /-- PART_HALT (R306): Mailbox request halting every core of the partition. -/
  | partHalt (part : Nat)
  /-- PART_RESUME (R306): Mailbox request resuming a halted partition. -/
  | partResume (part : Nat)
  /-- PART_DISSOLVE (R306): Mailbox request dissolving a halted partition. -/
  | partDissolve (part : Nat)
  /-- EVIDENCE (R361): Mailbox request writing a signed evidence block. -/
  | evidence (part package out nonce : Nat)
  /-- CERTS (R358): Mailbox request writing the certificate chain. -/
  | certs (part package out len : Nat)
  /-- EXTEND (R357): Mailbox request extending a partition measurement slot. -/
  | extend (part slot digestAt : Nat)
  /-- CTX_CREATE (R313): Context command creating a context. -/
  | ctxCreate (part ctx : Nat)
  /-- CTX_ACTIVATE (R313): Context command activating a context. -/
  | ctxActivate (part ctx : Nat)
  /-- CTX_SUSPEND (R313): Context command pre-empting, optionally saving, a context. -/
  | ctxSuspend (part ctx : Nat) (save : Bool)
  /-- CTX_RESUME (R313): Context command returning suspended kernels to QUEUED. -/
  | ctxResume (part ctx : Nat)
  /-- CTX_FAULT (R313): Context command discarding tufts and faulting kernels. -/
  | ctxFault (part ctx : Nat)
  /-- CTX_DESTROY (R314): Context command destroying a context with crypto-erasure. -/
  | ctxDestroy (part ctx : Nat)
  /-- KEY_LOAD (R316): Key command loading a key pair into a slot. -/
  | keyLoad (slice : Nat) (cmd : KeyCommand)
  /-- KEY_LOADW (R367): Key command unwrapping a wrapped key into a slot. -/
  | keyLoadw (slice : Nat) (cmd : KeyCommand)
  /-- KEY_ERASE (R317): Key command erasing a key slot. -/
  | keyErase (slice : Nat) (cmd : KeyCommand)
  /-- CORRECTABLE_ERROR (R338): An ECC-correctable error is corrected and counted. -/
  | correctableError (slice : Nat)
  /-- UNCORRECTABLE_ERROR (R338): An uncorrectable error poisons a sector or faults a tuft. -/
  | uncorrectableError (site : ErrorSite)
  /-- SLICE_LOST (R338): A failed slice is reset and its partitions notified. -/
  | sliceLost (slice : Nat)
  /-- PORT_ENABLE (R341): Campion enables a port into TRAINING. -/
  | portEnable (slice : Nat)
  /-- PORT_DISABLE (R341): Campion disables a port to DOWN. -/
  | portDisable (slice : Nat)
  /-- PORT_FENCE (R341): Campion fences a port. -/
  | portFence (slice : Nat)
  /-- PORT_UNFENCE (R341): Campion unfences a port for a new owner into KEYING. -/
  | portUnfence (slice : Nat)
  /-- TRAINING_DONE (R341): Wavelengths trained; the port enters KEYING. -/
  | trainingDone (slice txUp rxUp : Nat)
  /-- TRAINING_FAILED (R341): A third failed training attempt leaves the port FAILED. -/
  | trainingFailed (slice : Nat)
  /-- KEYING_DONE (R345): Keys installed; the port enters UP or DEGRADED. -/
  | keyingDone (slice : Nat)
  /-- WAVELENGTH_LOSS (R341): Loss of wavelengths degrades or retrains a port. -/
  | wavelengthLoss (slice txUp rxUp : Nat)
  /-- RETRAINING_RESTORED (R341): Background retraining restores all 32 wavelengths. -/
  | retrainingRestored (slice : Nat)
  /-- REKEY (R345): Packet numbers reach 2^63 and the port rekeys. -/
  | rekey (slice : Nat)
  /-- PACKET_RECEIVE (R346): A link packet is authenticated and performed or dropped. -/
  | packetReceive (slice : Nat) (pkt : LinkPacket)
  /-- RETRANSMIT_TIMEOUT (R344): An unanswered transaction is resent, failing after the third. -/
  | retransmitTimeout (mid : Nat)
  /-- LCTL_WRITE (R340): Write the port's window and timeout, with refusal checks. -/
  | lctlWrite (slice : Nat) (v : BitVec 32)
  /-- GET_VERSION (R362): SPDM version request. -/
  | getVersion (package : Nat)
  /-- GET_CAPABILITIES (R362): SPDM capabilities request. -/
  | getCapabilities (package : Nat)
  /-- NEGOTIATE_ALGORITHMS (R362): SPDM algorithm negotiation, with what is offered. -/
  | negotiateAlgorithms (offer : AlgorithmOffer)
  /-- GET_DIGESTS (R362): SPDM certificate digests request. -/
  | getDigests (package : Nat)
  /-- GET_CERTIFICATE (R362): SPDM certificate chain request for slot 0. -/
  | getCertificate (package slot offset len : Nat)
  /-- CHALLENGE (R362): SPDM signed challenge. -/
  | challenge (package : Nat) (nonce : List (BitVec 8))
  /-- GET_MEASUREMENTS (R362, R363): SPDM measurement request returning evidence blocks, signed where it carries a nonce. -/
  | getMeasurements (package index : Nat) (nonce : List (BitVec 8))
  /-- SPDM_UNSUPPORTED (R362): Any other SPDM request receives UnsupportedRequest. -/
  | spdmUnsupported (package code : Nat)
  /-- FIRMWARE_STAGE (R402): Operator stages firmware through the management port. -/
  | firmwareStage (package slot : Nat) (image : List (BitVec 8))
  /-- ACTIVATION_START (R364): Start a live activation and raise ASEQ. -/
  | activationStart (package : Nat)
  /-- ACTIVATION_COMMIT (R365): Commit activation: extend slots and raise every LSEQ. -/
  | activationCommit (package : Nat)
  /-- ACTIVATION_ROLLBACK (R365): Roll back an activation leaving slots unchanged. -/
  | activationRollback (package : Nat)
  /-- MGMT_OTHER_MESSAGE (R402): Any other management message receives an MCTP error. -/
  | mgmtOtherMessage (package code : Nat)
  /-- PACKAGE_RESET (R394): Power-on reset runs bring-up steps 1 to 5. -/
  | packageReset (package : Nat)
  /-- PWRCTL_WRITE (R395): Set an island's power mode and cap. -/
  | pwrctlWrite (slice island : Nat) (v : BitVec 32)
  /-- THERM_THROTTLE (R396): Cold-plate temperature lowers or restores the clock. -/
  | thermThrottle (slice island : Nat) (on : Bool) (fclk : Nat)
  /-- POWER_WINDOW (R395): The 1 ms power measurement updates POWER and CAPPED clock. -/
  | powerWindow (slice island watts fclk : Nat)
  /-- TRCTL_WRITE (R398): Set Teasel classes, sampling and destination. -/
  | trctlWrite (slice : Nat) (v : BitVec 32)
  /-- TEASEL_DRAIN (R400): Drain trace records to the ring or management port. -/
  | teaselDrain (slice : Nat)
  /-- LSCHED_WRITE (R241): Write a core's LSCHED, refused on bad values or LSPLIT change. -/
  | lschedWrite (core : Nat) (v : BitVec 32)
  /-- URGENT_WRITE (R304): Set the slice's reserved urgent core count. -/
  | urgentWrite (slice : Nat) (v : BitVec 32)
  /-- FRAME_OWNER_WRITE (R290): Partition kernel write of a frame's PK and CTX. -/
  | frameOwnerWrite (slice frame : Nat) (v : BitVec 32)
  /-- CONTROL_REG_WRITE (R304): Write to any other control register or field, recording refusals. -/
  | controlRegWrite (slice offset width value : Nat)
  /-- UNASSIGNED_ENCODING (R89): An issued word with a reserved major, an unassigned function code, a malformed hint or a non-zero must-be-zero field raises ILLEGAL precisely. -/
  | unassignedEncoding (w : BitVec 32)
  /-- LONG_LATENCY_RESULT (R99): The result of a special function, shuffle, uniform divide or square root returns and writes its destination after its lookahead window has begun. -/
  | longLatencyResult (sid pid : Nat)
  /-- SERVICE_CORE_ACCESS (R318): A service core's memory access passes the cipher boundary, key-slot and frame ownership checks, raising KEY_SLOT for a SEALED slot. -/
  | serviceCoreAccess (acc : ServiceAccess)
  /-- PARTITION_KERNEL_FETCH (R357): The boot loader's fetch of the partition kernel completes and Campion extends MS9 and MS10. -/
  | partitionKernelFetch (part : Nat) (image args : List (BitVec 8))
  /-- CPU_TRAY_REGISTER (R347): Campion registers a CPU tray to one partition and context and gives it a source identifier. -/
  | cpuTrayRegister (source part ctx : Nat)
  deriving DecidableEq, Repr

end Sys2Proof
end

