-- ==== Sys2Proof/Decode.lean ====
section
/-!
DEFINITION. The decoder of instruction words and, after it, the encoder, both from the formats of R87 and the maps of R89
and R90. A word whose major, function code or must-be-zero field is not assigned decodes to none (R86 steps 1 and 2, and
R89); register fields and guard values are judged by WellFormed. Words are little-endian in memory (R5).
-/
namespace Sys2Proof

/-- k bits of the word w from bit lo upward. -/
def bits (w lo k : Nat) : BitVec k := BitVec.ofNat k (w / 2 ^ lo)

/-- The fixed field [lo + k - 1 : lo] of w holds v. -/
def fixedField (w lo k v : Nat) : Bool := w / 2 ^ lo % 2 ^ k == v

/-- Words of major 0x01 (R89). -/
def decodeMaj01 (w : Nat) : Option Instr :=
  match w / 2 ^ 0 % 8 with
  | 0 => some (.vadd (bits w 22 4) (bits w 21 1) (bits w 16 5) (bits w 11 5) (bits w 3 8))
  | 1 => some (.vsub (bits w 22 4) (bits w 21 1) (bits w 16 5) (bits w 11 5) (bits w 3 8))
  | 2 => some (.vsubr (bits w 22 4) (bits w 21 1) (bits w 16 5) (bits w 11 5) (bits w 3 8))
  | 3 => some (.vminS (bits w 22 4) (bits w 21 1) (bits w 16 5) (bits w 11 5) (bits w 3 8))
  | 4 => some (.vmaxS (bits w 22 4) (bits w 21 1) (bits w 16 5) (bits w 11 5) (bits w 3 8))
  | 5 => some (.vminU (bits w 22 4) (bits w 21 1) (bits w 16 5) (bits w 11 5) (bits w 3 8))
  | 6 => some (.vmaxU (bits w 22 4) (bits w 21 1) (bits w 16 5) (bits w 11 5) (bits w 3 8))
  | 7 => some (.vadifS (bits w 22 4) (bits w 21 1) (bits w 16 5) (bits w 11 5) (bits w 3 8))
  | _ => none

/-- Words of major 0x02 (R89). -/
def decodeMaj02 (w : Nat) : Option Instr :=
  match w / 2 ^ 0 % 8 with
  | 0 => some (.vand (bits w 22 4) (bits w 21 1) (bits w 16 5) (bits w 11 5) (bits w 3 8))
  | 1 => some (.vor (bits w 22 4) (bits w 21 1) (bits w 16 5) (bits w 11 5) (bits w 3 8))
  | 2 => some (.vxor (bits w 22 4) (bits w 21 1) (bits w 16 5) (bits w 11 5) (bits w 3 8))
  | 3 => some (.vandn (bits w 22 4) (bits w 21 1) (bits w 16 5) (bits w 11 5) (bits w 3 8))
  | 4 => some (.vshl (bits w 22 4) (bits w 21 1) (bits w 16 5) (bits w 11 5) (bits w 3 8))
  | 5 => some (.vshrU (bits w 22 4) (bits w 21 1) (bits w 16 5) (bits w 11 5) (bits w 3 8))
  | 6 => some (.vshrS (bits w 22 4) (bits w 21 1) (bits w 16 5) (bits w 11 5) (bits w 3 8))
  | 7 => some (.vrotl (bits w 22 4) (bits w 21 1) (bits w 16 5) (bits w 11 5) (bits w 3 8))
  | _ => none

/-- Words of major 0x03 (R89). -/
def decodeMaj03 (w : Nat) : Option Instr :=
  match w / 2 ^ 0 % 8 with
  | 0 => some (.vmul (bits w 22 4) (bits w 21 1) (bits w 16 5) (bits w 11 5) (bits w 3 8))
  | 1 => some (.vmulhS (bits w 22 4) (bits w 21 1) (bits w 16 5) (bits w 11 5) (bits w 3 8))
  | 2 => some (.vmulhU (bits w 22 4) (bits w 21 1) (bits w 16 5) (bits w 11 5) (bits w 3 8))
  | 3 => some (.vmad (bits w 22 4) (bits w 21 1) (bits w 16 5) (bits w 11 5) (bits w 3 8))
  | 4 => some (.vaddsS (bits w 22 4) (bits w 21 1) (bits w 16 5) (bits w 11 5) (bits w 3 8))
  | 5 => some (.vsubsS (bits w 22 4) (bits w 21 1) (bits w 16 5) (bits w 11 5) (bits w 3 8))
  | 6 => some (.vaddsU (bits w 22 4) (bits w 21 1) (bits w 16 5) (bits w 11 5) (bits w 3 8))
  | 7 => some (.vsubsU (bits w 22 4) (bits w 21 1) (bits w 16 5) (bits w 11 5) (bits w 3 8))
  | _ => none

/-- Words of major 0x04 (R89). -/
def decodeMaj04 (w : Nat) : Option Instr :=
  match w / 2 ^ 0 % 8 with
  | 0 => if fixedField w 11 5 0 then some (.vpopc (bits w 22 4) (bits w 21 1) (bits w 16 5) (bits w 3 8)) else none
  | 1 => if fixedField w 11 5 0 then some (.vclz (bits w 22 4) (bits w 21 1) (bits w 16 5) (bits w 3 8)) else none
  | 2 => if fixedField w 11 5 0 then some (.vbrev (bits w 22 4) (bits w 21 1) (bits w 16 5) (bits w 3 8)) else none
  | 3 => some (.vbfeU (bits w 22 4) (bits w 21 1) (bits w 16 5) (bits w 11 5) (bits w 3 8))
  | 4 => some (.vbfeS (bits w 22 4) (bits w 21 1) (bits w 16 5) (bits w 11 5) (bits w 3 8))
  | 5 => some (.vbfi (bits w 22 4) (bits w 21 1) (bits w 16 5) (bits w 11 5) (bits w 3 8))
  | 6 => some (.vpermb (bits w 22 4) (bits w 21 1) (bits w 16 5) (bits w 11 5) (bits w 3 8))
  | 7 => if fixedField w 11 5 0 then some (.vmov (bits w 22 4) (bits w 21 1) (bits w 16 5) (bits w 3 8)) else none
  | _ => none

/-- Words of major 0x05 (R89). -/
def decodeMaj05 (w : Nat) : Option Instr :=
  match w / 2 ^ 0 % 8 with
  | 0 => some (.vfadd (bits w 22 4) (bits w 21 1) (bits w 16 5) (bits w 11 5) (bits w 3 8))
  | 1 => some (.vfsub (bits w 22 4) (bits w 21 1) (bits w 16 5) (bits w 11 5) (bits w 3 8))
  | 2 => some (.vfmul (bits w 22 4) (bits w 21 1) (bits w 16 5) (bits w 11 5) (bits w 3 8))
  | 3 => some (.vfma (bits w 22 4) (bits w 21 1) (bits w 16 5) (bits w 11 5) (bits w 3 8))
  | 4 => some (.vfnma (bits w 22 4) (bits w 21 1) (bits w 16 5) (bits w 11 5) (bits w 3 8))
  | 5 => some (.vfmin (bits w 22 4) (bits w 21 1) (bits w 16 5) (bits w 11 5) (bits w 3 8))
  | 6 => some (.vfmax (bits w 22 4) (bits w 21 1) (bits w 16 5) (bits w 11 5) (bits w 3 8))
  | 7 => some (.vfcpys (bits w 22 4) (bits w 21 1) (bits w 16 5) (bits w 11 5) (bits w 3 8))
  | _ => none

/-- Words of major 0x06 (R89). -/
def decodeMaj06 (w : Nat) : Option Instr :=
  match w / 2 ^ 0 % 8 with
  | 0 => some (.vhadd2 (bits w 22 4) (bits w 21 1) (bits w 16 5) (bits w 11 5) (bits w 3 8))
  | 1 => some (.vhsub2 (bits w 22 4) (bits w 21 1) (bits w 16 5) (bits w 11 5) (bits w 3 8))
  | 2 => some (.vhmul2 (bits w 22 4) (bits w 21 1) (bits w 16 5) (bits w 11 5) (bits w 3 8))
  | 3 => some (.vhfma2 (bits w 22 4) (bits w 21 1) (bits w 16 5) (bits w 11 5) (bits w 3 8))
  | 4 => some (.vhmin2 (bits w 22 4) (bits w 21 1) (bits w 16 5) (bits w 11 5) (bits w 3 8))
  | 5 => some (.vhmax2 (bits w 22 4) (bits w 21 1) (bits w 16 5) (bits w 11 5) (bits w 3 8))
  | _ => none

/-- Words of major 0x07 (R89). -/
def decodeMaj07 (w : Nat) : Option Instr :=
  match w / 2 ^ 0 % 8 with
  | 0 => if fixedField w 13 3 0 then some (.vcvtF32Si32 (bits w 22 4) (bits w 21 1) (bits w 16 5) (bits w 11 2) (bits w 3 8)) else if fixedField w 13 3 1 then some (.vcvtF32Ui32 (bits w 22 4) (bits w 21 1) (bits w 16 5) (bits w 11 2) (bits w 3 8)) else if fixedField w 13 3 2 then some (.vcvtSi32F32 (bits w 22 4) (bits w 21 1) (bits w 16 5) (bits w 11 2) (bits w 3 8)) else if fixedField w 13 3 3 then some (.vcvtUi32F32 (bits w 22 4) (bits w 21 1) (bits w 16 5) (bits w 11 2) (bits w 3 8)) else if fixedField w 13 3 4 then some (.vfrint (bits w 22 4) (bits w 21 1) (bits w 16 5) (bits w 11 2) (bits w 3 8)) else none
  | 1 => if fixedField w 11 3 0 then some (.vcvtF32Bf16 (bits w 22 4) (bits w 21 1) (bits w 16 5) (bits w 14 2) (bits w 3 8)) else if fixedField w 11 3 1 then some (.vcvtF32E4m3 (bits w 22 4) (bits w 21 1) (bits w 16 5) (bits w 14 2) (bits w 3 8)) else if fixedField w 11 3 2 then some (.vcvtF32E5m2 (bits w 22 4) (bits w 21 1) (bits w 16 5) (bits w 14 2) (bits w 3 8)) else none
  | 2 => if fixedField w 11 3 0 then some (.vcvtBf16F32 (bits w 22 4) (bits w 21 1) (bits w 16 5) (bits w 14 2) (bits w 3 8)) else if fixedField w 11 3 1 then some (.vcvtE4m3F32 (bits w 22 4) (bits w 21 1) (bits w 16 5) (bits w 14 2) (bits w 3 8)) else if fixedField w 11 3 2 then some (.vcvtE5m2F32 (bits w 22 4) (bits w 21 1) (bits w 16 5) (bits w 14 2) (bits w 3 8)) else none
  | 3 => if fixedField w 11 5 0 then some (.vfclass (bits w 22 4) (bits w 21 1) (bits w 16 5) (bits w 3 8)) else if fixedField w 11 5 1 then some (.vfgetexp (bits w 22 4) (bits w 21 1) (bits w 16 5) (bits w 3 8)) else if fixedField w 11 5 2 then some (.vfscaleb (bits w 22 4) (bits w 21 1) (bits w 16 5) (bits w 3 8)) else none
  | _ => none

/-- Words of major 0x08 (R89). -/
def decodeMaj08 (w : Nat) : Option Instr :=
  match w / 2 ^ 0 % 8 with
  | 0 => if fixedField w 11 1 0 then some (.vrcp (bits w 22 4) (bits w 21 1) (bits w 16 5) (bits w 12 4) (bits w 3 8)) else none
  | 1 => if fixedField w 11 1 0 then some (.vrsq (bits w 22 4) (bits w 21 1) (bits w 16 5) (bits w 12 4) (bits w 3 8)) else none
  | 2 => if fixedField w 11 1 0 then some (.vsqrt (bits w 22 4) (bits w 21 1) (bits w 16 5) (bits w 12 4) (bits w 3 8)) else none
  | 3 => if fixedField w 11 1 0 then some (.vexp2 (bits w 22 4) (bits w 21 1) (bits w 16 5) (bits w 12 4) (bits w 3 8)) else none
  | 4 => if fixedField w 11 1 0 then some (.vlog2 (bits w 22 4) (bits w 21 1) (bits w 16 5) (bits w 12 4) (bits w 3 8)) else none
  | 5 => if fixedField w 11 1 0 then some (.vsinpi (bits w 22 4) (bits w 21 1) (bits w 16 5) (bits w 12 4) (bits w 3 8)) else none
  | 6 => if fixedField w 11 1 0 then some (.vcospi (bits w 22 4) (bits w 21 1) (bits w 16 5) (bits w 12 4) (bits w 3 8)) else none
  | 7 => if fixedField w 11 1 0 then some (.vtanh (bits w 22 4) (bits w 21 1) (bits w 16 5) (bits w 12 4) (bits w 3 8)) else none
  | _ => none

/-- Words of major 0x09 (R89). -/
def decodeMaj09 (w : Nat) : Option Instr :=
  some (.vcmpI (bits w 22 4) (bits w 21 1) (bits w 17 4) (bits w 12 5) (bits w 4 8) (bits w 0 4))

/-- Words of major 0x0A (R89). -/
def decodeMaj0A (w : Nat) : Option Instr :=
  some (.vcmpF (bits w 22 4) (bits w 21 1) (bits w 17 4) (bits w 12 5) (bits w 4 8) (bits w 0 4))

/-- Words of major 0x0B (R89). -/
def decodeMaj0B (w : Nat) : Option Instr :=
  match w / 2 ^ 5 % 16 with
  | 0 => if fixedField w 0 5 0 then some (.pand (bits w 22 4) (bits w 21 1) (bits w 17 4) (bits w 13 4) (bits w 9 4)) else none
  | 1 => if fixedField w 0 5 0 then some (.por (bits w 22 4) (bits w 21 1) (bits w 17 4) (bits w 13 4) (bits w 9 4)) else none
  | 2 => if fixedField w 0 5 0 then some (.pxor (bits w 22 4) (bits w 21 1) (bits w 17 4) (bits w 13 4) (bits w 9 4)) else none
  | 3 => if fixedField w 0 5 0 then some (.pandn (bits w 22 4) (bits w 21 1) (bits w 17 4) (bits w 13 4) (bits w 9 4)) else none
  | 4 => if fixedField w 9 4 0 && fixedField w 0 5 0 then some (.pnot (bits w 22 4) (bits w 21 1) (bits w 17 4) (bits w 13 4)) else none
  | 5 => if fixedField w 9 4 0 && fixedField w 0 5 0 then some (.pmov (bits w 22 4) (bits w 21 1) (bits w 17 4) (bits w 13 4)) else none
  | 6 => if fixedField w 9 8 0 && fixedField w 0 5 0 then some (.pset (bits w 22 4) (bits w 21 1) (bits w 17 4)) else none
  | 7 => if fixedField w 9 8 0 && fixedField w 0 5 0 then some (.pclr (bits w 22 4) (bits w 21 1) (bits w 17 4)) else none
  | 8 => if fixedField w 17 4 0 && fixedField w 9 4 0 then some (.vrank (bits w 22 4) (bits w 21 1) (bits w 13 4) (bits w 0 5)) else none
  | _ => none

/-- Words of major 0x0C (R89). -/
def decodeMaj0C (w : Nat) : Option Instr :=
  some (.shflIdx (bits w 22 4) (bits w 21 1) (bits w 16 5) (bits w 11 5) (bits w 3 8) (bits w 0 3))

/-- Words of major 0x0D (R89). -/
def decodeMaj0D (w : Nat) : Option Instr :=
  some (.shflXor (bits w 22 4) (bits w 21 1) (bits w 16 5) (bits w 11 5) (bits w 3 8) (bits w 0 3))

/-- Words of major 0x0E (R89). -/
def decodeMaj0E (w : Nat) : Option Instr :=
  some (.shflUp (bits w 22 4) (bits w 21 1) (bits w 16 5) (bits w 11 5) (bits w 3 8) (bits w 0 3))

/-- Words of major 0x0F (R89). -/
def decodeMaj0F (w : Nat) : Option Instr :=
  some (.shflDn (bits w 22 4) (bits w 21 1) (bits w 16 5) (bits w 11 5) (bits w 3 8) (bits w 0 3))

/-- Words of major 0x10 (R89). -/
def decodeMaj10 (w : Nat) : Option Instr :=
  match w / 2 ^ 0 % 32 with
  | 0 => some (.sadd (bits w 22 4) (bits w 21 1) (bits w 13 8) (bits w 5 8))
  | 1 => some (.ssub (bits w 22 4) (bits w 21 1) (bits w 13 8) (bits w 5 8))
  | 2 => some (.ssubr (bits w 22 4) (bits w 21 1) (bits w 13 8) (bits w 5 8))
  | 3 => some (.smul (bits w 22 4) (bits w 21 1) (bits w 13 8) (bits w 5 8))
  | 4 => some (.smulhS (bits w 22 4) (bits w 21 1) (bits w 13 8) (bits w 5 8))
  | 5 => some (.smulhU (bits w 22 4) (bits w 21 1) (bits w 13 8) (bits w 5 8))
  | 6 => some (.sdivS (bits w 22 4) (bits w 21 1) (bits w 13 8) (bits w 5 8))
  | 7 => some (.sdivU (bits w 22 4) (bits w 21 1) (bits w 13 8) (bits w 5 8))
  | 8 => some (.sremS (bits w 22 4) (bits w 21 1) (bits w 13 8) (bits w 5 8))
  | 9 => some (.sremU (bits w 22 4) (bits w 21 1) (bits w 13 8) (bits w 5 8))
  | 10 => some (.sand (bits w 22 4) (bits w 21 1) (bits w 13 8) (bits w 5 8))
  | 11 => some (.sor (bits w 22 4) (bits w 21 1) (bits w 13 8) (bits w 5 8))
  | 12 => some (.sxor (bits w 22 4) (bits w 21 1) (bits w 13 8) (bits w 5 8))
  | 13 => some (.sandn (bits w 22 4) (bits w 21 1) (bits w 13 8) (bits w 5 8))
  | 14 => some (.sshl (bits w 22 4) (bits w 21 1) (bits w 13 8) (bits w 5 8))
  | 15 => some (.sshrU (bits w 22 4) (bits w 21 1) (bits w 13 8) (bits w 5 8))
  | 16 => some (.sshrS (bits w 22 4) (bits w 21 1) (bits w 13 8) (bits w 5 8))
  | 17 => some (.sminS (bits w 22 4) (bits w 21 1) (bits w 13 8) (bits w 5 8))
  | 18 => some (.smaxS (bits w 22 4) (bits w 21 1) (bits w 13 8) (bits w 5 8))
  | 19 => some (.sminU (bits w 22 4) (bits w 21 1) (bits w 13 8) (bits w 5 8))
  | 20 => some (.smaxU (bits w 22 4) (bits w 21 1) (bits w 13 8) (bits w 5 8))
  | 21 => some (.smov (bits w 22 4) (bits w 21 1) (bits w 13 8) (bits w 5 8))
  | 22 => some (.spopc (bits w 22 4) (bits w 21 1) (bits w 13 8) (bits w 5 8))
  | 23 => some (.sclz (bits w 22 4) (bits w 21 1) (bits w 13 8) (bits w 5 8))
  | 24 => some (.sseq (bits w 22 4) (bits w 21 1) (bits w 13 8) (bits w 5 8))
  | 25 => some (.ssne (bits w 22 4) (bits w 21 1) (bits w 13 8) (bits w 5 8))
  | 26 => some (.ssltS (bits w 22 4) (bits w 21 1) (bits w 13 8) (bits w 5 8))
  | 27 => some (.ssltU (bits w 22 4) (bits w 21 1) (bits w 13 8) (bits w 5 8))
  | 28 => some (.saddW (bits w 22 4) (bits w 21 1) (bits w 13 8) (bits w 5 8))
  | 29 => some (.ssubW (bits w 22 4) (bits w 21 1) (bits w 13 8) (bits w 5 8))
  | 30 => some (.smovp (bits w 22 4) (bits w 21 1) (bits w 13 8) (bits w 5 8))
  | 31 => some (.pmovs (bits w 22 4) (bits w 21 1) (bits w 13 8) (bits w 5 8))
  | _ => none

/-- Words of major 0x11 (R89). -/
def decodeMaj11 (w : Nat) : Option Instr :=
  match w / 2 ^ 0 % 32 with
  | 0 => some (.sfadd (bits w 22 4) (bits w 21 1) (bits w 13 8) (bits w 5 8))
  | 1 => some (.sfsub (bits w 22 4) (bits w 21 1) (bits w 13 8) (bits w 5 8))
  | 2 => some (.sfmul (bits w 22 4) (bits w 21 1) (bits w 13 8) (bits w 5 8))
  | 3 => some (.sfdiv (bits w 22 4) (bits w 21 1) (bits w 13 8) (bits w 5 8))
  | 4 => some (.sfsqrt (bits w 22 4) (bits w 21 1) (bits w 13 8) (bits w 5 8))
  | 5 => some (.sfrcp (bits w 22 4) (bits w 21 1) (bits w 13 8) (bits w 5 8))
  | 6 => some (.sfrsq (bits w 22 4) (bits w 21 1) (bits w 13 8) (bits w 5 8))
  | 7 => some (.sfmin (bits w 22 4) (bits w 21 1) (bits w 13 8) (bits w 5 8))
  | 8 => some (.sfmax (bits w 22 4) (bits w 21 1) (bits w 13 8) (bits w 5 8))
  | 9 => some (.scvtF32Si32 (bits w 22 4) (bits w 21 1) (bits w 13 8) (bits w 5 8))
  | 10 => some (.scvtF32Ui32 (bits w 22 4) (bits w 21 1) (bits w 13 8) (bits w 5 8))
  | 11 => some (.scvtSi32F32 (bits w 22 4) (bits w 21 1) (bits w 13 8) (bits w 5 8))
  | 12 => some (.scvtUi32F32 (bits w 22 4) (bits w 21 1) (bits w 13 8) (bits w 5 8))
  | 13 => some (.scvtSi32F32Rn (bits w 22 4) (bits w 21 1) (bits w 13 8) (bits w 5 8))
  | 14 => some (.sflt (bits w 22 4) (bits w 21 1) (bits w 13 8) (bits w 5 8))
  | 15 => some (.sfle (bits w 22 4) (bits w 21 1) (bits w 13 8) (bits w 5 8))
  | 16 => some (.sfeq (bits w 22 4) (bits w 21 1) (bits w 13 8) (bits w 5 8))
  | _ => none

/-- Words of major 0x12 (R89). -/
def decodeMaj12 (w : Nat) : Option Instr :=
  some (.smovi (bits w 22 4) (bits w 21 1) (bits w 13 8) (bits w 0 13))

/-- Words of major 0x13 (R89). -/
def decodeMaj13 (w : Nat) : Option Instr :=
  some (.saddi (bits w 22 4) (bits w 21 1) (bits w 13 8) (bits w 0 13))

/-- Words of major 0x14 (R89). -/
def decodeMaj14 (w : Nat) : Option Instr :=
  match w / 2 ^ 0 % 32 with
  | 0 => some (.srd (bits w 22 4) (bits w 21 1) (bits w 13 8) (bits w 5 8))
  | 1 => some (.swr (bits w 22 4) (bits w 21 1) (bits w 13 8) (bits w 5 8))
  | 2 => some (.agetb (bits w 22 4) (bits w 21 1) (bits w 13 8) (bits w 5 8))
  | 3 => some (.agets (bits w 22 4) (bits w 21 1) (bits w 13 8) (bits w 5 8))
  | 4 => some (.agetw (bits w 22 4) (bits w 21 1) (bits w 13 8) (bits w 5 8))
  | _ => none

/-- Words of major 0x15 (R89). -/
def decodeMaj15 (w : Nat) : Option Instr :=
  match w / 2 ^ 0 % 32 with
  | 0 => some (.lds (bits w 22 4) (bits w 21 1) (bits w 13 8) (bits w 5 8))
  | 1 => some (.ldsW (bits w 22 4) (bits w 21 1) (bits w 13 8) (bits w 5 8))
  | 2 => some (.ldsQ (bits w 22 4) (bits w 21 1) (bits w 13 8) (bits w 5 8))
  | 3 => some (.ldsO (bits w 22 4) (bits w 21 1) (bits w 13 8) (bits w 5 8))
  | 4 => some (.ldp (bits w 22 4) (bits w 21 1) (bits w 13 8) (bits w 8 5) (bits w 5 3))
  | 5 => some (.ldls (bits w 22 4) (bits w 21 1) (bits w 13 8) (bits w 5 8))
  | _ => none

/-- Words of major 0x16 (R89). -/
def decodeMaj16 (w : Nat) : Option Instr :=
  match w / 2 ^ 0 % 8 with
  | 0 => some (.aadd (bits w 22 4) (bits w 21 1) (bits w 16 5) (bits w 11 5) (bits w 3 8))
  | 1 => some (.asub (bits w 22 4) (bits w 21 1) (bits w 16 5) (bits w 11 5) (bits w 3 8))
  | 2 => some (.amul (bits w 22 4) (bits w 21 1) (bits w 16 5) (bits w 11 5) (bits w 3 8))
  | 3 => some (.ashl (bits w 22 4) (bits w 21 1) (bits w 16 5) (bits w 11 5) (bits w 3 8))
  | 4 => if fixedField w 11 5 0 then some (.aset (bits w 22 4) (bits w 21 1) (bits w 16 5) (bits w 3 8)) else none
  | 5 => if fixedField w 11 5 0 then some (.alane (bits w 22 4) (bits w 21 1) (bits w 16 5) (bits w 3 8)) else none
  | 6 => if fixedField w 3 8 0 then some (.aneg (bits w 22 4) (bits w 21 1) (bits w 16 5) (bits w 11 5)) else none
  | 7 => if fixedField w 11 5 0 then some (.amov (bits w 22 4) (bits w 21 1) (bits w 16 5) (bits w 3 8)) else none
  | _ => none

/-- Words of major 0x17 (R89). -/
def decodeMaj17 (w : Nat) : Option Instr :=
  some (.acmp (bits w 22 4) (bits w 21 1) (bits w 17 4) (bits w 12 5) (bits w 4 8) (bits w 0 4))

/-- Words of major 0x18 (R89). -/
def decodeMaj18 (w : Nat) : Option Instr :=
  some (.bra (bits w 22 4) (bits w 21 1) (bits w 0 21))

/-- Words of major 0x19 (R89). -/
def decodeMaj19 (w : Nat) : Option Instr :=
  some (.brz (bits w 22 4) (bits w 21 1) (bits w 13 8) (bits w 0 13))

/-- Words of major 0x1A (R89). -/
def decodeMaj1A (w : Nat) : Option Instr :=
  some (.brnz (bits w 22 4) (bits w 21 1) (bits w 13 8) (bits w 0 13))

/-- Words of major 0x1B (R89). -/
def decodeMaj1B (w : Nat) : Option Instr :=
  some (.call (bits w 22 4) (bits w 21 1) (bits w 19 2) (bits w 0 19))

/-- Words of major 0x1C (R89). -/
def decodeMaj1C (w : Nat) : Option Instr :=
  match w / 2 ^ 16 % 32 with
  | 0 => if fixedField w 0 16 0 then some (.nop (bits w 22 4) (bits w 21 1)) else none
  | 1 => if fixedField w 0 16 0 then some (.exit (bits w 22 4) (bits w 21 1)) else none
  | 2 => if fixedField w 2 6 0 then some (.ret (bits w 22 4) (bits w 21 1) (bits w 8 8) (bits w 0 2)) else none
  | 3 => if fixedField w 2 6 0 then some (.callr (bits w 22 4) (bits w 21 1) (bits w 8 8) (bits w 0 2)) else none
  | 4 => if fixedField w 0 8 0 then some (.brx (bits w 22 4) (bits w 21 1) (bits w 8 8)) else none
  | 5 => if fixedField w 0 16 0 then some (.yield (bits w 22 4) (bits w 21 1)) else none
  | 6 => if fixedField w 1 15 0 then some (.loopx (bits w 22 4) (bits w 21 1) (bits w 0 1)) else none
  | 7 => if fixedField w 8 8 0 then some (.wspill (bits w 22 4) (bits w 21 1) (bits w 0 8)) else none
  | 8 => if fixedField w 8 8 0 then some (.wfill (bits w 22 4) (bits w 21 1) (bits w 0 8)) else none
  | 9 => if fixedField w 8 8 0 then some (.bkpt (bits w 22 4) (bits w 21 1) (bits w 0 8)) else none
  | 10 => if fixedField w 8 8 0 then some (.trap (bits w 22 4) (bits w 21 1) (bits w 0 8)) else none
  | 11 => if fixedField w 0 16 0 then some (.rte (bits w 22 4) (bits w 21 1)) else none
  | 12 => some (.svc (bits w 22 4) (bits w 21 1) (bits w 8 8) (bits w 0 8))
  | 13 => if fixedField w 5 3 0 then some (.xpcr (bits w 22 4) (bits w 21 1) (bits w 8 8) (bits w 0 5)) else none
  | 14 => if fixedField w 5 3 0 then some (.xpcw (bits w 22 4) (bits w 21 1) (bits w 8 8) (bits w 0 5)) else none
  | _ => none

/-- Words of major 0x1D (R89). -/
def decodeMaj1D (w : Nat) : Option Instr :=
  some (.loop (bits w 22 4) (bits w 21 1) (bits w 20 1) (bits w 12 8) (bits w 0 12))

/-- Words of major 0x1E (R89). -/
def decodeMaj1E (w : Nat) : Option Instr :=
  match w / 2 ^ 0 % 8 with
  | 0 => some (.sfromv (bits w 22 4) (bits w 21 1) (bits w 13 8) (bits w 8 5) (bits w 3 5))
  | 1 => if fixedField w 3 5 0 then some (.sfirst (bits w 22 4) (bits w 21 1) (bits w 13 8) (bits w 8 5)) else none
  | 2 => if fixedField w 3 5 0 then some (.sunif (bits w 22 4) (bits w 21 1) (bits w 13 8) (bits w 8 5)) else none
  | 3 => if fixedField w 3 5 0 then some (.afromv (bits w 22 4) (bits w 21 1) (bits w 13 8) (bits w 8 5)) else none
  | 4 => some (.sredaddSi32 (bits w 22 4) (bits w 21 1) (bits w 13 8) (bits w 8 5) (bits w 7 1) (bits w 3 4))
  | 5 => some (.sredaddF32 (bits w 22 4) (bits w 21 1) (bits w 13 8) (bits w 8 5) (bits w 7 1) (bits w 3 4))
  | 6 => some (.sredminSi32 (bits w 22 4) (bits w 21 1) (bits w 13 8) (bits w 8 5) (bits w 7 1) (bits w 3 4))
  | 7 => some (.sredmaxSi32 (bits w 22 4) (bits w 21 1) (bits w 13 8) (bits w 8 5) (bits w 7 1) (bits w 3 4))
  | _ => none

/-- Words of major 0x20 (R89). -/
def decodeMaj20 (w : Nat) : Option Instr :=
  some (.ldg (bits w 22 4) (bits w 21 1) (bits w 16 5) (bits w 8 8) (bits w 5 3) (bits w 4 1) (bits w 0 4))

/-- Words of major 0x21 (R89). -/
def decodeMaj21 (w : Nat) : Option Instr :=
  some (.ldgW (bits w 22 4) (bits w 21 1) (bits w 16 5) (bits w 8 8) (bits w 5 3) (bits w 4 1) (bits w 0 4))

/-- Words of major 0x22 (R89). -/
def decodeMaj22 (w : Nat) : Option Instr :=
  some (.ldgQ (bits w 22 4) (bits w 21 1) (bits w 16 5) (bits w 8 8) (bits w 5 3) (bits w 4 1) (bits w 0 4))

/-- Words of major 0x23 (R89). -/
def decodeMaj23 (w : Nat) : Option Instr :=
  some (.stg (bits w 22 4) (bits w 21 1) (bits w 16 5) (bits w 8 8) (bits w 5 3) (bits w 4 1) (bits w 0 4))

/-- Words of major 0x24 (R89). -/
def decodeMaj24 (w : Nat) : Option Instr :=
  some (.stgW (bits w 22 4) (bits w 21 1) (bits w 16 5) (bits w 8 8) (bits w 5 3) (bits w 4 1) (bits w 0 4))

/-- Words of major 0x25 (R89). -/
def decodeMaj25 (w : Nat) : Option Instr :=
  some (.stgQ (bits w 22 4) (bits w 21 1) (bits w 16 5) (bits w 8 8) (bits w 5 3) (bits w 4 1) (bits w 0 4))

/-- Words of major 0x26 (R89). -/
def decodeMaj26 (w : Nat) : Option Instr :=
  if fixedField w 4 1 0 then some (.ldl (bits w 22 4) (bits w 21 1) (bits w 16 5) (bits w 8 8) (bits w 5 3) (bits w 0 4)) else none

/-- Words of major 0x27 (R89). -/
def decodeMaj27 (w : Nat) : Option Instr :=
  if fixedField w 4 1 0 then some (.ldlW (bits w 22 4) (bits w 21 1) (bits w 16 5) (bits w 8 8) (bits w 5 3) (bits w 0 4)) else none

/-- Words of major 0x28 (R89). -/
def decodeMaj28 (w : Nat) : Option Instr :=
  if fixedField w 4 1 0 then some (.ldlQ (bits w 22 4) (bits w 21 1) (bits w 16 5) (bits w 8 8) (bits w 5 3) (bits w 0 4)) else none

/-- Words of major 0x29 (R89). -/
def decodeMaj29 (w : Nat) : Option Instr :=
  if fixedField w 4 1 0 then some (.stl (bits w 22 4) (bits w 21 1) (bits w 16 5) (bits w 8 8) (bits w 5 3) (bits w 0 4)) else none

/-- Words of major 0x2A (R89). -/
def decodeMaj2A (w : Nat) : Option Instr :=
  if fixedField w 4 1 0 then some (.stlW (bits w 22 4) (bits w 21 1) (bits w 16 5) (bits w 8 8) (bits w 5 3) (bits w 0 4)) else none

/-- Words of major 0x2B (R89). -/
def decodeMaj2B (w : Nat) : Option Instr :=
  if fixedField w 4 1 0 then some (.stlQ (bits w 22 4) (bits w 21 1) (bits w 16 5) (bits w 8 8) (bits w 5 3) (bits w 0 4)) else none

/-- Words of major 0x2C (R89). -/
def decodeMaj2C (w : Nat) : Option Instr :=
  match w / 2 ^ 0 % 16 with
  | 0 => some (.ldgU8 (bits w 22 4) (bits w 21 1) (bits w 16 5) (bits w 8 8) (bits w 5 3) (bits w 4 1))
  | 1 => some (.ldgS8 (bits w 22 4) (bits w 21 1) (bits w 16 5) (bits w 8 8) (bits w 5 3) (bits w 4 1))
  | 2 => some (.ldgU16 (bits w 22 4) (bits w 21 1) (bits w 16 5) (bits w 8 8) (bits w 5 3) (bits w 4 1))
  | 3 => some (.ldgS16 (bits w 22 4) (bits w 21 1) (bits w 16 5) (bits w 8 8) (bits w 5 3) (bits w 4 1))
  | 4 => some (.stgB8 (bits w 22 4) (bits w 21 1) (bits w 16 5) (bits w 8 8) (bits w 5 3) (bits w 4 1))
  | 5 => some (.stgB16 (bits w 22 4) (bits w 21 1) (bits w 16 5) (bits w 8 8) (bits w 5 3) (bits w 4 1))
  | 6 => if fixedField w 4 1 0 then some (.ldlU8 (bits w 22 4) (bits w 21 1) (bits w 16 5) (bits w 8 8) (bits w 5 3)) else none
  | 7 => if fixedField w 4 1 0 then some (.ldlS8 (bits w 22 4) (bits w 21 1) (bits w 16 5) (bits w 8 8) (bits w 5 3)) else none
  | 8 => if fixedField w 4 1 0 then some (.ldlU16 (bits w 22 4) (bits w 21 1) (bits w 16 5) (bits w 8 8) (bits w 5 3)) else none
  | 9 => if fixedField w 4 1 0 then some (.ldlS16 (bits w 22 4) (bits w 21 1) (bits w 16 5) (bits w 8 8) (bits w 5 3)) else none
  | 10 => if fixedField w 4 1 0 then some (.stlB8 (bits w 22 4) (bits w 21 1) (bits w 16 5) (bits w 8 8) (bits w 5 3)) else none
  | 11 => if fixedField w 4 1 0 then some (.stlB16 (bits w 22 4) (bits w 21 1) (bits w 16 5) (bits w 8 8) (bits w 5 3)) else none
  | 12 => if fixedField w 16 5 0 then some (.pfg (bits w 22 4) (bits w 21 1) (bits w 8 8) (bits w 5 3) (bits w 4 1)) else none
  | _ => none

/-- Words of major 0x2D (R89). -/
def decodeMaj2D (w : Nat) : Option Instr :=
  some (.atomg (bits w 22 4) (bits w 21 1) (bits w 16 5) (bits w 11 5) (bits w 8 3) (bits w 4 4) (bits w 2 2) (bits w 0 2))

/-- Words of major 0x2E (R89). -/
def decodeMaj2E (w : Nat) : Option Instr :=
  some (.atoml (bits w 22 4) (bits w 21 1) (bits w 16 5) (bits w 11 5) (bits w 8 3) (bits w 4 4) (bits w 2 2) (bits w 0 2))

/-- Words of major 0x2F (R89). -/
def decodeMaj2F (w : Nat) : Option Instr :=
  some (.atoms (bits w 22 4) (bits w 21 1) (bits w 13 8) (bits w 5 8) (bits w 1 4) (bits w 0 1))

/-- Words of major 0x30 (R89). -/
def decodeMaj30 (w : Nat) : Option Instr :=
  match w / 2 ^ 16 % 32 with
  | 0 => if fixedField w 0 13 0 then some (.fence (bits w 22 4) (bits w 21 1) (bits w 13 3)) else none
  | 1 => if fixedField w 0 13 0 then some (.rel (bits w 22 4) (bits w 21 1) (bits w 13 3)) else none
  | 2 => if fixedField w 0 13 0 then some (.acq (bits w 22 4) (bits w 21 1) (bits w 13 3)) else none
  | 3 => if fixedField w 13 3 0 && fixedField w 0 5 0 then some (.acqRmt (bits w 22 4) (bits w 21 1) (bits w 5 8)) else none
  | 4 => if fixedField w 0 16 0 then some (.wdrain (bits w 22 4) (bits w 21 1)) else none
  | 5 => if fixedField w 0 16 0 then some (.l1wb (bits w 22 4) (bits w 21 1)) else none
  | 6 => if fixedField w 0 16 0 then some (.l1inv (bits w 22 4) (bits w 21 1)) else none
  | 7 => if fixedField w 13 3 0 && fixedField w 0 5 0 then some (.leaseSet (bits w 22 4) (bits w 21 1) (bits w 5 8)) else none
  | 8 => if fixedField w 0 16 0 then some (.leaseMeas (bits w 22 4) (bits w 21 1)) else none
  | 9 => if fixedField w 13 3 0 && fixedField w 0 5 0 then some (.leaseGet (bits w 22 4) (bits w 21 1) (bits w 5 8)) else none
  | _ => none

/-- Words of major 0x31 (R89). -/
def decodeMaj31 (w : Nat) : Option Instr :=
  match w / 2 ^ 8 % 32 with
  | 0 => some (.barv (bits w 22 4) (bits w 21 1) (bits w 13 8) (bits w 0 8))
  | 1 => some (.bwait (bits w 22 4) (bits w 21 1) (bits w 13 8) (bits w 0 8))
  | 2 => if fixedField w 0 8 0 then some (.bsync (bits w 22 4) (bits w 21 1) (bits w 13 8)) else none
  | 3 => if fixedField w 0 8 0 then some (.barvn (bits w 22 4) (bits w 21 1) (bits w 13 8)) else none
  | 4 => some (.btest (bits w 22 4) (bits w 21 1) (bits w 13 8) (bits w 0 8))
  | _ => none

/-- Words of major 0x32 (R89). -/
def decodeMaj32 (w : Nat) : Option Instr :=
  match w / 2 ^ 8 % 32 with
  | 0 => some (.gmask (bits w 22 4) (bits w 21 1) (bits w 13 8) (bits w 0 8))
  | 1 => some (.gqry (bits w 22 4) (bits w 21 1) (bits w 13 8) (bits w 0 8))
  | 2 => some (.gsave (bits w 22 4) (bits w 21 1) (bits w 13 8) (bits w 0 8))
  | 3 => some (.gload (bits w 22 4) (bits w 21 1) (bits w 13 8) (bits w 0 8))
  | _ => none

/-- Words of major 0x34 (R89). -/
def decodeMaj34 (w : Nat) : Option Instr :=
  some (.mma (bits w 22 4) (bits w 21 1) (bits w 18 3) (bits w 16 2) (bits w 11 5) (bits w 8 3) (bits w 4 4) (bits w 3 1) (bits w 0 3))

/-- Words of major 0x35 (R89). -/
def decodeMaj35 (w : Nat) : Option Instr :=
  match w / 2 ^ 16 % 32 with
  | 0 => if fixedField w 0 13 0 then some (.mzero (bits w 22 4) (bits w 21 1) (bits w 13 3)) else none
  | 1 => if fixedField w 0 8 0 then some (.mldt (bits w 22 4) (bits w 21 1) (bits w 13 3) (bits w 10 3) (bits w 8 2)) else none
  | 2 => if fixedField w 0 8 0 then some (.mstt (bits w 22 4) (bits w 21 1) (bits w 13 3) (bits w 10 3) (bits w 8 2)) else none
  | 3 => if fixedField w 0 8 0 then some (.mrowv (bits w 22 4) (bits w 21 1) (bits w 11 5) (bits w 8 3)) else none
  | 4 => if fixedField w 0 16 0 then some (.mwait (bits w 22 4) (bits w 21 1)) else none
  | 5 => if fixedField w 0 16 0 then some (.mfence (bits w 22 4) (bits w 21 1)) else none
  | 6 => if fixedField w 0 5 0 then some (.mdesc (bits w 22 4) (bits w 21 1) (bits w 13 3) (bits w 5 8)) else if fixedField w 0 5 16 then some (.mdescGet (bits w 22 4) (bits w 21 1) (bits w 13 3) (bits w 5 8)) else none
  | _ => none

/-- Words of major 0x38 (R89). -/
noncomputable def decodeMaj38 (w : Nat) : Option Instr :=
  match w / 2 ^ 11 % 16 with
  | 0 => if fixedField w 0 3 0 then some (.cpyLin (bits w 22 4) (bits w 21 1) (bits w 15 6) (bits w 3 8)) else none
  | 1 => if fixedField w 0 3 0 then some (.cpyLinw (bits w 22 4) (bits w 21 1) (bits w 15 6) (bits w 3 8)) else none
  | 2 => if fixedField w 0 3 0 then some (.cpyT2d (bits w 22 4) (bits w 21 1) (bits w 15 6) (bits w 3 8)) else none
  | 3 => if fixedField w 0 3 0 then some (.cpyT2dw (bits w 22 4) (bits w 21 1) (bits w 15 6) (bits w 3 8)) else none
  | 4 => if fixedField w 0 3 0 then some (.cpyXpnd (bits w 22 4) (bits w 21 1) (bits w 15 6) (bits w 3 8)) else none
  | 5 => if fixedField w 0 3 0 then some (.cpyGath (bits w 22 4) (bits w 21 1) (bits w 15 6) (bits w 3 8)) else none
  | 6 => if fixedField w 0 3 0 then some (.cpyScat (bits w 22 4) (bits w 21 1) (bits w 15 6) (bits w 3 8)) else none
  | 7 => if fixedField w 0 3 0 then some (.cpyL2l (bits w 22 4) (bits w 21 1) (bits w 15 6) (bits w 3 8)) else none
  | 8 => if fixedField w 0 3 0 then some (.cpyFill (bits w 22 4) (bits w 21 1) (bits w 15 6) (bits w 3 8)) else none
  | _ => none

/-- Words of major 0x39 (R89). -/
noncomputable def decodeMaj39 (w : Nat) : Option Instr :=
  match w / 2 ^ 0 % 32 with
  | 0 => some (.twaitany (bits w 22 4) (bits w 21 1) (bits w 13 8) (bits w 5 8))
  | 1 => some (.twaitall (bits w 22 4) (bits w 21 1) (bits w 13 8) (bits w 5 8))
  | 2 => some (.tfind (bits w 22 4) (bits w 21 1) (bits w 13 8) (bits w 5 8))
  | 3 => if fixedField w 13 8 0 then some (.tclr (bits w 22 4) (bits w 21 1) (bits w 5 8)) else none
  | 4 => some (.tstat (bits w 22 4) (bits w 21 1) (bits w 13 8) (bits w 5 8))
  | _ => none

/-- Words of major 0x3A (R89). -/
noncomputable def decodeMaj3A (w : Nat) : Option Instr :=
  match w / 2 ^ 12 % 32 with
  | 0 => if fixedField w 0 4 0 then some (.rput (bits w 22 4) (bits w 21 1) (bits w 17 4) (bits w 4 8)) else none
  | 1 => if fixedField w 0 4 0 then some (.rget (bits w 22 4) (bits w 21 1) (bits w 17 4) (bits w 4 8)) else none
  | 2 => some (.rputNb (bits w 22 4) (bits w 21 1) (bits w 17 4) (bits w 4 8) (bits w 0 4))
  | 3 => some (.rgetNb (bits w 22 4) (bits w 21 1) (bits w 17 4) (bits w 4 8) (bits w 0 4))
  | 4 => if fixedField w 0 12 0 then some (.rclose (bits w 22 4) (bits w 21 1) (bits w 17 4)) else none
  | 5 => if fixedField w 0 4 0 then some (.rstat (bits w 22 4) (bits w 21 1) (bits w 17 4) (bits w 4 8)) else none
  | _ => none

/-- Words of major 0x3B (R89). -/
noncomputable def decodeMaj3B (w : Nat) : Option Instr :=
  match w / 2 ^ 16 % 32 with
  | 0 => some (.hgive (bits w 22 4) (bits w 21 1) (bits w 8 8) (bits w 0 8))
  | 1 => some (.hrecv (bits w 22 4) (bits w 21 1) (bits w 8 8) (bits w 0 8))
  | 2 => if fixedField w 0 8 0 then some (.hqry (bits w 22 4) (bits w 21 1) (bits w 8 8)) else none
  | 3 => if fixedField w 0 8 0 then some (.hdrop (bits w 22 4) (bits w 21 1) (bits w 8 8)) else none
  | _ => none

/-- Words of major 0x3C (R89). -/
noncomputable def decodeMaj3C (w : Nat) : Option Instr :=
  match w / 2 ^ 16 % 32 with
  | 0 => if fixedField w 13 3 0 && fixedField w 0 5 0 then some (.klaunch (bits w 22 4) (bits w 21 1) (bits w 5 8)) else none
  | 1 => if fixedField w 13 3 0 && fixedField w 0 5 0 then some (.kwait (bits w 22 4) (bits w 21 1) (bits w 5 8)) else none
  | 2 => if fixedField w 13 3 0 && fixedField w 0 5 0 then some (.kquota (bits w 22 4) (bits w 21 1) (bits w 5 8)) else none
  | _ => none

/-- Words of major 0x3D (R89). -/
noncomputable def decodeMaj3D (w : Nat) : Option Instr :=
  match w / 2 ^ 11 % 16 with
  | 0 => some (.crs (bits w 22 4) (bits w 21 1) (bits w 15 6) (bits w 3 8) (bits w 2 1) (bits w 0 2))
  | 1 => some (.cag (bits w 22 4) (bits w 21 1) (bits w 15 6) (bits w 3 8) (bits w 2 1) (bits w 0 2))
  | 2 => some (.car (bits w 22 4) (bits w 21 1) (bits w 15 6) (bits w 3 8) (bits w 2 1) (bits w 0 2))
  | _ => none

/-- Words of major 0x3E (R89). -/
noncomputable def decodeMaj3E (w : Nat) : Option Instr :=
  match w / 2 ^ 16 % 32 with
  | 0 => if fixedField w 15 1 0 && fixedField w 0 5 0 then some (.mkdown (bits w 22 4) (bits w 21 1) (bits w 13 2) (bits w 5 8)) else none
  | 1 => if fixedField w 13 3 0 && fixedField w 0 5 0 then some (.mkget (bits w 22 4) (bits w 21 1) (bits w 5 8)) else none
  | 2 => if fixedField w 13 3 0 && fixedField w 0 5 0 then some (.trmark (bits w 22 4) (bits w 21 1) (bits w 5 8)) else none
  | 3 => if fixedField w 13 3 0 && fixedField w 0 5 0 then some (.clkrd (bits w 22 4) (bits w 21 1) (bits w 5 8)) else none
  | _ => none

/-- Words of major 0x3F (R89). -/
noncomputable def decodeMaj3F (w : Nat) : Option Instr :=
  match w / 2 ^ 19 % 4 with
  | 0 => if fixedField w 21 5 30 then some (.ximm (bits w 0 19)) else none
  | 1 => if fixedField w 21 5 30 && fixedField w 11 8 0 then some (.rep (bits w 10 1) (bits w 9 1) (bits w 8 1) (bits w 6 2) (bits w 0 6)) else none
  | 2 => if fixedField w 21 5 30 && fixedField w 4 15 0 then some (.la (bits w 0 4)) else none
  | _ => none

/-- The instruction of a word of a major below 0x38 (R83, R86, R89). -/
def decodeLow (w : Nat) : Option Instr :=
  match w / 2 ^ 26 % 64 with
  | 1 => decodeMaj01 w
  | 2 => decodeMaj02 w
  | 3 => decodeMaj03 w
  | 4 => decodeMaj04 w
  | 5 => decodeMaj05 w
  | 6 => decodeMaj06 w
  | 7 => decodeMaj07 w
  | 8 => decodeMaj08 w
  | 9 => decodeMaj09 w
  | 10 => decodeMaj0A w
  | 11 => decodeMaj0B w
  | 12 => decodeMaj0C w
  | 13 => decodeMaj0D w
  | 14 => decodeMaj0E w
  | 15 => decodeMaj0F w
  | 16 => decodeMaj10 w
  | 17 => decodeMaj11 w
  | 18 => decodeMaj12 w
  | 19 => decodeMaj13 w
  | 20 => decodeMaj14 w
  | 21 => decodeMaj15 w
  | 22 => decodeMaj16 w
  | 23 => decodeMaj17 w
  | 24 => decodeMaj18 w
  | 25 => decodeMaj19 w
  | 26 => decodeMaj1A w
  | 27 => decodeMaj1B w
  | 28 => decodeMaj1C w
  | 29 => decodeMaj1D w
  | 30 => decodeMaj1E w
  | 32 => decodeMaj20 w
  | 33 => decodeMaj21 w
  | 34 => decodeMaj22 w
  | 35 => decodeMaj23 w
  | 36 => decodeMaj24 w
  | 37 => decodeMaj25 w
  | 38 => decodeMaj26 w
  | 39 => decodeMaj27 w
  | 40 => decodeMaj28 w
  | 41 => decodeMaj29 w
  | 42 => decodeMaj2A w
  | 43 => decodeMaj2B w
  | 44 => decodeMaj2C w
  | 45 => decodeMaj2D w
  | 46 => decodeMaj2E w
  | 47 => decodeMaj2F w
  | 48 => decodeMaj30 w
  | 49 => decodeMaj31 w
  | 50 => decodeMaj32 w
  | 52 => decodeMaj34 w
  | 53 => decodeMaj35 w
  | _ => none

/-- The decoder: the instruction of a word, none where a reserved major, an unassigned function code or a non-zero
must-be-zero field makes the word unassigned (R83, R86, R89). -/
noncomputable def decodeNat (w : Nat) : Option Instr :=
  match w / 2 ^ 26 % 64 with
  | 56 => decodeMaj38 w
  | 57 => decodeMaj39 w
  | 58 => decodeMaj3A w
  | 59 => decodeMaj3B w
  | 60 => decodeMaj3C w
  | 61 => decodeMaj3D w
  | 62 => decodeMaj3E w
  | 63 => decodeMaj3F w
  | _ => decodeLow w

/-- The instruction of a 32-bit word. -/
noncomputable def decode (w : Word) : Option Instr := decodeNat w.toNat

/-- The 32-bit word that four bytes hold, the first the least significant (R5). -/
def wordOfBytes : List Byte → Option Word
  | [b0, b1, b2, b3] => some (BitVec.ofNat 32 (b0.toNat + b1.toNat * 2 ^ 8 + b2.toNat * 2 ^ 16 + b3.toNat * 2 ^ 24))
  | _ => none

/-- Why bytes are not an instruction. -/
inductive DecodeError where
  /-- fewer than four bytes stand there -/
  | short
  /-- the word is not assigned: reserved major, unassigned function code or non-zero must-be-zero field (R86, R89) -/
  | unassigned (w : Word)
  deriving DecidableEq, Repr

/-- Decode the first instruction of any bytes; the rest of the bytes comes back beside it (R5, R83). -/
noncomputable def decodeBytes : List Byte → Except DecodeError (Instr × List Byte)
  | b0 :: b1 :: b2 :: b3 :: rest =>
    let w := BitVec.ofNat 32 (b0.toNat + b1.toNat * 2 ^ 8 + b2.toNat * 2 ^ 16 + b3.toNat * 2 ^ 24)
    match decode w with
    | some i => .ok (i, rest)
    | none => .error (.unassigned w)
  | _ => .error .short

/-- The bytes of a word, the first the least significant (R5). -/
def wordBytes (w : Word) : List Byte :=
  [BitVec.ofNat 8 w.toNat, BitVec.ofNat 8 (w.toNat / 2 ^ 8), BitVec.ofNat 8 (w.toNat / 2 ^ 16), BitVec.ofNat 8 (w.toNat / 2 ^ 24)]

/-- The host's question: the instruction this decoder reads from a table word. Every instruction is one 32-bit word (R83);
bits the table does not give are 0. -/
noncomputable def decodeTableWord (nbits w : Nat) : Option Instr :=
  if nbits == 0 then none
  else (decodeBytes (wordBytes (BitVec.ofNat 32 (w % 2 ^ nbits)))).toOption.map Prod.fst

/-- The encoder, written from the same tables: the word of an instruction; none for the happenings that have no word. -/
def encodeNat : Instr → Option Nat
  | .vadd g n d a b => some (67108864 + g.toNat * 4194304 + n.toNat * 2097152 + d.toNat * 65536 + a.toNat * 2048 + b.toNat * 8)
  | .vsub g n d a b => some (67108865 + g.toNat * 4194304 + n.toNat * 2097152 + d.toNat * 65536 + a.toNat * 2048 + b.toNat * 8)
  | .vsubr g n d a b => some (67108866 + g.toNat * 4194304 + n.toNat * 2097152 + d.toNat * 65536 + a.toNat * 2048 + b.toNat * 8)
  | .vminS g n d a b => some (67108867 + g.toNat * 4194304 + n.toNat * 2097152 + d.toNat * 65536 + a.toNat * 2048 + b.toNat * 8)
  | .vmaxS g n d a b => some (67108868 + g.toNat * 4194304 + n.toNat * 2097152 + d.toNat * 65536 + a.toNat * 2048 + b.toNat * 8)
  | .vminU g n d a b => some (67108869 + g.toNat * 4194304 + n.toNat * 2097152 + d.toNat * 65536 + a.toNat * 2048 + b.toNat * 8)
  | .vmaxU g n d a b => some (67108870 + g.toNat * 4194304 + n.toNat * 2097152 + d.toNat * 65536 + a.toNat * 2048 + b.toNat * 8)
  | .vadifS g n d a b => some (67108871 + g.toNat * 4194304 + n.toNat * 2097152 + d.toNat * 65536 + a.toNat * 2048 + b.toNat * 8)
  | .vand g n d a b => some (134217728 + g.toNat * 4194304 + n.toNat * 2097152 + d.toNat * 65536 + a.toNat * 2048 + b.toNat * 8)
  | .vor g n d a b => some (134217729 + g.toNat * 4194304 + n.toNat * 2097152 + d.toNat * 65536 + a.toNat * 2048 + b.toNat * 8)
  | .vxor g n d a b => some (134217730 + g.toNat * 4194304 + n.toNat * 2097152 + d.toNat * 65536 + a.toNat * 2048 + b.toNat * 8)
  | .vandn g n d a b => some (134217731 + g.toNat * 4194304 + n.toNat * 2097152 + d.toNat * 65536 + a.toNat * 2048 + b.toNat * 8)
  | .vshl g n d a b => some (134217732 + g.toNat * 4194304 + n.toNat * 2097152 + d.toNat * 65536 + a.toNat * 2048 + b.toNat * 8)
  | .vshrU g n d a b => some (134217733 + g.toNat * 4194304 + n.toNat * 2097152 + d.toNat * 65536 + a.toNat * 2048 + b.toNat * 8)
  | .vshrS g n d a b => some (134217734 + g.toNat * 4194304 + n.toNat * 2097152 + d.toNat * 65536 + a.toNat * 2048 + b.toNat * 8)
  | .vrotl g n d a b => some (134217735 + g.toNat * 4194304 + n.toNat * 2097152 + d.toNat * 65536 + a.toNat * 2048 + b.toNat * 8)
  | .vmul g n d a b => some (201326592 + g.toNat * 4194304 + n.toNat * 2097152 + d.toNat * 65536 + a.toNat * 2048 + b.toNat * 8)
  | .vmulhS g n d a b => some (201326593 + g.toNat * 4194304 + n.toNat * 2097152 + d.toNat * 65536 + a.toNat * 2048 + b.toNat * 8)
  | .vmulhU g n d a b => some (201326594 + g.toNat * 4194304 + n.toNat * 2097152 + d.toNat * 65536 + a.toNat * 2048 + b.toNat * 8)
  | .vmad g n d a b => some (201326595 + g.toNat * 4194304 + n.toNat * 2097152 + d.toNat * 65536 + a.toNat * 2048 + b.toNat * 8)
  | .vaddsS g n d a b => some (201326596 + g.toNat * 4194304 + n.toNat * 2097152 + d.toNat * 65536 + a.toNat * 2048 + b.toNat * 8)
  | .vsubsS g n d a b => some (201326597 + g.toNat * 4194304 + n.toNat * 2097152 + d.toNat * 65536 + a.toNat * 2048 + b.toNat * 8)
  | .vaddsU g n d a b => some (201326598 + g.toNat * 4194304 + n.toNat * 2097152 + d.toNat * 65536 + a.toNat * 2048 + b.toNat * 8)
  | .vsubsU g n d a b => some (201326599 + g.toNat * 4194304 + n.toNat * 2097152 + d.toNat * 65536 + a.toNat * 2048 + b.toNat * 8)
  | .vpopc g n d b => some (268435456 + g.toNat * 4194304 + n.toNat * 2097152 + d.toNat * 65536 + b.toNat * 8)
  | .vclz g n d b => some (268435457 + g.toNat * 4194304 + n.toNat * 2097152 + d.toNat * 65536 + b.toNat * 8)
  | .vbrev g n d b => some (268435458 + g.toNat * 4194304 + n.toNat * 2097152 + d.toNat * 65536 + b.toNat * 8)
  | .vbfeU g n d a b => some (268435459 + g.toNat * 4194304 + n.toNat * 2097152 + d.toNat * 65536 + a.toNat * 2048 + b.toNat * 8)
  | .vbfeS g n d a b => some (268435460 + g.toNat * 4194304 + n.toNat * 2097152 + d.toNat * 65536 + a.toNat * 2048 + b.toNat * 8)
  | .vbfi g n d a b => some (268435461 + g.toNat * 4194304 + n.toNat * 2097152 + d.toNat * 65536 + a.toNat * 2048 + b.toNat * 8)
  | .vpermb g n d a b => some (268435462 + g.toNat * 4194304 + n.toNat * 2097152 + d.toNat * 65536 + a.toNat * 2048 + b.toNat * 8)
  | .vmov g n d b => some (268435463 + g.toNat * 4194304 + n.toNat * 2097152 + d.toNat * 65536 + b.toNat * 8)
  | .vfadd g n d a b => some (335544320 + g.toNat * 4194304 + n.toNat * 2097152 + d.toNat * 65536 + a.toNat * 2048 + b.toNat * 8)
  | .vfsub g n d a b => some (335544321 + g.toNat * 4194304 + n.toNat * 2097152 + d.toNat * 65536 + a.toNat * 2048 + b.toNat * 8)
  | .vfmul g n d a b => some (335544322 + g.toNat * 4194304 + n.toNat * 2097152 + d.toNat * 65536 + a.toNat * 2048 + b.toNat * 8)
  | .vfma g n d a b => some (335544323 + g.toNat * 4194304 + n.toNat * 2097152 + d.toNat * 65536 + a.toNat * 2048 + b.toNat * 8)
  | .vfnma g n d a b => some (335544324 + g.toNat * 4194304 + n.toNat * 2097152 + d.toNat * 65536 + a.toNat * 2048 + b.toNat * 8)
  | .vfmin g n d a b => some (335544325 + g.toNat * 4194304 + n.toNat * 2097152 + d.toNat * 65536 + a.toNat * 2048 + b.toNat * 8)
  | .vfmax g n d a b => some (335544326 + g.toNat * 4194304 + n.toNat * 2097152 + d.toNat * 65536 + a.toNat * 2048 + b.toNat * 8)
  | .vfcpys g n d a b => some (335544327 + g.toNat * 4194304 + n.toNat * 2097152 + d.toNat * 65536 + a.toNat * 2048 + b.toNat * 8)
  | .vhadd2 g n d a b => some (402653184 + g.toNat * 4194304 + n.toNat * 2097152 + d.toNat * 65536 + a.toNat * 2048 + b.toNat * 8)
  | .vhsub2 g n d a b => some (402653185 + g.toNat * 4194304 + n.toNat * 2097152 + d.toNat * 65536 + a.toNat * 2048 + b.toNat * 8)
  | .vhmul2 g n d a b => some (402653186 + g.toNat * 4194304 + n.toNat * 2097152 + d.toNat * 65536 + a.toNat * 2048 + b.toNat * 8)
  | .vhfma2 g n d a b => some (402653187 + g.toNat * 4194304 + n.toNat * 2097152 + d.toNat * 65536 + a.toNat * 2048 + b.toNat * 8)
  | .vhmin2 g n d a b => some (402653188 + g.toNat * 4194304 + n.toNat * 2097152 + d.toNat * 65536 + a.toNat * 2048 + b.toNat * 8)
  | .vhmax2 g n d a b => some (402653189 + g.toNat * 4194304 + n.toNat * 2097152 + d.toNat * 65536 + a.toNat * 2048 + b.toNat * 8)
  | .vcvtF32Si32 g n d r b => some (469762048 + g.toNat * 4194304 + n.toNat * 2097152 + d.toNat * 65536 + r.toNat * 2048 + b.toNat * 8)
  | .vcvtF32Ui32 g n d r b => some (469770240 + g.toNat * 4194304 + n.toNat * 2097152 + d.toNat * 65536 + r.toNat * 2048 + b.toNat * 8)
  | .vcvtSi32F32 g n d r b => some (469778432 + g.toNat * 4194304 + n.toNat * 2097152 + d.toNat * 65536 + r.toNat * 2048 + b.toNat * 8)
  | .vcvtUi32F32 g n d r b => some (469786624 + g.toNat * 4194304 + n.toNat * 2097152 + d.toNat * 65536 + r.toNat * 2048 + b.toNat * 8)
  | .vfrint g n d r b => some (469794816 + g.toNat * 4194304 + n.toNat * 2097152 + d.toNat * 65536 + r.toNat * 2048 + b.toNat * 8)
  | .vcvtF32Bf16 g n d p b => some (469762049 + g.toNat * 4194304 + n.toNat * 2097152 + d.toNat * 65536 + p.toNat * 16384 + b.toNat * 8)
  | .vcvtF32E4m3 g n d p b => some (469764097 + g.toNat * 4194304 + n.toNat * 2097152 + d.toNat * 65536 + p.toNat * 16384 + b.toNat * 8)
  | .vcvtF32E5m2 g n d p b => some (469766145 + g.toNat * 4194304 + n.toNat * 2097152 + d.toNat * 65536 + p.toNat * 16384 + b.toNat * 8)
  | .vcvtBf16F32 g n d p b => some (469762050 + g.toNat * 4194304 + n.toNat * 2097152 + d.toNat * 65536 + p.toNat * 16384 + b.toNat * 8)
  | .vcvtE4m3F32 g n d p b => some (469764098 + g.toNat * 4194304 + n.toNat * 2097152 + d.toNat * 65536 + p.toNat * 16384 + b.toNat * 8)
  | .vcvtE5m2F32 g n d p b => some (469766146 + g.toNat * 4194304 + n.toNat * 2097152 + d.toNat * 65536 + p.toNat * 16384 + b.toNat * 8)
  | .vfclass g n d b => some (469762051 + g.toNat * 4194304 + n.toNat * 2097152 + d.toNat * 65536 + b.toNat * 8)
  | .vfgetexp g n d b => some (469764099 + g.toNat * 4194304 + n.toNat * 2097152 + d.toNat * 65536 + b.toNat * 8)
  | .vfscaleb g n d b => some (469766147 + g.toNat * 4194304 + n.toNat * 2097152 + d.toNat * 65536 + b.toNat * 8)
  | .vrcp g n d l b => some (536870912 + g.toNat * 4194304 + n.toNat * 2097152 + d.toNat * 65536 + l.toNat * 4096 + b.toNat * 8)
  | .vrsq g n d l b => some (536870913 + g.toNat * 4194304 + n.toNat * 2097152 + d.toNat * 65536 + l.toNat * 4096 + b.toNat * 8)
  | .vsqrt g n d l b => some (536870914 + g.toNat * 4194304 + n.toNat * 2097152 + d.toNat * 65536 + l.toNat * 4096 + b.toNat * 8)
  | .vexp2 g n d l b => some (536870915 + g.toNat * 4194304 + n.toNat * 2097152 + d.toNat * 65536 + l.toNat * 4096 + b.toNat * 8)
  | .vlog2 g n d l b => some (536870916 + g.toNat * 4194304 + n.toNat * 2097152 + d.toNat * 65536 + l.toNat * 4096 + b.toNat * 8)
  | .vsinpi g n d l b => some (536870917 + g.toNat * 4194304 + n.toNat * 2097152 + d.toNat * 65536 + l.toNat * 4096 + b.toNat * 8)
  | .vcospi g n d l b => some (536870918 + g.toNat * 4194304 + n.toNat * 2097152 + d.toNat * 65536 + l.toNat * 4096 + b.toNat * 8)
  | .vtanh g n d l b => some (536870919 + g.toNat * 4194304 + n.toNat * 2097152 + d.toNat * 65536 + l.toNat * 4096 + b.toNat * 8)
  | .vcmpI g n p a b c => some (603979776 + g.toNat * 4194304 + n.toNat * 2097152 + p.toNat * 131072 + a.toNat * 4096 + b.toNat * 16 + c.toNat)
  | .vcmpF g n p a b c => some (671088640 + g.toNat * 4194304 + n.toNat * 2097152 + p.toNat * 131072 + a.toNat * 4096 + b.toNat * 16 + c.toNat)
  | .pand g n d a b => some (738197504 + g.toNat * 4194304 + n.toNat * 2097152 + d.toNat * 131072 + a.toNat * 8192 + b.toNat * 512)
  | .por g n d a b => some (738197536 + g.toNat * 4194304 + n.toNat * 2097152 + d.toNat * 131072 + a.toNat * 8192 + b.toNat * 512)
  | .pxor g n d a b => some (738197568 + g.toNat * 4194304 + n.toNat * 2097152 + d.toNat * 131072 + a.toNat * 8192 + b.toNat * 512)
  | .pandn g n d a b => some (738197600 + g.toNat * 4194304 + n.toNat * 2097152 + d.toNat * 131072 + a.toNat * 8192 + b.toNat * 512)
  | .pnot g n d a => some (738197632 + g.toNat * 4194304 + n.toNat * 2097152 + d.toNat * 131072 + a.toNat * 8192)
  | .pmov g n d a => some (738197664 + g.toNat * 4194304 + n.toNat * 2097152 + d.toNat * 131072 + a.toNat * 8192)
  | .pset g n d => some (738197696 + g.toNat * 4194304 + n.toNat * 2097152 + d.toNat * 131072)
  | .pclr g n d => some (738197728 + g.toNat * 4194304 + n.toNat * 2097152 + d.toNat * 131072)
  | .vrank g n a v => some (738197760 + g.toNat * 4194304 + n.toNat * 2097152 + a.toNat * 8192 + v.toNat)
  | .shflIdx g n d a b m => some (805306368 + g.toNat * 4194304 + n.toNat * 2097152 + d.toNat * 65536 + a.toNat * 2048 + b.toNat * 8 + m.toNat)
  | .shflXor g n d a b m => some (872415232 + g.toNat * 4194304 + n.toNat * 2097152 + d.toNat * 65536 + a.toNat * 2048 + b.toNat * 8 + m.toNat)
  | .shflUp g n d a b m => some (939524096 + g.toNat * 4194304 + n.toNat * 2097152 + d.toNat * 65536 + a.toNat * 2048 + b.toNat * 8 + m.toNat)
  | .shflDn g n d a b m => some (1006632960 + g.toNat * 4194304 + n.toNat * 2097152 + d.toNat * 65536 + a.toNat * 2048 + b.toNat * 8 + m.toNat)
  | .sadd g n s b => some (1073741824 + g.toNat * 4194304 + n.toNat * 2097152 + s.toNat * 8192 + b.toNat * 32)
  | .ssub g n s b => some (1073741825 + g.toNat * 4194304 + n.toNat * 2097152 + s.toNat * 8192 + b.toNat * 32)
  | .ssubr g n s b => some (1073741826 + g.toNat * 4194304 + n.toNat * 2097152 + s.toNat * 8192 + b.toNat * 32)
  | .smul g n s b => some (1073741827 + g.toNat * 4194304 + n.toNat * 2097152 + s.toNat * 8192 + b.toNat * 32)
  | .smulhS g n s b => some (1073741828 + g.toNat * 4194304 + n.toNat * 2097152 + s.toNat * 8192 + b.toNat * 32)
  | .smulhU g n s b => some (1073741829 + g.toNat * 4194304 + n.toNat * 2097152 + s.toNat * 8192 + b.toNat * 32)
  | .sdivS g n s b => some (1073741830 + g.toNat * 4194304 + n.toNat * 2097152 + s.toNat * 8192 + b.toNat * 32)
  | .sdivU g n s b => some (1073741831 + g.toNat * 4194304 + n.toNat * 2097152 + s.toNat * 8192 + b.toNat * 32)
  | .sremS g n s b => some (1073741832 + g.toNat * 4194304 + n.toNat * 2097152 + s.toNat * 8192 + b.toNat * 32)
  | .sremU g n s b => some (1073741833 + g.toNat * 4194304 + n.toNat * 2097152 + s.toNat * 8192 + b.toNat * 32)
  | .sand g n s b => some (1073741834 + g.toNat * 4194304 + n.toNat * 2097152 + s.toNat * 8192 + b.toNat * 32)
  | .sor g n s b => some (1073741835 + g.toNat * 4194304 + n.toNat * 2097152 + s.toNat * 8192 + b.toNat * 32)
  | .sxor g n s b => some (1073741836 + g.toNat * 4194304 + n.toNat * 2097152 + s.toNat * 8192 + b.toNat * 32)
  | .sandn g n s b => some (1073741837 + g.toNat * 4194304 + n.toNat * 2097152 + s.toNat * 8192 + b.toNat * 32)
  | .sshl g n s b => some (1073741838 + g.toNat * 4194304 + n.toNat * 2097152 + s.toNat * 8192 + b.toNat * 32)
  | .sshrU g n s b => some (1073741839 + g.toNat * 4194304 + n.toNat * 2097152 + s.toNat * 8192 + b.toNat * 32)
  | .sshrS g n s b => some (1073741840 + g.toNat * 4194304 + n.toNat * 2097152 + s.toNat * 8192 + b.toNat * 32)
  | .sminS g n s b => some (1073741841 + g.toNat * 4194304 + n.toNat * 2097152 + s.toNat * 8192 + b.toNat * 32)
  | .smaxS g n s b => some (1073741842 + g.toNat * 4194304 + n.toNat * 2097152 + s.toNat * 8192 + b.toNat * 32)
  | .sminU g n s b => some (1073741843 + g.toNat * 4194304 + n.toNat * 2097152 + s.toNat * 8192 + b.toNat * 32)
  | .smaxU g n s b => some (1073741844 + g.toNat * 4194304 + n.toNat * 2097152 + s.toNat * 8192 + b.toNat * 32)
  | .smov g n s b => some (1073741845 + g.toNat * 4194304 + n.toNat * 2097152 + s.toNat * 8192 + b.toNat * 32)
  | .spopc g n s b => some (1073741846 + g.toNat * 4194304 + n.toNat * 2097152 + s.toNat * 8192 + b.toNat * 32)
  | .sclz g n s b => some (1073741847 + g.toNat * 4194304 + n.toNat * 2097152 + s.toNat * 8192 + b.toNat * 32)
  | .sseq g n s b => some (1073741848 + g.toNat * 4194304 + n.toNat * 2097152 + s.toNat * 8192 + b.toNat * 32)
  | .ssne g n s b => some (1073741849 + g.toNat * 4194304 + n.toNat * 2097152 + s.toNat * 8192 + b.toNat * 32)
  | .ssltS g n s b => some (1073741850 + g.toNat * 4194304 + n.toNat * 2097152 + s.toNat * 8192 + b.toNat * 32)
  | .ssltU g n s b => some (1073741851 + g.toNat * 4194304 + n.toNat * 2097152 + s.toNat * 8192 + b.toNat * 32)
  | .saddW g n s b => some (1073741852 + g.toNat * 4194304 + n.toNat * 2097152 + s.toNat * 8192 + b.toNat * 32)
  | .ssubW g n s b => some (1073741853 + g.toNat * 4194304 + n.toNat * 2097152 + s.toNat * 8192 + b.toNat * 32)
  | .smovp g n s b => some (1073741854 + g.toNat * 4194304 + n.toNat * 2097152 + s.toNat * 8192 + b.toNat * 32)
  | .pmovs g n s b => some (1073741855 + g.toNat * 4194304 + n.toNat * 2097152 + s.toNat * 8192 + b.toNat * 32)
  | .sfadd g n s b => some (1140850688 + g.toNat * 4194304 + n.toNat * 2097152 + s.toNat * 8192 + b.toNat * 32)
  | .sfsub g n s b => some (1140850689 + g.toNat * 4194304 + n.toNat * 2097152 + s.toNat * 8192 + b.toNat * 32)
  | .sfmul g n s b => some (1140850690 + g.toNat * 4194304 + n.toNat * 2097152 + s.toNat * 8192 + b.toNat * 32)
  | .sfdiv g n s b => some (1140850691 + g.toNat * 4194304 + n.toNat * 2097152 + s.toNat * 8192 + b.toNat * 32)
  | .sfsqrt g n s b => some (1140850692 + g.toNat * 4194304 + n.toNat * 2097152 + s.toNat * 8192 + b.toNat * 32)
  | .sfrcp g n s b => some (1140850693 + g.toNat * 4194304 + n.toNat * 2097152 + s.toNat * 8192 + b.toNat * 32)
  | .sfrsq g n s b => some (1140850694 + g.toNat * 4194304 + n.toNat * 2097152 + s.toNat * 8192 + b.toNat * 32)
  | .sfmin g n s b => some (1140850695 + g.toNat * 4194304 + n.toNat * 2097152 + s.toNat * 8192 + b.toNat * 32)
  | .sfmax g n s b => some (1140850696 + g.toNat * 4194304 + n.toNat * 2097152 + s.toNat * 8192 + b.toNat * 32)
  | .scvtF32Si32 g n s b => some (1140850697 + g.toNat * 4194304 + n.toNat * 2097152 + s.toNat * 8192 + b.toNat * 32)
  | .scvtF32Ui32 g n s b => some (1140850698 + g.toNat * 4194304 + n.toNat * 2097152 + s.toNat * 8192 + b.toNat * 32)
  | .scvtSi32F32 g n s b => some (1140850699 + g.toNat * 4194304 + n.toNat * 2097152 + s.toNat * 8192 + b.toNat * 32)
  | .scvtUi32F32 g n s b => some (1140850700 + g.toNat * 4194304 + n.toNat * 2097152 + s.toNat * 8192 + b.toNat * 32)
  | .scvtSi32F32Rn g n s b => some (1140850701 + g.toNat * 4194304 + n.toNat * 2097152 + s.toNat * 8192 + b.toNat * 32)
  | .sflt g n s b => some (1140850702 + g.toNat * 4194304 + n.toNat * 2097152 + s.toNat * 8192 + b.toNat * 32)
  | .sfle g n s b => some (1140850703 + g.toNat * 4194304 + n.toNat * 2097152 + s.toNat * 8192 + b.toNat * 32)
  | .sfeq g n s b => some (1140850704 + g.toNat * 4194304 + n.toNat * 2097152 + s.toNat * 8192 + b.toNat * 32)
  | .smovi g n s i => some (1207959552 + g.toNat * 4194304 + n.toNat * 2097152 + s.toNat * 8192 + i.toNat)
  | .saddi g n s i => some (1275068416 + g.toNat * 4194304 + n.toNat * 2097152 + s.toNat * 8192 + i.toNat)
  | .srd g n s r => some (1342177280 + g.toNat * 4194304 + n.toNat * 2097152 + s.toNat * 8192 + r.toNat * 32)
  | .swr g n s r => some (1342177281 + g.toNat * 4194304 + n.toNat * 2097152 + s.toNat * 8192 + r.toNat * 32)
  | .agetb g n s r => some (1342177282 + g.toNat * 4194304 + n.toNat * 2097152 + s.toNat * 8192 + r.toNat * 32)
  | .agets g n s r => some (1342177283 + g.toNat * 4194304 + n.toNat * 2097152 + s.toNat * 8192 + r.toNat * 32)
  | .agetw g n s r => some (1342177284 + g.toNat * 4194304 + n.toNat * 2097152 + s.toNat * 8192 + r.toNat * 32)
  | .lds g n s b => some (1409286144 + g.toNat * 4194304 + n.toNat * 2097152 + s.toNat * 8192 + b.toNat * 32)
  | .ldsW g n s b => some (1409286145 + g.toNat * 4194304 + n.toNat * 2097152 + s.toNat * 8192 + b.toNat * 32)
  | .ldsQ g n s b => some (1409286146 + g.toNat * 4194304 + n.toNat * 2097152 + s.toNat * 8192 + b.toNat * 32)
  | .ldsO g n s b => some (1409286147 + g.toNat * 4194304 + n.toNat * 2097152 + s.toNat * 8192 + b.toNat * 32)
  | .ldp g n s o w => some (1409286148 + g.toNat * 4194304 + n.toNat * 2097152 + s.toNat * 8192 + o.toNat * 256 + w.toNat * 32)
  | .ldls g n s b => some (1409286149 + g.toNat * 4194304 + n.toNat * 2097152 + s.toNat * 8192 + b.toNat * 32)
  | .aadd g n d a b => some (1476395008 + g.toNat * 4194304 + n.toNat * 2097152 + d.toNat * 65536 + a.toNat * 2048 + b.toNat * 8)
  | .asub g n d a b => some (1476395009 + g.toNat * 4194304 + n.toNat * 2097152 + d.toNat * 65536 + a.toNat * 2048 + b.toNat * 8)
  | .amul g n d a b => some (1476395010 + g.toNat * 4194304 + n.toNat * 2097152 + d.toNat * 65536 + a.toNat * 2048 + b.toNat * 8)
  | .ashl g n d a b => some (1476395011 + g.toNat * 4194304 + n.toNat * 2097152 + d.toNat * 65536 + a.toNat * 2048 + b.toNat * 8)
  | .aset g n d b => some (1476395012 + g.toNat * 4194304 + n.toNat * 2097152 + d.toNat * 65536 + b.toNat * 8)
  | .alane g n d b => some (1476395013 + g.toNat * 4194304 + n.toNat * 2097152 + d.toNat * 65536 + b.toNat * 8)
  | .aneg g n d a => some (1476395014 + g.toNat * 4194304 + n.toNat * 2097152 + d.toNat * 65536 + a.toNat * 2048)
  | .amov g n d b => some (1476395015 + g.toNat * 4194304 + n.toNat * 2097152 + d.toNat * 65536 + b.toNat * 8)
  | .acmp g n p a b c => some (1543503872 + g.toNat * 4194304 + n.toNat * 2097152 + p.toNat * 131072 + a.toNat * 4096 + b.toNat * 16 + c.toNat)
  | .bra g n o => some (1610612736 + g.toNat * 4194304 + n.toNat * 2097152 + o.toNat)
  | .brz g n s o => some (1677721600 + g.toNat * 4194304 + n.toNat * 2097152 + s.toNat * 8192 + o.toNat)
  | .brnz g n s o => some (1744830464 + g.toNat * 4194304 + n.toNat * 2097152 + s.toNat * 8192 + o.toNat)
  | .call g n w o => some (1811939328 + g.toNat * 4194304 + n.toNat * 2097152 + w.toNat * 524288 + o.toNat)
  | .nop g n => some (1879048192 + g.toNat * 4194304 + n.toNat * 2097152)
  | .exit g n => some (1879113728 + g.toNat * 4194304 + n.toNat * 2097152)
  | .ret g n b w => some (1879179264 + g.toNat * 4194304 + n.toNat * 2097152 + b.toNat * 256 + w.toNat)
  | .callr g n b w => some (1879244800 + g.toNat * 4194304 + n.toNat * 2097152 + b.toNat * 256 + w.toNat)
  | .brx g n b => some (1879310336 + g.toNat * 4194304 + n.toNat * 2097152 + b.toNat * 256)
  | .yield g n => some (1879375872 + g.toNat * 4194304 + n.toNat * 2097152)
  | .loopx g n s => some (1879441408 + g.toNat * 4194304 + n.toNat * 2097152 + s.toNat)
  | .wspill g n x => some (1879506944 + g.toNat * 4194304 + n.toNat * 2097152 + x.toNat)
  | .wfill g n x => some (1879572480 + g.toNat * 4194304 + n.toNat * 2097152 + x.toNat)
  | .bkpt g n c => some (1879638016 + g.toNat * 4194304 + n.toNat * 2097152 + c.toNat)
  | .trap g n c => some (1879703552 + g.toNat * 4194304 + n.toNat * 2097152 + c.toNat)
  | .rte g n => some (1879769088 + g.toNat * 4194304 + n.toNat * 2097152)
  | .svc g n b x => some (1879834624 + g.toNat * 4194304 + n.toNat * 2097152 + b.toNat * 256 + x.toNat)
  | .xpcr g n b l => some (1879900160 + g.toNat * 4194304 + n.toNat * 2097152 + b.toNat * 256 + l.toNat)
  | .xpcw g n b l => some (1879965696 + g.toNat * 4194304 + n.toNat * 2097152 + b.toNat * 256 + l.toNat)
  | .loop g n c b e => some (1946157056 + g.toNat * 4194304 + n.toNat * 2097152 + c.toNat * 1048576 + b.toNat * 4096 + e.toNat)
  | .sfromv g n d a l => some (2013265920 + g.toNat * 4194304 + n.toNat * 2097152 + d.toNat * 8192 + a.toNat * 256 + l.toNat * 8)
  | .sfirst g n d a => some (2013265921 + g.toNat * 4194304 + n.toNat * 2097152 + d.toNat * 8192 + a.toNat * 256)
  | .sunif g n d a => some (2013265922 + g.toNat * 4194304 + n.toNat * 2097152 + d.toNat * 8192 + a.toNat * 256)
  | .afromv g n d a => some (2013265923 + g.toNat * 4194304 + n.toNat * 2097152 + d.toNat * 8192 + a.toNat * 256)
  | .sredaddSi32 g n d a m p => some (2013265924 + g.toNat * 4194304 + n.toNat * 2097152 + d.toNat * 8192 + a.toNat * 256 + m.toNat * 128 + p.toNat * 8)
  | .sredaddF32 g n d a m p => some (2013265925 + g.toNat * 4194304 + n.toNat * 2097152 + d.toNat * 8192 + a.toNat * 256 + m.toNat * 128 + p.toNat * 8)
  | .sredminSi32 g n d a m p => some (2013265926 + g.toNat * 4194304 + n.toNat * 2097152 + d.toNat * 8192 + a.toNat * 256 + m.toNat * 128 + p.toNat * 8)
  | .sredmaxSi32 g n d a m p => some (2013265927 + g.toNat * 4194304 + n.toNat * 2097152 + d.toNat * 8192 + a.toNat * 256 + m.toNat * 128 + p.toNat * 8)
  | .ldg g n d o b f l => some (2147483648 + g.toNat * 4194304 + n.toNat * 2097152 + d.toNat * 65536 + o.toNat * 256 + b.toNat * 32 + f.toNat * 16 + l.toNat)
  | .ldgW g n d o b f l => some (2214592512 + g.toNat * 4194304 + n.toNat * 2097152 + d.toNat * 65536 + o.toNat * 256 + b.toNat * 32 + f.toNat * 16 + l.toNat)
  | .ldgQ g n d o b f l => some (2281701376 + g.toNat * 4194304 + n.toNat * 2097152 + d.toNat * 65536 + o.toNat * 256 + b.toNat * 32 + f.toNat * 16 + l.toNat)
  | .stg g n d o b k c => some (2348810240 + g.toNat * 4194304 + n.toNat * 2097152 + d.toNat * 65536 + o.toNat * 256 + b.toNat * 32 + k.toNat * 16 + c.toNat)
  | .stgW g n d o b k c => some (2415919104 + g.toNat * 4194304 + n.toNat * 2097152 + d.toNat * 65536 + o.toNat * 256 + b.toNat * 32 + k.toNat * 16 + c.toNat)
  | .stgQ g n d o b k c => some (2483027968 + g.toNat * 4194304 + n.toNat * 2097152 + d.toNat * 65536 + o.toNat * 256 + b.toNat * 32 + k.toNat * 16 + c.toNat)
  | .ldl g n d o b l => some (2550136832 + g.toNat * 4194304 + n.toNat * 2097152 + d.toNat * 65536 + o.toNat * 256 + b.toNat * 32 + l.toNat)
  | .ldlW g n d o b l => some (2617245696 + g.toNat * 4194304 + n.toNat * 2097152 + d.toNat * 65536 + o.toNat * 256 + b.toNat * 32 + l.toNat)
  | .ldlQ g n d o b l => some (2684354560 + g.toNat * 4194304 + n.toNat * 2097152 + d.toNat * 65536 + o.toNat * 256 + b.toNat * 32 + l.toNat)
  | .stl g n d o b c => some (2751463424 + g.toNat * 4194304 + n.toNat * 2097152 + d.toNat * 65536 + o.toNat * 256 + b.toNat * 32 + c.toNat)
  | .stlW g n d o b c => some (2818572288 + g.toNat * 4194304 + n.toNat * 2097152 + d.toNat * 65536 + o.toNat * 256 + b.toNat * 32 + c.toNat)
  | .stlQ g n d o b c => some (2885681152 + g.toNat * 4194304 + n.toNat * 2097152 + d.toNat * 65536 + o.toNat * 256 + b.toNat * 32 + c.toNat)
  | .ldgU8 g n d o b f => some (2952790016 + g.toNat * 4194304 + n.toNat * 2097152 + d.toNat * 65536 + o.toNat * 256 + b.toNat * 32 + f.toNat * 16)
  | .ldgS8 g n d o b f => some (2952790017 + g.toNat * 4194304 + n.toNat * 2097152 + d.toNat * 65536 + o.toNat * 256 + b.toNat * 32 + f.toNat * 16)
  | .ldgU16 g n d o b f => some (2952790018 + g.toNat * 4194304 + n.toNat * 2097152 + d.toNat * 65536 + o.toNat * 256 + b.toNat * 32 + f.toNat * 16)
  | .ldgS16 g n d o b f => some (2952790019 + g.toNat * 4194304 + n.toNat * 2097152 + d.toNat * 65536 + o.toNat * 256 + b.toNat * 32 + f.toNat * 16)
  | .stgB8 g n d o b k => some (2952790020 + g.toNat * 4194304 + n.toNat * 2097152 + d.toNat * 65536 + o.toNat * 256 + b.toNat * 32 + k.toNat * 16)
  | .stgB16 g n d o b k => some (2952790021 + g.toNat * 4194304 + n.toNat * 2097152 + d.toNat * 65536 + o.toNat * 256 + b.toNat * 32 + k.toNat * 16)
  | .ldlU8 g n d o b => some (2952790022 + g.toNat * 4194304 + n.toNat * 2097152 + d.toNat * 65536 + o.toNat * 256 + b.toNat * 32)
  | .ldlS8 g n d o b => some (2952790023 + g.toNat * 4194304 + n.toNat * 2097152 + d.toNat * 65536 + o.toNat * 256 + b.toNat * 32)
  | .ldlU16 g n d o b => some (2952790024 + g.toNat * 4194304 + n.toNat * 2097152 + d.toNat * 65536 + o.toNat * 256 + b.toNat * 32)
  | .ldlS16 g n d o b => some (2952790025 + g.toNat * 4194304 + n.toNat * 2097152 + d.toNat * 65536 + o.toNat * 256 + b.toNat * 32)
  | .stlB8 g n d o b => some (2952790026 + g.toNat * 4194304 + n.toNat * 2097152 + d.toNat * 65536 + o.toNat * 256 + b.toNat * 32)
  | .stlB16 g n d o b => some (2952790027 + g.toNat * 4194304 + n.toNat * 2097152 + d.toNat * 65536 + o.toNat * 256 + b.toNat * 32)
  | .pfg g n o b f => some (2952790028 + g.toNat * 4194304 + n.toNat * 2097152 + o.toNat * 256 + b.toNat * 32 + f.toNat * 16)
  | .atomg g n d v b o s r => some (3019898880 + g.toNat * 4194304 + n.toNat * 2097152 + d.toNat * 65536 + v.toNat * 2048 + b.toNat * 256 + o.toNat * 16 + s.toNat * 4 + r.toNat)
  | .atoml g n d v b o s r => some (3087007744 + g.toNat * 4194304 + n.toNat * 2097152 + d.toNat * 65536 + v.toNat * 2048 + b.toNat * 256 + o.toNat * 16 + s.toNat * 4 + r.toNat)
  | .atoms g n s b o a => some (3154116608 + g.toNat * 4194304 + n.toNat * 2097152 + s.toNat * 8192 + b.toNat * 32 + o.toNat * 2 + a.toNat)
  | .fence g n s => some (3221225472 + g.toNat * 4194304 + n.toNat * 2097152 + s.toNat * 8192)
  | .rel g n s => some (3221291008 + g.toNat * 4194304 + n.toNat * 2097152 + s.toNat * 8192)
  | .acq g n s => some (3221356544 + g.toNat * 4194304 + n.toNat * 2097152 + s.toNat * 8192)
  | .acqRmt g n b => some (3221422080 + g.toNat * 4194304 + n.toNat * 2097152 + b.toNat * 32)
  | .wdrain g n => some (3221487616 + g.toNat * 4194304 + n.toNat * 2097152)
  | .l1wb g n => some (3221553152 + g.toNat * 4194304 + n.toNat * 2097152)
  | .l1inv g n => some (3221618688 + g.toNat * 4194304 + n.toNat * 2097152)
  | .leaseSet g n b => some (3221684224 + g.toNat * 4194304 + n.toNat * 2097152 + b.toNat * 32)
  | .leaseMeas g n => some (3221749760 + g.toNat * 4194304 + n.toNat * 2097152)
  | .leaseGet g n b => some (3221815296 + g.toNat * 4194304 + n.toNat * 2097152 + b.toNat * 32)
  | .barv g n q b => some (3288334336 + g.toNat * 4194304 + n.toNat * 2097152 + q.toNat * 8192 + b.toNat)
  | .bwait g n q b => some (3288334592 + g.toNat * 4194304 + n.toNat * 2097152 + q.toNat * 8192 + b.toNat)
  | .bsync g n q => some (3288334848 + g.toNat * 4194304 + n.toNat * 2097152 + q.toNat * 8192)
  | .barvn g n q => some (3288335104 + g.toNat * 4194304 + n.toNat * 2097152 + q.toNat * 8192)
  | .btest g n q b => some (3288335360 + g.toNat * 4194304 + n.toNat * 2097152 + q.toNat * 8192 + b.toNat)
  | .gmask g n q b => some (3355443200 + g.toNat * 4194304 + n.toNat * 2097152 + q.toNat * 8192 + b.toNat)
  | .gqry g n q b => some (3355443456 + g.toNat * 4194304 + n.toNat * 2097152 + q.toNat * 8192 + b.toNat)
  | .gsave g n q b => some (3355443712 + g.toNat * 4194304 + n.toNat * 2097152 + q.toNat * 8192 + b.toNat)
  | .gload g n q b => some (3355443968 + g.toNat * 4194304 + n.toNat * 2097152 + q.toNat * 8192 + b.toNat)
  | .mma g n t f v a y z s => some (3489660928 + g.toNat * 4194304 + n.toNat * 2097152 + t.toNat * 262144 + f.toNat * 65536 + v.toNat * 2048 + a.toNat * 256 + y.toNat * 16 + z.toNat * 8 + s.toNat)
  | .mzero g n t => some (3556769792 + g.toNat * 4194304 + n.toNat * 2097152 + t.toNat * 8192)
  | .mldt g n t d f => some (3556835328 + g.toNat * 4194304 + n.toNat * 2097152 + t.toNat * 8192 + d.toNat * 1024 + f.toNat * 256)
  | .mstt g n t d f => some (3556900864 + g.toNat * 4194304 + n.toNat * 2097152 + t.toNat * 8192 + d.toNat * 1024 + f.toNat * 256)
  | .mrowv g n v t => some (3556966400 + g.toNat * 4194304 + n.toNat * 2097152 + v.toNat * 2048 + t.toNat * 256)
  | .mwait g n => some (3557031936 + g.toNat * 4194304 + n.toNat * 2097152)
  | .mfence g n => some (3557097472 + g.toNat * 4194304 + n.toNat * 2097152)
  | .mdesc g n d b => some (3557163008 + g.toNat * 4194304 + n.toNat * 2097152 + d.toNat * 8192 + b.toNat * 32)
  | .mdescGet g n d b => some (3557163024 + g.toNat * 4194304 + n.toNat * 2097152 + d.toNat * 8192 + b.toNat * 32)
  | .cpyLin g n t b => some (3758096384 + g.toNat * 4194304 + n.toNat * 2097152 + t.toNat * 32768 + b.toNat * 8)
  | .cpyLinw g n t b => some (3758098432 + g.toNat * 4194304 + n.toNat * 2097152 + t.toNat * 32768 + b.toNat * 8)
  | .cpyT2d g n t b => some (3758100480 + g.toNat * 4194304 + n.toNat * 2097152 + t.toNat * 32768 + b.toNat * 8)
  | .cpyT2dw g n t b => some (3758102528 + g.toNat * 4194304 + n.toNat * 2097152 + t.toNat * 32768 + b.toNat * 8)
  | .cpyXpnd g n t b => some (3758104576 + g.toNat * 4194304 + n.toNat * 2097152 + t.toNat * 32768 + b.toNat * 8)
  | .cpyGath g n t b => some (3758106624 + g.toNat * 4194304 + n.toNat * 2097152 + t.toNat * 32768 + b.toNat * 8)
  | .cpyScat g n t b => some (3758108672 + g.toNat * 4194304 + n.toNat * 2097152 + t.toNat * 32768 + b.toNat * 8)
  | .cpyL2l g n t b => some (3758110720 + g.toNat * 4194304 + n.toNat * 2097152 + t.toNat * 32768 + b.toNat * 8)
  | .cpyFill g n t b => some (3758112768 + g.toNat * 4194304 + n.toNat * 2097152 + t.toNat * 32768 + b.toNat * 8)
  | .twaitany g n s b => some (3825205248 + g.toNat * 4194304 + n.toNat * 2097152 + s.toNat * 8192 + b.toNat * 32)
  | .twaitall g n s b => some (3825205249 + g.toNat * 4194304 + n.toNat * 2097152 + s.toNat * 8192 + b.toNat * 32)
  | .tfind g n s b => some (3825205250 + g.toNat * 4194304 + n.toNat * 2097152 + s.toNat * 8192 + b.toNat * 32)
  | .tclr g n b => some (3825205251 + g.toNat * 4194304 + n.toNat * 2097152 + b.toNat * 32)
  | .tstat g n s b => some (3825205252 + g.toNat * 4194304 + n.toNat * 2097152 + s.toNat * 8192 + b.toNat * 32)
  | .rput g n r s => some (3892314112 + g.toNat * 4194304 + n.toNat * 2097152 + r.toNat * 131072 + s.toNat * 16)
  | .rget g n r s => some (3892318208 + g.toNat * 4194304 + n.toNat * 2097152 + r.toNat * 131072 + s.toNat * 16)
  | .rputNb g n r s p => some (3892322304 + g.toNat * 4194304 + n.toNat * 2097152 + r.toNat * 131072 + s.toNat * 16 + p.toNat)
  | .rgetNb g n r s p => some (3892326400 + g.toNat * 4194304 + n.toNat * 2097152 + r.toNat * 131072 + s.toNat * 16 + p.toNat)
  | .rclose g n r => some (3892330496 + g.toNat * 4194304 + n.toNat * 2097152 + r.toNat * 131072)
  | .rstat g n r s => some (3892334592 + g.toNat * 4194304 + n.toNat * 2097152 + r.toNat * 131072 + s.toNat * 16)
  | .hgive g n b x => some (3959422976 + g.toNat * 4194304 + n.toNat * 2097152 + b.toNat * 256 + x.toNat)
  | .hrecv g n b x => some (3959488512 + g.toNat * 4194304 + n.toNat * 2097152 + b.toNat * 256 + x.toNat)
  | .hqry g n b => some (3959554048 + g.toNat * 4194304 + n.toNat * 2097152 + b.toNat * 256)
  | .hdrop g n b => some (3959619584 + g.toNat * 4194304 + n.toNat * 2097152 + b.toNat * 256)
  | .klaunch g n b => some (4026531840 + g.toNat * 4194304 + n.toNat * 2097152 + b.toNat * 32)
  | .kwait g n b => some (4026597376 + g.toNat * 4194304 + n.toNat * 2097152 + b.toNat * 32)
  | .kquota g n b => some (4026662912 + g.toNat * 4194304 + n.toNat * 2097152 + b.toNat * 32)
  | .crs g n t b c y => some (4093640704 + g.toNat * 4194304 + n.toNat * 2097152 + t.toNat * 32768 + b.toNat * 8 + c.toNat * 4 + y.toNat)
  | .cag g n t b c y => some (4093642752 + g.toNat * 4194304 + n.toNat * 2097152 + t.toNat * 32768 + b.toNat * 8 + c.toNat * 4 + y.toNat)
  | .car g n t b c y => some (4093644800 + g.toNat * 4194304 + n.toNat * 2097152 + t.toNat * 32768 + b.toNat * 8 + c.toNat * 4 + y.toNat)
  | .mkdown g n m b => some (4160749568 + g.toNat * 4194304 + n.toNat * 2097152 + m.toNat * 8192 + b.toNat * 32)
  | .mkget g n b => some (4160815104 + g.toNat * 4194304 + n.toNat * 2097152 + b.toNat * 32)
  | .trmark g n b => some (4160880640 + g.toNat * 4194304 + n.toNat * 2097152 + b.toNat * 32)
  | .clkrd g n b => some (4160946176 + g.toNat * 4194304 + n.toNat * 2097152 + b.toNat * 32)
  | .ximm p => some (4290772992 + p.toNat)
  | .rep b a d s c => some (4291297280 + b.toNat * 1024 + a.toNat * 512 + d.toNat * 256 + s.toNat * 64 + c.toNat)
  | .la l => some (4291821568 + l.toNat)
  | .quantumExpiry _ => none
  | .starvationLimit _ _ => none
  | .greedyLimit _ _ => none
  | .admissionPass _ => none
  | .ageBoundExpiry _ => none
  | .footprintWindow _ _ => none
  | .kernelDispatch _ => none
  | .kernelRunning _ => none
  | .tuftPlacement _ => none
  | .tuftComplete _ => none
  | .completionSignal _ => none
  | .runmaxExpiry _ => none
  | .tuftSuspend _ => none
  | .forcedSuspension _ => none
  | .tuftReload _ => none
  | .tuftAbort _ => none
  | .storeBufferSend _ => none
  | .writePerform _ => none
  | .writeAck _ => none
  | .loadReturn _ _ _ => none
  | .atomicReply _ => none
  | .walk _ _ _ => none
  | .walkWake _ => none
  | .shootdownGo _ => none
  | .shootdownComplete _ => none
  | .matrixOpComplete _ => none
  | .copyStart _ => none
  | .copyComplete _ _ => none
  | .collectiveJoin _ _ => none
  | .collectiveComplete _ _ => none
  | .serviceReply _ _ => none
  | .replyResume _ _ => none
  | .replyAbandon _ _ => none
  | .replyDroplanes _ _ => none
  | .replyDiscard _ _ => none
  | .queueRegister _ _ => none
  | .queueDestroy _ _ => none
  | .queueWake _ _ => none
  | .packetFetch _ _ => none
  | .packetKernel _ _ => none
  | .packetWaitall _ _ => none
  | .packetWaitany _ _ => none
  | .packetSignal _ _ => none
  | .packetHold _ _ => none
  | .packetRelease _ _ => none
  | .packetNop _ _ => none
  | .waitReevaluate _ _ => none
  | .partitionForm _ => none
  | .partitionReady _ => none
  | .bootFailure _ => none
  | .partAdd _ _ => none
  | .partRemove _ _ _ => none
  | .drainmaxExpiry _ => none
  | .partLend _ _ _ _ => none
  | .partRecall _ _ => none
  | .recallDeadline _ => none
  | .recallWriteOut _ => none
  | .partHalt _ => none
  | .partResume _ => none
  | .partDissolve _ => none
  | .evidence _ _ _ _ => none
  | .certs _ _ _ _ => none
  | .extend _ _ _ => none
  | .ctxCreate _ _ => none
  | .ctxActivate _ _ => none
  | .ctxSuspend _ _ _ => none
  | .ctxResume _ _ => none
  | .ctxFault _ _ => none
  | .ctxDestroy _ _ => none
  | .keyLoad _ _ => none
  | .keyLoadw _ _ => none
  | .keyErase _ _ => none
  | .correctableError _ => none
  | .uncorrectableError _ => none
  | .sliceLost _ => none
  | .portEnable _ => none
  | .portDisable _ => none
  | .portFence _ => none
  | .portUnfence _ => none
  | .trainingDone _ _ _ => none
  | .trainingFailed _ => none
  | .keyingDone _ => none
  | .wavelengthLoss _ _ _ => none
  | .retrainingRestored _ => none
  | .rekey _ => none
  | .packetReceive _ _ => none
  | .retransmitTimeout _ => none
  | .lctlWrite _ _ => none
  | .getVersion _ => none
  | .getCapabilities _ => none
  | .negotiateAlgorithms _ => none
  | .getDigests _ => none
  | .getCertificate _ _ _ _ => none
  | .challenge _ _ => none
  | .getMeasurements _ _ _ => none
  | .spdmUnsupported _ _ => none
  | .firmwareStage _ _ _ => none
  | .activationStart _ => none
  | .activationCommit _ => none
  | .activationRollback _ => none
  | .mgmtOtherMessage _ _ => none
  | .packageReset _ => none
  | .pwrctlWrite _ _ _ => none
  | .thermThrottle _ _ _ _ => none
  | .powerWindow _ _ _ _ => none
  | .trctlWrite _ _ => none
  | .teaselDrain _ => none
  | .lschedWrite _ _ => none
  | .urgentWrite _ _ => none
  | .frameOwnerWrite _ _ _ => none
  | .controlRegWrite _ _ _ _ => none
  | .unassignedEncoding _ => none
  | .longLatencyResult _ _ => none
  | .serviceCoreAccess _ => none
  | .partitionKernelFetch _ _ _ => none
  | .cpuTrayRegister _ _ _ => none

/-- The word of an encoded instruction. -/
def encode (i : Instr) : Option Word := (encodeNat i).map (BitVec.ofNat 32)

end Sys2Proof
end

