-- ==== Sys2Proof/Machine/Maps.lean ====
section
/-!
DEFINITION. Sparse data by number: lists of pairs with rising keys. What an unlisted key reads as is said by each reader.
-/
namespace Sys2Proof.Machine

/-- Data by number. -/
abbrev Map (α : Type) := List (Nat × α)

/-- What stands under a key. -/
def Map.find? {α : Type} : Map α → Nat → Option α
  | [], _ => none
  | (k', v) :: m, k => if k' = k then some v else Map.find? m k

/-- What stands under a key, a default where nothing does. -/
def Map.getD {α : Type} (m : Map α) (k : Nat) (d : α) : α := (Map.find? m k).getD d

/-- Put a value under a key; rising keys stay rising. -/
def Map.put {α : Type} : Map α → Nat → α → Map α
  | [], k, v => [(k, v)]
  | (k', v') :: m, k, v =>
    if k' = k then (k, v) :: m else if k < k' then (k, v) :: (k', v') :: m else (k', v') :: Map.put m k v

/-- Take a key away. -/
def Map.drop {α : Type} (m : Map α) (k : Nat) : Map α := m.filter (fun e => e.1 != k)

/-- Change what stands under a key, if anything does. -/
def Map.modify {α : Type} (m : Map α) (k : Nat) (f : α → α) : Map α :=
  m.map (fun e => if e.1 = k then (e.1, f e.2) else e)

/-- The values whose key and value meet a test, taken away. -/
def Map.reject {α : Type} (m : Map α) (p : Nat → α → Bool) : Map α := m.filter (fun e => !p e.1 e.2)

/-- The keys, in order. -/
def Map.keys {α : Type} (m : Map α) : List Nat := m.map Prod.fst

/-- The lowest number below a bound that is no key, if there is one. -/
def Map.lowestFree {α : Type} (m : Map α) (bound : Nat) : Option Nat :=
  (List.range bound).find? (fun k => (Map.find? m k).isNone)

end Sys2Proof.Machine
end

