-- ==== Sys2Proof/Machine/Bytes.lean ====
section
/-!
DEFINITION. Byte order (R5: little-endian), sign extension and bit fields of numbers.
-/
namespace Sys2Proof.Machine

/-- The number that bytes hold, the first the least significant (R5). -/
def leNat : List Byte → Nat
  | [] => 0
  | b :: bs => b.toNat + 256 * leNat bs

/-- The n bytes of a number, the least significant first (R5). -/
def leBytes : Nat → Nat → List Byte
  | 0, _ => []
  | n + 1, v => BitVec.ofNat 8 v :: leBytes n (v / 256)

/-- Bits [lo + k - 1 : lo] of a number. -/
def field (v lo k : Nat) : Nat := v / 2 ^ lo % 2 ^ k

/-- A k-bit number read as signed. -/
def signed (k v : Nat) : Int := if v % 2 ^ k < 2 ^ (k - 1) then (v % 2 ^ k : Nat) else ((v % 2 ^ k : Nat) : Int) - ((2 ^ k : Nat) : Int)

/-- A 64-bit address whose bits [63:57] equal bit 56 (R84, R155). -/
def canonical (a : Addr) : Bool :=
  let top := a.toNat / 2 ^ 56
  top == 0 || top == 255

/-- An address plus an exact offset, modulo 2^64 (R153). -/
def addrAdd (a : Addr) (o : Int) : Addr := a + BitVec.ofInt 64 o

/-- The bytes of a list at distance d and onward, n of them, zero where the list ends. -/
def bytesAt (bs : List Byte) (d n : Nat) : List Byte := (List.range n).map (fun i => bs.getD (d + i) 0)

/-- The number in the n bytes at distance d. -/
def natAt (bs : List Byte) (d n : Nat) : Nat := leNat (bytesAt bs d n)

/-- Every byte of a stretch is zero. -/
def zeroAt (bs : List Byte) (d n : Nat) : Bool := (bytesAt bs d n).all (· == 0)

end Sys2Proof.Machine
end

