-- ==== Sys2Proof/Machine/State.lean ====
section
/-!
DEFINITION. The state of the machine as plain data: every sheaf, tuft, kernel, core, slice, package and partition, the
physical memory, the messages on their way, and the two pieces that are the model's own (which happening comes next, and
the counters of free values and of names). Each field's docstring names the rule of spec/ that gives it.
-/
namespace Sys2Proof.Machine

/-! ## Register files -/

/-- One varying register: its 32 lane elements and its one mark (R36, R54). -/
structure VReg where
  lanes : List Word
  mark  : Mark
  deriving DecidableEq, Repr

/-- A varying register as it is when its tuft is placed: zero, OPEN (R54). -/
def VReg.zero : VReg := { lanes := List.replicate 32 0, mark := 0 }

/-- One uniform register with its mark, one predicate register with its mark (R36, R54). -/
structure UReg where
  val  : Word
  mark : Mark
  deriving DecidableEq, Repr

/-- A uniform or predicate register as it is at placement: zero, OPEN (R54). -/
def UReg.zero : UReg := { val := 0, mark := 0 }

/-- One affine register: base, stride, the sticky flags WS and WU, its mark (R41, R54). -/
structure AReg where
  base   : Word
  stride : Word
  ws     : Bool
  wu     : Bool
  mark   : Mark
  deriving DecidableEq, Repr

/-- An affine register at placement (R54). -/
def AReg.zero : AReg := { base := 0, stride := 0, ws := false, wu := false, mark := 0 }

/-- A matrix descriptor d0 to d7 with its mark (R54, R175). -/
structure DReg where
  val  : BitVec 64
  mark : Mark
  deriving DecidableEq, Repr

/-- A descriptor at placement (R54, R175). -/
def DReg.zero : DReg := { val := 0, mark := 0 }

/-- A hardware loop slot: LC, LS, LE and the slot's mark (R46, R54). -/
structure LoopSlot where
  lc   : Word
  ls   : Addr
  le   : Addr
  mark : Mark
  deriving DecidableEq, Repr

/-- A loop slot at placement, and as trap entry leaves it (R54, R145). -/
def LoopSlot.zero : LoopSlot := { lc := 0, ls := 0, le := 0, mark := 0 }

/-- An accumulator tile: 16 x 16 FP32 elements under number 16 * row + column, unlisted elements zero, and its mark (R36,
R54, R174). -/
structure Tile where
  cells : Map Word
  mark  : Mark
  deriving DecidableEq, Repr

/-- A tile at placement (R54). -/
def Tile.zero : Tile := { cells := [], mark := 0 }

/-! ## Sheaves -/

/-- The role of a sheaf (R30). -/
inductive Role where
  | general | stage | matrix | vector
  deriving DecidableEq, Repr

/-- The state of a sheaf slot (R33). -/
inductive SheafState where
  | free | parked | active | waiting | trapped | suspended | exited | faulted
  deriving DecidableEq, Repr

/-- The fairness round (R24): whether one is running, its snapshot groups, turn, counted instructions of the turn, and the
lanes that have issued in it. -/
structure Round where
  active : Bool
  groups : List Mask
  turn   : Nat
  count  : Nat
  issued : Mask
  deriving DecidableEq, Repr

/-- No round (R24). -/
def Round.none : Round := { active := false, groups := [], turn := 0, count := 0, issued := 0 }

/-- The pending prefixes of a sheaf (R92, R35): the lanes that carry them, the address of the first, and the payloads. -/
structure Hints where
  lanes : Mask
  first : Addr
  rep   : Option (BitVec 19)
  ximm  : Option (BitVec 19)
  la    : Option (BitVec 19)
  deriving DecidableEq, Repr

/-- No prefix pending. -/
def Hints.none : Hints := { lanes := 0, first := 0, rep := Option.none, ximm := Option.none, la := Option.none }

/-- The second slot of a counted instruction that issues in two (R35): where, the lanes it serves, those that the first slot served, and
the first name that was unused when the first slot began. -/
structure Second where
  addr  : Addr
  lanes : Mask
  first : Mask
  start : Nat
  deriving DecidableEq, Repr

/-- What trap entry saves and RTE reinstates (R145, R328): the lane PCs (XPC), loop slots, round, REPREM, the second slot that
trapped (R35); and TCAUSE and TINFO, valid while the sheaf holds handler status. -/
structure Saved where
  xpc    : List Addr
  loop0  : LoopSlot
  loop1  : LoopSlot
  round  : Round
  reprem : Nat
  second : Option Second
  tcause : Word
  tinfo  : BitVec 64
  deriving DecidableEq, Repr

/-- The instruction being issued or the one a sheaf waits in: sheaf, address, address of its prefix group, issuing lanes,
acting lanes (issuing lanes whose guard is true), word, prefixes attached, repeat index (R20, R95, R105). -/
structure Slot where
  sid    : Nat
  addr   : Addr
  group  : Addr
  lanes  : Mask
  acting : Mask
  word   : Word
  rep    : Option (BitVec 19)
  ximm   : Option (BitVec 19)
  la     : Option (BitVec 19)
  index  : Nat
  deriving DecidableEq, Repr

/-- An empty issue slot. -/
def Slot.none : Slot :=
  { sid := 0, addr := 0, group := 0, lanes := 0, acting := 0, word := 0, rep := Option.none, ximm := Option.none,
    la := Option.none, index := 0 }

/-- How a loaded element is widened (R59, R160). -/
inductive Widen where
  | none | u8 | s8 | u16 | s16
  deriving DecidableEq, Repr

/-- Where a result in flight comes from (R98): a global load of so many bytes per lane; a home atomic, whose messages
deliver the lanes; a value already computed or captured. -/
inductive PendKind where
  | load (size : Nat) (widen : Widen)
  | atomic
  | value
  deriving DecidableEq, Repr

/-- What a lane of a load reads (R157, R289): physical address, the page's key handle and that slot's key at issue, GRAIN,
whether the load is fresh, and whether it is weak and its sector was not valid at issue, so that it may read the home (R222). -/
structure Src where
  lane  : Nat
  paddr : Nat
  kh    : Nat
  key   : Nat
  grain : Nat
  fresh : Bool
  missed : Bool := false
  deriving DecidableEq, Repr

/-- A result in flight (R98, R99): where it goes (physical varying registers or uniform registers, in element order), the
lanes still to be written, the counted instructions left in its lookahead window, the address of its instruction, the
bytes it reads per lane (physical address, key of the access), the data once it is bound, the mark the destination takes, and
how often its request over a port timed out (R344; 3 where a fence has dropped it, R354); group is the address of its prefix
group, which a record names (R333). -/
structure Pending where
  id      : Nat
  addr    : Addr
  group   : Addr := addr
  varying : Bool
  regs    : List Nat
  lanes   : Mask
  whole   : Bool
  window  : Nat
  kind    : PendKind
  source  : List Src
  data    : List (Nat × List Word)
  bound   : Bool
  mark    : Mark
  tries   : Nat := 0
  deriving DecidableEq, Repr

/-- An entry of a sheaf's store buffer (R158): a 128-byte line, the bytes written by their offset in the line, the key and
the key handle of the translation, the page's GRAIN (R289), and the offsets of the bytes that no L1 copy has taken (R220). -/
structure BufEntry where
  line  : Nat
  bytes : Map Byte
  key   : Nat
  kh    : Nat
  grain : Nat
  hidden : List Nat
  deriving DecidableEq, Repr

/-- A matrix operation (R177 to R190): MMA with its tile, fuse, typ, z and the A tile of asrc = 1; MZERO; MLDT and MSTT with
their format; MROWV with the physical registers it writes. -/
inductive MatKind where
  | mma (mt fuse typ : Nat) (z : Bool) (aTile : Option Nat)
  | mzero (mt : Nat)
  | mldt (mt fmt : Nat)
  | mstt (mt fmt : Nat)
  | mrowv (regs : List Nat) (mt : Nat)
  deriving DecidableEq, Repr

/-- A matrix operation issued and not yet covered by an MWAIT (R180, R193, R195): its number (the four parts of a fused
operation share one), its acting lanes, its descriptor as it stood at issue, the A elements (16 rows) and the B elements (32
rows of 16 columns) as bits of their formats, the physical registers that hold its B, the largest mark among what it read at
issue, whether it is complete, whether its acting lanes were the whole live set at issue (R56), and for an operation that reads a
tile what the tile held before each update that has acted since its issue (R195 row 3). -/
structure MatOp where
  id     : Nat
  kind   : MatKind
  acting : Mask
  desc   : BitVec 64
  aElems : List (List Nat)
  bElems : List (List Nat)
  bRegs  : List Nat
  mark   : Mark
  done   : Bool
  whole  : Bool := false
  olds   : List Tile := []
  deriving DecidableEq, Repr

/-- A buffer of local store (R213): origin tuft, home core, first byte in the origin's allotment, size in 4 KB units. -/
structure Buffer where
  origin : Nat
  home   : Nat
  offset : Nat
  units  : Nat
  deriving DecidableEq, Repr

/-- A reply's action on what waits (R335). -/
inductive Reply where
  | resume | abandon | dropLanes
  deriving DecidableEq, Repr

/-- What a WAITING sheaf waits for (R33). Unless said otherwise the instruction issues again, from its prefix group, when
the condition is met. -/
inductive WaitKind where
  /-- REL, FENCE, WDRAIN and an atomic that releases first: the counters a scope names are zero (R167, R171) -/
  | counters (scope : Nat)
  /-- ACQ.RMT: the target core's sends of the SLICE and PART classes are acknowledged (R172); the wait's end completes it -/
  | remote (core : Nat)
  /-- a barrier phase of a group has completed (R278); the wait's end completes the instruction -/
  | barrier (group phase : Nat)
  /-- an arrival that waits for the sheaf's earlier phase of a group to complete (R278) -/
  | arrival (group : Nat)
  /-- TWAITANY, TWAITALL on a mask (R208) -/
  | tagAny (mask : BitVec 64)
  | tagAll (mask : BitVec 64)
  /-- CPY: a place in the queue, and a tag whose COUNT is below 255 (R201, R207) -/
  | command (tag : Nat)
  /-- CRS, CAG, CAR: a place in the collective engine, and a tag whose COUNT is below 255 (R348) -/
  | collective (tag : Nat)
  /-- RPUT and RGET (R210) -/
  | ringPut (ring : Nat)
  | ringGet (ring : Nat)
  /-- SVC (R149): the service reply completes it -/
  | service (number : Nat)
  /-- HRECV on a channel (R214) -/
  | receive (channel : Nat)
  /-- HGIVE and HDROP: the tuft's commands and accesses in flight that name the buffer are complete (R214) -/
  | handOff (slot : Nat) (buffer : Buffer)
  /-- HGIVE, its access revoked: a place in the target core's arrival queue; posting completes it (R214) -/
  | post (target channel : Nat) (buffer : Buffer)
  /-- KWAIT on a child id (R251): the child kernel and the uniform register for its status; the child's end completes it -/
  | child (id kid reg : Nat)
  /-- a fused matrix arrival (R182); the last arrival completes it -/
  | fused
  /-- a reply that came before the sheaf's admission, to be acted on then (R248): its action, the record's lanes and code -/
  | answered (reply : Reply) (lanes : Mask) (code : Nat)
  /-- MWAIT (R193) -/
  | matrix
  /-- MFENCE: the results in flight (R192) -/
  | fence
  /-- the reply to a fault (R292), by its token -/
  | reply (token : Nat)
  /-- a migrating page: the physical address of the entry that showed 11 (R284) -/
  | migrate (entry : Nat)
  /-- a read over a port that carries nothing (R341, R344): its name, the physical address, how often it timed out -/
  | link (id paddr tries : Nat)
  /-- the acquire that ends an atomic whose value has not returned, at a scope (R167) -/
  | acquire (scope : Nat)
  deriving DecidableEq, Repr

/-- A wait: what for, the issue slot of the instruction that waits (R33), and where an event has ended it while the sheaf is not
WAITING (R33, R248, R275): 0 where its condition was met, else the cause of the trap it ends in. -/
structure Wait where
  kind : WaitKind
  slot : Slot
  done : Option Nat := none
  deriving DecidableEq, Repr

/-- A waiting fused arrival (R182): the word's bits [20:0], the descriptor's value, the acting lanes. -/
structure Arrival where
  body   : Nat
  desc   : Option (BitVec 64)
  acting : Mask
  deriving DecidableEq, Repr

/-- The lease of a sheaf (R242, R243): measured mode, LEASE, victim grants VG, the sketch's estimate D, memory instructions
of the window, counted instructions since admission (kept up to 1,024), whether its admission protects it from
withdrawal, the lease that the last admission pass settled, and the distinct 128-byte lines that the window's first 1,024 memory
instructions touched and that those after them did. -/
structure Lease where
  measured  : Bool
  lease     : Nat
  vg        : Nat
  d         : Nat
  memInstrs : Nat
  counted   : Nat
  kept      : Bool
  seen      : Nat
  lines     : List Nat
  after     : List Nat
  deriving DecidableEq, Repr

/-- A sheaf (R2, R18 to R35, R36 to R49). Unlisted registers read as zero with mark OPEN (R54). began is the first name that was unused
when the prefix group that stopped between two repeats began: its windows begin after its last repeat (R95, R99). moved counts the registers that
a WSPILL or WFILL has moved when it waits for a fault (R148); bWrites and aWrites hold, under MSTRICT, the physical varying
registers written and the bytes of its own allotment stored by STL since the last MFENCE (R195 row 1). -/
structure Sheaf where
  tid      : Nat
  core     : Nat
  slotNo   : Nat
  idx      : Nat
  role     : Role
  state    : SheafState
  resumeAs : SheafState
  pcv      : List Addr
  exited   : Mask
  faulted  : Mask
  fairq    : Word
  quantum  : Nat
  round    : Round
  hints    : Hints
  second   : Option Second
  vregs    : Map VReg
  vstack   : Nat
  wbase    : Nat
  wrbase   : Nat
  aregs    : Map AReg
  uregs    : Map UReg
  preds    : Map UReg
  descs    : Map DReg
  loop0    : LoopSlot
  loop1    : LoopSlot
  status   : Word
  mode     : Word
  lstk     : Addr
  reprem   : Nat
  began    : Option Nat
  moved    : Nat
  handler  : Option Saved
  pend     : List Pending
  buf      : List BufEntry
  cntSlice : Nat
  cntPart  : Nat
  cntSys   : Nat
  wait     : Option Wait
  arr      : List Nat
  ret      : List Nat
  fused    : Nat
  arrival  : Option Arrival
  closed   : List Nat
  tiles    : Map Tile
  mops     : List MatOp
  bWrites  : List Nat
  aWrites  : List Nat
  lease    : Lease
  starve   : Nat
  age      : Nat
  deriving DecidableEq, Repr

/-! ## Tufts, kernels -/

/-- A completion tag of a tuft's window (R206). -/
structure Tag where
  count : Nat
  done  : Bool
  fail  : Bool
  code  : Nat
  deriving DecidableEq, Repr

/-- A tag at placement (R206). -/
def Tag.zero : Tag := { count := 0, done := false, fail := false, code := 0 }

/-- A stage ring of a tuft (R209, R210): its word's CONS, PROD and SLOTS, the tokens with their marks, oldest first, and
whether it is POISONED. -/
structure Ring where
  cons     : BitVec 4
  prod     : BitVec 4
  slots    : Nat
  tokens   : List (Word × Mark)
  poisoned : Bool
  deriving DecidableEq, Repr

/-- A group-table entry (R269). -/
structure GroupEntry where
  number   : Nat
  members  : Mask
  quartet  : Bool
  poison   : Bool
  phase    : Nat
  arrived  : Nat
  deriving DecidableEq, Repr

/-- A run of consecutive pages of one declared range (R287, R288): first page number, pages, first frame, page attributes
and the range's own bits. -/
structure Extent where
  page  : Nat
  pages : Nat
  frame : Nat
  kh    : Nat
  grain : Nat
  fresh : Bool
  w     : Bool
  x     : Bool
  remote : Bool
  rangeR : Bool
  rangeW : Bool
  deriving DecidableEq, Repr

/-- The state of a tuft (R236). -/
inductive TuftState where
  | pending | resident | suspended | complete | aborted | discarded
  deriving DecidableEq, Repr

/-- A tuft (R27, R236, R237): kernel, linear grid index, frame, core, sheaves by index, its local-store allotment (first
byte in the core, size in bytes; contents, marks and swizzle tags by 128-byte line; unlisted zero), tags, rings, groups,
its copy of the extents; whether its core state stands in the back plane (R309); the number of
the free bytes its save area was given at suspension (R237); whether its suspension is ordered or was forced (R247, R248); whether a RESUME
reply to its abort has arrived (R238); the first of its tags among the core's 64 (R206); whether the launch unit is to suspend it, its
kernel's share of waiting sheaves having been above WAITSHARE when its last sheaf began to wait (R247); how many ns it has been resident
(R240). -/
structure Tuft where
  kid      : Nat
  index    : Nat
  frame    : Nat
  core     : Nat
  state    : TuftState
  sheaves  : List Nat
  lbase    : Nat
  lsize    : Nat
  lbytes   : Map Byte
  lmarks   : Map Mark
  ltags    : Map (BitVec 3)
  tags     : List Tag
  rings    : List Ring
  groups   : List GroupEntry
  extents  : List Extent
  parked   : Bool
  image    : Option Nat
  forced   : Bool
  resumed  : Bool
  tbase    : Nat
  leaving  : Bool
  ran      : Nat
  deriving DecidableEq, Repr

/-- A kernel descriptor as the launch unit reads it (R230, R231): reservedOk holds when every reserved field is zero. -/
structure Desc where
  code      : Addr
  trapent   : Addr
  rolemap   : BitVec 64
  lstkbase  : Addr
  savebase  : Addr
  lstksheaf : Nat
  saveb     : Nat
  nstk      : Nat
  runmax    : Nat
  geom      : Word
  modew     : Word
  rangetab  : Addr
  nrange    : Nat
  ngroup    : Nat
  grouptab  : Addr
  codelen   : Nat
  pwsize    : List Nat
  ringtab   : List Word
  reservedOk : Bool
  deriving DecidableEq, Repr

/-- A descriptor of zeros. -/
def Desc.zero : Desc :=
  { code := 0, trapent := 0, rolemap := 0, lstkbase := 0, savebase := 0, lstksheaf := 0, saveb := 0, nstk := 0,
    runmax := 0, geom := 0, modew := 0, rangetab := 0, nrange := 0, ngroup := 0, grouptab := 0, codelen := 0,
    pwsize := [], ringtab := [], reservedOk := true }

/-- A declared range (R232): base, length, R, W. -/
structure Range where
  base   : Addr
  length : Nat
  r      : Bool
  w      : Bool
  deriving DecidableEq, Repr

/-- The state of a kernel (R234); its code is its place in this order (R235). -/
inductive KernelState where
  | queued | dispatching | running | draining | suspended | complete | faulted
  deriving DecidableEq, Repr

/-- A read or write of a launch unit, or of a walk for it, that no port carries (R341, R344): its name, the physical address, how often it
timed out; for a residency pass the page it stands at. -/
structure FarRead where
  id    : Nat
  paddr : Nat
  tries : Nat
  page  : Option Nat
  deriving DecidableEq, Repr

/-- A kernel (R230 to R240): the queue that serves it (slice and entry) and its record, or its child entry; the launch
unit's slice; partition, context, priority, grid, signal, windows; descriptor and tables; state, ERR, NEXT; the slice list
and reserved counts taken at DISPATCHING; how far its reads and checks have come (5: all passed; 16 or 17: its packet is refused
with that error); extents; image digest and
bound bit; whether pre-emption was requested; whether a tuft was discarded; whether its signal is written; whether its record
is to be written; the prefault that waits, pages resolved by a reply; cores on which it has started; the reply that its
dispatch waits for; whether a RESUME came while it still drained (R313). -/
structure Kernel where
  slice    : Nat
  entry    : Nat
  record   : Nat
  child    : Option Nat
  part     : Nat
  ctx      : Nat
  prio     : Nat
  nx       : Nat
  ny       : Nat
  nz       : Nat
  descAt   : Addr
  bindtab  : Addr
  sigaddr  : Addr
  sigval   : BitVec 64
  signalOk : Bool
  recordOk : Bool
  desc     : Desc
  ranges   : List Range
  gmap     : List (Nat × Mask)
  windows  : List (Addr × Nat)
  state    : KernelState
  err      : Nat
  next     : Nat
  list     : List (Nat × Nat)
  stage    : Nat
  extents  : List Extent
  img      : List Byte
  bound    : Bool
  preempt  : Bool
  lostTuft : Bool
  signalled : Bool
  recordDue : Bool
  prefault : Option Nat
  resolved : List Nat
  cores    : List Nat
  access   : Option Nat
  again    : Bool := false
  far      : Option FarRead := none
  deriving DecidableEq, Repr

/-! ## Cores -/

/-- A sector of 32 bytes in an L1 (R157, R289): its bytes, the key it was read or written under, the sheaf slot that last
allocated its line, whether its line stands first for replacement, and the GRAIN it was allocated under. It is dirty where some
sheaf of the core holds unsent bytes of it. -/
structure Sector where
  bytes : List Byte
  key   : Nat
  owner : Nat
  first : Bool
  grain : Nat
  deriving DecidableEq, Repr

/-- A TLB entry (R285): context, first 64 KB page, whether it maps 128 MB, the leaf. -/
structure TlbEntry where
  ctx  : Nat
  page : Nat
  big  : Bool
  leaf : BitVec 64
  deriving DecidableEq, Repr

/-- A handle slot in use: the buffer and the tuft it is held for (R213). -/
structure Handle where
  buffer : Buffer
  holder : Nat
  deriving DecidableEq, Repr

/-- An arrival in a core's queue (R214). -/
structure Parcel where
  buffer  : Buffer
  part    : Nat
  ctx     : Nat
  channel : Nat
  deriving DecidableEq, Repr

/-- The kinds of CPY (R197). -/
inductive CopyKind where
  | lin | linw | t2d | t2dw | xpnd | gath | scat | l2l | fill
  deriving DecidableEq, Repr

/-- A global page that a copy command has begun to write (R204): its number, the physical address of its first byte, the key slot and
the sharing grain of its translation. -/
structure UsedPage where
  page  : Nat
  base  : Nat
  kh    : Nat
  grain : Nat
  deriving DecidableEq, Repr

/-- A copy command (R197 to R205): its tuft, sheaf and tag, descriptor words, XPND's LSTRIDE from the prefix, mark of the
descriptor registers, the messages its release waits for, whether it has started, the fault reply it waits for, the code of
a failure it has met, the 64 KB pages that it leaves alone since, how often a request of it over a port timed out (R344), whether some
of its bytes have moved before its completion, and which (R202): local bytes by tuft and place with what was written, global ones by
address; the bytes of its index list read by then, the global pages it has begun to write, the bytes read for them; the sectors it has
written in other packages, and its outcome once only their acknowledgements are out (R201). -/
structure CopyCmd where
  id      : Nat
  tid     : Nat
  sid     : Nat
  tag     : Nat
  kind    : CopyKind
  words   : List Word
  lstride : Option Nat
  mark    : Mark
  after   : List Nat
  started : Bool
  token   : Option Nat
  failed  : Option Nat
  skipped : List Nat
  tries   : Nat := 0
  early   : Bool := false
  movedLocal : List ((Nat × Nat) × Byte) := []
  movedGlobal : List Nat := []
  index : Map Byte := []
  used : List UsedPage := []
  source : List (List Byte) := []
  wrote : List Nat := []
  outcome : Option (Option Nat) := none
  deriving DecidableEq, Repr

/-- The issue state of a quadrant (R246): the sheaf that issued in the previous slot, how many slots it has issued running
while another was ready, and whether it issued YIELD. -/
structure Quad where
  last  : Option Nat
  run   : Nat
  yield : Bool
  deriving DecidableEq, Repr

/-- The handle slots and the arrival queue of one plane of a core (R215, R309). -/
structure PlaneState where
  handles  : Map Handle
  parcels  : List Parcel
  deriving DecidableEq, Repr

/-- A plane that has been scrubbed (R309). -/
def PlaneState.scrubbed : PlaneState := { handles := [], parcels := [] }

/-- A core (R2, R12): LSCHED (R241), L1 sectors by sector number (R157), TLB (R285), copy commands in queue order (R201),
victim tags oldest first (R244), quadrants (R246), the front and back plane's handle state (R309). -/
structure Core where
  lsched  : Word
  l1      : Map Sector
  tlb     : List TlbEntry
  copies  : List CopyCmd
  victims : List (Nat × Nat)
  quads   : List Quad
  front   : PlaneState
  back    : PlaneState
  deriving DecidableEq, Repr

/-- A core at reset: LSCHED 0x08200040 (R241), nothing held. -/
def Core.reset : Core :=
  { lsched := 0x08200040, l1 := [], tlb := [], copies := [], victims := [],
    quads := List.replicate 4 { last := none, run := 0, yield := false }, front := PlaneState.scrubbed, back := PlaneState.scrubbed }

/-! ## Messages -/

/-- The home class of a line, seen from the issuer's slice (R170). -/
inductive HomeClass where
  | slice | part | sys
  deriving DecidableEq, Repr

/-- What a message does at its home: write bytes, or one lane's operation of an atomic (operation code of R165, data, the
new value of CAS, width in bytes), its result delivered to a pending result, or to a uniform register (R169). -/
inductive MsgKind where
  | write
  | atomic (op width : Nat) (data data2 : Nat) (pid lane : Nat)
  deriving DecidableEq, Repr

/-- A send on its way (R158, R166, R170): issuer's sheaf, kernel and core, partition and context, physical address of its first
byte, the bytes by their distance from it (of an atomic, once it has performed, its new value), key and key handle, home class,
what it does, whether it has performed, the value an atomic read, how often it timed out (R344; 3 where a fence has dropped it,
R354), the distances whose bytes enter an L1 copy that exists when it performs or is answered (R166, R220), and of an engine's write its
command (R201, R343). -/
structure Msg where
  id    : Nat
  sid   : Nat
  kid   : Option Nat
  core  : Nat
  part  : Nat
  ctx   : Nat
  paddr : Nat
  bytes : Map Byte
  key   : Nat
  kh    : Nat
  cls   : HomeClass
  kind  : MsgKind
  performed : Bool
  result : Nat
  tries : Nat
  due : List Nat
  engine : Option Nat := none
  deriving DecidableEq, Repr

/-- A line of a slice cache (R289): which of its four sectors are valid, and which are dirty, a bit each. Its bytes are memory's, since a
home has one value of a byte; its owner's tag is the frame's word as it stands (R291; log entry 77). -/
structure CacheLine where
  valid : Nat
  dirty : Nat
  deriving DecidableEq, Repr

/-! ## Slices, packages, partitions -/

/-- A fault record (R333), field by field. -/
structure FaultRec where
  code   : Word
  source : Word
  ctx    : Nat
  part   : Nat
  token  : Nat
  va     : Addr
  pc     : Addr
  lanes  : Mask
  word   : Word
  kernel : BitVec 64
  tuft   : Nat
  detail : BitVec 64
  deriving DecidableEq, Repr

/-- The fault queue of a slice (R332): registration fields, and the records that wait in the slice. -/
structure FaultQueue where
  base  : Nat
  log2n : Nat
  lost  : Nat
  wridx : Nat
  rdidx : Nat
  held  : List FaultRec
  deriving DecidableEq, Repr

/-- A packet of a queue as fetched (R258, R260): its index and its 64 bytes. -/
structure Packet where
  index : Nat
  bytes : List Byte
  deriving DecidableEq, Repr

/-- What a queue's launch-unit access that met a fault was about to do (R405). -/
inductive LaunchAccess where
  | register | readIdx | fetch | signals | record (kid : Nat) | signal (kid : Nat) | header | target
  deriving DecidableEq, Repr

/-- An entry of a launch unit's queue table (R255 to R257, R265), with the device's header line and its head packet; watch is where the
watch on header line 0 stands at its home, with the key of its page (R258). -/
structure QueueEntry where
  hdr     : Addr
  ring    : Addr
  recbase : Addr
  nrec    : Nat
  context : Word
  log2n   : Nat
  prio    : Nat
  resv    : Nat
  cmd     : Word
  result  : Nat
  state   : Nat
  rdidx   : Nat
  qerr    : Nat
  fidx    : Nat
  wridx   : Nat
  head    : Option Packet
  started : Bool
  access  : Option (Nat × LaunchAccess)
  headerDue : Bool
  part    : Nat
  watch   : Option (Nat × Nat) := none
  far     : Option FarRead := none
  deriving DecidableEq, Repr

/-- A queue entry that reads as zero. -/
def QueueEntry.zero : QueueEntry :=
  { hdr := 0, ring := 0, recbase := 0, nrec := 0, context := 0, log2n := 0, prio := 0, resv := 0, cmd := 0, result := 0,
    state := 0, rdidx := 0, qerr := 0, fidx := 0, wridx := 0, head := none, started := false, access := none,
    headerDue := false, part := 0 }

/-- A pointer entry in a slice's walk caches (R283, R285): its context and level, the first 64 KB page and the pages it leads to, and
the entry as it was read. -/
structure NodeEntry where
  ctx   : Nat
  level : Nat
  page  : Nat
  pages : Nat
  value : Nat
  deriving DecidableEq, Repr

/-- A slice's walker control block (R295), except SDSEQ and SDDONE, which are the partition's. -/
structure WalkerBlock where
  cmd    : List Byte
  go     : Word
  result : Nat
  seq    : Nat
  deriving DecidableEq, Repr

/-- The state of a port (R340, R341). -/
inductive PortState where
  | down | training | keying | up | degraded | fenced | failed
  deriving DecidableEq, Repr

/-- A fabric port (R340 to R347): LSTAT's fields, LCTL, training attempts that failed, next packet number of the epoch,
accepted packet numbers per source, the domain secret installed at KEYING, and the packets it has sent under that secret, oldest first,
each with the identifier of its destination (R342, R344). -/
structure Port where
  state  : PortState
  txUp   : Nat
  rxUp   : Nat
  epoch  : Nat
  lctl   : Word
  fails  : Nat
  number : Nat
  seen   : List (Nat × Nat)
  secret : List Byte
  sent   : List (Nat × LinkPacket)
  deriving DecidableEq, Repr

/-- A port at reset (R340, R341). -/
def Port.reset : Port :=
  { state := .down, txUp := 0, rxUp := 0, epoch := 0, lctl := 0x00240032, fails := 0, number := 1, seen := [], secret := [], sent := [] }

/-- An island's power block (R395). -/
structure Island where
  ctl     : Word
  fclk    : Nat
  capmiss : Bool
  therm   : Bool
  power   : Nat
  deriving DecidableEq, Repr

/-- An island at reset: BALANCED (R394, R395); FCLK and POWER have no reset value in the spec (log entry 5). -/
def Island.reset : Island := { ctl := 1, fclk := 0, capmiss := false, therm := false, power := 0 }

/-- A trace record (R399). -/
structure TraceRec where
  time    : Nat
  cls     : Nat
  sealed  : Bool
  core    : Nat
  slot    : Nat
  ctx     : Nat
  payload : Nat
  deriving DecidableEq, Repr

/-- The Teasel unit of a slice (R397, R398) with the records it holds and the records sent to the management port. -/
structure Teasel where
  ctl   : Word
  base  : Nat
  log2  : Nat
  tctx  : Word
  wr    : Nat
  rd    : Nat
  drops : Nat
  dropb : Nat
  held  : List TraceRec
  slots : Map Nat
  deriving DecidableEq, Repr

/-- Teasel at reset: off (R394, R398). -/
def Teasel.reset : Teasel :=
  { ctl := 0, base := 0, log2 := 0, tctx := 0, wr := 0, rd := 0, drops := 0, dropb := 0, held := [], slots := [] }

/-- A collective command (R348 to R351): its sheaf, tuft, tag, kind (0 CRS, 1 CAG, 2 CAR), x field, descriptor words, mark of
the descriptor registers, group entry as read at issue (ranks as slices), sequence position, messages its release waits for, joined, the
code of a failure it has met (PEER, 10, for a discarded command, which keeps its place), and as for a copy command the fault reply
it waits for, the pages it leaves alone, the timeouts, the sectors written in other packages, the outcome. -/
structure CollCmd where
  id     : Nat
  sid    : Nat
  tid    : Nat
  tag    : Nat
  kind   : Nat
  x      : Nat
  words  : List Word
  mark   : Mark
  ranks  : List Nat
  group  : Nat
  seq    : Nat
  after  : List Nat
  joined : Bool
  failed : Option Nat
  token  : Option Nat
  skipped : List Nat
  tries  : Nat
  wrote  : List Nat := []
  outcome : Option (Option Nat) := none
  deriving DecidableEq, Repr

/-- A slice (R2, R299 to R304): owner, borrower and recall deadline, whether a recall is in progress, registers, launch
unit, walker, fault queue, port, power islands, Teasel, collective engine, counters, loss, key command block and its RESULT, whether its
service cores are offline, launch unit's round-robin position (R238), the queue entry whose packet it took last (R264), the walk
caches (R283). -/
structure Slice where
  owner    : Option Nat
  borrower : Option Nat
  deadline : Nat
  recalled : Bool
  urgent   : Nat
  refusedCount  : Nat
  refusedOffset : Nat
  queues   : Map QueueEntry
  walker   : WalkerBlock
  faultq   : FaultQueue
  port     : Port
  islands  : List Island
  teasel   : Teasel
  colls    : List CollCmd
  collSeq  : Map Nat
  drops    : Nat
  errors   : Nat
  lost     : Bool
  keyBlock : List Byte
  keyResult : Nat
  offline  : Bool
  position : Nat
  lastTaken : Nat
  nodes    : List NodeEntry
  draining : Bool
  interrupts : List Nat
  serviceRing : List (List Nat)
  deriving DecidableEq, Repr

/-- A slice at reset. -/
def Slice.reset : Slice :=
  { owner := none, borrower := none, deadline := 0, recalled := false, urgent := 0, refusedCount := 0, refusedOffset := 0,
    queues := [], walker := { cmd := List.replicate 32 0, go := 0, result := 0, seq := 0 },
    faultq := { base := 0, log2n := 0, lost := 0, wridx := 0, rdidx := 0, held := [] }, port := Port.reset,
    islands := [Island.reset, Island.reset], teasel := Teasel.reset, colls := [], collSeq := [], drops := 0, errors := 0,
    lost := false, keyBlock := List.replicate 256 0, keyResult := 0, offline := true, position := 0, lastTaken := 255, nodes := [], draining := false, interrupts := [], serviceRing := [] }

/-- A reply of the management port (R362, R402): a code that names it, and its bytes. -/
structure MgmtReply where
  name  : Nat
  bytes : List Byte
  deriving DecidableEq, Repr

/-- The SPDM messages heard and sent so far that a signature covers (R362): the version, capability and algorithm messages, the
certificate messages since, the measurement messages since. -/
structure Transcript where
  vca   : List Byte
  certs : List Byte
  meas  : List Byte
  deriving DecidableEq, Repr

/-- A package (R355 to R365, R394): MS0 to MS7, ASEQ, the committed snapshot while ACTIVATING, staged components (slot and
digest), those of the activation in progress, bring-up step reached, the fuse lock, CLK (R47), replies of the management port. -/
structure Package where
  ms       : List (List Byte)
  heard    : Transcript
  aseq     : Nat
  snapshot : Option (List (List Byte))
  staged   : List (Nat × List Byte)
  active   : List (Nat × List Byte)
  step     : Nat
  locked   : Bool
  clk      : Nat
  replies  : List MgmtReply
  deriving DecidableEq, Repr

/-- A measurement slot at the start of its life: 64 zero bytes (R357). -/
def zeroSlot : List Byte := List.replicate 64 0

/-- A package right after its reset, before bring-up step 2 (R357, R364, R394). -/
def Package.reset : Package :=
  { ms := List.replicate 8 zeroSlot, heard := { vca := [], certs := [], meas := [] }, aseq := 0, snapshot := none, staged := [], active := [], step := 1, locked := false, clk := 0, replies := [] }

/-- The state of a context (R313); its code is its place in this order. -/
inductive CtxState where
  | none | created | active | suspended | faulted | destroyed
  deriving DecidableEq, Repr

/-- A child-table entry in use (R250): its kernel, the launching tuft and that tuft's kernel, whether a KWAIT has returned for it,
whether the launching tuft has ended. -/
structure Child where
  kid      : Nat
  launcher : Nat
  parent   : Nat
  waited   : Bool
  ended    : Bool
  deriving DecidableEq, Repr

/-- A context record with its hold counters and child table (R250, R263, R312, R313), and whether a DESTROY of it is in progress (R314). -/
structure Ctx where
  root     : BitVec 64
  childtab : BitVec 64
  qchild   : Nat
  qkern    : Nat
  qtuft    : Nat
  cmd      : Word
  state    : CtxState
  result   : Nat
  holds    : Map Nat
  children : Map Child
  ending   : Bool := false
  deriving DecidableEq, Repr

/-- A context record that reads as zero (R312). -/
def Ctx.zero : Ctx :=
  { root := 0, childtab := 0, qchild := 0, qkern := 0, qtuft := 0, cmd := 0, state := .none, result := 0, holds := [], children := [] }

/-- A key slot (R315): its key is the number 1 + the two keys as one little-endian number, 0 while the slot holds none. -/
structure KeySlot where
  owner  : Nat
  valid  : Bool
  decl   : Bool
  mark   : Mark
  digest : List Byte
  key    : Nat
  deriving DecidableEq, Repr

/-- A key slot that holds nothing (R315). -/
def KeySlot.zero : KeySlot := { owner := 0, valid := false, decl := false, mark := 0, digest := zeroSlot, key := 0 }

/-- What waits for the reply to a fault record (R335, R405). -/
inductive TokenUse where
  | sheaf (sid : Nat)
  | copy (core cmd page : Nat)
  | prefault (kid page : Nat)
  | launch (slice entry : Nat)
  | dispatch (kid : Nat)
  | abort (tid : Nat)
  | info
  deriving DecidableEq, Repr

/-- A record that can still be answered (R335): what waits, whether a reply is pending, its tuft and kernel, its lanes, its
code of R334. -/
structure Token where
  use     : TokenUse
  pending : Bool
  tid     : Option Nat
  kid     : Option Nat
  lanes   : Mask
  code    : Nat
  deriving DecidableEq, Repr

/-- A shoot-down accepted and not complete (R294, R296): number, context (none for all), first page, pages (none for the
whole space). -/
structure Shootdown where
  number : Nat
  ctx    : Option Nat
  page   : Nat
  pages  : Option Nat
  deriving DecidableEq, Repr

/-- The state of a partition (R306). -/
inductive PartState where
  | forming | booting | running | resizing | lending | recalling | halted | dissolved
  deriving DecidableEq, Repr

/-- A change of layout that Campion is carrying out (R305 to R307, R311). -/
inductive PartRequest where
  | form
  | add (slice : Nat)
  | remove (slice : Nat)
  | lend (slice borrower deadline : Nat)
  | recall (slice : Nat)
  | dissolve
  deriving DecidableEq, Repr

/-- A partition (R299 to R311, R357, R359): slices in list order, window bases by package, routes, the slices whose ports it owns (R300),
whether its kernel has been fetched (R394), LSEQ, MS8 to MS15, SDSEQ,
SDDONE, shoot-downs, contexts, key slots, records that can be answered, the next token, the change of layout in
progress, collective table entries by package * 64 + group, EVIDENCE and CERTS results of the mailbox (code), the domain secret of its
links (R345), the ERASE in progress: slot and slice (R317). -/
structure Partition where
  state    : PartState
  slices   : List Nat
  memBase  : Map Nat
  routes   : List Nat
  ports    : List Nat := []
  fetched  : Bool := false
  lseq     : Nat
  ms       : List (List Byte)
  sdseq    : Nat
  sddone   : Nat
  shoots   : List Shootdown
  ctxs     : Map Ctx
  keys     : Map KeySlot
  tokens   : Map Token
  nextToken : Nat
  request  : Option PartRequest := none
  colls    : Map (List Word)
  mailbox  : List Nat
  secret   : List Byte := []
  erasing  : Option (Nat × Nat) := none
  deriving DecidableEq, Repr

/-- The granules of a lost slice (R338): the window of its partition in a package (base, length of the slice list, place of the
slice in it), whether REMOVE has rehomed them, and the sectors written whole since. -/
structure LostSet where
  package : Nat
  base    : Nat
  count   : Nat
  place   : Nat
  rehomed : Bool
  healed  : List Nat
  deriving DecidableEq, Repr

/-! ## The machine -/

/-- A happening that the machine brings about by itself. -/
inductive Due where
  | issue (core quad : Nat)
  | send (sid : Nat)
  | perform (mid : Nat)
  | answer (mid : Nat)
  | load (sid pid : Nat)
  | result (sid pid : Nat)
  | matrix (sid : Nat)
  | copyStart (core : Nat)
  | copyEnd (core id : Nat)
  | copyEarly (core id : Nat)
  | join (part group : Nat)
  | collect (part group : Nat)
  | admission (core : Nat)
  | age (sid : Nat)
  | window (sid : Nat)
  | time (tid : Nat)
  | dispatch (kid : Nat)
  | run (kid : Nat)
  | record (kid : Nat)
  | place (kid : Nat)
  | signal (kid : Nat)
  | completeTuft (tid : Nat)
  | suspend (tid : Nat)
  | force (tid : Nat)
  | reload (tid : Nat)
  | abort (tid : Nat)
  | register (slice entry : Nat)
  | destroy (slice entry : Nat)
  | header (slice entry : Nat)
  | wake (slice entry : Nat)
  | fetch (slice entry : Nat)
  | packet (slice entry : Nat)
  | walks (slice : Nat)
  | shoot (slice : Nat)
  | shot (part : Nat)
  | erase (part : Nat)
  | destroyCtx (part ctx : Nat)
  | ctxCmd (part ctx : Nat)
  | keyCmd (slice : Nat)
  | drain (slice : Nat)
  | rekey (slice : Nat)
  | recall (slice : Nat)
  | layout (part : Nat)
  deriving DecidableEq, Repr

/-- Why the machine stops with a fault. -/
inductive Fault where
  /-- raised by SERVICE_CORE_ACCESS for a physical address that the package map says holds nothing (R302): offsets from 1 TB
  to 0x2FFFFFFFFFF of a package, and from 0x30800000000, past the control space of slice 7, on. The spec gives such an access no effect. Safe. -/
  | noSuchAddress (paddr : Nat)
  deriving DecidableEq, Repr

/-- Why an instruction has no meaning here. -/
inductive Refusal where
  /-- raised by an arm of exec whose instruction has not been given its meaning yet. Safe. -/
  | notModelled (mnemonic : String)
  deriving DecidableEq, Repr

/-- The state of the machine. -/
structure State where
  /-- sheaves by name (R33); a sheaf that is FREE is not listed -/
  sheaves  : Map Sheaf
  /-- tufts by name (R236) -/
  tufts    : Map Tuft
  /-- kernels by name (R234) -/
  kernels  : Map Kernel
  /-- cores by number (slice * 192 + core); unlisted cores are as Core.reset -/
  cores    : Map Core
  /-- slices by number (package * 8 + slice); unlisted slices are as Slice.reset -/
  slices   : Map Slice
  /-- packages by number; unlisted packages are as Package.reset -/
  packages : Map Package
  /-- partitions by number (R299) -/
  parts    : Map Partition
  /-- CPU trays by source identifier: partition and context (R347) -/
  trays    : Map (Nat × Nat)
  /-- physical memory: plaintext as written, unlisted bytes zero (R394 step 4) -/
  mem      : List Host.Cell
  /-- the key a sector was last written under, by sector number; unlisted 0: clear (R368) -/
  keyOf    : Map Nat
  /-- poisoned sectors (R338) -/
  poison   : List Nat
  /-- the granules of lost slices, poisoned as well (R338) -/
  lostSets : List LostSet
  /-- frame ownership words by frame number (physical address / 65536); unlisted 0 (R290) -/
  frames   : Map Word
  /-- the lines of the slice caches by line number (physical address / 128), each in the cache of its home slice (R289) -/
  cache    : Map CacheLine
  /-- sends on their way, oldest first (R158, R170) -/
  msgs     : List Msg
  /-- the issue slot: the instruction being issued (R20) -/
  slot     : Slot
  /-- what the last read of a service core returned (R303, R318) -/
  readData : List Byte
  /-- the model's own: the happenings that come next, oldest first -/
  agenda   : List Instr
  /-- the model's own: the quadrant (core * 4 + quadrant) that issues in the next step, where that is settled -/
  pinned   : Option Nat
  /-- the model's own: the happenings that are due and have not come about, the longest due first -/
  line     : List Due
  /-- the model's own: how many happenings have been taken out of turn since the head of the line came about -/
  streak   : Nat
  /-- the model's own: the counter of free values -/
  freeCount : Nat
  /-- the model's own: the next unused name of a sheaf, tuft, kernel, message, command or result -/
  nextId   : Nat
  deriving DecidableEq, Repr

/-- The machine right after reset: a package reset (R394), every register and block at its reset value, no partition, no
tuft, memory zero with nothing listed, no happening due. -/
def State.reset : State :=
  { sheaves := [], tufts := [], kernels := [], cores := [], slices := [], packages := [], parts := [], trays := [],
    mem := [], keyOf := [], poison := [], lostSets := [], frames := [], cache := [], msgs := [], slot := Slot.none, readData := [], agenda := [],
    pinned := none, line := [], streak := 0, freeCount := 0, nextId := 0 }

end Sys2Proof.Machine
end

