-- ==== Sys2Proof/Machine/Flags.lean ====
section
/-!
DEFINITION. STATUS and its flags (R48, R66): flag sets are words with the bits of STATUS.
-/
namespace Sys2Proof.Machine

/-- Inexact, STATUS bit 0 (R48). -/
def flagNX : Word := 1
/-- Underflow, STATUS bit 1. -/
def flagUF : Word := 2
/-- Overflow, STATUS bit 2. -/
def flagOF : Word := 4
/-- Division by zero, STATUS bit 3. -/
def flagDZ : Word := 8
/-- Invalid operation, STATUS bit 4. -/
def flagIV : Word := 16
/-- An LDP read beyond its window's bound, STATUS bit 5. -/
def flagPWOOB : Word := 32
/-- An affine result wrapped, STATUS bit 6. -/
def flagAWRAP : Word := 64

/-- A flag set when a condition holds. -/
def flagIf (c : Bool) (f : Word) : Word := if c then f else 0

/-- Flags are ORed into STATUS, whatever the issuing set (R48). -/
def Sheaf.raise (sh : Sheaf) (f : Word) : Sheaf := { sh with status := sh.status ||| f }

/-- The union of the flags of several lanes (R108). -/
def orFlags (fs : List Word) : Word := fs.foldl (· ||| ·) 0

/-- A value for STATUS that SWR accepts: bits [31:7] are zero (R48). -/
def statusLegal (v : Word) : Bool := v.toNat < 128

/-- A value for FAIRQ that SWR accepts: bits [31:13] zero and Q in 16 to 4,096 (R22). -/
def fairqLegal (v : Word) : Bool := 16 ≤ v.toNat && v.toNat ≤ 4096

/-- MODE.REPLAY (R49). -/
def modeReplay (m : Word) : Bool := m.getLsbD 0
/-- MODE.AFAULT (R49). -/
def modeAfault (m : Word) : Bool := m.getLsbD 1
/-- MODE.MSTRICT (R49). -/
def modeMstrict (m : Word) : Bool := m.getLsbD 2
/-- MODE.RESTART (R49). -/
def modeRestart (m : Word) : Bool := m.getLsbD 3

end Sys2Proof.Machine
end

