-- ==== Sys2Proof/Machine/Float.lean ====
section
/-!
DEFINITION. The floating-point formats and their arithmetic (R61 to R73): values are exact numbers plus or minus m * 2^e,
each operation forms its exact result and rounds it once.
-/
namespace Sys2Proof.Machine

/-- A floating-point layout (R61): exponent bits, fraction bits, bias, whether the top exponent holds infinities and NaNs
as IEEE does (E4M3 does not: only its all-ones magnitude is NaN). -/
structure Fmt where
  ebits : Nat
  fbits : Nat
  bias  : Nat
  ieee  : Bool

/-- FP32 (R61). -/
def fp32 : Fmt := { ebits := 8, fbits := 23, bias := 127, ieee := true }
/-- BF16 (R61). -/
def bf16 : Fmt := { ebits := 8, fbits := 7, bias := 127, ieee := true }
/-- E4M3 (R61). -/
def e4m3 : Fmt := { ebits := 4, fbits := 3, bias := 7, ieee := false }
/-- E5M2 (R61). -/
def e5m2 : Fmt := { ebits := 5, fbits := 2, bias := 15, ieee := true }

/-- The largest finite magnitude as bits (R61). -/
def Fmt.maxFinite (f : Fmt) : Nat :=
  if f.ieee then (2 ^ f.ebits - 1) * 2 ^ f.fbits - 1 else 2 ^ (f.ebits + f.fbits) - 2

/-- The bits of +infinity of an IEEE layout (R61). -/
def Fmt.infBits (f : Fmt) : Nat := (2 ^ f.ebits - 1) * 2 ^ f.fbits

/-- The sign bit's weight. -/
def Fmt.signBit (f : Fmt) : Nat := 2 ^ (f.ebits + f.fbits)

/-- The NaN the device produces, sign 0 (R61). -/
def Fmt.nanBits (f : Fmt) : Nat :=
  if f.ieee then (if f.ebits = 5 then 0x7E else f.infBits + 2 ^ (f.fbits - 1)) else 2 ^ (f.ebits + f.fbits) - 1

/-- A floating-point datum: NaN, an infinity, or the number (neg ? -1 : 1) * m * 2^e. -/
inductive Num where
  | nan
  | inf (neg : Bool)
  | fin (neg : Bool) (m : Nat) (e : Int)
  deriving DecidableEq, Repr

/-- The datum that bits hold in a layout (R61). -/
def Fmt.decode (f : Fmt) (bits : Nat) : Num :=
  let neg := bits / f.signBit % 2 == 1
  let mag := bits % f.signBit
  let ex := mag / 2 ^ f.fbits
  let fr := mag % 2 ^ f.fbits
  if f.ieee && ex == 2 ^ f.ebits - 1 then (if fr == 0 then .inf neg else .nan)
  else if !f.ieee && mag == f.signBit - 1 then .nan
  else if ex == 0 then .fin neg fr (1 - (f.bias : Int) - f.fbits)
  else .fin neg (2 ^ f.fbits + fr) ((ex : Int) - f.bias - f.fbits)

/-- A sign put on a magnitude's bits. -/
def Fmt.signed (f : Fmt) (neg : Bool) (mag : Nat) : Nat := if neg then f.signBit + mag else mag

/-- The rounding modes (R67). -/
inductive Rm where
  | rn | rz | rd | ru
  deriving DecidableEq, Repr

/-- The mode of a 2-bit code (R67). -/
def Rm.ofCode (c : Nat) : Rm := match c with | 0 => .rn | 1 => .rz | 2 => .rd | _ => .ru

/-- num / den rounded to an integer in a mode, for a value of the given sign; and whether that was inexact. -/
def roundQuot (mode : Rm) (neg : Bool) (num den : Nat) : Nat × Bool :=
  let q := num / den
  let r := num % den
  if r == 0 then (q, false)
  else
    let up := match mode with
      | .rn => if 2 * r == den then q % 2 == 1 else decide (den < 2 * r)
      | .rz => false
      | .rd => neg
      | .ru => !neg
    (if up then q + 1 else q, true)

/-- floor(log2 (n / d)) of a positive quotient. -/
def floorLog2 (n d : Nat) : Int :=
  let k : Int := (Nat.log2 n : Int) - Nat.log2 d
  if d * 2 ^ k.toNat ≤ n * 2 ^ (-k).toNat then k else k - 1

/-- (n / d) * 2^e rounded to a multiple of 2^q: the multiple's number and inexactness. -/
def roundAt (mode : Rm) (neg : Bool) (n d : Nat) (e q : Int) : Nat × Bool :=
  let s := e - q
  roundQuot mode neg (n * 2 ^ s.toNat) (d * 2 ^ (-s).toNat)

/-- What rounding a number delivers: the magnitude's bits where it stays finite (none beyond the largest finite value), and
the flags OF, UF, NX of R66. -/
structure Rounded where
  mag   : Option Nat
  flags : Word
  deriving DecidableEq, Repr

/-- The positive number (n / d) * 2^e rounded once to a layout, with gradual underflow (R63, R66). -/
def Fmt.round (f : Fmt) (mode : Rm) (neg : Bool) (n d : Nat) (e : Int) : Rounded :=
  let ex := floorLog2 n d + e
  let emin : Int := 1 - (f.bias : Int)
  let q := max (ex - f.fbits) (emin - f.fbits)
  let m := roundAt mode neg n d e q
  -- the rounding with the exponent range unbounded, for UF
  let mu := roundAt mode neg n d e (ex - f.fbits)
  let tiny := decide (mu.1 = 0 ∨ floorLog2 mu.1 1 + (ex - f.fbits) < emin)
  let mag : Nat :=
    if m.1 < 2 ^ f.fbits then m.1
    else
      let lead := floorLog2 m.1 1
      let exf := lead + q + f.bias
      (exf.toNat) * 2 ^ f.fbits + (m.1 / 2 ^ (lead.toNat - f.fbits)) % 2 ^ f.fbits
  if f.maxFinite < mag then { mag := none, flags := flagOF ||| flagNX }
  else { mag := some mag, flags := flagIf m.2 flagNX ||| flagIf (m.2 && tiny && mag != 0) flagUF ||| flagIf (m.2 && tiny && mag == 0) flagUF }

/-- A result and its flags. -/
abbrev Res := Nat × Word

/-- The result of an arithmetic operation: rounded to nearest even, infinity beyond the range (R63). -/
def Fmt.deliver (f : Fmt) (neg : Bool) (n d : Nat) (e : Int) : Res :=
  if n == 0 then (f.signed neg 0, 0)
  else
    let r := f.round .rn neg n d e
    match r.mag with
    | some m => (f.signed neg m, r.flags)
    | none => (f.signed neg f.infBits, r.flags)

/-- The canonical NaN with the flag IV where no operand was NaN (R64, R66). -/
def Fmt.invalid (f : Fmt) : Res := (f.nanBits, flagIV)

/-- The canonical NaN of NaN operands: no flag. -/
def Fmt.quiet (f : Fmt) : Res := (f.nanBits, 0)

/-- A signed integer scaled by a power of two, as sign and magnitude. -/
def sgnOf (i : Int) : Bool := decide (i < 0)

/-- The exact sum of two numbers, as an integer multiple of a power of two. -/
def exactSum (n1 : Bool) (m1 : Nat) (e1 : Int) (n2 : Bool) (m2 : Nat) (e2 : Int) : Int × Int :=
  let e := min e1 e2
  let a : Int := (m1 * 2 ^ (e1 - e).toNat : Nat)
  let b : Int := (m2 * 2 ^ (e2 - e).toNat : Nat)
  ((if n1 then -a else a) + (if n2 then -b else b), e)

/-- Addition of two data, rounded once (R63 to R66). -/
def Fmt.addNum (f : Fmt) (x y : Num) : Res :=
  match x, y with
  | .nan, _ => f.quiet
  | _, .nan => f.quiet
  | .inf a, .inf b => if a == b then (f.signed a f.infBits, 0) else f.invalid
  | .inf a, .fin _ _ _ => (f.signed a f.infBits, 0)
  | .fin _ _ _, .inf b => (f.signed b f.infBits, 0)
  | .fin n1 m1 e1, .fin n2 m2 e2 =>
    let s := exactSum n1 m1 e1 n2 m2 e2
    if s.1 == 0 then (f.signed (n1 && n2 && m1 == 0 && m2 == 0) 0, 0)
    else f.deliver (sgnOf s.1) s.1.natAbs 1 s.2

/-- A datum with its sign changed. -/
def Num.neg : Num → Num
  | .nan => .nan
  | .inf n => .inf (!n)
  | .fin n m e => .fin (!n) m e

/-- The exact product of two data; none for zero times infinity. -/
def mulNum (x y : Num) : Option Num :=
  match x, y with
  | .nan, _ => some .nan
  | _, .nan => some .nan
  | .inf a, .inf b => some (.inf (a != b))
  | .inf a, .fin b m _ => if m == 0 then none else some (.inf (a != b))
  | .fin a m _, .inf b => if m == 0 then none else some (.inf (a != b))
  | .fin a m e, .fin b m' e' => some (.fin (a != b) (m * m') (e + e'))

/-- A datum rounded to a layout, no operand being open to a flag but its own rounding. -/
def Fmt.ofNum (f : Fmt) : Num → Res
  | .nan => f.quiet
  | .inf n => (f.signed n f.infBits, 0)
  | .fin n m e => f.deliver n m 1 e

/-- Whether a datum is NaN. -/
def Num.isNan : Num → Bool
  | .nan => true
  | _ => false

/-- x + y (VFADD, SFADD, VHADD2). -/
def Fmt.add (f : Fmt) (x y : Nat) : Res := f.addNum (f.decode x) (f.decode y)

/-- x - y (VFSUB, SFSUB, VHSUB2). -/
def Fmt.sub (f : Fmt) (x y : Nat) : Res := f.addNum (f.decode x) (f.decode y).neg

/-- x * y (VFMUL, SFMUL, VHMUL2). -/
def Fmt.mul (f : Fmt) (x y : Nat) : Res :=
  match mulNum (f.decode x) (f.decode y) with
  | none => f.invalid
  | some p => f.ofNum p

/-- x * y + z with one rounding, the product negated where asked (R114). A NaN z with an invalid product sets nothing. -/
def Fmt.fma (f : Fmt) (negProduct : Bool) (x y z : Nat) : Res :=
  let zn := f.decode z
  match mulNum (f.decode x) (f.decode y) with
  | none => if zn.isNan then f.quiet else f.invalid
  | some p => f.addNum (if negProduct then p.neg else p) zn

/-- x / y, correctly rounded (SFDIV, R66). -/
def Fmt.div (f : Fmt) (x y : Nat) : Res :=
  match f.decode x, f.decode y with
  | .nan, _ => f.quiet
  | _, .nan => f.quiet
  | .inf _, .inf _ => f.invalid
  | .inf a, .fin b _ _ => (f.signed (a != b) f.infBits, 0)
  | .fin a _ _, .inf b => (f.signed (a != b) 0, 0)
  | .fin a m e, .fin b m' e' =>
    if m' == 0 then (if m == 0 then f.invalid else (f.signed (a != b) f.infBits, flagDZ))
    else f.deliver (a != b) m m' (e - e')

/-- The key that orders data: minus zero below plus zero (R65). Only for data that are not NaN. -/
def Fmt.orderKey (f : Fmt) (bits : Nat) : Int :=
  let mag : Int := (bits % f.signBit : Nat)
  if bits / f.signBit % 2 == 1 then -mag - 1 else mag

/-- The smaller (or the larger) of two data (R65). -/
def Fmt.minMax (f : Fmt) (wantMax : Bool) (x y : Nat) : Res :=
  match (f.decode x).isNan, (f.decode y).isNan with
  | true, true => f.quiet
  | true, false => (y, 0)
  | false, true => (x, 0)
  | false, false =>
    if wantMax then (if f.orderKey x < f.orderKey y then y else x, 0)
    else (if f.orderKey y < f.orderKey x then y else x, 0)

/-- The order of two data by value, minus zero equal to plus zero; none with a NaN (R119). -/
def Fmt.compare (f : Fmt) (x y : Nat) : Option Ordering :=
  if (f.decode x).isNan || (f.decode y).isNan then none
  else
    let k (b : Nat) : Int := let mag : Int := (b % f.signBit : Nat); if b / f.signBit % 2 == 1 then -mag else mag
    some (if k x < k y then .lt else if k x = k y then .eq else .gt)

/-! ## Conversions (R67 to R69) -/

/-- An integer as FP32 (R68): rounded in a mode, NX only. -/
def intToFp32 (mode : Rm) (i : Int) : Res :=
  if i == 0 then (0, 0)
  else
    let r := fp32.round mode (sgnOf i) i.natAbs 1 0
    (fp32.signed (sgnOf i) (r.mag.getD fp32.maxFinite), r.flags &&& flagNX)

/-- An integer clamped to a range. -/
def clampInt (lo hi v : Int) : Int := if v < lo then lo else if hi < v then hi else v

/-- FP32 as an integer of a range (R68): NaN gives 0, saturation is judged after rounding; IV or else NX. -/
def fp32ToInt (mode : Rm) (lo hi : Int) (bits : Nat) : Int × Word :=
  match fp32.decode bits with
  | .nan => (0, flagIV)
  | .inf neg => (if neg then lo else hi, flagIV)
  | .fin neg m e =>
    let r := roundAt mode neg m 1 e 0
    let v : Int := if neg then -(r.1 : Int) else r.1
    if v < lo || hi < v then (clampInt lo hi v, flagIV) else (v, flagIf r.2 flagNX)

/-- FP32 rounded to an integral FP32 (VFRINT, R68, R116): no flag, the sign kept on zero. -/
def fp32Integral (mode : Rm) (bits : Nat) : Nat :=
  match fp32.decode bits with
  | .nan => fp32.nanBits
  | .inf neg => fp32.signed neg fp32.infBits
  | .fin neg m e =>
    if 0 ≤ e then bits
    else (fp32.deliver neg (roundAt mode neg m 1 e 0).1 1 0).1

/-- A narrow datum as FP32, exact (R68). -/
def Fmt.widen (f : Fmt) (bits : Nat) : Nat := (fp32.ofNum (f.decode bits)).1

/-- FP32 to BF16 on the arithmetic path (R68, R69). -/
def toBf16 (bits : Nat) : Res := bf16.ofNum (fp32.decode bits)

/-- FP32 to a narrow layout on the storing path: nearest even, then SatFinite (R68); a NaN keeps the input's sign in the
8-bit layouts. -/
def Fmt.store (f : Fmt) (bits : Nat) : Res :=
  let neg := bits / 2 ^ 31 % 2 == 1
  match fp32.decode bits with
  | .nan => (if f.fbits = 7 then f.nanBits else f.signed neg f.nanBits, 0)
  | .inf n => (f.signed n f.maxFinite, flagNX)
  | .fin n m e =>
    if m == 0 then (f.signed n 0, 0)
    else
      let r := f.round .rn n m 1 e
      (f.signed n (r.mag.getD f.maxFinite), r.flags)

/-- VFCLASS (R117). -/
def fp32Class (bits : Nat) : Nat :=
  let neg := bits / 2 ^ 31 % 2 == 1
  match fp32.decode bits with
  | .nan => 256
  | .inf _ => if neg then 1 else 128
  | .fin _ m _ =>
    if m == 0 then (if neg then 8 else 16)
    else if bits % 2 ^ 31 < 2 ^ 23 then (if neg then 4 else 32)
    else (if neg then 2 else 64)

/-- VFGETEXP (R117). -/
def fp32Exponent (bits : Nat) : Word :=
  match fp32.decode bits with
  | .nan => 0x7FFFFFFF
  | .inf _ => 0x7FFFFFFF
  | .fin _ m e => if m == 0 then 0x80000000 else BitVec.ofInt 32 (floorLog2 m 1 + e)

/-- VFSCALEB (R117): scaled exactly, rounded once; zero and infinity unchanged. -/
def fp32Scale (bits : Nat) (n : Int) : Res :=
  match fp32.decode bits with
  | .nan => fp32.quiet
  | .inf _ => (bits, 0)
  | .fin neg m e =>
    if m == 0 then (bits, 0)
    -- beyond these bounds every result is an overflow or rounds to zero
    else fp32.deliver neg m 1 (e + clampInt (-1000) 1000 n)

/-! ## Special functions (R70) -/

/-- The integer square root, digit by digit from bit k downward. -/
def isqrtFrom (n : Nat) : Nat → Nat → Nat
  | 0, r => if (r + 1) * (r + 1) ≤ n then r + 1 else r
  | k + 1, r => isqrtFrom n k (if (r + 2 ^ (k + 1)) * (r + 2 ^ (k + 1)) ≤ n then r + 2 ^ (k + 1) else r)

/-- floor(sqrt n). -/
def isqrt (n : Nat) : Nat := isqrtFrom n (Nat.log2 n / 2 + 1) 0

/-- Twice s plus one where the true value lies strictly between s and s + 1, else twice s: a value that rounds alike at
every boundary that is an integer. -/
def sticky (s : Nat) (exact : Bool) : Nat := if exact then 2 * s else 2 * s + 1

/-- The square root of a positive number m * 2^e, scaled: an integer and the power of two it stands at. -/
def sqrtNum (m : Nat) (e : Int) : Nat × Int :=
  let e' : Int := if e % 2 == 0 then e else e - 1
  let m' := (if e % 2 == 0 then m else 2 * m) * 2 ^ 120
  let s := isqrt m'
  (sticky s (s * s == m'), e' / 2 - 61)

/-- The square root (VSQRT, SFSQRT): all flags of a correctly rounded operation. -/
def fp32Sqrt (bits : Nat) : Res :=
  match fp32.decode bits with
  | .nan => fp32.quiet
  | .inf neg => if neg then fp32.invalid else (fp32.infBits, 0)
  | .fin neg m e =>
    if m == 0 then (bits, 0)
    else if neg then fp32.invalid
    else let s := sqrtNum m e; fp32.deliver false s.1 1 s.2

/-- The flags a special function may set: IV, DZ, OF (R66). -/
def specialFlags (f : Word) : Word := f &&& (flagIV ||| flagDZ ||| flagOF)

/-- VRCP (R70). -/
def fp32Rcp (bits : Nat) : Res :=
  match fp32.decode bits with
  | .nan => fp32.quiet
  | .inf neg => (fp32.signed neg 0, 0)
  | .fin neg m e =>
    if m == 0 then (fp32.signed neg fp32.infBits, flagDZ)
    else let r := fp32.deliver neg 1 m (-e); (r.1, specialFlags r.2)

/-- VRSQ (R70). -/
def fp32Rsq (bits : Nat) : Res :=
  match fp32.decode bits with
  | .nan => fp32.quiet
  | .inf neg => if neg then fp32.invalid else (0, 0)
  | .fin neg m e =>
    if m == 0 then (fp32.signed neg fp32.infBits, flagDZ)
    else if neg then fp32.invalid
    else
      -- 1 / sqrt(m * 2^e) = sqrt(2^200 / m') * 2^(-100 - e'/2)
      let e' : Int := if e % 2 == 0 then e else e - 1
      let m' := if e % 2 == 0 then m else 2 * m
      let s := isqrt (2 ^ 200 / m')
      let r := fp32.deliver false (sticky s (s * s * m' == 2 ^ 200)) 1 (-101 - e' / 2)
      (r.1, specialFlags r.2)

/-- Fraction bits of the fixed-point numbers that the transcendental functions use. -/
def fxBits : Nat := 400

/-- pi * 2^400 and ln 2 * 2^400, cut to integers. -/
def fxPi : Nat := 8112377246730971238862271351300894519161151600179265203591191037615230905373990498745523360926816815427566779727327576236
/-- ln 2 * 2^400. -/
def fxLn2 : Nat := 1789879222497203190815761498240779176894896805856420935579692301363062920687047601279850318367644315849030039181347319086

/-- Product of two fixed-point numbers. -/
def fxMul (a b : Nat) : Nat := a * b / 2 ^ fxBits

/-- The series of e^x for a fixed-point x below 1: adds t, t*x/k, t*x*x/(k(k+1)), ... -/
def fxExpFrom (x : Nat) : Nat → Nat → Nat → Nat → Nat
  | 0, _, _, acc => acc
  | fuel + 1, k, t, acc => let t' := fxMul t x / k; fxExpFrom x fuel (k + 1) t' (acc + t')

/-- e^x for a fixed-point x below 1. -/
def fxExp (x : Nat) : Nat := fxExpFrom x 90 1 (2 ^ fxBits) (2 ^ fxBits)

/-- The series of sin and cos: alternating terms t * x^2 / (k (k + 1)). -/
def fxTrigFrom (x2 : Nat) : Nat → Nat → Nat → Int → Int → Int
  | 0, _, _, _, acc => acc
  | fuel + 1, k, t, sg, acc =>
    let t' := fxMul t x2 / (k * (k + 1))
    fxTrigFrom x2 fuel (k + 2) t' (-sg) (acc + sg * t')

/-- sin x for a fixed-point x below 1. -/
def fxSin (x : Nat) : Nat := (fxTrigFrom (fxMul x x) 50 2 x (-1) x).toNat

/-- cos x for a fixed-point x below 1. -/
def fxCos (x : Nat) : Nat := (fxTrigFrom (fxMul x x) 50 1 (2 ^ fxBits) (-1) ((2 ^ fxBits : Nat) : Int)).toNat

/-- The series of atanh z: z + z^3/3 + z^5/5 + ... -/
def fxAtanhFrom (z2 : Nat) : Nat → Nat → Nat → Nat → Nat
  | 0, _, _, acc => acc
  | fuel + 1, k, t, acc => let t' := fxMul t z2; fxAtanhFrom z2 fuel (k + 2) t' (acc + t' / k)

/-- ln y for y = n / d in [1, 2). -/
def fxLn (n d : Nat) : Nat :=
  let z := (n - d) * 2 ^ fxBits / (n + d)
  2 * fxAtanhFrom (fxMul z z) 140 3 z z

/-- A fixed-point number above or below zero by what its series leaves out, delivered as FP32: IV, DZ, OF only. -/
def fxDeliver (neg : Bool) (v : Nat) (e : Int) : Res :=
  let r := fp32.deliver neg (2 * v + 1) 1 (e - fxBits - 1)
  (r.1, specialFlags r.2)

/-- The number m * 2^e (e negative at most 400) split into its integer part and its fixed-point fraction. -/
def splitFx (m : Nat) (e : Int) : Nat × Nat :=
  let v := m * 2 ^ (e + fxBits).toNat
  (v / 2 ^ fxBits, v % 2 ^ fxBits)

/-- VEXP2 (R70). -/
def fp32Exp2 (bits : Nat) : Res :=
  match fp32.decode bits with
  | .nan => fp32.quiet
  | .inf neg => (if neg then 0 else fp32.infBits, 0)
  | .fin neg m e =>
    -- beyond 2^9 in magnitude every result is an overflow or rounds to zero
    if m != 0 && decide (9 ≤ floorLog2 m 1 + e) then (if neg then (0, 0) else (fp32.infBits, flagOF))
    else
      let s := splitFx m e
      let k : Int := if neg then (if s.2 == 0 then -(s.1 : Int) else -(s.1 : Int) - 1) else s.1
      let f := if neg && s.2 != 0 then 2 ^ fxBits - s.2 else s.2
      if f == 0 then let r := fp32.deliver false 1 1 k; (r.1, specialFlags r.2)
      else fxDeliver false (fxExp (fxMul f fxLn2)) k

/-- VLOG2 (R70). -/
def fp32Log2 (bits : Nat) : Res :=
  match fp32.decode bits with
  | .nan => fp32.quiet
  | .inf neg => if neg then fp32.invalid else (fp32.infBits, 0)
  | .fin neg m e =>
    if m == 0 then (fp32.signed true fp32.infBits, flagDZ)
    else if neg then fp32.invalid
    else
      let k := Nat.log2 m
      let ex : Int := (k : Int) + e
      if m == 2 ^ k then let r := intToFp32 .rn ex; (r.1, 0)
      else
        let l := fxLn m (2 ^ k) * 2 ^ fxBits / fxLn2
        let total : Int := ex * (2 ^ fxBits : Nat) + l
        fxDeliver (sgnOf total) (if total < 0 then total.natAbs - 1 else total.natAbs) 0

/-- sin(pi r) and cos(pi r) for a fixed-point r in [0, 1/2]: the reduction to [0, 1/4] is exact. -/
def fxSinPi (r : Nat) : Nat :=
  if 4 * r ≤ 2 ^ fxBits then fxSin (fxMul r fxPi) else fxCos (fxMul (2 ^ (fxBits - 1) - r) fxPi)

/-- VSINPI for a number reduced to [0, 2) with its sign (R70). -/
def sinPiReduced (neg : Bool) (r : Nat) : Res :=
  let one := 2 ^ fxBits
  let flip := decide (one ≤ r)
  let r1 := if one ≤ r then r - one else r
  let r2 := if one < 2 * r1 then one - r1 else r1
  if r2 == 0 then (fp32.signed neg 0, 0)
  else if 2 * r2 == one then (fp32.signed (neg != flip) 0x3F800000, 0)
  else fxDeliver (neg != flip) (fxSinPi r2) 0

/-- A number's magnitude modulo 2, in fixed point (exact, R70). -/
def mod2Fx (m : Nat) (e : Int) : Nat := m * 2 ^ (min (e + fxBits) 600).toNat % 2 ^ (fxBits + 1)

/-- VSINPI (R70): an integer gives zero with the sign of x. -/
def fp32SinPi (bits : Nat) : Res :=
  match fp32.decode bits with
  | .nan => fp32.quiet
  | .inf _ => fp32.invalid
  | .fin neg m e => sinPiReduced neg (mod2Fx m e)

/-- VCOSPI (R70): cos(pi x) = sin(pi (|x| + 1/2)); half integers give +0. -/
def fp32CosPi (bits : Nat) : Res :=
  match fp32.decode bits with
  | .nan => fp32.quiet
  | .inf _ => fp32.invalid
  | .fin _ m e =>
    let r := sinPiReduced false ((mod2Fx m e + 2 ^ (fxBits - 1)) % 2 ^ (fxBits + 1))
    (if r.1 % 2 ^ 31 == 0 then 0 else r.1, r.2)

/-- VTANH (R70): (E - 1) / (E + 1) with E = e^(2|x|). -/
def fp32Tanh (bits : Nat) : Res :=
  match fp32.decode bits with
  | .nan => fp32.quiet
  | .inf neg => (fp32.signed neg 0x3F800000, 0)
  | .fin neg m e =>
    if m == 0 then (bits, 0)
    else if decide (5 ≤ floorLog2 m 1 + e) then (fp32.signed neg 0x3F800000, 0)
    else
      let x2 := 2 * m * 2 ^ (e + fxBits).toNat
      let k := x2 / fxLn2
      let ex := fxExp (x2 - k * fxLn2) * 2 ^ k
      let r := fp32.deliver neg (ex - 2 ^ fxBits) (ex + 2 ^ fxBits) 0
      (r.1, 0)

/-! ## The dot-product adder and exact-sum slots (R71 to R77) -/

/-- The flags of an adder's rounding, and its result. -/
structure DotRes where
  bits    : Nat
  nan     : Bool
  inexact : Bool
  beyond  : Bool
  tiny    : Bool
  deriving DecidableEq, Repr

/-- Magnitude of m * 2^e cut to a multiple of 2^q, as that multiple's number; and whether bits were cut. -/
def cutAt (m : Nat) (e q : Int) : Nat × Bool :=
  let s := e - q
  let n := m * 2 ^ s.toNat
  let d := 2 ^ (-s).toNat
  (n / d, n % d != 0)

/-- The largest floor(log2 |t|) among the non-zero finite terms; none where all are zero. -/
def dotTop (ts : List Num) : Option Int :=
  ts.foldl (fun acc t => match t with
    | .fin _ m e => if m == 0 then acc else
      let x := floorLog2 m 1 + e
      match acc with | none => some x | some y => some (max x y)
    | _ => acc) none

/-- The exact sum of the terms cut to multiples of 2^q; and whether any was cut. -/
def dotSum (q : Int) (ts : List Num) : Int × Bool :=
  ts.foldl (fun acc t => match t with
    | .fin neg m e => let c := cutAt m e q; (acc.1 + (if neg then -(c.1 : Int) else c.1), acc.2 || c.2)
    | _ => acc) (0, false)

/-- The adder (R71) over exact terms; a product of infinity and zero is the term nan. -/
def dotAdd (ts : List Num) : DotRes :=
  let nanRes : DotRes := { bits := 0x7FC00000, nan := true, inexact := false, beyond := false, tiny := false }
  let plain (b : Nat) : DotRes := { bits := b, nan := false, inexact := false, beyond := false, tiny := false }
  if ts.any Num.isNan then nanRes
  else if ts.contains (.inf false) && ts.contains (.inf true) then nanRes
  else if ts.contains (.inf false) then plain 0x7F800000
  else if ts.contains (.inf true) then plain 0xFF800000
  else match dotTop ts with
    | none => plain (if ts.all (fun t => match t with | .fin neg _ _ => neg | _ => false) then 0x80000000 else 0)
    | some top =>
      let q := top - 60
      let s := dotSum q ts
      if s.1 == 0 then { bits := 0, nan := false, inexact := s.2, beyond := false, tiny := false }
      else
        let neg := sgnOf s.1
        let r := fp32.round .rn neg s.1.natAbs 1 q
        let mu := roundAt .rn neg s.1.natAbs 1 q (floorLog2 s.1.natAbs 1 + q - 23)
        let tiny := decide (floorLog2 mu.1 1 + (floorLog2 s.1.natAbs 1 + q - 23) < -126)
        { bits := fp32.signed neg (r.mag.getD fp32.infBits), nan := false,
          inexact := s.2 || (r.flags &&& flagNX) != 0, beyond := r.mag.isNone, tiny := tiny }

/-- The flags of SREDADD.F32 (R72): the lanes' terms say whether a NaN was among them. -/
def dotFlags (ts : List Num) (r : DotRes) : Word :=
  flagIf (r.nan && !ts.any Num.isNan) flagIV ||| flagIf r.beyond flagOF ||| flagIf r.inexact flagNX |||
    flagIf (r.tiny && r.inexact && r.bits % 2 ^ 31 != 0) flagUF

/-- An exact-sum slot (R74). -/
structure SumSlot where
  acc   : Int
  count : Nat
  flags : Nat
  q     : Nat
  deriving DecidableEq, Repr

/-- The slot that 16 bytes hold, as one little-endian number (R74). -/
def SumSlot.ofNat (v : Nat) : SumSlot :=
  let a : Nat := v % 2 ^ 96
  { acc := if a < 2 ^ 95 then (a : Int) else (a : Int) - ((2 ^ 96 : Nat) : Int), count := v / 2 ^ 96 % 2 ^ 16, flags := v / 2 ^ 112 % 256, q := v / 2 ^ 120 % 256 }

/-- The 16 bytes of a slot, as one number (R74). -/
def SumSlot.toNat (s : SumSlot) : Nat :=
  (s.acc % (2 : Int) ^ 96).toNat + s.count % 2 ^ 16 * 2 ^ 96 + s.flags % 256 * 2 ^ 112 + s.q % 256 * 2 ^ 120

/-- XGetValue (R76). -/
def SumSlot.value (s : SumSlot) : Nat :=
  if s.flags / 8 != 0 || s.flags % 4 != 0 then 0x7FC00000
  else if s.acc == 0 then 0
  else (fp32.deliver (sgnOf s.acc) s.acc.natAbs 1 ((s.q : Int) - 175)).1

/-- A flag bit set in FLAGS. -/
def SumSlot.mark (s : SumSlot) (bit : Nat) : SumSlot := { s with flags := s.flags ||| bit }

/-- XADD of the FP32 bits v (R75): the value returned is XGetValue before. -/
def SumSlot.xadd (s : SumSlot) (v : Nat) : SumSlot :=
  let s1 := if s.flags / 8 != 0 then s.mark 2 else s
  if s1.count == 0xFFFF then s1.mark 1
  else match fp32.decode v with
    | .nan => { s1.mark 2 with count := s1.count + 1 }
    | .inf _ => { s1.mark 2 with count := s1.count + 1 }
    | .fin neg m e =>
      let c := cutAt m e ((s1.q : Int) - 175)
      if 2 ^ 79 ≤ c.1 then s1.mark 1
      else
        let s2 := if c.2 then s1.mark 4 else s1
        { s2 with acc := s2.acc + (if neg then -(c.1 : Int) else c.1), count := s2.count + 1 }

/-- XCLR (R76). -/
def SumSlot.clear (s : SumSlot) : SumSlot := { acc := 0, count := 0, flags := 0, q := s.q }

end Sys2Proof.Machine
end

