-- ==== Sys2Proof/Machine/Alu.lean ====
section
/-!
DEFINITION. The word arithmetic that varying and uniform instructions share (R60, R111 to R113, R119, R128), and the
floating-point functions in the shape those instructions use: a result and its flags.
-/
namespace Sys2Proof.Machine

/-! ## Integers (R111) -/

/-- The word of an exact integer, clamped to a range (R111). -/
def clampWord (lo hi v : Int) : Word := BitVec.ofInt 32 (clampInt lo hi v)
/-- Signed bounds of a word. -/
def minSigned : Int := -2147483648
/-- Signed bounds of a word. -/
def maxSigned : Int := 2147483647
/-- The unsigned bound of a word. -/
def maxUnsigned : Int := 4294967295

/-- VADIF.S (R111). -/
def aluAdif (a b : Word) : Word := BitVec.ofNat 32 (a.toInt - b.toInt).natAbs
/-- VMULH.S (R111). -/
def aluMulhS (a b : Word) : Word := BitVec.ofInt 32 (a.toInt * b.toInt / 4294967296)
/-- VMULH.U (R111). -/
def aluMulhU (a b : Word) : Word := BitVec.ofNat 32 (a.toNat * b.toNat / 4294967296)
/-- The operand with the smaller or larger signed value (R111). -/
def aluMinS (a b : Word) : Word := if b.toInt < a.toInt then b else a
/-- VMAX.S (R111). -/
def aluMaxS (a b : Word) : Word := if a.toInt < b.toInt then b else a
/-- VMIN.U (R111). -/
def aluMinU (a b : Word) : Word := if b.toNat < a.toNat then b else a
/-- VMAX.U (R111). -/
def aluMaxU (a b : Word) : Word := if a.toNat < b.toNat then b else a

/-- The quotient of R60, toward zero; all ones for a zero divisor; the wrapped quotient for the one overflow. -/
def aluDivS (a b : Word) : Word := if b == 0 then 0xFFFFFFFF else BitVec.ofInt 32 (a.toInt.tdiv b.toInt)
/-- SDIV.U (R60). -/
def aluDivU (a b : Word) : Word := if b == 0 then 0xFFFFFFFF else BitVec.ofNat 32 (a.toNat / b.toNat)
/-- SREM.S (R60): the dividend for a zero divisor. -/
def aluRemS (a b : Word) : Word := if b == 0 then a else BitVec.ofInt 32 (a.toInt.tmod b.toInt)
/-- SREM.U (R60). -/
def aluRemU (a b : Word) : Word := if b == 0 then a else BitVec.ofNat 32 (a.toNat % b.toNat)

/-! ## Bits (R112, R113) -/

/-- VSHL (R112): zero for counts of 32 and more. -/
def aluShl (a b : Word) : Word := if b.toNat < 32 then BitVec.ofNat 32 (a.toNat * 2 ^ b.toNat) else 0
/-- VSHR.U (R112). -/
def aluShrU (a b : Word) : Word := if b.toNat < 32 then BitVec.ofNat 32 (a.toNat / 2 ^ b.toNat) else 0
/-- VSHR.S (R112): the sign for counts of 32 and more. -/
def aluShrS (a b : Word) : Word :=
  if b.toNat < 32 then BitVec.ofInt 32 (a.toInt / (2 ^ b.toNat : Nat)) else if a.toInt < 0 then 0xFFFFFFFF else 0
/-- VROTL (R112). -/
def aluRotl (a b : Word) : Word :=
  let c := b.toNat % 32
  BitVec.ofNat 32 (a.toNat * 2 ^ c % 2 ^ 32 + a.toNat / 2 ^ (32 - c))
/-- Leading zero bits, 32 for zero (R113). -/
def aluClz (b : Word) : Word := BitVec.ofNat 32 (if b == 0 then 32 else 31 - Nat.log2 b.toNat)
/-- Number of one bits (R113). -/
def aluPopc (b : Word) : Word := BitVec.ofNat 32 (popCount b)
/-- Bit reversal (R113). -/
def aluBrev (b : Word) : Word := maskOf (fun l => hasLane b (31 - l))

/-- pos of the field instructions (R113). -/
def bfPos (b : Word) : Nat := b.toNat % 32
/-- w of the field instructions (R113). -/
def bfWidth (b : Word) : Nat := min (field b.toNat 8 6) 32
/-- VBFE.U (R113). -/
def aluBfeU (a b : Word) : Word := BitVec.ofNat 32 (a.toNat / 2 ^ bfPos b % 2 ^ bfWidth b)
/-- VBFE.S (R113). -/
def aluBfeS (a b : Word) : Word :=
  let w := bfWidth b
  let f : Nat := (a.toInt / (2 ^ bfPos b : Nat) % (2 ^ w : Nat)).toNat
  if w == 0 then 0 else if 2 ^ (w - 1) ≤ f then BitVec.ofInt 32 ((f : Int) - (2 ^ w : Nat)) else BitVec.ofNat 32 f
/-- VBFI (R113). -/
def aluBfi (d a b : Word) : Word :=
  let mask : Word := BitVec.ofNat 32 ((2 ^ bfWidth b - 1) * 2 ^ bfPos b)
  (d &&& ~~~mask) ||| (BitVec.ofNat 32 (a.toNat * 2 ^ bfPos b) &&& mask)
/-- One byte of VPERMB (R113). -/
def permByte (a b : Word) (k : Nat) : Nat :=
  let sel := field b.toNat (4 * k) 4
  let x := field a.toNat (8 * (sel % 4)) 8
  if sel / 4 % 2 == 1 then 0 else if sel / 8 == 1 then (if 128 ≤ x then 255 else 0) else x
/-- VPERMB (R113). -/
def aluPermb (a b : Word) : Word :=
  BitVec.ofNat 32 (permByte a b 0 + permByte a b 1 * 256 + permByte a b 2 * 65536 + permByte a b 3 * 16777216)

/-! ## Compares (R119) -/

/-- VCMP.I under a condition code (R119). -/
def intCond (c : Nat) (a b : Word) : Bool :=
  match c with
  | 0 => a == b
  | 1 => a != b
  | 2 => decide (a.toInt < b.toInt)
  | 3 => decide (a.toInt ≤ b.toInt)
  | 4 => decide (b.toInt < a.toInt)
  | 5 => decide (b.toInt ≤ a.toInt)
  | 6 => decide (a.toNat < b.toNat)
  | 7 => decide (a.toNat ≤ b.toNat)
  | 8 => decide (b.toNat < a.toNat)
  | 9 => decide (b.toNat ≤ a.toNat)
  | 10 => a &&& b != 0
  | _ => a &&& b == 0

/-- VCMP.F under a condition code (R119), with its flags: IV for the ordered compares of a NaN. -/
def floatCond (c : Nat) (a b : Word) : Bool × Word :=
  match fp32.compare a.toNat b.toNat with
  | none => (c == 1 || c == 6, flagIf (decide (2 ≤ c) && decide (c ≤ 5)) flagIV)
  | some o =>
    ((match c with
      | 0 => o == .eq
      | 1 => o != .eq
      | 2 => o == .lt
      | 3 => o != .gt
      | 4 => o == .gt
      | 5 => o != .lt
      | 6 => false
      | _ => true), 0)

/-! ## Floating point -/

/-- A result of a format's bits as a word. -/
def wordRes (r : Res) : Word × Word := (BitVec.ofNat 32 r.1, r.2)

/-- The two BF16 halves of a packed operation (R115). -/
def bothHalves (f : Nat → Nat → Nat → Res) (d a b : Word) : Word × Word :=
  let half (w : Word) (h : Nat) : Nat := field w.toNat (16 * h) 16
  let lo := f (half d 0) (half a 0) (half b 0)
  let hi := f (half d 1) (half a 1) (half b 1)
  (BitVec.ofNat 32 (lo.1 + hi.1 * 65536), lo.2 ||| hi.2)

/-- VFCPYS (R114). -/
def aluCopySign (a b : Word) : Word := (a &&& 0x7FFFFFFF) ||| (b &&& 0x80000000)

/-- A field of a word replaced (R116): bits from lo, k of them. -/
def insertField (d : Word) (lo k v : Nat) : Word :=
  BitVec.ofNat 32 (d.toNat - field d.toNat lo k * 2 ^ lo + v % 2 ^ k * 2 ^ lo)

/-- FP32 to a signed or unsigned integer word (R68). -/
def floatToInt (mode : Rm) (isSigned : Bool) (b : Word) : Word × Word :=
  let r := if isSigned then fp32ToInt mode minSigned maxSigned b.toNat else fp32ToInt mode 0 maxUnsigned b.toNat
  (BitVec.ofInt 32 r.1, r.2)

end Sys2Proof.Machine
end

