-- ==== Sys2Proof/Config.lean ====
section
/-!
DEFINITION. What the spec leaves open, as opaque constants, and the primitives whose values other standards fix and the spec
names without restating: SHAKE256, XTS-AES-256, AES-256-GCM, X448, Ed448, SHA3-512 and the X.509 certificates (R345, R355,
R356, R361, R362, R366, R368). Nothing in Lean can evaluate them: a statement about them holds for every value.
-/
namespace Sys2Proof.Config

/-- A free number below a bound is freeNat k modulo the bound. -/
opaque freeNat : Nat → Nat

/-- How many happenings may overtake one that is due (R222, R253: what stays due comes about in finite time; no rule bounds the time). -/
opaque patience : Nat

/-- Whether a sheaf with results in flight stands at an interlock in an issue slot (R246): the time at which a result arrives is open. -/
opaque stalled : Nat → Nat → Bool

/-- Whether a walk that begins at a moment uses the pointer entry of a level that its slice's walk caches hold (R285: the walker may
cache or evict at any time, and until a shoot-down each access goes by the old entry or by the new one). -/
opaque walkCached : Nat → Nat → Bool

/-- How many nanoseconds pass between two readings of CLK (R47, R326): no rule ties CLK to instructions. -/
opaque clkAdvance : Nat → Nat

/-- The bytes that the device writes into a tuft's save area (R237): "in a device order", with a check word. -/
opaque saveByte : Nat → Nat → Byte

/-- The 256-bit domain secret that Campion gives a partition (R345). -/
opaque domainSecret : Nat → List Byte

/-- The 16-byte tag of AES-256-GCM: key, 96-bit nonce, additional authenticated data, plaintext (R345). -/
opaque gcmTag : List Byte → List Byte → List Byte → List Byte → List Byte

/-- The ciphertext of AES-256-GCM: key, 96-bit nonce, plaintext (R345). -/
opaque gcmCipher : List Byte → List Byte → List Byte → List Byte

/-- The watts that an island draws beyond 6 at a clock, at a moment (R396): moment, 0 the compute die or 1 the base-die pair, MHz. -/
opaque islandWatts : Nat → Nat → Nat → Nat

/-- Which of the routes of its partition a packet of a port takes, by its number: routing is adaptive (R343). -/
opaque route : Nat → Nat

/-- SHAKE256 of bytes, taken to a number of bytes (R319, R355, R357, R360). -/
opaque shake256 : List Byte → Nat → List Byte

/-- XTS-AES-256 encryption of the 32 bytes of a sector under a key, the sector's number being the tweak (R368). -/
opaque xtsEncrypt : Nat → Nat → List Byte → List Byte

/-- XTS-AES-256 decryption of the 32 bytes of a sector under a key (R368). -/
opaque xtsDecrypt : Nat → Nat → List Byte → List Byte

/-- The plaintext of AES-256-GCM: key, 96-bit nonce, ciphertext (R366). -/
opaque gcmPlain : List Byte → List Byte → List Byte → List Byte

/-- The fused 64-byte unique device secret of a package's Campion (R355). -/
opaque uds : Nat → List Byte

/-- The X448 function of a private and a public key (R366). -/
opaque x448 : List Byte → List Byte → List Byte

/-- The 56 bytes of the X448 public key of a private key (R355, R361). -/
opaque x448Public : List Byte → List Byte

/-- The 57 bytes of the Ed448 public key of a private seed (R355, R361). -/
opaque ed448Public : List Byte → List Byte

/-- The 114 bytes of the Ed448 signature of bytes under a private seed (R361, R362). -/
opaque signEd448 : List Byte → List Byte → List Byte

/-- The Gulzeni root certificate in X.509 DER (R356). -/
opaque rootCert : List Byte

/-- The DeviceID certificate in X.509 DER that stands in a package's flash since manufacture, for the DeviceID public key (R356). -/
opaque deviceCert : Nat → List Byte → List Byte

/-- The alias certificate in X.509 DER that the ROM signs with the DeviceID seed for the alias public key (R355, R356). -/
opaque aliasCert : List Byte → List Byte → List Byte

/-- The octets of the SPDM 1.3 message of a code with its fields (R362). -/
opaque spdmMessage : Nat → List Byte → List Byte

/-- The step of R394 at which bringing a package up fails, 1 to 5; any other number where none fails. -/
opaque bringUpFails : Nat → Nat

/-- The SHA3-512 digest of bytes (R362). -/
opaque sha3 : List Byte → List Byte

/-- Digests of the components that a package's ROM and Campion measure at a bring-up, one for each slot MS0 to MS7 (R357, R394): the
moment of the bring-up, the package, the slot. Firmware may change between two package resets (R356). -/
opaque bootDigest : Nat → Nat → Nat → List Byte

end Sys2Proof.Config
end

