-- ==== Sys2Proof/Machine/Ops.lean ====
section
/-!
DEFINITION. The named operations on the state: records by name, lanes and program counters, physical memory behind the
cipher boundary, ownership of frames, fault records, the faulting of lanes, and the taking of a trap with its return.
-/
namespace Sys2Proof.Machine

/-! ## Records by name -/

/-- The sheaf of a name. -/
def State.sheaf? (s : State) (sid : Nat) : Option Sheaf := s.sheaves.find? sid

/-- Put a sheaf under its name. -/
def State.setSheaf (s : State) (sid : Nat) (sh : Sheaf) : State := { s with sheaves := s.sheaves.put sid sh }

/-- Change a sheaf, if it exists. -/
def State.modSheaf (s : State) (sid : Nat) (f : Sheaf → Sheaf) : State :=
  match s.sheaf? sid with
  | some sh => s.setSheaf sid (f sh)
  | none => s

/-- The tuft of a name. -/
def State.tuft? (s : State) (tid : Nat) : Option Tuft := s.tufts.find? tid

/-- Put a tuft under its name. -/
def State.setTuft (s : State) (tid : Nat) (t : Tuft) : State := { s with tufts := s.tufts.put tid t }

/-- Change a tuft, if it exists. -/
def State.modTuft (s : State) (tid : Nat) (f : Tuft → Tuft) : State :=
  match s.tuft? tid with
  | some t => s.setTuft tid (f t)
  | none => s

/-- The kernel of a name. -/
def State.kernel? (s : State) (kid : Nat) : Option Kernel := s.kernels.find? kid

/-- Put a kernel under its name. -/
def State.setKernel (s : State) (kid : Nat) (k : Kernel) : State := { s with kernels := s.kernels.put kid k }

/-- Change a kernel, if it exists. -/
def State.modKernel (s : State) (kid : Nat) (f : Kernel → Kernel) : State :=
  match s.kernel? kid with
  | some k => s.setKernel kid (f k)
  | none => s

/-- A core (R3): number slice * 192 + core. -/
def State.core (s : State) (c : Nat) : Core := s.cores.getD c Core.reset

/-- Put a core under its number. -/
def State.setCore (s : State) (c : Nat) (k : Core) : State := { s with cores := s.cores.put c k }

/-- Change a core. -/
def State.modCore (s : State) (c : Nat) (f : Core → Core) : State := s.setCore c (f (s.core c))

/-- A slice (R3): number package * 8 + slice. -/
def State.slice (s : State) (sl : Nat) : Slice := s.slices.getD sl Slice.reset

/-- Put a slice under its number. -/
def State.setSlice (s : State) (sl : Nat) (x : Slice) : State := { s with slices := s.slices.put sl x }

/-- Change a slice. -/
def State.modSlice (s : State) (sl : Nat) (f : Slice → Slice) : State := s.setSlice sl (f (s.slice sl))

/-- A package. -/
def State.package (s : State) (p : Nat) : Package := s.packages.getD p Package.reset

/-- Change a package. -/
def State.modPackage (s : State) (p : Nat) (f : Package → Package) : State :=
  { s with packages := s.packages.put p (f (s.package p)) }

/-- The partition of a number. -/
def State.part? (s : State) (p : Nat) : Option Partition := s.parts.find? p

/-- Put a partition under its number. -/
def State.setPart (s : State) (p : Nat) (x : Partition) : State := { s with parts := s.parts.put p x }

/-- Change a partition, if it exists. -/
def State.modPart (s : State) (p : Nat) (f : Partition → Partition) : State :=
  match s.part? p with
  | some x => s.setPart p (f x)
  | none => s

/-- A context record of a partition (R312). -/
def State.ctx (s : State) (p c : Nat) : Ctx :=
  match s.part? p with
  | some x => x.ctxs.getD c Ctx.zero
  | none => Ctx.zero

/-- Change a context record. -/
def State.modCtx (s : State) (p c : Nat) (f : Ctx → Ctx) : State :=
  s.modPart p (fun x => { x with ctxs := x.ctxs.put c (f (x.ctxs.getD c Ctx.zero)) })

/-- A key slot of a partition; KH 0 is the clear slot, always VALID, mark OPEN, no key (R315). DESIGN CHOICE (log entry 77): its OWNER, which
no rule gives, reads 0xFFFF. -/
def State.keySlot (s : State) (p kh : Nat) : KeySlot :=
  if kh == 0 then { KeySlot.zero with valid := true, owner := 0xFFFF }
  else match s.part? p with
    | some x => x.keys.getD kh KeySlot.zero
    | none => KeySlot.zero

/-- The mark of a key slot (R55, R57). -/
def State.slotMark (s : State) (p kh : Nat) : Mark := (s.keySlot p kh).mark

/-- The slice of a core, the core's number in it, the package of a slice, the slice's number in it (R3). -/
def sliceOf (core : Nat) : Nat := core / 192
/-- The core's number in its slice (R3). -/
def coreIn (core : Nat) : Nat := core % 192
/-- The package of a slice (R3). -/
def packageOf (slice : Nat) : Nat := slice / 8
/-- The slice's number in its package (R3). -/
def sliceIn (slice : Nat) : Nat := slice % 8

/-- A fresh name. -/
def State.fresh (s : State) : Nat × State := (s.nextId, { s with nextId := s.nextId + 1 })

/-- The next free value below a bound (0 where the bound is 0): nothing constrains it further. -/
def State.choose (s : State) (bound : Nat) : Nat × State :=
  (Config.freeNat s.freeCount % bound, { s with freeCount := s.freeCount + 1 })

/-- The kernel of a sheaf. -/
def State.kernelOf? (s : State) (sh : Sheaf) : Option Kernel := (s.tuft? sh.tid).bind (fun t => s.kernel? t.kid)

/-- The partition of a sheaf (R47 PART, R29). -/
def State.partOf (s : State) (sh : Sheaf) : Nat := match s.kernelOf? sh with | some k => k.part | none => 0

/-- The context of a sheaf. -/
def State.ctxOf (s : State) (sh : Sheaf) : Nat := match s.kernelOf? sh with | some k => k.ctx | none => 0

/-- The kernel of a sheaf is bound to its image (R319). -/
def State.boundOf (s : State) (sh : Sheaf) : Bool := match s.kernelOf? sh with | some k => k.bound | none => false

/-- Run an operation over a list, from left to right. -/
def State.forEach {α : Type} (s : State) (xs : List α) (f : State → α → State) : State := xs.foldl f s

/-! ## Lanes and program counters -/

/-- The live set: lanes neither EXITED nor FAULTED (R2, R18). -/
def Sheaf.live (sh : Sheaf) : Mask := ~~~(sh.exited ||| sh.faulted)

/-- The PCV entry of a lane (R18). -/
def Sheaf.pc (sh : Sheaf) (l : Nat) : Addr := sh.pcv.getD l 0

/-- Set the PCV entries of some lanes, each lane's by a function of its lane number; the others are unchanged. -/
def Sheaf.setPcs (sh : Sheaf) (lanes : Mask) (f : Nat → Addr) : Sheaf :=
  { sh with pcv := laneNumbers.map (fun l => if hasLane lanes l then f l else sh.pc l) }

/-- The lanes of a set whose PCV equals an address. -/
def Sheaf.lanesAt (sh : Sheaf) (lanes : Mask) (a : Addr) : Mask := maskOf (fun l => hasLane lanes l && sh.pc l == a)

/-- The least PCV among some lanes (R20). -/
def Sheaf.minPc? (sh : Sheaf) (lanes : Mask) : Option Addr :=
  (lanesOf lanes).foldl (fun acc l => match acc with
    | none => some (sh.pc l)
    | some a => if (sh.pc l).toNat < a.toNat then some (sh.pc l) else acc) none

/-- The distinct PCV values of some lanes in ascending order (R20, R24). -/
def Sheaf.distinctPcs (sh : Sheaf) (lanes : Mask) : List Addr :=
  let ins (acc : Map Unit) (l : Nat) : Map Unit := acc.put (sh.pc l).toNat ()
  ((lanesOf lanes).foldl ins []).map (fun e => BitVec.ofNat 64 e.1)

/-- The live set has at most one PC (R21). -/
def Sheaf.converged (sh : Sheaf) : Bool := decide ((sh.distinctPcs sh.live).length ≤ 1)

/-- The lowest lane of a set; 0 for the empty set. -/
def lowestLane (m : Mask) : Nat := (lanesOf m).headD 0

/-- The sheaf can issue: ACTIVE or TRAPPED (R246). -/
def Sheaf.issuing (sh : Sheaf) : Bool := sh.state == .active || sh.state == .trapped

/-- The sheaf is resident and neither EXITED nor FAULTED. -/
def Sheaf.running (sh : Sheaf) : Bool :=
  sh.state == .parked || sh.state == .active || sh.state == .waiting || sh.state == .trapped

/-- The lookahead windows of a sheaf close (R99); of results already written nothing remains. -/
def Sheaf.closeWindows (sh : Sheaf) : Sheaf := { sh with pend := (sh.pend.filter (fun p => p.lanes != 0)).map (fun p => { p with window := 0 }) }

/-! ## Physical memory (R302, R368) -/

/-- What an unlisted byte of memory reads as: every HBM word is zero after bring-up (R394 step 4). -/
def memDefault : Byte := 0

/-- The byte of memory at a physical address. -/
def memGet (m : List Host.Cell) (a : Nat) : Byte := Map.getD m a memDefault

/-- Memory with a byte written; the byte that an unlisted address reads as is not listed. -/
def memPut (m : List Host.Cell) (a : Nat) (b : Byte) : List Host.Cell :=
  if b = memDefault then Map.drop m a else Map.put m a b

/-- The canonical form of memory: addresses strictly rising, no entry equal to what an unlisted address reads as. -/
def memWf : List Host.Cell → Bool
  | [] => true
  | [(_, b)] => b != memDefault
  | (a, b) :: (a', b') :: m => b != memDefault && decide (a < a') && memWf ((a', b') :: m)

/-- The 32 bytes of a sector as they stand below the cipher boundary (R368): the ciphertext under the key they were last
written under. -/
def State.cipherSector (s : State) (n : Nat) : List Byte :=
  let plain := (List.range 32).map (fun i => memGet s.mem (32 * n + i))
  let k := s.keyOf.getD n 0
  if k == 0 then plain else Config.xtsEncrypt k n plain

/-- The 32 bytes of a sector as a reader under a key sees them (R368): what was written where the keys agree, else the
decryption under the reader's key of the stored bytes, or the stored bytes unchanged for the clear slot. -/
def State.viewSector (s : State) (key n : Nat) : List Byte :=
  if s.keyOf.getD n 0 == key then (List.range 32).map (fun i => memGet s.mem (32 * n + i))
  else if key == 0 then s.cipherSector n
  else Config.xtsDecrypt key n (s.cipherSector n)

/-- The byte at a physical address as a reader under a key sees it. -/
def State.viewByte (s : State) (key a : Nat) : Byte :=
  if s.keyOf.getD (a / 32) 0 == key then memGet s.mem a else (s.viewSector key (a / 32)).getD (a % 32) 0

/-- The n bytes from a physical address upward, under a key. -/
def State.viewBytes (s : State) (key a n : Nat) : List Byte := (List.range n).map (fun i => s.viewByte key (a + i))

/-- The little-endian number in n bytes of memory, under a key. -/
def State.viewNat (s : State) (key a n : Nat) : Nat := leNat (s.viewBytes key a n)

/-- A sector takes the key of a write (R368): what the writer's key makes of the stored bytes becomes its plaintext. -/
def State.rekeySector (s : State) (key n : Nat) : State :=
  if s.keyOf.getD n 0 == key then s
  else
    let bs := s.viewSector key n
    { s with mem := (List.range 32).foldl (fun m i => memPut m (32 * n + i) (bs.getD i 0)) s.mem,
             keyOf := if key == 0 then s.keyOf.drop n else s.keyOf.put n key }

/-- Write one byte under a key: a partial write of its sector (R368). -/
def State.putByte (s : State) (key a : Nat) (b : Byte) : State :=
  let s := s.rekeySector key (a / 32)
  { s with mem := memPut s.mem a b }

/-- A sector lies in the granules of a lost slice and has not been written whole since they were rehomed (R302, R338). -/
def LostSet.holds (x : LostSet) (n : Nat) : Bool :=
  let a := 32 * n
  let o := a % 2 ^ 42
  a / 2 ^ 42 == x.package && decide (x.base ≤ o) && decide (o < x.base + 2 ^ 37 * x.count) && (o - x.base) / 4096 % x.count == x.place &&
    !x.healed.contains n

/-- A sector is poisoned (R338). -/
def State.isPoisoned (s : State) (n : Nat) : Bool := s.poison.contains n || s.lostSets.any (fun x => x.holds n)

/-- Bytes, each at its distance from a physical address, cover a sector whole. -/
def coversSector (bytes : Map Byte) (paddr n : Nat) : Bool :=
  (List.range 32).all (fun i => decide (paddr ≤ 32 * n + i) && (bytes.find? (32 * n + i - paddr)).isSome)

/-- A poisoned sector that a write covers whole is poisoned no more (R338). -/
def State.clearPoison (s : State) (bytes : Map Byte) (paddr : Nat) : State :=
  if s.poison.isEmpty && s.lostSets.isEmpty then s
  else
    let secs := ((bytes.map (fun e => (paddr + e.1) / 32)).eraseDups).filter (fun n => s.isPoisoned n && coversSector bytes paddr n)
    { s with poison := s.poison.filter (fun n => !secs.contains n),
             lostSets := s.lostSets.map (fun x => if x.rehomed then { x with healed := x.healed ++ secs } else x) }

/-- Lines that a slice cache of 96 MB holds (spec/00_scope.md). -/
def cachePlaces : Nat := 786432

/-- Sectors stand in their home's slice cache, dirty where they were written (R289). Beyond the slice caches' places some other line
leaves, which one is free; its dirty sectors go to HBM. -/
def State.cacheSectors (s : State) (written : Bool) (secs : List Nat) : State :=
  let room : Map CacheLine := if s.cache.length < cachePlaces then s.cache else s.cache.eraseIdx (Config.freeNat s.freeCount % s.cache.length)
  { s with cache := secs.foldl (fun m n =>
      let x := m.getD (n / 4) { valid := 0, dirty := 0 }
      m.put (n / 4) { valid := x.valid ||| 2 ^ (n % 4), dirty := if written then x.dirty ||| 2 ^ (n % 4) else x.dirty }) room }

/-- A read at the home of a stretch fills its sectors (R289, R291). -/
def State.cacheRead (s : State) (paddr len : Nat) : State :=
  s.cacheSectors false ((List.range ((paddr + len + 31) / 32 - paddr / 32)).map (fun i => paddr / 32 + i))

/-- A write at the home (R289). -/
def State.cacheWrite (s : State) (bytes : Map Byte) (paddr : Nat) : State :=
  s.cacheSectors true (bytes.map (fun e => (paddr + e.1) / 32)).eraseDups

/-- Write bytes, each at its distance from a physical address, under a key (R158, R368). -/
def State.putBytes (s : State) (key paddr : Nat) (bytes : Map Byte) : State :=
  ((s.forEach bytes (fun s e => s.putByte key (paddr + e.1) e.2)).clearPoison bytes paddr).cacheWrite bytes paddr

/-- The device writes bytes at a physical address in the clear (records, tables, nodes: key handle 0). -/
def State.putClear (s : State) (paddr : Nat) (bs : List Byte) : State :=
  s.putBytes 0 paddr ((List.range bs.length).zip bs)

/-- A sector of a stretch is poisoned (R338). -/
def State.poisoned (s : State) (paddr len : Nat) : Bool :=
  s.poison.any (fun n => decide (32 * n < paddr + len) && decide (paddr < 32 * n + 32)) ||
    (!s.lostSets.isEmpty && (List.range ((paddr + len + 31) / 32 - paddr / 32)).any (fun i => s.isPoisoned (paddr / 32 + i)))

/-- The package's physical map (R302): memory below 1 TB. -/
def isMemory (paddr : Nat) : Bool := paddr % 2 ^ 42 < 2 ^ 40

/-- The slices of a partition in a package, in list order (R299). -/
def Partition.slicesIn (p : Partition) (pkg : Nat) : List Nat := p.slices.filter (fun sl => packageOf sl == pkg)

/-- The home slice of a physical address in a partition's window (R302). -/
def Partition.homeOf (p : Partition) (paddr : Nat) : Option Nat :=
  let pkg := paddr / 2 ^ 42
  let o := paddr % 2 ^ 42
  let lk := p.slicesIn pkg
  match p.memBase.find? pkg with
  | none => none
  | some base =>
    if base ≤ o && o < base + 2 ^ 37 * lk.length then lk[(o - base) / 4096 % lk.length]? else none

/-- The home slice of an address, whatever partition it belongs to. -/
def State.homeSlice (s : State) (paddr : Nat) : Option Nat :=
  s.parts.foldl (fun acc e => match acc with
    | some h => some h
    | none => if e.2.state == .dissolved then none else e.2.homeOf paddr) none

/-- The home class of an address for an issuer on a slice in a partition (R170). -/
def State.homeClass (s : State) (part slice paddr : Nat) : HomeClass :=
  match s.part? part with
  | none => .sys
  | some p => match p.homeOf paddr with
    | none => .sys
    | some h => if h == slice then .slice else .part

/-- A home class is among those a scope covers (R170, R171): 2 SLICE, 3 PART, 4 SYS. -/
def classCovered (scope : Nat) : HomeClass → Bool
  | .slice => decide (2 ≤ scope)
  | .part => decide (3 ≤ scope)
  | .sys => decide (4 ≤ scope)

/-- The frame ownership word that Campion writes for an address in a partition's window: V = 1 and PART, PK and CTX zero (R290,
R302); zero outside every window. -/
def State.windowWord (s : State) (paddr : Nat) : Word :=
  s.parts.foldl (fun acc e => if acc == 0 && e.2.state != .dissolved && (e.2.homeOf paddr).isSome then BitVec.ofNat 32 (2 ^ 31 + e.1 % 1024 * 2 ^ 16) else acc) 0

/-- The frame ownership word of an address, as it stands: what was written, else the window's (R290). -/
def State.frameWord (s : State) (paddr : Nat) : Word := (s.frames.find? (paddr / 65536)).getD (s.windowWord paddr)

/-- The frame ownership word as the home reads it: a word with non-zero reserved bits counts as V = 0 (R290). -/
def State.ownerWord (s : State) (paddr : Nat) : Word :=
  let w := s.frameWord paddr
  if field w.toNat 26 4 == 0 then w else 0

/-- The ownership check of R291 for an ordinary requester, or for a walker or launch unit. -/
def State.ownerOk (s : State) (unit : Bool) (part ctx paddr : Nat) : Bool :=
  let w := (s.ownerWord paddr).toNat
  let c := field w 0 16
  field w 31 1 == 1 && field w 16 10 == part &&
    (if unit then field w 30 1 == 1 || c == ctx || c == 0xFFFF else field w 30 1 == 0 && (c == ctx || c == 0xFFFF))

/-- An access of a partition to an address whose home slice another partition owns is dropped at that slice's firewall, and counted
there (R300). -/
def State.countDrop (s : State) (part paddr : Nat) : State :=
  match s.homeSlice paddr with
  | some h => if (s.slice h).owner == some part then s else s.modSlice h (fun x => { x with drops := x.drops + 1 })
  | none => s

/-! ## The memory of a context's child table (R250, R312) -/

/-- An address lies in a frame of a partition with PK = 1 (R290, R312). -/
def State.inKernelFrame (s : State) (part paddr : Nat) : Bool :=
  let w := (s.ownerWord paddr).toNat
  field w 31 1 == 1 && field w 30 1 == 1 && field w 16 10 == part

/-- The 16 bytes of a child-table entry take what the device keeps of the child (R250, R312). DESIGN CHOICE (log entry 38): no rule lays
an entry out, so its bytes are free. -/
def State.noteChild (s : State) (part ctx id : Nat) : State :=
  let a := (s.ctx part ctx).childtab.toNat + 16 * id
  if s.inKernelFrame part a then ({ s with freeCount := s.freeCount + 1 }).putClear a (leBytes 16 (Config.freeNat s.freeCount)) else s

/-- CREATE zeroes the child table (R313): its 65,536 entries of 16 bytes, where they lie in the partition kernel's frames. -/
def State.zeroChildren (s : State) (part ctx : Nat) : State :=
  let t := (s.ctx part ctx).childtab.toNat
  let gone (a : Nat) : Bool := decide (t ≤ a) && decide (a < t + 2 ^ 20) && s.inKernelFrame part a
  { s with
    mem := s.mem.filter (fun e => !gone e.1), keyOf := s.keyOf.reject (fun n _ => gone (32 * n)), poison := s.poison.filter (fun n => !gone (32 * n)),
    lostSets := s.lostSets.map (fun x => { x with healed := x.healed ++ ((List.range 32768).map (fun i => t / 32 + i)).filter (fun n => x.rehomed && gone (32 * n)) }) }

/-! ## Reaching another package (R340, R341) -/

/-- A slice's port carries packets: UP or DEGRADED (R341). -/
def State.linkUp (s : State) (slice : Nat) : Bool :=
  match (s.slice slice).port.state with
  | .up | .degraded => true
  | _ => false

/-- An address lies in another package than a slice, so that its accesses cross the slice's port. -/
def remoteOf (slice paddr : Nat) : Bool := packageOf slice != paddr / 2 ^ 42

/-- An access of a slice can reach an address's home (R341): the port of the slice carries packets, and so does the home's. -/
def State.reachable (s : State) (slice paddr : Nat) : Bool :=
  !remoteOf slice paddr || (s.linkUp slice && (match s.homeSlice paddr with | some h => s.linkUp h | none => true))

/-! ## Trace (R397 to R401) -/

/-- Records that Teasel's 8 MB of memory hold (R397, R399). -/
def teaselPlaces : Nat := 262144

/-- An event is offered to a slice's Teasel (R398 to R401). The record of a bound kernel is SEALED with a zero payload. -/
def State.trace (s : State) (slice part cls core slot ctx payload : Nat) (bound : Bool) : State :=
  s.modSlice slice (fun x =>
    let t := x.teasel
    let c := t.ctl.toNat
    if field c 0 2 == 0 || field c (7 + cls) 1 == 0 then x
    else if x.owner != some part then { x with teasel := { t with dropb := t.dropb + 1 } }
    else if teaselPlaces ≤ t.held.length then { x with teasel := { t with drops := t.drops + 1 } }
    else
      let r : TraceRec := { time := (s.package (packageOf slice)).clk, cls := cls, sealed := bound, core := core, slot := slot, ctx := ctx,
                            payload := if bound then 0 else payload }
      { x with teasel := { t with held := t.held ++ [r] } })

/-- An event of a sheaf is offered to the Teasel of its slice. -/
def State.traceSheaf (s : State) (sh : Sheaf) (cls payload : Nat) : State :=
  s.trace (sliceOf sh.core) (s.partOf sh) cls (coreIn sh.core) sh.slotNo (s.ctxOf sh) payload (s.boundOf sh)

/-- An event of a tuft is offered to the Teasel of its slice, under the slot of its first sheaf. -/
def State.traceTuft (s : State) (t : Tuft) (cls payload : Nat) : State :=
  match s.kernel? t.kid with
  | some k =>
    s.trace (sliceOf t.core) k.part cls (coreIn t.core) (match t.sheaves.head?.bind s.sheaf? with | some sh => sh.slotNo | none => 0) k.ctx payload
      k.bound
  | none => s

/-- Two fields of a payload, each in 8 bytes (R399, log entry 21). -/
def payload2 (a b : Nat) : Nat := a % 2 ^ 64 + b % 2 ^ 64 * 2 ^ 64

/-- The record number or child id of a kernel (R399). -/
def Kernel.number (k : Kernel) : Nat := match k.child with | some id => id | none => k.record

/-- A launch is offered to the Teasel of the launch unit's slice (R399). -/
def State.traceLaunch (s : State) (k : Kernel) (bound : Bool) : State := s.trace k.slice k.part 1 255 0 k.ctx (payload2 k.number k.entry) bound

/-! ## Fault records (R332 to R335) -/

/-- The bytes of a record (R333). -/
def FaultRec.bytes (r : FaultRec) : List Byte :=
  leBytes 4 r.code.toNat ++ leBytes 4 r.source.toNat ++ leBytes 2 r.ctx ++ leBytes 2 r.part ++ leBytes 4 r.token ++
  leBytes 8 r.va.toNat ++ leBytes 8 r.pc.toNat ++ leBytes 4 r.lanes.toNat ++ leBytes 4 r.word.toNat ++
  leBytes 8 r.kernel.toNat ++ leBytes 8 r.tuft ++ leBytes 8 r.detail.toNat

/-- A reply is expected for a record: CODE[24] (R333). -/
def FaultRec.reply (r : FaultRec) : Bool := r.code.getLsbD 24

/-- The fault queue's interrupt (R301), queue errors, mailbox replies and the service ring, as events of a slice. -/
def irqFault : Nat := 0
/-- The service ring's interrupt route (R301). -/
def irqService : Nat := 1
/-- The queue-error interrupt route (R301). -/
def irqQueue : Nat := 2
/-- The mailbox reply interrupt route (R301). -/
def irqMailbox : Nat := 3

/-- A queue is registered (R332): its ring has 2^LOG2N records, LOG2N 6 to 16. -/
def FaultQueue.registered (q : FaultQueue) : Bool := decide (6 ≤ q.log2n) && decide (q.log2n ≤ 16) && q.base % 4096 == 0

/-- Write one record into the ring of a slice and signal its route, the ring having room (R332). DESIGN CHOICE (log entry 77): a record
whose place lies in no frame of the partition with PK = 1 is discarded at the home, and WRIDX advances and the route is signalled. -/
def State.writeRecord (s : State) (slice : Nat) (r : FaultRec) : State :=
  let q := (s.slice slice).faultq
  let a := q.base + 64 * (q.wridx % 2 ^ q.log2n)
  let s := if s.inKernelFrame r.part a then s.putClear a r.bytes else s.countDrop r.part a
  s.modSlice slice (fun x => { x with faultq := { x.faultq with wridx := x.faultq.wridx + 1 }, interrupts := x.interrupts ++ [irqFault] })

/-- The ring of a slice has room for a record. -/
def FaultQueue.room (q : FaultQueue) : Bool := q.registered && decide (q.wridx - q.rdidx < 2 ^ q.log2n)

/-- Post a record (R332): into the ring; held in the slice where the ring is full or none is registered (64 places; a
record that expects a reply waits beyond them); else dropped and counted. -/
def State.postRecord (s : State) (slice : Nat) (r : FaultRec) : State :=
  let q := (s.slice slice).faultq
  if q.room && q.held.isEmpty then s.writeRecord slice r
  else if q.held.length < 64 || r.reply then s.modSlice slice (fun x => { x with faultq := { x.faultq with held := x.faultq.held ++ [r] } })
  else s.modSlice slice (fun x => { x with faultq := { x.faultq with lost := x.faultq.lost + 1 } })

/-- Records that wait enter the ring while it has room (R332). -/
def State.drainRecords (s : State) (slice : Nat) : Nat → State
  | 0 => s
  | fuel + 1 =>
    let q := (s.slice slice).faultq
    match q.held with
    | r :: rest =>
      if q.room then
        ((s.modSlice slice (fun x => { x with faultq := { x.faultq with held := rest } })).writeRecord slice r).drainRecords slice fuel
      else s
    | [] => s

/-- What a system fault says (R334): code, reason, address, lanes, DETAIL, whether a reply is expected. -/
structure SysFault where
  code   : Nat
  reason : Nat
  va     : Addr
  lanes  : Mask
  detail : Nat
  reply  : Bool
  deriving DecidableEq, Repr

/-- Codes of R334. -/
def fPage : Nat := 1
/-- WALK (R334). -/
def fWalk : Nat := 2
/-- PTE_RESERVED (R334). -/
def fPte : Nat := 3
/-- PROT (R334). -/
def fProt : Nat := 4
/-- KEY_SLOT (R334). -/
def fKeySlot : Nat := 5
/-- MARK_FLOW (R334). -/
def fMarkFlow : Nat := 6
/-- FILL_OWNER (R334). -/
def fFillOwner : Nat := 7
/-- MEMERR (R334). -/
def fMemErr : Nat := 8
/-- UNHANDLED (R334). -/
def fUnhandled : Nat := 9
/-- DOUBLE_TRAP (R334). -/
def fDoubleTrap : Nat := 10
/-- RUNMAX (R334). -/
def fRunmax : Nat := 11
/-- RECALLED (R334). -/
def fRecalled : Nat := 12
/-- RESIZED (R334). -/
def fResized : Nat := 13
/-- SVC_FAULT (R334). -/
def fSvc : Nat := 14
/-- SAVE_CORRUPT (R334). -/
def fSaveCorrupt : Nat := 15
/-- QUEUE_FETCH (R334). -/
def fQueueFetch : Nat := 16
/-- SLICE_LOST (R334). -/
def fSliceLost : Nat := 17

/-- A translation or protection fault, replayable (R292, R334), at an address for some lanes. -/
def SysFault.replayable (code reason : Nat) (va : Addr) (lanes : Mask) (detail : Nat) : SysFault :=
  { code := code, reason := reason, va := va, lanes := lanes, detail := detail, reply := true }

/-- An ending fault (R334). -/
def SysFault.ending (code : Nat) (lanes : Mask) (detail : Nat) : SysFault :=
  { code := code, reason := 0, va := 0, lanes := lanes, detail := detail, reply := false }

/-- The KERNEL field of a record (R333). -/
def kernelField (k : Kernel) : BitVec 64 :=
  match k.child with
  | some c => BitVec.ofNat 64 (c % 65536 + 2 ^ 24)
  | none => BitVec.ofNat 64 (k.record % 65536 + k.entry % 256 * 2 ^ 16)

/-- The slice whose fault queue serves a partition's agent on a slice: its own, or the kernel's launch unit's where the
slice is lent, the borrower's faults going to the borrower (R338). -/
def State.faultSlice (s : State) (slice part : Nat) (launch : Nat) : Nat :=
  if (s.slice slice).owner == some part then slice else launch

/-- Give a record its token, unique in the partition, and remember what it serves (R335). -/
def State.newToken (s : State) (part : Nat) (t : Token) : Nat × State :=
  match s.part? part with
  | none => (0, s)
  | some p => (p.nextToken, s.setPart part { p with nextToken := p.nextToken + 1, tokens := p.tokens.put p.nextToken t })

/-- An access of a partition whose home slice another partition owns is dropped at that slice's firewall, and counted there (R300): its
FILL_OWNER names the physical address. -/
def State.countForeign (s : State) (part : Nat) (f : SysFault) : State :=
  if f.code == fFillOwner then s.countDrop part f.detail else s

/-- Post the record of a fault of a sheaf (R332, R333) with what waits for its reply; the token comes back. -/
def State.postSheafFault (s : State) (sid : Nat) (slot : Slot) (f : SysFault) (use : TokenUse) : Nat × State :=
  match s.sheaf? sid with
  | none => (0, s)
  | some sh =>
    let part := s.partOf sh
    let slice := sliceOf sh.core
    let kid := (s.tuft? sh.tid).map Tuft.kid
    let restart := modeRestart sh.mode
    let reply := f.reply && !restart
    let tk := s.newToken part { use := use, pending := reply || (f.reply && restart), tid := some sh.tid, kid := kid, lanes := f.lanes, code := f.code }
    let r : FaultRec :=
      { code := BitVec.ofNat 32 (f.code + f.reason * 2 ^ 16 + (if reply then 2 ^ 24 else 0) +
          (if sh.handler.isSome then 2 ^ 25 else 0) + (if restart then 2 ^ 26 else 0)),
        source := BitVec.ofNat 32 (coreIn sh.core + sh.slotNo * 2 ^ 8 + sliceIn slice * 2 ^ 14 + packageOf slice * 2 ^ 17),
        ctx := s.ctxOf sh, part := part, token := tk.1, va := f.va, pc := slot.group, lanes := f.lanes, word := slot.word,
        kernel := match s.kernelOf? sh with | some k => kernelField k | none => 0,
        tuft := match s.tuft? sh.tid with | some t => t.index | none => 0,
        detail := BitVec.ofNat 64 f.detail }
    let launch := match s.kernelOf? sh with | some k => k.slice | none => slice
    let s := (tk.2.countForeign part f).postRecord (tk.2.faultSlice slice part launch) r
    (tk.1, s.traceSheaf sh 9 f.code)

/-- Post a record of a slice-level agent (R333: SOURCE core 0xFF), naming a kernel where one is concerned. -/
def State.postSliceFault (s : State) (slice part : Nat) (f : SysFault) (use : TokenUse) (ctx : Nat) (kid : Option Nat)
    (kernel : BitVec 64) (tid : Option Nat) : Nat × State :=
  let tk := s.newToken part { use := use, pending := f.reply, tid := tid, kid := kid, lanes := f.lanes, code := f.code }
  let r : FaultRec :=
    { code := BitVec.ofNat 32 (f.code + f.reason * 2 ^ 16 + (if f.reply then 2 ^ 24 else 0)),
      source := BitVec.ofNat 32 (255 + sliceIn slice * 2 ^ 14 + packageOf slice * 2 ^ 17),
      ctx := ctx, part := part, token := tk.1, va := f.va, pc := 0, lanes := f.lanes, word := 0, kernel := kernel,
      tuft := match tid.bind s.tuft? with | some t => t.index | none => 0, detail := BitVec.ofNat 64 f.detail }
  let bound := match kid.bind s.kernel? with | some k => k.bound | none => false
  (tk.1, ((tk.2.countForeign part f).postRecord slice r).trace slice part 9 255 0 ctx f.code bound)

/-! ## Lanes fault (R18, R33, R210, R275) -/

/-- A sheaf is gone from a group: EXITED, or retired by BARVN (R273). -/
def Sheaf.gone (sh : Sheaf) (g : Nat) : Bool := sh.state == .exited || sh.ret.contains g

/-- Role code r belongs to a role set of a ring word (R209). -/
def roleIn (set : BitVec 4) (r : Role) : Bool :=
  set.getLsbD (match r with | .general => 0 | .stage => 1 | .matrix => 2 | .vector => 3)

/-- A sheaf is a member of an entry and has not retired from it (R273). -/
def Sheaf.memberOf (sh : Sheaf) (e : GroupEntry) : Bool := hasLane e.members sh.idx && !sh.ret.contains e.number

/-- A sheaf that has become FAULTED poisons the groups it is not gone from (R275), in which it counts as arrived no more, and the
rings it produces into and has not closed (R210). -/
def Tuft.poisonedBy (t : Tuft) (sh : Sheaf) : Tuft :=
  { t with
    groups := t.groups.map (fun e => if sh.memberOf e then
      { e with poison := true, arrived := if sh.arr.contains e.number then e.arrived - 1 else e.arrived } else e),
    rings := (List.range t.rings.length).zip t.rings |>.map (fun e =>
      if roleIn e.2.prod sh.role && !sh.closed.contains e.1 then { e.2 with poisoned := true } else e.2) }

/-- BARPOISON (R331). -/
def cBarPoison : Nat := 16

/-- The wait of a sheaf in one of some groups ends in BARPOISON (R275), unless its condition has been met already. -/
def Sheaf.poisonWait (sh : Sheaf) (groups : List Nat) : Sheaf :=
  match sh.wait with
  | some w =>
    let hit := match w.kind with | .barrier g _ => groups.contains g | .arrival g => groups.contains g | _ => false
    if hit && w.done.isNone then { sh with wait := some { w with done := some cBarPoison } } else sh
  | none => sh

/-- What a sheaf that has become FAULTED does to its tuft: groups and rings are poisoned, and the waits in those groups end (R210,
R275). -/
def State.poisonBy (s : State) (sh : Sheaf) : State :=
  match s.tuft? sh.tid with
  | none => s
  | some t =>
    let groups := (t.groups.filter sh.memberOf).map GroupEntry.number
    (s.setTuft sh.tid (t.poisonedBy sh)).forEach t.sheaves (fun s y => s.modSheaf y (fun x => x.poisonWait groups))

/-- The lanes that end in a handler are frozen where they are, and XPCR reads that (R18, R147). -/
def Sheaf.freezeXpc (sh : Sheaf) (lanes : Mask) : Option Saved :=
  sh.handler.map (fun h => { h with xpc := laneNumbers.map (fun l => if hasLane lanes l then sh.pc l else h.xpc.getD l 0) })

/-- Lanes of a sheaf become FAULTED; with no live lane left the sheaf is FAULTED and poisons what it takes part in (R18,
R33, R275). -/
def State.faultLanes (s : State) (sid : Nat) (lanes : Mask) : State :=
  match s.sheaf? sid with
  | none => s
  | some sh =>
    if sh.state == .exited || sh.state == .faulted then s
    else
      let sh1 := { sh with faulted := sh.faulted ||| (lanes &&& sh.live), handler := sh.freezeXpc (lanes &&& sh.live) }
      if sh1.live != 0 then s.setSheaf sid sh1
      else
        let sh2 := { sh1 with state := .faulted, handler := none, wait := none, hints := Hints.none, second := none,
                              round := Round.none, arrival := none }
        (s.setSheaf sid { sh2 with arr := [] }).poisonBy sh2

/-- Every live lane of a sheaf becomes FAULTED. -/
def State.faultSheaf (s : State) (sid : Nat) : State := s.faultLanes sid allLanes

/-- An ending fault of a sheaf: its record, then its live lanes FAULTED (R334). -/
def State.endSheaf (s : State) (sid : Nat) (slot : Slot) (f : SysFault) : State :=
  (s.postSheafFault sid slot f .info).2.faultSheaf sid

/-! ## Traps (R328, R330, R331, R336, R146) -/

/-- A user trap (R331): cause, SUB, lane, TINFO, whether issuing lanes resume after the instruction, and the repeats left
(R95). -/
structure TrapInfo where
  cause  : Nat
  sub    : Nat
  lane   : Nat
  info   : BitVec 64
  after  : Bool
  reprem : Nat
  deriving DecidableEq, Repr

/-- A precise trap at its instruction. -/
def TrapInfo.at (cause sub lane : Nat) (info : BitVec 64) : TrapInfo :=
  { cause := cause, sub := sub, lane := lane, info := info, after := false, reprem := 0 }

/-- Cause codes of R331. -/
def cIllegal : Nat := 1
/-- ROLE (R331). -/
def cRole : Nat := 2
/-- UNIFORM_DIVERGENCE (R331). -/
def cDivergence : Nat := 3
/-- AWRAP (R331). -/
def cAwrap : Nat := 4
/-- DEMOTE (R331). -/
def cDemote : Nat := 5
/-- LOOKAHEAD (R331). -/
def cLookahead : Nat := 6
/-- MHAZARD (R331). -/
def cMhazard : Nat := 7
/-- MFUSE (R331). -/
def cMfuse : Nat := 8
/-- SWIZZLE (R331). -/
def cSwizzle : Nat := 9
/-- WSPILL (R331). -/
def cWspill : Nat := 10
/-- WFILL (R331). -/
def cWfill : Nat := 11
/-- BKPT (R331). -/
def cBkpt : Nat := 12
/-- TRAP (R331). -/
def cTrap : Nat := 13
/-- RING_CLOSED (R331). -/
def cRingClosed : Nat := 14
/-- RING_POISON (R331). -/
def cRingPoison : Nat := 15
/-- PARAM_UNBOUND (R331). -/
def cParamUnbound : Nat := 17
/-- HANDLE (R331). -/
def cHandle : Nat := 18

/-- A cause belongs to the whole sheaf (R330, R331): UNIFORM_DIVERGENCE, AWRAP, MFUSE, WSPILL, WFILL and causes 14 to 16. -/
def wholeSheafCause (c : Nat) : Bool :=
  c == cDivergence || c == cAwrap || c == cMfuse || c == cWspill || c == cWfill || c == cRingClosed || c == cRingPoison || c == cBarPoison

/-- LANE (R330): a lane the cause names itself, else the lowest lane of the issuing set that raised it, for BKPT and TRAP the lowest
acting one; 0 where the cause belongs to the whole sheaf. -/
def TrapInfo.named (t : TrapInfo) (slot : Slot) : TrapInfo :=
  if t.lane != 0 || wholeSheafCause t.cause then t else { t with lane := lowestLane (if t.after then slot.acting else slot.lanes) }

/-- The TCAUSE word (R330). -/
def tcauseWord (t : TrapInfo) : Word := BitVec.ofNat 32 (t.cause + t.lane * 2 ^ 8 + t.sub * 2 ^ 13)

/-- The trap entry of a sheaf's kernel; 0 is none (R230). -/
def State.trapEntryOf (s : State) (sh : Sheaf) : Addr := match s.kernelOf? sh with | some k => k.desc.trapent | none => 0

/-- A sheaf that holds handler status meets a second cause (R336): DOUBLE_TRAP, every live lane FAULTED. -/
def State.doubleTrap (s : State) (sid : Nat) (slot : Slot) (second : Nat) : State :=
  match s.sheaf? sid with
  | none => s
  | some sh =>
    let first := match sh.handler with | some h => h.tcause.toNat % 65536 | none => 0
    s.endSheaf sid slot (SysFault.ending fDoubleTrap sh.live (first + second * 2 ^ 16))

/-- The sheaf as trap entry leaves it (R328, R145, R95): the lane PCs, loop slots, round and REPREM saved, the loop slots
clear, every live lane at the trap entry, windows closed, prefixes gone. -/
def Sheaf.enterTrap (sh : Sheaf) (slot : Slot) (t : TrapInfo) (entry : Addr) : Sheaf :=
  let resume := if t.after then addrAdd slot.addr 4 else slot.group
  let xpc := laneNumbers.map (fun l => if hasLane slot.lanes l && hasLane sh.live l then resume else sh.pc l)
  let saved : Saved := { xpc := xpc, loop0 := sh.loop0, loop1 := sh.loop1, round := sh.round, reprem := t.reprem, second := if t.after then none else sh.second, tcause := tcauseWord t, tinfo := t.info }
  { (sh.setPcs sh.live (fun _ => entry)).closeWindows with
    handler := some saved, loop0 := LoopSlot.zero, loop1 := LoopSlot.zero, round := Round.none, reprem := 0, began := none, moved := 0,
    hints := Hints.none, second := none, wait := none, state := .trapped }

/-- Taking a user trap (R328): a double trap for a sheaf that holds handler status, UNHANDLED where the kernel has no trap
entry, else the handler. -/
def State.trap (s : State) (slot : Slot) (t : TrapInfo) : State :=
  match s.sheaf? slot.sid with
  | none => s
  | some sh =>
    if sh.handler.isSome then s.doubleTrap slot.sid slot t.cause
    else
      let entry := s.trapEntryOf sh
      let u := t.named slot
      if entry == 0 then s.endSheaf slot.sid slot { SysFault.ending fUnhandled sh.live (tcauseWord u).toNat with reason := u.cause }
      else (s.setSheaf slot.sid (sh.enterTrap slot u entry)).traceSheaf sh 9 (tcauseWord u).toNat

/-- Return from a handler (R146): the live lanes' PCs from XPC, loop slots, round, REPREM and second slot as saved, the sheaf ACTIVE. -/
def Sheaf.returnTrap (sh : Sheaf) (h : Saved) : Sheaf :=
  { (sh.setPcs sh.live (fun l => h.xpc.getD l 0)).closeWindows with
    loop0 := h.loop0, loop1 := h.loop1, round := h.round, reprem := h.reprem, second := h.second, handler := none, state := .active }

/-! ## Refused control writes (R304) -/

/-- A refused write is counted in the slice, with its offset (R304). -/
def State.refuse (s : State) (slice offset : Nat) : State :=
  s.modSlice slice (fun x => { x with refusedCount := min (x.refusedCount + 1) 0xFFFFFFFF, refusedOffset := offset })

end Sys2Proof.Machine
end

