-- ==== Sys2Proof/WellFormed.lean ====
section
/-!
DEFINITION. Which instruction words are well formed: the guard field, the register files a field may name, the alignment of
pairs, quads and octets, and the modifiers of each instruction (R83, R85 to R91 and the table of each instruction's chapter).
Codes and must-be-zero fields are the decoder's. What depends on the tuft (its tiles, tags and rings) is judged at issue.
-/
namespace Sys2Proof

/-- G and N of an instruction that may be guarded (R83). -/
def guardOk (g n : Nat) : Bool := decide (g < 12) || (g == 15 && n == 0)

/-- An operand byte that names a varying register (R85). -/
def isV (b : Nat) : Bool := decide (b < 32)
/-- An operand byte that names an affine register (R85). -/
def isA (b : Nat) : Bool := decide (32 ≤ b) && decide (b < 64)
/-- An operand byte that names a uniform register (R85). -/
def isU (b : Nat) : Bool := decide (64 ≤ b) && decide (b < 256)
/-- An even uniform register: a pair (R85). -/
def evenU (b : Nat) : Bool := isU b && b % 2 == 0
/-- A uniform register that is a multiple of 4: a quad (R85). -/
def quadU (b : Nat) : Bool := isU b && b % 4 == 0
/-- A uniform register that is a multiple of 8 (R85). -/
def octU (b : Nat) : Bool := isU b && b % 8 == 0
/-- A varying register number that is a multiple of k (R85). -/
def alignV (k d : Nat) : Bool := isV d && d % k == 0
/-- A predicate number (R85). -/
def predOk (p : Nat) : Bool := decide (p < 12)
/-- A cache hint of an ME store (R88). -/
def cacheOk (c : Nat) : Bool := decide (c < 3)
/-- A scope of the SY format (R88). -/
def scopeOk (s : Nat) : Bool := decide (s < 5)

/-- The fields of a UR instruction (R125). -/
def okUR (s b : Nat) : Bool := isU s && isU b
/-- The fields of SADD.W and SSUB.W (R128). -/
def okURW (s b : Nat) : Bool := evenU s && evenU b
/-- The fields of SMOVP (R91). -/
def okSmovp (s b : Nat) : Bool := isU s && predOk b
/-- The fields of PMOVS (R91). -/
def okPmovs (s b : Nat) : Bool := predOk s && isU b

/-- The numbers of the special registers (R47). -/
def srKnown (r : Nat) : Bool :=
  [0x00, 0x01, 0x02, 0x03, 0x04, 0x05, 0x06, 0x08, 0x09, 0x0A, 0x0C, 0x10, 0x11, 0x12, 0x13, 0x18, 0x19, 0x1A, 0x1B, 0x1C,
   0x1D, 0x1E, 0x20, 0x21, 0x24, 0x25, 0x26].contains r
/-- The special registers of 64 bits (R47). -/
def srWide (r : Nat) : Bool := [0x0C, 0x1A, 0x1B, 0x1C, 0x1D, 0x21, 0x26].contains r
/-- The special registers that SWR may write, some only in a handler (R47). -/
def srWritable (r : Nat) : Bool := [0x10, 0x12, 0x18, 0x19, 0x1A, 0x1B, 0x1C, 0x1D, 0x1E, 0x24, 0x25].contains r
/-- The special registers that SWR may write only in a handler (R47). -/
def srHandler (r : Nat) : Bool := [0x1E, 0x24, 0x25].contains r
/-- The fields of SRD (R47, R131). -/
def okSrd (s r : Nat) : Bool := isU s && srKnown r && (!srWide r || s % 2 == 0)
/-- The fields of SWR (R47, R131). -/
def okSwr (s r : Nat) : Bool := isU s && srWritable r && (!srWide r || s % 2 == 0)

/-- M and the member predicate of a lane reduction (R91). -/
def okMember (m p : Nat) : Bool := if m == 1 then predOk p else p == 0
/-- An operation code of ATOML and ATOMS (R89). -/
def okAtomOp (o : Nat) : Bool := decide (o < 12) || o == 15
/-- CAS and ADD.W name an even register (R165, R169). -/
def okAtomPair (o d : Nat) : Bool := !(o == 10 || o == 15) || d % 2 == 0
/-- The fields of MMA that do not depend on the tuft (R177). -/
def okMma (fuse vb ad typ asrc : Nat) : Bool :=
  decide (typ < 9) && decide (asrc < 2) && (if typ % 3 == 2 then vb % 8 == 0 else vb % 4 == 0) &&
    (asrc == 0 || (typ / 3 == 2 && ad % 2 == 0 && (fuse == 0 || fuse == 3)))

/-- An instruction is well formed. An event is a happening of the machine and has no fields of a word. -/
def Instr.wf : Instr → Bool
  | .vadd g n _ _ _ => guardOk g.toNat n.toNat
  | .vsub g n _ _ _ => guardOk g.toNat n.toNat
  | .vsubr g n _ _ _ => guardOk g.toNat n.toNat
  | .vminS g n _ _ _ => guardOk g.toNat n.toNat
  | .vmaxS g n _ _ _ => guardOk g.toNat n.toNat
  | .vminU g n _ _ _ => guardOk g.toNat n.toNat
  | .vmaxU g n _ _ _ => guardOk g.toNat n.toNat
  | .vadifS g n _ _ _ => guardOk g.toNat n.toNat
  | .vand g n _ _ _ => guardOk g.toNat n.toNat
  | .vor g n _ _ _ => guardOk g.toNat n.toNat
  | .vxor g n _ _ _ => guardOk g.toNat n.toNat
  | .vandn g n _ _ _ => guardOk g.toNat n.toNat
  | .vshl g n _ _ _ => guardOk g.toNat n.toNat
  | .vshrU g n _ _ _ => guardOk g.toNat n.toNat
  | .vshrS g n _ _ _ => guardOk g.toNat n.toNat
  | .vrotl g n _ _ _ => guardOk g.toNat n.toNat
  | .vmul g n _ _ _ => guardOk g.toNat n.toNat
  | .vmulhS g n _ _ _ => guardOk g.toNat n.toNat
  | .vmulhU g n _ _ _ => guardOk g.toNat n.toNat
  | .vmad g n _ _ _ => guardOk g.toNat n.toNat
  | .vaddsS g n _ _ _ => guardOk g.toNat n.toNat
  | .vsubsS g n _ _ _ => guardOk g.toNat n.toNat
  | .vaddsU g n _ _ _ => guardOk g.toNat n.toNat
  | .vsubsU g n _ _ _ => guardOk g.toNat n.toNat
  | .vpopc g n _ _ => guardOk g.toNat n.toNat
  | .vclz g n _ _ => guardOk g.toNat n.toNat
  | .vbrev g n _ _ => guardOk g.toNat n.toNat
  | .vbfeU g n _ _ _ => guardOk g.toNat n.toNat
  | .vbfeS g n _ _ _ => guardOk g.toNat n.toNat
  | .vbfi g n _ _ _ => guardOk g.toNat n.toNat
  | .vpermb g n _ _ _ => guardOk g.toNat n.toNat
  | .vmov g n _ _ => guardOk g.toNat n.toNat
  | .vfadd g n _ _ _ => guardOk g.toNat n.toNat
  | .vfsub g n _ _ _ => guardOk g.toNat n.toNat
  | .vfmul g n _ _ _ => guardOk g.toNat n.toNat
  | .vfma g n _ _ _ => guardOk g.toNat n.toNat
  | .vfnma g n _ _ _ => guardOk g.toNat n.toNat
  | .vfmin g n _ _ _ => guardOk g.toNat n.toNat
  | .vfmax g n _ _ _ => guardOk g.toNat n.toNat
  | .vfcpys g n _ _ _ => guardOk g.toNat n.toNat
  | .vhadd2 g n _ _ _ => guardOk g.toNat n.toNat
  | .vhsub2 g n _ _ _ => guardOk g.toNat n.toNat
  | .vhmul2 g n _ _ _ => guardOk g.toNat n.toNat
  | .vhfma2 g n _ _ _ => guardOk g.toNat n.toNat
  | .vhmin2 g n _ _ _ => guardOk g.toNat n.toNat
  | .vhmax2 g n _ _ _ => guardOk g.toNat n.toNat
  | .vcvtF32Si32 g n _ _ _ => guardOk g.toNat n.toNat
  | .vcvtF32Ui32 g n _ _ _ => guardOk g.toNat n.toNat
  | .vcvtSi32F32 g n _ _ _ => guardOk g.toNat n.toNat
  | .vcvtUi32F32 g n _ _ _ => guardOk g.toNat n.toNat
  | .vfrint g n _ _ _ => guardOk g.toNat n.toNat
  | .vcvtF32Bf16 g n _ p _ => guardOk g.toNat n.toNat && decide (p.toNat < 2)
  | .vcvtF32E4m3 g n _ _ _ => guardOk g.toNat n.toNat
  | .vcvtF32E5m2 g n _ _ _ => guardOk g.toNat n.toNat
  | .vcvtBf16F32 g n _ p _ => guardOk g.toNat n.toNat && decide (p.toNat < 2)
  | .vcvtE4m3F32 g n _ _ _ => guardOk g.toNat n.toNat
  | .vcvtE5m2F32 g n _ _ _ => guardOk g.toNat n.toNat
  | .vfclass g n _ _ => guardOk g.toNat n.toNat
  | .vfgetexp g n _ _ => guardOk g.toNat n.toNat
  | .vfscaleb g n _ _ => guardOk g.toNat n.toNat
  | .vrcp g n _ _ _ => guardOk g.toNat n.toNat
  | .vrsq g n _ _ _ => guardOk g.toNat n.toNat
  | .vsqrt g n _ _ _ => guardOk g.toNat n.toNat
  | .vexp2 g n _ _ _ => guardOk g.toNat n.toNat
  | .vlog2 g n _ _ _ => guardOk g.toNat n.toNat
  | .vsinpi g n _ _ _ => guardOk g.toNat n.toNat
  | .vcospi g n _ _ _ => guardOk g.toNat n.toNat
  | .vtanh g n _ _ _ => guardOk g.toNat n.toNat
  | .vcmpI g n p _ _ c => guardOk g.toNat n.toNat && predOk p.toNat && decide (c.toNat < 12)
  | .vcmpF g n p _ _ c => guardOk g.toNat n.toNat && predOk p.toNat && decide (c.toNat < 8)
  | .pand g n d a b => guardOk g.toNat n.toNat && predOk d.toNat && predOk a.toNat && predOk b.toNat
  | .por g n d a b => guardOk g.toNat n.toNat && predOk d.toNat && predOk a.toNat && predOk b.toNat
  | .pxor g n d a b => guardOk g.toNat n.toNat && predOk d.toNat && predOk a.toNat && predOk b.toNat
  | .pandn g n d a b => guardOk g.toNat n.toNat && predOk d.toNat && predOk a.toNat && predOk b.toNat
  | .pnot g n d a => guardOk g.toNat n.toNat && predOk d.toNat && predOk a.toNat
  | .pmov g n d a => guardOk g.toNat n.toNat && predOk d.toNat && predOk a.toNat
  | .pset g n d => guardOk g.toNat n.toNat && predOk d.toNat
  | .pclr g n d => guardOk g.toNat n.toNat && predOk d.toNat
  | .vrank g n a _ => guardOk g.toNat n.toNat && predOk a.toNat
  | .shflIdx g n _ _ _ _ => guardOk g.toNat n.toNat
  | .shflXor g n _ _ _ _ => guardOk g.toNat n.toNat
  | .shflUp g n _ _ _ _ => guardOk g.toNat n.toNat
  | .shflDn g n _ _ _ _ => guardOk g.toNat n.toNat
  | .sadd g n s b => guardOk g.toNat n.toNat && okUR s.toNat b.toNat
  | .ssub g n s b => guardOk g.toNat n.toNat && okUR s.toNat b.toNat
  | .ssubr g n s b => guardOk g.toNat n.toNat && okUR s.toNat b.toNat
  | .smul g n s b => guardOk g.toNat n.toNat && okUR s.toNat b.toNat
  | .smulhS g n s b => guardOk g.toNat n.toNat && okUR s.toNat b.toNat
  | .smulhU g n s b => guardOk g.toNat n.toNat && okUR s.toNat b.toNat
  | .sdivS g n s b => guardOk g.toNat n.toNat && okUR s.toNat b.toNat
  | .sdivU g n s b => guardOk g.toNat n.toNat && okUR s.toNat b.toNat
  | .sremS g n s b => guardOk g.toNat n.toNat && okUR s.toNat b.toNat
  | .sremU g n s b => guardOk g.toNat n.toNat && okUR s.toNat b.toNat
  | .sand g n s b => guardOk g.toNat n.toNat && okUR s.toNat b.toNat
  | .sor g n s b => guardOk g.toNat n.toNat && okUR s.toNat b.toNat
  | .sxor g n s b => guardOk g.toNat n.toNat && okUR s.toNat b.toNat
  | .sandn g n s b => guardOk g.toNat n.toNat && okUR s.toNat b.toNat
  | .sshl g n s b => guardOk g.toNat n.toNat && okUR s.toNat b.toNat
  | .sshrU g n s b => guardOk g.toNat n.toNat && okUR s.toNat b.toNat
  | .sshrS g n s b => guardOk g.toNat n.toNat && okUR s.toNat b.toNat
  | .sminS g n s b => guardOk g.toNat n.toNat && okUR s.toNat b.toNat
  | .smaxS g n s b => guardOk g.toNat n.toNat && okUR s.toNat b.toNat
  | .sminU g n s b => guardOk g.toNat n.toNat && okUR s.toNat b.toNat
  | .smaxU g n s b => guardOk g.toNat n.toNat && okUR s.toNat b.toNat
  | .smov g n s b => guardOk g.toNat n.toNat && okUR s.toNat b.toNat
  | .spopc g n s b => guardOk g.toNat n.toNat && okUR s.toNat b.toNat
  | .sclz g n s b => guardOk g.toNat n.toNat && okUR s.toNat b.toNat
  | .sseq g n s b => guardOk g.toNat n.toNat && okUR s.toNat b.toNat
  | .ssne g n s b => guardOk g.toNat n.toNat && okUR s.toNat b.toNat
  | .ssltS g n s b => guardOk g.toNat n.toNat && okUR s.toNat b.toNat
  | .ssltU g n s b => guardOk g.toNat n.toNat && okUR s.toNat b.toNat
  | .saddW g n s b => guardOk g.toNat n.toNat && okURW s.toNat b.toNat
  | .ssubW g n s b => guardOk g.toNat n.toNat && okURW s.toNat b.toNat
  | .smovp g n s b => guardOk g.toNat n.toNat && okSmovp s.toNat b.toNat
  | .pmovs g n s b => guardOk g.toNat n.toNat && okPmovs s.toNat b.toNat
  | .sfadd g n s b => guardOk g.toNat n.toNat && okUR s.toNat b.toNat
  | .sfsub g n s b => guardOk g.toNat n.toNat && okUR s.toNat b.toNat
  | .sfmul g n s b => guardOk g.toNat n.toNat && okUR s.toNat b.toNat
  | .sfdiv g n s b => guardOk g.toNat n.toNat && okUR s.toNat b.toNat
  | .sfsqrt g n s b => guardOk g.toNat n.toNat && okUR s.toNat b.toNat
  | .sfrcp g n s b => guardOk g.toNat n.toNat && okUR s.toNat b.toNat
  | .sfrsq g n s b => guardOk g.toNat n.toNat && okUR s.toNat b.toNat
  | .sfmin g n s b => guardOk g.toNat n.toNat && okUR s.toNat b.toNat
  | .sfmax g n s b => guardOk g.toNat n.toNat && okUR s.toNat b.toNat
  | .scvtF32Si32 g n s b => guardOk g.toNat n.toNat && okUR s.toNat b.toNat
  | .scvtF32Ui32 g n s b => guardOk g.toNat n.toNat && okUR s.toNat b.toNat
  | .scvtSi32F32 g n s b => guardOk g.toNat n.toNat && okUR s.toNat b.toNat
  | .scvtUi32F32 g n s b => guardOk g.toNat n.toNat && okUR s.toNat b.toNat
  | .scvtSi32F32Rn g n s b => guardOk g.toNat n.toNat && okUR s.toNat b.toNat
  | .sflt g n s b => guardOk g.toNat n.toNat && okUR s.toNat b.toNat
  | .sfle g n s b => guardOk g.toNat n.toNat && okUR s.toNat b.toNat
  | .sfeq g n s b => guardOk g.toNat n.toNat && okUR s.toNat b.toNat
  | .smovi g n s _ => guardOk g.toNat n.toNat && isU s.toNat
  | .saddi g n s _ => guardOk g.toNat n.toNat && isU s.toNat
  | .srd g n s r => guardOk g.toNat n.toNat && okSrd s.toNat r.toNat
  | .swr g n s r => guardOk g.toNat n.toNat && okSwr s.toNat r.toNat
  | .agetb g n s r => guardOk g.toNat n.toNat && isU s.toNat && isA r.toNat
  | .agets g n s r => guardOk g.toNat n.toNat && isU s.toNat && isA r.toNat
  | .agetw g n s r => guardOk g.toNat n.toNat && isU s.toNat && isA r.toNat
  | .lds g n s b => guardOk g.toNat n.toNat && isU s.toNat && evenU b.toNat
  | .ldsW g n s b => guardOk g.toNat n.toNat && evenU s.toNat && evenU b.toNat
  | .ldsQ g n s b => guardOk g.toNat n.toNat && quadU s.toNat && evenU b.toNat
  | .ldsO g n s b => guardOk g.toNat n.toNat && octU s.toNat && evenU b.toNat
  | .ldp g n s _ _ => guardOk g.toNat n.toNat && evenU s.toNat
  | .ldls g n s b => guardOk g.toNat n.toNat && isU s.toNat && isU b.toNat
  | .aadd g n _ _ b => guardOk g.toNat n.toNat && (isA b.toNat || isU b.toNat)
  | .asub g n _ _ b => guardOk g.toNat n.toNat && (isA b.toNat || isU b.toNat)
  | .amul g n _ _ b => guardOk g.toNat n.toNat && isU b.toNat
  | .ashl g n _ _ b => guardOk g.toNat n.toNat && isU b.toNat
  | .aset g n _ b => guardOk g.toNat n.toNat && evenU b.toNat
  | .alane g n _ b => guardOk g.toNat n.toNat && isU b.toNat
  | .aneg g n _ _ => guardOk g.toNat n.toNat
  | .amov g n _ b => guardOk g.toNat n.toNat && isA b.toNat
  | .acmp g n p _ b c => guardOk g.toNat n.toNat && (predOk p.toNat && (isA b.toNat || isU b.toNat) && decide (c.toNat < 10))
  | .bra g n _ => guardOk g.toNat n.toNat
  | .brz g n s _ => guardOk g.toNat n.toNat && isU s.toNat
  | .brnz g n s _ => guardOk g.toNat n.toNat && isU s.toNat
  | .call g n _ _ => guardOk g.toNat n.toNat
  | .nop g n => guardOk g.toNat n.toNat
  | .exit g n => guardOk g.toNat n.toNat
  | .ret g n b _ => guardOk g.toNat n.toNat && evenU b.toNat
  | .callr g n b _ => guardOk g.toNat n.toNat && evenU b.toNat
  | .brx g n b => guardOk g.toNat n.toNat && isU b.toNat
  | .yield g n => guardOk g.toNat n.toNat
  | .loopx g n _ => guardOk g.toNat n.toNat
  | .wspill g n x => guardOk g.toNat n.toNat && decide (1 ≤ x.toNat) && decide (x.toNat ≤ 224)
  | .wfill g n x => guardOk g.toNat n.toNat && decide (1 ≤ x.toNat) && decide (x.toNat ≤ 224)
  | .bkpt g n _ => guardOk g.toNat n.toNat
  | .trap g n _ => guardOk g.toNat n.toNat
  | .rte g n => guardOk g.toNat n.toNat
  | .svc g n b _ => guardOk g.toNat n.toNat && evenU b.toNat
  | .xpcr g n b _ => guardOk g.toNat n.toNat && evenU b.toNat
  | .xpcw g n b _ => guardOk g.toNat n.toNat && evenU b.toNat
  | .loop g n _ b e => guardOk g.toNat n.toNat && isU b.toNat && e != 0
  | .sfromv g n d _ _ => guardOk g.toNat n.toNat && isU d.toNat
  | .sfirst g n d _ => guardOk g.toNat n.toNat && isU d.toNat
  | .sunif g n d _ => guardOk g.toNat n.toNat && isU d.toNat
  | .afromv g n d _ => guardOk g.toNat n.toNat && isA d.toNat
  | .sredaddSi32 g n d _ m p => guardOk g.toNat n.toNat && isU d.toNat && okMember m.toNat p.toNat
  | .sredaddF32 g n d _ m p => guardOk g.toNat n.toNat && isU d.toNat && okMember m.toNat p.toNat
  | .sredminSi32 g n d _ m p => guardOk g.toNat n.toNat && isU d.toNat && okMember m.toNat p.toNat
  | .sredmaxSi32 g n d _ m p => guardOk g.toNat n.toNat && isU d.toNat && okMember m.toNat p.toNat
  | .ldg g n _ _ _ _ _ => guardOk g.toNat n.toNat
  | .ldgW g n d _ _ _ _ => guardOk g.toNat n.toNat && alignV 2 d.toNat
  | .ldgQ g n d _ _ _ _ => guardOk g.toNat n.toNat && alignV 4 d.toNat
  | .stg g n _ _ _ _ c => guardOk g.toNat n.toNat && cacheOk c.toNat
  | .stgW g n d _ _ _ c => guardOk g.toNat n.toNat && alignV 2 d.toNat && cacheOk c.toNat
  | .stgQ g n d _ _ _ c => guardOk g.toNat n.toNat && alignV 4 d.toNat && cacheOk c.toNat
  | .ldl g n _ _ _ _ => guardOk g.toNat n.toNat
  | .ldlW g n d _ _ _ => guardOk g.toNat n.toNat && alignV 2 d.toNat
  | .ldlQ g n d _ _ _ => guardOk g.toNat n.toNat && alignV 4 d.toNat
  | .stl g n _ _ _ c => guardOk g.toNat n.toNat && cacheOk c.toNat
  | .stlW g n d _ _ c => guardOk g.toNat n.toNat && alignV 2 d.toNat && cacheOk c.toNat
  | .stlQ g n d _ _ c => guardOk g.toNat n.toNat && alignV 4 d.toNat && cacheOk c.toNat
  | .ldgU8 g n _ _ _ _ => guardOk g.toNat n.toNat
  | .ldgS8 g n _ _ _ _ => guardOk g.toNat n.toNat
  | .ldgU16 g n _ _ _ _ => guardOk g.toNat n.toNat
  | .ldgS16 g n _ _ _ _ => guardOk g.toNat n.toNat
  | .stgB8 g n _ _ _ _ => guardOk g.toNat n.toNat
  | .stgB16 g n _ _ _ _ => guardOk g.toNat n.toNat
  | .ldlU8 g n _ _ _ => guardOk g.toNat n.toNat
  | .ldlS8 g n _ _ _ => guardOk g.toNat n.toNat
  | .ldlU16 g n _ _ _ => guardOk g.toNat n.toNat
  | .ldlS16 g n _ _ _ => guardOk g.toNat n.toNat
  | .stlB8 g n _ _ _ => guardOk g.toNat n.toNat
  | .stlB16 g n _ _ _ => guardOk g.toNat n.toNat
  | .pfg g n _ _ _ => guardOk g.toNat n.toNat
  | .atomg g n d _ _ o _ _ => guardOk g.toNat n.toNat && okAtomPair o.toNat d.toNat
  | .atoml g n d _ _ o s _ => guardOk g.toNat n.toNat && okAtomOp o.toNat && decide (s.toNat < 2) && okAtomPair o.toNat d.toNat
  | .atoms g n s b o _ => guardOk g.toNat n.toNat && evenU b.toNat && isU s.toNat && okAtomOp o.toNat && okAtomPair o.toNat s.toNat
  | .fence g n s => guardOk g.toNat n.toNat && scopeOk s.toNat
  | .rel g n s => guardOk g.toNat n.toNat && scopeOk s.toNat
  | .acq g n s => guardOk g.toNat n.toNat && scopeOk s.toNat
  | .acqRmt g n b => guardOk g.toNat n.toNat && isU b.toNat
  | .wdrain g n => guardOk g.toNat n.toNat
  | .l1wb g n => guardOk g.toNat n.toNat
  | .l1inv g n => guardOk g.toNat n.toNat
  | .leaseSet g n b => guardOk g.toNat n.toNat && isU b.toNat
  | .leaseMeas g n => guardOk g.toNat n.toNat
  | .leaseGet g n b => guardOk g.toNat n.toNat && isU b.toNat
  | .barv g n _ b => guardOk g.toNat n.toNat && isU b.toNat
  | .bwait g n _ b => guardOk g.toNat n.toNat && isU b.toNat
  | .bsync g n _ => guardOk g.toNat n.toNat
  | .barvn g n _ => guardOk g.toNat n.toNat
  | .btest g n _ b => guardOk g.toNat n.toNat && evenU b.toNat
  | .gmask g n _ b => guardOk g.toNat n.toNat && isU b.toNat
  | .gqry g n _ b => guardOk g.toNat n.toNat && isU b.toNat
  | .gsave g n _ b => guardOk g.toNat n.toNat && evenU b.toNat
  | .gload g n _ b => guardOk g.toNat n.toNat && evenU b.toNat
  | .mma g n _ f v a y _ s => guardOk g.toNat n.toNat && okMma f.toNat v.toNat a.toNat y.toNat s.toNat
  | .mzero g n _ => guardOk g.toNat n.toNat
  | .mldt g n _ _ _ => guardOk g.toNat n.toNat
  | .mstt g n _ _ _ => guardOk g.toNat n.toNat
  | .mrowv g n v _ => guardOk g.toNat n.toNat && alignV 8 v.toNat
  | .mwait g n => guardOk g.toNat n.toNat
  | .mfence g n => guardOk g.toNat n.toNat
  | .mdesc g n _ b => guardOk g.toNat n.toNat && evenU b.toNat
  | .mdescGet g n _ b => guardOk g.toNat n.toNat && evenU b.toNat
  | .cpyLin g n _ b => guardOk g.toNat n.toNat && quadU b.toNat
  | .cpyLinw g n _ b => guardOk g.toNat n.toNat && quadU b.toNat
  | .cpyT2d g n _ b => guardOk g.toNat n.toNat && octU b.toNat
  | .cpyT2dw g n _ b => guardOk g.toNat n.toNat && octU b.toNat
  | .cpyXpnd g n _ b => guardOk g.toNat n.toNat && quadU b.toNat
  | .cpyGath g n _ b => guardOk g.toNat n.toNat && octU b.toNat
  | .cpyScat g n _ b => guardOk g.toNat n.toNat && octU b.toNat
  | .cpyL2l g n _ b => guardOk g.toNat n.toNat && quadU b.toNat
  | .cpyFill g n _ b => guardOk g.toNat n.toNat && quadU b.toNat
  | .twaitany g n s b => guardOk g.toNat n.toNat && isU s.toNat && evenU b.toNat
  | .twaitall g n s b => guardOk g.toNat n.toNat && isU s.toNat && evenU b.toNat
  | .tfind g n s b => guardOk g.toNat n.toNat && isU s.toNat && evenU b.toNat
  | .tclr g n b => guardOk g.toNat n.toNat && evenU b.toNat
  | .tstat g n s b => guardOk g.toNat n.toNat && isU s.toNat && isU b.toNat
  | .rput g n _ s => guardOk g.toNat n.toNat && isU s.toNat
  | .rget g n _ s => guardOk g.toNat n.toNat && isU s.toNat
  | .rputNb g n _ s p => guardOk g.toNat n.toNat && isU s.toNat && predOk p.toNat
  | .rgetNb g n _ s p => guardOk g.toNat n.toNat && isU s.toNat && predOk p.toNat
  | .rclose g n _ => guardOk g.toNat n.toNat
  | .rstat g n _ s => guardOk g.toNat n.toNat && isU s.toNat
  | .hgive g n b _ => guardOk g.toNat n.toNat && evenU b.toNat
  | .hrecv g n b _ => guardOk g.toNat n.toNat && isU b.toNat
  | .hqry g n b => guardOk g.toNat n.toNat && isU b.toNat
  | .hdrop g n b => guardOk g.toNat n.toNat && isU b.toNat
  | .klaunch g n b => guardOk g.toNat n.toNat && quadU b.toNat
  | .kwait g n b => guardOk g.toNat n.toNat && isU b.toNat
  | .kquota g n b => guardOk g.toNat n.toNat && evenU b.toNat
  | .crs g n _ b _ y => guardOk g.toNat n.toNat && octU b.toNat && decide (y.toNat < 2)
  | .cag g n _ b c y => guardOk g.toNat n.toNat && octU b.toNat && decide (y.toNat < 2) && c == 0
  | .car g n _ b _ y => guardOk g.toNat n.toNat && octU b.toNat && decide (y.toNat < 2)
  | .mkdown g n _ _ => guardOk g.toNat n.toNat
  | .mkget g n b => guardOk g.toNat n.toNat && isU b.toNat
  | .trmark g n b => guardOk g.toNat n.toNat && isU b.toNat
  | .clkrd g n b => guardOk g.toNat n.toNat && evenU b.toNat
  | .ximm _ => true
  | .rep _ _ _ _ _ => true
  | .la _ => true
  | .quantumExpiry _ => true
  | .starvationLimit _ _ => true
  | .greedyLimit _ _ => true
  | .admissionPass _ => true
  | .ageBoundExpiry _ => true
  | .footprintWindow _ _ => true
  | .kernelDispatch _ => true
  | .kernelRunning _ => true
  | .tuftPlacement _ => true
  | .tuftComplete _ => true
  | .completionSignal _ => true
  | .runmaxExpiry _ => true
  | .tuftSuspend _ => true
  | .forcedSuspension _ => true
  | .tuftReload _ => true
  | .tuftAbort _ => true
  | .storeBufferSend _ => true
  | .writePerform _ => true
  | .writeAck _ => true
  | .loadReturn _ _ _ => true
  | .atomicReply _ => true
  | .walk _ _ _ => true
  | .walkWake _ => true
  | .shootdownGo _ => true
  | .shootdownComplete _ => true
  | .matrixOpComplete _ => true
  | .copyStart _ => true
  | .copyComplete _ _ => true
  | .collectiveJoin _ _ => true
  | .collectiveComplete _ _ => true
  | .serviceReply _ _ => true
  | .replyResume _ _ => true
  | .replyAbandon _ _ => true
  | .replyDroplanes _ _ => true
  | .replyDiscard _ _ => true
  | .queueRegister _ _ => true
  | .queueDestroy _ _ => true
  | .queueWake _ _ => true
  | .packetFetch _ _ => true
  | .packetKernel _ _ => true
  | .packetWaitall _ _ => true
  | .packetWaitany _ _ => true
  | .packetSignal _ _ => true
  | .packetHold _ _ => true
  | .packetRelease _ _ => true
  | .packetNop _ _ => true
  | .waitReevaluate _ _ => true
  | .partitionForm _ => true
  | .partitionReady _ => true
  | .bootFailure _ => true
  | .partAdd _ _ => true
  | .partRemove _ _ _ => true
  | .drainmaxExpiry _ => true
  | .partLend _ _ _ _ => true
  | .partRecall _ _ => true
  | .recallDeadline _ => true
  | .recallWriteOut _ => true
  | .partHalt _ => true
  | .partResume _ => true
  | .partDissolve _ => true
  | .evidence _ _ _ _ => true
  | .certs _ _ _ _ => true
  | .extend _ _ _ => true
  | .ctxCreate _ _ => true
  | .ctxActivate _ _ => true
  | .ctxSuspend _ _ _ => true
  | .ctxResume _ _ => true
  | .ctxFault _ _ => true
  | .ctxDestroy _ _ => true
  | .keyLoad _ _ => true
  | .keyLoadw _ _ => true
  | .keyErase _ _ => true
  | .correctableError _ => true
  | .uncorrectableError _ => true
  | .sliceLost _ => true
  | .portEnable _ => true
  | .portDisable _ => true
  | .portFence _ => true
  | .portUnfence _ => true
  | .trainingDone _ _ _ => true
  | .trainingFailed _ => true
  | .keyingDone _ => true
  | .wavelengthLoss _ _ _ => true
  | .retrainingRestored _ => true
  | .rekey _ => true
  | .packetReceive _ _ => true
  | .retransmitTimeout _ => true
  | .lctlWrite _ _ => true
  | .getVersion _ => true
  | .getCapabilities _ => true
  | .negotiateAlgorithms _ => true
  | .getDigests _ => true
  | .getCertificate _ _ _ _ => true
  | .challenge _ _ => true
  | .getMeasurements _ _ _ => true
  | .spdmUnsupported _ _ => true
  | .firmwareStage _ _ _ => true
  | .activationStart _ => true
  | .activationCommit _ => true
  | .activationRollback _ => true
  | .mgmtOtherMessage _ _ => true
  | .packageReset _ => true
  | .pwrctlWrite _ _ _ => true
  | .thermThrottle _ _ _ _ => true
  | .powerWindow _ _ _ _ => true
  | .trctlWrite _ _ => true
  | .teaselDrain _ => true
  | .lschedWrite _ _ => true
  | .urgentWrite _ _ => true
  | .frameOwnerWrite _ _ _ => true
  | .controlRegWrite _ _ _ _ => true
  | .unassignedEncoding _ => true
  | .longLatencyResult _ _ => true
  | .serviceCoreAccess _ => true
  | .partitionKernelFetch _ _ _ => true
  | .cpuTrayRegister _ _ _ => true

end Sys2Proof
end

