-- ==== Sys2Proof/Machine/Operands.lean ====
section
/-!
DEFINITION. Every operand form: varying registers through the window (R38), affine and uniform registers and their pairs
(R37, R41), predicates (R44), the operand byte per lane (R52), guards (R44), and the register writes with their marks
(R55, R56).
-/
namespace Sys2Proof.Machine

/-! ## Reading -/

/-- The physical register that holds v(i): logical index WBASE + i modulo VSTACK (R38). -/
def Sheaf.phys (sh : Sheaf) (i : Nat) : Nat := (sh.wbase + i) % sh.vstack

/-- The physical register v(i) of a sheaf. -/
def Sheaf.vreg (sh : Sheaf) (i : Nat) : VReg := sh.vregs.getD (sh.phys i) VReg.zero

/-- The lane-l element of v(i). -/
def Sheaf.readV (sh : Sheaf) (i l : Nat) : Word := (sh.vreg i).lanes.getD l 0

/-- Affine register a(i). -/
def Sheaf.readA (sh : Sheaf) (i : Nat) : AReg := sh.aregs.getD i AReg.zero

/-- The value an affine register presents in lane l (R41). -/
def AReg.lane (a : AReg) (l : Nat) : Word := a.base + BitVec.ofNat 32 l * a.stride

/-- Uniform register s(i). -/
def Sheaf.ureg (sh : Sheaf) (i : Nat) : UReg := sh.uregs.getD i UReg.zero

/-- The value of s(i). -/
def Sheaf.readU (sh : Sheaf) (i : Nat) : Word := (sh.ureg i).val

/-- The pair s(i), s(i+1), low word first (R37). -/
def Sheaf.readPair (sh : Sheaf) (i : Nat) : BitVec 64 := BitVec.append (sh.readU (i + 1)) (sh.readU i)

/-- The larger mark of a pair. -/
def Sheaf.pairMark (sh : Sheaf) (i : Nat) : Mark := maxMark (sh.ureg i).mark (sh.ureg (i + 1)).mark

/-- Predicate register p(i) (R44). -/
def Sheaf.preg (sh : Sheaf) (i : Nat) : UReg := sh.preds.getD i UReg.zero

/-- Matrix descriptor d(i) (R36). -/
def Sheaf.dreg (sh : Sheaf) (i : Nat) : DReg := sh.descs.getD i DReg.zero

/-- Accumulator tile m(i) (R36). -/
def Sheaf.tile (sh : Sheaf) (i : Nat) : Tile := sh.tiles.getD i Tile.zero

/-- The number of the uniform register that an operand byte names (R85). -/
def uIndex (b : Nat) : Nat := b - 64

/-- The number of the affine register that an operand byte names (R85). -/
def aIndex (b : Nat) : Nat := b - 32

/-- Operand32: what an operand byte gives lane l (R52, R85). -/
def Sheaf.operand (sh : Sheaf) (b l : Nat) : Word :=
  if b < 32 then sh.readV b l else if b < 64 then (sh.readA (aIndex b)).lane l else sh.readU (uIndex b)

/-- The mark of the register that an operand byte names (R54). -/
def Sheaf.operandMark (sh : Sheaf) (b : Nat) : Mark :=
  if b < 32 then (sh.vreg b).mark else if b < 64 then (sh.readA (aIndex b)).mark else (sh.ureg (uIndex b)).mark

/-- The uniform value an operand byte names. -/
def Sheaf.readUB (sh : Sheaf) (b : Nat) : Word := sh.readU (uIndex b)

/-- The pair an operand byte names. -/
def Sheaf.readPairB (sh : Sheaf) (b : Nat) : BitVec 64 := sh.readPair (uIndex b)

/-- The guard of lane l (R44): p[G] sensed by N; no guard for G = 15. -/
def Sheaf.guard (sh : Sheaf) (g n l : Nat) : Bool :=
  if g == 15 then true else hasLane (sh.preg g).val l != (n == 1)

/-- The acting lanes: those of the issuing set whose guard is true (R105). -/
def Sheaf.acting (sh : Sheaf) (g n : Nat) (lanes : Mask) : Mask := maskOf (fun l => hasLane lanes l && sh.guard g n l)

/-- The largest of some marks. -/
def marks (ms : List Mark) : Mark := ms.foldl maxMark 0

/-! ## Writing -/

/-- The mark a unit takes from a write (R56): the value's where the write covers the whole unit, else the larger of the old
and the value's. -/
def newMark (whole : Bool) (old value : Mark) : Mark := if whole then value else maxMark old value

/-- Write a physical varying register in some lanes (R56). -/
def Sheaf.writePhys (sh : Sheaf) (r : Nat) (lanes : Mask) (whole : Bool) (f : Nat → Word) (mark : Mark) : Sheaf :=
  let old := sh.vregs.getD r VReg.zero
  let new : VReg :=
    { lanes := laneNumbers.map (fun l => if hasLane lanes l then f l else old.lanes.getD l 0), mark := newMark whole old.mark mark }
  { sh with vregs := sh.vregs.put r new }

/-- Write v(i) in the acting lanes; the unit is covered where they are the whole live set (R56). -/
def Sheaf.writeV (sh : Sheaf) (i : Nat) (lanes : Mask) (f : Nat → Word) (mark : Mark) : Sheaf :=
  sh.writePhys (sh.phys i) lanes (lanes == sh.live) f mark

/-- Write s(i) (R56). -/
def Sheaf.writeU (sh : Sheaf) (i : Nat) (v : Word) (mark : Mark) : Sheaf :=
  { sh with uregs := sh.uregs.put i { val := v, mark := mark } }

/-- Write the uniform register that an operand byte names. -/
def Sheaf.writeUB (sh : Sheaf) (b : Nat) (v : Word) (mark : Mark) : Sheaf := sh.writeU (uIndex b) v mark

/-- Write a pair of uniform registers, low word first (R37). -/
def Sheaf.writePair (sh : Sheaf) (i : Nat) (v : BitVec 64) (mark : Mark) : Sheaf :=
  (sh.writeU i (v.setWidth 32) mark).writeU (i + 1) ((v >>> 32).setWidth 32) mark

/-- Write the pair that an operand byte names. -/
def Sheaf.writePairB (sh : Sheaf) (b : Nat) (v : BitVec 64) (mark : Mark) : Sheaf := sh.writePair (uIndex b) v mark

/-- Write words to consecutive uniform registers, all with one mark. -/
def Sheaf.writeUs (sh : Sheaf) (i : Nat) : List Word → Mark → Sheaf
  | [], _ => sh
  | w :: ws, mark => (sh.writeU i w mark).writeUs (i + 1) ws mark

/-- Write predicate bits of some lanes (R44, R56). -/
def Sheaf.writeP (sh : Sheaf) (p : Nat) (lanes : Mask) (f : Nat → Bool) (mark : Mark) : Sheaf :=
  let old := sh.preg p
  let new : UReg :=
    { val := maskOf (fun l => if hasLane lanes l then f l else hasLane old.val l), mark := newMark (lanes == sh.live) old.mark mark }
  { sh with preds := sh.preds.put p new }

/-- Write all 32 bits of a predicate (R44, R56). -/
def Sheaf.writePAll (sh : Sheaf) (p : Nat) (v : Word) (mark : Mark) : Sheaf :=
  { sh with preds := sh.preds.put p { val := v, mark := mark } }

/-- Write a matrix descriptor (R191). -/
def Sheaf.writeD (sh : Sheaf) (d : Nat) (v : BitVec 64) (mark : Mark) : Sheaf :=
  { sh with descs := sh.descs.put d { val := v, mark := mark } }

/-- Put a tile (R174). -/
def Sheaf.writeTile (sh : Sheaf) (m : Nat) (t : Tile) : Sheaf := { sh with tiles := sh.tiles.put m t }

/-! ## Affine results (R41, R42) -/

/-- An exact affine result before it is stored (R42): the base read signed and unsigned, the stride read signed. -/
structure AffResult where
  baseS  : Int
  baseU  : Int
  stride : Int
  deriving DecidableEq, Repr

/-- Some lane's exact value leaves a range (R41). -/
def leaves (base stride lo hi : Int) : Bool :=
  laneNumbers.any (fun l => decide (base + l * stride < lo) || decide (hi < base + l * stride))

/-- newWS of R42. -/
def AffResult.wrapS (r : AffResult) : Bool := leaves r.baseS r.stride (-2147483648) 2147483647

/-- newWU of R42. -/
def AffResult.wrapU (r : AffResult) : Bool := leaves r.baseU r.stride 0 4294967295

/-- The write of an affine register (R42): none where MODE.AFAULT makes a signed wrap a fault. -/
def Sheaf.writeA (sh : Sheaf) (d : Nat) (r : AffResult) (srcWS srcWU : Bool) (mark : Mark) : Option Sheaf :=
  if modeAfault sh.mode && r.wrapS then none
  else
    let a : AReg := { base := BitVec.ofInt 32 r.baseS, stride := BitVec.ofInt 32 r.stride, ws := r.wrapS || srcWS,
                      wu := r.wrapU || srcWU, mark := mark }
    some (({ sh with aregs := sh.aregs.put d a }).raise (flagIf (r.wrapS || r.wrapU) flagAWRAP))

end Sys2Proof.Machine
end

