-- ==== Sys2Proof/Machine/Local.lean ====
section
/-!
DEFINITION. Local store: allotments, buffers reached through handles (R154, R213), reads, and writes with the marks and
swizzle tags of the lines they touch (R56, R159, R176).
-/
namespace Sys2Proof.Machine

/-- The handle field of a local address (R154). -/
def localSlot (la : Word) : Nat := la.toNat / 2 ^ 26
/-- Bits [25:24] of a local address are zero (R154). -/
def localZero (la : Word) : Bool := la.toNat / 2 ^ 24 % 4 == 0
/-- The offset field of a local address (R154). -/
def localOffset (la : Word) : Nat := la.toNat % 2 ^ 24

/-- The planes of every core: what is held or in transit is in one of them (R309). -/
def State.planes (s : State) : List PlaneState := s.cores.flatMap (fun e => [e.2.front, e.2.back])

/-- The buffers that originated in a tuft and are lent: held in a slot or in transit, be it in a queue or at an
HGIVE that waits for a place in one (R213, R214). -/
def State.lentBy (s : State) (tid : Nat) : List Buffer :=
  s.planes.flatMap (fun p => (p.handles.map (fun h => h.2.buffer) ++ p.parcels.map Parcel.buffer).filter (fun b => b.origin == tid)) ++
    s.sheaves.filterMap (fun e => match e.2.wait.map Wait.kind with
      | some (.post _ _ b) => if b.origin == tid then some b else none
      | _ => none)

/-- A stretch of an allotment overlaps a buffer. -/
def Buffer.overlaps (b : Buffer) (off len : Nat) : Bool := decide (off < b.offset + 4096 * b.units) && decide (b.offset < off + len)

/-- A place in a local store: the tuft whose allotment holds it and the byte offset in that allotment. -/
structure Place where
  tid : Nat
  off : Nat
  deriving DecidableEq, Repr

/-- The plane of a core that holds a tuft's state (R309). -/
def State.planeOf (s : State) (tid core : Nat) : PlaneState :=
  match s.tuft? tid with
  | some t => if t.parked then (s.core core).back else (s.core core).front
  | none => (s.core core).front

/-- A handle slot of a core, where it is held for a tuft (R213). -/
def State.heldSlot? (s : State) (tid core slot : Nat) : Option Handle :=
  match (s.planeOf tid core).handles.find? slot with
  | some h => if h.holder == tid then some h else none
  | none => none

/-- Where an access of a tuft lands: none where R154 or R213 makes it HANDLE. -/
def State.localPlace? (s : State) (tid core slot : Nat) (off : Int) (len : Nat) : Option Place :=
  if slot == 0 then
    match s.tuft? tid with
    | none => none
    | some t =>
      if off < 0 || (t.lsize : Int) < off + len || (s.lentBy tid).any (fun b => b.overlaps off.toNat len) then none
      else some { tid := tid, off := off.toNat }
  else
    match s.heldSlot? tid core slot with
    | none => none
    | some h =>
      if off < 0 || ((4096 * h.buffer.units : Nat) : Int) < off + len then none
      else some { tid := h.buffer.origin, off := h.buffer.offset + off.toNat }

/-- LocalAddr of R154 for a local address word, an exact distance from it and a width. -/
def State.localAddr? (s : State) (tid core : Nat) (la : Word) (dist : Int) (width : Nat) : Option Place :=
  if !localZero la then none else s.localPlace? tid core (localSlot la) ((localOffset la : Nat) + dist) width

/-- A byte of an allotment (R54: zero until written). -/
def Tuft.lbyte (t : Tuft) (off : Nat) : Byte := t.lbytes.getD off 0

/-- Bytes of an allotment. -/
def State.localBytes (s : State) (p : Place) (n : Nat) : List Byte :=
  match s.tuft? p.tid with
  | some t => (List.range n).map (fun i => t.lbyte (p.off + i))
  | none => List.replicate n 0

/-- The numbers of the 128-byte lines that a stretch touches. -/
def linesOf (off n : Nat) : List Nat := (List.range ((off + n + 127) / 128 - off / 128)).map (fun i => off / 128 + i)

/-- The largest mark of the lines a stretch touches (R55). -/
def State.localMark (s : State) (p : Place) (n : Nat) : Mark :=
  match s.tuft? p.tid with
  | some t => marks ((linesOf p.off n).map (fun l => t.lmarks.getD l 0))
  | none => 0

/-- Bytes of an allotment written by one access (offset and byte, later entries standing over earlier ones), with the mark
and the swizzle tag their lines take; a line written whole takes the mark itself (R56, R176). -/
def Tuft.writeLocal (t : Tuft) (bytes : Map Byte) (mark : Mark) (tag : Nat) : Tuft :=
  let written : Map Byte := bytes.foldl (fun m e => m.put e.1 e.2) []
  let counts : Map Nat := written.foldl (fun m e => m.put (e.1 / 128) (m.getD (e.1 / 128) 0 + 1)) []
  { t with
    lbytes := written.foldl (fun m e => m.put e.1 e.2) t.lbytes
    lmarks := counts.foldl (fun m e => m.put e.1 (newMark (e.2 == 128) (t.lmarks.getD e.1 0) mark)) t.lmarks
    ltags := counts.foldl (fun m e => m.put e.1 (BitVec.ofNat 3 tag)) t.ltags }

/-- Write bytes into local stores, each at its place. -/
def State.writeLocal (s : State) (tid : Nat) (bytes : Map Byte) (mark : Mark) (tag : Nat) : State :=
  s.modTuft tid (fun t => t.writeLocal bytes mark tag)

/-- The bytes of a stretch, each under its offset. -/
def spread (off : Nat) (bs : List Byte) : Map Byte := (List.range bs.length).map (fun i => (off + i, bs.getD i 0))

end Sys2Proof.Machine
end

