-- ==== Sys2Proof/Machine/MatrixEngine.lean ====
section
/-!
DEFINITION. The matrix sub-arrays (R174 to R195): descriptors, the elements of A and B, what an operation does when it
acts, in the order of issue, and the hazards of a sheaf against its own pending operations.
-/
namespace Sys2Proof.Machine

/-- ROWS of a descriptor (R175). -/
def descRows (d : BitVec 64) : Nat := field d.toNat 43 7
/-- SPAN of a descriptor (R175). -/
def descSpan (d : BitVec 64) : Nat := field d.toNat 40 3
/-- STRIDE of a descriptor (R175). -/
def descStride (d : BitVec 64) : Nat := field d.toNat 24 16
/-- LADDR of a descriptor (R175). -/
def descLaddr (d : BitVec 64) : Nat := field d.toNat 0 24

/-- A row of 2-D local data at a byte of its row, with an XOR swizzle (R176). -/
def swizzled (laddr stride span i c : Nat) : Nat := laddr + i * stride + (c ^^^ (i % 2 ^ span * 16))

/-- TileByte (R176). -/
def tileByte (d : BitVec 64) (i k w : Nat) : Nat := swizzled (descLaddr d) (descStride d) (descSpan d) i (k * w)

/-- M of a fuse code (R178). -/
def fuseM (fuse : Nat) : Nat := match fuse with | 2 => 32 | 3 => 64 | _ => 16
/-- RB of a quadrant (R178). -/
def rowBase (fuse q : Nat) : Nat := match fuse with | 2 => 16 * (q / 2) | 3 => 16 * q | _ => 0

/-- The format of a code of typ: 0 E4M3, 1 E5M2, 2 BF16 (R88). -/
def typFmt (c : Nat) : Fmt := match c with | 0 => e4m3 | 1 => e5m2 | _ => bf16
/-- Its bytes per element. -/
def typBytes (c : Nat) : Nat := if c == 2 then 2 else 1
/-- The bytes per element of a fmt field: 0 FP32, 1 BF16, 2 E4M3, 3 E5M2 (R186). -/
def fmtBytes (c : Nat) : Nat := match c with | 0 => 4 | 1 => 2 | _ => 1

/-- The quadrant of a sheaf (R27). -/
def Sheaf.quadrant (sh : Sheaf) : Nat := sh.idx % 4

/-- The byte offsets that rows of a descriptor name, n elements of w bytes to a row (R176). -/
def descBytes (d : BitVec 64) (rows : List Nat) (n w : Nat) : List Nat :=
  rows.flatMap (fun i => (List.range n).flatMap (fun k => (List.range w).map (fun b => tileByte d i k w + b)))

/-- The rows below a bound that are stored (R175). -/
def descStored (d : BitVec 64) (bound : Nat) : List Nat := List.range (min (descRows d) bound)

/-- Element k of row i as its format's bits; rows at or above ROWS read as zero (R175, R180). -/
def Tuft.element (t : Tuft) (d : BitVec 64) (i k w : Nat) : Nat :=
  if descRows d ≤ i then 0 else leNat ((List.range w).map (fun b => t.lbyte (tileByte d i k w + b)))

/-- The largest mark among the lines that hold some bytes. -/
def Tuft.bytesMark (t : Tuft) (offs : List Nat) : Mark := marks (offs.map (fun o => t.lmarks.getD (o / 128) 0))

/-- The lowest offset of a line, among those that hold some bytes, whose swizzle tag is not a span (R184). -/
def Tuft.badSwizzle? (t : Tuft) (offs : List Nat) (span : Nat) : Option Nat :=
  let lines := (offs.map (fun o => o / 128)).filter (fun l => (t.ltags.getD l 0).toNat != span)
  lines.foldl (fun acc l => match acc with | none => some (l * 128) | some m => some (min m (l * 128))) none

/-- The lanes and registers that hold row k of B for a quadrant: which quadrant's sheaf, which lane (R178). -/
def bSource (fuse q k : Nat) : Nat × Nat :=
  match fuse with
  | 2 => (if k < 16 then q % 2 else q % 2 + 2, k % 16)
  | 3 => (k / 8, k % 8)
  | _ => (q, k)

/-- Column j of a lane's packed row (R179). -/
def bElement (sh : Sheaf) (vb typB lane j : Nat) : Nat :=
  if typB == 2 then field (sh.readV (vb + j / 2) lane).toNat (16 * (j % 2)) 16
  else field (sh.readV (vb + j / 4) lane).toNat (8 * (j % 4)) 8

/-- The number of B registers (R179). -/
def bCount (typB : Nat) : Nat := if typB == 2 then 8 else 4

/-- The B rows of a quadrant from the sheaves of the quartet by quadrant number (R178, R179). -/
def bRows (fuse q typB vb : Nat) (sheaf : Nat → Option Sheaf) : List (List Nat) :=
  (List.range 32).map (fun k =>
    let src := bSource fuse q k
    match sheaf src.1 with
    | some sh => (List.range 16).map (fun j => bElement sh vb typB src.2 j)
    | none => List.replicate 16 0)

/-- The largest mark of the B registers that feed a quadrant (R183). -/
def bMark (fuse q typB vb : Nat) (sheaf : Nat → Option Sheaf) : Mark :=
  marks ((List.range 32).flatMap (fun k => match sheaf (bSource fuse q k).1 with
    | some sh => (List.range (bCount typB)).map (fun t => (sh.vreg (vb + t)).mark)
    | none => []))

/-- Element (r, j) of a tile. -/
def Tile.at (t : Tile) (r j : Nat) : Nat := (t.cells.getD (16 * r + j) 0).toNat

/-- Rows of a tile written, with the mark of the values (R56, R183). -/
def Tile.writeRows (t : Tile) (acting : Mask) (f : Nat → Nat → Nat) (mark : Mark) : Tile :=
  let rows := (List.range 16).filter (hasLane acting)
  { cells := rows.foldl (fun m r => (List.range 16).foldl (fun m j => m.put (16 * r + j) (BitVec.ofNat 32 (f r j))) m) t.cells,
    mark := newMark (rows.length == 16) t.mark mark }

/-- Some row of an operation acts (R181). -/
def rowsAct (acting : Mask) : Bool := acting &&& 0xFFFF#32 != 0

/-- The exact product term of two elements (R71). -/
def productTerm (fa fb : Fmt) (a b : Nat) : Num := (mulNum (fa.decode a) (fb.decode b)).getD .nan

/-- The A element (r, k) of an operation: from the elements read at issue, or from a pair of tiles converted to BF16 (R180). -/
def Sheaf.aElement (sh : Sheaf) (op : MatOp) (aTile : Option Nat) (r k : Nat) : Nat :=
  match aTile with
  | none => (op.aElems.getD r []).getD k 0
  | some m => (toBf16 ((sh.tile (m + k / 16)).at r (k % 16))).1

/-- The result element (r, j) of an MMA (R181, R71). -/
def Sheaf.mmaElement (sh : Sheaf) (op : MatOp) (mt typ : Nat) (z : Bool) (aTile : Option Nat) (r j : Nat) : Nat :=
  let fa := typFmt (typ / 3)
  let fb := typFmt (typ % 3)
  let ts := (List.range 32).map (fun k => productTerm fa fb (sh.aElement op aTile r k) ((op.bElems.getD k []).getD j 0))
  (dotAdd (if z then ts else ts ++ [fp32.decode ((sh.tile mt).at r j)])).bits

/-- An element of a fmt widened to FP32 bits (R188): FP32 unchanged. -/
def widenFmt (fmt bits : Nat) : Nat := match fmt with | 0 => bits | 1 => bf16.widen bits | 2 => e4m3.widen bits | _ => e5m2.widen bits
/-- FP32 bits converted to a fmt on the storing path (R189): FP32 unchanged. -/
def storeFmt (fmt bits : Nat) : Nat := match fmt with | 0 => bits | 1 => (bf16.store bits).1 | 2 => (e4m3.store bits).1 | _ => (e5m2.store bits).1

/-- The stored bytes of an MSTT: offset and byte (R189). -/
def msttBytes (d : BitVec 64) (fmt : Nat) (acting : Mask) (t : Tile) : Map Byte :=
  let w := fmtBytes fmt
  ((descStored d 16).filter (hasLane acting)).flatMap (fun r => (List.range 16).flatMap (fun j =>
    let bs := leBytes w (storeFmt fmt (t.at r j))
    (List.range w).map (fun b => (tileByte d r j w + b, bs.getD b 0))))

/-! ## Operands that change while an operation is pending (R194, R195) -/

/-- One of two values that nothing settles, where they differ. -/
def State.pickNat (s : State) (k old new : Nat) : Nat := if old == new then old else if Config.freeNat (s.freeCount + k) % 2 == 0 then old else new

/-- A MATRIX sheaf of a tuft by its quadrant (R182). -/
def State.quadrantSheaf? (s : State) (tid q : Nat) : Option Sheaf :=
  (s.tuft? tid).bind (fun t => (t.sheaves.filterMap s.sheaf?).find? (fun x => x.role == .matrix && x.quadrant == q))

/-- Column j of a lane's packed row in physical registers, as they stand (R179). -/
def Sheaf.bPhys (sh : Sheaf) (regs : List Nat) (typB lane j : Nat) : Nat :=
  let per := if typB == 2 then 2 else 4
  field ((sh.vregs.getD (regs.getD (j / per) 0) VReg.zero).lanes.getD lane 0).toNat (32 / per * (j % per)) (32 / per)

/-- The sheaf whose registers feed row k of B to a pending MMA, and those registers (R178). -/
def State.bFeed? (s : State) (sh : Sheaf) (op : MatOp) (fuse k : Nat) : Option (Sheaf × List Nat) :=
  let q := (bSource fuse sh.quadrant k).1
  (if q == sh.quadrant then some sh else s.quadrantSheaf? sh.tid q).bind (fun y =>
    (y.mops.find? (fun m => m.id == op.id)).map (fun m => (y, m.bRegs)))

/-- The B rows of a pending MMA of a sheaf, from the registers of the sheaves that take part, as they stand now. -/
def State.bNow (s : State) (sh : Sheaf) (op : MatOp) (fuse typB : Nat) : List (List Nat) :=
  (List.range 32).map (fun k =>
    match s.bFeed? sh op fuse k with
    | some (y, regs) => (List.range 16).map (fun j => y.bPhys regs typB (bSource fuse sh.quadrant k).2 j)
    | none => op.bElems.getD k [])

/-- The largest mark of those registers as they stand now (R183). -/
def State.bMarkNow (s : State) (sh : Sheaf) (op : MatOp) (fuse : Nat) : Mark :=
  marks ((List.range 32).flatMap (fun k =>
    match s.bFeed? sh op fuse k with
    | some (y, regs) => regs.map (fun r => (y.vregs.getD r VReg.zero).mark)
    | none => []))

/-- Elements of rows of a descriptor as they stand now. -/
def Tuft.elementsNow (t : Tuft) (d : BitVec 64) (base n w : Nat) : List (List Nat) :=
  (List.range 16).map (fun r => (List.range n).map (fun k => t.element d (base + r) k w))

/-- Each group of per elements is the one of two that nothing settles: an element of A alone, the columns of one lane element of B
together (R179, R195). -/
def State.mixRows (s : State) (k per : Nat) (old new : List (List Nat)) : List (List Nat) :=
  (List.range old.length).map (fun r =>
    let xs := old.getD r []
    (List.range xs.length).map (fun j => s.pickNat (k + 64 * r + j / per) (xs.getD j 0) ((new.getD r []).getD j 0)))

/-- The local-store bytes an operation reads (R195 row 5): an MMA those of every stored row below M, an MLDT those of the acting
stored rows (R188). -/
def MatOp.readsBytes (op : MatOp) : List Nat :=
  match op.kind with
  | .mma _ fuse typ _ none => descBytes op.desc (descStored op.desc (fuseM fuse)) 32 (typBytes (typ / 3))
  | .mldt _ fmt => descBytes op.desc ((descStored op.desc 16).filter (hasLane op.acting)) 16 (fmtBytes fmt)
  | _ => []

/-- The rows of A that quadrant q reads of a descriptor (R178, R180). -/
def aRows (fuse q : Nat) (d : BitVec 64) : List Nat := ((List.range 16).map (fun r => rowBase fuse q + r)).filter (fun i => decide (i < descRows d))

/-- An operation with its operands as it uses them: where a byte of A or a register of B was written while it was pending, each element is
the old value or the new one (R194, R195 rows 1, 2 and 5), and the marks of both count, of the registers and of the lines that the
quadrant reads (R183, R188). -/
def State.mixOperands (s : State) (sh : Sheaf) (op : MatOp) : MatOp :=
  match s.tuft? sh.tid with
  | none => op
  | some t =>
    match op.kind with
    | .mma _ fuse typ _ aTile =>
      let w := typBytes (typ / 3)
      let aNow := match aTile with | none => t.elementsNow op.desc (rowBase fuse sh.quadrant) 32 w | some _ => op.aElems
      let bNow := s.bNow sh op fuse (typ % 3)
      if aNow == op.aElems && bNow == op.bElems then op
      else
        let now := maxMark (s.bMarkNow sh op fuse)
          (match aTile with | none => t.bytesMark (descBytes op.desc (aRows fuse sh.quadrant op.desc) 32 w) | some _ => 0)
        { op with aElems := s.mixRows 0 1 op.aElems aNow, bElems := s.mixRows 1024 (16 / bCount (typ % 3)) op.bElems bNow,
                  mark := maxMark op.mark now }
    | .mldt _ fmt =>
      let aNow := t.elementsNow op.desc 0 16 (fmtBytes fmt)
      if aNow == op.aElems then op
      else { op with aElems := s.mixRows 0 1 op.aElems aNow, mark := maxMark op.mark (t.bytesMark op.readsBytes) }
    | _ => op

/-- The tile an operation updates, if it updates one (R195 row 3). -/
def MatKind.updates? : MatKind → Option Nat
  | .mma mt _ _ _ _ => some mt
  | .mzero mt => some mt
  | .mldt mt _ => some mt
  | _ => none

/-- The tile an operation reads (R189, R190). -/
def MatKind.reads? : MatKind → Option Nat
  | .mstt mt _ => some mt
  | .mrowv _ mt => some mt
  | _ => none

/-- A tile is about to be updated by an operation: the pending operations that will read it keep what it held (R195 row 3), but under
REPLAY, where they wait. -/
def Sheaf.keepOld (sh : Sheaf) (mt id : Nat) : Sheaf :=
  if modeReplay sh.mode then sh
  else { sh with mops := sh.mops.map (fun m => if decide (id < m.id) && !m.done && m.kind.reads? == some mt then { m with olds := m.olds ++ [sh.tile mt] } else m) }

/-- The tile as an MSTT or MROWV finds it: each element after some number of the updates that were pending when it issued (R195 row 3). -/
def State.mixTile (s : State) (olds : List Tile) (now : Tile) : Tile :=
  if olds.isEmpty then now
  else
    { cells := (List.range 256).foldl (fun m k =>
        m.put k (((olds ++ [now]).getD (Config.freeNat (s.freeCount + k) % (olds.length + 1)) now).cells.getD k 0)) [],
      mark := marks (now.mark :: olds.map Tile.mark) }

/-- An operation acts (R181, R187 to R190). -/
def State.runMatOp (s0 : State) (sid : Nat) (op0 : MatOp) : State :=
  match s0.sheaf? sid with
  | none => s0
  | some sh0 =>
    let op := s0.mixOperands sh0 op0
    let s := if op == op0 && op.olds.isEmpty then s0 else { s0 with freeCount := s0.freeCount + 4096 }
    let sh := match op.kind.updates? with | some mt => if rowsAct op.acting then sh0.keepOld mt op.id else sh0 | none => sh0
    match op.kind with
    | .mma mt _ typ z aTile =>
      if !rowsAct op.acting then s
      else
        let aMark := match aTile with | some m => maxMark (sh.tile m).mark (sh.tile (m + 1)).mark | none => 0
        let mark := marks ([op.mark, aMark] ++ (if z then [] else [(sh.tile mt).mark]))
        s.setSheaf sid (sh.writeTile mt ((sh.tile mt).writeRows op.acting (sh.mmaElement op mt typ z aTile) mark))
    | .mzero mt => if !rowsAct op.acting then s else s.setSheaf sid (sh.writeTile mt ((sh.tile mt).writeRows op.acting (fun _ _ => 0) 0))
    | .mldt mt fmt =>
      if !rowsAct op.acting then s
      else s.setSheaf sid (sh.writeTile mt ((sh.tile mt).writeRows op.acting (fun r j => widenFmt fmt ((op.aElems.getD r []).getD j 0)) op.mark))
    | .mstt mt fmt =>
      let tile := s0.mixTile op.olds (sh.tile mt)
      s.writeLocal sh.tid (msttBytes op.desc fmt op.acting tile) (maxMark tile.mark op.mark) (descSpan op.desc)
    | .mrowv regs mt =>
      let tile := s0.mixTile op.olds (sh.tile mt)
      s.setSheaf sid ((List.range 8).foldl (fun sh t =>
        sh.writePhys (regs.getD t 0) op.acting op.whole (fun l => BitVec.ofNat 32 (tile.at (l % 16) (t + 8 * (l / 16)))) tile.mark) sh)

/-- The first operations of a sheaf, up to and with one of a number, act in order (R180). -/
def State.runMatUpTo (s : State) (sid id : Nat) : State :=
  match s.sheaf? sid with
  | none => s
  | some sh =>
    if !sh.mops.any (fun m => m.id == id) then s
    else
      let due := (sh.mops.filter (fun m => !m.done)).filter (fun m => decide (m.id ≤ id))
      (s.forEach due (fun s op => match (s.sheaf? sid).bind (fun y => y.mops.find? (fun m => m.id == op.id)) with
        | some x => s.runMatOp sid x
        | none => s)).modSheaf sid (fun sh =>
        { sh with mops := sh.mops.map (fun m => if m.id ≤ id then { m with done := true } else m) })

/-- The oldest operation of a sheaf completes, a fused one on all four quadrants (R193). -/
def State.completeMatOp (s : State) (sid : Nat) : State :=
  match s.sheaf? sid with
  | none => s
  | some sh =>
    match sh.mops.find? (fun m => !m.done), s.tuft? sh.tid with
    | some op, some t => s.forEach t.sheaves (fun s x => s.runMatUpTo x op.id)
    | some op, none => s.runMatUpTo sid op.id
    | none, _ => s

/-- Every operation that a sheaf has issued completes (R174: before a suspension or a plane swap). -/
def State.drainMatrix (s : State) (sid : Nat) : State :=
  match s.sheaf? sid with
  | none => s
  | some sh => (sh.mops.filter (fun m => !m.done)).foldl (fun s _ => s.completeMatOp sid) s

/-- An operation updates some row of a tile among some rows (R181, R187, R188): the rows whose lanes acted. -/
def MatOp.updatesRow (op : MatOp) (tile : Nat) (rows : List Nat) : Bool := op.kind.updates? == some tile && rows.any (hasLane op.acting)

/-- The registers of an MROWV's destination (R195 row 4). -/
def MatKind.rowRegs : MatKind → List Nat
  | .mrowv regs _ => regs
  | _ => []

/-- An operation accesses the local store (R217): an MMA with A there, an MLDT, an MSTT. -/
def MatOp.localAccess (op : MatOp) : Bool :=
  match op.kind with
  | .mma _ _ _ _ none => true
  | .mldt _ _ => true
  | .mstt _ _ => true
  | _ => false

/-- The local-store bytes an operation writes (R195 row 5). -/
def MatOp.writesBytes (op : MatOp) : List Nat :=
  match op.kind with
  | .mstt _ fmt => descBytes op.desc ((descStored op.desc 16).filter (hasLane op.acting)) 16 (fmtBytes fmt)
  | _ => []

/-- The lowest row of R195 among 2 and 4 that naming and writing varying registers (physical numbers) meets. -/
def Sheaf.regHazard? (sh : Sheaf) (names writes : List Nat) : Option Nat :=
  if sh.mops.any (fun m => m.bRegs.any writes.contains) then some 2
  else if sh.mops.any (fun m => m.kind.rowRegs.any names.contains) then some 4 else none

/-- Row 5 of R195: a local access of some bytes of the sheaf's own allotment, a store or not. -/
def Sheaf.localHazard (sh : Sheaf) (offs : List Nat) (store : Bool) : Bool :=
  sh.mops.any (fun m => m.writesBytes.any offs.contains || (store && m.readsBytes.any offs.contains))

end Sys2Proof.Machine
end

