-- ==== Sys2Proof/Machine/CopyDesc.lean ====
section
/-!
DEFINITION. The descriptor of a copy command as its words say (R198, R199): the rules it keeps, and the local extents it names.
-/
namespace Sys2Proof.Machine

/-! ## The descriptor (R198) -/

/-- Word i of a command. -/
def CopyCmd.w (c : CopyCmd) (i : Nat) : Word := c.words.getD i 0
/-- Word i as a number. -/
def CopyCmd.n (c : CopyCmd) (i : Nat) : Nat := (c.w i).toNat
/-- The 64-bit value in words i and i + 1. -/
def CopyCmd.pair (c : CopyCmd) (i : Nat) : Addr := BitVec.append (c.w (i + 1)) (c.w i)
/-- The low and high half of word i. -/
def CopyCmd.lo (c : CopyCmd) (i : Nat) : Nat := field (c.n i) 0 16
/-- The high half of word i. -/
def CopyCmd.hi (c : CopyCmd) (i : Nat) : Nat := field (c.n i) 16 16

/-- XPND's LSTRIDE (R198). -/
def CopyCmd.xpndStride (c : CopyCmd) : Nat :=
  match c.lstride with
  | some p => field p 0 12 * 16
  | none => (2 * c.lo 3 + 15) / 16 * 16

/-- All of some numbers are multiples of a number. -/
def multiples (k : Nat) (xs : List Nat) : Bool := xs.all (fun x => x % k == 0)

/-- The descriptor keeps every rule of R198; otherwise its tag fails with DESC. -/
def CopyCmd.descOk (c : CopyCmd) : Bool :=
  match c.kind with
  | .lin | .linw => multiples 4 [c.n 0, c.n 2, c.n 3]
  | .t2d | .t2dw =>
    multiples 16 [c.n 0, c.n 2, c.lo 3, c.n 4, c.lo 6] && decide (16 ≤ c.lo 3) && field (c.n 6) 19 13 == 0 && c.n 7 == 0
  | .xpnd =>
    multiples 64 [c.n 0] && multiples 16 [c.n 2] && decide (1 ≤ c.lo 3) && decide (2 * c.lo 3 ≤ c.xpndStride) &&
      (match c.lstride with | some p => p / 4096 == 0 | none => true)
  | .gath | .scat =>
    multiples 4 [c.n 0, c.n 2, c.lo 3, c.n 4, c.n 5, c.n 6] && decide (4 ≤ c.lo 3) && c.n 7 == 0
  | .l2l => multiples 4 [c.n 0, c.n 1, c.n 2] && c.n 3 == 0
  | .fill => multiples 4 [c.n 0, c.n 1] && c.n 3 == 0

/-- A local stretch: local address, distance from it, length. -/
structure LocalPart where
  la   : Word
  dist : Nat
  len  : Nat
  deriving DecidableEq, Repr

/-- The 16-byte pieces of a 2-D command: row, byte of the row (R199). -/
def CopyCmd.cells (c : CopyCmd) : List (Nat × Nat) :=
  (List.range (c.hi 3)).flatMap (fun i => (List.range (c.lo 3 / 16)).map (fun k => (i, 16 * k)))

/-- The local distance of a piece of a 2-D command (R176, R199). -/
def CopyCmd.cellDist (c : CopyCmd) (x : Nat × Nat) : Nat := swizzled 0 (c.lo 6) (field (c.n 6) 16 3) x.1 x.2

/-- Every local extent that a descriptor fixes (R201). A command that moves nothing has none. -/
def CopyCmd.extents (c : CopyCmd) : List LocalPart :=
  let rows := fun (la : Word) (stride len k : Nat) => (List.range k).map (fun j => { la := la, dist := j * stride, len := len : LocalPart })
  let all := match c.kind with
    | .lin | .linw => [{ la := c.w 2, dist := 0, len := c.n 3 : LocalPart }]
    | .t2d | .t2dw => c.cells.map (fun x => { la := c.w 2, dist := c.cellDist x, len := 16 })
    | .xpnd => rows (c.w 2) c.xpndStride (2 * c.lo 3) (c.hi 3)
    | .gath | .scat => rows (c.w 2) (c.n 6) (c.lo 3) (c.hi 3) ++ [{ la := c.w 4, dist := 0, len := 4 * c.hi 3 : LocalPart }]
    | .l2l => [{ la := c.w 0, dist := 0, len := c.n 2 : LocalPart }, { la := c.w 1, dist := 0, len := c.n 2 : LocalPart }]
    | .fill => [{ la := c.w 0, dist := 0, len := c.n 1 : LocalPart }]
  all.filter (fun x => x.len != 0)

end Sys2Proof.Machine
end

