-- ==== Sys2Proof/Machine/Packets.lean ====
section
/-!
DEFINITION. The packets of the fabric (R342 to R345): their header and payload, the keys, and how they leave a port.
-/
namespace Sys2Proof.Machine

/-! ## Names and bytes (R342, R345) -/

/-- The source identifier of a slice (R342): package [9:0], slice [12:10]. -/
def sourceId (slice : Nat) : Nat := packageOf slice % 1024 + sliceIn slice * 1024

/-- The slice that a source identifier names (R342). -/
def sourceSlice (id : Nat) : Nat := id % 1024 * 8 + id / 1024 % 8

/-- The code of an opcode, in the order of R342. -/
def linkCode : LinkOp → Nat
  | .read => 0 | .readResp => 1 | .write => 2 | .wack => 3 | .atomic => 4 | .atomResp => 5
  | .engineRead => 6 | .engineReadResp => 7 | .engineWrite => 8 | .engineWack => 9 | .engineAtomic => 10 | .engineAtomResp => 11

/-- The opcode of the response to a request (R342, R343); none for a response. -/
def answerOp : LinkOp → Option LinkOp
  | .read => some .readResp
  | .write => some .wack
  | .atomic => some .atomResp
  | .engineRead => some .engineReadResp
  | .engineWrite => some .engineWack
  | .engineAtomic => some .engineAtomResp
  | .readResp | .wack | .atomResp | .engineReadResp | .engineWack | .engineAtomResp => none

/-- The 32-bit tag of part i of a transaction of a name (R342). DESIGN CHOICE (log entry 73): the rule gives tags no values; the parts of one
load are its lanes. -/
def linkTag (id i : Nat) : Nat := (64 * id + i) % 2 ^ 32

/-- The header flit of a packet to a destination, apart from its authentication tag (R342). DESIGN CHOICE (log entry 73): the rule lists the
fields and gives them no places; here they stand in its order. -/
def packetHeader (pkt : LinkPacket) (dest : Nat) : List Byte :=
  leBytes 4 pkt.route ++ leBytes 4 pkt.source ++ leBytes 4 dest ++ leBytes 8 pkt.number ++ leBytes 4 pkt.tag ++ leBytes 1 (linkCode pkt.op)

/-- The payload of a packet (R342): address, key handle, an atomic's operation and operands, the bytes of its mask (log entry 73). -/
def packetPayload (pkt : LinkPacket) : List Byte :=
  leBytes 8 pkt.paddr ++ leBytes 2 pkt.kh ++ (match pkt.atomic with | some (op, d, d2) => leBytes 1 op ++ leBytes 8 d ++ leBytes 8 d2 | none => []) ++
    pkt.bytes.flatMap (fun b => [BitVec.ofNat 8 b.1, b.2])

/-- K_src (R345): SHAKE256 of the domain secret, EPOCH and the source identifier, taken to 32 bytes. -/
def sourceKey (secret : List Byte) (epoch source : Nat) : List Byte := Config.shake256 (secret ++ leBytes 4 epoch ++ leBytes 4 source) 32

/-- The 96-bit nonce of a packet (R345): 32 zero bits, then the packet number. -/
def packetNonce (number : Nat) : List Byte := List.replicate 4 0 ++ leBytes 8 number

/-- A packet under its source's key (R345): the payload encrypted, the header authenticated with it. -/
def sealPacket (pkt : LinkPacket) (key : List Byte) (dest : Nat) : LinkPacket :=
  { pkt with cipher := Config.gcmCipher key (packetNonce pkt.number) (packetPayload pkt),
             auth := Config.gcmTag key (packetNonce pkt.number) (packetHeader pkt dest) (packetPayload pkt) }

/-! ## How packets leave a port (R342 to R345) -/

/-- The routes that a slice's port may use (R300). -/
def State.routesOf (s : State) (slice : Nat) : List Nat := match (s.slice slice).owner.bind s.part? with | some p => p.routes | none => []

/-- The route of a port's next packet to a destination: one of its partition's, which one is free, and of a transaction that is sent again
another than the last (R343, R344), where there is another. -/
def State.nextRoute (s : State) (slice dest tag : Nat) (op : LinkOp) : Nat :=
  let port := (s.slice slice).port
  let last := (port.sent.reverse.find? (fun e => e.1 == dest && e.2.tag == tag && e.2.op == op)).map (fun e => e.2.route)
  let others := (s.routesOf slice).filter (fun r => last != some r)
  let from_ := if others.isEmpty then s.routesOf slice else others
  from_.getD (Config.route port.number % from_.length) 0

/-- A packet leaves a slice's port for a destination under the next packet number, where the port carries packets (R341, R345). -/
def State.emit (s : State) (slice dest : Nat) (pkt : LinkPacket) : State :=
  if !s.linkUp slice then s
  else
    let port := (s.slice slice).port
    let out : LinkPacket := { pkt with source := sourceId slice, route := s.nextRoute slice dest pkt.tag pkt.op, number := port.number }
    s.modSlice slice (fun x => { x with port := { x.port with
      number := x.port.number + 1, sent := x.port.sent ++ [(dest, sealPacket out (sourceKey port.secret port.epoch (sourceId slice)) dest)] } })

/-- A packet as its maker gives it; the port adds source, route, number and what R345 asks. -/
def newPacket (op : LinkOp) (tag paddr kh : Nat) (bytes : List (Nat × Byte)) : LinkPacket :=
  { source := 0, route := 0, number := 0, tag := tag, op := op, paddr := paddr, bytes := bytes, kh := kh, auth := [] }

/-- The slice whose port serves a remote address. -/
def State.homePort (s : State) (paddr : Nat) : Nat := (s.homeSlice paddr).getD (8 * (paddr / 2 ^ 42))

/-- A request leaves a slice for the home of its address, where that lies in another package (R343). -/
def State.ask (s : State) (slice : Nat) (pkt : LinkPacket) : State :=
  if remoteOf slice pkt.paddr then s.emit slice (sourceId (s.homePort pkt.paddr)) pkt else s

/-- The response to a slice's request leaves the home of its address (R343). -/
def State.tellBack (s : State) (slice : Nat) (pkt : LinkPacket) : State :=
  if remoteOf slice pkt.paddr then s.emit (s.homePort pkt.paddr) (sourceId slice) pkt else s

/-- The mask of a READ (R342): zeros for the bytes it asks for. -/
def readMask (len : Nat) : List (Nat × Byte) := (List.range len).map (fun i => (i, 0))

/-- A read of bytes of one line at their home, which holds their sectors in its slice cache from then on (R289); in another package a READ
crosses there, and its response comes back with the bytes it gives (R342, R343). -/
def State.readAcross (s : State) (slice : Nat) (op : LinkOp) (tag paddr kh : Nat) (len : Nat) (given : List Byte) : State :=
  let s := if given.isEmpty then s else s.cacheRead paddr len
  if remoteOf slice paddr then
    (s.ask slice (newPacket op tag paddr kh (readMask len))).tellBack slice (newPacket ((answerOp op).getD op) tag paddr kh (given.mapIdx (fun i b => (i, b))))
  else s

/-- The tag of a read that nothing waits for beyond the step that makes it. -/
def State.soleTag (s : State) (slice : Nat) : Nat := linkTag (s.slice slice).port.number 63

/-- Such a read of some bytes. -/
def State.readOnce (s : State) (slice paddr kh key len : Nat) : State :=
  s.readAcross slice .read (s.soleTag slice) paddr kh len (s.viewBytes key paddr len)

/-- The parts of a stretch that lie in its lines: address and length (R342). -/
def lineParts (paddr len : Nat) : List (Nat × Nat) :=
  (List.range ((paddr + len + 127) / 128 - paddr / 128)).map (fun i =>
    let lo := max paddr (128 * (paddr / 128 + i))
    (lo, min (paddr + len) (128 * (paddr / 128 + i + 1)) - lo))

/-- A unit of a slice reads a stretch in one step, line by line (R342, R343). -/
def State.readLines (s : State) (slice paddr kh key len : Nat) : State :=
  s.forEach (lineParts paddr len) (fun s x => s.readOnce slice x.1 kh key x.2)

/-- The packets of such a write, or of an atomic, to another package (R343): requests with their bytes, and the acknowledgements. -/
def State.writeLines (s : State) (slice paddr kh : Nat) (op : LinkOp) (bs : List Byte) : State :=
  if remoteOf slice paddr then
    s.forEach (lineParts paddr bs.length) (fun s x =>
      let tag := s.soleTag slice
      (s.ask slice (newPacket op tag x.1 kh (((bs.drop (x.1 - paddr)).take x.2).mapIdx (fun i b => (i, b))))).tellBack slice
        (newPacket ((answerOp op).getD op) tag x.1 kh []))
  else s

/-- An engine's command reads a stretch, line by line (R201, R343). -/
def State.engineReads (s : State) (slice id paddr kh key len : Nat) : State :=
  s.forEach (lineParts paddr len) (fun s x => s.readAcross slice .engineRead (linkTag id 0) x.1 kh x.2 (s.viewBytes key x.1 x.2))

end Sys2Proof.Machine
end

