-- ==== Sys2Proof/Machine/Translate.lean ====
section
/-!
DEFINITION. Translation: the walk of the page table (R280 to R284, R286), the TLB (R285), declared ranges (R288), and the
key-slot check of an access (R318, R319).
-/
namespace Sys2Proof.Machine

/-- A translated address (R282, R288): physical address, key handle, GRAIN, FRESH, and what the page and range allow. -/
structure Trans where
  paddr : Nat
  kh    : Nat
  grain : Nat
  fresh : Bool
  r     : Bool
  w     : Bool
  x     : Bool
  deriving DecidableEq, Repr

/-- How a translation ends: an address, a system fault (code, reason, the address its record shows, DETAIL), an entry that
shows a migrating page (R284), a poisoned table sector (R338), a node that no port carries the read of (R341). -/
inductive Xlate where
  | ok (t : Trans)
  | fault (code reason : Nat) (va : Addr) (detail : Nat)
  | migrating (entry : Nat)
  | memErr (paddr : Nat)
  | far (paddr : Nat)
  deriving DecidableEq, Repr

/-- How a walk ends: a leaf with its entry's address and whether it maps 128 MB, or without one. -/
inductive WalkEnd where
  | leaf (entry e : Nat) (big : Bool)
  | stop (x : Xlate)
  deriving DecidableEq, Repr

/-- A walk: how it ends, the pointer entries it went by, the physical addresses of the entries it read, and the entry whose frame its
home did not give it (R291). -/
structure Walked where
  stop    : WalkEnd
  nodes   : List NodeEntry
  reads   : List Nat
  refused : Option Nat
  deriving DecidableEq, Repr

/-- A walk that ends at the entry just read. -/
def Walked.at (entry : Nat) (x : WalkEnd) : Walked := { stop := x, nodes := [], reads := [entry], refused := none }

/-- A walk that ends before an entry is read. -/
def Walked.before (x : Xlate) (refused : Option Nat) : Walked := { stop := .stop x, nodes := [], reads := [], refused := refused }

/-- RES of an entry (R281, R282). -/
def pteRes (e : Nat) : Nat := field e 2 2
/-- FRAME of a leaf (R282). -/
def pteFrame (e : Nat) : Nat := field e 24 36
/-- KH of a leaf (R282). -/
def pteKh (e : Nat) : Nat := field e 10 12
/-- A of a leaf (R282). -/
def pteA (e : Nat) : Bool := field e 6 1 == 1
/-- D of a leaf (R282). -/
def pteD (e : Nat) : Bool := field e 7 1 == 1

/-- A valid leaf at a level meets every test of R282 and R302 for an issuer of a package. -/
def leafOk (level pkg e : Nat) : Bool :=
  let far := pteFrame e / 2 ^ 26 != pkg
  field e 60 4 == 0 && decide (pteFrame e % 2 ^ 26 < 2 ^ 24) && field e 23 1 == 0 && field e 8 2 != 3 && (if level == 2 then field e 1 1 == 1 else level == 3 && field e 1 1 == 0) &&
    (level != 2 || pteFrame e % 2048 == 0) &&
    (match pteRes e with | 0 => !far | 2 => far | 3 => !far | _ => true)

/-- The node address in a pointer entry (R281). -/
def pteNode (e : Nat) : Nat := field e 11 41 * 2048

/-- A pointer entry meets R281, and its RES the package of the frame that holds the node (R282; DEDUCED, log entry 76), for a walker of a
package. -/
def pointerOk (pkg e : Nat) : Bool :=
  let far := pteNode e / 2 ^ 42 != pkg
  field e 52 12 == 0 && field e 4 7 == 0 && field e 11 3 == 0 && (match pteRes e with | 0 => !far | 2 => far | 3 => !far | _ => true)

/-- The levels of R280: number, lowest index bit, index width. -/
def walkLevels : List (Nat × Nat × Nat) := [(0, 49, 8), (1, 38, 11), (2, 27, 11), (3, 16, 11)]

/-- A cached pointer entry leads to a page of a context from a level (R285). -/
def NodeEntry.covers (n : NodeEntry) (ctx level page : Nat) : Bool :=
  n.ctx == ctx && n.level == level && decide (n.page ≤ page) && decide (page < n.page + n.pages)

/-- The pointer entry of a level that a walk takes from its slice's walk caches (R285): one they hold, where the walker uses it. -/
def State.cachedNode? (s : State) (slice ctx level page : Nat) : Option NodeEntry :=
  match (s.slice slice).nodes.find? (fun n => n.covers ctx level page) with
  | some n => if Config.walkCached s.freeCount level then some n else none
  | none => none

/-- A pointer entry as the walk caches hold it: it leads to the pages that agree with an address above the index of its level. -/
def nodeEntry (ctx level shift : Nat) (va : Addr) (e : Nat) : NodeEntry :=
  { ctx := ctx, level := level, page := va.toNat / 2 ^ shift * 2 ^ (shift - 16), pages := 2 ^ (shift - 16), value := e }

/-- The walk of R283 from a node, for a context of a partition, by the walker of a slice. -/
def State.walkFrom (s : State) (part ctx slice : Nat) (va : Addr) (node : Nat) : List (Nat × Nat × Nat) → Walked
  | [] => Walked.before (.fault fWalk 0 (BitVec.ofNat 64 node) 0) none
  | (level, shift, width) :: rest =>
    match s.cachedNode? slice ctx level (va.toNat / 65536) with
    | some n => s.walkFrom part ctx slice va (pteNode n.value) rest
    | none =>
      let entry := node + 8 * field va.toNat shift width
      if !s.reachable slice entry then Walked.before (.far entry) none
      else if !s.ownerOk true part ctx entry then Walked.before (.fault fWalk 0 (BitVec.ofNat 64 node) 0) (some entry)
      else if s.poisoned entry 8 then Walked.at entry (.stop (.memErr entry))
      else
        let e := s.viewNat 0 entry 8
        if e % 2 == 0 then Walked.at entry (.stop (.fault fPage 0 va 0))
        else if level == 3 || field e 1 1 == 1 then
          if !leafOk level (packageOf slice) e then Walked.at entry (.stop (.fault fPte 0 va entry))
          else if pteRes e == 1 then Walked.at entry (.stop (.fault fPage 0 va 0))
          else if pteRes e == 3 then Walked.at entry (.stop (.migrating entry))
          else Walked.at entry (.leaf entry e (level == 2))
        else if !pointerOk (packageOf slice) e then Walked.at entry (.stop (.fault fPte 0 va entry))
        else if pteRes e == 1 then Walked.at entry (.stop (.fault fWalk 0 (BitVec.ofNat 64 (pteNode e)) 0))
        else if pteRes e == 3 then Walked.at entry (.stop (.migrating entry))
        else
          let w := s.walkFrom part ctx slice va (pteNode e) rest
          { w with nodes := nodeEntry ctx level shift va e :: w.nodes, reads := entry :: w.reads }

/-- The root of a context (R280, R312). -/
def State.rootOf (s : State) (part ctx : Nat) : Nat := (s.ctx part ctx).root.toNat

/-- The walker sets bits of an entry it read (R286). -/
def State.setEntryBits (s : State) (entry bitsWanted : Nat) : State :=
  let e := s.viewNat 0 entry 8
  if e &&& bitsWanted == bitsWanted then s else s.putClear entry (leBytes 8 (e ||| bitsWanted))

/-- What a walk leaves behind: the reads of nodes in other packages have crossed the port (R283, R345), the walk caches hold the pointer
entries it read (R285), and a home that refused it has told the partition kernel. DEDUCED (log entry 71): FILL_OWNER is posted for
information beside the walk fault in which the walk ends (R291), on the queue that serves the partition there (R338). -/
def State.afterWalk (s : State) (part ctx slice : Nat) (kid : Option Nat) (w : Walked) : State :=
  let s1 := s.forEach w.reads (fun s a => s.readOnce slice a 0 0 8)
  let old := (s.slice slice).nodes
  let s2 := if w.nodes.isEmpty && old.isEmpty then s1
    else { s1.modSlice slice (fun x => { x with nodes := w.nodes ++ old.filter (fun n => !w.nodes.any (fun m => m.covers n.ctx n.level n.page)) }) with
           freeCount := s1.freeCount + 1 }
  match w.refused with
  | some a =>
    let k := kid.bind s.kernel?
    (s2.postSliceFault (s.faultSlice slice part (k.elim slice Kernel.slice)) part (SysFault.ending fFillOwner 0 a) .info ctx kid (k.elim 0 kernelField) none).2
  | none => s2

/-- A walk that sets bits of the leaf it fills (R283, R286); the entry as it then stands. -/
def State.walkSetting (s : State) (part ctx slice : Nat) (kid : Option Nat) (va : Addr) (bitsOf : Nat → Nat) : WalkEnd × State :=
  let w := s.walkFrom part ctx slice va (s.rootOf part ctx) walkLevels
  let s1 := s.afterWalk part ctx slice kid w
  match w.stop with
  | .leaf entry e big => (.leaf entry (e ||| bitsOf e) big, s1.setEntryBits entry (bitsOf e))
  | .stop x => (.stop x, s1)

/-- The walk of an access (R286): A is set, and D for a write that the page allows. -/
def State.walk (s : State) (part ctx slice : Nat) (kid : Option Nat) (va : Addr) (write : Bool) : WalkEnd × State :=
  s.walkSetting part ctx slice kid va (fun e => if write && field e 4 1 == 1 then 192 else 64)

/-- A leaf gives an address its translation (R282). -/
def leafTrans (e : Nat) (big : Bool) (va : Addr) : Trans :=
  { paddr := pteFrame e * 65536 + va.toNat % (if big then 2 ^ 27 else 65536), kh := pteKh e, grain := field e 8 2,
    fresh := field e 22 1 == 1, r := true, w := field e 4 1 == 1, x := field e 5 1 == 1 }

/-- The 64 KB page number of an address. -/
def pageOf (va : Addr) : Nat := va.toNat / 65536

/-- A TLB entry covers a page of a context (R285). -/
def TlbEntry.covers (t : TlbEntry) (ctx page : Nat) : Bool :=
  t.ctx == ctx && (if t.big then t.page / 2048 == page / 2048 else t.page == page)

/-- The TLB with an entry added; 1,024 places, the oldest leaving (R285). -/
def Core.addTlb (k : Core) (t : TlbEntry) : Core :=
  { k with tlb := (t :: k.tlb.filter (fun u => !u.covers t.ctx t.page)).take 1024 }

/-- The translation of an access of a core through its TLB, and on a miss through the walker (R285, R286). A write through
an entry with D = 0 walks, so that D is set first where the page allows the write. -/
def State.xlateTlb (s : State) (core part ctx : Nat) (kid : Option Nat) (va : Addr) (write : Bool) : Xlate × State :=
  match (s.core core).tlb.find? (fun t => t.covers ctx (pageOf va) && (!write || pteD t.leaf.toNat)) with
  | some t => (.ok (leafTrans t.leaf.toNat t.big va), s)
  | none =>
    match s.walk part ctx (sliceOf core) kid va write with
    | (.leaf _ e big, s1) =>
      (.ok (leafTrans e big va),
       s1.modCore core (fun k => k.addTlb { ctx := ctx, page := pageOf va, big := big, leaf := BitVec.ofNat 64 e }))
    | (.stop x, s1) => (x, s1)

/-- An extent gives an address its translation, with the range's own bits (R288). -/
def Extent.trans (e : Extent) (va : Addr) : Trans :=
  { paddr := (e.frame + (pageOf va - e.page)) * 65536 + va.toNat % 65536, kh := e.kh, grain := e.grain, fresh := e.fresh,
    r := e.rangeR, w := e.w && e.rangeW, x := e.x }

/-- The extent that holds a page (R288). -/
def extentOf? (es : List Extent) (page : Nat) : Option Extent :=
  es.find? (fun e => decide (e.page ≤ page) && decide (page < e.page + e.pages))

/-- A SEALED slot that a kernel may use (R319): the kernel is bound and the slot's digest is its image's. -/
def Kernel.maySeal (k : Kernel) (slot : KeySlot) : Bool := k.bound && slot.digest == k.img

/-- The key-slot check of an access (R318). -/
def State.keyUsable (s : State) (part ctx kh : Nat) (k : Option Kernel) : Bool :=
  let slot := s.keySlot part kh
  slot.valid && (slot.owner == ctx || slot.owner == 0xFFFF) &&
    (slot.mark != 3 || (match k with | some k => k.maySeal slot | none => false))

/-- A translation that passes the key-slot check, or KEY_SLOT (R318). -/
def State.keyChecked (s : State) (part ctx : Nat) (k : Option Kernel) (va : Addr) : Xlate → Xlate
  | .ok t => if s.keyUsable part ctx t.kh k then .ok t else .fault fKeySlot 0 va t.kh
  | x => x

/-- Stage 3 of R155 for an access of a tuft at an address: by its extents, else by the TLB; then the key slot. -/
def State.xlateTuft (s : State) (tid core : Nat) (va : Addr) (write : Bool) : Xlate × State :=
  match s.tuft? tid with
  | none => (.fault fPage 0 va 0, s)
  | some t =>
    match s.kernel? t.kid with
    | none => (.fault fPage 0 va 0, s)
    | some k =>
      match extentOf? t.extents (pageOf va) with
      | some e => (s.keyChecked k.part k.ctx (some k) va (.ok (e.trans va)), s)
      | none =>
        let r := s.xlateTlb core k.part k.ctx (some t.kid) va write
        (r.2.keyChecked k.part k.ctx (some k) va r.1, r.2)

end Sys2Proof.Machine
end

