-- ==== Sys2Proof/Machine/Memory.lean ====
section
/-!
DEFINITION. Global memory behind the L1 and the store buffers (R157, R158, R166, R170, R171, R220 to R222, R289, R291):
sends and what they do at their homes, loads and when their data is taken, releases and acquires.
-/
namespace Sys2Proof.Machine

/-! ## Atomic operations (R165) -/

/-- A two's-complement choice between two words. -/
def pickSigned (wantMax : Bool) (a b : Word) : Word := if a.toInt < b.toInt then (if wantMax then b else a) else (if wantMax then a else b)
/-- An unsigned choice between two words. -/
def pickUnsigned (wantMax : Bool) (a b : Word) : Word := if a.toNat < b.toNat then (if wantMax then b else a) else (if wantMax then a else b)

/-- The width in bytes of an atomic operation (R165). -/
def atomWidth (op : Nat) : Nat := if op == 15 then 8 else if op == 12 || op == 13 || op == 14 then 16 else 4

/-- One operation on a location (R165): the new value and the value received, from the old value and the operands. -/
def atomOp (op old d d2 : Nat) : Nat × Nat :=
  let x : Word := BitVec.ofNat 32 old
  let w : Word := BitVec.ofNat 32 d
  match op with
  | 0 => ((x + w).toNat, old)
  | 1 => ((x - w).toNat, old)
  | 2 => ((pickSigned false x w).toNat, old)
  | 3 => ((pickSigned true x w).toNat, old)
  | 4 => ((pickUnsigned false x w).toNat, old)
  | 5 => ((pickUnsigned true x w).toNat, old)
  | 6 => ((x &&& w).toNat, old)
  | 7 => ((x ||| w).toNat, old)
  | 8 => ((x ^^^ w).toNat, old)
  | 9 => (w.toNat, old)
  | 10 => (if x == w then d2 % 2 ^ 32 else old, old)
  | 11 => ((fp32.add old d).1, old)
  | 12 => (((SumSlot.ofNat old).xadd d).toNat, (SumSlot.ofNat old).value)
  | 13 => (old, (SumSlot.ofNat old).value)
  | 14 => ((SumSlot.ofNat old).clear.toNat, (SumSlot.ofNat old).value)
  | _ => ((old + d) % 2 ^ 64, old)

/-- An atomic writes its location: every operation but XGET (R165). -/
def atomWrites (op : Nat) : Bool := op != 13

/-! ## Sends and homes (R158, R170, R221, R291) -/

/-- The line of a physical address. -/
def lineOf (paddr : Nat) : Nat := paddr / 128

/-- The counter of a home class (R170). -/
def Sheaf.counter (sh : Sheaf) : HomeClass → Nat
  | .slice => sh.cntSlice
  | .part => sh.cntPart
  | .sys => sh.cntSys

/-- A counter changed by an amount (R170). -/
def Sheaf.addCounter (sh : Sheaf) (c : HomeClass) (up : Bool) : Sheaf :=
  let f := fun n => if up then n + 1 else n - 1
  match c with
  | .slice => { sh with cntSlice := f sh.cntSlice }
  | .part => { sh with cntPart := f sh.cntPart }
  | .sys => { sh with cntSys := f sh.cntSys }

/-- The counters that a release of a scope waits on are zero (R170, R171): 2 SLICE, 3 PART, 4 SYS. -/
def Sheaf.countersZero (sh : Sheaf) (scope : Nat) : Bool :=
  (decide (scope < 2) || sh.cntSlice == 0) && (decide (scope < 3) || sh.cntPart == 0) && (decide (scope < 4) || sh.cntSys == 0)

/-- Put a message in place of the one of its number. -/
def State.setMsg (s : State) (m : Msg) : State := { s with msgs := s.msgs.map (fun x => if x.id == m.id then m else x) }

/-- The opcode of a send's request (R342). -/
def Msg.op (m : Msg) : LinkOp :=
  match m.kind with
  | .write => if m.engine.isSome then .engineWrite else .write
  | .atomic _ _ _ _ _ _ => .atomic

/-- The request of a send as a packet (R342). -/
def Msg.request (m : Msg) : LinkPacket :=
  { newPacket m.op (linkTag m.id 0) m.paddr m.kh m.bytes with
    atomic := match m.kind with | .write => none | .atomic op _ d d2 _ _ => some (op, d, d2) }

/-- The bytes of a request on the link (R342, R343): a header flit and the flits of its payload. -/
def Msg.size (m : Msg) : Nat := match m.kind with | .write => 64 + (m.bytes.length + 63) / 64 * 64 | .atomic _ _ _ _ _ _ => 128

/-- The bytes of a READ on the link: a header flit (R342). -/
def readSize : Nat := 64

/-- The send window of a port, in bytes (R340, R343). -/
def Port.window (p : Port) : Nat := 65536 * field p.lctl.toNat 16 8

/-- The unacknowledged sends of a slice to a package that stand before a point. -/
def State.aheadOf (s : State) (slice pkg : Nat) (stop : Msg → Bool) : List Msg :=
  (s.msgs.takeWhile (fun x => !stop x)).filter (fun x => sliceOf x.core == slice && x.paddr / 2 ^ 42 == pkg)

/-- The earlier unacknowledged sends of a send's slice to its package. -/
def State.aheadAtPort (s : State) (m : Msg) : List Msg := s.aheadOf (sliceOf m.core) (m.paddr / 2 ^ 42) (fun x => x.id == m.id)

/-- The bytes of the READs of a slice to a package that have left and have not been answered (R343): one that is answered at once takes its
room for that step only. -/
def State.readsOut (s : State) (slice pkg : Nat) : Nat :=
  (s.sheaves.filter (fun e => sliceOf e.2.core == slice)).foldl (fun n e => e.2.pend.foldl (fun n p =>
    if p.bound || p.tries == 0 then n else n + readSize * (p.source.filter (fun x => x.paddr / 2 ^ 42 == pkg)).length) n) 0

/-- The port holds a send to a remote line until the earlier ones of its core to that line are acknowledged, and while what its slice has
under way to that package leaves no room in the window (R343, R354). -/
def State.heldAtPort (s : State) (m : Msg) : Bool :=
  let slice := sliceOf m.core
  let before := s.aheadAtPort m
  remoteOf slice m.paddr &&
    (before.any (fun x => x.core == m.core && lineOf x.paddr == lineOf m.paddr) ||
      decide ((s.slice slice).port.window < before.foldl (fun n x => n + x.size) (m.size + s.readsOut slice (m.paddr / 2 ^ 42))))

/-- A send can reach its home (R341): the port carries packets and does not hold it, and no fence has dropped it (R354). -/
def State.carried (s : State) (m : Msg) : Bool := s.reachable (sliceOf m.core) m.paddr && decide (m.tries < 3) && !s.heldAtPort m

/-- The request of a send has left its port. -/
def State.departed (s : State) (m : Msg) : Bool :=
  (s.slice (sliceOf m.core)).port.sent.any (fun e => e.2.tag == linkTag m.id 0 && e.2.op == m.op && e.2.paddr == m.paddr)

/-- The request of a send to another package leaves its port, if it has not, once the port carries it (R343). -/
def State.depart (s : State) (m : Msg) : State :=
  if remoteOf (sliceOf m.core) m.paddr && s.carried m && !s.departed m then s.ask (sliceOf m.core) m.request else s

/-- A send of a sheaf leaves the core (R170), of an engine's command too (R343): it counts in one counter of the sheaf until its home
acknowledges it. due are the distances whose bytes an L1 copy has still to take. -/
def State.sendFor (s : State) (engine : Option Nat) (sid paddr : Nat) (bytes : Map Byte) (kh key : Nat) (kind : MsgKind) (due : List Nat) : State :=
  match s.sheaf? sid with
  | none => s
  | some sh =>
    let part := s.partOf sh
    let cls := s.homeClass part (sliceOf sh.core) paddr
    let m : Msg := { id := s.nextId, sid := sid, kid := (s.tuft? sh.tid).map Tuft.kid, core := sh.core, part := part, ctx := s.ctxOf sh, paddr := paddr, bytes := bytes,
                     key := key, kh := kh, cls := cls, kind := kind, performed := false, result := 0, tries := 0, due := due, engine := engine }
    State.depart { (s.setSheaf sid (sh.addCounter cls true)) with msgs := s.msgs ++ [m], nextId := s.nextId + 1 } m

/-- A sheaf's own send. -/
def State.send (s : State) (sid paddr : Nat) (bytes : Map Byte) (kh key : Nat) (kind : MsgKind) (due : List Nat) : State :=
  s.sendFor none sid paddr bytes kh key kind due

/-- The sends of an entry (R158, R289): the written bytes of each grain unit leave with their mask, a unit of 512 bytes line by line. -/
def BufEntry.units (e : BufEntry) : List (Map Byte) :=
  if e.grain == 1 then ((List.range 4).map (fun i => e.bytes.filter (fun b => b.1 / 32 == i))).filter (fun m => !m.isEmpty) else [e.bytes]

/-- Two entries lie in one grain unit (R289): one line, or the four lines of a 512-byte block. -/
def BufEntry.sameUnit (e x : BufEntry) : Bool :=
  x.key == e.key && (x.line == e.line || (e.grain == 2 && x.grain == 2 && x.line / 4 == e.line / 4))

/-- One entry is sent. -/
def State.sendOne (s : State) (sid : Nat) (e : BufEntry) : State :=
  (s.modSheaf sid (fun sh => { sh with buf := sh.buf.filter (fun x => !(x.line == e.line && x.key == e.key)) })).forEach e.units (fun s m =>
    s.send sid (e.line * 128) m e.kh e.key .write (e.hidden.filter (fun i => (m.find? i).isSome)))

/-- A buffer entry is sent with its byte mask, and with it the others of its grain unit (R158, R289). -/
def State.sendEntry (s : State) (sid : Nat) (e : BufEntry) : State :=
  match s.sheaf? sid with
  | none => s
  | some sh => s.forEach (sh.buf.filter e.sameUnit) (fun s x => s.sendOne sid x)

/-- A sheaf's whole buffer is sent, oldest entry first (R171). -/
def State.sendBuffer (s : State) (sid : Nat) : State :=
  match s.sheaf? sid with
  | none => s
  | some sh => s.forEach sh.buf (fun s e => s.sendEntry sid e)

/-- The entries of one line are sent (R158). -/
def State.sendLine (s : State) (sid line : Nat) : State :=
  match s.sheaf? sid with
  | none => s
  | some sh => s.forEach (sh.buf.filter (fun e => e.line == line)) (fun s e => s.sendEntry sid e)

/-- The sheaves that are resident on a core. -/
def State.sheavesOn (s : State) (core : Nat) : List Nat :=
  (s.sheaves.filter (fun e => e.2.core == core && e.2.state != .free && e.2.state != .suspended)).map Prod.fst

/-- The other sheaves of a core send their entries that hold one of the bytes a sheaf is about to write (R158: any point is a legal
one): what reached the L1 first stands first in coherence order, as R224 asks of writes that a CORE-scope release has ordered. So
no byte is unsent in two sheaves of a core (log entry 61). -/
def State.sendOverlaps (s : State) (sid core line : Nat) (bytes : Map Byte) : State :=
  s.forEach ((s.sheavesOn core).filter (· != sid)) (fun s y =>
    match s.sheaf? y with
    | none => s
    | some sh => s.forEach (sh.buf.filter (fun e => e.line == line && e.bytes.any (fun b => (bytes.find? b.1).isSome))) (fun s e => s.sendEntry y e))

/-! ## Engine commands (R201, R205, R343) -/

/-- OWNER (R205). -/
def copyOwner : Nat := 8
/-- MEMERR (R205). -/
def copyMemErr : Nat := 9

/-- A collective command as the engine commands' shared rules on pages and failures see it (R353). -/
def CollCmd.asCopy (c : CollCmd) : CopyCmd :=
  { id := c.id, tid := c.tid, sid := c.sid, tag := c.tag, kind := .lin, words := c.words, lstride := none, mark := c.mark, after := c.after,
    started := c.joined, token := c.token, failed := c.failed, skipped := c.skipped, tries := c.tries, wrote := c.wrote, outcome := c.outcome }

/-- What the shared rules change of a collective command. -/
def CollCmd.like (x : CollCmd) (c : CopyCmd) : CollCmd :=
  { x with token := c.token, failed := c.failed, skipped := c.skipped, tries := c.tries, wrote := c.wrote, outcome := c.outcome }

/-- Change a command of a core: in its copy engine, or in its slice's collective engine. -/
def State.modCopy (s : State) (core id : Nat) (f : CopyCmd → CopyCmd) : State :=
  if (s.core core).copies.any (fun c => c.id == id) then
    s.modCore core (fun k => { k with copies := k.copies.map (fun c => if c.id == id then f c else c) })
  else if (s.slice (sliceOf core)).colls.any (fun c => c.id == id) then
    s.modSlice (sliceOf core) (fun x => { x with colls := x.colls.map (fun c => if c.id == id then c.like (f c.asCopy) else c) })
  else s

/-- A write of an engine's command is out. -/
def State.engineOut (s : State) (id : Nat) : Bool := s.msgs.any (fun m => m.engine == some id)

/-- The slot that names an access in flight in a record: no word, the address of its group (R333). -/
def slotAt (sid : Nat) (a : Addr) : Slot := { Slot.none with sid := sid, addr := a, group := a }

/-- DETAIL of a refusal at a home (R334): the key handle for KEY_SLOT, else the physical address. -/
def refusalDetail (code kh paddr : Nat) : Nat := if code == fKeySlot then kh else paddr

/-- A sheaf, where it is still resident, becomes FAULTED for an access in flight, and its partition kernel hears of it (R291, R318); a
sheaf that is suspended or over only has its record. -/
def State.stopFlight (s : State) (sid : Nat) (a : Addr) (f : SysFault) : State :=
  match s.sheaf? sid with
  | some sh => if sh.state == .suspended || sh.live == 0 then (s.postSheafFault sid (slotAt sid a) f .info).2 else s.endSheaf sid (slotAt sid a) f
  | none => s

/-- A write of an engine's command is turned away, or has failed on its way (R204, R205, R344): its tag will report OWNER or MEMERR, and a
record informs. -/
def State.engineFails (s : State) (m : Msg) (code reason detail : Nat) : State :=
  (s.postSheafFault m.sid (slotAt m.sid 0) { SysFault.ending code 0 detail with reason := reason } .info).2.modCopy m.core (m.engine.getD 0)
    (fun c => { c with failed := some (c.failed.getD (if code == fMemErr then copyMemErr else copyOwner)) })

/-- A send is turned away at its home, or has failed on its way (R291, R318, R344): its sheaf is stopped; where that is gone, a record of
its slice names its kernel. DESIGN CHOICE (log entry 77): LANES are those the caller names, for a write the live ones. -/
def State.turnedAway (s : State) (m : Msg) (code reason detail : Nat) (lanes : Mask) (a : Addr) : State :=
  if m.engine.isSome then s.engineFails m code reason detail else
  match s.sheaf? m.sid with
  | some sh => s.stopFlight m.sid a { SysFault.ending code (if lanes == 0 then sh.live else lanes) detail with reason := reason }
  | none =>
    (s.postSliceFault (sliceOf m.core) m.part { SysFault.ending code lanes detail with reason := reason } .info m.ctx m.kid
      ((m.kid.bind s.kernel?).elim 0 kernelField) none).2

/-- The key slot of an access still holds the key it was translated with (R318). -/
def State.keyStands (s : State) (part kh key : Nat) : Bool :=
  let k := s.keySlot part kh
  kh == 0 || (k.valid && k.key == key)

/-- Why a home turns a requester away (R291, R318): FILL_OWNER, or KEY_SLOT for an erased slot. -/
def State.homeRefusal (s : State) (part ctx paddr kh key : Nat) : Option Nat :=
  if !s.ownerOk false part ctx paddr then some fFillOwner else if !s.keyStands part kh key then some fKeySlot else none

/-- What an atomic does at its home (R166): the operation, and the value received kept for the reply. -/
def State.atomicAtHome (s : State) (m : Msg) (op width d d2 : Nat) : State :=
  let r := atomOp op (s.viewNat m.key m.paddr width) d d2
  let new : Map Byte := if atomWrites op then (List.range width).zip (leBytes width r.1) else []
  (if atomWrites op then s.putBytes m.key m.paddr new else s.cacheRead m.paddr width).setMsg { m with performed := true, result := r.2, bytes := new }

/-- The address of the instruction that issued an atomic in flight (R333); 0 where nothing keeps it, as for a write. -/
def State.sourceOf (s : State) (m : Msg) : Addr :=
  match m.kind with
  | .write => 0
  | .atomic _ _ _ _ pid _ => ((s.sheaf? m.sid).bind (fun sh => sh.pend.find? (fun p => p.id == pid))).elim 0 Pending.group

/-- A send that its home turns away (R291, R318, R338): it moves nothing and is only acknowledged; of an atomic no lane receives data
from then on, and its sheaf is stopped once, at its instruction. -/
def State.refuseMsg (s : State) (m : Msg) (code : Nat) (lanes : Mask) : State :=
  let s1 := s.setMsg { m with performed := true, bytes := [], kind := .write }
  let tell := fun (s : State) (a : Addr) => s.turnedAway m code 0 (refusalDetail code m.kh m.paddr) lanes a
  match m.kind with
  | .write => tell s1 0
  | .atomic _ _ _ _ pid _ =>
    match s1.sheaf? m.sid with
    | none => tell s1 0
    | some sh => match sh.pend.find? (fun p => p.id == pid) with
      | some p => tell (s1.setSheaf m.sid { sh with pend := sh.pend.filter (fun q => q.id != pid) }) p.group
      | none => s1

/-! ## L1 copies (R157, R289) -/

/-- The first sector and the number of sectors of the grain unit that holds an address (R289): 0 128 B, 1 32 B, 2 512 B. -/
def grainUnit (grain paddr : Nat) : Nat × Nat :=
  match grain with
  | 1 => (paddr / 32, 1)
  | 2 => (paddr / 512 * 16, 16)
  | _ => (paddr / 128 * 4, 4)

/-- The valid sector of a number, where it was read or written under the key of the access (R368). -/
def Core.sector? (k : Core) (key n : Nat) : Option Sector :=
  match k.l1.find? n with
  | some x => if x.key == key then some x else none
  | none => none

/-- Write bytes over a valid sector. -/
def Sector.laidOver (x : Sector) (n paddr : Nat) (bytes : Map Byte) : Sector :=
  { x with bytes := (List.range 32).map (fun i =>
      if paddr ≤ 32 * n + i then (bytes.find? (32 * n + i - paddr)).getD (x.bytes.getD i 0) else x.bytes.getD i 0) }

/-- The sectors that a stretch touches. -/
def sectorsOf (paddr len : Nat) : List Nat := (List.range ((paddr + len + 31) / 32 - paddr / 32)).map (fun i => paddr / 32 + i)

/-- The span of bytes kept by their distance: one past the largest distance. -/
def spanOf (bytes : Map Byte) : Nat := bytes.foldl (fun m e => max m (e.1 + 1)) 0

/-- Bytes enter the L1 copies that exist under their key. -/
def State.layL1 (s : State) (core key paddr : Nat) (bytes : Map Byte) : State :=
  s.modCore core (fun k => (sectorsOf paddr (spanOf bytes)).foldl (fun k n =>
    match k.sector? key n with
    | some x => { k with l1 := k.l1.put n (x.laidOver n paddr bytes) }
    | none => k) k)

/-- A byte stands in a core's L1. -/
def State.inL1 (s : State) (core key a : Nat) : Bool := ((s.core core).sector? key (a / 32)).isSome

/-- A store's bytes enter the L1 copies that exist (R158); what earlier sends of the core would still bring to those bytes of the L1
is older and does not come (R222). -/
def State.updateL1 (s : State) (core key paddr : Nat) (bytes : Map Byte) : State :=
  let taken := fun a => decide (paddr ≤ a) && (bytes.find? (a - paddr)).isSome && s.inL1 core key a
  { s.layL1 core key paddr bytes with
    msgs := s.msgs.map (fun m => if m.core == core && !m.due.isEmpty then { m with due := m.due.filter (fun i => !taken (m.paddr + i)) } else m) }

/-- The bytes of a send that an L1 copy has still to take enter it, where a copy exists (R166, R220). -/
def State.bringDue (s : State) (m : Msg) : State := s.layL1 m.core m.key m.paddr (m.bytes.filter (fun b => m.due.contains b.1))

/-! ## Performing and answering (R166, R170, R221) -/

/-- Put a pending result in place of the one of its number. -/
def Sheaf.setPend (sh : Sheaf) (p : Pending) : Sheaf := { sh with pend := sh.pend.map (fun q => if q.id == p.id then p else q) }

/-- The words of a lane in a result. -/
def Pending.wordOf (p : Pending) (l i : Nat) : Word := ((p.data.find? (fun e => e.1 == l)).elim [] Prod.snd).getD i 0

/-- A result's lanes are written to its destination (R98, R56): the unit takes the mark itself once the last lane of a
whole write is there. A result that is written stays listed while its window lasts, since REPLAY checks the promise whether
or not the result is back (R99). -/
def Sheaf.deliver (sh : Sheaf) (p : Pending) (lanes : Mask) : Sheaf :=
  let done := lanes &&& p.lanes
  let rest := p.lanes &&& ~~~done
  let whole := p.whole && rest == 0
  let sh1 := if p.lanes == 0 then sh else (List.range p.regs.length).foldl (fun sh i =>
    let r := p.regs.getD i 0
    if p.varying then sh.writePhys r done whole (fun l => p.wordOf l i) p.mark else sh.writeU r (p.wordOf 0 i) p.mark) sh
  if rest == 0 && p.window == 0 then { sh1 with pend := sh1.pend.filter (fun q => q.id != p.id) } else sh1.setPend { p with lanes := rest }

/-- The pending result of a number. -/
def Sheaf.pend? (sh : Sheaf) (pid : Nat) : Option Pending := sh.pend.find? (fun p => p.id == pid)

/-- The words that a lane of an atomic receives (R165). -/
def atomWords (op result : Nat) : List Word :=
  if op == 15 then [BitVec.ofNat 32 result, BitVec.ofNat 32 (result / 2 ^ 32)] else [BitVec.ofNat 32 result]

/-- A message is acknowledged: it leaves its counter (R170). -/
def State.ackMsg (s : State) (m : Msg) : State :=
  { s.modSheaf m.sid (fun sh => sh.addCounter m.cls false) with msgs := s.msgs.filter (fun x => x.id != m.id) }

/-- The reply of a home atomic reaches its core: the lane is written, the L1 copy takes the new value, the counter falls
(R166, R170). -/
def State.replyMsg (s : State) (m : Msg) : State :=
  match m.kind with
  | .write => s.ackMsg m
  | .atomic op _ _ _ pid lane =>
    let s1 := (s.bringDue m).ackMsg m
    s1.modSheaf m.sid (fun sh => match sh.pend? pid with
      | some p =>
        let q := { p with data := p.data ++ [(lane, atomWords op m.result)] }
        (sh.setPend q).deliver q (maskOf (fun l => l == lane))
      | none => sh)

/-- The message of a number. -/
def State.msg? (s : State) (id : Nat) : Option Msg := s.msgs.find? (fun m => m.id == id)

/-- What a send does at its home (R221, R291, R318, R338). -/
def State.performAt (s : State) (m : Msg) : State :=
  match s.homeRefusal m.part m.ctx m.paddr m.kh m.key with
  | some code => s.refuseMsg m code 0
  | none =>
    match m.kind with
    | .write => ((s.putBytes m.key m.paddr m.bytes).bringDue m).setMsg { m with performed := true }
    | .atomic op width d d2 _ lane =>
      if s.poisoned m.paddr width then s.refuseMsg m fMemErr (maskOf (fun l => l == lane))
      else s.atomicAtHome m op width d d2

/-- The response to a send that has performed leaves its home (R343): an atomic's with the value it received. -/
def State.giveAnswer (s : State) (m : Msg) : State :=
  let bs := match m.kind, s.msg? m.id with
    | .atomic op _ _ _ _ _, some q => (match q.kind with | .write => [] | .atomic _ _ _ _ _ _ => leBytes (if op == 15 then 8 else 4) q.result)
    | _, _ => []
  s.tellBack (sliceOf m.core) (newPacket ((answerOp m.op).getD m.op) (linkTag m.id 0) m.paddr m.kh (bs.mapIdx (fun i b => (i, b))))

/-- A send performs at its home; one that cannot reach it stays unanswered (R341, R344). To another package its request and its response
cross as packets (R343). -/
def State.performMsg (s : State) (m : Msg) : State :=
  if m.performed || !s.carried m then s else ((s.depart m).performAt m).giveAnswer m

/-- A send that has performed is answered where its answer can come. -/
def State.answerIf (s : State) (mid : Nat) : State :=
  match s.msg? mid with
  | some m => if m.performed && s.carried m then s.replyMsg m else s
  | none => s

/-- The send of a number performs. -/
def State.performId (s : State) (mid : Nat) : State := match s.msg? mid with | some m => s.performMsg m | none => s

/-- What the port holds a send behind is answered, so that it may go (R343). -/
def State.makeRoom (s : State) (mid : Nat) : State :=
  match s.msg? mid with
  | some m => if s.heldAtPort m then s.forEach (s.aheadAtPort m) (fun s x => (s.performId x.id).answerIf x.id) else s
  | none => s

/-- Accesses of one core to one line reach the home in the order the core sends them (R158): those sent before a point
perform first, and those to a remote line are acknowledged as well (R343). -/
def State.performBefore (s : State) (core line : Nat) (stop : Msg → Bool) : State :=
  let before := (s.msgs.takeWhile (fun m => !stop m)).filter (fun m => m.core == core && lineOf m.paddr == line)
  s.forEach before (fun s m =>
    let s1 := (s.makeRoom m.id).performId m.id
    if remoteOf (sliceOf core) m.paddr then s1.answerIf m.id else s1)

/-- A send performs, after earlier sends of its core to its line, and is answered. -/
def State.finishMsg (s : State) (m : Msg) : State :=
  (((s.performBefore m.core (lineOf m.paddr) (fun x => x.id == m.id)).makeRoom m.id).performId m.id).answerIf m.id

/-- Every earlier send of a core to a line performs. -/
def State.performLine (s : State) (core line : Nat) : State := s.performBefore core line (fun _ => false)

/-- An earlier send of a core to a remote line cannot reach its home, and no read of the line passes it (R158, R343). -/
def State.blockedLine (s : State) (core line : Nat) : Bool :=
  remoteOf (sliceOf core) (128 * line) &&
    (s.performLine core line).msgs.any (fun m => m.core == core && lineOf m.paddr == line && !m.performed && decide (m.tries < 3))

/-- A core's read of an address cannot reach its home now (R158, R341, R343). -/
def State.cannotReach (s : State) (core paddr : Nat) : Bool := !s.reachable (sliceOf core) paddr || s.blockedLine core (lineOf paddr)

/-- What the core's atomics to a line have computed at its home enters the L1 copy now (R166). -/
def State.bringLine (s : State) (core line : Nat) : State :=
  s.forEach (s.msgs.filter (fun m => m.core == core && lineOf m.paddr == line && m.performed && !m.due.isEmpty)) (fun s m =>
    (s.bringDue m).setMsg { m with due := [] })

/-- A core has read some sectors at their homes: what its sends that have performed would still bring to the copies is older (R222). -/
def State.settleDue (s : State) (core : Nat) (secs : List Nat) : State :=
  { s with msgs := s.msgs.map (fun m =>
      if m.core == core && m.performed then { m with due := m.due.filter (fun i => !secs.contains ((m.paddr + i) / 32)) } else m) }

/-! ## L1 fills and evictions (R157, R244, R289) -/

/-- The bytes of an entry that an L1 copy has taken (R220). -/
def BufEntry.shown (e : BufEntry) : Map Byte := e.bytes.filter (fun b => !e.hidden.contains b.1)

/-- The unsent bytes of the sheaves of a core that stand in the copy of a sector; no two sheaves hold the same byte (sendOverlaps). -/
def State.unsentIn (s : State) (core key n : Nat) : List (Nat × Map Byte) :=
  (s.sheavesOn core).flatMap (fun sid => match s.sheaf? sid with
    | some sh => (sh.buf.filter (fun e => e.line == n / 4 && e.key == key && e.shown.any (fun b => (e.line * 128 + b.1) / 32 == n))).map (fun e => (e.line * 128, e.shown))
    | none => [])

/-- The lines of which an L1 holds a sector, in ascending order. -/
def Core.lines (k : Core) : List Nat :=
  (k.l1.foldl (fun (acc : List Nat) e => if acc.head? == some (e.1 / 4) then acc else e.1 / 4 :: acc) []).reverse

/-- The granules of 4 KB that LSPLIT leaves to the L1 (R241). -/
def Core.granules (k : Core) : Nat := 256 - 16 * field k.lsched.toNat 24 4

/-- A line leaves the L1, its tag with the slot that last allocated it replacing the oldest of 2,048 (R244). -/
def Core.evict (k : Core) (line : Nat) : Core :=
  let owner := ((k.l1.filter (fun e => e.1 / 4 == line)).head?).elim 0 (fun e => e.2.owner)
  let tags := k.victims ++ [(line, owner)]
  { k with l1 := k.l1.reject (fun n _ => n / 4 == line), victims := tags.drop (tags.length - 2048) }

/-- The lines that may leave: none of the unit just filled, none with unsent bytes of the core's sheaves; those that stand first
for replacement where there are any (R158, log entry 20). -/
def State.evictable (s : State) (core : Nat) (keep : List Nat) : List Nat :=
  let k := s.core core
  let free := k.lines.filter (fun l => !keep.contains l &&
    (s.sheavesOn core).all (fun sid => match s.sheaf? sid with | some sh => sh.buf.all (fun e => e.line != l) | none => true))
  let first := free.filter (fun l => k.l1.any (fun e => e.1 / 4 == l && e.2.first))
  if first.isEmpty then free else first

/-- Lines are evicted until the L1 holds no more than its granules (R241, R244); which one leaves is free. -/
def State.evictOver (s : State) (core : Nat) (keep : List Nat) : Nat → State
  | 0 => s
  | fuel + 1 =>
    if (s.core core).lines.length ≤ 32 * (s.core core).granules then s
    else
      let c := s.evictable core keep
      if c.isEmpty then s
      else
        let r := s.choose c.length
        (r.2.modCore core (fun k => k.evict (c.getD r.1 0))).evictOver core keep fuel

/-- The lease of measured mode (R242). -/
def Lease.measuredValue (x : Lease) : Nat := min 255 ((x.d + 31) / 32 + x.vg)

/-- The lease follows D and VG in measured mode (R242). -/
def Lease.follow (x : Lease) : Lease := if x.measured then { x with lease := x.measuredValue } else x

/-- A miss that matches a victim tag of its slot removes the tag, and a sheaf in measured mode gains a victim grant (R244). -/
def State.victimGrant (s : State) (core owner line : Nat) : State :=
  match (s.sheaves.filter (fun e => e.2.core == core && e.2.slotNo == owner && e.2.lease.measured &&
    (match s.tuft? e.2.tid with | some t => (t.state == .resident || t.state == .aborted) && !t.parked | none => false))).head? with
  | some (sid, sh) =>
    if (s.core core).victims.contains (line, owner) then
      (s.modCore core (fun k => { k with victims := k.victims.erase (line, owner) })).setSheaf sid
        { sh with lease := { sh.lease with vg := min 255 (sh.lease.vg + 1) }.follow }
    else s
  | none => s

/-- The slot that allocates in a line owns the line (R244). -/
def Core.ownLine (k : Core) (owner line : Nat) : Core :=
  { k with l1 := k.l1.map (fun e => if e.1 / 4 == line then (e.1, { e.2 with owner := owner }) else e) }

/-- The sectors of a grain unit that are not valid are read at the home (R157, R289). DESIGN CHOICE (log entry 77): a poisoned sector is
not allocated; a weak store that asked for it goes on without a copy. -/
def Core.fill (k : Core) (s : State) (owner key grain : Nat) (u : Nat × Nat) (first : Bool) : Core :=
  (List.range u.2).foldl (fun k i =>
    let n := u.1 + i
    match k.sector? key n with
    | some x => if first then { k with l1 := k.l1.put n { x with first := true } } else k
    | none =>
      if s.isPoisoned n then k
      else { k with l1 := k.l1.put n { bytes := s.viewSector key n, key := key, owner := owner, first := first, grain := grain } }.ownLine owner (n / 4)) k

/-- A grain unit is allocated: every sector of it that is not valid is read at the home, after the core's earlier sends to its lines
(R157, R158, R289); a miss may match a victim tag, and lines beyond the L1's size are evicted, but none of the unit and none of
those to be kept (R244). -/
def State.fillUnit (s : State) (core owner key grain paddr : Nat) (first : Bool) (keep : List Nat) : State :=
  let u := grainUnit grain paddr
  let lines := ((List.range u.2).map (fun i => (u.1 + i) / 4)).eraseDups
  let s0 := s.forEach lines (fun s l => s.performLine core l)
  let s1 := if ((s0.core core).sector? key (paddr / 32)).isSome then s0 else s0.victimGrant core owner (lineOf paddr)
  let read := ((List.range u.2).map (fun i => u.1 + i)).filter (fun n => ((s1.core core).sector? key n).isNone)
  let s2 := s1.forEach ((read.filter (fun n => n / 4 != lineOf paddr)).map (fun n => n / 4)).eraseDups (fun s l => s.readOnce (sliceOf core) (128 * l) 0 key 128)
  (((s2.cacheSectors false read).modCore core (fun k => k.fill s2 owner key grain u first)).settleDue core read).evictOver core (lines ++ keep) 4096

/-- A sector is read again from its home and the unsent bytes are laid over it (R171). -/
def State.refreshSector (s : State) (core key n : Nat) : State :=
  match (s.core core).l1.find? n with
  | none => s
  | some old =>
    let home : Sector := { old with bytes := s.viewSector key n, key := key }
    let x := (s.unsentIn core key n).foldl (fun x e => x.laidOver n e.1 e.2) home
    (s.modCore core (fun k => { k with l1 := k.l1.put n x })).settleDue core [n]

/-- The sectors of the grain unit of a sector (R289). -/
def Sector.unit (x : Sector) (n : Nat) : List Nat :=
  let u := grainUnit x.grain (32 * n)
  (List.range u.2).map (fun i => u.1 + i)

/-- The unit of a copy holds unsent bytes of some sheaf of its core (R171). -/
def State.unitDirty (s : State) (core : Nat) (e : Nat × Sector) : Bool := (e.2.unit e.1).any (fun n => !(s.unsentIn core e.2.key n).isEmpty)

/-- An invalidation of the grain units in which a sector meets a test (R171, R289): a unit with unsent bytes of any sheaf of the core is
read again. DESIGN CHOICE (log entry 77): that read is checked neither for its owner nor for poison, and the sector stays valid. -/
def State.invalidate (s : State) (core : Nat) (test : Nat → Bool) : State :=
  s.forEach (((s.core core).l1).filter (fun e => (e.2.unit e.1).any test)) (fun s e =>
    if s.unitDirty core e then ((s.performLine core (e.1 / 4)).readOnce (sliceOf core) (32 * e.1) 0 e.2.key 32).refreshSector core e.2.key e.1
    else s.modCore core (fun k => { k with l1 := k.l1.drop e.1 }))

/-- An address that an invalidation has to read again and cannot reach (R171, R341). -/
def State.refreshBlocked? (s : State) (core : Nat) (test : Nat → Bool) : Option Nat :=
  ((s.core core).l1).findSome? (fun e => if (e.2.unit e.1).any test && s.unitDirty core e && s.cannotReach core (32 * e.1) then some (32 * e.1) else none)

/-- The invalidation of an acquire at a scope, judged from the core's slice, for a partition (R171). -/
def State.invalidateScope (s : State) (core part scope : Nat) : State :=
  if scope < 2 then s
  else s.invalidate core (fun n => classCovered scope (s.homeClass part (sliceOf core) (32 * n)))

/-- An address that keeps the invalidation of an acquire back. -/
def State.scopeBlocked? (s : State) (core part scope : Nat) : Option Nat :=
  if scope < 2 then none
  else s.refreshBlocked? core (fun n => classCovered scope (s.homeClass part (sliceOf core) (32 * n)))

/-! ## Loads (R157, R221, R222) -/

/-- The sheaf's own unsent byte at an address (R157). -/
def Sheaf.unsentByte? (sh : Sheaf) (key paddr : Nat) : Option Byte :=
  sh.buf.findSome? (fun e => if e.line == lineOf paddr && e.key == key then e.bytes.find? (paddr % 128) else none)

/-- Some sector of a stretch is not valid in a core's L1 under a key. -/
def State.notValid (s : State) (core key paddr len : Nat) : Bool := (sectorsOf paddr len).any (fun n => ((s.core core).sector? key n).isNone)

/-- A load of a stretch makes ready the L1 copies it reads or updates (R157): a weak load fills a missing grain unit, a fresh
load reads again the sectors of a copy that exists. -/
def State.readyLoad (s : State) (sh : Sheaf) (src : Src) (len : Nat) (keep : List Nat) : State :=
  if src.fresh then
    s.forEach (sectorsOf src.paddr len) (fun s n => if ((s.core sh.core).sector? src.key n).isSome then s.refreshSector sh.core src.key n else s)
  else if s.notValid sh.core src.key src.paddr len then s.fillUnit sh.core sh.slotNo src.key src.grain src.paddr false keep
  else s

/-- The sheaf has sent an atomic that touches a stretch and whose value no copy has yet. -/
def State.ownAtomic (s : State) (sid paddr len : Nat) : Bool :=
  s.msgs.any (fun m => m.sid == sid && !m.due.isEmpty && (match m.kind with
    | .atomic _ width _ _ _ _ => decide (m.paddr < paddr + len) && decide (paddr < m.paddr + width)
    | .write => false))

/-- The byte a load receives: the sheaf's own unsent write, else the L1 copy for a weak load, else the home's (R157). -/
def State.loadByte (s : State) (sh : Sheaf) (src : Src) (a : Nat) : Byte :=
  match sh.unsentByte? src.key a with
  | some b => b
  | none =>
    if src.fresh || src.missed then s.viewByte src.key a
    else match (s.core sh.core).sector? src.key (a / 32) with
      | some x => x.bytes.getD (a % 32) 0
      | none => s.viewByte src.key a

/-- How a load's data ends: bytes, or why its home gave none (R291, R318, R338), with the DETAIL of the record. -/
inductive Fetched where
  | ok (bs : List Byte)
  | bad (code detail : Nat)
  deriving DecidableEq, Repr

/-- A load needs its home: a fresh one always, a weak one where a sector is not valid, or was not when it began to read (R157, R222). -/
def State.needsHome (s : State) (sh : Sheaf) (src : Src) (len : Nat) : Bool :=
  src.fresh || src.missed || s.notValid sh.core src.key src.paddr len

/-- A lane's load is checked at its home and the copies it reads are made ready (R157, R291, R338): why the home gives nothing, with the
DETAIL of the record. A read of the home follows the core's earlier sends to the line (R158), a read of the copy the sheaf's own atomics
on it (R226). Lines to be kept are not evicted. A read that crosses to another package carries the tag (R343). -/
def State.readyLane (s : State) (sid : Nat) (src : Src) (len : Nat) (keep : List Nat) (tag : Nat) : Option (Nat × Nat) × State :=
  match s.sheaf? sid with
  | none => (none, s)
  | some sh =>
    let home := s.needsHome sh src len
    match (if home then s.homeRefusal (s.partOf sh) (s.ctxOf sh) src.paddr src.kh src.key else none) with
    | some code => (some (code, refusalDetail code src.kh src.paddr), s.readAcross (sliceOf sh.core) .read tag src.paddr src.kh len [])
    | none =>
      let s1 := if home then s.performLine sh.core (lineOf src.paddr)
        else if s.ownAtomic sid src.paddr len then (s.performLine sh.core (lineOf src.paddr)).bringLine sh.core (lineOf src.paddr) else s
      let bad := home && s1.poisoned src.paddr len
      let s2 := if home then s1.readAcross (sliceOf sh.core) .read tag src.paddr src.kh len (if bad then [] else s1.viewBytes src.key src.paddr len)
        else s1
      if bad then (some (fMemErr, src.paddr), s2) else (none, s2.readyLoad sh src len keep)

/-- The bytes that a lane whose copies are ready receives (R157). -/
def State.laneBytes (s : State) (sid : Nat) (src : Src) (len : Nat) : List Byte :=
  match s.sheaf? sid with
  | none => List.replicate len 0
  | some sh => (List.range len).map (fun i => s.loadByte sh src (src.paddr + i))

/-- The data of one lane's load (R157, R291, R338). -/
def State.fetchData (s : State) (sid : Nat) (src : Src) (len : Nat) : Fetched × State :=
  match s.readyLane sid src len [] (linkTag s.nextId src.lane) with
  | (some (code, detail), s1) => (.bad code detail, s1)
  | (none, s1) => (.ok (s1.laneBytes sid src len), s1)

/-- A loaded element widened (R59, R160). -/
def widenBytes (w : Widen) (bs : List Byte) : List Word :=
  match w with
  | .none => (List.range (bs.length / 4)).map (fun i => BitVec.ofNat 32 (natAt bs (4 * i) 4))
  | .u8 => [BitVec.ofNat 32 (natAt bs 0 1)]
  | .s8 => [BitVec.ofInt 32 (signed 8 (natAt bs 0 1))]
  | .u16 => [BitVec.ofNat 32 (natAt bs 0 2)]
  | .s16 => [BitVec.ofInt 32 (signed 16 (natAt bs 0 2))]

/-- A send cannot be answered now (R341, R343). -/
def State.stuckMsg (s : State) (m : Msg) : Bool := remoteOf (sliceOf m.core) m.paddr && ((s.finishMsg m).msg? m.id).isSome

/-- What a slice has under way to a package is acknowledged as far as it can be, so that a READ finds room in the window (R343). -/
def State.clearWindow (s : State) (slice pkg : Nat) : State :=
  s.forEach (s.aheadOf slice pkg (fun _ => false)) (fun s x => (s.performId x.id).answerIf x.id)

/-- The other packages whose bytes a load reads. -/
def Pending.packages (p : Pending) (slice : Nat) : List Nat :=
  ((p.source.filter (fun x => remoteOf slice x.paddr)).map (fun x => x.paddr / 2 ^ 42)).eraseDups

/-- The READs of a load to a package find room in the send window (R343). -/
def State.readFits (s : State) (slice : Nat) (p : Pending) (pkg : Nat) : Bool :=
  let own := readSize * (p.source.filter (fun x => x.paddr / 2 ^ 42 == pkg)).length
  decide ((s.aheadOf slice pkg (fun _ => false)).foldl (fun n x => n + x.size) ((if p.tries == 0 then own else 0) + s.readsOut slice pkg) ≤
    (s.slice slice).port.window)

/-- The READs of a load find no room in the send window, whatever is acknowledged now (R343). -/
def State.readHeld (s : State) (slice : Nat) (p : Pending) : Bool :=
  (p.packages slice).any (fun pkg => !s.readFits slice p pkg && !(s.clearWindow slice pkg).readFits slice p pkg)

/-- Room is made for the READs of a load, where there is none (R343). -/
def State.roomFor (s : State) (slice : Nat) (p : Pending) : State :=
  s.forEach (p.packages slice) (fun s pkg => if s.readFits slice p pkg then s else s.clearWindow slice pkg)

/-- A result in flight cannot come in while a port carries no packets of it, or holds what must go before it (R341, R343). -/
def State.stuckResult (s : State) (sid : Nat) (sh : Sheaf) (p : Pending) : Bool :=
  match p.kind with
  | .load _ _ => !p.bound && (p.tries == 3 || p.source.any (fun x => s.cannotReach sh.core x.paddr) || s.readHeld (sliceOf sh.core) p)
  | .value => false
  | .atomic => s.msgs.any (fun m => m.sid == sid && (match m.kind with | .atomic _ _ _ _ pid _ => pid == p.id | .write => false) && s.stuckMsg m)

/-- A sheaf has a result in flight that cannot come in. -/
def State.stuckSheaf (s : State) (sid : Nat) : Bool :=
  match s.sheaf? sid with
  | some sh => sh.pend.any (fun p => s.stuckResult sid sh p)
  | none => false

/-- A tuft has a result in flight that cannot come in. -/
def State.stuckTuft (s : State) (tid : Nat) : Bool :=
  match s.tuft? tid with
  | some t => t.sheaves.any (fun sid => s.stuckSheaf sid)
  | none => false

/-- The lanes of a load are made ready one after the other, keeping each other's lines, up to the first that its home refuses. -/
def State.readyLanes (s : State) (sid id : Nat) (xs : List Src) (size : Nat) : Option (Nat × Nat) × State :=
  let keep := (xs.map (fun x => lineOf x.paddr)).eraseDups
  xs.foldl (fun (acc : Option (Nat × Nat) × State) src =>
    match acc.1 with
    | some _ => acc
    | none => acc.2.readyLane sid src size keep (linkTag id src.lane)) (none, s)

/-- What a load in flight reads: where a sector that was not valid at its issue has become so, it takes the copy or reads the home itself,
by a free choice (R222, R229). -/
def State.lateSources (s : State) (sh : Sheaf) (xs : List Src) (size : Nat) : List Src × State :=
  let late := fun (x : Src) => x.missed && !s.notValid sh.core x.key x.paddr size
  if xs.any late then
    let r := s.choose 2
    (xs.map (fun x => { x with missed := late x && r.1 == 1 }), r.2)
  else (xs.map (fun x => { x with missed := false }), s)

/-- The data of a load in flight is taken for every lane at one moment, so that every lane sees one value of a byte (R152); a fill
that its home refuses ends the sheaf (R155, R291, R338). -/
def State.bindOne (s : State) (sid : Nat) (p : Pending) : State :=
  match p.kind with
  | .load size widen =>
    match s.sheaf? sid with
    | none => s
    | some sh =>
      if p.bound || s.stuckResult sid sh p then s
      else
        let xs := (s.roomFor (sliceOf sh.core) p).lateSources sh p.source size
        match xs.2.readyLanes sid p.id xs.1 size with
        | (none, s1) =>
          s1.modSheaf sid (fun sh => sh.setPend { p with data := xs.1.map (fun src => (src.lane, widenBytes widen (s1.laneBytes sid src size))), bound := true })
        | (some (code, detail), s1) =>
          (s1.modSheaf sid (fun sh => { sh with pend := sh.pend.filter (fun q => q.id != p.id) })).stopFlight sid p.group
            (SysFault.ending code p.lanes detail)
  | _ => s

/-- The bytes per lane of a load. -/
def Pending.size (p : Pending) : Nat := match p.kind with | .load n _ => n | _ => 0

/-- A load in flight reads some byte of a stretch. -/
def Pending.reads (p : Pending) (paddr len : Nat) : Bool :=
  match p.kind with
  | .load size _ => !p.bound && p.source.any (fun x => decide (x.paddr < paddr + len) && decide (paddr < x.paddr + size))
  | _ => false

/-- Two loads read a common byte fresh, so that they take effect in program order (R221). -/
def Pending.sharesFresh (p q : Pending) : Bool :=
  p.source.any (fun x => x.fresh && q.source.any (fun y => y.fresh && decide (x.paddr < y.paddr + q.size) && decide (y.paddr < x.paddr + p.size)))

/-- The earlier loads that must take their data before a load (R221): those it shares a fresh byte with, and those that these must
follow, oldest first. Weak loads follow no order among themselves (R222). -/
def freshBefore (pend : List Pending) (p : Pending) : List Pending :=
  (pend.takeWhile (fun q => q.id != p.id)).foldr (fun q acc => if !q.bound && (acc ++ [p]).any (fun r => q.sharesFresh r) then q :: acc else acc) []

/-- A load in flight takes its data, after the earlier ones that it must follow (R221). -/
def State.bindLoad (s : State) (sid : Nat) (p : Pending) : State :=
  match s.sheaf? sid with
  | none => s
  | some sh => (s.forEach (freshBefore sh.pend p) (fun s q => s.bindOne sid q)).bindOne sid p

/-- A sheaf's later store is never seen by its earlier loads (R221): loads in flight that read a byte of a stretch take
their data now. -/
def State.bindReads (s : State) (sid paddr len : Nat) : State :=
  match s.sheaf? sid with
  | none => s
  | some sh => s.forEach (sh.pend.filter (fun p => p.reads paddr len)) (fun s p =>
      match (s.sheaf? sid).bind (fun y => y.pend? p.id) with
      | some q => s.bindLoad sid q
      | none => s)

/-- A load returns for some lanes (R157): all its lanes take their data at one moment. -/
def State.returnLoad (s : State) (sid pid : Nat) (lanes : Mask) : State :=
  match (s.sheaf? sid).bind (fun sh => (sh.pend? pid).filter (fun p => !s.stuckResult sid sh p)) with
  | none => s
  | some p =>
    let s1 := s.bindLoad sid p
    match (s1.sheaf? sid).bind (fun sh => sh.pend? pid) with
    | none => s1
    | some q => s1.modSheaf sid (fun sh => sh.deliver q lanes)

/-! ## Acknowledgements and replies (R166, R170) -/

/-- A result in flight is brought in (R98): a load returns, a home atomic performs and is answered, a computed value is
written. -/
def State.forceResult (s : State) (sid : Nat) (p : Pending) : State :=
  match p.kind with
  | .load _ _ => s.returnLoad sid p.id allLanes
  | .value => s.modSheaf sid (fun sh => match sh.pend? p.id with | some q => sh.deliver q allLanes | none => sh)
  | .atomic =>
    s.forEach (s.msgs.filter (fun m => m.sid == sid && (match m.kind with | .atomic _ _ _ _ pid _ => pid == p.id | .write => false)))
      (fun s m => s.finishMsg m)

/-- Every result in flight of a sheaf that meets a test is brought in, oldest first. -/
def State.forceResults (s : State) (sid : Nat) (test : Pending → Bool) : State :=
  match s.sheaf? sid with
  | none => s
  | some sh => s.forEach (sh.pend.filter test) (fun s p => s.forceResult sid p)

/-! ## Stores (R158, R220) -/

/-- One lane's store: translation, key, bytes. -/
structure LaneStore where
  trans : Trans
  key   : Nat
  bytes : List Byte
  deriving DecidableEq, Repr

/-- The lines a store's lanes write, with their bytes; the highest lane's byte stands (R152). -/
def lineStores (xs : List LaneStore) : List (Nat × LaneStore × Map Byte) :=
  xs.foldl (fun acc x =>
    let line := lineOf x.trans.paddr
    let bs := spread (x.trans.paddr % 128) x.bytes
    if acc.any (fun e => e.1 == line && e.2.1.key == x.key) then
      acc.map (fun e => if e.1 == line && e.2.1.key == x.key then (e.1, e.2.1, bs.foldl (fun m b => m.put b.1 b.2) e.2.2) else e)
    else acc ++ [(line, x, bs.foldl (fun (m : Map Byte) b => m.put b.1 b.2) [])]) []

/-- Bytes enter a sheaf's buffer (R158): they merge into an unsent entry of the line, else take a new entry, the oldest of 16
being sent first. hidden are the offsets of those that no L1 copy has taken. -/
def State.buffer (s : State) (sid line : Nat) (bytes : Map Byte) (kh key grain : Nat) (hidden : List Nat) : State :=
  match s.sheaf? sid with
  | none => s
  | some sh =>
    if sh.buf.any (fun e => e.line == line && e.key == key) then
      s.setSheaf sid { sh with buf := sh.buf.map (fun e =>
        if e.line == line && e.key == key then
          { e with bytes := bytes.foldl (fun m b => m.put b.1 b.2) e.bytes, hidden := e.hidden.filter (fun i => (bytes.find? i).isNone) ++ hidden }
        else e) }
    else
      let s1 := if 16 ≤ sh.buf.length then (match sh.buf with | e :: _ => s.sendEntry sid e | [] => s) else s
      s1.modSheaf sid (fun sh => { sh with buf := sh.buf ++ [{ line := line, bytes := bytes, key := key, kh := kh, grain := grain, hidden := hidden }] })

/-- The offsets in a line of the bytes that stand in no L1 copy of a core. -/
def State.notInL1 (s : State) (core key line : Nat) (bytes : Map Byte) : List Nat :=
  (bytes.filter (fun b => !s.inL1 core key (line * 128 + b.1))).map Prod.fst

/-- A weak store of one line (R158): the L1 copy first, allocated unless the hint is `.na`, then the buffer. -/
def State.storeWeak (s : State) (sid : Nat) (hint : Nat) (line : Nat) (x : LaneStore) (bytes : Map Byte) : State :=
  match s.sheaf? sid with
  | none => s
  | some sh =>
    let base := line * 128
    let s0 := (s.bindReads sid base 128).sendOverlaps sid sh.core line bytes
    let mayFill := hint != 1 && (s0.homeRefusal (s0.partOf sh) (s0.ctxOf sh) base x.trans.kh x.key).isNone
    let secs := (bytes.map (fun b => (base + b.1) / 32)).eraseDups
    let s1 := if mayFill then secs.foldl (fun s n => s.fillUnit sh.core sh.slotNo x.key x.trans.grain (32 * n) (hint == 2) []) s0 else s0
    let hidden := s1.notInL1 sh.core x.key line bytes
    (s1.updateL1 sh.core x.key base bytes).buffer sid line bytes x.trans.kh x.key x.trans.grain hidden

/-- A strong store of one line (R158): earlier unsent bytes of the line go first, an L1 copy is updated, the send leaves at
once. -/
def State.storeStrong (s : State) (sid : Nat) (line : Nat) (x : LaneStore) (bytes : Map Byte) : State :=
  match s.sheaf? sid with
  | none => s
  | some sh =>
    let s1 := ((s.bindReads sid (line * 128) 128).sendOverlaps sid sh.core line bytes).sendLine sid line
    let hidden := s1.notInL1 sh.core x.key line bytes
    (s1.updateL1 sh.core x.key (line * 128) bytes).send sid (line * 128) bytes x.trans.kh x.key .write hidden

/-- A store instruction's lanes store (R158). -/
def State.storeLanes (s : State) (sid : Nat) (strong : Bool) (hint : Nat) (xs : List LaneStore) : State :=
  s.forEach (lineStores xs) (fun s e => if strong then s.storeStrong sid e.1 e.2.1 e.2.2 else s.storeWeak sid hint e.1 e.2.1 e.2.2)

/-- An atomic in the core's L1 (R166): it works on the L1 copy, which every sheaf of the core updates, under the sheaf's own unsent bytes
(R221) and after what the core's atomics to the line did at its home (R227); its new value enters the sheaf's store buffer as a weak
store; the value received, or the refusal of its fill. -/
def State.atomicL1 (s : State) (sid : Nat) (src : Src) (op d d2 : Nat) : Sum Nat (Nat × Nat) × State :=
  let width := atomWidth op
  match s.sheaf? sid with
  | none => (.inl 0, s)
  | some sh =>
    let s0 := ((s.bindReads sid src.paddr width).performLine sh.core (lineOf src.paddr)).bringLine sh.core (lineOf src.paddr)
    match s0.readyLane sid { src with fresh := false } width [] (linkTag s0.nextId src.lane) with
    | (some bad, s1) => (.inr bad, s1)
    | (none, s1) =>
      let r := atomOp op (leNat (s1.laneBytes sid { src with fresh := false } width)) d d2
      let x : LaneStore := { trans := { paddr := src.paddr, kh := src.kh, grain := src.grain, fresh := false, r := true, w := true, x := false },
                             key := src.key, bytes := leBytes width r.1 }
      (.inl r.2, if atomWrites op then s1.storeLanes sid false 0 [x] else s1)

/-! ## Releases and acquires (R171, R223) -/

/-- An acquire of a sheaf at a scope (R171): its earlier loads have returned, covered sectors are invalid. -/
def State.acquire (s : State) (sid scope : Nat) : State :=
  let s1 := s.forceResults sid (fun _ => true)
  match s1.sheaf? sid with
  | none => s1
  | some sh => s1.invalidateScope sh.core (s1.partOf sh) scope

/-- An address that keeps an acquire's invalidation back (R171, R341). -/
def State.acquireBlocked? (s : State) (sid scope : Nat) : Option Nat :=
  (s.sheaf? sid).bind (fun sh => s.scopeBlocked? sh.core (s.partOf sh) scope)

/-- An acquire can be done now: every result in flight of the sheaf can come in, and what must be read again can be reached. -/
def State.acquireReady (s : State) (sid scope : Nat) : Bool := !s.stuckSheaf sid && (s.acquireBlocked? sid scope).isNone

/-- A sheaf is EXITED or FAULTED: nothing of it goes on (R33). -/
def Sheaf.over (sh : Sheaf) : Bool := sh.state == .exited || sh.state == .faulted

/-- A sheaf is gone, EXITED or FAULTED. -/
def State.ended (s : State) (sid : Nat) : Bool := match s.sheaf? sid with | some sh => sh.over | none => true

/-- The local accesses of a sheaf's matrix operations perform (R171, R217): those of MMA, MLDT and MSTT that are not complete. -/
def State.drainLocal (s : State) (sid : Nat) : State :=
  match s.sheaf? sid with
  | none => s
  | some sh => if sh.mops.any (fun m => !m.done && m.localAccess) then s.drainMatrix sid else s

/-- What a release does before it waits on counters (R171): earlier loads return and earlier local accesses perform; for SLICE and
wider the whole buffer is sent. DESIGN CHOICE (log entry 62): a home atomic whose reply is out counts as an earlier load at SHEAF and
CORE scope; at a wider scope the counter of its class says whether the release waits for it. -/
def State.releaseStart (s : State) (sid scope : Nat) : State :=
  let s1 := (s.drainLocal sid).forceResults sid (fun p => match p.kind with | .atomic => decide (scope < 2) | _ => true)
  if scope < 2 then s1 else s1.sendBuffer sid

/-- A release of a sheaf is complete once its counters are zero (R171). -/
def State.released (s : State) (sid scope : Nat) : Bool :=
  match s.sheaf? sid with
  | some sh => sh.countersZero scope
  | none => true

/-- L1WB (R171): every unsent entry of every sheaf of a core is sent. -/
def State.writeBackCore (s : State) (core : Nat) : State := s.forEach (s.sheavesOn core) (fun s sid => s.sendBuffer sid)

end Sys2Proof.Machine
end

