-- ==== Sys2Proof/Machine/Finish.lean ====
section
/-!
DEFINITION. What follows an instruction: the fairness round (R22 to R26), the loop-back (R141), the end of lookahead windows
(R99), the advance of the lanes (R19), and how a wait begins and ends (R33).
-/
namespace Sys2Proof.Machine

/-! ## The fairness round (R24) -/

/-- StartRound (R24): a snapshot of the groups, or no round where the live set has fewer than two addresses. A turn boundary
takes up the value of FAIRQ (R22). -/
def Sheaf.startRound (sh : Sheaf) : Sheaf :=
  let pcs := sh.distinctPcs sh.live
  if pcs.length < 2 then { sh with round := Round.none, quantum := sh.fairq.toNat }
  else { sh with quantum := sh.fairq.toNat,
                 round := { active := true, groups := pcs.map (fun a => sh.lanesAt sh.live a), turn := 0, count := 0, issued := 0 } }

/-- NextTurn (R24). -/
def Sheaf.nextTurn (sh : Sheaf) : Sheaf :=
  let r := sh.round
  if r.turn + 1 == r.groups.length then sh.startRound
  else { sh with quantum := sh.fairq.toNat, round := { r with turn := r.turn + 1, count := 0 } }

/-- The live lanes of the turn's group (R24). -/
def Sheaf.turnLanes (sh : Sheaf) : Mask := sh.round.groups.getD sh.round.turn 0 &&& sh.live

/-- Pending (R24): some live lane of the turn's group has not issued in this round. -/
def Sheaf.turnPending (sh : Sheaf) : Bool := sh.turnLanes &&& ~~~sh.round.issued != 0

/-- The turns that SelectIssue skips (R24). -/
def Sheaf.skipTurns (sh : Sheaf) : Nat → Sheaf
  | 0 => sh
  | fuel + 1 =>
    if sh.round.active && decide (0 < sh.round.turn) && (sh.turnLanes == 0 || (sh.round.count == 0 && !sh.turnPending)) then
      sh.nextTurn.skipTurns fuel
    else sh

/-- SelectIssue (R24): the sheaf with its round brought up to date, and the issue address. -/
def Sheaf.selectIssue (sh : Sheaf) : Sheaf × Option Addr :=
  if sh.converged then ({ sh with round := Round.none }, sh.minPc? sh.live)
  else
    let s1 := (if sh.round.active then sh else sh.startRound).skipTurns 64
    if s1.round.active && decide (0 < s1.round.turn) then
      let u := s1.turnLanes &&& ~~~s1.round.issued
      (s1, if u != 0 then s1.minPc? u else s1.minPc? s1.turnLanes)
    else (s1, s1.minPc? s1.live)

/-- The turn ends when its count reaches the quantum (R24). -/
def Sheaf.expireTurn (sh : Sheaf) : Sheaf :=
  if sh.round.active && decide (sh.quantum ≤ sh.round.count) then sh.nextTurn else sh

/-- AfterIssue (R24). -/
def Sheaf.afterIssue (sh : Sheaf) (lanes : Mask) : Sheaf :=
  if !sh.round.active then sh
  else
    let r := sh.round
    let s1 := { sh with round := { r with issued := r.issued ||| lanes, count := r.count + 1 } }
    if decide (0 < r.turn) && lanes &&& ~~~(r.groups.getD r.turn 0) != 0 then s1.nextTurn else s1.expireTurn

/-! ## The end of an instruction -/

/-- A loop slot whose end address is a, armed (R141). -/
def LoopSlot.endsAt (x : LoopSlot) (a : Addr) : Bool := x.lc != 0 && x.le == a

/-- The loop-back of R141 after the instruction at a: slot 1 first. -/
def Sheaf.loopBack (sh : Sheaf) (a : Addr) (lanes : Mask) : Sheaf × Bool :=
  let s1 := if sh.loop1.endsAt a then { sh with loop1 := { sh.loop1 with lc := sh.loop1.lc - 1 } } else sh
  if sh.loop1.endsAt a && s1.loop1.lc != 0 then (s1.setPcs (lanes &&& s1.live) (fun _ => s1.loop1.ls), true)
  else
    let s2 := if s1.loop0.endsAt a then { s1 with loop0 := { s1.loop0 with lc := s1.loop0.lc - 1 } } else s1
    if s1.loop0.endsAt a && s2.loop0.lc != 0 then (s2.setPcs (lanes &&& s2.live) (fun _ => s2.loop0.ls), true) else (s2, false)

/-- One counted instruction has gone by (R99): the windows of results of earlier instructions are shorter by one; of a result that
is written and whose window is over nothing remains. -/
def Sheaf.passWindows (sh : Sheaf) (start : Nat) : Sheaf :=
  let passed := sh.pend.map (fun p => if p.id < start then { p with window := p.window - 1 } else p)
  { sh with pend := passed.filter (fun p => p.lanes != 0 || p.window != 0) }

/-- The state of a sheaf that may go on: TRAPPED in a handler, else ACTIVE (R33). -/
def Sheaf.goOn (sh : Sheaf) : Sheaf := { sh with state := if sh.handler.isSome then .trapped else .active, wait := none }

/-- Where the issuing lanes go (R19): those that leave, to their target; the others to the next instruction; lanes that are
not live keep their counters. -/
def Sheaf.advance (sh : Sheaf) (slot : Slot) (taken : Mask) (target : Nat → Addr) : Sheaf :=
  sh.setPcs (slot.lanes &&& sh.live) (fun l => if hasLane taken l then target l else addrAdd slot.addr 4)

/-- The lanes that wait at an instruction which others reached with prefixes (R35). -/
def Sheaf.othersAt (sh : Sheaf) (slot : Slot) : Mask :=
  if slot.group == slot.addr then 0 else sh.lanesAt (sh.live &&& ~~~slot.lanes) slot.addr

/-- The end of an instruction's issue (R19, R23, R24, R35, R99, R141). start is the first name that was unused when it began. -/
def Sheaf.finish (sh : Sheaf) (slot : Slot) (taken : Mask) (target : Nat → Addr) (leaves : Bool) (start : Nat) : Sheaf :=
  let others := sh.othersAt slot
  let s1 := (sh.goOn.advance slot taken target).loopBack slot.addr slot.lanes
  let s2 := if taken != 0 || leaves || s1.2 then s1.1.closeWindows else s1.1
  let s3 := { s2 with hints := Hints.none, reprem := 0, began := none }
  if others != 0 then { s3 with second := some { addr := slot.addr, lanes := others, first := slot.lanes, start := start } }
  else
    let all := match s3.second with | some x => slot.lanes ||| x.first | none => slot.lanes
    let s4 := { (s3.passWindows start) with second := none, lease := { s3.lease with counted := min (s3.lease.counted + 1) 1024 } }
    if s4.handler.isSome then s4 else s4.afterIssue all

/-- A second slot whose lanes have all ended or left (R35): the counted instruction was the first slot. -/
def Sheaf.dropSecond (sh : Sheaf) (x : Second) : Sheaf :=
  let s1 := { (sh.passWindows x.start) with second := none }
  if s1.handler.isSome then s1 else s1.afterIssue x.first

/-- The end of an instruction in the machine. A sheaf that a fill refused at its home has ended on the way does not go on (R155). -/
def State.finish (s : State) (slot : Slot) (taken : Mask) (target : Nat → Addr) (leaves : Bool) (start : Nat) : State :=
  s.modSheaf slot.sid (fun sh => if sh.over then sh else sh.finish slot taken target leaves start)

/-! ## A kernel's share of waiting sheaves (R247) -/

/-- The sheaves of a tuft in index order. -/
def State.sheavesOf (s : State) (t : Tuft) : List (Nat × Sheaf) :=
  t.sheaves.filterMap (fun sid => (s.sheaf? sid).map (fun sh => (sid, sh)))

/-- The tufts of a kernel that have not ended. -/
def State.tuftsOf (s : State) (kid : Nat) : List (Nat × Tuft) := s.tufts.filter (fun e => e.2.kid == kid)

/-- A tuft is RESIDENT (R236). -/
def Tuft.resident (t : Tuft) : Bool := t.state == .resident || t.state == .aborted

/-- A wait that leaves a tuft eligible (R247). -/
def WaitKind.eligible : WaitKind → Bool
  | .child _ _ _ | .service _ | .barrier _ _ | .arrival _ | .tagAny _ | .tagAll _ | .command _ | .collective _ | .ringPut _ | .ringGet _ => true
  | _ => false

/-- A tuft holds a handle slot or has a region on loan (R215). -/
def State.hasHandles (s : State) (tid : Nat) : Bool :=
  !(s.lentBy tid).isEmpty || s.planes.any (fun p => p.handles.any (fun h => h.2.holder == tid))

/-- A tuft is eligible for suspension (R215, R247, R351). -/
def State.eligible (s : State) (tid : Nat) (t : Tuft) : Bool :=
  let waits := (s.sheavesOf t).filterMap (fun x => if x.2.state == .waiting then x.2.wait.map Wait.kind else none)
  t.state == .resident && !t.parked &&
    (s.sheavesOf t).all (fun x => x.2.state == .exited ||
      (x.2.state == .waiting && x.2.handler.isNone && (match x.2.wait with | some w => w.kind.eligible | none => false))) &&
    waits.any (fun w => match w with | .child _ _ _ => true | .service _ => true | _ => false) &&
    !s.hasHandles tid && !s.slices.any (fun e => e.2.colls.any (fun c => c.tid == tid))

/-- WAITSHARE (R231). -/
def Desc.waitshare (d : Desc) : Nat := field d.modew.toNat 16 8

/-- The kernel's share of waiting sheaves is above WAITSHARE (R247). -/
def State.overShare (s : State) (kid : Nat) (k : Kernel) : Bool :=
  let all := ((s.tuftsOf kid).filter (fun e => e.2.resident)).flatMap (fun e => (s.sheavesOf e.2).map Prod.snd)
  decide (all.length * k.desc.waitshare < (all.filter (fun sh => sh.state == .waiting)).length * 256)

/-- A sheaf has begun to wait: its kernel's share is compared, and every eligible tuft of a kernel above WAITSHARE is to be
suspended (R247). -/
def State.compareShare (s : State) (sid : Nat) : State :=
  match s.sheaf? sid with
  | none => s
  | some sh =>
    match s.kernelOf? sh with
    | none => s
    | some k =>
      let kid := match s.tuft? sh.tid with | some t => t.kid | none => 0
      let above := s.overShare kid k
      { s with tufts := s.tufts.map (fun e =>
          if e.2.kid == kid then (e.1, { e.2 with leaving := (above || (e.2.leaving && e.1 != sh.tid)) && s.eligible e.1 e.2 }) else e) }

/-! ## Waits (R33) -/

/-- COUNT of a REP payload (R94). -/
def repCount (p : BitVec 19) : Nat := field p.toNat 0 6

/-- A trap, fault or wait at a repeat keeps how many repeats are left (R95); 0 where nothing is repeated. -/
def Slot.left (slot : Slot) : Nat := match slot.rep with | some p => repCount p + 1 - slot.index | .none => 0

/-- The issuing lanes stand at their prefix group again, and the prefixes are gone (R95). A second slot stays the second slot (R35). -/
def Sheaf.rewind (sh : Sheaf) (slot : Slot) : Sheaf :=
  { (sh.setPcs (slot.lanes &&& sh.live) (fun _ => slot.group)) with hints := Hints.none }

/-- A sheaf waits in the instruction of an issue slot, or in its fetch (R33). -/
def Sheaf.waitIn (sh : Sheaf) (slot : Slot) (kind : WaitKind) : Sheaf :=
  { (sh.rewind slot) with state := .waiting, wait := some { kind := kind, slot := slot } }

/-- A sheaf begins to wait (R33, R247); one that has ended on the way does not (R155). -/
def State.beginWait (s : State) (slot : Slot) (kind : WaitKind) : State :=
  (s.modSheaf slot.sid (fun sh => if sh.over then sh else sh.waitIn slot kind)).compareShare slot.sid

/-- A wait ends and the instruction issues again. -/
def State.reissue (s : State) (sid : Nat) : State :=
  s.modSheaf sid (fun sh => match sh.wait with | some w => (sh.rewind w.slot).goOn | none => sh)

/-- A wait ends and with it the instruction. -/
def State.complete (s : State) (sid : Nat) : State :=
  match (s.sheaf? sid).bind Sheaf.wait with
  | some w => s.finish w.slot 0 (fun _ => 0) false (match (s.sheaf? sid).bind Sheaf.second with | some x => x.start | none => s.nextId)
  | none => s

/-- A wait ends in a trap of the waiting instruction (R328). -/
def State.trapWait (s : State) (sid : Nat) (cause sub : Nat) (info : BitVec 64) : State :=
  match (s.sheaf? sid).bind Sheaf.wait with
  | some w => s.trap w.slot (TrapInfo.at cause sub 0 info)
  | none => s

/-! ## Faults of an instruction (R292, R293, R334, R336) -/

/-- The tuft is to be aborted (R293): its sheaves stop, and the abort follows. -/
def State.markAborted (s : State) (tid : Nat) : State := s.modTuft tid (fun t => { t with state := .aborted })

/-- A system fault of an instruction: a double trap where a handler raises MARK_FLOW (R336); an ending fault ends the live
lanes (R334); in RESTART mode the tuft is aborted (R293); in STALL mode the sheaf waits for the reply (R292). -/
def State.raiseFault (s : State) (slot : Slot) (f : SysFault) : State :=
  match s.sheaf? slot.sid with
  | none => s
  | some sh =>
    if !f.reply then s.endSheaf slot.sid slot f
    else if sh.handler.isSome && f.code == fMarkFlow then s.doubleTrap slot.sid slot (256 + fMarkFlow)
    else if modeRestart sh.mode then
      let r := s.postSheafFault slot.sid slot f (.abort sh.tid)
      (r.2.modSheaf slot.sid (fun sh => sh.rewind slot)).markAborted sh.tid
    else
      let r := s.postSheafFault slot.sid slot f (.sheaf slot.sid)
      r.2.beginWait slot (.reply r.1)

end Sys2Proof.Machine
end

