-- ==== Sys2Proof/Machine/Sync.lean ====
section
/-!
DEFINITION. What sheaves of a tuft share: groups and barriers (R267 to R278), stage rings (R209 to R212), tags (R206, R207),
the matrix quartet's pairing (R182), the exit of a sheaf (R18, R33, R34), and the waits that these end.
-/
namespace Sys2Proof.Machine

/-- A sheaf has exited, be it resident or suspended (R33). -/
def Sheaf.hasExited (sh : Sheaf) : Bool := sh.state == .exited || (sh.state == .suspended && sh.resumeAs == .exited)
/-- A sheaf has faulted, be it resident or suspended (R33). -/
def Sheaf.hasFaulted (sh : Sheaf) : Bool := sh.state == .faulted || (sh.state == .suspended && sh.resumeAs == .faulted)

/-! ## Groups and barriers -/

/-- The entry of a group number of a tuft (R267). -/
def Tuft.group? (t : Tuft) (g : Nat) : Option GroupEntry := t.groups.find? (fun e => e.number == g)

/-- EXPECTED of an entry (R269). -/
def GroupEntry.expected (e : GroupEntry) : Nat := popCount e.members

/-- Put an entry in place of the one of its number. -/
def Tuft.setGroup (t : Tuft) (e : GroupEntry) : Tuft := { t with groups := t.groups.map (fun x => if x.number == e.number then e else x) }

/-- A member is gone (R273). -/
def Sheaf.goneFrom (sh : Sheaf) (g : Nat) : Bool := sh.hasExited || sh.ret.contains g

/-- GONE of an entry (R273). -/
def State.goneCount (s : State) (t : Tuft) (e : GroupEntry) : Nat :=
  ((s.sheavesOf t).filter (fun x => hasLane e.members x.2.idx && x.2.goneFrom e.number)).length

/-- Finished (R278): every member is gone. -/
def State.groupFinished (s : State) (t : Tuft) (e : GroupEntry) : Bool := s.goneCount t e == e.expected

/-- A sheaf is WAITING in the front plane: an event that ends its wait acts at once. One whose plane is swapped out keeps it (R311, R337). -/
def State.waitsHere (s : State) (sh : Sheaf) : Bool :=
  sh.state == .waiting && (match s.tuft? sh.tid with | some t => !t.parked | none => true)

/-- An event ends a sheaf's wait: at once where it is WAITING; where it is not, after a reload whose admission is still to come, or where
a result in flight cannot come in, the wait keeps how it ended until that is over (R33, R248, R341). -/
def State.endWait (s : State) (sid : Nat) (now : State → State) : State :=
  match s.sheaf? sid with
  | some sh => if s.waitsHere sh && !s.stuckSheaf sid then now s else s.setSheaf sid { sh with wait := sh.wait.map (fun w => { w with done := some 0 }) }
  | none => s

/-- Release the sheaves that wait on a group's phase, with their CORE-scope acquire, and let a second arrival issue again
(R274, R278). -/
def State.releaseGroup (s : State) (t : Tuft) (g : Nat) : State :=
  s.forEach t.sheaves (fun s sid =>
    match (s.sheaf? sid).bind Sheaf.wait with
    | some w => match w.kind with
      | .barrier h _ => if h == g then s.endWait sid (fun s => (s.acquire sid 1).complete sid) else s
      | .arrival h => if h == g then s.endWait sid (fun s => s.reissue sid) else s
      | _ => s
    | none => s)

/-- CheckComplete (R274), at an event that changes an entry. -/
def State.checkComplete (s : State) (tid g : Nat) : State :=
  match s.tuft? tid with
  | none => s
  | some t =>
    match t.group? g with
    | none => s
    | some e =>
      if e.poison || e.arrived + s.goneCount t e != e.expected then s
      else
        let t1 := t.setGroup { e with phase := (e.phase + 1) % 256, arrived := 0 }
        let s1 := (s.setTuft tid t1).forEach t.sheaves (fun s sid => s.modSheaf sid (fun sh => { sh with arr := sh.arr.filter (· != g) }))
        (s1.traceTuft t 7 (payload2 g ((e.phase + 1) % 256))).releaseGroup t1 g

/-- An entry changes its arrival count. -/
def State.addArrived (s : State) (tid g : Nat) (up : Bool) : State :=
  s.modTuft tid (fun t => match t.group? g with
    | some e => t.setGroup { e with arrived := if up then e.arrived + 1 else e.arrived - 1 }
    | none => t)

/-- Arrive (R278), its release of CORE scope done. -/
def State.arrive (s : State) (sid tid g : Nat) : State :=
  ((s.modSheaf sid (fun sh => { sh with arr := g :: sh.arr })).addArrived tid g true).checkComplete tid g

/-- A member becomes EXITED (R274): an arrival it had made is not counted twice; the phase is judged. -/
def State.exitGroups (s : State) (sid : Nat) : State :=
  match s.sheaf? sid with
  | none => s
  | some sh =>
    match s.tuft? sh.tid with
    | none => s
    | some t =>
      s.forEach (t.groups.filter (fun e => hasLane e.members sh.idx && !sh.ret.contains e.number)) (fun s e =>
        let s1 := if sh.arr.contains e.number then
            (s.addArrived sh.tid e.number false).modSheaf sid (fun x => { x with arr := x.arr.filter (· != e.number) }) else s
        s1.checkComplete sh.tid e.number)

/-! ## Stage rings -/

/-- The producer sheaves of a ring (R209). -/
def State.producers (s : State) (t : Tuft) (r : Ring) : List (Nat × Sheaf) := (s.sheavesOf t).filter (fun x => roleIn r.prod x.2.role)
/-- The consumer sheaves of a ring (R209). -/
def State.consumers (s : State) (t : Tuft) (r : Ring) : List (Nat × Sheaf) := (s.sheavesOf t).filter (fun x => roleIn r.cons x.2.role)

/-- A ring is CLOSED (R210): every producer sheaf has exited or has closed it. -/
def State.ringClosed (s : State) (t : Tuft) (n : Nat) (r : Ring) : Bool :=
  (s.producers t r).all (fun x => x.2.hasExited || x.2.closed.contains n)

/-- A consumer sheaf of a ring is live (R210). -/
def State.ringHeard (s : State) (t : Tuft) (r : Ring) : Bool := (s.consumers t r).any (fun x => !x.2.hasExited && !x.2.hasFaulted)

/-- What a ring instruction meets (R210). -/
inductive RingOutcome where
  | poison | closed | wait | go
  deriving DecidableEq, Repr

/-- What a put meets, in the order of R210. -/
def State.putOutcome (s : State) (sh : Sheaf) (n : Nat) : RingOutcome :=
  match s.tuft? sh.tid with
  | none => .wait
  | some t => match t.rings[n]? with
    | none => .wait
    | some r =>
      if r.poisoned then .poison
      else if sh.closed.contains n || s.ringClosed t n r || !s.ringHeard t r then .closed
      else if r.slots + 1 ≤ r.tokens.length then .wait else .go

/-- What a get meets, in the order of R210. -/
def State.getOutcome (s : State) (sh : Sheaf) (n : Nat) : RingOutcome :=
  match s.tuft? sh.tid with
  | none => .wait
  | some t => match t.rings[n]? with
    | none => .wait
    | some r =>
      if r.poisoned then .poison
      else if !r.tokens.isEmpty then .go
      else if s.ringClosed t n r then .closed else .wait

/-- Change a ring of a tuft. -/
def State.modRing (s : State) (tid n : Nat) (f : Ring → Ring) : State :=
  s.modTuft tid (fun t => { t with rings := (List.range t.rings.length).zip t.rings |>.map (fun e => if e.1 == n then f e.2 else e.2) })

/-! ## Tags -/

/-- Tag t of a tuft (R206). -/
def Tuft.tag (t : Tuft) (n : Nat) : Tag := t.tags.getD n Tag.zero

/-- Change a tag. -/
def State.modTag (s : State) (tid n : Nat) (f : Tag → Tag) : State :=
  s.modTuft tid (fun t => { t with tags := (List.range t.tags.length).zip t.tags |>.map (fun e => if e.1 == n then f e.2 else e.2) })

/-- OnIssue (R207). -/
def Tag.onIssue (x : Tag) : Tag :=
  let y := if x.count == 0 then Tag.zero else x
  { y with count := y.count + 1 }

/-- OnComplete (R207). -/
def Tag.onComplete (x : Tag) (failed : Option Nat) : Tag :=
  let y := match failed with | some c => if x.fail then x else { x with fail := true, code := c } | none => x
  { y with count := y.count - 1, done := if y.count - 1 == 0 then true else y.done }

/-- A command of a tag completes, with a code where it failed (R207); a tag that is done is traced (R399). -/
def State.completeTag (s : State) (tid n : Nat) (failed : Option Nat) : State :=
  let s1 := s.modTag tid n (fun t => t.onComplete failed)
  match s1.tuft? tid with
  | some t =>
    let x := t.tag n
    if x.count == 0 then s1.traceTuft t 8 (n + (if x.fail then 2 ^ 32 else 0) + x.code * 2 ^ 64) else s1
  | none => s1

/-- The tags of a mask, below the tuft's allotment. -/
def Tuft.maskTags (t : Tuft) (mask : BitVec 64) : List (Nat × Tag) :=
  ((List.range t.tags.length).zip t.tags).filter (fun e => mask.getLsbD e.1)

/-- A wait for any masked tag is over (R208): one is DONE, or none is DONE or counts. -/
def Tuft.anyReady (t : Tuft) (mask : BitVec 64) : Bool :=
  (t.maskTags mask).any (fun e => e.2.done) || (t.maskTags mask).all (fun e => e.2.count == 0)

/-- A wait for all masked tags is over (R208). -/
def Tuft.allReady (t : Tuft) (mask : BitVec 64) : Bool := (t.maskTags mask).all (fun e => e.2.count == 0)

/-! ## The matrix quartet (R182) -/

/-- The MATRIX sheaves of a tuft (R32). -/
def State.quartet (s : State) (t : Tuft) : List (Nat × Sheaf) := (s.sheavesOf t).filter (fun x => x.2.role == .matrix)

/-- A sheaf of the quartet has exited or faulted (R182). -/
def State.quartetGone (s : State) (t : Tuft) : Bool := (s.quartet t).any (fun x => x.2.hasExited || x.2.hasFaulted)

/-! ## Exit (R18, R33, R34) -/

/-- Lanes exit; with no live lane left the sheaf is EXITED, unless a lane of it faulted, and its groups and rings hear of it. -/
def State.exitLanes (s : State) (sid : Nat) (lanes : Mask) : State :=
  match s.sheaf? sid with
  | none => s
  | some sh =>
    let sh1 := { sh with exited := sh.exited ||| (lanes &&& sh.live), handler := sh.freezeXpc (lanes &&& sh.live) }
    if sh1.live != 0 then s.setSheaf sid sh1
    else
      let ended := { sh1 with handler := none, wait := none, hints := Hints.none, second := none, round := Round.none, arrival := none }
      if sh1.faulted != 0 then
        let sh2 := { ended with state := .faulted }
        (s.setSheaf sid { sh2 with arr := [] }).poisonBy sh2
      else (s.setSheaf sid { ended with state := .exited }).exitGroups sid

/-! ## Commands and hand-offs (R201, R214) -/

/-- A stretch of a command names a buffer given from a slot: any stretch through a handle slot, one that overlaps it in the allotment. -/
def LocalPart.names (x : LocalPart) (slot : Nat) (b : Buffer) : Bool :=
  localSlot x.la == slot && (slot != 0 || b.overlaps (localOffset x.la + x.dist) x.len)

/-- A tuft's command in the engine names a buffer (R214). -/
def State.commandNames (s : State) (tid core slot : Nat) (b : Buffer) : Bool :=
  (s.core core).copies.any (fun c => c.tid == tid && c.extents.any (fun x => x.names slot b))

/-- A matrix operation of the tuft that is not complete touches a buffer of its own allotment (R214, R217). -/
def State.matrixNames (s : State) (t : Tuft) (b : Buffer) : Bool :=
  (s.sheavesOf t).any (fun x => x.2.mops.any (fun m => !m.done && (m.writesBytes ++ m.readsBytes).any (fun o => b.overlaps o 1)))

/-- HGIVE and HDROP may go on (R214): nothing issued that names the buffer is left to perform. -/
def State.handOffReady (s : State) (tid core slot : Nat) (b : Buffer) : Bool :=
  match s.tuft? tid with
  | none => true
  | some t => !s.commandNames tid core slot b && !(slot == 0 && s.matrixNames t b)

/-- A core's arrival queue has a place: it holds 64 entries (R214). -/
def State.queueRoom (s : State) (core : Nat) : Bool := decide ((s.core core).front.parcels.length < 64)

/-- Change the handle state of a core's front plane. -/
def State.modFront (s : State) (core : Nat) (f : PlaneState → PlaneState) : State := s.modCore core (fun k => { k with front := f k.front })

/-- A buffer is posted to a core's arrival queue for a sheaf's context (R214). -/
def State.postParcel (s : State) (sh : Sheaf) (target channel : Nat) (b : Buffer) : State :=
  let p : Parcel := { buffer := b, part := s.partOf sh, ctx := s.ctxOf sh, channel := channel }
  s.modFront target (fun x => { x with parcels := x.parcels ++ [p] })

/-! ## Child kernels (R250, R251) -/

/-- A kernel is COMPLETE or FAULTED (R234). -/
def Kernel.ended (k : Kernel) : Bool := k.state == .complete || k.state == .faulted

/-- The status that KWAIT writes (R251). -/
def Kernel.waitStatus (k : Kernel) : Word := if k.state == .complete then 0 else BitVec.ofNat 32 (256 + k.err % 256)

/-- A child-table entry is freed once its child has ended and a KWAIT has returned for it or its launcher has ended (R250). -/
def State.judgeChild (s : State) (part ctx id : Nat) : State :=
  match (s.ctx part ctx).children.find? id with
  | some c =>
    if (c.waited || c.ended) && (match s.kernel? c.kid with | some k => k.ended | none => true) then
      (s.modCtx part ctx (fun x => { x with children := x.children.drop id })).noteChild part ctx id
    else s
  | none => s

/-- A KWAIT returns (R251): the status, mark OPEN, an acquire at SYS scope, the entry freed. -/
def State.childReturn (s : State) (sid id kid reg : Nat) (k : Kernel) : State :=
  let s1 := (s.acquire sid 4).modSheaf sid (fun sh => sh.writeU reg k.waitStatus 0)
  (s1.modCtx k.part k.ctx (fun x => { x with children := x.children.modify id (fun c => if c.kid == kid then { c with waited := true } else c) })).judgeChild
    k.part k.ctx id

/-! ## Collective commands (R348) -/

/-- A slice's collective engine has a place: it holds 64 commands (R348). A discarded one only marks its position (R351). -/
def Slice.collRoom (x : Slice) : Bool := decide ((x.colls.filter (fun c => c.failed != some 10)).length < 64)

/-! ## Replies (R248, R292, R335, R336) -/

/-- REPREM belongs to the group that replays: it is 0 once no issuing lane of the group is left (R95, R335). -/
def Sheaf.replayFor (sh : Sheaf) (lanes : Mask) : Sheaf := if lanes &&& sh.live == 0 then { sh with reprem := 0, began := none } else sh

/-- A waiting sheaf acts on the reply to its record (R292, R335, R336); lanes and code are the record's. -/
def State.actReply (s : State) (sid : Nat) (a : Reply) (lanes : Mask) (code : Nat) : State :=
  match s.sheaf? sid, (s.sheaf? sid).bind Sheaf.wait with
  | some sh, some w =>
    (match a with
     | .resume => s.reissue sid
     | _ =>
       if sh.handler.isSome then s.doubleTrap sid w.slot (256 + code)
       else if a == .abandon then s.faultSheaf sid
       else ((s.faultLanes sid lanes).modSheaf sid (fun x => x.replayFor w.slot.lanes)).reissue sid)
  | _, _ => s

/-- The end of an SVC (R149): an acquire of PART scope and the next instruction, or SVC_FAULT. -/
def State.serviceEnd (s : State) (sid : Nat) (failed : Bool) : State :=
  match s.sheaf? sid, (s.sheaf? sid).bind Sheaf.wait with
  | some sh, some w =>
    (match w.kind with
     | .service n => if failed then s.endSheaf sid w.slot (SysFault.ending fSvc sh.live n) else (s.acquire sid 3).complete sid
     | _ => s)
  | _, _ => s

/-! ## The end of waits -/

/-- The waits whose condition is met end, and those that can only end in a trap do (R33, R182, R210, R275). -/
def State.settleOne (s : State) (sid : Nat) : State :=
  match s.sheaf? sid with
  | none => s
  | some sh =>
    match sh.state, sh.wait, s.tuft? sh.tid with
    | .waiting, some w, some t =>
      match w.kind with
      | .counters scope => if sh.countersZero scope then s.reissue sid else s
      | .remote core =>
        if (s.sheavesOn core).all (fun x => match s.sheaf? x with | some y => y.countersZero 3 | none => true) &&
            (s.scopeBlocked? core (s.partOf sh) 3).isNone && s.acquireReady sid 3 then
          ((s.invalidateScope core (s.partOf sh) 3).acquire sid 3).complete sid
        else s
      | .barrier g _ =>
        (match w.done with
         | some 0 => if s.acquireReady sid 1 then (s.acquire sid 1).complete sid else s
         | some _ => s.trapWait sid cBarPoison 0 (BitVec.ofNat 64 g)
         | none => s)
      | .arrival g => if w.done.isSome || !sh.arr.contains g then s.reissue sid else s
      | .tagAny m => if t.anyReady m then s.reissue sid else s
      | .tagAll m => if t.allReady m then s.reissue sid else s
      | .command n => if decide ((s.core sh.core).copies.length < 32) && decide ((t.tag n).count < 255) then s.reissue sid else s
      | .collective n => if (s.slice (sliceOf sh.core)).collRoom && decide ((t.tag n).count < 255) then s.reissue sid else s
      | .ringPut n =>
        (match s.putOutcome sh n with
         | .poison => s.trapWait sid cRingPoison 0 (BitVec.ofNat 64 n)
         | .closed => s.trapWait sid cRingClosed 0 (BitVec.ofNat 64 n)
         | .wait => s
         | .go => s.reissue sid)
      | .ringGet n =>
        (match s.getOutcome sh n with
         | .poison => s.trapWait sid cRingPoison 0 (BitVec.ofNat 64 n)
         | .closed => s.trapWait sid cRingClosed 0 (BitVec.ofNat 64 n)
         | .wait => s
         | .go => s.reissue sid)
      | .service _ => (match w.done with | some n => if n == 0 && !s.acquireReady sid 3 then s else s.serviceEnd sid (n != 0) | none => s)
      | .receive ch => if (s.core sh.core).front.parcels.any (fun p => p.ctx == s.ctxOf sh && p.part == s.partOf sh && p.channel == ch) then s.reissue sid else s
      | .handOff slot b => if s.handOffReady sh.tid sh.core slot b then s.reissue sid else s
      | .post target channel b => if w.done.isSome then s.complete sid else if s.queueRoom target then (s.postParcel sh target channel b).complete sid else s
      | .child id kid reg =>
        (match s.kernel? kid with
         | some k => if k.ended && s.acquireReady sid 4 then (s.childReturn sid id kid reg k).complete sid else s
         | none => s.reissue sid)
      | .fused =>
        if w.done == some 0 then s.complete sid
        else if w.done.isSome then s.trapWait sid cMfuse 0 (w.slot.word.setWidth 64)
        else if s.quartetGone t then
          (s.modSheaf sid (fun sh => { sh with fused := sh.fused + 1, arrival := none })).trapWait sid cMfuse 1 (w.slot.word.setWidth 64)
        else s
      | .matrix => if sh.mops.all (fun m => m.done) then s.reissue sid else s
      | .fence => if sh.pend.all (fun p => p.lanes == 0) then s.reissue sid else s
      | .reply _ => s
      | .answered a lanes code => s.actReply sid a lanes code
      | .migrate _ => if w.done.isSome then s.reissue sid else s
      | .link _ paddr _ => if s.cannotReach sh.core paddr then s else s.reissue sid
      | .acquire scope => if s.acquireReady sid scope then (s.acquire sid scope).complete sid else s
    | _, _, _ => s

/-- The sheaves that wait in the front planes, in ascending order. -/
def State.waiting (s : State) : List Nat := (s.sheaves.filter (fun e => s.waitsHere e.2)).map Prod.fst

/-- Every wait is judged once, in ascending order of the sheaves. -/
def State.settlePass (s : State) : State := s.forEach s.waiting (fun s sid => s.settleOne sid)

/-- The waits are judged again as long as a pass has ended one, since that may meet the condition of another (R275). -/
def State.settleFrom : Nat → State → State
  | 0, s => s
  | fuel + 1, s =>
    let s1 := s.settlePass
    if s1.waiting == s.waiting then s1 else settleFrom fuel s1

/-- Every wait whose condition is met ends. -/
def State.settle (s : State) : State := settleFrom (s.waiting.length + 1) s

end Sys2Proof.Machine
end

