-- ==== Sys2Proof/Machine/Issue.lean ====
section
/-!
DEFINITION. The issue of one instruction: the order of checks of R86, prefix legality (R92 to R97), repeats (R94, R95),
interlocks and lookahead (R98, R99), and what each outcome of an instruction does to the machine. A meaning says what its
instruction is (Form, Op) and what it does to a sheaf; everything common is here.
-/
namespace Sys2Proof.Machine

/-- The classes of R31. -/
inductive RoleClass where
  | other | matrix | copy | varyingFloat | special
  deriving DecidableEq, Repr

/-- A role issues a class normally (R31). -/
def RoleClass.issues : RoleClass → Role → Bool
  | .other, _ => true
  | .matrix, r => r == .matrix
  | .copy, r => r == .general || r == .stage
  | .varyingFloat, r => r != .stage
  | .special, r => r != .stage

/-- What an instruction is, whatever its fields hold: the step bits REP may set (SD, SA, SB), none where REP is not legal
(R94); whether XIMM (R93) and LA (R96) are legal; whether it may end a loop body (R142); its class (R31); whether it is a
sheaf-wide write (R50); whether only the issuing set is judged (R182); whether it acts although no guard is true (R182). -/
structure Form where
  rep     : Option (Bool × Bool × Bool)
  ximm    : Bool
  la      : Bool
  loopEnd : Bool
  role    : RoleClass
  wide    : Bool
  liveOnly : Bool
  always  : Bool
  deriving DecidableEq, Repr

/-- An instruction of the class "every other", interlocked, without prefixes. -/
def Form.plain : Form :=
  { rep := none, ximm := false, la := false, loopEnd := true, role := .other, wide := false, liveOnly := false, always := false }

/-- What one repeat of an instruction ends in. -/
inductive Act where
  /-- the instruction has its effect and the lanes go on -/
  | next (s : State)
  /-- some lanes leave to a target of their own (R137) -/
  | jump (s : State) (taken : Mask) (target : Nat → Addr)
  /-- lanes ended or the sheaf left this instruction by itself -/
  | leave (s : State)
  | stop (s : State)
  | trap (t : TrapInfo) (s : State)
  | fault (f : SysFault) (s : State)
  | wait (k : WaitKind) (s : State)

/-- One repeat of an instruction: its fields are legal (R86 steps 1 and 2); the sheaf and its tuft allow it (handler status,
tiles, tags, rings); the operand bytes of the registers its fields name, with the parts of pairs, quads and octets; registers
it uses without naming them; the varying registers it writes; its effect on the sheaf, its acting lanes being in the slot;
registers it names that are not interlocked (the B registers of an MMA, R98); whether its effect meets a hazard that its own checks
find (R184, R195). -/
structure Op where
  ok     : Bool
  legal  : Sheaf → State → Bool := fun _ _ => true
  uses   : List Nat
  also   : List Nat
  writes : List Nat
  body   : Slot → Sheaf → State → Act
  named  : List Nat := []
  hazard : Slot → Sheaf → State → Bool := fun _ _ _ => false

/-! ## Prefix payloads (R93, R94, R96) -/

/-- STEP of a REP payload, as a number. -/
def repStep (p : BitVec 19) : Int := match field p.toNat 6 2 with | 0 => 1 | 1 => 2 | 2 => 4 | _ => -1
/-- SD, SA, SB of a REP payload. -/
def repBits (p : BitVec 19) : Bool × Bool × Bool := (p.getLsbD 8, p.getLsbD 9, p.getLsbD 10)

/-- The distances that SD, SA and SB add to their fields at a repeat. -/
def Slot.steps (slot : Slot) : Int × Int × Int :=
  match slot.rep with
  | .none => (0, 0, 0)
  | some p =>
    let d := repStep p * slot.index
    let b := repBits p
    (if b.1 then d else 0, if b.2.1 then d else 0, if b.2.2 then d else 0)

/-- A field stepped inside the file from lo to hi; beyond it, a number that names nothing. -/
def stepIn (lo hi v : Nat) (o : Int) : Nat :=
  let r := (v : Int) + o
  if (lo : Int) ≤ r ∧ r ≤ hi then r.toNat else 999

/-- A varying register number stepped (R94). -/
def stepV (v : Nat) (o : Int) : Nat := if o == 0 then v else stepIn 0 31 v o
/-- An operand byte stepped inside the file it names (R94). -/
def stepB (b : Nat) (o : Int) : Nat :=
  if o == 0 then b else if b < 32 then stepIn 0 31 b o else if b < 64 then stepIn 32 63 b o else stepIn 64 255 b o
/-- A predicate number stepped (R94). -/
def stepP (p : Nat) (o : Int) : Nat := if o == 0 then p else stepIn 0 11 p o

/-- The sign-extended offset an XIMM gives a memory address (R93, R153). -/
def Slot.offset (slot : Slot) : Int := match slot.ximm with | some p => p.toInt | .none => 0

/-- The lookahead an LA gives (R96). -/
def Slot.lookahead (slot : Slot) : Nat := match slot.la with | some p => p.toNat % 16 | .none => 0

/-- The prefixes of a slot are legal for an instruction (R92 to R94, R96). -/
def Form.prefixesOk (f : Form) (slot : Slot) : Bool :=
  (match slot.rep with
   | none => true
   | some p => match f.rep with
     | none => false
     | some (d, a, b) => (!(repBits p).1 || d) && (!(repBits p).2.1 || a) && (!(repBits p).2.2 || b)) &&
  (slot.ximm.isNone || f.ximm) && (slot.la.isNone || f.la)

/-! ## Interlocks (R98, R99) -/

/-- The physical register of an operand byte, apart for the two files: varying below 1,000. -/
def Sheaf.physName (sh : Sheaf) (b : Nat) : Nat := if b < 32 then sh.phys b else 1000 + b

/-- The destinations of a result, numbered as physName numbers them. -/
def Pending.names (p : Pending) : List Nat := if p.varying then p.regs else p.regs.map (fun r => 1000 + 64 + r)

/-- A result's destination is among some registers. -/
def Pending.meets (p : Pending) (names : List Nat) : Bool := p.names.any names.contains

/-- The oldest result in whose window an instruction names its destination (R99). -/
def Sheaf.brokenPromise? (sh : Sheaf) (start : Nat) (names : List Nat) : Option Pending :=
  sh.pend.find? (fun p => decide (0 < p.window) && decide (p.id < start) && p.meets names)

/-- Results outside their window that an instruction names are brought in before it issues (R98). -/
def State.interlock (s : State) (sid start : Nat) (names : List Nat) : State :=
  s.forceResults sid (fun p => (p.window == 0 || decide (start ≤ p.id)) && p.meets names)

/-! ## One repeat -/

/-- ILLEGAL at the word (R331). -/
def illegalWord (slot : Slot) : TrapInfo := TrapInfo.at cIllegal 0 0 (slot.word.setWidth 64)

/-- ILLEGAL for a bad register target (R84, R331). -/
def illegalTarget (a : Addr) : TrapInfo := TrapInfo.at cIllegal 1 0 a

/-- A trap with the word in TINFO (R331). -/
def trapWord (slot : Slot) (cause lane : Nat) : TrapInfo := TrapInfo.at cause 0 lane (slot.word.setWidth 64)

/-- UNIFORM_DIVERGENCE (R331). -/
def divergence (sh : Sheaf) (slot : Slot) (sub : Nat) : TrapInfo :=
  TrapInfo.at cDivergence sub 0 (BitVec.append sh.live slot.lanes)

/-- The guard has one value in every issuing lane (R51). -/
def guardUniform (slot : Slot) : Bool := slot.acting == 0 || slot.acting == slot.lanes

/-- Some armed loop slot ends at the instruction (R141). -/
def Sheaf.atLoopEnd (sh : Sheaf) (a : Addr) : Bool := sh.loop0.endsAt a || sh.loop1.endsAt a

/-- The checks of R86 steps 1 to 5, then MHAZARD of R195 rows 2 and 4 (a matrix instruction that acts makes its own, R184) and
LOOKAHEAD, to which a hazard that the instruction's own checks find under MSTRICT is prior (R17, R195), where it makes them: the first
trap that holds. DESIGN CHOICE (log entry 77): an instruction that meets HANDLE or SWIZZLE, such a hazard and LOOKAHEAD at once makes its
own checks, in R184's order. -/
def firstTrap (f : Form) (op : Op) (slot : Slot) (sh : Sheaf) (s : State) (start : Nat) : Option TrapInfo :=
  let names := (op.uses ++ op.named).map sh.physName
  let converged := slot.lanes == sh.live
  if !op.ok || !op.legal sh s || !f.prefixesOk slot || (sh.atLoopEnd slot.addr && !f.loopEnd) then some (illegalWord slot)
  else if !f.role.issues sh.role then some (trapWord slot cRole 0)
  else if (f.wide || sh.atLoopEnd slot.addr) && !converged then some (divergence sh slot 0)
  else if f.wide && !f.liveOnly && !guardUniform slot then some (divergence sh slot 1)
  else match (if modeMstrict sh.mode && (f.role != .matrix || (slot.acting == 0 && !f.always)) then sh.regHazard? names (op.writes.map sh.phys) else none) with
    | some row => some (TrapInfo.at cMhazard row 0 (slot.word.setWidth 64))
    | none =>
      match (if modeReplay sh.mode && !(modeMstrict sh.mode && (slot.acting != 0 || f.always) && op.hazard slot sh s) then sh.brokenPromise? start names else none) with
      | some p => some (TrapInfo.at cLookahead 0 0 p.addr)
      | none => none

/-- Under REPLAY without MSTRICT an instruction that meets rows 2 or 4 of R195 waits for the operations. -/
def State.replayMatrix (s : State) (sid : Nat) (sh : Sheaf) (op : Op) : State :=
  if modeReplay sh.mode && !modeMstrict sh.mode && (sh.regHazard? (op.uses.map sh.physName) (op.writes.map sh.phys)).isSome then s.drainMatrix sid else s

/-- Some lane of a result has been written, some not. -/
def Pending.partly (p : Pending) : Bool := p.lanes != 0 && (p.source.map Src.lane ++ p.data.map Prod.fst).any (fun l => !hasLane p.lanes l)

/-- A result some of whose lanes were written before an instruction wrote their registers no longer writes the whole of them (R56, R99). -/
def Sheaf.overwritten (sh : Sheaf) (regs : List Nat) : Sheaf :=
  { sh with pend := sh.pend.map (fun p => if p.varying && p.partly && p.regs.any regs.contains then { p with whole := false } else p) }

/-- What follows a write of varying registers. Under MSTRICT a MATRIX sheaf remembers those that an instruction wrote, until its next
MFENCE (R195 row 1); of what an MROWV wrote, until its next MWAIT. -/
def Act.noteWrites (sid : Nat) (regs : List Nat) : Act → Act
  | .next s => .next (s.modSheaf sid (fun sh0 =>
      let sh := sh0.overwritten regs
      if modeMstrict sh.mode && sh.role == .matrix then { sh with bWrites := sh.bWrites ++ regs.filter (fun r => !sh.bWrites.contains r) } else sh))
  | a => a

/-- One repeat: its checks, its interlocks, its effect. No effect where no lane acts (R105, R126). -/
def issueRepeat (f : Form) (op : Op) (slot : Slot) (start : Nat) (s : State) : Act :=
  match s.sheaf? slot.sid with
  | none => .stop s
  | some sh =>
    if !sh.issuing then .stop s
    else match firstTrap f op slot sh s start with
    | some t => .trap t s
    | none =>
      let s1 := (s.replayMatrix slot.sid sh op).interlock slot.sid start ((op.uses ++ op.also).map sh.physName)
      match s1.sheaf? slot.sid with
      | none => .stop s1
      | some sh1 =>
        if !sh1.issuing then .stop s1
        else if slot.acting == 0 && !f.always then .next s1
        else if op.writes.isEmpty then op.body slot sh1 s1
        else (op.body slot sh1 s1).noteWrites slot.sid (op.writes.map sh.phys)

/-! ## A prefix group -/

/-- A fault or a wait at a repeat (R95): those before it stand, and the group stays the one that began then (R99). What stops a fetch
leaves both as they were: no repeat has run since. -/
def State.stopAt (s : State) (slot : Slot) (start : Nat) : State :=
  s.modSheaf slot.sid (fun sh => { sh with reprem := slot.left, began := if slot.index == 0 then none else some start })

/-- What an outcome that ends the group does to the machine. -/
def endAct (slot : Slot) (start : Nat) : Act → State
  | .next s => s.finish slot 0 (fun _ => 0) false start
  | .jump s taken target => s.finish slot taken target false start
  | .leave s => s.finish slot 0 (fun _ => 0) true start
  | .stop s => s
  | .trap t s => s.trap slot { t with reprem := slot.left }
  | .fault f s => (s.stopAt slot start).raiseFault slot f
  | .wait k s => (s.stopAt slot start).beginWait slot k

/-- The slot of a repeat: its index, and its acting lanes judged afresh (R94). -/
def Slot.atRepeat (slot : Slot) (sh : Sheaf) (g n k : Nat) : Slot :=
  { slot with index := k, acting := sh.acting g n slot.lanes }

/-- The repeats of a group from the k-th on (R94). -/
def runRepeats (f : Form) (g n : Nat) (op : Slot → Op) (slot : Slot) (start : Nat) : Nat → Nat → State → State
  | 0, _, s => s
  | left + 1, k, s =>
    match s.sheaf? slot.sid with
    | none => s
    | some sh =>
      let here := slot.atRepeat sh g n k
      let one := op here
      match issueRepeat f { one with ok := one.ok && guardOk g n } here start s with
      | .next s1 => if left == 0 then endAct here start (.next s1) else runRepeats f g n op slot start left (k + 1) s1
      | a => endAct here start a

/-- The repeats that REPREM leaves to run: all of them where it holds 0 or too large a number (R95). -/
def repeatsLeft (slot : Slot) (reprem : Nat) : Nat :=
  match slot.rep with
  | none => 1
  | some p => if reprem == 0 || repCount p + 1 < reprem then repCount p + 1 else reprem

/-- The first repeat that runs (R95). -/
def firstRepeat (slot : Slot) (reprem : Nat) : Nat :=
  match slot.rep with
  | none => 0
  | some p => repCount p + 1 - repeatsLeft slot reprem

/-- The issue of a non-hint instruction in the issue slot: the prefixes are consumed, the repeats run, waits end. -/
def issue (f : Form) (g n : Nat) (op : Slot → Op) (s : State) : State :=
  match s.sheaf? s.slot.sid with
  | none => s
  | some sh =>
    let slot := s.slot
    let s1 := if slot.rep.isNone then s.modSheaf slot.sid (fun sh => { sh with reprem := 0, began := none }) else s
    let start := match sh.second with | some x => x.start | none => if slot.rep.isNone then s.nextId else sh.began.getD s.nextId
    (runRepeats f g n op slot start (repeatsLeft slot sh.reprem) (firstRepeat slot sh.reprem) s1).settle

/-- The outcome of exec for an instruction that issues. -/
def issued (f : Form) (g : BitVec 4) (n : BitVec 1) (op : Slot → Op) (s : State) : Host.Outcome State Fault Refusal :=
  .next (issue f g.toNat n.toNat op s)

/-! ## Hints (R92) -/

/-- A hint issues: it is kept for the instruction that follows in the same lanes, or raises ILLEGAL. DESIGN CHOICE (log entry 63): a
trap that a hint itself raises leaves REPREM as it was, the spec naming only the saved address. -/
def issueHint (legal : Hints → Bool) (add : Hints → Hints) (s : State) : State :=
  match s.sheaf? s.slot.sid with
  | none => s
  | some sh =>
    let slot := s.slot
    if !legal sh.hints || sh.atLoopEnd slot.addr then
      s.trap { slot with group := slot.addr } { illegalWord slot with reprem := sh.reprem }
    else
      let base := if sh.hints.lanes == 0 then { Hints.none with lanes := slot.lanes, first := slot.addr } else sh.hints
      s.setSheaf slot.sid { (sh.advance slot 0 (fun _ => 0)) with hints := add base }

/-! ## Common bodies -/

/-- The effect of a register instruction: the sheaf changes, nothing else does. -/
def Act.ofSheaf (slot : Slot) (s : State) (sh : Sheaf) : Act := .next (s.setSheaf slot.sid sh)

/-- A result that returns later (R98): to registers (physical varying or uniform), with a window. -/
def Sheaf.addPending (sh : Sheaf) (p : Pending) : Sheaf := { sh with pend := sh.pend ++ [p] }

/-- A pending result of a varying instruction in the acting lanes, its words already computed. -/
def Sheaf.pendV (sh : Sheaf) (slot : Slot) (id d window : Nat) (f : Nat → Word) (mark : Mark) : Sheaf :=
  sh.addPending
    { id := id, addr := slot.addr, varying := true, regs := [sh.phys d], lanes := slot.acting, whole := slot.acting == sh.live,
      window := window, kind := .value, source := [], data := (lanesOf slot.acting).map (fun l => (l, [f l])), bound := true, mark := mark }

/-- A pending result of a uniform instruction. -/
def Sheaf.pendU (sh : Sheaf) (slot : Slot) (id d window : Nat) (w : Word) (mark : Mark) : Sheaf :=
  sh.addPending
    { id := id, addr := slot.addr, varying := false, regs := [d], lanes := 1, whole := true, window := window, kind := .value,
      source := [], data := [(0, [w])], bound := true, mark := mark }

/-- Consecutive operand bytes from one. -/
def span (b k : Nat) : List Nat := (List.range k).map (fun i => b + i)

end Sys2Proof.Machine
end

