-- ==== Sys2Proof/Machine/Affine.lean ====
section
/-!
DEFINITION. The affine instructions (R43, R133), ACMP (R134), demotions and lane reductions (R135, R136).
-/
namespace Sys2Proof.Machine

/-- Major 0x16 (R127). -/
def formAf : Form := { Form.plain with rep := some (true, true, true), wide := true }
/-- Major 0x1E (R127). -/
def formDm : Form := { Form.plain with wide := true }
/-- SREDADD.F32 (R127). -/
def formDmFloat : Form := { formDm with role := .varyingFloat }

/-- The write of an affine result, or AWRAP (R42, R133). -/
def affineAct (slot : Slot) (sh : Sheaf) (s : State) (d : Nat) (r : AffResult) (srcs : List AReg) (mark : Mark) : Act :=
  match sh.writeA d r (srcs.any AReg.ws) (srcs.any AReg.wu) mark with
  | some sh1 => .ofSheaf slot s sh1
  | none => .trap (trapWord slot cAwrap 0) s

/-- An operand of AADD and ASUB as an affine register: a uniform u counts as (u, 0) (R43). -/
def Sheaf.asAffine (sh : Sheaf) (b : Nat) : AReg :=
  if b < 64 then sh.readA (aIndex b) else { base := sh.readUB b, stride := 0, ws := false, wu := false, mark := sh.operandMark b }

/-- An AF instruction with two sources (R133): bOk says what b may name. -/
def afOp (bOk : Nat → Bool) (f : AReg → AReg → AffResult) (d0 a0 b0 : Nat) (slot : Slot) : Op :=
  let st := slot.steps
  let d := stepB (32 + d0) st.1
  let a := stepB (32 + a0) st.2.1
  let b := stepB b0 st.2.2
  { ok := isA d && isA a && bOk b, uses := [d, a, b], also := [], writes := [],
    body := fun slot sh s =>
      let x := sh.readA (aIndex a)
      let y := sh.asAffine b
      affineAct slot sh s (aIndex d) (f x y) [x, y] (maxMark x.mark y.mark) }

/-- An affine or uniform operand byte. -/
def isAU (b : Nat) : Bool := isA b || isU b

/-- AADD (R133). -/
def execAadd (g : BitVec 4) (n : BitVec 1) (d a : BitVec 5) (b : BitVec 8) (s : State) : Host.Outcome State Fault Refusal :=
  issued formAf g n (afOp isAU (fun x y =>
    { baseS := x.base.toInt + y.base.toInt, baseU := (x.base.toNat : Int) + y.base.toNat, stride := x.stride.toInt + y.stride.toInt })
    d.toNat a.toNat b.toNat) s

/-- ASUB (R133). -/
def execAsub (g : BitVec 4) (n : BitVec 1) (d a : BitVec 5) (b : BitVec 8) (s : State) : Host.Outcome State Fault Refusal :=
  issued formAf g n (afOp isAU (fun x y =>
    { baseS := x.base.toInt - y.base.toInt, baseU := (x.base.toNat : Int) - y.base.toNat, stride := x.stride.toInt - y.stride.toInt })
    d.toNat a.toNat b.toNat) s

/-- AMUL (R133): the multiplier is read signed for both flags. -/
def execAmul (g : BitVec 4) (n : BitVec 1) (d a : BitVec 5) (b : BitVec 8) (s : State) : Host.Outcome State Fault Refusal :=
  issued formAf g n (afOp isU (fun x y =>
    { baseS := x.base.toInt * y.base.toInt, baseU := (x.base.toNat : Int) * y.base.toInt, stride := x.stride.toInt * y.base.toInt })
    d.toNat a.toNat b.toNat) s

/-- ASHL (R133): the count is B[4:0]. -/
def execAshl (g : BitVec 4) (n : BitVec 1) (d a : BitVec 5) (b : BitVec 8) (s : State) : Host.Outcome State Fault Refusal :=
  issued formAf g n (afOp isU (fun x y =>
    let c : Int := (2 ^ (y.base.toNat % 32) : Nat)
    { baseS := x.base.toInt * c, baseU := (x.base.toNat : Int) * c, stride := x.stride.toInt * c })
    d.toNat a.toNat b.toNat) s

/-- An AF instruction whose aa field is zero, and stays zero under REP (R133). -/
def afFromOp (bOk : Nat → Bool) (width : Nat) (f : Sheaf → Nat → AffResult × List AReg × Mark) (d0 b0 : Nat) (slot : Slot) : Op :=
  let st := slot.steps
  let d := stepB (32 + d0) st.1
  let b := stepB b0 st.2.2
  { ok := isA d && bOk b && stepV 0 st.2.1 == 0, uses := d :: span b width, also := [], writes := [],
    body := fun slot sh s =>
      let r := f sh b
      affineAct slot sh s (aIndex d) r.1 r.2.1 r.2.2 }

/-- ASET (R133): base and stride from a pair. -/
def execAset (g : BitVec 4) (n : BitVec 1) (d : BitVec 5) (b : BitVec 8) (s : State) : Host.Outcome State Fault Refusal :=
  issued formAf g n (afFromOp evenU 2 (fun sh b =>
    let x := sh.readUB b
    ({ baseS := x.toInt, baseU := x.toNat, stride := (sh.readUB (b + 1)).toInt }, [], sh.pairMark (uIndex b))) d.toNat b.toNat) s

/-- ALANE (R133): (u, 1). -/
def execAlane (g : BitVec 4) (n : BitVec 1) (d : BitVec 5) (b : BitVec 8) (s : State) : Host.Outcome State Fault Refusal :=
  issued formAf g n (afFromOp isU 1 (fun sh b =>
    let x := sh.readUB b
    ({ baseS := x.toInt, baseU := x.toNat, stride := 1 }, [], sh.operandMark b)) d.toNat b.toNat) s

/-- AMOV (R133). -/
def execAmov (g : BitVec 4) (n : BitVec 1) (d : BitVec 5) (b : BitVec 8) (s : State) : Host.Outcome State Fault Refusal :=
  issued formAf g n (afFromOp isA 1 (fun sh b =>
    let x := sh.readA (aIndex b)
    ({ baseS := x.base.toInt, baseU := x.base.toNat, stride := x.stride.toInt }, [x], x.mark)) d.toNat b.toNat) s

/-- ANEG (R133): its b field is zero and stays zero under REP. -/
def anegOp (d0 a0 : Nat) (slot : Slot) : Op :=
  let st := slot.steps
  let d := stepB (32 + d0) st.1
  let a := stepB (32 + a0) st.2.1
  { ok := isA d && isA a && stepV 0 st.2.2 == 0, uses := [d, a], also := [], writes := [],
    body := fun slot sh s =>
      let x := sh.readA (aIndex a)
      affineAct slot sh s (aIndex d) { baseS := -x.base.toInt, baseU := -(x.base.toNat : Int), stride := -x.stride.toInt } [x] x.mark }

/-- ANEG (R133). -/
def execAneg (g : BitVec 4) (n : BitVec 1) (d a : BitVec 5) (s : State) : Host.Outcome State Fault Refusal :=
  issued formAf g n (anegOp d.toNat a.toNat) s

/-- ACMP (R134): a compare of the presented values, legal under divergence. -/
def acmpOp (p a b c : Nat) (_ : Slot) : Op :=
  { ok := predOk p && isAU b && decide (c < 10), uses := [32 + a, b], also := [], writes := [],
    body := fun slot sh s =>
      let x := sh.readA a
      .ofSheaf slot s (sh.writeP p slot.acting (fun l => intCond c (x.lane l) (sh.operand b l)) (maxMark x.mark (sh.operandMark b))) }

/-- ACMP (R134). -/
def execAcmp (g : BitVec 4) (n : BitVec 1) (p : BitVec 4) (a : BitVec 5) (b : BitVec 8) (c : BitVec 4) (s : State) : Host.Outcome State Fault Refusal :=
  issued Form.plain g n (acmpOp p.toNat a.toNat b.toNat c.toNat) s

/-! ## Demotions and reductions (R135, R136) -/

/-- A demotion into a uniform register; none is DEMOTE. -/
def demoteOp (f : Sheaf → Mask → Option (Word × Word)) (d a m p : Nat) (_ : Slot) : Op :=
  { ok := isU d && okMember m p, uses := [d, a], also := [], writes := [],
    body := fun slot sh s =>
      let lanes := if m == 1 then slot.acting &&& (sh.preg p).val else slot.acting
      match f sh lanes with
      | some r => .ofSheaf slot s ((sh.writeUB d r.1 (marks [(sh.vreg a).mark, if m == 1 then (sh.preg p).mark else 0])).raise r.2)
      | none => .trap (trapWord slot cDemote 0) s }

/-- SFROMV (R135): lane x of va, whatever its state. -/
def execSfromv (g : BitVec 4) (n : BitVec 1) (d : BitVec 8) (a l : BitVec 5) (s : State) : Host.Outcome State Fault Refusal :=
  issued formDm g n (demoteOp (fun sh _ => some (sh.readV a.toNat l.toNat, 0)) d.toNat a.toNat 0 0) s

/-- SFIRST (R135). -/
def execSfirst (g : BitVec 4) (n : BitVec 1) (d : BitVec 8) (a : BitVec 5) (s : State) : Host.Outcome State Fault Refusal :=
  issued formDm g n (demoteOp (fun sh lanes => some (sh.readV a.toNat (lowestLane lanes), 0)) d.toNat a.toNat 0 0) s

/-- SUNIF (R135). -/
def execSunif (g : BitVec 4) (n : BitVec 1) (d : BitVec 8) (a : BitVec 5) (s : State) : Host.Outcome State Fault Refusal :=
  issued formDm g n (demoteOp (fun sh lanes =>
    let x := sh.readV a.toNat (lowestLane lanes)
    if (lanesOf lanes).all (fun l => sh.readV a.toNat l == x) then some (x, 0) else none) d.toNat a.toNat 0 0) s

/-- SREDADD.SI32 (R135). -/
def execSredaddSi32 (g : BitVec 4) (n : BitVec 1) (d : BitVec 8) (a : BitVec 5) (m : BitVec 1) (p : BitVec 4) (s : State) : Host.Outcome State Fault Refusal :=
  issued formDm g n (demoteOp (fun sh lanes => some ((lanesOf lanes).foldl (fun x l => x + sh.readV a.toNat l) 0, 0))
    d.toNat a.toNat m.toNat p.toNat) s

/-- The sum of FP32 lanes (R71, R72, R135); 0 without flags for no lane. -/
def sumF32 (xs : List Word) : Word × Word :=
  if xs.isEmpty then (0, 0)
  else
    let ts := xs.map (fun x => fp32.decode x.toNat)
    let r := dotAdd ts
    (BitVec.ofNat 32 r.bits, dotFlags ts r)

/-- SREDADD.F32 (R135). -/
def execSredaddF32 (g : BitVec 4) (n : BitVec 1) (d : BitVec 8) (a : BitVec 5) (m : BitVec 1) (p : BitVec 4) (s : State) : Host.Outcome State Fault Refusal :=
  issued formDmFloat g n (demoteOp (fun sh lanes => some (sumF32 ((lanesOf lanes).map (sh.readV a.toNat)))) d.toNat a.toNat m.toNat p.toNat) s

/-- SREDMIN.SI32 (R135). -/
def execSredminSi32 (g : BitVec 4) (n : BitVec 1) (d : BitVec 8) (a : BitVec 5) (m : BitVec 1) (p : BitVec 4) (s : State) : Host.Outcome State Fault Refusal :=
  issued formDm g n (demoteOp (fun sh lanes => some ((lanesOf lanes).foldl (fun x l => aluMinS x (sh.readV a.toNat l)) 0x7FFFFFFF, 0))
    d.toNat a.toNat m.toNat p.toNat) s

/-- SREDMAX.SI32 (R135). -/
def execSredmaxSi32 (g : BitVec 4) (n : BitVec 1) (d : BitVec 8) (a : BitVec 5) (m : BitVec 1) (p : BitVec 4) (s : State) : Host.Outcome State Fault Refusal :=
  issued formDm g n (demoteOp (fun sh lanes => some ((lanesOf lanes).foldl (fun x l => aluMaxS x (sh.readV a.toNat l)) 0x80000000, 0))
    d.toNat a.toNat m.toNat p.toNat) s

/-- The inverse of an odd number modulo 2^32, by Newton's steps. -/
def inverseOdd (m : Word) : Word :=
  let up := fun (x : Word) => x * (2 - m * x)
  up (up (up (up (up m))))

/-- Every s with d * s = v modulo 2^32, for 0 < d < 32 (R136): d = 2^k * odd has 2^k of them or none. -/
def strides (d : Nat) (v : Word) : List Word :=
  let k := ([4, 3, 2, 1].find? (fun k => d % 2 ^ k == 0)).getD 0
  if v.toNat % 2 ^ k != 0 then []
  else
    let s0 := (inverseOdd (BitVec.ofNat 32 (d / 2 ^ k)) * BitVec.ofNat 32 (v.toNat / 2 ^ k)).toNat % 2 ^ (32 - k)
    (List.range (2 ^ k)).map (fun j => BitVec.ofNat 32 (s0 + j * 2 ^ (32 - k)))

/-- Of two strides the one of smaller magnitude, of equal ones the one not below zero (R136). -/
def betterStride (x y : Word) : Word :=
  if y.toInt.natAbs < x.toInt.natAbs || (y.toInt.natAbs == x.toInt.natAbs && decide (0 ≤ y.toInt)) then y else x

/-- The stride and base that present some lanes' values, if there are any (R136). -/
def affineOf (va : Nat → Word) (lanes : Mask) : Option (Word × Word) :=
  match lanesOf lanes with
  | [] => none
  | [l] => some (va l, 0)
  | l0 :: l1 :: rest =>
    let fits := fun (x : Word) => (l1 :: rest).all (fun l => va l0 + BitVec.ofNat 32 (l - l0) * x == va l)
    match (strides (l1 - l0) (va l1 - va l0)).filter fits with
    | [] => none
    | x :: xs => let st := xs.foldl betterStride x; some (va l0 - BitVec.ofNat 32 l0 * st, st)

/-- AFROMV (R135, R136). -/
def afromvOp (d a : Nat) (_ : Slot) : Op :=
  { ok := isA d, uses := [d, a], also := [], writes := [],
    body := fun slot sh s =>
      match affineOf (sh.readV a) slot.acting with
      | some (base, st) => affineAct slot sh s (aIndex d) { baseS := base.toInt, baseU := base.toNat, stride := st.toInt } [] (sh.vreg a).mark
      | none => .trap (trapWord slot cDemote 0) s }

/-- AFROMV (R135). -/
def execAfromv (g : BitVec 4) (n : BitVec 1) (d : BitVec 8) (a : BitVec 5) (s : State) : Host.Outcome State Fault Refusal :=
  issued formDm g n (afromvOp d.toNat a.toNat) s

end Sys2Proof.Machine
end

