-- ==== Sys2Proof/Machine/Special.lean ====
section
/-!
DEFINITION. Special registers (R47 to R49, R131, R145) and the reads of affine registers (R132).
-/
namespace Sys2Proof.Machine

/-- SRD, SWR and the affine reads (R127). -/
def formSr : Form := { Form.plain with wide := true }

/-- CLK of a package as it is read: some number of nanoseconds after the reading before (R47, log entry 8). -/
def State.readClk (s : State) (package : Nat) : BitVec 64 × State :=
  let now := (s.package package).clk + Config.clkAdvance s.freeCount
  (BitVec.ofNat 64 now, { s with freeCount := s.freeCount + 1 }.modPackage package (fun p => { p with clk := now }))

/-- The coordinates of a tuft in its grid (R28): X varies fastest. -/
def Kernel.coord (k : Kernel) (index axis : Nat) : Nat :=
  match axis with
  | 0 => index % k.nx
  | 1 => index / k.nx % k.ny
  | _ => index / k.nx / k.ny

/-- The loop slot of a number that SRD and SWR address: the saved one in a handler (R145). -/
def Sheaf.loopSlot (sh : Sheaf) (j : Nat) : LoopSlot :=
  match sh.handler with
  | some h => if j == 0 then h.loop0 else h.loop1
  | none => if j == 0 then sh.loop0 else sh.loop1

/-- Change the loop slot that SRD and SWR address (R145). -/
def Sheaf.modLoopSlot (sh : Sheaf) (j : Nat) (f : LoopSlot → LoopSlot) : Sheaf :=
  match sh.handler with
  | some h => { sh with handler := some (if j == 0 then { h with loop0 := f h.loop0 } else { h with loop1 := f h.loop1 }) }
  | none => if j == 0 then { sh with loop0 := f sh.loop0 } else { sh with loop1 := f sh.loop1 }

/-- The value of a special register other than CLK (R47). -/
def State.special (s : State) (sh : Sheaf) (n : Nat) : BitVec 64 :=
  let tuft := s.tuft? sh.tid
  let kernel := s.kernelOf? sh
  let word := fun (v : Nat) => BitVec.ofNat 64 v
  let coord := fun axis => word (match kernel, tuft with | some k, some t => k.coord t.index axis | _, _ => 0)
  let dim := fun (f : Kernel → Nat) => word (kernel.elim 0 f)
  let slice := sliceOf sh.core
  match n with
  | 0x00 => word sh.idx
  | 0x01 => coord 0
  | 0x02 => coord 1
  | 0x03 => coord 2
  | 0x04 => dim Kernel.nx
  | 0x05 => dim Kernel.ny
  | 0x06 => dim Kernel.nz
  | 0x08 => word (coreIn sh.core)
  | 0x09 => word (packageOf slice + sliceIn slice * 1024)
  | 0x0A => word (s.partOf sh)
  | 0x10 => sh.status.setWidth 64
  | 0x11 => sh.mode.setWidth 64
  | 0x12 => sh.fairq.setWidth 64
  | 0x13 => word sh.lease.lease
  | 0x18 => (sh.loopSlot 0).lc.setWidth 64
  | 0x19 => (sh.loopSlot 1).lc.setWidth 64
  | 0x1A => (sh.loopSlot 0).ls
  | 0x1B => (sh.loopSlot 0).le
  | 0x1C => (sh.loopSlot 1).ls
  | 0x1D => (sh.loopSlot 1).le
  | 0x1E => word (match sh.handler with | some h => h.reprem | none => sh.reprem)
  | 0x20 => match sh.handler with | some h => h.tcause.setWidth 64 | none => 0
  | 0x21 => match sh.handler with | some h => h.tinfo | none => 0
  | 0x24 => word sh.wbase
  | 0x25 => word sh.wrbase
  | 0x26 => sh.lstk
  | _ => 0

/-- The value of a special register, with the state after the reading: CLK goes on (R47). -/
def State.readSpecial (s : State) (sh : Sheaf) (n : Nat) : BitVec 64 × State :=
  if n == 0x0C then s.readClk (packageOf (sliceOf sh.core)) else (s.special sh n, s)

/-- A value written to uniform registers by the width of what it was read from (R37). -/
def Sheaf.writeWide (sh : Sheaf) (i : Nat) (wide : Bool) (v : BitVec 64) (mark : Mark) : Sheaf :=
  if wide then sh.writePair i v mark else sh.writeU i (v.setWidth 32) mark

/-- SRD (R131): the value carries OPEN (R47). -/
def srdOp (d r : Nat) (_ : Slot) : Op :=
  { ok := okSrd d r, uses := span d (if srWide r then 2 else 1), also := [], writes := [],
    body := fun slot sh s =>
      let v := s.readSpecial sh r
      .next (v.2.setSheaf slot.sid (sh.writeWide (uIndex d) (srWide r) v.1 0)) }

/-- An address that a loop register or a register target may hold (R47, R84). -/
def targetOk (a : Addr) : Bool := a.toNat % 4 == 0 && canonical a

/-- The window invariant of R38. -/
def windowOk (wbase wrbase vstack : Nat) : Bool := decide (wrbase ≤ wbase) && decide (wbase + 32 ≤ wrbase + vstack)

/-- The write of a special register (R22, R47, R48, R143, R145); none where it raises ILLEGAL. -/
def Sheaf.writeSpecial (sh : Sheaf) (n : Nat) (v : BitVec 64) (mark : Mark) : Option Sheaf :=
  let w : Word := v.setWidth 32
  let loopPart := fun (j : Nat) (f : LoopSlot → LoopSlot) => sh.modLoopSlot j (fun x => { f x with mark := maxMark x.mark mark })
  match n with
  | 0x10 => if statusLegal w then some { sh with status := w } else none
  | 0x12 => if fairqLegal w then some { sh with fairq := w } else none
  | 0x18 => some (loopPart 0 (fun x => { x with lc := w }))
  | 0x19 => some (loopPart 1 (fun x => { x with lc := w }))
  | 0x1A => if targetOk v then some (loopPart 0 (fun x => { x with ls := v })) else none
  | 0x1B => if targetOk v then some (loopPart 0 (fun x => { x with le := v })) else none
  | 0x1C => if targetOk v then some (loopPart 1 (fun x => { x with ls := v })) else none
  | 0x1D => if targetOk v then some (loopPart 1 (fun x => { x with le := v })) else none
  | 0x1E => sh.handler.map (fun h => { sh with handler := some { h with reprem := w.toNat } })
  | 0x24 => if windowOk w.toNat sh.wrbase sh.vstack then some { sh with wbase := w.toNat } else none
  | 0x25 => if windowOk sh.wbase w.toNat sh.vstack then some { sh with wrbase := w.toNat } else none
  | _ => none

/-- SWR (R131). -/
def swrOp (d r : Nat) (_ : Slot) : Op :=
  { ok := okSwr d r, legal := fun sh _ => !srHandler r || sh.handler.isSome, uses := span d (if srWide r then 2 else 1), also := [],
    writes := [],
    body := fun slot sh s =>
      let v : BitVec 64 := if srWide r then sh.readPairB d else (sh.readUB d).setWidth 64
      let mark := if srWide r then sh.pairMark (uIndex d) else (sh.ureg (uIndex d)).mark
      match sh.writeSpecial r v mark with
      | some sh1 => .ofSheaf slot s sh1
      | none => .trap (illegalWord slot) s }

/-- AGETB, AGETS, AGETW (R132). -/
def agetOp (f : AReg → Word) (d r : Nat) (_ : Slot) : Op :=
  { ok := isU d && isA r, uses := [d, r], also := [], writes := [],
    body := fun slot sh s => .ofSheaf slot s (sh.writeUB d (f (sh.readA (aIndex r))) (sh.readA (aIndex r)).mark) }

/-- SRD (R131). -/
def execSrd (g : BitVec 4) (n : BitVec 1) (d r : BitVec 8) (s : State) : Host.Outcome State Fault Refusal :=
  issued formSr g n (srdOp d.toNat r.toNat) s

/-- SWR (R131). -/
def execSwr (g : BitVec 4) (n : BitVec 1) (d r : BitVec 8) (s : State) : Host.Outcome State Fault Refusal :=
  issued formSr g n (swrOp d.toNat r.toNat) s

/-- AGETB (R132). -/
def execAgetb (g : BitVec 4) (n : BitVec 1) (d r : BitVec 8) (s : State) : Host.Outcome State Fault Refusal :=
  issued formSr g n (agetOp AReg.base d.toNat r.toNat) s

/-- AGETS (R132). -/
def execAgets (g : BitVec 4) (n : BitVec 1) (d r : BitVec 8) (s : State) : Host.Outcome State Fault Refusal :=
  issued formSr g n (agetOp AReg.stride d.toNat r.toNat) s

/-- AGETW (R132): bit 0 WS, bit 1 WU. -/
def execAgetw (g : BitVec 4) (n : BitVec 1) (d r : BitVec 8) (s : State) : Host.Outcome State Fault Refusal :=
  issued formSr g n (agetOp (fun a => (if a.ws then 1 else 0) ||| (if a.wu then 2 else 0)) d.toNat r.toNat) s

end Sys2Proof.Machine
end

