-- ==== Sys2Proof/Machine/Access.lean ====
section
/-!
DEFINITION. The access of a memory instruction: the formation of addresses (R153, R154) and the five stages of checks that
precede every access (R155), with the lanes that fail at the deciding stage.
-/
namespace Sys2Proof.Machine

/-- A global address of lane l (R153): base pair bp(j), the lane's offset operand, the XIMM offset. -/
def Sheaf.globalAddr (sh : Sheaf) (slot : Slot) (base off l : Nat) : Addr :=
  addrAdd (sh.readPair (128 + 2 * base)) ((sh.operand off l).toInt + slot.offset)

/-- The mark of a global address (R55). -/
def Sheaf.globalMark (sh : Sheaf) (base off : Nat) : Mark := maxMark (sh.pairMark (128 + 2 * base)) (sh.operandMark off)

/-- The operand bytes of bp(j). -/
def bpBytes (base : Nat) : List Nat := span (64 + 128 + 2 * base) 2

/-- The operand byte of lb(j). -/
def lbByte (base : Nat) : Nat := 64 + 160 + base

/-- A lane that may access: its translation and the key of its slot. -/
structure Reached where
  lane  : Nat
  va    : Addr
  trans : Trans
  key   : Nat
  deriving DecidableEq, Repr

/-- A lane that fails at a stage: what its record says. -/
structure Failed where
  lane   : Nat
  code   : Nat
  reason : Nat
  va     : Addr
  detail : Nat
  deriving DecidableEq, Repr

/-- The lanes of some failures. -/
def failedLanes (xs : List Failed) : Mask := maskOf (fun l => xs.any (fun x => x.lane == l))

/-- The fault of a stage (R155): the lowest failing lane, the first of the list, supplies what the record says. -/
def stageFault (s : State) (f : Failed) (fs : List Failed) : Act :=
  let lanes := failedLanes (f :: fs)
  if f.code == fMemErr then .fault (SysFault.ending fMemErr lanes f.detail) s
  else .fault (SysFault.replayable f.code f.reason f.va lanes f.detail) s

/-- Reasons of PROT (R334). -/
def rCanon : Nat := 1
/-- ALIGN (R334). -/
def rAlign : Nat := 2
/-- WRITE (R334). -/
def rWrite : Nat := 3
/-- READ (R334). -/
def rRead : Nat := 4
/-- EXEC (R334). -/
def rExec : Nat := 5

/-- Stage 1 for a global address (R155). -/
def stage1 (width lane : Nat) (va : Addr) : Option Failed :=
  if !canonical va then some { lane := lane, code := fProt, reason := rCanon, va := va, detail := 0 }
  else if va.toNat % width != 0 then some { lane := lane, code := fProt, reason := rAlign, va := va, detail := 0 }
  else none

/-- The translations of some lanes' addresses, in lane order (R155 stage 3). -/
def State.translateLanes (s : State) (sh : Sheaf) (write : Bool) (accs : List (Nat × Addr)) : List (Nat × Addr × Xlate) × State :=
  accs.foldl (fun (acc : List (Nat × Addr × Xlate) × State) a =>
    let r := acc.2.xlateTuft sh.tid sh.core a.2 write
    (acc.1 ++ [(a.1, a.2, r.1)], r.2)) ([], s)

/-- A lane whose translation failed. -/
def stage3 (x : Nat × Addr × Xlate) : Option Failed :=
  match x.2.2 with
  | .fault code reason va detail => some { lane := x.1, code := code, reason := reason, va := va, detail := detail }
  | .memErr pa => some { lane := x.1, code := fMemErr, reason := 0, va := x.2.1, detail := pa }
  | _ => none

/-- A lane that waits for a migrating page (R284). -/
def migratingOf (x : Nat × Addr × Xlate) : Option Nat := match x.2.2 with | .migrating e => some e | _ => none

/-- A lane with its translation. -/
def State.reachedOf (s : State) (part : Nat) (x : Nat × Addr × Xlate) : Option Reached :=
  match x.2.2 with
  | .ok t => some { lane := x.1, va := x.2.1, trans := t, key := (s.keySlot part t.kh).key }
  | _ => none

/-- Stage 4 (R155, R288): a write needs w, a read needs r. -/
def stage4 (write : Bool) (x : Reached) : Option Failed :=
  if write && !x.trans.w then some { lane := x.lane, code := fProt, reason := rWrite, va := x.va, detail := 0 }
  else if !write && !x.trans.r then some { lane := x.lane, code := fProt, reason := rRead, va := x.va, detail := 0 }
  else none

/-- Stage 5 (R57, R155): the mark that flows may not exceed the destination slot's. -/
def State.stage5 (s : State) (part : Nat) (flow : Mark) (x : Reached) : Option Failed :=
  let dest := s.slotMark part x.trans.kh
  if dest.toNat < flow.toNat then some { lane := x.lane, code := fMarkFlow, reason := 0, va := x.va, detail := dest.toNat } else none

/-- How the checks of an access end: what becomes of the instruction, or the lanes that may access. -/
inductive Checked where
  | stop (a : Act)
  | go (xs : List Reached) (s : State)

/-- A table entry's physical address that no port carries a lane's walk to (R341). -/
def farWalk (x : Nat × Addr × Xlate) : Option Nat := match x.2.2 with | .far paddr => some paddr | _ => none

/-- A lane's physical address that no port carries its access to (R341). -/
def State.farOf (s : State) (sh : Sheaf) (x : Reached) : Option Nat :=
  if s.cannotReach sh.core x.trans.paddr then some x.trans.paddr else none

/-- The wait for an access that no port carries, under a name of its own (R341, R344). -/
def waitFar (paddr : Nat) (s : State) : Act := .wait (.link s.nextId paddr 0) { s with nextId := s.nextId + 1 }

/-- Stages 1, 3, 4 and 5 of R155 for global accesses of some lanes. flow is the mark that a write moves. A walk that no port
carries waits before stage 3 is decided, an access that no port carries when every stage is passed, before anything of it is done (R341). -/
def State.checkGlobal (s : State) (sh : Sheaf) (accs : List (Nat × Addr)) (width : Nat) (write : Bool) (flow : Mark) : Checked :=
  match accs.filterMap (fun a => stage1 width a.1 a.2) with
  | f :: fs => .stop (stageFault s f fs)
  | [] =>
    let r := s.translateLanes sh write accs
    match r.1.filterMap stage3 with
    | f :: fs => .stop (stageFault r.2 f fs)
    | [] =>
      match r.1.findSome? migratingOf with
      | some entry => .stop (.wait (.migrate entry) r.2)
      | none =>
        match r.1.findSome? farWalk with
        | some paddr => .stop (waitFar paddr r.2)
        | none =>
          let part := r.2.partOf sh
          let xs := r.1.filterMap (r.2.reachedOf part)
          match xs.filterMap (stage4 write) with
          | f :: fs => .stop (stageFault r.2 f fs)
          | [] =>
            match (if write then xs.filterMap (r.2.stage5 part flow) else []) with
            | f :: fs => .stop (stageFault r.2 f fs)
            | [] =>
              match xs.findSome? (r.2.farOf sh) with
              | some paddr => .stop (waitFar paddr r.2)
              | none => .go xs r.2

/-- The largest slot mark among the pages of some lanes (R55). -/
def State.reachedMark (s : State) (part : Nat) (xs : List Reached) : Mark := marks (xs.map (fun x => s.slotMark part x.trans.kh))

/-- Where a load's lane reads (R157). -/
def Reached.src (x : Reached) (fresh : Bool) : Src :=
  { lane := x.lane, paddr := x.trans.paddr, kh := x.trans.kh, key := x.key, grain := x.trans.grain, fresh := fresh || x.trans.fresh }

/-- The 128-byte lines at some physical addresses. -/
def linesAt (ps : List Nat) : List Nat := (ps.map (· / 128)).eraseDups

/-- The lines that lanes access. -/
def touchedLines (xs : List Reached) : List Nat := linesAt (xs.map (fun x => x.trans.paddr))

/-- Lines that the memory instruction just counted touched; those of the 1,025th begin the next window (R242). -/
def Lease.touch (x : Lease) (lines : List Nat) : Lease :=
  if x.memInstrs ≤ 1024 then { x with lines := (x.lines ++ lines).eraseDups } else { x with after := (x.after ++ lines).eraseDups }

/-- A memory instruction more in the sheaf's sketch, with the lines it touches (R161, R242). -/
def Sheaf.countMem (sh : Sheaf) (lines : List Nat) : Sheaf := { sh with lease := { sh.lease with memInstrs := sh.lease.memInstrs + 1 }.touch lines }

/-- How the checks of a local access end. -/
inductive CheckedLocal where
  | stop (a : Act)
  | go (xs : List (Nat × Place)) (s : State)

/-- The local address that a lane forms, as a 32-bit word (R154, R331). DESIGN CHOICE (log entry 77): one whose offset is negative or does
not fit bits [23:0] is the sum modulo 2^32. -/
def localWord (la : Word) (dist : Int) : Word := la + BitVec.ofInt 32 dist

/-- The bytes of the sheaf's own allotment that lanes at distances from a local address touch. -/
def State.ownBytes (s : State) (sh : Sheaf) (la : Word) (dists : List (Nat × Int)) (width : Nat) : List Nat :=
  dists.flatMap (fun d => match s.localAddr? sh.tid sh.core la d.2 width with
    | some p => if p.tid == sh.tid then span p.off width else []
    | none => [])

/-- Stages 1 and 2 of R155 for local accesses of some lanes at distances from a local address, then row 5 of R195: MHAZARD
under MSTRICT, a wait for the matrix operations under REPLAY. -/
def State.checkLocal (s : State) (slot : Slot) (sh : Sheaf) (la : Word) (dists : List (Nat × Int)) (width : Nat) (store : Bool) : CheckedLocal :=
  let wordOf := fun (d : Nat × Int) => localWord la d.2
  let bad := fun (d : Nat × Int) =>
    if (wordOf d).toNat % width != 0 then
      some { lane := d.1, code := fProt, reason := rAlign, va := (wordOf d).setWidth 64, detail := 0 : Failed } else none
  match dists.filterMap bad with
  | f :: fs => .stop (stageFault s f fs)
  | [] =>
    match dists.find? (fun d => (s.localAddr? sh.tid sh.core la d.2 width).isNone) with
    | some d => .stop (.trap (TrapInfo.at cHandle 0 d.1 ((wordOf d).setWidth 64)) s)
    | none =>
      let xs := dists.filterMap (fun d => (s.localAddr? sh.tid sh.core la d.2 width).map (fun p => (d.1, p)))
      if sh.localHazard (s.ownBytes sh la dists width) store then
        if modeMstrict sh.mode then .stop (.trap (TrapInfo.at cMhazard 5 0 (slot.word.setWidth 64)) s)
        else .go xs (if modeReplay sh.mode then s.drainMatrix slot.sid else s)
      else .go xs s

end Sys2Proof.Machine
end

