-- ==== Sys2Proof/Machine/LoadStore.lean ====
section
/-!
DEFINITION. Loads and stores of the ME and MX formats (R156 to R161), and the uniform and parameter loads of the LS format
(R162 to R164).
-/
namespace Sys2Proof.Machine

/-- The ME format (R93, R94, R98). -/
def formMe : Form := { Form.plain with rep := some (true, false, true), ximm := true }
/-- The loads of the MX format, which take an LA prefix (R96). -/
def formMxLoad : Form := { formMe with la := true }
/-- The LS format (R151). -/
def formLs : Form := { Form.plain with ximm := true, wide := true }

/-- The varying registers of an element of k words at vd. -/
def Sheaf.elementRegs (sh : Sheaf) (d k : Nat) : List Nat := (span d k).map sh.phys

/-- A source of a load that issues: a weak one whose sector is not valid may read the home, whatever fills the sector (R222). -/
def State.atIssue (s : State) (sh : Sheaf) (src : Src) (size : Nat) : Src :=
  { src with missed := !src.fresh && s.notValid sh.core src.key src.paddr size }

/-- A global load (R156, R157): size bytes per lane into k registers, aligned to k. -/
def loadGlobal (size k : Nat) (w : Widen) (fresh : Bool) (window : Slot → Nat) (d0 base off0 : Nat) (slot : Slot) : Op :=
  let st := slot.steps
  let d := stepV d0 st.1
  let off := stepB off0 st.2.2
  { ok := alignV k d && decide (off < 256), uses := span d k ++ [off] ++ bpBytes base, also := [], writes := span d k,
    body := fun slot sh s =>
      match s.checkGlobal sh ((lanesOf slot.acting).map (fun l => (l, sh.globalAddr slot base off l))) size false 0 with
      | .stop a => a
      | .go xs s1 =>
        let mark := maxMark (s1.reachedMark (s1.partOf sh) xs) (sh.globalMark base off)
        let p : Pending :=
          { id := s1.nextId, addr := slot.addr, group := slot.group, varying := true, regs := sh.elementRegs d k, lanes := slot.acting,
            whole := slot.acting == sh.live, window := window slot, kind := .load size w, source := xs.map (fun x => s1.atIssue sh (x.src fresh) size),
            data := [], bound := false, mark := mark }
        .next ({ s1 with nextId := s1.nextId + 1 }.setSheaf slot.sid ((sh.countMem (touchedLines xs)).addPending p)) }

/-- The bytes that a lane of a store writes: the low size bytes of k registers at vd (R156, R160). -/
def Sheaf.storeBytes (sh : Sheaf) (d k size l : Nat) : List Byte :=
  ((span d k).flatMap (fun i => leBytes 4 (sh.readV i l).toNat)).take size

/-- The mark of the data of a store. -/
def Sheaf.dataMark (sh : Sheaf) (d k : Nat) : Mark := marks ((span d k).map (fun i => (sh.vreg i).mark))

/-- A global store (R156, R158, R160): weak with a cache hint, or strong. -/
def storeGlobal (size k : Nat) (strong : Bool) (hint d0 base off0 : Nat) (slot : Slot) : Op :=
  let st := slot.steps
  let d := stepV d0 st.1
  let off := stepB off0 st.2.2
  { ok := alignV k d && cacheOk hint && decide (off < 256), uses := span d k ++ [off] ++ bpBytes base, also := [], writes := [],
    body := fun slot sh s =>
      let flow := maxMark (sh.dataMark d k) (sh.globalMark base off)
      match s.checkGlobal sh ((lanesOf slot.acting).map (fun l => (l, sh.globalAddr slot base off l))) size true flow with
      | .stop a => a
      | .go xs s1 =>
        .next ((s1.setSheaf slot.sid (sh.countMem (touchedLines xs))).storeLanes slot.sid strong hint
          (xs.map (fun x => { trans := x.trans, key := x.key, bytes := sh.storeBytes d k size x.lane }))) }

/-- The distances of lanes from lb(j) (R154). -/
def Sheaf.localDists (sh : Sheaf) (slot : Slot) (off : Nat) : List (Nat × Int) :=
  (lanesOf slot.acting).map (fun l => (l, (sh.operand off l).toInt + slot.offset))

/-- The mark of a local address. -/
def Sheaf.localAddrMark (sh : Sheaf) (base off : Nat) : Mark := maxMark (sh.ureg (160 + base)).mark (sh.operandMark off)

/-- A local load (R159): it performs at issue, its result returns later. -/
def loadLocal (size k : Nat) (w : Widen) (window : Slot → Nat) (d0 base off0 : Nat) (slot : Slot) : Op :=
  let st := slot.steps
  let d := stepV d0 st.1
  let off := stepB off0 st.2.2
  { ok := alignV k d && decide (off < 256), uses := span d k ++ [off, lbByte base], also := [], writes := span d k,
    hazard := fun slot sh s => sh.localHazard (s.ownBytes sh (sh.readU (160 + base)) (sh.localDists slot off) size) false,
    body := fun slot sh s =>
      match s.checkLocal slot sh (sh.readU (160 + base)) (sh.localDists slot off) size false with
      | .stop a => a
      | .go xs s1 =>
        let mark := maxMark (marks (xs.map (fun x => s1.localMark x.2 size))) (sh.localAddrMark base off)
        let p : Pending :=
          { id := s1.nextId, addr := slot.addr, varying := true, regs := sh.elementRegs d k, lanes := slot.acting,
            whole := slot.acting == sh.live, window := window slot, kind := .value, source := [],
            data := xs.map (fun x => (x.1, widenBytes w (s1.localBytes x.2 size))), bound := true, mark := mark }
        .next ({ s1 with nextId := s1.nextId + 1 }.modSheaf slot.sid (fun sh => sh.addPending p)) }

/-- Bytes that some lanes write into local stores: one write of the instruction for each allotment (R56, R152, R159). -/
def State.storeLocal (s : State) (xs : List (Nat × Place)) (bytes : Nat → List Byte) (mark : Mark) : State :=
  let tids := xs.foldl (fun acc x => if acc.contains x.2.tid then acc else acc ++ [x.2.tid]) ([] : List Nat)
  s.forEach tids (fun s tid =>
    s.writeLocal tid ((xs.filter (fun x => x.2.tid == tid)).flatMap (fun x => spread x.2.off (bytes x.1))) mark 0)

/-- Under MSTRICT a MATRIX sheaf remembers the bytes of its own allotment that it stored, until its next MFENCE (R195 row 1). -/
def Sheaf.noteStored (sh : Sheaf) (offs : List Nat) : Sheaf :=
  if modeMstrict sh.mode && sh.role == .matrix then { sh with aWrites := sh.aWrites ++ offs.filter (fun o => !sh.aWrites.contains o) } else sh

/-- A local store (R159): the three cache hints act alike (R156). -/
def storeLocalOp (size k hint d0 base off0 : Nat) (slot : Slot) : Op :=
  let st := slot.steps
  let d := stepV d0 st.1
  let off := stepB off0 st.2.2
  { ok := alignV k d && cacheOk hint && decide (off < 256), uses := span d k ++ [off, lbByte base], also := [], writes := [],
    hazard := fun slot sh s => sh.localHazard (s.ownBytes sh (sh.readU (160 + base)) (sh.localDists slot off) size) true,
    body := fun slot sh s =>
      match s.checkLocal slot sh (sh.readU (160 + base)) (sh.localDists slot off) size true with
      | .stop a => a
      | .go xs s1 =>
        .next ((s1.storeLocal xs (fun l => sh.storeBytes d k size l) (maxMark (sh.dataMark d k) (sh.localAddrMark base off))).modSheaf slot.sid
          (fun sh => sh.noteStored (xs.flatMap (fun x => if x.2.tid == sh.tid then span x.2.off size else [])))) }

/-- The window of a load with an L field. -/
def fieldWindow (l : Nat) (_ : Slot) : Nat := l

/-- One lane of a prefetch (R161): its sector enters the L1; an address that would fail prefetches nothing. DESIGN CHOICE (log entry 77):
so does one whose home refuses it, whose sector is poisoned or which no port carries, and no record is posted. -/
def State.prefetch (s : State) (sid : Nat) (fresh : Bool) (va : Addr) : State :=
  match s.sheaf? sid with
  | none => s
  | some sh =>
    if !canonical va then s
    else
      match s.xlateTuft sh.tid sh.core va false with
      | (.ok t, s1) =>
        let part := s1.partOf sh
        let key := (s1.keySlot part t.kh).key
        let n := t.paddr / 32
        if !t.r || (s1.homeRefusal part (s1.ctxOf sh) t.paddr t.kh key).isSome || s1.isPoisoned n || s1.cannotReach sh.core t.paddr then s1
        else
          let s2 := s1.modSheaf sid (fun sh => { sh with lease := sh.lease.touch (linesAt [t.paddr]) })
          if fresh && ((s2.core sh.core).sector? key n).isSome then (s2.performLine sh.core (n / 4)).refreshSector sh.core key n
          else (s2.fillUnit sh.core sh.slotNo key 1 t.paddr false []).modCore sh.core (fun k => { k with l1 := k.l1.modify n (fun x => { x with grain := t.grain }) })
      | _ => s

/-- PFG (R161): vd is zero and stays zero under REP. -/
def prefetchOp (fresh : Bool) (base off0 : Nat) (slot : Slot) : Op :=
  let st := slot.steps
  let off := stepB off0 st.2.2
  { ok := stepV 0 st.1 == 0 && decide (off < 256), uses := off :: bpBytes base, also := [], writes := [],
    body := fun slot sh s =>
      .next ((s.setSheaf slot.sid (sh.countMem [])).forEach (lanesOf slot.acting) (fun s l => s.prefetch slot.sid fresh (sh.globalAddr slot base off l))) }

/-- The data of a load of the whole sheaf, taken at issue: its words and mark go to a continuation; a refused fill ends the
sheaf (R155, R291). -/
def State.loadNow (s : State) (slot : Slot) (sh : Sheaf) (va : Addr) (size : Nat) (fresh : Bool) (next : List Byte → Mark → State → Act) : Act :=
  match s.checkGlobal sh [(lowestLane slot.lanes, va)] size false 0 with
  | .stop a => a
  | .go xs s1 =>
    match xs with
    | x :: _ =>
      let sh1 := sh.countMem (touchedLines xs)
      let s2 := (s1.setSheaf slot.sid sh1).forceResults slot.sid (fun p => p.reads x.trans.paddr size)
      (match s2.fetchData slot.sid (x.src fresh) size with
       | (.ok bs, s3) => next bs (s3.reachedMark (s3.partOf sh) xs) s3
       | (.bad code detail, s3) => .stop (s3.endSheaf slot.sid slot (SysFault.ending code (maskOf (fun l => l == x.lane)) detail)))
    | [] => .next s1

/-- LDS, LDS.W, LDS.Q, LDS.O (R162): k words at an address pair. -/
def ldsOp (k d b : Nat) (_ : Slot) : Op :=
  { ok := isU d && d % k == 0 && evenU b, uses := span d k ++ span b 2, also := [], writes := [],
    body := fun slot sh s =>
      s.loadNow slot sh (addrAdd (sh.readPairB b) slot.offset) (4 * k) false (fun bs mark s1 =>
        .next (s1.modSheaf slot.sid (fun sh => sh.writeUs (uIndex d) (widenBytes .none bs) (maxMark mark (sh.pairMark (uIndex b)))))) }

/-- The byte offset of an LDP (R93, R163). -/
def Slot.ldpOffset (slot : Slot) (o : Nat) : Int := 8 * o + slot.offset

/-- A window as the kernel's packet bound it: base and size; a size of zero is no binding (R163, R260). -/
def State.windowOf (s : State) (sh : Sheaf) (w : Nat) : Option (Addr × Nat) :=
  match (s.kernelOf? sh).bind (fun k => k.windows[w]?) with
  | some (base, size) => if size == 0 then none else some (base, size)
  | none => none

/-- LDP (R163). -/
def ldpOp (d o w : Nat) (slot : Slot) : Op :=
  let t := slot.ldpOffset o
  { ok := evenU d && decide (0 ≤ t) && t % 8 == 0, uses := span d 2, also := [], writes := [],
    body := fun slot sh s =>
      match s.windowOf sh w with
      | none => .trap (TrapInfo.at cParamUnbound 0 0 (BitVec.ofNat 64 w)) s
      | some (base, size) =>
        if (size : Int) < t + 8 then .ofSheaf slot s ((sh.writePairB d 0 0).raise flagPWOOB)
        else
          s.loadNow slot sh (addrAdd base t) 8 false (fun bs mark s1 =>
            .next (s1.modSheaf slot.sid (fun sh => sh.writeUs (uIndex d) (widenBytes .none bs) mark))) }

/-- LDLS (R164): 4 bytes at a local address held in a uniform register. DESIGN CHOICE (log entry 65): the lane that forms the address, which
LANE of a HANDLE trap names, is the lowest issuing lane. -/
def ldlsOp (d b : Nat) (_ : Slot) : Op :=
  { ok := isU d && isU b, uses := [d, b], also := [], writes := [],
    hazard := fun slot sh s => sh.localHazard (s.ownBytes sh (sh.readUB b) [(lowestLane slot.lanes, slot.offset)] 4) false,
    body := fun slot sh s =>
      match s.checkLocal slot sh (sh.readUB b) [(lowestLane slot.lanes, slot.offset)] 4 false with
      | .stop a => a
      | .go xs s1 =>
        .next (s1.modSheaf slot.sid (fun sh => xs.foldl (fun sh x =>
          sh.writeUB d ((widenBytes .none (s1.localBytes x.2 4)).headD 0) (maxMark (s1.localMark x.2 4) (sh.operandMark b))) sh)) }

/-! ## Global loads and stores -/

/-- LDG (R156). -/
def execLdg (g : BitVec 4) (n : BitVec 1) (d : BitVec 5) (o : BitVec 8) (b : BitVec 3) (f : BitVec 1) (l : BitVec 4) (s : State) : Host.Outcome State Fault Refusal :=
  issued formMe g n (loadGlobal 4 1 .none (f == 1) (fieldWindow l.toNat) d.toNat b.toNat o.toNat) s

/-- LDG_W (R156). -/
def execLdgW (g : BitVec 4) (n : BitVec 1) (d : BitVec 5) (o : BitVec 8) (b : BitVec 3) (f : BitVec 1) (l : BitVec 4) (s : State) : Host.Outcome State Fault Refusal :=
  issued formMe g n (loadGlobal 8 2 .none (f == 1) (fieldWindow l.toNat) d.toNat b.toNat o.toNat) s

/-- LDG_Q (R156). -/
def execLdgQ (g : BitVec 4) (n : BitVec 1) (d : BitVec 5) (o : BitVec 8) (b : BitVec 3) (f : BitVec 1) (l : BitVec 4) (s : State) : Host.Outcome State Fault Refusal :=
  issued formMe g n (loadGlobal 16 4 .none (f == 1) (fieldWindow l.toNat) d.toNat b.toNat o.toNat) s

/-- STG (R156). -/
def execStg (g : BitVec 4) (n : BitVec 1) (d : BitVec 5) (o : BitVec 8) (b : BitVec 3) (k : BitVec 1) (c : BitVec 4) (s : State) : Host.Outcome State Fault Refusal :=
  issued formMe g n (storeGlobal 4 1 (k == 1) c.toNat d.toNat b.toNat o.toNat) s

/-- STG_W (R156). -/
def execStgW (g : BitVec 4) (n : BitVec 1) (d : BitVec 5) (o : BitVec 8) (b : BitVec 3) (k : BitVec 1) (c : BitVec 4) (s : State) : Host.Outcome State Fault Refusal :=
  issued formMe g n (storeGlobal 8 2 (k == 1) c.toNat d.toNat b.toNat o.toNat) s

/-- STG_Q (R156). -/
def execStgQ (g : BitVec 4) (n : BitVec 1) (d : BitVec 5) (o : BitVec 8) (b : BitVec 3) (k : BitVec 1) (c : BitVec 4) (s : State) : Host.Outcome State Fault Refusal :=
  issued formMe g n (storeGlobal 16 4 (k == 1) c.toNat d.toNat b.toNat o.toNat) s

/-- LDG_U8 (R160). -/
def execLdgU8 (g : BitVec 4) (n : BitVec 1) (d : BitVec 5) (o : BitVec 8) (b : BitVec 3) (f : BitVec 1) (s : State) : Host.Outcome State Fault Refusal :=
  issued formMxLoad g n (loadGlobal 1 1 .u8 (f == 1) Slot.lookahead d.toNat b.toNat o.toNat) s

/-- LDG_S8 (R160). -/
def execLdgS8 (g : BitVec 4) (n : BitVec 1) (d : BitVec 5) (o : BitVec 8) (b : BitVec 3) (f : BitVec 1) (s : State) : Host.Outcome State Fault Refusal :=
  issued formMxLoad g n (loadGlobal 1 1 .s8 (f == 1) Slot.lookahead d.toNat b.toNat o.toNat) s

/-- LDG_U16 (R160). -/
def execLdgU16 (g : BitVec 4) (n : BitVec 1) (d : BitVec 5) (o : BitVec 8) (b : BitVec 3) (f : BitVec 1) (s : State) : Host.Outcome State Fault Refusal :=
  issued formMxLoad g n (loadGlobal 2 1 .u16 (f == 1) Slot.lookahead d.toNat b.toNat o.toNat) s

/-- LDG_S16 (R160). -/
def execLdgS16 (g : BitVec 4) (n : BitVec 1) (d : BitVec 5) (o : BitVec 8) (b : BitVec 3) (f : BitVec 1) (s : State) : Host.Outcome State Fault Refusal :=
  issued formMxLoad g n (loadGlobal 2 1 .s16 (f == 1) Slot.lookahead d.toNat b.toNat o.toNat) s

/-- STG_B8 (R160). -/
def execStgB8 (g : BitVec 4) (n : BitVec 1) (d : BitVec 5) (o : BitVec 8) (b : BitVec 3) (k : BitVec 1) (s : State) : Host.Outcome State Fault Refusal :=
  issued formMe g n (storeGlobal 1 1 (k == 1) 0 d.toNat b.toNat o.toNat) s

/-- STG_B16 (R160). -/
def execStgB16 (g : BitVec 4) (n : BitVec 1) (d : BitVec 5) (o : BitVec 8) (b : BitVec 3) (k : BitVec 1) (s : State) : Host.Outcome State Fault Refusal :=
  issued formMe g n (storeGlobal 2 1 (k == 1) 0 d.toNat b.toNat o.toNat) s

/-- PFG (R161). -/
def execPfg (g : BitVec 4) (n : BitVec 1) (o : BitVec 8) (b : BitVec 3) (f : BitVec 1) (s : State) : Host.Outcome State Fault Refusal :=
  issued formMe g n (prefetchOp (f == 1) b.toNat o.toNat) s

/-! ## Local loads and stores -/

/-- LDL (R159). -/
def execLdl (g : BitVec 4) (n : BitVec 1) (d : BitVec 5) (o : BitVec 8) (b : BitVec 3) (l : BitVec 4) (s : State) : Host.Outcome State Fault Refusal :=
  issued formMe g n (loadLocal 4 1 .none (fieldWindow l.toNat) d.toNat b.toNat o.toNat) s

/-- LDL_W (R159). -/
def execLdlW (g : BitVec 4) (n : BitVec 1) (d : BitVec 5) (o : BitVec 8) (b : BitVec 3) (l : BitVec 4) (s : State) : Host.Outcome State Fault Refusal :=
  issued formMe g n (loadLocal 8 2 .none (fieldWindow l.toNat) d.toNat b.toNat o.toNat) s

/-- LDL_Q (R159). -/
def execLdlQ (g : BitVec 4) (n : BitVec 1) (d : BitVec 5) (o : BitVec 8) (b : BitVec 3) (l : BitVec 4) (s : State) : Host.Outcome State Fault Refusal :=
  issued formMe g n (loadLocal 16 4 .none (fieldWindow l.toNat) d.toNat b.toNat o.toNat) s

/-- STL (R159). -/
def execStl (g : BitVec 4) (n : BitVec 1) (d : BitVec 5) (o : BitVec 8) (b : BitVec 3) (c : BitVec 4) (s : State) : Host.Outcome State Fault Refusal :=
  issued formMe g n (storeLocalOp 4 1 c.toNat d.toNat b.toNat o.toNat) s

/-- STL_W (R159). -/
def execStlW (g : BitVec 4) (n : BitVec 1) (d : BitVec 5) (o : BitVec 8) (b : BitVec 3) (c : BitVec 4) (s : State) : Host.Outcome State Fault Refusal :=
  issued formMe g n (storeLocalOp 8 2 c.toNat d.toNat b.toNat o.toNat) s

/-- STL_Q (R159). -/
def execStlQ (g : BitVec 4) (n : BitVec 1) (d : BitVec 5) (o : BitVec 8) (b : BitVec 3) (c : BitVec 4) (s : State) : Host.Outcome State Fault Refusal :=
  issued formMe g n (storeLocalOp 16 4 c.toNat d.toNat b.toNat o.toNat) s

/-- LDL_U8 (R160). -/
def execLdlU8 (g : BitVec 4) (n : BitVec 1) (d : BitVec 5) (o : BitVec 8) (b : BitVec 3) (s : State) : Host.Outcome State Fault Refusal :=
  issued formMxLoad g n (loadLocal 1 1 .u8 Slot.lookahead d.toNat b.toNat o.toNat) s

/-- LDL_S8 (R160). -/
def execLdlS8 (g : BitVec 4) (n : BitVec 1) (d : BitVec 5) (o : BitVec 8) (b : BitVec 3) (s : State) : Host.Outcome State Fault Refusal :=
  issued formMxLoad g n (loadLocal 1 1 .s8 Slot.lookahead d.toNat b.toNat o.toNat) s

/-- LDL_U16 (R160). -/
def execLdlU16 (g : BitVec 4) (n : BitVec 1) (d : BitVec 5) (o : BitVec 8) (b : BitVec 3) (s : State) : Host.Outcome State Fault Refusal :=
  issued formMxLoad g n (loadLocal 2 1 .u16 Slot.lookahead d.toNat b.toNat o.toNat) s

/-- LDL_S16 (R160). -/
def execLdlS16 (g : BitVec 4) (n : BitVec 1) (d : BitVec 5) (o : BitVec 8) (b : BitVec 3) (s : State) : Host.Outcome State Fault Refusal :=
  issued formMxLoad g n (loadLocal 2 1 .s16 Slot.lookahead d.toNat b.toNat o.toNat) s

/-- STL_B8 (R160). -/
def execStlB8 (g : BitVec 4) (n : BitVec 1) (d : BitVec 5) (o : BitVec 8) (b : BitVec 3) (s : State) : Host.Outcome State Fault Refusal :=
  issued formMe g n (storeLocalOp 1 1 0 d.toNat b.toNat o.toNat) s

/-- STL_B16 (R160). -/
def execStlB16 (g : BitVec 4) (n : BitVec 1) (d : BitVec 5) (o : BitVec 8) (b : BitVec 3) (s : State) : Host.Outcome State Fault Refusal :=
  issued formMe g n (storeLocalOp 2 1 0 d.toNat b.toNat o.toNat) s

/-! ## Uniform and parameter loads -/

/-- LDS (R162). -/
def execLds (g : BitVec 4) (n : BitVec 1) (d b : BitVec 8) (s : State) : Host.Outcome State Fault Refusal :=
  issued formLs g n (ldsOp 1 d.toNat b.toNat) s

/-- LDS_W (R162). -/
def execLdsW (g : BitVec 4) (n : BitVec 1) (d b : BitVec 8) (s : State) : Host.Outcome State Fault Refusal :=
  issued formLs g n (ldsOp 2 d.toNat b.toNat) s

/-- LDS_Q (R162). -/
def execLdsQ (g : BitVec 4) (n : BitVec 1) (d b : BitVec 8) (s : State) : Host.Outcome State Fault Refusal :=
  issued formLs g n (ldsOp 4 d.toNat b.toNat) s

/-- LDS_O (R162). -/
def execLdsO (g : BitVec 4) (n : BitVec 1) (d b : BitVec 8) (s : State) : Host.Outcome State Fault Refusal :=
  issued formLs g n (ldsOp 8 d.toNat b.toNat) s

/-- LDP (R163). -/
def execLdp (g : BitVec 4) (n : BitVec 1) (d : BitVec 8) (o : BitVec 5) (w : BitVec 3) (s : State) : Host.Outcome State Fault Refusal :=
  issued formLs g n (ldpOp d.toNat o.toNat w.toNat) s

/-- LDLS (R164). -/
def execLdls (g : BitVec 4) (n : BitVec 1) (d b : BitVec 8) (s : State) : Host.Outcome State Fault Refusal :=
  issued formLs g n (ldlsOp d.toNat b.toNat) s

end Sys2Proof.Machine
end

