-- ==== Sys2Proof/Machine/Atomics.lean ====
section
/-!
DEFINITION. Atomics (R165 to R169): at an L1, at a home, at a local store, and the uniform ATOMS; the ordering that a
release or acquire modifier adds (R167). A release that must wait on counters ends as a wait and the atomic issues again.
-/
namespace Sys2Proof.Machine

/-- The AT format (R93, R96). -/
def formAt : Form := { Form.plain with ximm := true, la := true }
/-- The AS format (R169). -/
def formAs : Form := { Form.plain with wide := true }

/-- How many registers at vd an operation reads (R165): XGET and XCLR none, CAS and ADD.W two. -/
def atomReads (op : Nat) : Nat := match op with | 13 => 0 | 14 => 0 | 10 => 2 | 15 => 2 | _ => 1
/-- How many registers at vd it writes (R165). -/
def atomDests (op : Nat) : Nat := if op == 15 then 2 else 1
/-- How many registers at vd its fields name (R85). -/
def atomNames (op : Nat) : Nat := if op == 10 || op == 15 then 2 else 1

/-- The data operand of an operation from the words at vd (R165). -/
def atomData (op : Nat) (w0 w1 : Word) : Nat := if op == 15 then w0.toNat + w1.toNat * 2 ^ 32 else w0.toNat

/-- The order modifier: does it release (R167)? -/
def ordReleases (r : Nat) : Bool := decide (2 ≤ r)
/-- Does it acquire? -/
def ordAcquires (r : Nat) : Bool := r % 2 == 1

/-- The release before an ordered atomic (R167): the state when it is complete, or the wait; a sheaf that a fill refused on the way has
ended stops (R155). -/
def State.releaseFirst (s : State) (sid r scope : Nat) : Sum Act State :=
  if !ordReleases r then .inr s
  else
    let s1 := s.releaseStart sid scope
    if s1.ended sid then .inl (.stop s1) else if s1.released sid scope then .inr s1 else .inl (.wait (.counters scope) s1)

/-- The acquire after an ordered atomic (R167): its value returns now, or the sheaf waits for it. -/
def State.acquireAfter (s : State) (sid r scope : Nat) : Act :=
  if !ordAcquires r then .next s else if s.acquireReady sid scope then .next (s.acquire sid scope) else .wait (.acquire scope) s

/-- The pending result of an atomic. -/
def atomPending (id : Nat) (slot : Slot) (varying : Bool) (regs : List Nat) (lanes : Mask) (whole : Bool) (window : Nat) (kind : PendKind)
    (data : List (Nat × List Word)) (mark : Mark) : Pending :=
  { id := id, addr := slot.addr, group := slot.group, varying := varying, regs := regs, lanes := lanes, whole := whole, window := window, kind := kind,
    source := [], data := data, bound := true, mark := mark }

/-- One lane's data of an atomic. -/
structure AtomLane where
  at_  : Reached
  d    : Nat
  d2   : Nat
  deriving DecidableEq, Repr

/-- The lanes' operations leave for the homes in ascending lane order (R152, R166), after the unsent bytes of their lines. -/
def State.sendAtomics (s : State) (sid op pid : Nat) (xs : List AtomLane) : State :=
  s.forEach xs (fun s x =>
    let core := match s.sheaf? sid with | some sh => sh.core | none => 0
    let pa := x.at_.trans.paddr
    let touched : Map Byte := spread (pa % 128) (List.replicate (atomWidth op) 0)
    (((s.bindReads sid pa (atomWidth op)).sendOverlaps sid core (lineOf pa) touched).sendLine sid (lineOf pa)).send sid pa [] x.at_.trans.kh x.at_.key
      (.atomic op (atomWidth op) x.d x.d2 pid x.at_.lane) (List.range (atomWidth op)))

/-- The lanes' operations in the core's L1, in ascending lane order (R152, R166): the words received, or why a fill was
refused. -/
def State.atomicsL1 (s : State) (sid op : Nat) (xs : List AtomLane) : List (Nat × List Word) × Option (Nat × Nat) × State :=
  xs.foldl (fun (acc : List (Nat × List Word) × Option (Nat × Nat) × State) x =>
    match acc.2.1 with
    | some _ => acc
    | none =>
      match acc.2.2.atomicL1 sid (x.at_.src false) op x.d x.d2 with
      | (.inl v, s1) => (acc.1 ++ [(x.at_.lane, atomWords op v)], none, s1)
      | (.inr bad, s1) => (acc.1, some bad, s1)) ([], none, s)

/-- An atomic of checked lanes (R166, R167): scope 1 CORE in the L1, wider at the homes. -/
def State.atomicAct (s : State) (slot : Slot) (op scope r : Nat) (varying : Bool) (regs : List Nat) (lanes : Mask) (whole : Bool)
    (window : Nat) (xs : List AtomLane) (mark : Mark) : Act :=
  match s.releaseFirst slot.sid r scope with
  | .inl a => a
  | .inr s1 =>
    let pid := s1.nextId
    let s2 := { s1 with nextId := s1.nextId + 1 }
    if scope < 2 then
      match s2.atomicsL1 slot.sid op xs with
      | (_, some (code, detail), s3) => .stop (s3.endSheaf slot.sid slot (SysFault.ending code lanes detail))
      | (data, none, s3) =>
        (s3.modSheaf slot.sid (fun sh => sh.addPending (atomPending pid slot varying regs lanes whole window .value data mark))).acquireAfter slot.sid r
          scope
    else
      let s3 := s2.modSheaf slot.sid (fun sh => sh.addPending (atomPending pid slot varying regs lanes whole window .atomic [] mark))
      (s3.sendAtomics slot.sid op pid xs).acquireAfter slot.sid r scope

/-- ATOMG (R165): sc 0 CORE, 1 SLICE, 2 PART, 3 SYS. -/
def atomgOp (d v base op sc r : Nat) (_ : Slot) : Op :=
  { ok := okAtomPair op d, uses := span d (atomNames op) ++ [v] ++ bpBytes base, also := [], writes := span d (atomDests op),
    body := fun slot sh s =>
      let flow := maxMark (sh.dataMark d (atomReads op)) (sh.globalMark base v)
      match s.checkGlobal sh ((lanesOf slot.acting).map (fun l => (l, sh.globalAddr slot base v l))) (atomWidth op) (atomWrites op) flow with
      | .stop a => a
      | .go xs s1 =>
        let lanes := xs.map (fun x =>
          { at_ := x, d := atomData op (sh.readV d x.lane) (sh.readV (d + 1) x.lane), d2 := (sh.readV (d + 1) x.lane).toNat : AtomLane })
        (s1.setSheaf slot.sid (sh.countMem (touchedLines xs))).atomicAct slot op (sc + 1) r true (sh.elementRegs d (atomDests op)) slot.acting (slot.acting == sh.live)
          slot.lookahead lanes (maxMark (s1.reachedMark (s1.partOf sh) xs) (sh.globalMark base v)) }

/-- ATOMG (R165). -/
def execAtomg (g : BitVec 4) (n : BitVec 1) (d v : BitVec 5) (b : BitVec 3) (o : BitVec 4) (sc r : BitVec 2) (s : State) : Host.Outcome State Fault Refusal :=
  issued formAt g n (atomgOp d.toNat v.toNat b.toNat o.toNat sc.toNat r.toNat) s

/-- One lane of a local atomic: the words received are collected (R152, R166). -/
def State.atomicLocal (s : State) (place : Place) (op d d2 : Nat) (mark : Mark) : List Word × State :=
  let width := atomWidth op
  let r := atomOp op (leNat (s.localBytes place width)) d d2
  (atomWords op r.2, s.writeLocal place.tid (spread place.off (leBytes width r.1)) mark 0)

/-- The lanes' operations on local words in ascending lane order (R152, R166): lane, place, operands. The words received; the largest mark
of what the lanes read, each at its turn (R55); the state. -/
def State.atomicsLocal (s : State) (op : Nat) (mark : Mark) (xs : List (Nat × Place × Nat × Nat)) : List (Nat × List Word) × Mark × State :=
  xs.foldl (fun (acc : List (Nat × List Word) × Mark × State) x =>
    let read := acc.2.2.localMark x.2.1 (atomWidth op)
    let y := acc.2.2.atomicLocal x.2.1 op x.2.2.1 x.2.2.2 mark
    (acc.1 ++ [(x.1, y.1)], maxMark acc.2.1 read, y.2)) ([], 0, s)

/-- ATOML (R165, R166): at the local store that holds the word; its scope orders global accesses only (R167). -/
def atomlOp (d v base op sc r : Nat) (_ : Slot) : Op :=
  { ok := okAtomOp op && decide (sc < 2) && okAtomPair op d, uses := span d (atomNames op) ++ [v, lbByte base], also := [],
    writes := span d (atomDests op),
    hazard := fun slot sh s => sh.localHazard (s.ownBytes sh (sh.readU (160 + base)) (sh.localDists slot v) (atomWidth op)) true,
    body := fun slot sh s =>
      let width := atomWidth op
      match s.checkLocal slot sh (sh.readU (160 + base)) (sh.localDists slot v) width true with
      | .stop a => a
      | .go xs s0 =>
        match s0.releaseFirst slot.sid r (sc + 1) with
        | .inl a => a
        | .inr s1 =>
          let data := maxMark (sh.dataMark d (atomReads op)) (sh.localAddrMark base v)
          let r1 := s1.atomicsLocal op data (xs.map (fun x => (x.1, x.2, atomData op (sh.readV d x.1) (sh.readV (d + 1) x.1), (sh.readV (d + 1) x.1).toNat)))
          let p := atomPending r1.2.2.nextId slot true (sh.elementRegs d (atomDests op)) slot.acting (slot.acting == sh.live) slot.lookahead .value r1.1
            (maxMark r1.2.1 (sh.localAddrMark base v))
          let s2 := { r1.2.2 with nextId := r1.2.2.nextId + 1 }.modSheaf slot.sid (fun sh => sh.addPending p)
          s2.acquireAfter slot.sid r (sc + 1) }

/-- ATOML (R165). -/
def execAtoml (g : BitVec 4) (n : BitVec 1) (d v : BitVec 5) (b : BitVec 3) (o : BitVec 4) (sc r : BitVec 2) (s : State) : Host.Outcome State Fault Refusal :=
  issued formAt g n (atomlOp d.toNat v.toNat b.toNat o.toNat sc.toNat r.toNat) s

/-- ATOMS (R169): one operation at PART scope, relaxed or acq_rel. -/
def atomsOp (d b op a : Nat) (_ : Slot) : Op :=
  { ok := isU d && evenU b && okAtomOp op && okAtomPair op d, uses := span d (atomNames op) ++ span b 2, also := [], writes := [],
    body := fun slot sh s =>
      let flow := maxMark (marks ((span d (atomReads op)).map sh.operandMark)) (sh.pairMark (uIndex b))
      match s.checkGlobal sh [(lowestLane slot.lanes, sh.readPairB b)] (atomWidth op) true flow with
      | .stop a => a
      | .go xs s1 =>
        let lanes := xs.map (fun x =>
          { at_ := { x with lane := 0 }, d := atomData op (sh.readUB d) (sh.readUB (d + 1)), d2 := (sh.readUB (d + 1)).toNat : AtomLane })
        (s1.setSheaf slot.sid (sh.countMem (touchedLines xs))).atomicAct slot op 3 (if a == 1 then 3 else 0) false (span (uIndex d) (atomDests op)) 1 true 0 lanes
          (maxMark (s1.reachedMark (s1.partOf sh) xs) (sh.pairMark (uIndex b))) }

/-- ATOMS (R169). -/
def execAtoms (g : BitVec 4) (n : BitVec 1) (d b : BitVec 8) (o : BitVec 4) (a : BitVec 1) (s : State) : Host.Outcome State Fault Refusal :=
  issued formAs g n (atomsOp d.toNat b.toNat o.toNat a.toNat) s

end Sys2Proof.Machine
end

