-- ==== Sys2Proof/Machine/Control.lean ====
section
/-!
DEFINITION. Branches and calls (R137, R138), NOP, YIELD and EXIT (R139), hardware loops (R140 to R143), the trap
instructions and those of a handler that touch no memory (R144 to R147).
-/
namespace Sys2Proof.Machine

/-- Majors 0x18 to 0x1D: no prefix, and no end of a loop body (R127, R142). -/
def formCt : Form := { Form.plain with loopEnd := false }
/-- The control instructions that are sheaf-wide writes (R137, R140, R146). -/
def formCtWide : Form := { formCt with wide := true }

/-- ILLEGAL for a target that R84 does not accept (R331): TINFO takes the target where a register supplies it, else the word. -/
def badTransfer (slot : Slot) (register : Bool) (target : Addr) : TrapInfo := if register then illegalTarget target else illegalWord slot

/-- A transfer of the acting lanes, or ILLEGAL for a target that R84 does not accept. -/
def transfer (slot : Slot) (s : State) (register : Bool) (target : Addr) : Act :=
  if targetOk target then .jump s slot.acting (fun _ => target) else .trap (badTransfer slot register target) s

/-- The target of a relative transfer (R84). -/
def Slot.relative (slot : Slot) (off : Int) : Addr := addrAdd slot.addr (4 * off)

/-- BRA (R137). -/
def execBra (g : BitVec 4) (n : BitVec 1) (o : BitVec 21) (s : State) : Host.Outcome State Fault Refusal :=
  issued formCt g n (fun _ =>
    { ok := true, uses := [], also := [], writes := [], body := fun slot _ s => transfer slot s false (slot.relative o.toInt) }) s

/-- BRZ and BRNZ (R137): one decision for every acting lane. -/
def branchOp (test : Word → Bool) (x : Nat) (off : Int) (_ : Slot) : Op :=
  { ok := isU x, uses := [x], also := [], writes := [],
    body := fun slot sh s => if test (sh.readUB x) then transfer slot s false (slot.relative off) else .next s }

/-- BRZ (R137). -/
def execBrz (g : BitVec 4) (n : BitVec 1) (x : BitVec 8) (o : BitVec 13) (s : State) : Host.Outcome State Fault Refusal :=
  issued formCt g n (branchOp (fun w => w == 0) x.toNat o.toInt) s

/-- BRNZ (R137). -/
def execBrnz (g : BitVec 4) (n : BitVec 1) (x : BitVec 8) (o : BitVec 13) (s : State) : Host.Outcome State Fault Refusal :=
  issued formCt g n (branchOp (fun w => w != 0) x.toNat o.toInt) s

/-- BRX (R137): the target is 4 * SInt(B) from the instruction. -/
def execBrx (g : BitVec 4) (n : BitVec 1) (b : BitVec 8) (s : State) : Host.Outcome State Fault Refusal :=
  issued formCt g n (fun _ =>
    { ok := isU b.toNat, uses := [b.toNat], also := [], writes := [],
      body := fun slot sh s => transfer slot s true (slot.relative (sh.readUB b.toNat).toInt) }) s

/-- The link (R138): the pair s190, s191 takes the address after the call, with mark OPEN. -/
def Sheaf.writeLink (sh : Sheaf) (slot : Slot) : Sheaf := sh.writePair 190 (addrAdd slot.addr 4) 0

/-- The operand byte of s190. -/
def linkByte : Nat := 64 + 190

/-- The slide that a code names (R88): 8, 16, 24 or 0 registers. -/
def slideOf (w : BitVec 2) : Nat := [8, 16, 24, 0].getD w.toNat 0

/-- A call with a slide to a target (R39, R138): the target first, then the window. -/
def callAct (slot : Slot) (sh : Sheaf) (s : State) (slide : Nat) (register : Bool) (target : Addr) : Act :=
  if !targetOk target then .trap (badTransfer slot register target) s
  else if sh.wrbase + sh.vstack < sh.wbase + slide + 32 then
    .trap (TrapInfo.at cWspill 0 0 (BitVec.ofNat 64 (sh.wbase + slide + 32 - sh.wrbase - sh.vstack))) s
  else .jump (s.setSheaf slot.sid { (sh.writeLink slot) with wbase := sh.wbase + slide }) slot.acting (fun _ => target)

/-- CALL (R137, R138). -/
def execCall (g : BitVec 4) (n : BitVec 1) (w : BitVec 2) (o : BitVec 19) (s : State) : Host.Outcome State Fault Refusal :=
  issued formCtWide g n (fun _ =>
    { ok := true, uses := [], also := span linkByte 2, writes := [],
      body := fun slot sh s => callAct slot sh s (slideOf w) false (slot.relative o.toInt) }) s

/-- CALLR (R137, R138): the target is read before the link is written. -/
def execCallr (g : BitVec 4) (n : BitVec 1) (b : BitVec 8) (w : BitVec 2) (s : State) : Host.Outcome State Fault Refusal :=
  issued formCtWide g n (fun _ =>
    { ok := evenU b.toNat, uses := span b.toNat 2, also := span linkByte 2, writes := [],
      body := fun slot sh s => callAct slot sh s (slideOf w) true (sh.readPairB b.toNat) }) s

/-- A return with a slide (R39, R138). -/
def retAct (slot : Slot) (sh : Sheaf) (s : State) (slide : Nat) (target : Addr) : Act :=
  if !targetOk target then .trap (illegalTarget target) s
  else if sh.wbase < sh.wrbase + slide then
    .trap (TrapInfo.at cWfill 0 0 (BitVec.ofNat 64 (sh.wrbase + slide - sh.wbase))) s
  else .jump (s.setSheaf slot.sid { sh with wbase := sh.wbase - slide }) slot.acting (fun _ => target)

/-- RET (R137, R138): a sheaf-wide write only with a slide. -/
def execRet (g : BitVec 4) (n : BitVec 1) (b : BitVec 8) (w : BitVec 2) (s : State) : Host.Outcome State Fault Refusal :=
  issued { formCt with wide := slideOf w != 0 } g n (fun _ =>
    { ok := evenU b.toNat, uses := span b.toNat 2, also := [], writes := [],
      body := fun slot sh s => retAct slot sh s (slideOf w) (sh.readPairB b.toNat) }) s

/-- An instruction without register fields. -/
def bareOp (body : Slot → Sheaf → State → Act) (_ : Slot) : Op := { ok := true, uses := [], also := [], writes := [], body := body }

/-- NOP (R139). -/
def execNop (g : BitVec 4) (n : BitVec 1) (s : State) : Host.Outcome State Fault Refusal :=
  issued formCt g n (bareOp (fun _ _ s => .next s)) s

/-- Change a quadrant of a core (R246). -/
def State.modQuad (s : State) (core q : Nat) (f : Quad → Quad) : State :=
  s.modCore core (fun k => { k with quads := (List.range k.quads.length).zip k.quads |>.map (fun e => if e.1 == q then f e.2 else e.2) })

/-- YIELD (R139): it ends the quadrant's greedy issue on the sheaf for the next slot. -/
def execYield (g : BitVec 4) (n : BitVec 1) (s : State) : Host.Outcome State Fault Refusal :=
  issued formCt g n (bareOp (fun _ sh s => .next (s.modQuad sh.core sh.quadrant (fun q => { q with yield := true })))) s

/-- EXIT (R18, R139): the acting lanes are EXITED; what the others do goes on. -/
def exitAct (slot : Slot) (s : State) : Act :=
  let s1 := s.exitLanes slot.sid slot.acting
  match s1.sheaf? slot.sid with
  | some sh => if sh.issuing then .leave s1 else .stop s1
  | none => .stop s1

/-- EXIT (R139). -/
def execExit (g : BitVec 4) (n : BitVec 1) (s : State) : Host.Outcome State Fault Refusal :=
  issued formCt g n (bareOp (fun slot _ s => exitAct slot s)) s

/-- LOOP (R140): the slot takes count, start and end; a zero count skips the body. -/
def loopOp (c b e : Nat) (_ : Slot) : Op :=
  { ok := isU b && e != 0, uses := [b], also := [], writes := [],
    body := fun slot sh s =>
      let count := sh.readUB b
      let x : LoopSlot := { lc := count, ls := addrAdd slot.addr 4, le := slot.relative e, mark := sh.operandMark b }
      let s1 := s.setSheaf slot.sid (if c == 0 then { sh with loop0 := x } else { sh with loop1 := x })
      if count == 0 then .jump s1 slot.acting (fun _ => slot.relative (e + 1)) else .next s1 }

/-- LOOP (R140). -/
def execLoop (g : BitVec 4) (n c : BitVec 1) (b : BitVec 8) (e : BitVec 12) (s : State) : Host.Outcome State Fault Refusal :=
  issued formCtWide g n (loopOp c.toNat b.toNat e.toNat) s

/-- LOOPX (R143). -/
def execLoopx (g : BitVec 4) (n c : BitVec 1) (s : State) : Host.Outcome State Fault Refusal :=
  issued formCtWide g n (bareOp (fun slot sh s =>
    .ofSheaf slot s (if c == 0 then { sh with loop0 := { sh.loop0 with lc := 0 } } else { sh with loop1 := { sh.loop1 with lc := 0 } }))) s

/-- A software trap (R144): every issuing lane resumes after the instruction, which is complete and counted (R23). -/
def softTrap (slot : Slot) (cause : Nat) (code : BitVec 8) (s : State) : Act :=
  .trap { TrapInfo.at cause 0 0 (code.setWidth 64) with after := true } (s.finish slot 0 (fun _ => 0) true 0)

/-- BKPT (R144). -/
def execBkpt (g : BitVec 4) (n : BitVec 1) (c : BitVec 8) (s : State) : Host.Outcome State Fault Refusal :=
  issued formCt g n (bareOp (fun slot _ s => softTrap slot cBkpt c s)) s

/-- TRAP (R144). -/
def execTrap (g : BitVec 4) (n : BitVec 1) (c : BitVec 8) (s : State) : Host.Outcome State Fault Refusal :=
  issued formCt g n (bareOp (fun slot _ s => softTrap slot cTrap c s)) s

/-- An instruction of a handler (R145): elsewhere it is ILLEGAL. -/
def inHandler (sh : Sheaf) (_ : State) : Bool := sh.handler.isSome

/-- A counted instruction more since the sheaf's admission (R23, R243). -/
def Sheaf.countOne (sh : Sheaf) : Sheaf := { sh with lease := { sh.lease with counted := min (sh.lease.counted + 1) 1024 } }

/-- RTE (R146). -/
def execRte (g : BitVec 4) (n : BitVec 1) (s : State) : Host.Outcome State Fault Refusal :=
  issued formCtWide g n (fun _ =>
    { ok := true, legal := inHandler, uses := [], also := [], writes := [],
      body := fun slot sh s => match sh.handler with
        | some h => .stop (s.setSheaf slot.sid (sh.returnTrap h).countOne)
        | none => .trap (illegalWord slot) s }) s

/-- XPCR (R147). -/
def execXpcr (g : BitVec 4) (n : BitVec 1) (b : BitVec 8) (l : BitVec 5) (s : State) : Host.Outcome State Fault Refusal :=
  issued formCtWide g n (fun _ =>
    { ok := evenU b.toNat, legal := inHandler, uses := span b.toNat 2, also := [], writes := [],
      body := fun slot sh s => match sh.handler with
        | some h => .ofSheaf slot s (sh.writePairB b.toNat (h.xpc.getD l.toNat 0) 0)
        | none => .trap (illegalWord slot) s }) s

/-- XPCW (R147): ILLEGAL for a lane that is not live, and for a target that R84 does not accept. -/
def execXpcw (g : BitVec 4) (n : BitVec 1) (b : BitVec 8) (l : BitVec 5) (s : State) : Host.Outcome State Fault Refusal :=
  issued formCtWide g n (fun _ =>
    { ok := evenU b.toNat, legal := inHandler, uses := span b.toNat 2, also := [], writes := [],
      body := fun slot sh s => match sh.handler with
        | some h =>
          let target := sh.readPairB b.toNat
          if !hasLane sh.live l.toNat then .trap (illegalWord slot) s
          else if !targetOk target then .trap (illegalTarget target) s
          else .ofSheaf slot s { sh with handler := some { h with xpc := laneNumbers.map (fun i => if i == l.toNat then target else h.xpc.getD i 0) } }
        | none => .trap (illegalWord slot) s }) s

end Sys2Proof.Machine
end

