-- ==== Sys2Proof/Machine/Barrier.lean ====
section
/-!
DEFINITION. The barrier and group instructions (R270 to R272, R277, R278).
-/
namespace Sys2Proof.Machine

/-- The barrier and group instructions are sheaf-wide writes without prefixes (R270, R277). -/
def formBarrier : Form := { Form.plain with wide := true }

/-- BARPOISON (R331). -/
def poisonTrap (q : Nat) : TrapInfo := TrapInfo.at cBarPoison 0 0 (BitVec.ofNat 64 q)

/-- A member that may arrive (R277): it belongs to the group and has not retired. -/
def mayArrive (sh : Sheaf) (e : GroupEntry) : Bool := hasLane e.members sh.idx && !sh.ret.contains e.number

/-- A barrier or group instruction with its checks of R277 (R270 for groups): the group is defined; an arrival is a member's;
the group is not poisoned. -/
def groupOp (ok : Bool) (legal : Sheaf → State → Bool) (uses : List Nat) (q : Nat) (arrives poisonMatters : Bool)
    (body : Slot → Sheaf → Tuft → GroupEntry → State → Act) (_ : Slot) : Op :=
  { ok := ok, legal := legal, uses := uses, also := [], writes := [],
    body := fun slot sh s =>
      match s.tuft? sh.tid with
      | none => .stop s
      | some t =>
        match t.group? q with
        | none => .trap (illegalWord slot) s
        | some e =>
          if arrives && !mayArrive sh e then .trap (illegalWord slot) s
          else if poisonMatters && e.poison then .trap (poisonTrap q) s
          else body slot sh t e s }

/-- Every instruction but the handler's. -/
def anyStatus (_ : Sheaf) (_ : State) : Bool := true

/-- An arrival with the CORE-scope release before it (R223, R278); a sheaf that ends in the release does not arrive (R155). -/
def State.arriveNow (s : State) (sid tid q : Nat) : State :=
  let s1 := s.releaseStart sid 1
  if s1.ended sid then s1 else s1.arrive sid tid q

/-- BARV (R278): a second arrival waits for the next phase; the token is PHASE at arrival. -/
def execBarv (g : BitVec 4) (n : BitVec 1) (q b : BitVec 8) (s : State) : Host.Outcome State Fault Refusal :=
  issued formBarrier g n (groupOp (isU b.toNat) anyStatus [b.toNat] q.toNat true true (fun slot sh _ e s =>
    if sh.arr.contains q.toNat then .wait (.arrival q.toNat) s
    else
      let s1 := s.arriveNow slot.sid sh.tid q.toNat
      if s1.ended slot.sid then .stop s1
      else .next (s1.modSheaf slot.sid (fun sh => sh.writeUB b.toNat (BitVec.ofNat 32 e.phase) 0)))) s

/-- The phase of a group of a tuft, as it is now. -/
def State.phaseOf (s : State) (tid q : Nat) : Option Nat := ((s.tuft? tid).bind (fun t => t.group? q)).map GroupEntry.phase

/-- A group of a tuft is poisoned now. -/
def State.poisonedGroup (s : State) (tid q : Nat) : Bool :=
  match (s.tuft? tid).bind (fun t => t.group? q) with | some e => e.poison | none => false

/-- BSYNC (R278): arrives, unless it has, and waits for that phase; where the group is poisoned as the wait begins, it traps at once and the
arrival stands (R275). -/
def execBsync (g : BitVec 4) (n : BitVec 1) (q : BitVec 8) (s : State) : Host.Outcome State Fault Refusal :=
  issued formBarrier g n (groupOp true anyStatus [] q.toNat true true (fun slot sh _ e s =>
    let s1 := if sh.arr.contains q.toNat then s else s.arriveNow slot.sid sh.tid q.toNat
    if s1.ended slot.sid then .stop s1
    else if s1.phaseOf sh.tid q.toNat == some e.phase then
      if s1.poisonedGroup sh.tid q.toNat then .trap (poisonTrap q.toNat) s1 else .wait (.barrier q.toNat e.phase) s1
    else .next (s1.acquire slot.sid 1))) s

/-- BARVN (R278): retires; an arrival already made is not counted twice. -/
def execBarvn (g : BitVec 4) (n : BitVec 1) (q : BitVec 8) (s : State) : Host.Outcome State Fault Refusal :=
  issued formBarrier g n (groupOp true anyStatus [] q.toNat true true (fun slot sh _ _ s =>
    let s1 := if sh.arr.contains q.toNat then s.addArrived sh.tid q.toNat false else s.releaseStart slot.sid 1
    if s1.ended slot.sid then .stop s1
    else .next ((s1.modSheaf slot.sid (fun sh => { sh with ret := q.toNat :: sh.ret })).checkComplete sh.tid q.toNat))) s

/-- The token's phase is the current one and the group is not finished (R278). -/
def State.phaseOpen (s : State) (t : Tuft) (e : GroupEntry) (token : Word) : Bool :=
  e.phase == token.toNat % 256 && !s.groupFinished t e

/-- BWAIT (R278). -/
def execBwait (g : BitVec 4) (n : BitVec 1) (q b : BitVec 8) (s : State) : Host.Outcome State Fault Refusal :=
  issued formBarrier g n (groupOp (isU b.toNat) anyStatus [b.toNat] q.toNat false true (fun slot sh t e s =>
    if s.phaseOpen t e (sh.readUB b.toNat) then .wait (.barrier q.toNat e.phase) s else .next (s.acquire slot.sid 1))) s

/-- BTEST (R278): 2 poisoned, 0 not complete, 1 complete. -/
def execBtest (g : BitVec 4) (n : BitVec 1) (q b : BitVec 8) (s : State) : Host.Outcome State Fault Refusal :=
  issued formBarrier g n (groupOp (evenU b.toNat) anyStatus (span b.toNat 2) q.toNat false false (fun slot sh t e s =>
    let w : Word := if e.poison then 2 else if s.phaseOpen t e (sh.readUB b.toNat) then 0 else 1
    .ofSheaf slot s (sh.writeUB (b.toNat + 1) w 0))) s

/-- GMASK (R270). -/
def execGmask (g : BitVec 4) (n : BitVec 1) (q b : BitVec 8) (s : State) : Host.Outcome State Fault Refusal :=
  issued formBarrier g n (groupOp (isU b.toNat) anyStatus [b.toNat] q.toNat false false (fun slot sh _ e s =>
    .ofSheaf slot s (sh.writeUB b.toNat e.members 0))) s

/-- The word of GQRY (R270). -/
def GroupEntry.query (e : GroupEntry) (sh : Sheaf) : Word :=
  BitVec.ofNat 32 (e.expected + e.arrived * 2 ^ 8 + e.phase * 2 ^ 16 + (if e.quartet then 2 ^ 24 else 0) + (if e.poison then 2 ^ 25 else 0) +
    (if hasLane e.members sh.idx then 2 ^ 26 else 0))

/-- GQRY (R270). -/
def execGqry (g : BitVec 4) (n : BitVec 1) (q b : BitVec 8) (s : State) : Host.Outcome State Fault Refusal :=
  issued formBarrier g n (groupOp (isU b.toNat) anyStatus [b.toNat] q.toNat false false (fun slot sh _ e s =>
    .ofSheaf slot s (sh.writeUB b.toNat (e.query sh) 0))) s

/-- The image of a group entry (R269). -/
def GroupEntry.image (e : GroupEntry) : BitVec 64 :=
  BitVec.ofNat 64 (e.members.toNat + e.expected * 2 ^ 32 + e.arrived * 2 ^ 40 + e.phase * 2 ^ 48 + (if e.quartet then 2 ^ 56 else 0) +
    (if e.poison then 2 ^ 57 else 0))

/-- GSAVE (R270, R271). -/
def execGsave (g : BitVec 4) (n : BitVec 1) (q b : BitVec 8) (s : State) : Host.Outcome State Fault Refusal :=
  issued formBarrier g n (groupOp (evenU b.toNat) inHandler (span b.toNat 2) q.toNat false false (fun slot sh _ e s =>
    .ofSheaf slot s (sh.writePairB b.toNat e.image 0))) s

/-- An entry as an image gives its ARRIVED, PHASE and POISON (R271). -/
def GroupEntry.load (e : GroupEntry) (v : Nat) : GroupEntry :=
  { e with arrived := field v 40 6, phase := field v 48 8, poison := field v 57 1 == 1 }

/-- An image that GLOAD accepts (R271): nothing fixed differs, and ARRIVED is below EXPECTED. -/
def GroupEntry.accepts (e : GroupEntry) (v : BitVec 64) : Bool :=
  (e.load v.toNat).image == v && decide (field v.toNat 40 6 < e.expected)

/-- GLOAD (R271). -/
def execGload (g : BitVec 4) (n : BitVec 1) (q b : BitVec 8) (s : State) : Host.Outcome State Fault Refusal :=
  issued formBarrier g n (groupOp (evenU b.toNat) inHandler (span b.toNat 2) q.toNat false false (fun slot sh t e s =>
    let v := sh.readPairB b.toNat
    if !e.accepts v then .trap (illegalWord slot) s
    else if sh.pairMark (uIndex b.toNat) != 0 then .fault (SysFault.replayable fMarkFlow 0 0 slot.lanes 0) s
    else .next (s.setTuft sh.tid (t.setGroup (e.load v.toNat))))) s

end Sys2Proof.Machine
end

