-- ==== Sys2Proof/Machine/Copy.lean ====
section
/-!
DEFINITION. The copy engine (R197 to R205): CPY, the start of a command with its checks, and its completion, at which every
byte moves; the expansion of umbel streams (R78 to R81, R200).
-/
namespace Sys2Proof.Machine

/-! ## Issue (R197, R201) -/

/-- CPY (R197): the copy class; XIMM only before XPND. -/
def formCopy (kind : CopyKind) : Form := { Form.plain with ximm := kind == .xpnd, role := .copy }

/-- The number of descriptor registers of a kind (R197). -/
def CopyKind.regs : CopyKind → Nat
  | .t2d | .t2dw | .gath | .scat => 8
  | _ => 4

/-- A tag is in the tuft's allotment (R206). -/
def tagLegal (n : Nat) (sh : Sheaf) (s : State) : Bool :=
  match s.tuft? sh.tid with | some t => decide (n < t.tags.length) | none => false

/-- The sends of a sheaf that a SLICE-scope release covers (R171, R201). -/
def State.sliceSends (s : State) (sid : Nat) : List Nat :=
  (s.msgs.filter (fun m => m.sid == sid && m.cls == .slice)).map Msg.id

/-- A command enters the queue (R201, R207). -/
def cpyAct (kind : CopyKind) (tag b : Nat) (slot : Slot) (sh : Sheaf) (s : State) : Act :=
  if 32 ≤ (s.core sh.core).copies.length || 255 ≤ (match s.tuft? sh.tid with | some t => (t.tag tag).count | none => 0) then .wait (.command tag) s
  else
    let s1 := s.releaseStart slot.sid 2
    if s1.ended slot.sid then .stop s1 else
    let regs := (span (uIndex b) kind.regs)
    let c : CopyCmd :=
      { id := s1.nextId, tid := sh.tid, sid := slot.sid, tag := tag, kind := kind, words := regs.map sh.readU,
        lstride := slot.ximm.map BitVec.toNat, mark := marks (regs.map (fun r => (sh.ureg r).mark)), after := s1.sliceSends slot.sid,
        started := false, token := none, failed := none, skipped := [] }
    .next (({ s1 with nextId := s1.nextId + 1 }.modTag sh.tid tag Tag.onIssue).modCore sh.core (fun k => { k with copies := k.copies ++ [c] }))

/-- CPY (R197): it acts once for the sheaf. -/
def cpyOp (kind : CopyKind) (tag b : Nat) (_ : Slot) : Op :=
  { ok := if kind.regs == 8 then octU b else quadU b, legal := tagLegal tag, uses := span b kind.regs, also := [], writes := [],
    body := fun slot sh s => cpyAct kind tag b slot sh s }

/-! ## Checks (R201, R205) -/

/-- The copy fails its tag with one of these codes (R205). -/
def copyDesc : Nat := 1
/-- HANDLE (R205). -/
def copyHandle : Nat := 2
/-- FORMAT (R205). -/
def copyFormat : Nat := 3
/-- XLATE (R205). -/
def copyXlate : Nat := 4
/-- PROT (R205). -/
def copyProt : Nat := 5
/-- MARK (R205). -/
def copyMark : Nat := 6
/-- SWIZ (R205). -/
def copySwiz : Nat := 7

/-- Where a local stretch lies, if the tuft may access it (R154, R213). -/
def State.partPlace? (s : State) (core : Nat) (c : CopyCmd) (x : LocalPart) : Option Place := s.localAddr? c.tid core x.la x.dist x.len

/-- Every local extent is accessible. -/
def State.extentsOk (s : State) (core : Nat) (c : CopyCmd) : Bool := c.extents.all (fun x => (s.partPlace? core c x).isSome)

/-! ## The end of a command (R201, R207) -/

/-- A command leaves the engine and its tag records it (R207). -/
def State.endCopy (s : State) (core : Nat) (c : CopyCmd) (failed : Option Nat) : State :=
  (s.modCore core (fun k => { k with copies := k.copies.filter (fun x => x.id != c.id) })).completeTag c.tid c.tag failed

/-- The oldest command that has not started, where what its release waits for is acknowledged (R201). -/
def State.startable? (s : State) (core : Nat) : Option CopyCmd :=
  match (s.core core).copies.find? (fun c => !c.started) with
  | some c => if c.after.all (fun id => (s.msg? id).isNone) then some c else none
  | none => none

/-- A command starts: it is decoded and its local extents are checked before any byte moves (R201). -/
def State.startCopy (s : State) (core : Nat) : State :=
  match s.startable? core with
  | none => s
  | some c =>
    if !c.descOk then s.endCopy core c (some copyDesc)
    else if !s.extentsOk core c then s.endCopy core c (some copyHandle)
    else s.modCopy core c.id (fun c => { c with started := true })

/-! ## Global pages (R204, R205, R292) -/

/-- What the engine does with a global page: it is used with its translation and key, left alone, or the command must wait
(for the reply to a fault, or for a migration). -/
inductive PageEnd where
  | use (t : Trans) (key : Nat)
  | skip
  deriving DecidableEq, Repr

/-- The pages judged so far, by page number; the code of a failure met; whether the command is held by a fault, or waits for
a migrating page or for its slice's port (R341). -/
structure Judged where
  pages  : Map PageEnd
  failed : Option Nat
  held   : Bool
  moving : Bool

/-- The system fault of a copy command is reported for its sheaf (R205, R333): no instruction, no lanes;
reply is the page whose fault holds the command. -/
def State.copyRecord (s : State) (core : Nat) (c : CopyCmd) (code reason : Nat) (va : Addr) (detail : Nat) (reply : Option Nat) : Nat × State :=
  s.postSheafFault c.sid (slotAt c.sid 0) { code := code, reason := reason, va := va, lanes := 0, detail := detail, reply := reply.isSome }
    (match reply with | some page => .copy core c.id page | none => .info)

/-- The tag's code for a fault of a page (R205). -/
def copyCodeOf (code : Nat) : Nat := if code == fProt then copyProt else copyXlate

/-- A page is left alone, with a failure. -/
def Judged.skip (j : Judged) (page code : Nat) : Judged :=
  { j with pages := j.pages.put page .skip, failed := some (j.failed.getD code) }

/-- A translation or protection fault of a page (R292, R293): in STALL mode the command is held, in RESTART mode the page is
left alone and a record informs. -/
def State.copyFault (s : State) (core : Nat) (c : CopyCmd) (j : Judged) (page code reason : Nat) (va : Addr) (detail : Nat) : Judged × State :=
  let restart := match s.sheaf? c.sid with | some sh => modeRestart sh.mode | none => false
  let reason1 := if code == fPage then 2 else reason
  let detail1 := if code == fPage then c.tag else detail
  let r := s.copyRecord core c code reason1 va detail1 (if restart then none else some page)
  if restart then (j.skip page (copyCodeOf code), r.2)
  else ({ j with held := true }, r.2.modCopy core c.id (fun c =>
    { c with token := some r.1, failed := j.failed, skipped := (j.pages.filter (fun e => e.2 == .skip)).map Prod.fst }))

/-- A page that translates is judged for marks and ownership (R57, R204, R291). -/
def State.judgeTrans (s : State) (core : Nat) (c : CopyCmd) (write : Bool) (flow : Mark) (j : Judged) (page : Nat) (t : Trans) : Judged × State :=
  match (s.tuft? c.tid).bind (fun x => s.kernel? x.kid) with
  | none => (j.skip page copyXlate, s)
  | some k =>
    let key := (s.keySlot k.part t.kh).key
    if write && decide ((s.slotMark k.part t.kh).toNat < flow.toNat) then (j.skip page copyMark, s)
    else match s.homeRefusal k.part k.ctx t.paddr t.kh key with
      | some code => (j.skip page copyOwner, (s.copyRecord core c code 0 0 (refusalDetail code t.kh t.paddr) none).2)
      | none => ({ j with pages := j.pages.put page (.use { t with paddr := t.paddr - t.paddr % 65536 } key) }, s)

/-- A global address's page is judged, unless it has been. -/
def State.judgePage (s : State) (core : Nat) (c : CopyCmd) (write : Bool) (flow : Mark) (j : Judged) (va : Addr) : Judged × State :=
  let page := pageOf va
  if j.held || j.moving || (j.pages.find? page).isSome then (j, s)
  else if c.skipped.contains page then ({ j with pages := j.pages.put page .skip }, s)
  else if !canonical va then s.copyFault core c j page fProt rCanon va 0
  else
    match s.xlateTuft c.tid core va write with
    | (.fault code reason x detail, s1) => s1.copyFault core c j page code reason x detail
    | (.migrating _, s1) => ({ j with moving := true }, s1)
    | (.far _, s1) => ({ j with moving := true }, s1)
    | (.memErr pa, s1) => (j.skip page copyMemErr, (s1.copyRecord core c fMemErr 0 0 pa none).2)
    | (.ok t, s1) =>
      if write && !t.w then s1.copyFault core c j page fProt rWrite va 0
      else if !write && !t.r then s1.copyFault core c j page fProt rRead va 0
      else if !s1.reachable (sliceOf core) t.paddr then ({ j with moving := true }, s1)
      else s1.judgeTrans core c write flow j page t

/-- The pages of some addresses are judged in order. -/
def State.judgePages (s : State) (core : Nat) (c : CopyCmd) (write : Bool) (flow : Mark) (vas : List Addr) (j : Judged) : Judged × State :=
  vas.foldl (fun acc va => acc.2.judgePage core c write flow acc.1 va) (j, s)

/-- Nothing judged yet. -/
def Judged.start (c : CopyCmd) : Judged := { pages := [], failed := c.failed, held := false, moving := false }

/-- The translation and key of an address, where its page is used. -/
def Judged.at (j : Judged) (va : Addr) : Option (Trans × Nat) :=
  match j.pages.find? (pageOf va) with
  | some (.use t key) => some ({ t with paddr := t.paddr + va.toNat % 65536 }, key)
  | _ => none

/-- The mark of the pages used, as sources (R204). -/
def State.pagesMark (s : State) (c : CopyCmd) (j : Judged) : Mark :=
  match (s.tuft? c.tid).bind (fun x => s.kernel? x.kid) with
  | some k => marks (j.pages.filterMap (fun e => match e.2 with | .use t _ => some (s.slotMark k.part t.kh) | .skip => none))
  | none => 0

/-! ## Moving bytes (R199) -/

/-- A stretch to move between a global address and a place in local store; a row that GATH fills with zeros has no global side. -/
structure Piece where
  va    : Addr
  place : Place
  len   : Nat
  zero  : Bool := false
  deriving DecidableEq, Repr

/-- A piece cut at the 64 KB pages of its global side. -/
def Piece.cut : Nat → Piece → List Piece
  | 0, _ => []
  | fuel + 1, p =>
    let room := 65536 - p.va.toNat % 65536
    if p.len == 0 then []
    else if p.len ≤ room then [p]
    else { p with len := room } ::
      Piece.cut fuel { va := p.va + BitVec.ofNat 64 room, place := { p.place with off := p.place.off + room }, len := p.len - room }

/-- Pieces cut at pages. -/
def cutAll (ps : List Piece) : List Piece := ps.flatMap (fun p => if p.zero then [p] else p.cut (p.len / 65536 + 2))

/-- The place of the index list of GATH and SCAT (R198). -/
def State.indexPlace? (s : State) (core : Nat) (c : CopyCmd) : Option Place :=
  s.partPlace? core c { la := c.w 4, dist := 0, len := 4 * c.hi 3 }

/-- The bytes of the index list, those that the command has read before its completion as they stood then (R202). -/
def State.indexBytes (s : State) (core : Nat) (c : CopyCmd) : List Byte :=
  match s.indexPlace? core c with
  | some p => (s.localBytes p (4 * c.hi 3)).mapIdx (fun i b => c.index.getD i b)
  | none => []

/-- The entries of the index list (R199). -/
def State.indexList (s : State) (core : Nat) (c : CopyCmd) : List Nat :=
  (List.range ((s.indexBytes core c).length / 4)).map (fun j => natAt (s.indexBytes core c) (4 * j) 4)

/-- The place of a local stretch; the command's extents have been found accessible. -/
def State.placeOf (s : State) (core : Nat) (c : CopyCmd) (la : Word) (dist len : Nat) : Place :=
  (s.partPlace? core c { la := la, dist := dist, len := len }).getD { tid := c.tid, off := 0 }

/-- The piece of row j of a GATH or SCAT whose index is x; a SCAT skips the row of an index of all ones (R199). -/
def State.rowPiece? (s : State) (core : Nat) (c : CopyCmd) (j x : Nat) : Option Piece :=
  let place := s.placeOf core c (c.w 2) (j * c.n 6) (c.lo 3)
  if x == 0xFFFFFFFF then if c.kind == .gath then some { va := 0, place := place, len := c.lo 3, zero := true } else none
  else some { va := c.pair 0 + BitVec.ofNat 64 (x * c.n 5), place := place, len := c.lo 3 }

/-- The pieces that a command moves between the global side and local store, in order (R199). -/
def State.pieces (s : State) (core : Nat) (c : CopyCmd) : List Piece :=
  match c.kind with
  | .lin | .linw => if c.n 3 == 0 then [] else [{ va := c.pair 0, place := s.placeOf core c (c.w 2) 0 (c.n 3), len := c.n 3 }]
  | .t2d | .t2dw =>
    c.cells.map (fun x =>
      { va := c.pair 0 + BitVec.ofNat 64 x.1 * c.pair 4 + BitVec.ofNat 64 x.2, place := s.placeOf core c (c.w 2) (c.cellDist x) 16, len := 16 })
  | .gath | .scat => ((List.range (c.hi 3)).zip (s.indexList core c)).filterMap (fun x => s.rowPiece? core c x.1 x.2)
  | _ => []

/-- The local bytes that a kind reads as sources or as its index list (R204): of a SCAT the rows whose index names a row. -/
def State.localSources (s : State) (core : Nat) (c : CopyCmd) : List LocalPart :=
  let list : LocalPart := { la := c.w 4, dist := 0, len := 4 * c.hi 3 }
  match c.kind with
  | .linw | .t2dw => c.extents
  | .scat =>
    (c.extents.filter (fun x => x == list)) ++ ((List.range (c.hi 3)).zip (s.indexList core c)).filterMap (fun x =>
      if x.2 == 0xFFFFFFFF then none else some { la := c.w 2, dist := x.1 * c.n 6, len := c.lo 3 })
  | .gath => c.extents.filter (fun x => x.la == c.w 4 && x.dist == 0 && x.len == 4 * c.hi 3)
  | .l2l => (c.extents).take 1
  | _ => []

/-- The mark of the local sources and the descriptor registers (R204). -/
def State.localSourceMark (s : State) (core : Nat) (c : CopyCmd) : Mark :=
  maxMark c.mark (marks ((s.localSources core c).map (fun x => s.localMark (s.placeOf core c x.la x.dist x.len) x.len)))

/-- Stretches are written to local stores as one write of each line (R201, R204). -/
def State.writePlaces (s : State) (xs : List (Place × List Byte)) (mark : Mark) (tag : Nat) : State :=
  let tids : Map Unit := xs.foldl (fun m x => m.put x.1.tid ()) []
  s.forEach tids (fun s e => s.writeLocal e.1 ((xs.filter (fun x => x.1.tid == e.1)).flatMap (fun x => spread x.1.off x.2)) mark tag)

/-- The swizzle tag that a kind's local writes leave (R176). -/
def CopyCmd.swizzleTag (c : CopyCmd) : Nat := if c.kind == .t2d then field (c.n 6) 16 3 else 0

/-- Global bytes read at their home (R201, R205): the pieces with their bytes; a poisoned stretch fails the tag with MEMERR
and gives nothing. -/
def State.readPieces (s : State) (core : Nat) (c : CopyCmd) (j : Judged) (ps : List Piece) : List (Place × List Byte) × Option Nat × State :=
  ps.foldl (fun (acc : List (Place × List Byte) × Option Nat × State) p =>
    if p.zero then (acc.1 ++ [(p.place, List.replicate p.len 0)], acc.2) else
    match j.at p.va with
    | none => acc
    | some (t, key) =>
      if acc.2.2.poisoned t.paddr p.len then
        (acc.1, some (acc.2.1.getD copyMemErr), (acc.2.2.copyRecord core c fMemErr 0 0 t.paddr none).2)
      else (acc.1 ++ [(p.place, acc.2.2.viewBytes key t.paddr p.len)], acc.2.1,
        acc.2.2.engineReads (sliceOf core) c.id t.paddr t.kh key p.len)) ([], j.failed, s)

/-- A sector is one of those that a write of a stretch covers: its own sectors in a page of 32-byte grain, else all of its lines (R201, R289). -/
def writtenSector (grain paddr len n : Nat) : Bool :=
  if grain == 1 then decide (paddr / 32 ≤ n) && decide (32 * n < paddr + len)
  else decide (paddr / 128 * 4 ≤ n) && decide (n < (paddr + len + 127) / 128 * 4)

/-- Bytes that an engine's command writes in another package leave as writes of one line each (R201, R342, R343): they count in the sheaf's
counter, and the command waits for their acknowledgements. -/
def State.sendPieces (s : State) (core : Nat) (c : CopyCmd) (t : Trans) (key : Nat) (bytes : Map Byte) : State :=
  let len := spanOf bytes
  let sectors := ((List.range ((t.paddr + len + 127) / 128 * 4 - t.paddr / 128 * 4)).map (fun i => t.paddr / 128 * 4 + i)).filter
    (writtenSector t.grain t.paddr len)
  (s.forEach (lineParts t.paddr len) (fun s x =>
    let part : Map Byte := (bytes.filter (fun b => decide (x.1 ≤ t.paddr + b.1) && decide (t.paddr + b.1 < x.1 + x.2))).map (fun b => (t.paddr + b.1 - x.1, b.2))
    if part.isEmpty then s else s.sendFor (some c.id) c.sid x.1 part t.kh key .write [])).modCopy core c.id (fun c =>
      { c with wrote := c.wrote ++ sectors })

/-- Global bytes written at their home, and out of the issuing core's L1 (R201); those of another package are sent there. -/
def State.writePieces (s : State) (core : Nat) (c : CopyCmd) (j : Judged) (xs : List (Addr × Map Byte)) : State :=
  s.forEach xs (fun s x => match j.at x.1 with
    | some (t, key) =>
      if remoteOf (sliceOf core) t.paddr then s.sendPieces core c t key x.2
      else (s.putBytes key t.paddr x.2).invalidate core (writtenSector t.grain t.paddr (spanOf x.2))
    | none => s)

/-- A command whose bytes have moved ends, at once or when its writes to other packages have been acknowledged (R201). -/
def State.closeCopy (s : State) (core : Nat) (c : CopyCmd) (failed : Option Nat) : State :=
  if s.engineOut c.id then s.modCopy core c.id (fun c => { c with outcome := some failed }) else s.endCopy core c failed

/-- What a command still writes of a local stretch (R202): of the bytes that it has moved before its completion, those that still stand,
as it moved them; one that another agent has written since is left as it is. -/
def State.keepLocal (s : State) (c : CopyCmd) (x : Place × List Byte) : List (Place × List Byte) :=
  if c.movedLocal.isEmpty then [x]
  else
    let now := s.localBytes x.1 x.2.length
    (List.range x.2.length).filterMap (fun i =>
      let put : Byte → Place × List Byte := fun b => ({ x.1 with off := x.1.off + i }, [b])
      match c.movedLocal.find? (fun m => m.1 == (x.1.tid, x.1.off + i)) with
      | some m => if now.getD i 0 == m.2 then some (put m.2) else none
      | none => some (put (x.2.getD i 0)))

/-- What a command still writes of a global stretch (R202): the bytes that it has not moved before its completion. -/
def CopyCmd.keepGlobal (c : CopyCmd) (x : Addr × List Byte) : Addr × Map Byte :=
  (x.1, if c.movedGlobal.isEmpty then spread 0 x.2 else (spread 0 x.2).filter (fun b => !c.movedGlobal.contains (x.1.toNat + b.1)))

/-- A line read by a T2DW under MSTRICT has another swizzle tag than SPAN (R205). -/
def State.copySwizzle (s : State) (core : Nat) (c : CopyCmd) : Bool :=
  c.kind == .t2dw && (match s.sheaf? c.sid with | some sh => modeMstrict sh.mode | none => false) &&
    c.extents.any (fun x =>
      let p := s.placeOf core c x.la x.dist x.len
      match s.tuft? p.tid with
      | some t => (linesOf p.off x.len).any (fun l => (t.ltags.getD l 0).toNat != field (c.n 6) 16 3)
      | none => false)

/-- The rows of a GATH so far: the index list as the rows written before leave it, the pieces, the pages judged. -/
structure Gather where
  list   : List Byte
  pieces : List Piece
  judged : Judged

/-- The index list after a piece of a row has been written (R199). -/
def State.listAfter (s : State) (lp : Place) (j : Judged) (list : List Byte) (p : Piece) : List Byte :=
  let bytes := if p.zero then some (List.replicate p.len 0) else
    match j.at p.va with
    | some (t, key) => if s.poisoned t.paddr p.len then none else some (s.viewBytes key t.paddr p.len)
    | none => none
  match bytes with
  | some bs => if p.place.tid != lp.tid then list else list.mapIdx (fun i b => if decide (p.place.off ≤ lp.off + i) then bs.getD (lp.off + i - p.place.off) b else b)
  | none => list

/-- A row of a GATH: its index is read once the rows before it are written (R199), and its pages are judged. -/
def State.gatherRow (core : Nat) (c : CopyCmd) (lp : Place) (acc : Gather × State) (j : Nat) : Gather × State :=
  match acc.2.rowPiece? core c j (natAt acc.1.list (4 * j) 4) with
  | none => acc
  | some p =>
    let ps := cutAll [p]
    let r := acc.2.judgePages core c false 0 ((ps.filter (fun p => !p.zero)).map Piece.va) acc.1.judged
    ({ list := ps.foldl (fun l p => r.2.listAfter lp r.1 l p) acc.1.list, pieces := acc.1.pieces ++ ps, judged := r.1 }, r.2)

/-- The pieces of a command from the global side to local store with their pages judged: of a GATH those of some rows, in the order of its
loop (R199). -/
def State.gather (s : State) (core : Nat) (c : CopyCmd) (rows : List Nat) : (List Piece × Judged) × State :=
  if c.kind == .gath then
    match s.indexPlace? core c with
    | some p =>
      let r := rows.foldl (State.gatherRow core c p) ({ list := s.indexBytes core c, pieces := [], judged := Judged.start c }, s)
      ((r.1.pieces, r.1.judged), r.2)
    | none => (([], Judged.start c), s)
  else
    let ps := cutAll (s.pieces core c)
    let r := s.judgePages core c false 0 (ps.map Piece.va) (Judged.start c)
    ((ps, r.1), r.2)

/-- A command whose destination is local and whose source is global moves (LIN, T2D, GATH). -/
def State.moveIn (s : State) (core : Nat) (c : CopyCmd) : State :=
  let r := s.gather core c (List.range (c.hi 3))
  if r.1.2.moving then s
  else if r.1.2.held then r.2
  else
    let mark := maxMark (r.2.localSourceMark core c) (r.2.pagesMark c r.1.2)
    let q := r.2.readPieces core c r.1.2 r.1.1
    (q.2.2.writePlaces (q.1.flatMap (q.2.2.keepLocal c)) mark c.swizzleTag).endCopy core c q.2.1

/-- A page that the command has begun to write is not judged for its translation or its mark again (R57, R204): it stays in use, unless
its home now refuses the write or no port carries it (R291, R341). -/
def State.usePage (s : State) (core : Nat) (c : CopyCmd) (j : Judged) (u : UsedPage) : Judged × State :=
  match (s.tuft? c.tid).bind (fun x => s.kernel? x.kid) with
  | none => (j.skip u.page copyXlate, s)
  | some k =>
    let key := (s.keySlot k.part u.kh).key
    if c.skipped.contains u.page then ({ j with pages := j.pages.put u.page .skip }, s)
    else if !s.reachable (sliceOf core) u.base then ({ j with moving := true }, s)
    else match s.homeRefusal k.part k.ctx u.base u.kh key with
      | some code => (j.skip u.page copyOwner, (s.copyRecord core c code 0 0 (refusalDetail code u.kh u.base) none).2)
      | none =>
        let t : Trans := { paddr := u.base, kh := u.kh, grain := u.grain, fresh := false, r := true, w := true, x := false }
        ({ j with pages := j.pages.put u.page (.use t key) }, s)

/-- The pages that the command has begun to write, in order. -/
def State.usePages (s : State) (core : Nat) (c : CopyCmd) : Judged × State :=
  c.used.foldl (fun acc u => acc.2.usePage core c acc.1 u) (Judged.start c, s)

/-- A page that the command has begun to write may no longer take the mark of its sources: the rest of it takes the bytes read when it
was judged. -/
def State.keepsSource (s : State) (core : Nat) (c : CopyCmd) (va : Addr) : Bool :=
  match (s.tuft? c.tid).bind (fun x => s.kernel? x.kid), c.used.find? (fun u => u.page == pageOf va) with
  | some k, some u => decide ((s.slotMark k.part u.kh).toNat < (s.localSourceMark core c).toNat)
  | _, _ => false

/-- The bytes that a command writes to global memory, piece by piece: as they stand, or as they were read when the command began to
write the page. -/
def State.outBytes (s : State) (core : Nat) (c : CopyCmd) (ps : List Piece) : List (Addr × List Byte) :=
  ps.mapIdx (fun i p => (p.va, if s.keepsSource core c p.va then c.source.getD i [] else s.localBytes p.place p.len))

/-- A command whose source is local and whose destination is global moves (LINW, T2DW, SCAT): a later row stands. -/
def State.moveOut (s : State) (core : Nat) (c : CopyCmd) : State :=
  if s.copySwizzle core c then s.closeCopy core c (some copySwiz)
  else
    let ps := cutAll (s.pieces core c)
    let u := s.usePages core c
    let r := u.2.judgePages core c true (s.localSourceMark core c) (ps.map Piece.va) u.1
    if r.1.moving then s
    else if r.1.held then r.2
    else (r.2.writePieces core c r.1 ((s.outBytes core c ps).map c.keepGlobal)).closeCopy core c r.1.failed

/-- Some pages that a command has begun to write take the rest of their bytes, as they were read when the pages were judged, and are left
alone from then on (R296: every byte of a copy command that used a translation has performed before its shoot-down completes). -/
def State.finishPages (s : State) (core : Nat) (c : CopyCmd) (goes : Nat → Bool) : State :=
  let pages := (c.used.map UsedPage.page).filter (fun p => goes p && !c.skipped.contains p)
  if pages.isEmpty || c.outcome.isSome then s else
  let u := s.usePages core { c with used := c.used.filter (fun u => pages.contains u.page) }
  let xs := ((cutAll (s.pieces core c)).zip c.source).map (fun x => (x.1.va, x.2))
  (u.2.writePieces core c u.1 (xs.map c.keepGlobal)).modCopy core c.id (fun c => { c with failed := u.1.failed, skipped := c.skipped ++ pages })

/-- L2L (R199): every source byte is read first. -/
def State.moveLocal (s : State) (core : Nat) (c : CopyCmd) : State :=
  if c.n 2 == 0 then s.endCopy core c none
  else
    let bs := s.localBytes (s.placeOf core c (c.w 0) 0 (c.n 2)) (c.n 2)
    (s.writePlaces (s.keepLocal c (s.placeOf core c (c.w 1) 0 (c.n 2), bs)) (s.localSourceMark core c) 0).endCopy core c none

/-- FILL (R199). -/
def State.moveFill (s : State) (core : Nat) (c : CopyCmd) : State :=
  if c.n 1 == 0 then s.endCopy core c none
  else
    let bs := (List.range (c.n 1 / 4)).flatMap (fun _ => leBytes 4 (c.n 2))
    (s.writePlaces (s.keepLocal c (s.placeOf core c (c.w 0) 0 (c.n 1), bs)) c.mark 0).endCopy core c none

/-! ## XPND (R78 to R81, R200) -/

/-- An umbel block as its code and payload say (R78): width of an element, elements it counts for its row (none: it ends the
row), and whether the block is a format error whatever its row (R80). -/
structure Umbel where
  width : Nat
  count : Option Nat
  bad   : Bool
  deriving DecidableEq, Repr

/-- The payload of a block as a number (R78). -/
def umbelPayload (bs : List Byte) : Nat := natAt bs 2 62

/-- A block is read (R78, R80, R81). -/
def umbelOf (bs : List Byte) : Umbel :=
  let code := (bs.getD 0 0).toNat
  let count := (bs.getD 1 0).toNat
  let p := umbelPayload bs
  match code with
  | 0x00 => if count == 0 then { width := 0, count := none, bad := true } else { width := 0, count := some count, bad := p != 0 }
  | 0x13 => { width := 3, count := some 165, bad := field p 495 1 != 0 }
  | 0x14 => { width := 4, count := some 124, bad := false }
  | 0x18 | 0x19 => { width := 8, count := some 62, bad := false }
  | 0x1B => { width := 16, count := some 31, bad := false }
  | _ => { width := 0, count := none, bad := true }

/-- The bits of element i (R78). -/
def umbelBits (bs : List Byte) (width i : Nat) : Nat := field (umbelPayload bs) (width * i) width

/-- The value of an element before scaling (R78). -/
def umbelValue (code bits : Nat) : Num :=
  let ofInt := fun (v : Int) => Num.fin (decide (v < 0)) v.natAbs 0
  match code with
  | 0x13 => ofInt (signed 3 bits)
  | 0x14 => ofInt (signed 4 bits)
  | 0x18 => e4m3.decode bits
  | 0x19 => e5m2.decode bits
  | 0x1B => bf16.decode bits
  | _ => .fin false 0 0

/-- An element expanded to BF16 (R79). -/
def umbelBf16 (bs : List Byte) (width i : Nat) : Nat :=
  let code := (bs.getD 0 0).toNat
  let scale := (bs.getD 1 0).toNat
  if code == 0 then 0
  else if scale == 255 then bf16.nanBits
  else match umbelValue code (umbelBits bs width i) with
    | .fin neg m e => (bf16.ofNum (.fin neg m (e + scale - 127))).1
    | x => (bf16.ofNum x).1

/-- The walk of a stream (R200): row, elements of the row so far, block address, elements to write (row, element, BF16), the
failure, the pages judged. -/
structure Walk where
  row    : Nat
  done   : Nat
  addr   : Addr
  writes : List (Nat × Nat × Nat)
  failed : Option Nat
  judged : Judged

/-- A block of the stream is taken (R80, R81, R200). -/
def Walk.take (w : Walk) (k : Nat) (bs : List Byte) : Walk :=
  let u := umbelOf bs
  let next := addrAdd w.addr 64
  match u.count with
  | none => { w with row := w.row + 1, done := 0, addr := next, failed := some (w.failed.getD copyFormat) }
  | some n =>
    let take := min n (k - w.done)
    let beyond := (List.range (n - take)).any (fun i => u.width != 0 && umbelBits bs u.width (take + i) != 0)
    let bad := u.bad || beyond
    let ends := k ≤ w.done + n
    { w with
      row := if ends then w.row + 1 else w.row
      done := if ends then 0 else w.done + n
      addr := next
      writes := if bad then w.writes else w.writes ++ (List.range take).map (fun i => (w.row, w.done + i, umbelBf16 bs u.width i))
      failed := if bad then some (w.failed.getD copyFormat) else w.failed }

/-- The stream is walked to its last row or to a block that cannot be read (R200). -/
def State.walkUmbel (s : State) (core : Nat) (c : CopyCmd) : Nat → Walk → Walk × State
  | 0, w => (w, s)
  | fuel + 1, w =>
    if c.hi 3 ≤ w.row then (w, s)
    else
      let r := s.judgePage core c false 0 { w.judged with failed := w.failed } w.addr
      let w1 := { w with judged := r.1, failed := r.1.failed }
      match r.1.at w.addr with
      | none => (w1, r.2)
      | some (t, key) =>
        if r.2.poisoned t.paddr 64 then
          ({ w1 with failed := some (w1.failed.getD copyMemErr) }, (r.2.copyRecord core c fMemErr 0 0 t.paddr none).2)
        else (r.2.engineReads (sliceOf core) c.id t.paddr t.kh key 64).walkUmbel core c fuel (w1.take (c.lo 3) (r.2.viewBytes key t.paddr 64))

/-- XPND (R200). -/
def State.moveXpnd (s : State) (core : Nat) (c : CopyCmd) : State :=
  let r := s.walkUmbel core c (c.hi 3 * (c.lo 3 + 1))
    { row := 0, done := 0, addr := c.pair 0, writes := [], failed := c.failed, judged := Judged.start c }
  if r.1.judged.moving then s
  else if r.1.judged.held then r.2
  else
    let mark := maxMark c.mark (r.2.pagesMark c r.1.judged)
    (r.2.writePlaces (r.1.writes.map (fun x => (s.placeOf core c (c.w 2) (x.1 * c.xpndStride + 2 * x.2.1) 2, leBytes 2 x.2.2))) mark 0).endCopy
      core c r.1.failed

/-! ## Bytes that move before the completion (R202) -/

/-- Some of the local units that a command writes, which ones is free, move now: bytes, of a FILL words (R199). -/
def State.earlyLocal (s : State) (core : Nat) (c : CopyCmd) (unit : Nat) (xs : List (Place × List Byte)) (mark : Mark) (tag : Nat) : State :=
  let bytes : List ((Nat × Nat) × Byte) :=
    (xs.flatMap (fun x => (List.range x.2.length).map (fun i => ((x.1.tid, x.1.off + i), x.2.getD i 0)))).filter
      (fun x => (Config.freeNat s.freeCount).testBit (x.1.2 / unit))
  (State.writePlaces { s with freeCount := s.freeCount + 1 } (bytes.map (fun x => ({ tid := x.1.1, off := x.1.2 }, [x.2]))) mark tag).modCopy core c.id
    (fun c => { c with mark := mark, movedLocal := bytes })

/-- A page in use, as the command remembers it. -/
def Judged.used (j : Judged) : List UsedPage :=
  j.pages.filterMap (fun e => match e.2 with
    | .use t _ => some { page := e.1, base := t.paddr, kh := t.kh, grain := t.grain }
    | .skip => none)

/-- Some of the global bytes that a command writes, which ones is free, move now. -/
def State.earlyGlobal (s : State) (core : Nat) (c : CopyCmd) (j : Judged) (mark : Mark) (xs : List (Addr × List Byte)) : State :=
  let all : List (Addr × Byte) := xs.flatMap (fun x => (List.range x.2.length).map (fun i => (x.1 + BitVec.ofNat 64 i, x.2.getD i 0)))
  let bytes := all.filter (fun x => (Config.freeNat s.freeCount).testBit (x.1.toNat % 2 ^ 20))
  (State.writePieces { s with freeCount := s.freeCount + 1 } core c j (bytes.map (fun x => (x.1, [(0, x.2)])))).modCopy core c.id
    (fun c => { c with mark := mark, movedGlobal := (bytes.map (fun x => x.1.toNat)).eraseDups, used := j.used, source := xs.map Prod.snd })

/-- Two local stretches of a command share no byte. -/
def apart (p q : Place) (m n : Nat) : Bool := p.tid != q.tid || decide (p.off + m ≤ q.off) || decide (q.off + n ≤ p.off)

/-- Some bytes of a command from the global side to local store move, of a GATH in some rows, where nothing holds or fails it. -/
def State.moveSomeIn (s : State) (core : Nat) (c : CopyCmd) (rows : List Nat) : State :=
  let r := s.gather core c rows
  let q := r.2.readPieces core c r.1.2 r.1.1
  if r.1.2.moving || r.1.2.held || q.2.1.isSome then s
  else q.2.2.earlyLocal core c 1 q.1 (maxMark (r.2.localSourceMark core c) (r.2.pagesMark c r.1.2)) c.swizzleTag

/-- Some bytes of a started command move before its completion, where nothing holds or fails it (R201, R202): each of the others moves
when it completes. SCAT and XPND move theirs in one step (log entry 11). -/
def State.moveSome (s : State) (core : Nat) (c : CopyCmd) : State :=
  match c.kind with
  | .lin | .t2d => s.moveSomeIn core c []
  | .gath =>
    let list := s.placeOf core c (c.w 4) 0 (4 * c.hi 3)
    if (List.range (c.hi 3)).any (fun j => !apart (s.placeOf core c (c.w 2) (j * c.n 6) (c.lo 3)) list (c.lo 3) (4 * c.hi 3)) then s
    else
      let bits := Config.freeNat s.freeCount
      let index : Map Byte := ((s.indexBytes core c).mapIdx (fun i b => (i, b))).filter (fun e => bits.testBit e.1)
      let rows := (List.range (c.hi 3)).filter (fun j => (List.range 4).all (fun i => bits.testBit (4 * j + i)))
      ((State.modCopy { s with freeCount := s.freeCount + 1 } core c.id (fun x => { x with index := index, mark := s.localSourceMark core c })).moveSomeIn
        core { c with index := index } rows)
  | .linw | .t2dw =>
    let ps := cutAll (s.pieces core c)
    let mark := s.localSourceMark core c
    let r := s.judgePages core c true mark (ps.map Piece.va) (Judged.start c)
    if s.copySwizzle core c || r.1.moving || r.1.held || r.1.failed.isSome then s
    else r.2.earlyGlobal core c r.1 mark (ps.map (fun p => (p.va, s.localBytes p.place p.len)))
  | .l2l =>
    let source := s.placeOf core c (c.w 0) 0 (c.n 2)
    let target := s.placeOf core c (c.w 1) 0 (c.n 2)
    if apart source target (c.n 2) (c.n 2) then s.earlyLocal core c 1 [(target, s.localBytes source (c.n 2))] (s.localSourceMark core c) 0 else s
  | .fill => s.earlyLocal core c 4 [(s.placeOf core c (c.w 0) 0 (c.n 1), (List.range (c.n 1 / 4)).flatMap (fun _ => leBytes 4 (c.n 2)))] c.mark 0
  | .scat | .xpnd => s

/-- A started command has its one early move. -/
def State.copyEarly (s : State) (core id : Nat) : State :=
  match (s.core core).copies.find? (fun c => c.id == id) with
  | none => s
  | some c =>
    if !c.started || c.token.isSome || c.early || c.outcome.isSome || !s.extentsOk core c then s
    else (s.modCopy core id (fun c => { c with early := true })).moveSome core { c with early := true }

/-! ## Completion (R201) -/

/-- A command that waited for its writes to other packages ends: their lines leave the core's L1 (R201). -/
def State.settleCopy (s : State) (core : Nat) (c : CopyCmd) (failed : Option Nat) : State :=
  (s.invalidate core (fun n => c.wrote.contains n)).endCopy core c (match failed with | some x => some x | none => c.failed)

/-- A started command completes, unless a fault or a migrating page holds it (R201, R205). -/
def State.completeCopy (s : State) (core id : Nat) : State :=
  match (s.core core).copies.find? (fun c => c.id == id) with
  | none => s
  | some c =>
    if !c.started || c.token.isSome then s
    else match c.outcome with
    | some failed => if s.engineOut id then s else s.settleCopy core c failed
    | none =>
    if !s.extentsOk core c then s.closeCopy core c (some copyHandle)
    else match c.kind with
      | .lin | .t2d | .gath => s.moveIn core c
      | .linw | .t2dw | .scat => s.moveOut core c
      | .xpnd => s.moveXpnd core c
      | .l2l => s.moveLocal core c
      | .fill => s.moveFill core c

/-- A command completes as far as it can now: what it sends to other packages is acknowledged, where it can be (R201, R343). -/
def State.finishCopy (s : State) (core id : Nat) : State :=
  let s1 := s.completeCopy core id
  if s1.engineOut id then (s1.forEach (s1.msgs.filter (fun m => m.engine == some id)) (fun s m => s.finishMsg m)).completeCopy core id else s1

/-- The reply to a copy's fault (R292, R335): RESUME goes on; ABANDON leaves the page alone and fails the tag. -/
def State.replyCopy (s : State) (core id : Nat) (abandon : Bool) (code page : Nat) : State :=
  s.modCopy core id (fun c =>
    if abandon then { c with token := none, failed := some (c.failed.getD (copyCodeOf code)), skipped := c.skipped ++ [page] }
    else { c with token := none })

/-- COPY_START (R201). -/
def execCopyStart (core : Nat) (s : State) : Host.Outcome State Fault Refusal := .next (s.startCopy core).settle

/-- COPY_COMPLETE (R201). -/
def execCopyComplete (core cmd : Nat) (s : State) : Host.Outcome State Fault Refusal := .next (s.completeCopy core cmd).settle

/-- CPY.LIN (R197). -/
def execCpyLin (g : BitVec 4) (n : BitVec 1) (t : BitVec 6) (b : BitVec 8) (s : State) : Host.Outcome State Fault Refusal :=
  issued (formCopy .lin) g n (cpyOp .lin t.toNat b.toNat) s

/-- CPY.LINW (R197). -/
def execCpyLinw (g : BitVec 4) (n : BitVec 1) (t : BitVec 6) (b : BitVec 8) (s : State) : Host.Outcome State Fault Refusal :=
  issued (formCopy .linw) g n (cpyOp .linw t.toNat b.toNat) s

/-- CPY.T2D (R197). -/
def execCpyT2d (g : BitVec 4) (n : BitVec 1) (t : BitVec 6) (b : BitVec 8) (s : State) : Host.Outcome State Fault Refusal :=
  issued (formCopy .t2d) g n (cpyOp .t2d t.toNat b.toNat) s

/-- CPY.T2DW (R197). -/
def execCpyT2dw (g : BitVec 4) (n : BitVec 1) (t : BitVec 6) (b : BitVec 8) (s : State) : Host.Outcome State Fault Refusal :=
  issued (formCopy .t2dw) g n (cpyOp .t2dw t.toNat b.toNat) s

/-- CPY.XPND (R197). -/
def execCpyXpnd (g : BitVec 4) (n : BitVec 1) (t : BitVec 6) (b : BitVec 8) (s : State) : Host.Outcome State Fault Refusal :=
  issued (formCopy .xpnd) g n (cpyOp .xpnd t.toNat b.toNat) s

/-- CPY.GATH (R197). -/
def execCpyGath (g : BitVec 4) (n : BitVec 1) (t : BitVec 6) (b : BitVec 8) (s : State) : Host.Outcome State Fault Refusal :=
  issued (formCopy .gath) g n (cpyOp .gath t.toNat b.toNat) s

/-- CPY.SCAT (R197). -/
def execCpyScat (g : BitVec 4) (n : BitVec 1) (t : BitVec 6) (b : BitVec 8) (s : State) : Host.Outcome State Fault Refusal :=
  issued (formCopy .scat) g n (cpyOp .scat t.toNat b.toNat) s

/-- CPY.L2L (R197). -/
def execCpyL2l (g : BitVec 4) (n : BitVec 1) (t : BitVec 6) (b : BitVec 8) (s : State) : Host.Outcome State Fault Refusal :=
  issued (formCopy .l2l) g n (cpyOp .l2l t.toNat b.toNat) s

/-- CPY.FILL (R197). -/
def execCpyFill (g : BitVec 4) (n : BitVec 1) (t : BitVec 6) (b : BitVec 8) (s : State) : Host.Outcome State Fault Refusal :=
  issued (formCopy .fill) g n (cpyOp .fill t.toNat b.toNat) s

end Sys2Proof.Machine
end

