-- ==== Sys2Proof/Machine/Rings.lean ====
section
/-!
DEFINITION. Tags (R206 to R208), stage rings (R209 to R212) and buffer handles (R213 to R215).
-/
namespace Sys2Proof.Machine

/-! ## Tags -/

/-- The tag functions that write a register (R208). -/
def formTag : Form := { Form.plain with wide := true }

/-- A mask names no tag at or above the tuft's allotment (R208). -/
def maskLegal (t : Tuft) (mask : BitVec 64) : Bool := mask.toNat / 2 ^ t.tags.length == 0

/-- A tag function over a mask pair (R208): ILLEGAL for a bit beyond the allotment. -/
def maskOp (ok : Bool) (uses : List Nat) (b : Nat) (body : Slot → Sheaf → Tuft → BitVec 64 → State → Act) (_ : Slot) : Op :=
  { ok := ok, uses := uses, also := [], writes := [],
    body := fun slot sh s =>
      match s.tuft? sh.tid with
      | none => .stop s
      | some t =>
        let mask := sh.readPairB b
        if !maskLegal t mask then .trap (illegalWord slot) s else body slot sh t mask s }

/-- A tag result is written with the mark of its selecting pair (R208); reporting a tag DONE acquires at CORE scope (R207). -/
def tagResult (d b : Nat) (slot : Slot) (acquires : Bool) (w : Word) (s : State) : Act :=
  let s1 := if acquires then s.acquire slot.sid 1 else s
  .next (s1.modSheaf slot.sid (fun sh => sh.writeUB d w (sh.pairMark (uIndex b))))

/-- The lowest masked tag that is DONE (R208). -/
def Tuft.lowestDone (t : Tuft) (mask : BitVec 64) : Option (Nat × Tag) := (t.maskTags mask).find? (fun e => e.2.done)

/-- The word that names a DONE tag: its number, bit 31 FAIL (R208). -/
def doneWord (e : Nat × Tag) : Word := BitVec.ofNat 32 (e.1 + (if e.2.fail then 2 ^ 31 else 0))

/-- TWAITANY (R208). -/
def execTwaitany (g : BitVec 4) (n : BitVec 1) (xs b : BitVec 8) (s : State) : Host.Outcome State Fault Refusal :=
  issued formTag g n (maskOp (isU xs.toNat && evenU b.toNat) (xs.toNat :: span b.toNat 2) b.toNat (fun slot _ t mask s =>
    match t.lowestDone mask with
    | some e => tagResult xs.toNat b.toNat slot true (doneWord e) s
    | none => if t.anyReady mask then tagResult xs.toNat b.toNat slot false 0xFFFFFFFF s else .wait (.tagAny mask) s)) s

/-- TWAITALL (R208). -/
def execTwaitall (g : BitVec 4) (n : BitVec 1) (xs b : BitVec 8) (s : State) : Host.Outcome State Fault Refusal :=
  issued formTag g n (maskOp (isU xs.toNat && evenU b.toNat) (xs.toNat :: span b.toNat 2) b.toNat (fun slot _ t mask s =>
    if t.allReady mask then
      tagResult xs.toNat b.toNat slot true (BitVec.ofNat 32 ((t.maskTags mask).filter (fun e => e.2.fail)).length) s
    else .wait (.tagAll mask) s)) s

/-- TFIND (R208). -/
def execTfind (g : BitVec 4) (n : BitVec 1) (xs b : BitVec 8) (s : State) : Host.Outcome State Fault Refusal :=
  issued formTag g n (maskOp (isU xs.toNat && evenU b.toNat) (xs.toNat :: span b.toNat 2) b.toNat (fun slot _ t mask s =>
    match t.lowestDone mask with
    | some e => tagResult xs.toNat b.toNat slot true (doneWord e) s
    | none => tagResult xs.toNat b.toNat slot false 0xFFFFFFFF s)) s

/-- TCLR (R208): it acts once, under divergence too. -/
def execTclr (g : BitVec 4) (n : BitVec 1) (b : BitVec 8) (s : State) : Host.Outcome State Fault Refusal :=
  issued Form.plain g n (maskOp (evenU b.toNat) (span b.toNat 2) b.toNat (fun _ sh t mask s =>
    .next (s.setTuft sh.tid { t with tags := ((List.range t.tags.length).zip t.tags).map (fun e =>
      if mask.getLsbD e.1 && e.2.count == 0 then Tag.zero else e.2) }))) s

/-- The word of TSTAT (R208). -/
def Tag.word (x : Tag) : Word :=
  BitVec.ofNat 32 (x.count % 256 + x.code % 256 * 2 ^ 8 + (if x.done then 2 ^ 16 else 0) + (if x.fail then 2 ^ 17 else 0))

/-- TSTAT (R208). -/
def execTstat (g : BitVec 4) (n : BitVec 1) (xs b : BitVec 8) (s : State) : Host.Outcome State Fault Refusal :=
  issued formTag g n (fun _ =>
    { ok := isU xs.toNat && isU b.toNat, uses := [xs.toNat, b.toNat], also := [], writes := [],
      body := fun slot sh s =>
        match s.tuft? sh.tid with
        | none => .stop s
        | some t =>
          let k := (sh.readUB b.toNat).toNat
          if t.tags.length ≤ k then .trap (illegalWord slot) s
          else
            let s1 := if (t.tag k).done then s.acquire slot.sid 1 else s
            .next (s1.modSheaf slot.sid (fun sh => sh.writeUB xs.toNat (t.tag k).word (sh.operandMark b.toNat))) }) s

/-! ## Stage rings -/

/-- The ring instructions (R211). -/
def formRing : Form := { Form.plain with wide := true }

/-- A ring the tuft declares (R209). -/
def ringLegal (r : Nat) (sh : Sheaf) (s : State) : Bool :=
  match s.tuft? sh.tid with | some t => decide (r < t.rings.length) | none => false

/-- A ring of a sheaf's tuft. -/
def State.ringOf? (s : State) (sh : Sheaf) (r : Nat) : Option Ring := (s.tuft? sh.tid).bind (fun t => t.rings[r]?)

/-- The trap of a ring (R210, R331). -/
def ringTrap (cause r : Nat) : TrapInfo := TrapInfo.at cause 0 0 (BitVec.ofNat 64 r)

/-- A ring instruction: ROLE for a sheaf outside the role set it needs, before any effect (R211). -/
def ringOp (ok : Bool) (r : Nat) (uses : List Nat) (roles : Ring → Option (BitVec 4)) (body : Slot → Sheaf → Ring → State → Act) (_ : Slot) : Op :=
  { ok := ok, legal := ringLegal r, uses := uses, also := [], writes := [],
    body := fun slot sh s =>
      match s.ringOf? sh r with
      | none => .stop s
      | some ring =>
        match roles ring with
        | some set => if roleIn set sh.role then body slot sh ring s else .trap (trapWord slot cRole 0) s
        | none => body slot sh ring s }

/-- The token of a sheaf enters behind the others (R211). -/
def State.putToken (s : State) (sid r b : Nat) : State :=
  match s.sheaf? sid with
  | some sh => s.modRing sh.tid r (fun x => { x with tokens := x.tokens ++ [(sh.readUB b, sh.operandMark b)] })
  | none => s

/-- A put that succeeds (R211, R212): a CORE-scope release, then the token enters; a release that ends the sheaf stops it (R155). -/
def State.putNow (s : State) (sid r b : Nat) (f : State → State) : Act :=
  let s1 := s.releaseStart sid 1
  if s1.ended sid then .stop s1 else .next (f (s1.putToken sid r b))

/-- A get that succeeds (R211, R212): the oldest token leaves for the register, then a CORE-scope acquire. -/
def State.getToken (s : State) (sid r b : Nat) (ring : Ring) : State :=
  match ring.tokens with
  | [] => s
  | t :: rest =>
    match s.sheaf? sid with
    | some sh => ((s.modRing sh.tid r (fun x => { x with tokens := rest })).setSheaf sid (sh.writeUB b t.1 t.2)).acquire sid 1
    | none => s

/-- RPUT (R210, R211). -/
def execRput (g : BitVec 4) (n : BitVec 1) (r : BitVec 4) (xs : BitVec 8) (s : State) : Host.Outcome State Fault Refusal :=
  issued formRing g n (ringOp (isU xs.toNat) r.toNat [xs.toNat] (fun x => some x.prod) (fun slot sh _ s =>
    match s.putOutcome sh r.toNat with
    | .poison => .trap (ringTrap cRingPoison r.toNat) s
    | .closed => .trap (ringTrap cRingClosed r.toNat) s
    | .wait => .wait (.ringPut r.toNat) s
    | .go => s.putNow slot.sid r.toNat xs.toNat id)) s

/-- RGET (R210, R211). -/
def execRget (g : BitVec 4) (n : BitVec 1) (r : BitVec 4) (xs : BitVec 8) (s : State) : Host.Outcome State Fault Refusal :=
  issued formRing g n (ringOp (isU xs.toNat) r.toNat [xs.toNat] (fun x => some x.cons) (fun slot sh ring s =>
    match s.getOutcome sh r.toNat with
    | .poison => .trap (ringTrap cRingPoison r.toNat) s
    | .closed => .trap (ringTrap cRingClosed r.toNat) s
    | .wait => .wait (.ringGet r.toNat) s
    | .go => .next (s.getToken slot.sid r.toNat xs.toNat ring))) s

/-- A non-blocking form writes all 32 bits of pM, with mark OPEN (R211). -/
def State.answer (s : State) (sid p : Nat) (yes : Bool) : State :=
  s.modSheaf sid (fun sh => sh.writePAll p (if yes then allLanes else 0) 0)

/-- RPUT.NB (R210, R211). -/
def execRputNb (g : BitVec 4) (n : BitVec 1) (r : BitVec 4) (xs : BitVec 8) (p : BitVec 4) (s : State) : Host.Outcome State Fault Refusal :=
  issued formRing g n (ringOp (isU xs.toNat && predOk p.toNat) r.toNat [xs.toNat] (fun x => some x.prod) (fun slot sh _ s =>
    match s.putOutcome sh r.toNat with
    | .poison => .trap (ringTrap cRingPoison r.toNat) s
    | .closed => .trap (ringTrap cRingClosed r.toNat) s
    | .wait => .next (s.answer slot.sid p.toNat false)
    | .go => s.putNow slot.sid r.toNat xs.toNat (fun s => s.answer slot.sid p.toNat true))) s

/-- RGET.NB (R210, R211). -/
def execRgetNb (g : BitVec 4) (n : BitVec 1) (r : BitVec 4) (xs : BitVec 8) (p : BitVec 4) (s : State) : Host.Outcome State Fault Refusal :=
  issued formRing g n (ringOp (isU xs.toNat && predOk p.toNat) r.toNat [xs.toNat] (fun x => some x.cons) (fun slot sh ring s =>
    match s.getOutcome sh r.toNat with
    | .poison => .trap (ringTrap cRingPoison r.toNat) s
    | .closed => .next (s.answer slot.sid p.toNat false)
    | .wait => .next (s.answer slot.sid p.toNat false)
    | .go => .next ((s.getToken slot.sid r.toNat xs.toNat ring).answer slot.sid p.toNat true))) s

/-- RCLOSE (R211). -/
def execRclose (g : BitVec 4) (n : BitVec 1) (r : BitVec 4) (s : State) : Host.Outcome State Fault Refusal :=
  issued formRing g n (ringOp true r.toNat [] (fun x => some x.prod) (fun slot sh _ s =>
    .next (s.setSheaf slot.sid (if sh.closed.contains r.toNat then sh else { sh with closed := sh.closed ++ [r.toNat] })))) s

/-- The word of RSTAT (R211). -/
def State.ringWord (s : State) (sh : Sheaf) (r : Nat) (ring : Ring) : Word :=
  let closed := match s.tuft? sh.tid with | some t => s.ringClosed t r ring | none => false
  BitVec.ofNat 32 (ring.tokens.length % 128 + ring.slots % 64 * 2 ^ 8 + (if closed && !ring.poisoned then 2 ^ 14 else 0) +
    (if ring.poisoned then 2 ^ 15 else 0))

/-- RSTAT (R211). -/
def execRstat (g : BitVec 4) (n : BitVec 1) (r : BitVec 4) (xs : BitVec 8) (s : State) : Host.Outcome State Fault Refusal :=
  issued formRing g n (ringOp (isU xs.toNat) r.toNat [xs.toNat] (fun _ => none) (fun slot sh ring s =>
    .ofSheaf slot s (sh.writeUB xs.toNat (s.ringWord sh r.toNat ring) 0))) s

/-! ## Buffer handles -/

/-- The handle instructions (R214). -/
def formHandle : Form := { Form.plain with wide := true }

/-- HANDLE for a local address (R331). -/
def handleTrap (la : Word) : TrapInfo := TrapInfo.at cHandle 0 0 (la.setWidth 64)

/-- A handle slot becomes free (R214, R215). -/
def State.freeHandle (s : State) (core slot : Nat) : State := s.modFront core (fun p => { p with handles := p.handles.drop slot })

/-- The buffer that an HGIVE names (R214): a new one in the allotment, or the one held in a slot; none raises HANDLE. -/
def State.givenBuffer? (s : State) (sh : Sheaf) (la : Word) (units : Nat) : Option Buffer :=
  let off := localOffset la
  if !localZero la then none
  else if localSlot la == 0 then
    if off % 4096 == 0 && decide (1 ≤ units) && decide (units ≤ 192) && (s.localPlace? sh.tid sh.core 0 off (4096 * units)).isSome then
      some { origin := sh.tid, home := sh.core, offset := off, units := units }
    else none
  else if off == 0 && units == 0 then (s.heldSlot? sh.tid sh.core (localSlot la)).map Handle.buffer else none

/-- HGIVE, nothing that names the buffer being in flight (R214): it revokes the giver's access, then posts to the target core's arrival
queue, or waits for a place there. -/
def State.give (s : State) (sh : Sheaf) (buffer : Buffer) (slot target channel : Nat) : Act :=
  let s1 := if slot == 0 then s else s.freeHandle sh.core slot
  if s1.queueRoom target then .next (s1.postParcel sh target channel buffer) else .wait (.post target channel buffer) s1

/-- HGIVE (R214); on a lent slice it raises HANDLE (R310). -/
def execHgive (g : BitVec 4) (n : BitVec 1) (b x : BitVec 8) (s : State) : Host.Outcome State Fault Refusal :=
  issued formHandle g n (fun _ =>
    { ok := evenU b.toNat, uses := span b.toNat 2, also := [], writes := [],
      body := fun slot sh s =>
        let la := sh.readUB b.toNat
        let w := (sh.readUB (b.toNat + 1)).toNat
        let target := sliceOf sh.core * 192 + field w 0 8
        if 191 < field w 0 8 || field w 16 16 != 0 then .trap (illegalWord slot) s
        else if (s.slice (sliceOf sh.core)).borrower.isSome then .trap (handleTrap la) s
        else match s.givenBuffer? sh la (field w 8 8) with
          | none => .trap (handleTrap la) s
          | some buffer =>
            let s1 := s.releaseStart slot.sid 1
            if s1.ended slot.sid then .stop s1
            else if s1.handOffReady sh.tid sh.core (localSlot la) buffer then s1.give sh buffer (localSlot la) target x.toNat
            else .wait (.handOff (localSlot la) buffer) s1 }) s

/-- The lowest free handle slot of a core (R214). -/
def Core.freeSlot? (k : Core) : Option Nat :=
  ((List.range 63).map (· + 1)).find? (fun i => (k.front.handles.find? i).isNone)

/-- The arrival that an HRECV takes (R214): the oldest of the tuft's context on the channel. -/
def Parcel.isFor (p : Parcel) (part ctx channel : Nat) : Bool := p.part == part && p.ctx == ctx && p.channel == channel

/-- The first element that meets a test leaves a list. -/
def dropFirst {α : Type} (p : α → Bool) : List α → List α
  | [] => []
  | x :: xs => if p x then xs else x :: dropFirst p xs

/-- HRECV (R214). DESIGN CHOICE (log entry 66): TINFO of the HANDLE trap raised where no slot is free is 0, since HRECV forms no local
address. DESIGN CHOICE (log entry 77): where no slot is free and nothing has arrived, it waits for an arrival first. -/
def execHrecv (g : BitVec 4) (n : BitVec 1) (b x : BitVec 8) (s : State) : Host.Outcome State Fault Refusal :=
  issued formHandle g n (fun _ =>
    { ok := isU b.toNat, uses := [b.toNat], also := [], writes := [],
      body := fun slot sh s =>
        let mine := fun (p : Parcel) => p.isFor (s.partOf sh) (s.ctxOf sh) x.toNat
        match (s.core sh.core).front.parcels.find? mine with
        | none => .wait (.receive x.toNat) s
        | some p =>
          match (s.core sh.core).freeSlot? with
          | none => .trap (handleTrap 0) s
          | some k =>
            let s1 := s.modFront sh.core (fun f =>
              { handles := f.handles.put k { buffer := p.buffer, holder := sh.tid }, parcels := dropFirst mine f.parcels })
            .next ((s1.acquire slot.sid 1).modSheaf slot.sid (fun sh =>
              sh.writeUB b.toNat (BitVec.ofNat 32 (k * 2 ^ 26)) (sh.operandMark b.toNat))) }) s

/-- The status word of HQRY (R214). -/
def State.handleWord (s : State) (sh : Sheaf) (slot : Nat) : Word :=
  if slot == 0 then
    BitVec.ofNat 32 (2 ^ 31 + coreIn sh.core * 2 ^ 16 + (match s.tuft? sh.tid with | some t => t.lsize / 4096 | none => 0) * 2 ^ 8)
  else match s.heldSlot? sh.tid sh.core slot with
    | some h => BitVec.ofNat 32 (2 ^ 31 + coreIn h.buffer.home * 2 ^ 16 + h.buffer.units * 2 ^ 8)
    | none => 0

/-- HQRY (R214). -/
def execHqry (g : BitVec 4) (n : BitVec 1) (b : BitVec 8) (s : State) : Host.Outcome State Fault Refusal :=
  issued formHandle g n (fun _ =>
    { ok := isU b.toNat, uses := [b.toNat], also := [], writes := [],
      body := fun slot sh s =>
        .ofSheaf slot s (sh.writeUB b.toNat (s.handleWord sh (localSlot (sh.readUB b.toNat))) (sh.operandMark b.toNat)) }) s

/-- HDROP (R214). -/
def execHdrop (g : BitVec 4) (n : BitVec 1) (b : BitVec 8) (s : State) : Host.Outcome State Fault Refusal :=
  issued formHandle g n (fun _ =>
    { ok := isU b.toNat, uses := [b.toNat], also := [], writes := [],
      body := fun slot sh s =>
        let la := sh.readUB b.toNat
        match s.heldSlot? sh.tid sh.core (localSlot la) with
        | none => .trap (handleTrap la) s
        | some h =>
          let s1 := s.releaseStart slot.sid 1
          if s1.ended slot.sid then .stop s1
          else if s1.handOffReady sh.tid sh.core (localSlot la) h.buffer then .next (s1.freeHandle sh.core (localSlot la))
          else .wait (.handOff (localSlot la) h.buffer) s1 }) s

end Sys2Proof.Machine
end

