-- ==== Sys2Proof/Machine/Launch.lean ====
section
/-!
DEFINITION. What launch units share: their accesses to memory and the faults these meet (R265, R405), queue headers, kernel
records and errors (R235, R257, R265), the packets and descriptors as they are read (R230 to R232, R260), the end of tufts and
kernels (R215, R234, R236), and whether a core can take a tuft (R27, R238, R239, R264).
-/
namespace Sys2Proof.Machine

/-! ## Accesses of a launch unit (R282, R291, R405) -/

/-- How the translation of a launch unit's access ends: an address with its key; a replayable fault; a page on a SEALED slot
(R318, R319); a migrating page (R284); an access that its home refuses or that meets poison (R291, R338). -/
inductive UnitEnd where
  | ok (t : Trans) (key : Nat)
  | fault (f : SysFault)
  | onSealed (t : Trans) (key : Nat) (f : SysFault)
  | wait
  | dead (code paddr : Nat)
  | far (paddr : Nat)
  deriving DecidableEq, Repr

/-- A fault of a launch unit's access: it expects a reply (R405). -/
def unitFault (code reason : Nat) (va : Addr) (detail : Nat) : SysFault := SysFault.replayable code reason va 0 detail

/-- What keeps a launch unit from a page that translates and whose key slot it may use: a port that carries nothing (R341), its home
(R291). -/
def State.unitReach (s : State) (slice part ctx : Nat) (t : Trans) (ok : UnitEnd) : UnitEnd :=
  if !s.reachable slice t.paddr then .far t.paddr else if !s.ownerOk true part ctx t.paddr then .dead fFillOwner t.paddr else ok

/-- A launch unit's translation of an address in a context, through the slice walker, for a kernel where there is one (R405). A page on a
SEALED slot is told apart before its slot's OWNER is judged (R320). -/
def State.unitPage (s : State) (slice part ctx : Nat) (kid : Option Nat) (va : Addr) (write : Bool) : UnitEnd × State :=
  if !canonical va then (.fault (unitFault fProt rCanon va 0), s)
  else
    match s.walk part ctx slice kid va write with
    | (.stop (.fault code reason x detail), s1) => (.fault (unitFault code reason x detail), s1)
    | (.stop (.memErr pa), s1) => (.dead fMemErr pa, s1)
    | (.stop (.far pa), s1) => (.far pa, s1)
    | (.stop _, s1) => (.wait, s1)
    | (.leaf _ e big, s1) =>
      let t := leafTrans e big va
      let k := s1.keySlot part t.kh
      if k.valid && k.mark == 3 then (.onSealed t k.key (unitFault fKeySlot 0 va t.kh), s1)
      else if !k.valid || (k.owner != ctx && k.owner != 0xFFFF) then (.fault (unitFault fKeySlot 0 va t.kh), s1)
      else if write && !t.w then (.fault (unitFault fProt rWrite va 0), s1)
      else (s1.unitReach slice part ctx t (.ok t k.key), s1)

/-- How a launch unit's read ends: the bytes and the key handles of their pages, or not. -/
inductive UnitRead where
  | ok (bs : List Byte) (khs : List Nat)
  | fault (f : SysFault)
  | onSealed (f : SysFault)
  | wait
  | dead (code paddr : Nat)
  | far (paddr : Nat)
  deriving DecidableEq, Repr

/-- A read of some bytes, page by page (R258, R319): fresh, at the home. SEALED slots are used only where allowed. -/
def State.unitRead (s : State) (slice part ctx : Nat) (kid : Option Nat) (sealedToo : Bool) : Nat → Addr → Nat → List Byte → List Nat → UnitRead × State
  | 0, _, _, bs, khs => (.ok bs khs, s)
  | fuel + 1, va, len, bs, khs =>
    if len == 0 then (.ok bs khs, s)
    else
      let n := min len (65536 - va.toNat % 65536)
      let take := fun (t : Trans) (key : Nat) (s1 : State) =>
        if s1.poisoned t.paddr n then (.dead fMemErr t.paddr, s1)
        else (s1.readLines slice t.paddr t.kh key n).unitRead slice part ctx kid sealedToo fuel (va + BitVec.ofNat 64 n) (len - n)
          (bs ++ s1.viewBytes key t.paddr n) (khs ++ [t.kh])
      let r := s.unitPage slice part ctx kid va false
      match (match r.1 with | .onSealed t key _ => if sealedToo then r.2.unitReach slice part ctx t (.ok t key) else r.1 | x => x) with
      | .ok t key => take t key r.2
      | .onSealed _ _ f => (.onSealed f, r.2)
      | .fault f => (.fault f, r.2)
      | .wait => (.wait, r.2)
      | .dead code pa => (.dead code pa, r.2)
      | .far pa => (.far pa, r.2)

/-- A read of len bytes at an address. -/
def State.unitBytes (s : State) (slice part ctx : Nat) (kid : Option Nat) (sealedToo : Bool) (va : Addr) (len : Nat) : UnitRead × State :=
  s.unitRead slice part ctx kid sealedToo (len / 65536 + 2) va len [] []

/-- A read on a SEALED page by a queue meets KEY_SLOT (R318, R327). -/
def UnitRead.strict : UnitRead → UnitRead
  | .onSealed f => .fault f
  | r => r

/-- How a launch unit's write ends. -/
inductive UnitWrite where
  | done
  | fault (f : SysFault)
  | wait
  | dead (code paddr : Nat)
  | far (paddr : Nat)
  deriving DecidableEq, Repr

/-- A write of bytes that lie in one page: a store, or an atomic, made from the bytes that stand there, which poison stops (R261, R262,
R338). -/
def State.unitWrite (s : State) (slice part ctx : Nat) (kid : Option Nat) (va : Addr) (len : Nat) (atomic : Bool) (f : List Byte → List Byte) :
    UnitWrite × State :=
  match s.unitPage slice part ctx kid va true with
  | (.ok t key, s1) =>
    if atomic && s1.poisoned t.paddr len then (.dead fMemErr t.paddr, s1)
    else
      let new := f (s1.viewBytes key t.paddr len)
      (.done, (s1.putBytes key t.paddr (spread 0 new)).writeLines slice t.paddr t.kh (if atomic then .atomic else .write) new)
  | (.onSealed _ _ f, s1) => (.fault f, s1)
  | (.fault f, s1) => (.fault f, s1)
  | (.wait, s1) => (.wait, s1)
  | (.dead code pa, s1) => (.dead code pa, s1)
  | (.far pa, s1) => (.far pa, s1)

/-! ## Queue entries -/

/-- An entry of a slice's queue table (R255). -/
def State.queue (s : State) (slice entry : Nat) : QueueEntry := (s.slice slice).queues.getD entry QueueEntry.zero

/-- Change an entry. -/
def State.modQueue (s : State) (slice entry : Nat) (f : QueueEntry → QueueEntry) : State :=
  s.modSlice slice (fun x => { x with queues := x.queues.put entry (f (x.queues.getD entry QueueEntry.zero)) })

/-- The context of a queue (R255). -/
def QueueEntry.ctx (q : QueueEntry) : Nat := field q.context.toNat 0 16

/-- The KERNEL field that names a queue-table slot and, where one exists, a record (R405). -/
def queueField (entry record : Nat) : BitVec 64 := BitVec.ofNat 64 (record % 65536 + entry % 256 * 2 ^ 16)

/-- A queue's access that meets a fault waits for the reply (R405); one that meets a migrating page waits without a record
(token 0). -/
def State.holdQueue (s : State) (slice entry : Nat) (f : Option SysFault) (what : LaunchAccess) : State :=
  let q := s.queue slice entry
  match f with
  | none => s.modQueue slice entry (fun q => { q with access := some (0, what) })
  | some f =>
    let kid := match what with | .record kid => some kid | .signal kid => some kid | _ => none
    let field := match kid.bind s.kernel? with | some k => kernelField k | none => queueField entry 0
    let r := s.postSliceFault slice q.part f (.launch slice entry) q.ctx kid field none
    r.2.modQueue slice entry (fun q => { q with access := some (r.1, what) })

/-- A queue's access that no port carries waits under a name of its own (R341, R344). -/
def State.holdFar (s : State) (slice entry paddr : Nat) (what : LaunchAccess) : State :=
  { s with nextId := s.nextId + 1 }.modQueue slice entry (fun q =>
    { q with access := some (0, what), far := some { id := s.nextId, paddr := paddr, tries := 0, page := none } })

/-- A kernel's dispatch waits for a read that no port carries (R341, R344). -/
def State.holdFarKernel (s : State) (kid paddr : Nat) (page : Option Nat) : State :=
  { s with nextId := s.nextId + 1 }.modKernel kid (fun k => { k with far := some { id := s.nextId, paddr := paddr, tries := 0, page := page } })

/-- Such a read still cannot be made. -/
def State.farHeld (s : State) (slice : Nat) (f : Option FarRead) : Bool := f.any (fun x => !s.reachable slice x.paddr)

/-- The 128 bytes of header line 1 (R257): RDIDX, QSTATE with QERR, a zero word, FIDX, zeros. -/
def QueueEntry.line1 (q : QueueEntry) : List Byte :=
  leBytes 8 q.rdidx ++ leBytes 4 (q.state + q.qerr * 2 ^ 8) ++ leBytes 4 0 ++ leBytes 8 q.fidx ++ List.replicate 104 0

/-- QUEUE_FETCH is posted (R265, R334). -/
def State.postQueueFetch (s : State) (slice entry : Nat) : State :=
  let q := s.queue slice entry
  (s.postSliceFault slice q.part { SysFault.ending fQueueFetch 0 q.hdr.toNat with va := q.hdr } .info q.ctx none (queueField entry 0) none).2

/-- The queue error FETCH (R257). -/
def qFetch : Nat := 4
/-- The queue error INDEX (R257). -/
def qIndex : Nat := 1
/-- The queue error BADPACKET (R257). -/
def qBadPacket : Nat := 2
/-- The queue error DEPFAULT (R257). -/
def qDepFault : Nat := 3

/-- An ACTIVE queue moves to ERROR (R265), and its slice's interrupt says so (R301); header line 1 is to be written. DESIGN CHOICE (log
entry 77): a queue that is ERROR or DRAINING already keeps its QERR and FIDX. -/
def State.queueError (s : State) (slice entry err fidx : Nat) (header : Bool) : State :=
  if (s.queue slice entry).state == 1 then
    (s.modQueue slice entry (fun q => { q with state := 2, qerr := err, fidx := fidx, headerDue := q.headerDue || header })).modSlice slice
      (fun x => { x with interrupts := x.interrupts ++ [irqQueue] })
  else s

/-- An access that has ended without success (R265, R405): the queue fails with FETCH and the partition kernel hears of it. A wait or a
SIGNAL whose access it was has ended. DESIGN CHOICE (log entry 67): FIDX, "index of the packet that set QERR", is the head's index, and
RDIDX where no packet is at the head, whichever access it was. -/
def State.abandonAccess (s : State) (slice entry : Nat) (what : LaunchAccess) : State :=
  let q := s.queue slice entry
  let s1 := s.modQueue slice entry (fun q => { q with access := none, far := none })
  let s2 := match what with
    | .record kid => s1.modKernel kid (fun k => { k with recordDue := false })
    | .signal kid => s1.modKernel kid (fun k => { k with signalled := true })
    | .header => s1.modQueue slice entry (fun q => { q with headerDue := false })
    | .target | .signals => s1.modQueue slice entry (fun q => { q with head := none, started := false })
    | .register => (s1.modQueue slice entry (fun q => { q with result := 1 })).refuse slice (0x01000000 + 64 * entry + 0x24)
    | _ => s1
  let fidx := match q.head with | some p => p.index | none => q.rdidx
  (s2.queueError slice entry qFetch fidx (what != .header)).postQueueFetch slice entry

/-- The outcome of a launch unit's access: what to do on success, with the access held or ended otherwise (R405). DESIGN CHOICE (log
entry 67): an access that ends without a reply (FILL_OWNER, MEMERR) does to its queue what ABANDON does. -/
def State.onWrite (r : UnitWrite × State) (slice entry : Nat) (what : LaunchAccess) (next : State → State) : State :=
  match r with
  | (.done, s) => next s
  | (.fault f, s) => s.holdQueue slice entry (some f) what
  | (.wait, s) => s.holdQueue slice entry none what
  | (.far pa, s) => s.holdFar slice entry pa what
  | (.dead code pa, s) =>
    ((s.postSliceFault slice (s.queue slice entry).part (SysFault.ending code 0 pa) .info (s.queue slice entry).ctx none
      (queueField entry 0) none).2).abandonAccess slice entry what

/-- The outcome of a launch unit's read, as that of a write. -/
def State.onRead (r : UnitRead × State) (slice entry : Nat) (what : LaunchAccess) (next : List Byte → State → State) : State :=
  match r with
  | (.ok bs _, s) => next bs s
  | (.onSealed f, s) => s.holdQueue slice entry (some f) what
  | (.fault f, s) => s.holdQueue slice entry (some f) what
  | (.wait, s) => s.holdQueue slice entry none what
  | (.far pa, s) => s.holdFar slice entry pa what
  | (.dead code pa, s) =>
    ((s.postSliceFault slice (s.queue slice entry).part (SysFault.ending code 0 pa) .info (s.queue slice entry).ctx none
      (queueField entry 0) none).2).abandonAccess slice entry what

/-- Header line 1 is written where that is due (R257), with strong stores at SYS scope. -/
def State.writeHeader (s : State) (slice entry : Nat) : State :=
  let q := s.queue slice entry
  if !q.headerDue || q.access.isSome then s
  else
    let r := s.unitWrite slice q.part q.ctx none (addrAdd q.hdr 128) 128 false (fun _ => q.line1)
    State.onWrite r slice entry .header (fun s => s.modQueue slice entry (fun q => { q with headerDue := false }))

/-! ## Kernel records (R235) -/

/-- The code of a kernel state (R235). -/
def KernelState.code : KernelState → Nat
  | .queued => 0 | .dispatching => 1 | .running => 2 | .draining => 3 | .suspended => 4 | .complete => 5 | .faulted => 6

/-- RESIDENT of a kernel's record. -/
def State.residentOf (s : State) (kid : Nat) : Nat := ((s.tuftsOf kid).filter (fun e => e.2.resident)).length
/-- SUSPENDED tufts of a kernel. -/
def State.suspendedOf (s : State) (kid : Nat) : Nat := ((s.tuftsOf kid).filter (fun e => e.2.state == .suspended)).length

/-- The live child kernels that tufts of a kernel launched, ended tufts included (R235). -/
def State.liveChildren (s : State) (kid : Nat) (k : Kernel) : Nat :=
  ((s.ctx k.part k.ctx).children.filter (fun e =>
    e.2.parent == kid && (match s.kernel? e.2.kid with | some c => !c.ended | none => false))).length

/-- The 32 bytes of a kernel record (R235). -/
def State.recordBytes (s : State) (kid : Nat) (k : Kernel) : List Byte :=
  leBytes 4 (k.state.code + k.err % 256 * 2 ^ 8) ++ leBytes 4 0 ++ leBytes 8 k.next ++ leBytes 4 (s.residentOf kid) ++
    leBytes 4 (s.suspendedOf kid) ++ leBytes 4 (s.liveChildren kid k) ++ leBytes 4 0

/-- A kernel's record is written where that is due (R235, R260); a child's state goes to its table entry. -/
def State.writeRecordOf (s : State) (kid : Nat) : State :=
  match s.kernel? kid with
  | none => s
  | some k =>
    let q := s.queue k.slice k.entry
    if !k.recordDue then s
    else if k.child.isSome || !k.recordOk then
      let s1 := s.modKernel kid (fun k => { k with recordDue := false })
      match k.child with | some id => s1.noteChild k.part k.ctx id | none => s1
    else if q.access.isSome then s
    else
      let r := s.unitWrite k.slice k.part k.ctx (some kid) (addrAdd q.recbase (32 * k.record : Nat)) 32 false (fun _ => s.recordBytes kid k)
      State.onWrite r k.slice k.entry (.record kid) (fun s => s.modKernel kid (fun k => { k with recordDue := false }))

/-- A kernel changes and its record follows. -/
def State.noteKernel (s : State) (kid : Nat) (f : Kernel → Kernel) : State :=
  (s.modKernel kid (fun k => { f k with recordDue := true })).writeRecordOf kid

/-- TYPE of a packet (R260). -/
def packetType (bs : List Byte) : Nat := natAt bs 0 1

/-- The newest kernel that a queue's packets started. -/
def State.headKernel? (s : State) (slice entry : Nat) : Option Nat :=
  s.kernels.foldl (fun acc e => if e.2.slice == slice && e.2.entry == entry && e.2.child.isNone then some e.1 else acc) none

/-- A queue's head packet, where it is that of a kernel, ends with the kernel's DRAINING or FAULTED (R261). -/
def State.endHead (s : State) (kid : Nat) : State :=
  match s.kernel? kid with
  | none => s
  | some k =>
    if k.child.isNone && (s.queue k.slice k.entry).started && (s.queue k.slice k.entry).head.any (fun p => packetType p.bytes == 1) &&
        s.headKernel? k.slice k.entry == some kid then
      s.modQueue k.slice k.entry (fun q => { q with head := none, started := false })
    else s

/-- Every kernel a queue started has ended, with its record and signal written. -/
def State.queueQuiet (s : State) (slice entry : Nat) : Bool :=
  s.kernels.all (fun e => e.2.slice != slice || e.2.entry != entry || e.2.child.isSome || (e.2.ended && e.2.signalled && !e.2.recordDue))

/-- A DESTROYED queue whose last write of header line 1 has performed or been skipped leaves its table entry free (R256, R405). -/
def State.freeQueue (s : State) (slice entry : Nat) : State :=
  let q := s.queue slice entry
  if q.state == 4 && q.access.isNone then s.modQueue slice entry (fun q => { q with state := 0, headerDue := false }) else s

/-- A DRAINING queue whose kernels and head have ended is DESTROYED (R265). -/
def State.judgeQueue (s : State) (slice entry : Nat) : State :=
  let q := s.queue slice entry
  let s1 := if q.state == 3 && q.head.isNone && q.access.isNone && s.queueQuiet slice entry then
    (s.modQueue slice entry (fun q => { q with state := 4, headerDue := true })).writeHeader slice entry else s
  s1.freeQueue slice entry

/-- A child kernel that has ended: its launcher's record counts it no more (R235), its entry may be freed, and KWAITs return (R250,
R251). -/
def State.judgeChildOf (s : State) (k : Kernel) : State :=
  match k.child with
  | some id =>
    let s1 := match (s.ctx k.part k.ctx).children.find? id with
      | some c => s.modKernel c.parent (fun k => { k with recordDue := true })
      | none => s
    s1.judgeChild k.part k.ctx id
  | none => s

/-- A kernel that has ended needs no signal: SIGADDR is 0 or malformed (R260). -/
def Kernel.noSignal (k : Kernel) : Bool := k.sigaddr == 0 || !k.signalOk

/-- A kernel becomes COMPLETE or FAULTED (R234); its signal follows. -/
def State.endKernel (s : State) (kid : Nat) (state : KernelState) (err : Nat) : State :=
  match s.kernel? kid with
  | none => s
  | some k =>
    if k.ended then s
    else (((s.endHead kid).noteKernel kid (fun k =>
      { k with state := state, err := err, access := none, prefault := none, signalled := k.noSignal && state == .faulted })).judgeChildOf k).judgeQueue
        k.slice k.entry

/-- A tuft of a DRAINING kernel has ended, or gone: the kernel completes, faults or is SUSPENDED (R234). -/
def State.judgeKernel (s : State) (kid : Nat) : State :=
  match s.kernel? kid with
  | none => s
  | some k =>
    let total := k.nx * k.ny * k.nz
    if k.state != .draining then s
    else if k.next == total && (s.tuftsOf kid).isEmpty then
      s.endKernel kid (if k.lostTuft then .faulted else .complete) (if k.lostTuft then 0xFF else 0)
    else if k.preempt && s.residentOf kid == 0 then s.noteKernel kid (fun k =>
      { k with state := if k.again then .queued else .suspended, stage := if k.again then 0 else k.stage, preempt := false, again := false })
    else s

/-! ## The end of a tuft (R34, R215, R236) -/

/-- A handle slot that a tuft holds, or a buffer of it, is no longer anywhere (R215). -/
def PlaneState.without (p : PlaneState) (tid : Nat) : PlaneState :=
  { handles := p.handles.filter (fun h => h.2.holder != tid && h.2.buffer.origin != tid),
    parcels := p.parcels.filter (fun x => x.buffer.origin != tid) }

/-- A sheaf in HGIVE that waits to post a buffer of a tuft: the buffer is revoked, and there is nothing left to post (R215). -/
def Sheaf.revoke (sh : Sheaf) (tid : Nat) : Sheaf :=
  match sh.wait with
  | some w => match w.kind with
    | .post _ _ b => if b.origin == tid then { sh with wait := some { w with done := some 0 } } else sh
    | _ => sh
  | none => sh

/-- The handles and arrivals that a tuft's end takes away (R215). -/
def State.dropHandles (s : State) (tid : Nat) : State :=
  { s with
    cores := s.cores.map (fun e => (e.1, { e.2 with front := e.2.front.without tid, back := e.2.back.without tid }))
    sheaves := s.sheaves.map (fun e => (e.1, e.2.revoke tid)) }

/-- Collective commands of a tuft that are discarded (R351), all or only those that have not joined: they keep their places, failed with
PEER, and no longer speak for any tag. -/
def State.dropColls (s : State) (tid : Nat) (all : Bool) : State :=
  { s with slices := s.slices.map (fun e => (e.1, { e.2 with colls := e.2.colls.map (fun c =>
      if c.tid == tid && (all || !c.joined) then { c with failed := some 10 } else c) })) }

/-- The sheaves of a tuft leave their slots, with their victim tags (R33, R244). -/
def State.freeSheaves (s : State) (t : Tuft) : State :=
  let slots := (s.sheavesOf t).map (fun x => x.2.slotNo)
  let s1 := s.modCore t.core (fun k => { k with victims := k.victims.filter (fun v => !slots.contains v.2) })
  { s1 with sheaves := s1.sheaves.reject (fun sid _ => t.sheaves.contains sid) }

/-- Children of a tuft that has ended (R250). -/
def State.orphanChildren (s : State) (tid part ctx : Nat) : State :=
  let mine := (s.ctx part ctx).children.filter (fun e => e.2.launcher == tid)
  let s1 := s.modCtx part ctx (fun x => { x with children := x.children.map (fun e => if e.2.launcher == tid then (e.1, { e.2 with ended := true }) else e) })
  s1.forEach mine (fun s e => s.judgeChild part ctx e.1)

/-- A tuft is gone: its slots, handles and entries are free (R34, R215, R236, R267). -/
def State.removeTuft (s : State) (tid : Nat) : State :=
  match s.tuft? tid with
  | none => s
  | some t =>
    let s0 := if t.resident then s.traceTuft t 3 (payload2 t.index (match s.kernel? t.kid with | some k => k.number | none => 0)) else s
    let s1 := (s0.dropHandles tid).freeSheaves t
    let s2 := s1.modCore t.core (fun k => { k with copies := k.copies.filter (fun c => c.tid != tid) })
    let s3 := { s2 with tufts := s2.tufts.drop tid }
    match s3.kernel? t.kid with
    | some k => s3.orphanChildren tid k.part k.ctx
    | none => s3

/-- A tuft is discarded (R236, R335): unsent writes and commands go with it. -/
def State.discardTuft (s : State) (tid : Nat) : State :=
  match s.tuft? tid with
  | none => s
  | some t =>
    (((s.dropColls tid true).removeTuft tid).noteKernel t.kid (fun k => { k with lostTuft := true })).judgeKernel t.kid

/-- A kernel is discarded (R234): every tuft of it ends, and it is FAULTED with ERR 0xFF. -/
def State.discardKernel (s : State) (kid : Nat) : State :=
  match s.kernel? kid with
  | none => s
  | some k =>
    if k.ended then s
    else
      let s1 := s.forEach (s.tuftsOf kid) (fun s e => (s.dropColls e.1 true).removeTuft e.1)
      s1.endKernel kid .faulted 0xFF

/-- The sheaves of a tuft that still run, by sheaf slot: the order in which their faults are recorded (R337). -/
def State.runningOf (s : State) (tid : Nat) : List (Nat × Sheaf) :=
  match s.tuft? tid with
  | some t =>
    let xs := (s.sheavesOf t).filter (fun x => !x.2.hasExited && !x.2.hasFaulted)
    (xs.foldl (fun (m : Map (Nat × Sheaf)) x => m.put x.2.slotNo x) []).map Prod.snd
  | none => []

/-- The record of a fault for each of some sheaves (R333). -/
def State.recordFaults (s : State) (xs : List (Nat × Sheaf)) (code reason detail : Nat) : State :=
  xs.foldl (fun s x => (s.postSheafFault x.1 (slotAt x.1 0) { SysFault.ending code x.2.live detail with reason := reason } .info).2) s

/-- Every sheaf of a tuft that is not EXITED becomes FAULTED, with one record (R240, R307, R311). -/
def State.faultTuft (s : State) (tid code reason detail : Nat) : State :=
  let live := s.runningOf tid
  live.foldl (fun s x => s.faultSheaf x.1) (s.recordFaults (live.take 1) code reason detail)

/-- An uncorrectable error in core state (R338): every sheaf of the tuft becomes FAULTED with MEMERR, one record each by sheaf slot (R337). -/
def State.breakTuft (s : State) (tid : Nat) : State :=
  let live := s.runningOf tid
  live.foldl (fun s x => s.faultSheaf x.1) (s.recordFaults live fMemErr 0 0)

/-! ## Packets (R28, R260) -/

/-- The error codes of a refused kernel (R233, R260). -/
def errGrid : Nat := 16
/-- BADPACKET (R260). -/
def errPacket : Nat := 17
/-- BIND (R260). -/
def errBind : Nat := 18

/-- An address field of a packet: canonical and aligned. -/
def addrOk (a : Addr) (align : Nat) : Bool := canonical a && a.toNat % align == 0

/-- The 64-bit field at an offset of some bytes. -/
def addrAt (bs : List Byte) (d : Nat) : Addr := BitVec.ofNat 64 (natAt bs d 8)

/-- FENCE (R260). -/
def packetFence (bs : List Byte) : Bool := field (natAt bs 0 4) 8 1 == 1
/-- POISON (R260). -/
def packetPoison (bs : List Byte) : Bool := field (natAt bs 0 4) 9 1 == 1
/-- NWAIT (R260). -/
def packetNwait (bs : List Byte) : Nat := field (natAt bs 0 4) 16 3
/-- RECORD of a KERNEL packet (R260). -/
def packetRecord (bs : List Byte) : Nat := natAt bs 0x30 4

/-- The CTRL word keeps the rules common to every type (R260). -/
def ctrlOk (bs : List Byte) (waits : Bool) : Bool :=
  let c := natAt bs 0 4
  field c 19 13 == 0 && field c 10 6 == 0 &&
    (if waits then decide (1 ≤ field c 16 3) && decide (field c 16 3 ≤ 6) else field c 16 3 == 0 && field c 9 1 == 0)

/-- The grid of a KERNEL packet keeps R28. -/
def gridOk (bs : List Byte) : Bool :=
  let x := natAt bs 4 4
  let y := natAt bs 8 4
  let z := natAt bs 12 4
  decide (1 ≤ x) && decide (1 ≤ y) && decide (1 ≤ z) && decide (x * y * z < 2 ^ 48)

/-- SIGADDR is sound: 0, or canonical and 8-aligned (R260). -/
def signalSound (bs : List Byte) : Bool := addrOk (addrAt bs 0x20) 8

/-- The packet checks of a KERNEL packet other than the grid's (R260); records is the number of records its area holds. -/
def kernelPacketOk (bs : List Byte) (records : Nat) : Bool :=
  ctrlOk bs false && addrOk (addrAt bs 0x10) 256 && addrOk (addrAt bs 0x18) 128 && signalSound bs &&
    decide (packetRecord bs < records) && zeroAt bs 0x34 12

/-- The checks of the other packets (R260). -/
def otherPacketOk (bs : List Byte) : Bool :=
  match packetType bs with
  | 2 | 3 =>
    ctrlOk bs true && zeroAt bs 4 4 &&
      (List.range 6).all (fun j => if j < packetNwait bs then addrOk (addrAt bs (0x10 + 8 * j)) 8 else zeroAt bs (0x10 + 8 * j) 8)
  | 4 => ctrlOk bs false && decide (natAt bs 4 4 < 2) && addrOk (addrAt bs 8) 8 && zeroAt bs 0x18 40
  | 5 | 6 => ctrlOk bs false && decide (natAt bs 4 4 < 64) && zeroAt bs 8 56
  | 7 => ctrlOk bs false && zeroAt bs 4 60
  | _ => false

/-- The kernel that a KERNEL packet asks for, QUEUED (R234, R260). -/
def kernelOfPacket (bs : List Byte) (slice entry : Nat) (child : Option Nat) (part ctx prio : Nat) : Kernel :=
  { slice := slice, entry := entry, record := packetRecord bs, child := child, part := part, ctx := ctx, prio := prio,
    nx := natAt bs 4 4, ny := natAt bs 8 4, nz := natAt bs 12 4, descAt := addrAt bs 0x10, bindtab := addrAt bs 0x18,
    sigaddr := addrAt bs 0x20, sigval := BitVec.ofNat 64 (natAt bs 0x28 8), signalOk := signalSound bs, recordOk := true,
    desc := Desc.zero, ranges := [], gmap := [], windows := [], state := .queued, err := 0, next := 0, list := [], stage := 0,
    extents := [], img := [], bound := false, preempt := false, lostTuft := false, signalled := false, recordDue := false,
    prefault := none, resolved := [], cores := [], access := none, again := false }

/-! ## Descriptors (R230, R231) -/

/-- A descriptor as its 256 bytes give it (R230). -/
def descOfBytes (bs : List Byte) : Desc :=
  { code := addrAt bs 0, trapent := addrAt bs 8, rolemap := addrAt bs 0x10, lstkbase := addrAt bs 0x18, savebase := addrAt bs 0x20,
    lstksheaf := natAt bs 0x28 4, saveb := natAt bs 0x2C 4, nstk := natAt bs 0x30 4, runmax := natAt bs 0x34 4,
    geom := BitVec.ofNat 32 (natAt bs 0x38 4), modew := BitVec.ofNat 32 (natAt bs 0x3C 4), rangetab := addrAt bs 0x40,
    nrange := natAt bs 0x48 4, ngroup := natAt bs 0x4C 4, grouptab := addrAt bs 0x50, codelen := natAt bs 0x58 4,
    pwsize := (List.range 8).map (fun i => natAt bs (0x60 + 4 * i) 4),
    ringtab := (List.range 16).map (fun i => BitVec.ofNat 32 (natAt bs (0x80 + 4 * i) 4)),
    reservedOk := zeroAt bs 0x5C 4 && zeroAt bs 0xC0 64 && field (natAt bs 0x3C 4) 24 8 == 0 && field (natAt bs 0x3C 4) 6 2 == 0 }

/-- The sheaf count (R231). -/
def Desc.sheaves (d : Desc) : Nat := field d.geom.toNat 0 5 + 1
/-- VSTACK (R38, R231). -/
def Desc.vstack (d : Desc) : Nat := 64 * field d.geom.toNat 5 3
/-- LSTORE in 4 KB units (R231). -/
def Desc.lstore (d : Desc) : Nat := field d.geom.toNat 8 8
/-- TILES (R231). -/
def Desc.tiles (d : Desc) : Nat := field d.geom.toNat 16 4
/-- TAGS (R231). -/
def Desc.tags (d : Desc) : Nat := field d.geom.toNat 20 7
/-- RINGS (R231). -/
def Desc.rings (d : Desc) : Nat := field d.geom.toNat 27 5
/-- MODE of every sheaf (R49, R231). -/
def Desc.mode (d : Desc) : Word := BitVec.ofNat 32 (field d.modew.toNat 0 4)
/-- LMODE (R231). -/
def Desc.lmode (d : Desc) : Nat := field d.modew.toNat 4 2
/-- LGRAN (R231). -/
def Desc.lgran (d : Desc) : Nat := field d.modew.toNat 8 8

/-- The role of a sheaf index (R30). -/
def Desc.role (d : Desc) (i : Nat) : Role :=
  match field d.rolemap.toNat (2 * i) 2 with
  | 0 => .general
  | 1 => .stage
  | 2 => .matrix
  | _ => .vector

/-- The indices of a tuft's sheaves. -/
def Desc.indices (d : Desc) : List Nat := List.range d.sheaves
/-- The MATRIX sheaves (R32). -/
def Desc.quartet (d : Desc) : List Nat := d.indices.filter (fun i => d.role i == .matrix)
/-- Q of R267. -/
def Desc.q (d : Desc) : Nat := if d.quartet.isEmpty then 0 else 1
/-- The local store that a tuft takes: allotment and ring storage (R209, R238). -/
def Desc.storeBytes (d : Desc) : Nat := 4096 * d.lstore + 256 * d.rings
/-- The group-table entries that a tuft takes (R267). -/
def Desc.groupEntries (d : Desc) : Nat := 1 + d.ngroup + d.q

/-- The sheaves of a tuft on a quadrant (R27). -/
def Desc.onQuadrant (d : Desc) (q : Nat) : Nat := (d.indices.filter (fun i => i % 4 == q)).length

/-! ## Cores that can take a tuft (R27, R238, R239, R264) -/

/-- LSPLIT of a core in bytes (R241). -/
def Core.storeSize (k : Core) : Nat := 65536 * field k.lsched.toNat 24 4

/-- The tufts that stand in the front plane of a core. -/
def State.tuftsOn (s : State) (core : Nat) : List (Nat × Tuft) := s.tufts.filter (fun e => e.2.core == core && e.2.resident && !e.2.parked)

/-- The local store that a resident tuft takes: from its first byte, allotment and rings. -/
def Tuft.storeEnd (t : Tuft) : Nat := t.lbase + t.lsize + 256 * t.rings.length

/-- The lowest place in a core's local store where a number of bytes is free (R238). -/
def State.storePlace? (s : State) (core bytes : Nat) : Option Nat :=
  let ts := (s.tuftsOn core).map Prod.snd
  let free := fun (a : Nat) => decide (a + bytes ≤ (s.core core).storeSize) && ts.all (fun t => decide (a + bytes ≤ t.lbase) || decide (t.storeEnd ≤ a))
  (0 :: ts.map Tuft.storeEnd).foldl (fun acc a => if free a then (match acc with | none => some a | some b => some (min a b)) else acc) none

/-- The lowest place among a core's 64 tags where a number of consecutive tags is free (R206). -/
def State.tagPlace? (s : State) (core n : Nat) : Option Nat :=
  let ts := (s.tuftsOn core).map Prod.snd
  (List.range 65).find? (fun a => decide (a + n ≤ 64) && ts.all (fun t => decide (a + n ≤ t.tbase) || decide (t.tbase + t.tags.length ≤ a)))

/-- A resource summed over the tufts of a core. -/
def State.usedOn (s : State) (core : Nat) (f : Tuft → Nat) : Nat := (s.tuftsOn core).foldl (fun n e => n + f e.2) 0

/-- The tiles that a tuft takes on each quadrant. -/
def State.tilesOfTuft (s : State) (t : Tuft) : Nat := match s.kernel? t.kid with | some k => k.desc.tiles | none => 0

/-- The sheaves of the front plane of a core on a quadrant. -/
def State.onQuadrant (s : State) (core q : Nat) : List Sheaf :=
  (s.tuftsOn core).flatMap (fun e => ((s.sheavesOf e.2).filter (fun x => x.2.idx % 4 == q)).map Prod.snd)

/-- A core has the resources of R27 for a tuft of a descriptor. -/
def State.coreFits (s : State) (core : Nat) (d : Desc) : Bool :=
  (List.range 4).all (fun q =>
    let there := s.onQuadrant core q
    decide (there.length + d.onQuadrant q ≤ 16) &&
      decide (there.foldl (fun n sh => n + sh.vstack) 0 + d.vstack * d.onQuadrant q ≤ 1024)) &&
  (s.storePlace? core d.storeBytes).isSome &&
  (s.tagPlace? core d.tags).isSome &&
  decide (s.usedOn core s.tilesOfTuft + d.tiles ≤ 8) &&
  decide (s.usedOn core (fun t => t.groups.length) + d.groupEntries ≤ 256)

/-- U of a slice's URGENT (R304). -/
def Slice.reserved (x : Slice) : Nat := x.urgent % 256

/-- A core is reserved for urgent work (R264). -/
def State.coreReserved (s : State) (core : Nat) : Bool := decide (192 - (s.slice (sliceOf core)).reserved ≤ coreIn core)

/-- The slices over which a partition places tufts, in list order (R238, R307). DESIGN CHOICE (log entry 77): its own that are not lent,
and those it borrows, merged by slice number. -/
def State.placeList (s : State) (part : Nat) : List Nat :=
  match s.part? part with
  | none => []
  | some p =>
    let own := p.slices.filter (fun sl => (s.slice sl).borrower.isNone)
    let lent := (s.slices.filter (fun e => e.2.borrower == some part && !e.2.recalled)).map Prod.fst
    ((own ++ lent).foldl (fun (m : Map Unit) x => m.put x ()) []).keys

/-- A slice takes tufts of a kernel (R238, R307, R310, R311): one of the kernel's partition that is not draining or lost, a lent one for its
borrower's short ones only. -/
def State.sliceTakes (s : State) (slice : Nat) (k : Kernel) : Bool :=
  let x := s.slice slice
  !x.draining && !x.lost && !x.recalled &&
    (match x.borrower with
     | some b => b == k.part && decide (0 < k.desc.runmax) && decide (k.desc.runmax < 1000 * x.deadline)
     | none => x.owner == some k.part)

/-- REPLAY of a kernel (R239). -/
def Kernel.replay (k : Kernel) : Bool := modeReplay k.desc.mode

/-- The core that REPLAY gives a tuft (R239), over a slice list with reserved counts. -/
def Kernel.mappedCore? (k : Kernel) (list : List (Nat × Nat)) (t : Nat) : Option Nat :=
  let l := if k.prio == 0 then list.filter (fun e => e.2 != 0) else list
  match l[t % l.length]? with
  | some (sl, u) => some (sl * 192 + (if k.prio == 0 then 191 - t / l.length % u else t / l.length % 192))
  | none => none

/-- A slice that leaves a partition leaves the lists of its kernels, for good (R239). -/
def State.leaveLists (s : State) (part slice : Nat) : State :=
  { s with kernels := s.kernels.map (fun e => if e.2.part == part then (e.1, { e.2 with list := e.2.list.filter (fun x => x.1 != slice) }) else e) }

/-- A core serves a kernel's priority (R238, R264): urgent work on reserved cores, other work on the others. -/
def State.coreServes (s : State) (core : Nat) (k : Kernel) : Bool := if k.prio == 0 then s.coreReserved core else !s.coreReserved core

/-- The cores of a slice in ascending order. -/
def coresOf (slice : Nat) : List Nat := (List.range 192).map (fun c => slice * 192 + c)

/-- A core takes a tuft of a kernel (R238), apart from frame and quota: before the kernel's first tuft there nothing keeps the
invalidation of its L1 back (R228). -/
def State.coreTakes (s : State) (core : Nat) (k : Kernel) : Bool :=
  s.sliceTakes (sliceOf core) k && s.coreFits core k.desc && (k.cores.contains core || (s.scopeBlocked? core k.part 4).isNone)

/-- The slices of a list in round-robin order from a position (R238). -/
def fromPosition (list : List Nat) (pos : Nat) : List Nat := list.filter (fun x => pos ≤ x) ++ list.filter (fun x => x < pos)

/-- A slice leaves the list over which a partition places tufts: a round-robin position that names it names the slice that followed it
(R238). -/
def State.passSlice (s : State) (part slice : Nat) : State :=
  let list := (s.placeList part).filter (fun x => x != slice)
  s.forEach (match s.part? part with | some p => p.slices | none => []) (fun s x =>
    s.modSlice x (fun y => if y.position == slice then { y with position := (fromPosition list slice).headD slice } else y))

/-- The lowest frame of a kernel that no tuft holds (R237). -/
def State.freeFrame? (s : State) (kid : Nat) (k : Kernel) : Option Nat :=
  let held := ((s.tuftsOf kid).filter (fun e => e.2.resident || e.2.state == .suspended)).map (fun e => e.2.frame)
  (List.range (min k.desc.nstk (held.length + 1))).find? (fun f => !held.contains f)

/-- The tufts charged to a context (R236). -/
def State.chargedTufts (s : State) (part ctx : Nat) : Nat :=
  (s.tufts.filter (fun e => (e.2.resident || e.2.state == .suspended) &&
    (match s.kernel? e.2.kid with | some k => k.part == part && k.ctx == ctx | none => false))).length

/-- New tufts of a context may be placed (R313). -/
def State.ctxActive (s : State) (part ctx : Nat) : Bool := (s.ctx part ctx).state == .active && !(s.ctx part ctx).ending

/-- A suspended tuft of a kernel is saved soundly: a reload of it comes before the kernel's new tufts (R235). -/
def Tuft.saved (t : Tuft) : Bool := t.state == .suspended && t.image.isSome

/-- A kernel may place a tuft, as far as context, quota and pre-emption go (R234, R236, R238, R313). -/
def State.mayPlace (s : State) (k : Kernel) : Bool :=
  (k.state == .running || k.state == .draining) && !k.preempt && s.ctxActive k.part k.ctx &&
    decide (s.chargedTufts k.part k.ctx < (s.ctx k.part k.ctx).qtuft)

/-- The tuft to place next (R238): one that returned to PENDING with its RESUME, in grid order, else the one of NEXT. -/
def State.nextTuft? (s : State) (kid : Nat) (k : Kernel) : Option (Option Nat × Nat) :=
  let back := (s.tuftsOf kid).filter (fun e => e.2.state == .pending && e.2.resumed)
  match back.foldl (fun acc e => match acc with
      | none => some e
      | some b => if e.2.index < b.2.index then some e else acc) (none : Option (Nat × Tuft)) with
  | some e => some (some e.1, e.2.index)
  | none => if k.state == .running && k.next < k.nx * k.ny * k.nz then some (none, k.next) else none

/-- The cores to which an urgent REPLAY kernel's next tuft is mapped and could be placed now: that tuft goes first there (R239, R264). -/
def State.urgentCores (s : State) : List Nat :=
  s.kernels.filterMap (fun e =>
    if e.2.prio == 0 && e.2.replay && s.mayPlace e.2 && (s.freeFrame? e.1 e.2).isSome then
      (s.nextTuft? e.1 e.2).bind (fun t => (e.2.mappedCore? e.2.list t.2).filter (fun c => s.coreTakes c e.2))
    else none)

/-- The first core, in round-robin order over the slices and in ascending order in each, that serves a kernel and takes its tuft
(R238). -/
def State.anyCore? (s : State) (k : Kernel) : Option Nat :=
  let urgent := if k.prio == 0 then [] else s.urgentCores
  (fromPosition (s.placeList k.part) (s.slice k.slice).position).findSome? (fun sl =>
    (coresOf sl).find? (fun c => s.coreServes c k && s.coreTakes c k && !urgent.contains c))

/-- The core for a kernel's tuft of an index (R238, R239), if one can take it. Under REPLAY it is the mapped one, which an urgent kernel
keeps whatever U becomes. -/
def State.coreFor? (s : State) (k : Kernel) (index : Nat) : Option Nat :=
  if k.replay then
    (k.mappedCore? k.list index).filter (fun c => s.coreTakes c k && (k.prio == 0 || (s.coreServes c k && !s.urgentCores.contains c)))
  else s.anyCore? k

/-- The core for a tuft that is reloaded (R248): any that R238 allows, under REPLAY as well; an urgent one also the core mapped to it. -/
def State.reloadCore? (s : State) (k : Kernel) (index : Nat) : Option Nat :=
  match s.anyCore? k with
  | some c => some c
  | none => if k.replay then s.coreFor? k index else none

/-- The kernels charged to a context's queued-kernel quota, each from its fetch (R264). -/
def State.chargedKernels (s : State) (part ctx : Nat) : Nat :=
  (s.kernels.filter (fun e => e.2.part == part && e.2.ctx == ctx && e.2.child.isNone && !e.2.ended)).length

end Sys2Proof.Machine
end

