-- ==== Sys2Proof/Machine/Layout.lean ====
section
/-!
DEFINITION. The layout of partitions (R299, R302, R305 to R308): which slices connect, windows, how a slice enters and leaves a
partition, and the end of a REMOVE.
-/
namespace Sys2Proof.Machine

/-! ## Slices and windows -/

/-- Two slices of a package are neighbours in the 2 × 4 mesh (R299); slice = 4 × row + column (log entry 24). -/
def meshNeighbours (a b : Nat) : Bool :=
  let ra := sliceIn a / 4
  let rb := sliceIn b / 4
  let ca := sliceIn a % 4
  let cb := sliceIn b % 4
  packageOf a == packageOf b && ((ra == rb && (ca + 1 == cb || cb + 1 == ca)) || (ca == cb && ra != rb))

/-- The slices that some slices reach in a number of steps through a list. -/
def meshReach (all : List Nat) : Nat → List Nat → List Nat
  | 0, got => got
  | fuel + 1, got => meshReach all fuel (all.filter (fun x => got.contains x || got.any (meshNeighbours x)))

/-- The slices of one package are connected (R299). -/
def meshConnected (l : List Nat) : Bool :=
  match l with
  | [] => true
  | x :: _ => l.all (fun y => (meshReach l 8 [x]).contains y)

/-- The packages of some slices. -/
def packagesOf (slices : List Nat) : List Nat := (slices.map packageOf).eraseDups

/-- A list of slices may be a partition's (R299): connected in each package. -/
def layoutOk (slices : List Nat) : Bool := (packagesOf slices).all (fun p => meshConnected (slices.filter (fun x => packageOf x == p)))

/-- Two windows of a package do not meet. -/
def windowsApart (a n b m : Nat) : Bool := decide (a + 2 ^ 37 * n ≤ b) || decide (b + 2 ^ 37 * m ≤ a)

/-- A window in a package is aligned, below 1 TB, and meets no other partition's (R302). -/
def State.windowFree (s : State) (part pkg base count : Nat) : Bool :=
  base % 2 ^ 37 == 0 && decide (base + 2 ^ 37 * count ≤ 2 ^ 40) &&
    s.parts.all (fun e => e.1 == part || e.2.state == .dissolved ||
      (match e.2.memBase.find? pkg with | some b => windowsApart base count b (e.2.slicesIn pkg).length | none => true))

/-- A window base for a package that a partition enters with one slice: the lowest that is free. -/
def State.newBase? (s : State) (part pkg : Nat) : Option Nat := ((List.range 8).map (fun i => 2 ^ 37 * i)).find? (fun b => s.windowFree part pkg b 1)

/-- A slice belongs to no partition (R299). -/
def State.sliceFree (s : State) (slice : Nat) : Bool := (s.slice slice).owner.isNone && (s.slice slice).borrower.isNone && !(s.slice slice).lost

/-- The cores of a slice stand as both planes are scrubbed, with nothing cached (R309). -/
def State.scrubCores (s : State) (slice : Nat) : State := { s with cores := s.cores.reject (fun c _ => sliceOf c == slice) }

/-! ## Where bytes stand in HBM (R302)

Memory is kept by physical address. What stands in the HBM of a slice that no partition owns is kept by slice and location, above every
physical address, until a partition's window covers it again. -/

/-- The key under which memory keeps a location of a slice that no partition owns. -/
def hbmKey (slice loc : Nat) : Nat := 2 ^ 53 + slice * 2 ^ 37 + loc

/-- The location, as a key, that backs a physical address of a partition's window (R302). -/
def Partition.hbmOf (p : Partition) (paddr : Nat) : Option Nat :=
  let pkg := paddr / 2 ^ 42
  let o := paddr % 2 ^ 42
  let lk := p.slicesIn pkg
  match p.memBase.find? pkg with
  | none => none
  | some base =>
    if paddr < 2 ^ 52 && base ≤ o && o < base + 2 ^ 37 * lk.length then
      let g := (o - base) / 4096
      (lk[g % lk.length]?).map (fun sl => hbmKey sl (g / lk.length * 4096 + o % 4096))
    else none

/-- The physical address of a partition's window that a location backs (R302). -/
def Partition.ofHbm (p : Partition) (key : Nat) : Option Nat :=
  let sl := (key - 2 ^ 53) / 2 ^ 37
  let loc := (key - 2 ^ 53) % 2 ^ 37
  let pkg := packageOf sl
  let lk := p.slicesIn pkg
  if key < 2 ^ 53 then none
  else match p.memBase.find? pkg, lk.findIdx? (· == sl) with
    | some base, some i => some (pkg * 2 ^ 42 + base + (loc / 4096 * lk.length + i) * 4096 + loc % 4096)
    | _, _ => none

/-- Sectors move to other keys: what the HBM holds of them, ciphertext where they were written under a key, is not changed (R302, R306). -/
def State.moveMemory (s : State) (f : Nat → Option Nat) : State :=
  let secs := (s.mem.map (fun (e : Host.Cell) => e.1 / 32) ++ s.keyOf.keys).eraseDups
  let cells := secs.filterMap (fun n => (f (32 * n)).map (fun a => (a, s.cipherSector n)))
  { s with
    mem := cells.foldl (fun m (c : Nat × List Byte) => (List.range 32).foldl (fun m i => memPut m (c.1 + i) (c.2.getD i 0)) m) (s.mem.filter (fun (e : Host.Cell) => (f e.1).isNone)),
    keyOf := s.keyOf.reject (fun n _ => (f (32 * n)).isSome),
    poison := s.poison.map (fun n => match f (32 * n) with | some a => a / 32 | none => n),
    cache := s.cache.reject (fun l _ => (f (128 * l)).isSome) }

/-- The top 128 GB of a partition's window in a package, where a slice enters or leaves. DESIGN CHOICE (log entry 75): the slice's HBM
stands there, location by location; a rule names no contents for it. -/
def Partition.top (p : Partition) (pkg : Nat) : Nat := pkg * 2 ^ 42 + p.memBase.getD pkg 0 + 2 ^ 37 * ((p.slicesIn pkg).length - 1)

/-- A slice's HBM becomes the top of a partition's window, its list holding the slice. -/
def State.bringTop (s : State) (p : Partition) (slice : Nat) : State :=
  s.moveMemory (fun a => if hbmKey slice 0 ≤ a && a < hbmKey (slice + 1) 0 then some (p.top (packageOf slice) + (a - hbmKey slice 0)) else none)

/-- The top of a partition's window becomes the HBM of a slice that leaves, its list holding the slice. -/
def State.leaveTop (s : State) (p : Partition) (slice : Nat) : State :=
  let top := p.top (packageOf slice)
  s.moveMemory (fun a => if top ≤ a && a < top + 2 ^ 37 then some (hbmKey slice (a - top)) else none)

/-! ## Ports (R340, R341) -/

/-- The code of a port state in LSTAT (R340). -/
def PortState.code : PortState → Nat
  | .down => 0
  | .training => 1
  | .keying => 2
  | .up => 3
  | .degraded => 4
  | .fenced => 5
  | .failed => 6

/-- A port carries packets (R341). -/
def Port.carries (p : Port) : Bool := p.state == .up || p.state == .degraded

/-- A port changes; a change of state is a link event (R341, R399). -/
def State.modPort (s : State) (slice : Nat) (f : Port → Port) : State :=
  let old := (s.slice slice).port
  let new := f old
  let s1 := s.modSlice slice (fun x => { x with port := new })
  if new.state == old.state then s1
  else match (s.slice slice).owner with
    | some part => s1.trace slice part 10 255 0 0 (new.state.code + new.txUp * 2 ^ 32 + new.rxUp * 2 ^ 64) false
    | none => s1

/-- Fence by Campion (R341). -/
def Port.fence (p : Port) : Port := if p.carries then { p with state := .fenced } else p

/-- A fence drops the transactions in flight of the slice's cores over its port (R354): they fail at their timeouts. -/
def State.dropInFlight (s : State) (slice : Nat) : State :=
  { s with
    msgs := s.msgs.map (fun m => if sliceOf m.core == slice && remoteOf slice m.paddr then { m with tries := 3 } else m),
    sheaves := s.sheaves.map (fun (e : Nat × Sheaf) =>
      if sliceOf e.2.core == slice then
        (e.1, { e.2 with pend := e.2.pend.map (fun p => if !p.bound && p.source.any (fun x => remoteOf slice x.paddr) then { p with tries := 3 } else p) })
      else e) }

/-- A port is fenced, and what crossed it is dropped (R341, R354). -/
def State.fencePort (s : State) (slice : Nat) : State :=
  if (s.slice slice).port.carries then (s.dropInFlight slice).modPort slice Port.fence else s

/-! ## A slice changes hands -/

/-- A slice changes hands: its port is fenced (R341), its control blocks stand at their reset values but for port, power and the counters that no partition
clears (R300, R304, R396; log entry 25). -/
def State.handSlice (s : State) (slice : Nat) (owner : Option Nat) : State :=
  ((s.fencePort slice).modSlice slice (fun x =>
    { Slice.reset with owner := owner, port := x.port, islands := x.islands, errors := x.errors, drops := x.drops, lost := x.lost,
                       offline := x.offline, position := slice })).scrubCores slice

/-! ## Answers of the mailbox (R301, R305) -/

/-- LAYOUT (R305), as the mailbox answers it. -/
def mailLayout : Nat := 1
/-- BUSY (R305). -/
def mailBusy : Nat := 2
/-- REG_REFUSED (R358). -/
def mailRefused : Nat := 3

/-- Campion answers a request of a partition (R301, R305): 0 done. -/
def State.answerMail (s : State) (part code : Nat) : State :=
  (s.modPart part (fun p => { p with mailbox := p.mailbox ++ [code] })).modSlice (match s.part? part with | some p => p.slices.headD 0 | none => 0)
    (fun x => { x with interrupts := x.interrupts ++ [irqMailbox] })

/-- The layout sequence of a partition rises (R359). -/
def State.raiseLseq (s : State) (part : Nat) : State := s.modPart part (fun p => { p with lseq := p.lseq + 1 })

/-! ## The end of a REMOVE (R307) -/

/-- The frames of a partition outside its windows leave the ownership table (R290, R307). -/
def State.trimFrames (s : State) (part : Nat) : State :=
  { s with frames := s.frames.reject (fun f w => field w.toNat 16 10 == part && s.windowWord (65536 * f) == 0) }

/-- Granules of a lost slice are rehomed, still poisoned (R338). -/
def State.rehomeLost (s : State) (pkg base : Nat) : State :=
  { s with lostSets := s.lostSets.map (fun x => if x.package == pkg && x.base == base then { x with rehomed := true } else x) }

/-- The slice leaves: the window shrinks by its top 128 GB, every granule is rehomed under the shortened list, and firewall and
ownership table follow (R307, R308). -/
def State.finishRemove (s : State) (part slice : Nat) : State :=
  let pkg := packageOf slice
  match s.part? part with
  | none => s
  | some p =>
    let rest := p.slices.filter (fun x => x != slice)
    let base := p.memBase.getD pkg 0
    let s1 := (s.leaveTop p slice).setPart part
      { p with slices := rest, ports := p.ports.filter (fun x => x != slice), request := none, state := .running, lseq := p.lseq + 1,
               memBase := if rest.any (fun x => packageOf x == pkg) then p.memBase else p.memBase.drop pkg }
    (((((s1.handSlice slice none).leaveLists part slice).passSlice part slice).rehomeLost pkg base).trimFrames part).answerMail part 0

/-- No tuft stands on a slice. -/
def State.sliceEmpty (s : State) (slice : Nat) : Bool := s.tufts.all (fun e => !(e.2.resident && sliceOf e.2.core == slice))

/-- A slice that a REMOVE takes is drained (R307); that of a lost slice skips the drain (R338). -/
def State.drained (s : State) (slice : Nat) : Bool := s.sliceEmpty slice || (s.slice slice).lost

end Sys2Proof.Machine
end

