-- ==== Sys2Proof/Machine/Dispatching.lean ====
section
/-!
DEFINITION. The dispatch of a kernel: the reads and checks of R233 in their order, the binding of an image (R319, R320), the
residency pass with its extents (R287), and the events KERNEL_DISPATCH and KERNEL_RUNNING (R234).
-/
namespace Sys2Proof.Machine

/-! ## Checks (R233) -/

/-- DESC_ALIGN (R230, R233). -/
def Desc.alignOk (d : Desc) : Bool :=
  addrOk d.code 4 && addrOk d.trapent 4 && addrOk d.lstkbase 128 && addrOk d.savebase 4096 && addrOk d.rangetab 256 && addrOk d.grouptab 8

/-- DESC_GEOM (R233). -/
def Desc.geomOk (d : Desc) : Bool :=
  decide (d.tags ≤ 64) && decide (d.tiles ≤ 8) && decide (d.lstore ≤ 192) && decide (d.rings ≤ 16) && decide (d.nrange ≤ 16) &&
    decide (d.ngroup ≤ 255) && decide (0 < d.lstksheaf) && d.lstksheaf % 128 == 0 && d.saveb % 4096 == 0 && decide (1 ≤ d.nstk)

/-- DESC_ROLE (R30, R32). -/
def Desc.roleOk (d : Desc) : Bool :=
  d.rolemap.toNat / 2 ^ (2 * d.sheaves) == 0 &&
    (d.quartet.isEmpty || (d.quartet.length == 4 && (List.range 4).all (fun q => d.quartet.any (fun i => i % 4 == q))))

/-- DESC_RING (R209). -/
def Desc.ringsOk (d : Desc) : Bool :=
  ((List.range 16).zip d.ringtab).all (fun e =>
    let w := e.2.toNat
    if e.1 < d.rings then field w 16 16 == 0 && field w 6 2 == 0 && field w 8 4 != 0 && field w 12 4 != 0 else w == 0)

/-- A range-table entry (R232). -/
def rangeOfBytes (bs : List Byte) : Range :=
  { base := addrAt bs 0, length := field (natAt bs 8 8) 0 48, r := field (natAt bs 8 8) 48 1 == 1, w := field (natAt bs 8 8) 49 1 == 1 }

/-- DESC_RANGE (R232, R233). -/
def rangeEntryOk (bs : List Byte) : Bool :=
  let x := rangeOfBytes bs
  canonical x.base && decide (1 ≤ x.length) && field (natAt bs 8 8) 50 14 == 0 && canonical (x.base + BitVec.ofNat 64 x.length)

/-- The k-byte entries of a table. -/
def entriesOf (bs : List Byte) (k n : Nat) : List (List Byte) := (List.range n).map (fun i => bytesAt bs (k * i) k)

/-- A group-map entry: number and members (R232). -/
def groupOfBytes (bs : List Byte) : Nat × Mask := (field (natAt bs 0 8) 32 8, BitVec.ofNat 32 (natAt bs 0 4))

/-- DESC_GROUP (R232, R268). -/
def Desc.groupsOk (d : Desc) (entries : List (List Byte)) : Bool :=
  let gs := entries.map groupOfBytes
  entries.all (fun bs => field (natAt bs 0 8) 40 24 == 0) &&
    gs.all (fun g => g.2 != 0 && g.2.toNat / 2 ^ d.sheaves == 0 && g.1 != 0 && (g.1 != 255 || d.quartet.isEmpty)) &&
    (gs.map Prod.fst).eraseDups.length == gs.length &&
    d.indices.all (fun i => decide (1 + (gs.filter (fun g => hasLane g.2 i)).length + (if d.role i == .matrix then 1 else 0) ≤ 4))

/-- DESC_SAVE (R233). -/
def Desc.saveOk (d : Desc) : Bool :=
  decide (4096 + d.sheaves * (2048 + 128 * d.vstack) + 4096 * (d.lstore + d.tiles) + 256 * d.rings ≤ d.saveb)

/-- DESC_FIT (R233): some core of the partition can hold one tuft. -/
def State.fits (s : State) (k : Kernel) : Bool :=
  let d := k.desc
  (List.range 4).all (fun q => decide (d.vstack * d.onQuadrant q ≤ 1024)) && decide (d.groupEntries ≤ 256) &&
    (s.placeList k.part).any (fun sl => (k.prio != 0 || decide (0 < (s.slice sl).reserved)) &&
      (coresOf sl).any (fun c => decide (d.storeBytes ≤ (s.core c).storeSize)))

/-- The first check of R233, from DESC_RESERVED to DESC_FIT, that a kernel fails. -/
def State.descError? (s : State) (k : Kernel) (ranges groups : List (List Byte)) : Option Nat :=
  let d := k.desc
  if !d.reservedOk then some 2
  else if !d.alignOk then some 3
  else if d.vstack == 0 || 256 < d.vstack then some 4
  else if !d.geomOk then some 5
  else if !d.roleOk then some 6
  else if !d.ringsOk then some 7
  else if d.lmode == 3 then some 8
  else if !ranges.all rangeEntryOk then some 9
  else if !d.groupsOk groups then some 10
  else if !d.saveOk then some 11
  else if !s.fits k then some 12
  else none

/-- A parameter binding entry keeps its rules and covers the declared size (R260). -/
def bindOk (bs : List Byte) (pwsize : Nat) : Bool :=
  let size := natAt bs 8 4
  addrOk (addrAt bs 0) 8 && size % 8 == 0 && decide (size ≤ 262144) && zeroAt bs 12 4 && (size == 0 || decide (pwsize ≤ size))

/-! ## Reads at dispatch (R233, R405) -/

/-- A kernel is refused (R233): FAULTED with the error. -/
def State.refuseKernel (s : State) (kid err : Nat) : State := s.endKernel kid .faulted err

/-- A fault met by a dispatch read waits for its reply (R405). -/
def State.holdDispatch (s : State) (kid : Nat) (k : Kernel) (f : SysFault) : State :=
  let r := s.postSliceFault k.slice k.part f (.dispatch kid) k.ctx (some kid) (kernelField k) none
  r.2.modKernel kid (fun k => { k with access := some r.1 })

/-- A structure is read at dispatch; a SEALED page refuses the kernel (R320). -/
def State.dispatchRead (s : State) (kid : Nat) (k : Kernel) (va : Addr) (len : Nat) (next : List Byte → State → State) : State :=
  match s.unitBytes k.slice k.part k.ctx (some kid) false va len with
  | (.ok bs _, s1) => next bs s1
  | (.onSealed _, s1) => s1.refuseKernel kid 13
  | (.fault f, s1) => s1.holdDispatch kid k f
  | (.wait, s1) => s1
  | (.far pa, s1) => s1.holdFarKernel kid pa none
  | (.dead code pa, s1) =>
    ((s1.postSliceFault k.slice k.part (SysFault.ending code 0 pa) .info k.ctx (some kid) (kernelField k) none).2).refuseKernel kid 1

/-- Stage 0: the descriptor. -/
def State.readDesc (s : State) (kid : Nat) (k : Kernel) : State :=
  s.dispatchRead kid k k.descAt 256 (fun bs s => s.modKernel kid (fun k => { k with desc := descOfBytes bs, stage := 1 }))

/-- Stages 1 to 3: the range table and the group map, with as many entries as the descriptor declares, then checks 2 to 12. -/
def State.readTables (s : State) (kid : Nat) (k : Kernel) : State :=
  s.dispatchRead kid k k.desc.rangetab (16 * k.desc.nrange) (fun rs s =>
    s.dispatchRead kid k k.desc.grouptab (8 * k.desc.ngroup) (fun gs s =>
      let ranges := entriesOf rs 16 k.desc.nrange
      let groups := entriesOf gs 8 k.desc.ngroup
      match s.descError? k ranges groups with
      | some err => s.refuseKernel kid err
      | none => s.modKernel kid (fun k => { k with ranges := ranges.map rangeOfBytes, gmap := groups.map groupOfBytes, stage := 3 })))

/-- Stage 3: the parameter binding table, judged with BIND (R233, R260). -/
def State.readBindings (s : State) (kid : Nat) (k : Kernel) : State :=
  if k.bindtab == 0 then s.modKernel kid (fun k => { k with windows := List.replicate 8 (0, 0), stage := 4 })
  else
    s.dispatchRead kid k k.bindtab 128 (fun bs s =>
      let entries := entriesOf bs 16 8
      if (entries.zip k.desc.pwsize).all (fun e => bindOk e.1 e.2) then
        s.modKernel kid (fun k => { k with windows := entries.map (fun e => (addrAt e 0, natAt e 8 4)), stage := 4 })
      else s.refuseKernel kid errBind)

/-- Stage 4: the code image, its digest and DESC_SEAL (R319, R320). -/
def State.readImage (s : State) (kid : Nat) (k : Kernel) : State :=
  let len := k.desc.codelen
  if len == 0 then s.modKernel kid (fun k => { k with img := [], bound := false, stage := 5 })
  else if len % 4 != 0 || 16777216 < len then s.refuseKernel kid 13
  else
    match s.unitBytes k.slice k.part k.ctx (some kid) true k.desc.code len with
    | (.ok bs khs, s1) =>
      let img := Config.shake256 bs 64
      let slots := khs.map (s1.keySlot k.part)
      if slots.any (fun x => x.mark == 3 && x.digest != img) then s1.refuseKernel kid 13
      else s1.modKernel kid (fun k => { k with img := img, bound := slots.all (fun x => x.mark == 3), stage := 5 })
    | (.fault f, s1) => s1.holdDispatch kid k f
    | (.onSealed f, s1) => s1.holdDispatch kid k f
    | (.wait, s1) => s1
    | (.far pa, s1) => s1.holdFarKernel kid pa none
    | (.dead code pa, s1) =>
      ((s1.postSliceFault k.slice k.part (SysFault.ending code 0 pa) .info k.ctx (some kid) (kernelField k) none).2).refuseKernel kid 1

/-- One stage of a kernel's dispatch. -/
def State.dispatchStage (s0 : State) (kid : Nat) : State :=
  match s0.kernel? kid with
  | none => s0
  | some k =>
    let s := if k.far.isSome && !s0.farHeld k.slice k.far then s0.modKernel kid (fun k => { k with far := none }) else s0
    if k.state != .dispatching || k.access.isSome || s0.farHeld k.slice k.far then s
    else if errGrid ≤ k.stage then s.refuseKernel kid k.stage
    else match k.stage with
      | 0 => s.readDesc kid k
      | 1 => s.readTables kid k
      | 3 => s.readBindings kid k
      | 4 => s.readImage kid k
      | _ => s

/-- The stages that remain, each once. -/
def State.dispatchAll (s : State) (kid : Nat) : State := (List.range 4).foldl (fun s _ => s.dispatchStage kid) s

/-- A QUEUED kernel of an ACTIVE context enters DISPATCHING with the slice list as it stands (R234, R239). -/
def State.beginDispatch (s : State) (kid : Nat) : State :=
  match s.kernel? kid with
  | none => s
  | some k =>
    if k.state == .queued && s.ctxActive k.part k.ctx then
      s.noteKernel kid (fun k => { k with state := .dispatching, list := (s.placeList k.part).map (fun sl => (sl, (s.slice sl).reserved)), resolved := [] })
    else s

/-- KERNEL_DISPATCH (R233). -/
def execKernelDispatch (kid : Nat) (s : State) : Host.Outcome State Fault Refusal :=
  .next (((s.beginDispatch kid).dispatchAll kid).settle)

/-! ## The residency pass and extents (R287) -/

/-- The pages that a range touches: the first and how many. -/
def Range.pages (x : Range) : Nat × Nat :=
  (pageOf x.base, (x.base.toNat + x.length - 1) / 65536 - pageOf x.base + 1)

/-- The extents of a pass, newest first, and whether the last one may grow. -/
structure Built where
  extents : List Extent
  grows   : Bool

/-- A page joins the last extent, or begins a new one; beyond the 64th nothing is built (R287). -/
def Built.add (b : Built) (e : Extent) : Built :=
  match b.extents with
  | x :: rest =>
    if b.grows && x.page + x.pages == e.page && x.frame + x.pages == e.frame && x.kh == e.kh && x.grain == e.grain && x.fresh == e.fresh &&
        x.w == e.w && x.x == e.x && x.remote == e.remote then
      { b with extents := { x with pages := x.pages + 1 } :: rest }
    else if b.extents.length < 64 then { extents := e :: b.extents, grows := true } else { b with grows := false }
  | [] => { extents := [e], grows := true }

/-- How the pass ends: over all pages; waiting (a prefault posted, a migrating page); the kernel refused (R320). -/
inductive PassEnd where
  | done (b : Built)
  | hold
  | refused
  | prefault (page : Nat) (f : SysFault)
  | far (page paddr : Nat)

/-- A fault of the residency pass (R287, R334): PAGE with reason PREFAULT. -/
def prefaultOf (code reason : Nat) (va : Addr) (detail : Nat) : SysFault :=
  SysFault.replayable code (if code == fPage then 1 else reason) va 0 detail

/-- The last extent holds a page. -/
def Built.holds (b : Built) (page : Nat) : Bool :=
  match b.extents with | x :: _ => decide (x.page ≤ page) && decide (page < x.page + x.pages) | [] => false

/-- The pass over n pages of a range from a page: A is set in each, D in those of an extent of a range declared w (R286). DESIGN CHOICE
(log entry 77): a walk that meets a poisoned table entry holds the kernel in DISPATCHING as a fault does, its MEMERR awaiting a reply. -/
def State.passPages (s : State) (kid : Nat) (k : Kernel) (x : Range) : Nat → Nat → Built → PassEnd × State
  | 0, _, b => (.done b, s)
  | n + 1, page, b =>
    let va := BitVec.ofNat 64 (65536 * page)
    match s.walkSetting k.part k.ctx k.slice (some kid) va (fun _ => 64) with
    | (.leaf entry e big, s1) =>
      let t := leafTrans e big va
      let slot := s1.keySlot k.part t.kh
      if slot.mark == 3 && !(slot.valid && (slot.owner == k.ctx || slot.owner == 0xFFFF) && k.maySeal slot) then (.refused, s1)
      else
        let b1 := b.add { page := page, pages := 1, frame := t.paddr / 65536, kh := t.kh, grain := t.grain, fresh := t.fresh, w := t.w, x := t.x,
                          remote := pteRes e == 2, rangeR := x.r, rangeW := x.w }
        (if x.w && b1.holds page then s1.setEntryBits entry 192 else s1).passPages kid k x n (page + 1) b1
    | (.stop (.fault code reason a detail), s1) =>
      if k.resolved.contains page then s1.passPages kid k x n (page + 1) { b with grows := false }
      else (.prefault page (prefaultOf code reason (if code == fPage then va else a) detail), s1)
    | (.stop (.memErr pa), s1) =>
      if k.resolved.contains page then s1.passPages kid k x n (page + 1) { b with grows := false }
      else (.prefault page (prefaultOf fMemErr 0 va pa), s1)
    | (.stop (.far pa), s1) => (.far page pa, s1)
    | (.stop _, s1) => (.hold, s1)

/-- The pass over ranges in order; extents of different ranges stay apart. -/
def State.passRanges (s : State) (kid : Nat) (k : Kernel) : List Range → Built → PassEnd × State
  | [], b => (.done b, s)
  | x :: xs, b =>
    match s.passPages kid k x x.pages.2 x.pages.1 { b with grows := false } with
    | (.done b1, s1) => s1.passRanges kid k xs b1
    | r => r

/-- The residency pass (R287): RUNNING once it has ended, else the fault that waits. -/
def State.residencyPass (s : State) (kid : Nat) : State :=
  match s.kernel? kid with
  | none => s
  | some k =>
    if k.state != .dispatching || k.stage != 5 || k.prefault.isSome || k.access.isSome || s.farHeld k.slice k.far then s
    else match s.passRanges kid k k.ranges { extents := [], grows := false } with
      | (.done b, s1) =>
        let s2 := s1.noteKernel kid (fun k => { k with state := .running, extents := b.extents.reverse, far := none })
        if k.next == k.nx * k.ny * k.nz then ((s2.endHead kid).noteKernel kid (fun k => { k with state := .draining })).judgeKernel kid else s2
      | (.hold, s1) => s1
      | (.far page pa, s1) => s1.holdFarKernel kid pa (some page)
      | (.refused, s1) => s1.refuseKernel kid 13
      | (.prefault page f, s1) =>
        let r := s1.postSliceFault k.slice k.part f (.prefault kid page) k.ctx (some kid) (kernelField k) none
        r.2.modKernel kid (fun k => { k with prefault := some r.1 })

/-- KERNEL_RUNNING (R234, R287). -/
def execKernelRunning (kid : Nat) (s : State) : Host.Outcome State Fault Refusal := .next ((s.residencyPass kid).settle)

end Sys2Proof.Machine
end

