-- ==== Sys2Proof/Machine/Tufts.lean ====
section
/-!
DEFINITION. The life of a tuft: placement (R27, R237 to R239), completion and the kernel's signal (R34, R234, R262), RUNMAX
(R240), suspension and reload (R247, R248), the abort of RESTART mode (R293).
-/
namespace Sys2Proof.Machine

/-! ## Placement -/

/-- The lease of a sheaf at placement (R242). -/
def Desc.lease (d : Desc) : Lease :=
  { measured := d.lmode == 2, lease := d.lgran, vg := 0, d := 32 * d.lgran, memInstrs := 0, counted := 0, kept := false, seen := d.lgran,
    lines := [], after := [] }

/-- A sheaf as its tuft is placed (R18, R22, R33, R38, R47, R54, R237). -/
def newSheaf (d : Desc) (tid core slotNo idx frame age : Nat) : Sheaf :=
  { tid := tid, core := core, slotNo := slotNo, idx := idx, role := d.role idx, state := .parked, resumeAs := .active,
    pcv := List.replicate 32 d.code, exited := 0, faulted := 0, fairq := 0x100, quantum := 0x100, round := Round.none,
    hints := Hints.none, second := none, vregs := [], vstack := d.vstack, wbase := 0, wrbase := 0, aregs := [], uregs := [], preds := [],
    descs := [], loop0 := LoopSlot.zero, loop1 := LoopSlot.zero, status := 0, mode := d.mode,
    lstk := addrAdd d.lstkbase (((frame * d.sheaves + idx) * d.lstksheaf : Nat) : Int), reprem := 0, began := none, moved := 0, handler := none,
    pend := [], buf := [], cntSlice := 0, cntPart := 0, cntSys := 0, wait := none, arr := [], ret := [], fused := 0, arrival := none,
    closed := [], tiles := [], mops := [], bWrites := [], aWrites := [], lease := d.lease, starve := 0, age := age }

/-- The ring of a ring word (R209, R210). -/
def ringOfWord (w : Word) : Ring :=
  { cons := BitVec.ofNat 4 (field w.toNat 12 4), prod := BitVec.ofNat 4 (field w.toNat 8 4), slots := field w.toNat 0 6, tokens := [], poisoned := false }

/-- The group entries of a tuft (R267, R269). -/
def Desc.groupTable (d : Desc) (gmap : List (Nat × Mask)) : List GroupEntry :=
  let entry := fun (g : Nat) (m : Mask) (q : Bool) => { number := g, members := m, quartet := q, poison := false, phase := 0, arrived := 0 : GroupEntry }
  entry 0 (maskOf (fun i => i < d.sheaves)) false :: gmap.map (fun g => entry g.1 g.2 false) ++
    (if d.quartet.isEmpty then [] else [entry 255 (maskOf (fun i => d.quartet.contains i)) true])

/-- A tuft as it is placed (R54, R206, R210, R236, R287). -/
def newTuft (k : Kernel) (kid index frame core lbase tbase : Nat) (sheaves : List Nat) : Tuft :=
  { kid := kid, index := index, frame := frame, core := core, state := .resident, sheaves := sheaves, lbase := lbase,
    lsize := 4096 * k.desc.lstore, lbytes := [], lmarks := [], ltags := [], tags := List.replicate k.desc.tags Tag.zero,
    rings := (k.desc.ringtab.take k.desc.rings).map ringOfWord, groups := k.desc.groupTable k.gmap, extents := k.extents, parked := false,
    image := none, forced := false, resumed := false, tbase := tbase, leaving := false, ran := 0 }

/-- The slot numbers in use in the front plane of a core. -/
def State.slotsUsed (s : State) (core : Nat) : List Nat :=
  (s.tuftsOn core).flatMap (fun e => (s.sheavesOf e.2).map (fun x => x.2.slotNo))

/-- Slots for the sheaf indices of a tuft: for each the lowest free slot of its quadrant (R27). -/
def pickSlots (used : List Nat) (idxs : List Nat) : List Nat :=
  (idxs.foldl (fun (acc : List Nat × List Nat) i =>
    let n := ((List.range 64).find? (fun n => n % 4 == i % 4 && !acc.2.contains n)).getD 0
    (acc.1 ++ [n], n :: acc.2)) ([], used)).1

/-- The slice that the round-robin position names after a tuft went to a slice (R238). -/
def nextPosition (list : List Nat) (taken : Nat) : Nat := (fromPosition list (taken + 1)).headD taken

/-- Before the first tuft of a kernel starts on a core, the core's L1 is invalid in every home class (R228). -/
def State.startOn (s : State) (kid : Nat) (k : Kernel) (core : Nat) : State :=
  if k.cores.contains core then s
  else (s.invalidateScope core k.part 4).modKernel kid (fun k => { k with cores := core :: k.cores })

/-- The next unused name, as the age of what is placed now (R243). -/
def State.age (s : State) : Nat := s.nextId

/-- A tuft is placed: all its sheaves in one step (R27). -/
def State.placeTuft (s : State) (kid : Nat) (k : Kernel) (tid index core frame : Nat) : State :=
  let d := k.desc
  let s0 := s.startOn kid k core
  let base := s0.nextId
  let sids := d.indices.map (fun i => base + i)
  let slots := pickSlots (s0.slotsUsed core) d.indices
  let lbase := (s0.storePlace? core d.storeBytes).getD 0
  let tbase := (s0.tagPlace? core d.tags).getD 0
  let s1 := { s0 with nextId := base + d.sheaves }
  let s2 := s1.forEach d.indices (fun s i => s.setSheaf (base + i) (newSheaf d tid core (slots.getD i 0) i frame base))
  let t := newTuft k kid index frame core lbase tbase sids
  let s3 := (s2.setTuft tid t).traceTuft t 2 (payload2 index k.number)
  if k.replay then s3
  else s3.modSlice k.slice (fun x => { x with position := nextPosition (s.placeList k.part) (sliceOf core) })

/-- A wait's condition is met, judged on saved state (R248). -/
def State.waitMet (s : State) (t : Tuft) (sh : Sheaf) : Bool :=
  match sh.wait with
  | none => true
  | some w => match w.kind with
    | .child _ kid _ => (match s.kernel? kid with | some k => k.ended | none => true)
    | .barrier _ _ | .service _ => w.done.isSome
    | .arrival g => w.done.isSome || !sh.arr.contains g
    | .answered _ _ _ => true
    | .tagAny m => t.anyReady m
    | .tagAll m => t.allReady m
    | .command _ => true
    | .collective _ => true
    | .ringPut n => s.putOutcome sh n != .wait
    | .ringGet n => s.getOutcome sh n != .wait
    | _ => false

/-- A suspended tuft may be placed again (R248). -/
def State.reloadable (s : State) (t : Tuft) : Bool :=
  t.state == .suspended && (t.forced || (s.sheavesOf t).all (fun x => x.2.resumeAs != .waiting || s.waitMet t x.2))

/-- A suspended tuft of a kernel waits only for a core: a kernel reloads such tufts before it places new ones (R235). -/
def State.reloadDue (s : State) (kid : Nat) : Bool := (s.tuftsOf kid).any (fun e => s.reloadable e.2 && e.2.saved)

/-- A new tuft was the one of NEXT (R234, R235): after the last the kernel is DRAINING and its packet ends. -/
def State.advanceNext (s : State) (kid : Nat) : State :=
  let s1 := s.modKernel kid (fun k => { k with next := k.next + 1, recordDue := true })
  match s1.kernel? kid with
  | some k => if k.next == k.nx * k.ny * k.nz then (s1.modKernel kid (fun k => { k with state := .draining })).endHead kid else s1
  | none => s1

/-- The next tuft of a kernel is placed, where a core, a frame and the quota allow (R238). -/
def State.placeNext (s : State) (kid : Nat) : State :=
  match s.kernel? kid with
  | none => s
  | some k =>
    if !s.mayPlace k || s.reloadDue kid then s
    else match s.nextTuft? kid k, s.freeFrame? kid k with
      | some (old, index), some frame =>
        (match s.coreFor? k index with
         | none => s
         | some core =>
           match old with
           | some tid => (s.placeTuft kid k tid index core frame).noteKernel kid (fun k => k)
           | none =>
             let f := s.fresh
             ((f.2.placeTuft kid k f.1 index core frame).advanceNext kid).writeRecordOf kid)
      | _, _ => s

/-- TUFT_PLACEMENT (R27, R238). -/
def execTuftPlacement (kid : Nat) (s : State) : Host.Outcome State Fault Refusal := .next ((s.placeNext kid).settle)

/-! ## The order of placement (R235, R238, R264) -/

/-- A tuft that a launch unit could place now: its place in the order of R238, lower first, its kernel, and the tuft to reload where it is
a reload. -/
structure Claim where
  rank : Nat
  kid  : Nat
  back : Option Nat
  deriving DecidableEq, Repr

/-- The claims of a kernel: PRIO first (R264), then the four steps of R238. -/
def State.claimsOf (s : State) (kid : Nat) (k : Kernel) : List Claim :=
  if (k.state != .running && k.state != .draining) || k.preempt || !s.ctxActive k.part k.ctx then []
  else
    let reloads := (s.tuftsOf kid).filter (fun e => e.2.saved && s.reloadable e.2)
    (reloads.filter (fun e => (s.reloadCore? k e.2.index).isSome)).map (fun e => { rank := 4 * k.prio, kid := kid, back := some e.1 : Claim }) ++
    (if !reloads.isEmpty || !s.mayPlace k || (s.freeFrame? kid k).isNone then []
     else match s.nextTuft? kid k with
       | some (old, index) =>
         if (s.coreFor? k index).isNone then []
         else [{ rank := 4 * k.prio + (if old.isSome then 1 else if k.child.isSome then 2 else 3), kid := kid, back := none }]
       | none => [])

/-- What a slice's launch unit places next (R238): the first of its claims in that order, those of one place in the order in which their
packets were taken (R264, log entry 68). -/
def State.nextClaim? (s : State) (slice : Nat) : Option Claim :=
  ((s.kernels.filter (fun e => e.2.slice == slice)).flatMap (fun e => s.claimsOf e.1 e.2)).foldl (fun acc c => match acc with
    | none => some c
    | some b => if c.rank < b.rank then some c else acc) none

/-! ## Completion (R34, R203, R228, R262) -/

/-- The commands of a tuft that remain (R203, R351). -/
def State.hasCommands (s : State) (tid : Nat) (core : Nat) : Bool :=
  (s.core core).copies.any (fun c => c.tid == tid) || s.slices.any (fun e => e.2.colls.any (fun c => c.tid == tid && c.failed != some 10))

/-- The sends of a sheaf are acknowledged and none waits in its buffer. -/
def Sheaf.drained (sh : Sheaf) : Bool := sh.buf.isEmpty && sh.countersZero 4

/-- A tuft whose sheaves have all exited completes when its commands are done and its writes acknowledged (R34, R228). -/
def State.completeTuft (s : State) (tid : Nat) : State :=
  match s.tuft? tid with
  | none => s
  | some t =>
    if t.state != .resident || t.parked || !(s.sheavesOf t).all (fun x => x.2.state == .exited) || s.hasCommands tid t.core then s
    else
      let s1 := s.forEach t.sheaves (fun s sid => s.sendBuffer sid)
      if !(s1.sheavesOf t).all (fun x => x.2.drained) then s1
      else
        ((s1.removeTuft tid).noteKernel t.kid (fun k => k)).judgeKernel t.kid

/-- TUFT_COMPLETE (R34). -/
def execTuftComplete (tid : Nat) (s : State) : Host.Outcome State Fault Refusal := .next ((s.completeTuft tid).settle)

/-- The signal's new bytes (R262): SIGVAL is added on COMPLETE, the error word replaces it on FAULTED. -/
def Kernel.signalBytes (k : Kernel) (old : List Byte) : List Byte :=
  leBytes 8 (if k.state == .complete then (natAt old 0 8 + k.sigval.toNat) % 2 ^ 64 else 2 ^ 63 + k.err)

/-- The record and then the signal of a kernel that has ended (R234, R262). -/
def State.signalKernel (s : State) (kid : Nat) : State :=
  let s1 := s.writeRecordOf kid
  match s1.kernel? kid with
  | none => s1
  | some k =>
    if !k.ended || k.recordDue || (s1.queue k.slice k.entry).access.isSome then s1
    else
      let done := fun (s : State) => (s.modKernel kid (fun k => { k with signalled := true })).judgeQueue k.slice k.entry
      if k.signalled || k.noSignal then done s1
      else State.onWrite (s1.unitWrite k.slice k.part k.ctx (some kid) k.sigaddr 8 true k.signalBytes) k.slice k.entry (.signal kid) done

/-- COMPLETION_SIGNAL (R262). -/
def execCompletionSignal (kid : Nat) (s : State) : Host.Outcome State Fault Refusal := .next ((s.signalKernel kid).settle)

/-! ## RUNMAX (R240) -/

/-- RUNMAX_EXPIRY (R240): a resident tuft has run for longer than RUNMAX. -/
def execRunmaxExpiry (tid : Nat) (s : State) : Host.Outcome State Fault Refusal :=
  match s.tuft? tid with
  | none => .next s
  | some t =>
    let runmax := match s.kernel? t.kid with | some k => k.desc.runmax | none => 0
    if t.state == .resident && !t.parked && 0 < runmax then .next ((s.faultTuft tid fRunmax 0 0).settle) else .next s

/-! ## Suspension (R237, R247) -/

/-- The save area of a frame (R237): its address and length. -/
def Desc.saveArea (d : Desc) (frame : Nat) : Addr × Nat := (addrAdd d.savebase ((frame * d.saveb : Nat) : Int), d.saveb)

/-- The pages of a stretch: address, distance from its start, length. -/
def chunksOf (va : Addr) : Nat → Nat → Nat → List (Addr × Nat × Nat)
  | 0, _, _ => []
  | fuel + 1, d, len =>
    if len == 0 then []
    else
      let a := va + BitVec.ofNat 64 d
      let n := min len (65536 - a.toNat % 65536)
      (a, d, n) :: chunksOf va fuel (d + n) (len - n)

/-- The save area's bytes are written, the image's number being kept (R237). No SEALED slot serves such a write (R319). DESIGN CHOICE (log
entry 39): a page that does not translate or may not be written is left out, and the tuft is SUSPENDED all the same. -/
def State.writeSave (s : State) (tid : Nat) : State :=
  match s.tuft? tid with
  | none => s
  | some t =>
    match s.kernel? t.kid with
    | none => s
    | some k =>
      let area := k.desc.saveArea t.frame
      let image := s.freeCount
      let s1 := { s with freeCount := s.freeCount + 1 }.modTuft tid (fun t => { t with image := some image })
      s1.forEach (chunksOf area.1 (area.2 / 65536 + 2) 0 area.2) (fun s c =>
        match s.unitPage k.slice k.part k.ctx (some t.kid) c.1 true with
        | (.ok t key, s2) => s2.putBytes key t.paddr ((List.range c.2.2).map (fun i => (i, Config.saveByte image (c.2.1 + i))))
        | (_, s2) => s2)

/-- The save area still holds what the device wrote (R237); a page that the launch unit cannot read is not judged. -/
def State.saveIntact (s : State) (t : Tuft) (k : Kernel) (image : Nat) : Bool :=
  let area := k.desc.saveArea t.frame
  (chunksOf area.1 (area.2 / 65536 + 2) 0 area.2).all (fun c =>
    match (s.unitPage k.slice k.part k.ctx (some t.kid) c.1 false).1 with
    | .ok t key => (List.range c.2.2).all (fun i => s.viewByte key (t.paddr + i) == Config.saveByte image (c.2.1 + i))
    | _ => true)

/-- The sheaf is between counted instructions (R247). -/
def Sheaf.atBoundary (sh : Sheaf) : Bool := sh.hints.lanes == 0 && sh.second.isNone

/-- Every command of a tuft that can complete does (R203). -/
def State.finishCommands (s : State) (tid core : Nat) : State :=
  s.forEach ((s.core core).copies.filter (fun c => c.tid == tid)) (fun s c => (s.startCopy core).finishCopy core c.id)

/-- The steps before a tuft's state is saved (R247): its commands and matrix operations complete, results in flight arrive, its
writes are sent. -/
def State.quiesce (s : State) (tid : Nat) : State :=
  match s.tuft? tid with
  | none => s
  | some t =>
    let s1 := s.finishCommands tid t.core
    s1.forEach t.sheaves (fun s sid => ((s.drainMatrix sid).forceResults sid (fun _ => true)).sendBuffer sid)

/-- A sheaf is saved (R33); its lookahead windows end (R99). -/
def Sheaf.suspend (sh : Sheaf) : Sheaf :=
  if sh.state == .suspended then sh
  else { sh.closeWindows with resumeAs := if sh.state == .parked then sh.resumeAs else sh.state, state := .suspended }

/-- A tuft becomes SUSPENDED: its state is saved and its slots are free (R237, R247). -/
def State.saveTuft (s : State) (tid : Nat) (forced : Bool) : State :=
  match s.tuft? tid with
  | none => s
  | some t =>
    let slots := (s.sheavesOf t).map (fun x => x.2.slotNo)
    let s1 := s.modCore t.core (fun k => { k with victims := k.victims.filter (fun v => !slots.contains v.2) })
    let s2 := s1.forEach t.sheaves (fun s sid => s.modSheaf sid Sheaf.suspend)
    ((s2.modTuft tid (fun t => { t with state := .suspended, forced := forced, parked := false, leaving := false })).writeSave tid).noteKernel t.kid (fun k => k)

/-- A sheaf of a tuft waits in HRECV (R215). -/
def State.receives (s : State) (t : Tuft) : Bool :=
  (s.sheavesOf t).any (fun x => match x.2.wait with | some w => (match w.kind with | .receive _ => true | _ => false) | none => false)

/-- A tuft of an accepted child kernel of the context can be placed on no core (R247): the next, one that returned to PENDING or one to
reload, of a child whose descriptor has been read. -/
def State.childStarved (s : State) (k : Kernel) : Bool :=
  (s.ctx k.part k.ctx).children.any (fun e => match s.kernel? e.2.kid with
    | some c =>
      if c.state == .running || c.state == .draining then
        (match s.nextTuft? e.2.kid c with | some (_, i) => (s.coreFor? c i).isNone | none => false) ||
          (s.tuftsOf e.2.kid).any (fun t => t.2.saved && s.reloadable t.2 && (s.reloadCore? c t.2.index).isNone)
      else (c.state == .dispatching || c.state == .queued) && decide (0 < c.stage) && decide (c.stage < errGrid) && (s.coreFor? c c.next).isNone
    | none => false)

/-- A sheaf of the tuft waits in KWAIT. -/
def State.inKwait (s : State) (t : Tuft) : Bool :=
  (s.sheavesOf t).any (fun x => match x.2.wait with | some w => (match w.kind with | .child _ _ _ => true | _ => false) | none => false)

/-- The launch unit suspends a tuft (R247): one that the comparison named, or one in KWAIT while a child finds no core. -/
def State.suspends (s : State) (tid : Nat) (t : Tuft) (k : Kernel) : Bool :=
  s.eligible tid t && (t.leaving || (s.inKwait t && s.childStarved k))

/-- TUFT_SUSPEND (R247). -/
def State.suspendTuft (s : State) (tid : Nat) : State :=
  match s.tuft? tid with
  | none => s
  | some t =>
    match s.kernel? t.kid with
    | none => s
    | some k =>
      if !s.suspends tid t k then s
      else
        let s1 := s.quiesce tid
        match s1.tuft? tid with
        | some t1 => if s1.eligible tid t1 && !s1.hasCommands tid t1.core && !s1.stuckTuft tid then (s1.saveTuft tid false).judgeKernel t.kid else s1
        | none => s1

/-- TUFT_SUSPEND (R247). -/
def execTuftSuspend (tid : Nat) (s : State) : Host.Outcome State Fault Refusal := .next ((s.suspendTuft tid).settle)

/-- A tuft whose suspension is ordered is halted at the boundary and saved (R247). -/
def State.forceSuspend (s : State) (tid : Nat) : State :=
  match s.tuft? tid with
  | none => s
  | some t =>
    if t.state != .resident || t.parked || !t.forced || !(s.sheavesOf t).all (fun x => x.2.atBoundary) then s
    else
      let s1 := s.quiesce tid
      match s1.tuft? tid with
      | some t1 => if s1.hasCommands tid t1.core || s1.stuckTuft tid then s1 else (s1.saveTuft tid true).judgeKernel t.kid
      | none => s1

/-- FORCED_SUSPENSION (R247). -/
def execForcedSuspension (tid : Nat) (s : State) : Host.Outcome State Fault Refusal := .next ((s.forceSuspend tid).settle)

/-! ## Reload (R248) -/

/-- A sheaf comes back: PARKED unless it has ended (R248). A reply that it keeps is acted on at its admission. -/
def Sheaf.reload (sh : Sheaf) (core slotNo age : Nat) : Sheaf :=
  { sh with core := core, slotNo := slotNo, age := age, starve := 0,
            state := if sh.resumeAs == .exited || sh.resumeAs == .faulted then sh.resumeAs else .parked }

/-- A tuft is placed again on a core (R248). -/
def State.placeAgain (s : State) (tid : Nat) (t : Tuft) (k : Kernel) (core : Nat) : State :=
  let slots := pickSlots (s.slotsUsed core) k.desc.indices
  let lbase := (s.storePlace? core k.desc.storeBytes).getD 0
  let tbase := (s.tagPlace? core k.desc.tags).getD 0
  let s0 := s.startOn t.kid k core
  let s1 := s0.forEach (k.desc.indices.zip t.sheaves) (fun s e => s.modSheaf e.2 (fun sh => sh.reload core (slots.getD e.1 0) s0.age))
  let s2 := { s1 with nextId := s1.nextId + 1 }.setTuft tid { t with state := .resident, core := core, lbase := lbase, tbase := tbase, forced := false, image := none }
  let s3 := if k.replay then s2 else s2.modSlice k.slice (fun x => { x with position := nextPosition (s.placeList k.part) (sliceOf core) })
  s3.noteKernel t.kid (fun k => k)

/-- TUFT_RELOAD (R237, R248): a save area that was written meanwhile raises SAVE_CORRUPT and the tuft stays SUSPENDED. -/
def State.reloadTuft (s : State) (tid : Nat) : State :=
  match s.tuft? tid with
  | none => s
  | some t =>
    match s.kernel? t.kid, t.image with
    | some k, some image =>
      if !s.reloadable t || (k.state != .running && k.state != .draining) || k.preempt || !s.ctxActive k.part k.ctx then s
      else match s.reloadCore? k t.index with
        | none => s
        | some core =>
          if s.saveIntact t k image then s.placeAgain tid t k core
          else
            let area := (k.desc.saveArea t.frame).1
            (s.postSliceFault k.slice k.part (SysFault.ending fSaveCorrupt 0 area.toNat) .info k.ctx (some t.kid) (kernelField k) (some tid)).2.modTuft
              tid (fun t => { t with image := none })
    | _, _ => s

/-- TUFT_RELOAD (R248). -/
def execTuftReload (tid : Nat) (s : State) : Host.Outcome State Fault Refusal := .next ((s.reloadTuft tid).settle)

/-! ## The abort of RESTART mode (R203, R293) -/

/-- Commands that have not started are discarded; the others complete (R203). -/
def State.abortCommands (s : State) (tid core : Nat) : State :=
  let s1 := s.modCore core (fun k => { k with copies := k.copies.filter (fun c => c.tid != tid || c.started) })
  s1.forEach ((s1.core core).copies.filter (fun c => c.tid == tid)) (fun s c => s.finishCopy core c.id)

/-- The tuft is freed and returns to PENDING at its grid index (R293), once the commands that run have completed (R203). -/
def State.abortTuft (s : State) (tid : Nat) : State :=
  match s.tuft? tid with
  | none => s
  | some t =>
    if t.state != .aborted || !(s.sheavesOf t).all (fun x => x.2.atBoundary) then s
    else
      let s1 := (s.dropColls tid false).abortCommands tid t.core
      if s1.hasCommands tid t.core then s1
      else
        let s2 := s1.removeTuft tid
        ((s2.setTuft tid { t with state := .pending, sheaves := [], lbytes := [], lmarks := [], ltags := [], tags := [], rings := [], groups := [],
                                  lsize := 0 }).noteKernel t.kid (fun k => k)).judgeKernel t.kid

/-- TUFT_ABORT (R293). -/
def execTuftAbort (tid : Nat) (s : State) : Host.Outcome State Fault Refusal := .next ((s.abortTuft tid).settle)

end Sys2Proof.Machine
end

