-- ==== Sys2Proof/Machine/Children.lean ====
section
/-!
DEFINITION. Child kernels: KLAUNCH, KWAIT and KQUOTA (R249 to R252).
-/
namespace Sys2Proof.Machine

/-- The child instructions (R249). -/
def formChild : Form := { Form.plain with wide := true }

/-- The lowest child id that a context's table has free (R250). -/
def Ctx.freeChild (x : Ctx) : Nat := ((List.range (x.children.length + 1)).find? (fun i => (x.children.find? i).isNone)).getD 0

/-- Entries of the child table that are left (R250, R252, R312). -/
def Ctx.childrenLeft (x : Ctx) : Nat := min x.qchild 65536 - x.children.length

/-- A status of KLAUNCH (R250): QUOTA. -/
def childQuota : Word := 0x10000000
/-- A status of KLAUNCH (R250): BADPACKET. -/
def childBadPacket : Word := 0x20000000

/-- The packet is a KERNEL packet that keeps every packet check (R250, R260). -/
def childPacketOk (bs : List Byte) : Bool := packetType bs == 1 && gridOk bs && kernelPacketOk bs 1

/-- KLAUNCH judges a packet it has read (R250): the status, and the child QUEUED where it is accepted; the launcher's record counts it
(R235), and the event belongs to the launcher's kernel (R399). DESIGN CHOICE (log entry 69): a bad packet gives BADPACKET although the
quota is spent as well; a quota of zero gives QUOTA whatever the packet holds (R312). -/
def State.launchChild (s : State) (sh : Sheaf) (bs : List Byte) (reservedOk : Bool) : Word × State :=
  match s.kernelOf? sh with
  | none => (childBadPacket, s)
  | some k =>
    let x := s.ctx k.part k.ctx
    if x.qchild == 0 then (childQuota, s)
    else if !reservedOk || !childPacketOk bs then (childBadPacket, s)
    else if x.childrenLeft == 0 then (childQuota, s)
    else
      let id := x.freeChild
      let f := s.fresh
      let child := kernelOfPacket bs k.slice k.entry (some id) k.part k.ctx k.prio
      let parent := match s.tuft? sh.tid with | some t => t.kid | none => 0
      let entry : Child := { kid := f.1, launcher := sh.tid, parent := parent, waited := false, ended := false }
      (BitVec.ofNat 32 id,
       ((((f.2.setKernel f.1 child).traceLaunch child k.bound).modCtx k.part k.ctx (fun x => { x with children := x.children.put id entry })).noteChild
         k.part k.ctx id).modKernel parent (fun k => { k with recordDue := true }))

/-- KLAUNCH (R250): the release of PART scope, the fresh read of the packet, the judgement. -/
def klaunchOp (b : Nat) (_ : Slot) : Op :=
  { ok := quadU b, uses := span b 4, also := [], writes := [],
    body := fun slot _ s =>
      match s.releaseFirst slot.sid 2 3 with
      | .inl a => a
      | .inr s0 =>
        match s0.sheaf? slot.sid with
        | none => .stop s0
        | some sh =>
          s0.loadNow slot sh (sh.readPairB b) 64 true (fun bs _ s1 =>
            let r := s1.launchChild sh bs (sh.readUB (b + 2) == 0)
            .next (r.2.modSheaf slot.sid (fun sh => sh.writeUB (b + 3) r.1 0))) }

/-- KLAUNCH (R250). -/
def execKlaunch (g : BitVec 4) (n : BitVec 1) (b : BitVec 8) (s : State) : Host.Outcome State Fault Refusal :=
  issued formChild g n (klaunchOp b.toNat) s

/-- KWAIT (R251). -/
def kwaitOp (b : Nat) (_ : Slot) : Op :=
  { ok := isU b, uses := [b], also := [], writes := [],
    body := fun slot sh s =>
      let id := (sh.readUB b).toNat
      match (s.ctx (s.partOf sh) (s.ctxOf sh)).children.find? id with
      | none => .ofSheaf slot s (sh.writeUB b 0xFFFFFFFF 0)
      | some c =>
        match s.kernel? c.kid with
        | none => .ofSheaf slot s (sh.writeUB b 0xFFFFFFFF 0)
        | some k => if k.ended then .next (s.childReturn slot.sid id c.kid (uIndex b) k) else .wait (.child id c.kid (uIndex b)) s }

/-- KWAIT (R251). -/
def execKwait (g : BitVec 4) (n : BitVec 1) (b : BitVec 8) (s : State) : Host.Outcome State Fault Refusal :=
  issued formChild g n (kwaitOp b.toNat) s

/-- The two words of KQUOTA (R252). -/
def State.quotaWords (s : State) (part ctx : Nat) : Word × Word :=
  let x := s.ctx part ctx
  (BitVec.ofNat 32 (min x.childrenLeft 0xFFFF + min (x.qkern - s.chargedKernels part ctx) 0xFFFF * 2 ^ 16),
   BitVec.ofNat 32 (x.qtuft - s.chargedTufts part ctx))

/-- KQUOTA (R252). -/
def kquotaOp (b : Nat) (_ : Slot) : Op :=
  { ok := evenU b, uses := span b 2, also := [], writes := [],
    body := fun slot sh s =>
      let w := s.quotaWords (s.partOf sh) (s.ctxOf sh)
      .ofSheaf slot s ((sh.writeUB b w.1 0).writeUB (b + 1) w.2 0) }

/-- KQUOTA (R252). -/
def execKquota (g : BitVec 4) (n : BitVec 1) (b : BitVec 8) (s : State) : Host.Outcome State Fault Refusal :=
  issued formChild g n (kquotaOp b.toNat) s

end Sys2Proof.Machine
end

