-- ==== Sys2Proof/Machine/Collectives.lean ====
section
/-!
DEFINITION. The collective engines (R348 to R353): CRS, CAG and CAR, how commands join, and their completion, at which every byte
moves.
-/
namespace Sys2Proof.Machine

/-! ## Groups (R349, R350) -/

/-- The slices of a partition ordered by package, then slice number (R349). -/
def Partition.ordered (p : Partition) : List Nat :=
  let all : Map Unit := p.slices.foldl (fun (m : Map Unit) x => m.put x ()) []
  Map.keys all

/-- The slice that a member word names (R350). -/
def memberSlice (w : Word) : Nat := field w.toNat 0 10 * 8 + field w.toNat 10 3

/-- No number stands twice in a list. -/
def noRepeat (xs : List Nat) : Bool := decide (xs.eraseDups.length = xs.length)

/-- The ranks of a group as a slice of a package reads them (R349, R350); none where an entry breaks its rules. -/
def Partition.ranks? (p : Partition) (slice group : Nat) : Option (List Nat) :=
  if group == 0 then some p.ordered
  else
    let e := p.colls.getD (packageOf slice * 64 + group) []
    let head := (e.getD 0 0).toNat
    let ws := (List.range head).map (fun i => e.getD (i + 1) 0)
    let ok := decide (2 ≤ head) && decide (head ≤ 8192) && ws.all (fun w => field w.toNat 13 19 == 0) &&
      (ws.map memberSlice).all (fun x => p.slices.contains x) && noRepeat (ws.map memberSlice)
    if ok then some (ws.map memberSlice) else none

/-! ## Issue (R348, R349) -/

/-- SRC, DST, N, RESID and the element width of a command (R349). -/
def CollCmd.src (c : CollCmd) : Addr := BitVec.append (c.words.getD 1 0) (c.words.getD 0 0)
/-- DST (R349). -/
def CollCmd.dst (c : CollCmd) : Addr := BitVec.append (c.words.getD 3 0) (c.words.getD 2 0)
/-- N (R349). -/
def CollCmd.count (c : CollCmd) : Nat := (c.words.getD 4 0).toNat
/-- RESID (R349). -/
def CollCmd.resid (c : CollCmd) : Addr := BitVec.append (c.words.getD 7 0) (c.words.getD 6 0)
/-- C: compressed (R348). -/
def CollCmd.packed (c : CollCmd) : Bool := decide (4 ≤ c.x)
/-- The layout of an element (R348). -/
def CollCmd.fmt (c : CollCmd) : Fmt := if c.x % 4 == 0 then fp32 else bf16
/-- Bytes of an element. -/
def CollCmd.width (c : CollCmd) : Nat := if c.x % 4 == 0 then 4 else 2
/-- P (R349). -/
def CollCmd.size (c : CollCmd) : Nat := c.ranks.length
/-- Elements that a rank reads from SRC: CAG reads N/P, the others N (R352). -/
def CollCmd.reads (c : CollCmd) : Nat := if c.kind == 1 then c.count / c.size else c.count
/-- Elements that a rank writes to DST: CRS writes N/P, the others N (R352). -/
def CollCmd.writes (c : CollCmd) : Nat := if c.kind == 0 then c.count / c.size else c.count

/-- The descriptor keeps the rules of R349, its slice being a member of its group. -/
def CollCmd.descOk (c : CollCmd) (slice : Nat) : Bool :=
  multiples 16 [c.src.toNat, c.dst.toNat, c.resid.toNat] && decide (1 ≤ c.count) && field (c.words.getD 5 0).toNat 6 26 == 0 &&
    (c.resid != 0) == c.packed && c.ranks.contains slice && (c.kind == 2 || c.count % c.size == 0)

/-- The sends of a sheaf that a PART-scope release covers (R171, R228). -/
def State.partSends (s : State) (sid : Nat) : List Nat :=
  (s.msgs.filter (fun m => m.sid == sid && (m.cls == .slice || m.cls == .part))).map Msg.id

/-- A command enters the slice's engine, at the next position of its group (R348, R351), or fails its tag with DESC. -/
def collAct (kind tag b x : Nat) (slot : Slot) (sh : Sheaf) (s : State) : Act :=
  let slice := sliceOf sh.core
  if !(s.slice slice).collRoom || 255 ≤ (match s.tuft? sh.tid with | some t => (t.tag tag).count | none => 0) then .wait (.collective tag) s
  else
    let s0 := s.releaseStart slot.sid 3
    if s0.ended slot.sid then .stop s0 else
    let s1 := s0.modTag sh.tid tag Tag.onIssue
    let regs := span (uIndex b) 8
    let words := regs.map sh.readU
    let group := field (words.getD 5 0).toNat 0 6
    let ranks := (s1.part? (s1.partOf sh)).bind (fun p => p.ranks? slice group)
    let c : CollCmd :=
      { id := s1.nextId, sid := slot.sid, tid := sh.tid, tag := tag, kind := kind, x := x, words := words,
        mark := marks (regs.map (fun r => (sh.ureg r).mark)), ranks := ranks.getD [], group := group,
        seq := (s1.slice slice).collSeq.getD group 0, after := s1.partSends slot.sid, joined := false, failed := none, token := none,
        skipped := [], tries := 0 }
    if !c.descOk slice then .next (s1.completeTag sh.tid tag (some copyDesc))
    else
      .next ({ s1 with nextId := s1.nextId + 1 }.modSlice slice (fun y =>
        { y with colls := y.colls ++ [c], collSeq := y.collSeq.put group (c.seq + 1) }))

/-- CRS, CAG, CAR (R348): the copy class, no prefix, acting once for the sheaf. -/
def collOp (kind tag b c y : Nat) (_ : Slot) : Op :=
  { ok := octU b && decide (y < 2) && !(kind == 1 && c == 1), legal := tagLegal tag, uses := span b 8, also := [], writes := [],
    body := fun slot sh s => collAct kind tag b (4 * c + y) slot sh s }

/-- CRS (R348, R352). -/
def execCrs (g : BitVec 4) (n : BitVec 1) (t : BitVec 6) (b : BitVec 8) (c : BitVec 1) (y : BitVec 2) (s : State) :
    Host.Outcome State Fault Refusal := issued (formCopy .lin) g n (collOp 0 t.toNat b.toNat c.toNat y.toNat) s

/-- CAG (R348, R352). -/
def execCag (g : BitVec 4) (n : BitVec 1) (t : BitVec 6) (b : BitVec 8) (c : BitVec 1) (y : BitVec 2) (s : State) :
    Host.Outcome State Fault Refusal := issued (formCopy .lin) g n (collOp 1 t.toNat b.toNat c.toNat y.toNat) s

/-- CAR (R348, R352). -/
def execCar (g : BitVec 4) (n : BitVec 1) (t : BitVec 6) (b : BitVec 8) (c : BitVec 1) (y : BitVec 2) (s : State) :
    Host.Outcome State Fault Refusal := issued (formCopy .lin) g n (collOp 2 t.toNat b.toNat c.toNat y.toNat) s

/-! ## Joining (R351) -/

/-- PEER (R351). -/
def collPeer : Nat := 10

/-- The commands on a group of a partition at a position: slice and command. -/
def State.collsAt (s : State) (p : Partition) (group seq : Nat) : List (Nat × CollCmd) :=
  p.slices.flatMap (fun x => ((s.slice x).colls.filter (fun c => c.group == group && c.seq == seq)).map (fun c => (x, c)))

/-- The positions of a group that have commands, in order, for those that have joined or those that have not. -/
def State.collSeqs (s : State) (p : Partition) (group : Nat) (joined : Bool) : List Nat :=
  let all : Map Unit := p.slices.foldl (fun (m : Map Unit) x =>
    ((s.slice x).colls.filter (fun c => c.group == group && c.joined == joined)).foldl (fun (m : Map Unit) c => m.put c.seq ()) m) []
  Map.keys all

/-- Commands end, each with a code; one that was discarded speaks for no tag (R207, R351). -/
def State.endColls (s : State) (xs : List (Nat × CollCmd × Option Nat)) : State :=
  s.forEach xs (fun s e =>
    let s1 := s.modSlice e.1 (fun y => { y with colls := y.colls.filter (fun c => c.id != e.2.1.id) })
    if e.2.1.failed == some collPeer then s1 else s1.completeTag e.2.1.tid e.2.1.tag e.2.2)

/-- Two members issued the same command (R350, R351): kind, x, N and the entry they read. -/
def CollCmd.agrees (a b : CollCmd) : Bool := a.kind == b.kind && a.x == b.x && a.count == b.count && a.ranks == b.ranks

/-- A command's slice can exchange with the other members of its group (R341): they lie in one package, or its port carries packets. -/
def State.collLinked (s : State) (slice : Nat) (c : CollCmd) : Bool :=
  c.ranks.all (fun r => packageOf r == packageOf slice) || s.linkUp slice

/-- A slice's command at a position of a group has been issued, or can be no longer: it is there, it has ended, or the slice has left. -/
def State.collCame (s : State) (p : Partition) (group seq : Nat) (xs : List (Nat × CollCmd)) (r : Nat) : Bool :=
  xs.any (fun e => e.1 == r) || !p.slices.contains r || decide (seq < (s.slice r).collSeq.getD group 0)

/-- Whether the commands at a position can be judged (R341, R350, R351): every member that some of them names has issued, or can no
longer, and the ports between them carry packets. -/
def State.collReady (s : State) (p : Partition) (group seq : Nat) : Bool :=
  let xs := s.collsAt p group seq
  !xs.isEmpty && xs.all (fun x => x.2.ranks.all (s.collCame p group seq xs) && s.collLinked x.1 x.2)

/-- The commands of a position agree, and none was discarded (R351). -/
def collAgree (xs : List (Nat × CollCmd)) : Bool :=
  match xs with
  | [] => true
  | (_, c) :: _ => xs.all (fun e => e.2.agrees c && e.2.failed != some collPeer) && c.ranks.all (fun r => xs.any (fun e => e.1 == r))

/-- The first position of a group at which every member has issued joins, or fails with PEER (R351). -/
def State.joinColls (s : State) (part group : Nat) : State :=
  match s.part? part with
  | none => s
  | some p =>
    match (s.collSeqs p group false).find? (s.collReady p group) with
    | none => s
    | some k =>
      let xs := s.collsAt p group k
      if collAgree xs then
        s.forEach xs (fun s e => s.modSlice e.1 (fun y => { y with colls := y.colls.map (fun c => if c.id == e.2.id then { c with joined := true } else c) }))
      else s.endColls (xs.map (fun e => (e.1, e.2, some collPeer)))

/-- COLLECTIVE_JOIN (R351). -/
def execCollectiveJoin (part group : Nat) (s : State) : Host.Outcome State Fault Refusal := .next ((s.joinColls part group).settle)

/-! ## Data (R352) -/

/-- Elements of a stretch of bytes. -/
def elements (width : Nat) (bs : List Byte) : List Nat := (List.range (bs.length / width)).map (fun i => natAt bs (width * i) width)

/-- The bytes of some elements. -/
def elementBytes (width : Nat) (xs : List Nat) : List Byte := xs.flatMap (fun x => leBytes width x)

/-- The compression of one element (R352): what the rank sends, and its new residual. -/
def Fmt.compress (f : Fmt) (x resid : Nat) : Nat × Nat :=
  let y := (f.add x resid).1
  let q := (e4m3.store (f.widen y)).1
  let w := (f.ofNum (e4m3.decode q)).1
  (w, (f.sub y w).1)

/-- Fold at one element, in rank order (R352). -/
def Fmt.fold (f : Fmt) (xs : List Nat) : Nat :=
  match xs with
  | [] => 0
  | x :: rest => rest.foldl (fun acc y => (f.add acc y).1) x

/-- What rank r writes to DST, from the contributions in rank order (R352). -/
def CollCmd.result (c : CollCmd) (r : Nat) (xs : List (List Nat)) : List Nat :=
  let at_ := fun i => c.fmt.fold (xs.map (fun x => x.getD i 0))
  match c.kind with
  | 0 => (List.range (c.count / c.size)).map (fun j => at_ (r * (c.count / c.size) + j))
  | 1 => xs.flatten
  | _ => (List.range c.count).map at_

/-! ## Completion (R351 to R353) -/

/-- A member's command on its way: its core, command, judged pages of SRC and RESID, its contribution, its new residuals. -/
structure Member where
  slice  : Nat
  core   : Nat
  cmd    : CollCmd
  pages  : Judged
  back   : Judged
  dead   : Bool
  sends  : List Nat
  resids : List Nat

/-- What the engine meets on its way through the members: it goes on, or one of them holds every one. -/
abbrev Progress := Option (List Member)

/-- The pages of a stretch of elements. -/
def CollCmd.pagesOf (c : CollCmd) (va : Addr) (count : Nat) : List (Addr × Nat × Nat) :=
  let len := c.width * count
  chunksOf va (len / 65536 + 2) 0 len

/-- The engine holds a command (R205, R284, R292, R341). -/
def Judged.stops (j : Judged) : Bool := j.held || j.moving

/-- Some page of a command is left alone. -/
def Judged.hasSkip (j : Judged) : Bool := j.pages.any (fun e => e.2 == .skip)

/-- What a later stretch of the same command starts from: pages left alone stay so. -/
def Judged.onward (j : Judged) : Judged := { j with pages := j.pages.filter (fun e => e.2 == .skip) }

/-- The bytes of a stretch whose pages have been judged; none where a page is left alone or poisoned (R204, R205). -/
def State.stretch (s : State) (core : Nat) (c : CopyCmd) (j : Judged) (chunks : List (Addr × Nat × Nat)) : Option (List Byte) × State :=
  chunks.foldl (fun (acc : Option (List Byte) × State) x =>
    match acc.1, j.at x.1 with
    | some bs, some (t, key) =>
      if acc.2.poisoned t.paddr x.2.2 then (none, (acc.2.copyRecord core c fMemErr 0 0 t.paddr none).2)
      else (some (bs ++ acc.2.viewBytes key t.paddr x.2.2), acc.2.engineReads (sliceOf core) c.id t.paddr t.kh key x.2.2)
    | _, _ => (none, acc.2)) (some [], s)

/-- A member reads its sources (R352, R353): its pages are judged, its elements read and, with C, compressed. -/
def State.readMember (s : State) (slice : Nat) (c : CollCmd) : Option Member × State :=
  let core := match s.tuft? c.tid with | some t => t.core | none => 0
  let cc := c.asCopy
  let srcs := c.pagesOf c.src c.reads
  let backs := if c.packed then c.pagesOf c.resid c.count else []
  let r := s.judgePages core cc false 0 (srcs.map (fun x => x.1)) (Judged.start cc)
  if r.1.stops then (none, r.2)
  else
    let q := r.2.judgePages core cc false 0 (backs.map (fun x => x.1)) r.1.onward
    if q.1.stops then (none, q.2)
    else
      let a := q.2.stretch core cc r.1 srcs
      let b := a.2.stretch core cc q.1 backs
      match a.1, b.1 with
      | some xs, some rs =>
        let es := elements c.width xs
        let ps := if c.packed then (es.zip (elements c.width rs)).map (fun e => c.fmt.compress e.1 e.2) else es.map (fun e => (e, 0))
        (some { slice := slice, core := core, cmd := c, pages := r.1, back := q.1, dead := false, sends := ps.map Prod.fst, resids := ps.map Prod.snd }, b.2)
      | _, _ =>
        (some { slice := slice, core := core, cmd := { c with failed := some (q.1.failed.getD copyMemErr) }, pages := r.1, back := q.1, dead := true,
                sends := [], resids := [] }, b.2)

/-- Every member reads, in rank order; none where one is held. -/
def State.readMembers (s : State) (xs : List (Nat × CollCmd)) : Progress × State :=
  xs.foldl (fun (acc : Progress × State) e =>
    match acc.1 with
    | none => acc
    | some ms => match acc.2.readMember e.1 e.2 with
      | (some m, s1) => (some (ms ++ [m]), s1)
      | (none, s1) => (none, s1)) (some [], s)

/-- The mark of what a member contributes (R204): its source pages, its residual pages, its descriptor registers. -/
def State.memberMark (s : State) (m : Member) : Mark :=
  maxMark m.cmd.mark (maxMark (s.pagesMark m.cmd.asCopy m.pages) (s.pagesMark m.cmd.asCopy m.back))

/-- A member's destinations are judged for writing (R57, R204): DST with the mark of every contribution, RESID with its own. -/
def State.judgeMember (s : State) (flow : Mark) (m : Member) : Option (Judged × Judged) × State :=
  let cc := m.cmd.asCopy
  let dsts := m.cmd.pagesOf m.cmd.dst m.cmd.writes
  let backs := if m.cmd.packed then m.cmd.pagesOf m.cmd.resid m.cmd.count else []
  let r := s.judgePages m.core cc true flow (dsts.map (fun x => x.1)) (Judged.start cc)
  if r.1.stops then (none, r.2)
  else
    let q := r.2.judgePages m.core cc true (s.memberMark m) (backs.map (fun x => x.1)) r.1.onward
    if q.1.stops then (none, q.2) else (some (r.1, q.1), q.2)

/-- Every member's destinations are judged; none where one is held. -/
def State.judgeMembers (s : State) (flow : Mark) (ms : List Member) : Option (List (Member × Judged × Judged)) × State :=
  ms.foldl (fun (acc : Option (List (Member × Judged × Judged)) × State) m =>
    match acc.1 with
    | none => acc
    | some xs => match acc.2.judgeMember flow m with
      | (some j, s1) => (some (xs ++ [(m, j)]), s1)
      | (none, s1) => (none, s1)) (some [], s)

/-- A stretch is written at its homes, and out of the issuing core's L1 (R228, R352). -/
def State.writeStretch (s : State) (core : Nat) (c : CopyCmd) (j : Judged) (chunks : List (Addr × Nat × Nat)) (bs : List Byte) : State :=
  s.writePieces core c j (chunks.map (fun x => (x.1, spread 0 (bytesAt bs x.2.1 x.2.2))))

/-- A member writes its results and residuals (R352). -/
def State.writeMember (s : State) (rank : Nat) (sends : List (List Nat)) (m : Member) (dst back : Judged) : State :=
  let c := m.cmd
  let s1 := s.writeStretch m.core c.asCopy dst (c.pagesOf c.dst c.writes) (elementBytes c.width (c.result rank sends))
  if c.packed then s1.writeStretch m.core c.asCopy back (c.pagesOf c.resid c.count) (elementBytes c.width m.resids) else s1

/-- What the release of every member waits for is acknowledged, and no fault holds one (R228, R353). -/
def State.collFree (s : State) (xs : List (Nat × CollCmd)) : Bool :=
  xs.all (fun e => e.2.token.isNone && e.2.after.all (fun id => (s.msg? id).isNone))

/-- The joined commands in rank order. -/
def inRankOrder (xs : List (Nat × CollCmd)) : List (Nat × CollCmd) :=
  match xs with
  | [] => []
  | (_, c) :: _ => c.ranks.filterMap (fun r => xs.find? (fun e => e.1 == r))

/-- Commands whose bytes have moved end, at once or when the writes of all of them to other packages have been acknowledged (R228, R353). -/
def State.closeColls (s : State) (xs : List (Nat × CollCmd × Option Nat)) : State :=
  if xs.any (fun e => s.engineOut e.2.1.id) then
    s.forEach xs (fun s e => s.modSlice e.1 (fun y =>
      { y with colls := y.colls.map (fun c => if c.id == e.2.1.id then { c with outcome := some e.2.2 } else c) }))
  else s.endColls xs

/-- Such commands end: the lines written leave the cores' L1s (R228). -/
def State.settleColls (s : State) (xs : List (Nat × CollCmd)) : State :=
  (s.forEach xs (fun s e => s.invalidate ((s.tuft? e.2.tid).elim 0 Tuft.core) (fun n => e.2.wrote.contains n))).endColls
    (xs.map (fun e => (e.1, e.2, match e.2.outcome with | some (some x) => some x | _ => e.2.failed)))

/-- The joined commands of a position move their data and complete (R351 to R353). -/
def State.moveColls (s : State) (xs : List (Nat × CollCmd)) : State :=
  match s.readMembers xs with
  | (none, s1) => s1
  | (some ms, s1) =>
    if ms.any Member.dead then
      s1.endColls (ms.map (fun m => (m.slice, m.cmd, some (if m.dead then m.cmd.failed.getD copyMemErr else collPeer))))
    else
      match s1.judgeMembers (marks (ms.map (fun m => s1.memberMark m))) ms with
      | (none, s2) => s2
      | (some js, s2) =>
        let sends := ms.map Member.sends
        let s3 := s2.forEach ((List.range js.length).zip js) (fun s e => s.writeMember e.1 sends e.2.1 e.2.2.1 e.2.2.2)
        s3.closeColls (js.map (fun e => (e.1.slice, e.1.cmd, e.2.2.failed)))

/-- The oldest joined commands of a group complete, or fail together where one was discarded (R351). -/
def State.completeColls (s : State) (part group : Nat) : State :=
  match s.part? part with
  | none => s
  | some p =>
    match (s.collSeqs p group true).head? with
    | none => s
    | some k =>
      let xs := inRankOrder ((s.collsAt p group k).filter (fun e => e.2.joined))
      if xs.any (fun e => e.2.failed == some collPeer) || !collAgree xs then s.endColls (xs.map (fun e => (e.1, e.2, some collPeer)))
      else if xs.all (fun e => e.2.outcome.isSome) then (if xs.any (fun e => s.engineOut e.2.id) then s else s.settleColls xs)
      else if !s.collFree xs || !xs.all (fun e => s.collLinked e.1 e.2) then s
      else s.moveColls xs

/-- COLLECTIVE_COMPLETE (R351 to R353). -/
def execCollectiveComplete (part group : Nat) (s : State) : Host.Outcome State Fault Refusal := .next ((s.completeColls part group).settle)

end Sys2Proof.Machine
end

