-- ==== Sys2Proof/Machine/Queues.lean ====
section
/-!
DEFINITION. Queues (R255 to R265, R405): registration and destruction, the watch on the write index, the fetch of packets and
what each packet does.
-/
namespace Sys2Proof.Machine

/-! ## Registration and destruction (R256) -/

/-- The fields of an entry meet the table of R255. -/
def QueueEntry.fieldsOk (q : QueueEntry) : Bool :=
  addrOk q.hdr 256 && decide (6 ≤ q.log2n) && decide (q.log2n ≤ 20) && addrOk q.ring (64 * 2 ^ q.log2n) && addrOk q.recbase 32 &&
    decide (1 ≤ q.nrec) && decide (q.nrec ≤ 65536) && field q.context.toNat 16 16 == 0 && decide (q.prio ≤ 3) && q.resv == 0

/-- A context may own a queue (R256): CREATED, ACTIVE or SUSPENDED. -/
def CtxState.mayQueue : CtxState → Bool
  | .created | .active | .suspended => true
  | _ => false

/-- The control-space offset of an entry's CMD (R255, R303). -/
def queueCmdOffset (entry : Nat) : Nat := 0x01000000 + 64 * entry + 0x24

/-- A command of an entry, taken before, is answered; a refusal counts in REFUSED too (R256, R304). A command written since stays. -/
def State.answerQueue (s : State) (slice entry result : Nat) : State :=
  let s1 := s.modQueue slice entry (fun q => { q with result := result })
  if result == 0 then s1 else s1.refuse slice (queueCmdOffset entry)

/-- A read of header line 0 (R257, R258), fresh, on a page of no SEALED slot. -/
def State.readLine0 (s : State) (slice entry : Nat) : UnitRead × State :=
  let q := s.queue slice entry
  let r := s.unitBytes slice q.part q.ctx none false q.hdr 128
  (r.1.strict, r.2)

/-- The bytes of header line 0 that must be zero are (R10, R257). -/
def line0Ok (bs : List Byte) : Bool := zeroAt bs 8 120

/-- Where header line 0 lies at its home, with the key of its page (R258). -/
def State.headerHome? (s : State) (slice entry : Nat) : Option (Nat × Nat) :=
  let q := s.queue slice entry
  match (s.unitPage slice q.part q.ctx none q.hdr false).1 with
  | .ok t key => some (t.paddr, key)
  | _ => none

/-- The queue enters ACTIVE with RDIDX at the value of WRIDX that was read (R256, R265). DESIGN CHOICE (log entry 67): a header line 0 whose
reserved bytes are not zero refuses REGISTER. -/
def State.openQueue (s : State) (slice entry : Nat) : State :=
  State.onRead (s.readLine0 slice entry) slice entry .register (fun bs s =>
    if !line0Ok bs then s.answerQueue slice entry 1
    else ((s.answerQueue slice entry 0).modQueue slice entry (fun q =>
      { q with state := 1, rdidx := natAt bs 0 8, wridx := natAt bs 0 8, qerr := 0, fidx := 0, head := none, started := false,
               headerDue := true, watch := s.headerHome? slice entry })).writeHeader slice entry)

/-- REGISTER, or a command that no row lists, is taken, or the read of WRIDX of a REGISTER is made again (R256). -/
def State.registerQueue (s : State) (slice entry : Nat) : State :=
  let q := s.queue slice entry
  match q.access, (s.slice slice).owner with
  | some (0, .register), some _ => (s.modQueue slice entry (fun q => { q with access := none, far := none })).openQueue slice entry
  | none, some part =>
    if q.cmd == 0 || q.cmd == 2 then s
    else if q.cmd == 1 && q.state == 0 && q.fieldsOk && (s.ctx part q.ctx).state.mayQueue then
      (s.modQueue slice entry (fun q => { q with cmd := 0, part := part })).openQueue slice entry
    else (s.modQueue slice entry (fun q => { q with cmd := 0 })).answerQueue slice entry 1
  | _, _ => s

/-- QUEUE_REGISTER (R256). -/
def execQueueRegister (slice entry : Nat) (s : State) : Host.Outcome State Fault Refusal := .next ((s.registerQueue slice entry).settle)

/-- A packet that only waits: it has no effect that a DRAINING queue still owes (R265). -/
def Packet.waits (p : Packet) : Bool := let t := packetType p.bytes; t == 2 || t == 3 || t == 5

/-- The head packet ends. -/
def State.dropHead (s : State) (slice entry : Nat) : State :=
  (s.modQueue slice entry (fun q => { q with head := none, started := false })).judgeQueue slice entry

/-- A WAIT or HOLD at the head of a DRAINING queue is abandoned (R265). -/
def State.abandonHead (s : State) (slice entry : Nat) : State :=
  let q := s.queue slice entry
  if q.state == 3 && q.access.isNone && (q.head.map Packet.waits).getD true then s.dropHead slice entry else s

/-- DESTROY (R256, R265), once an earlier REGISTER has been answered. -/
def State.destroyQueue (s : State) (slice entry : Nat) : State :=
  let q := s.queue slice entry
  if q.cmd != 2 || q.access.any (fun a => a.2 == .register) then s
  else if q.state == 1 || q.state == 2 then
    let s1 := s.modQueue slice entry (fun q => { q with cmd := 0, result := 0, state := 3, headerDue := true })
    (s1.writeHeader slice entry).abandonHead slice entry
  else (s.modQueue slice entry (fun q => { q with cmd := 0, result := 1 })).refuse slice (queueCmdOffset entry)

/-- QUEUE_DESTROY (R256). -/
def execQueueDestroy (slice entry : Nat) (s : State) : Host.Outcome State Fault Refusal := .next ((s.destroyQueue slice entry).settle)

/-! ## The watch on the write index (R258, R259) -/

/-- 0 ≤ WRIDX − RDIDX ≤ 2^LOG2N, as a signed 64-bit difference (R259). -/
def indexOk (wridx rdidx log2n : Nat) : Bool :=
  let d := (BitVec.ofNat 64 wridx - BitVec.ofNat 64 rdidx).toInt
  decide (0 ≤ d) && decide (d ≤ 2 ^ log2n)

/-- The launch unit wakes and reads WRIDX (R258, R259). DESIGN CHOICE (log entry 67): reserved bytes of header line 0 that are not zero, for
which R257 names no status, have the outcome of a bad index. -/
def State.wakeQueue (s : State) (slice entry : Nat) : State :=
  let q := s.queue slice entry
  if q.state != 1 || q.access.isSome then s
  else
    State.onRead (s.readLine0 slice entry) slice entry .readIdx (fun bs s =>
      let w := natAt bs 0 8
      let s1 := s.modQueue slice entry (fun q => { q with wridx := w, watch := s.headerHome? slice entry })
      if indexOk w q.rdidx q.log2n && line0Ok bs then s1 else (s1.queueError slice entry qIndex q.rdidx true).writeHeader slice entry)

/-- The watch on header line 0 at its home has something to tell (R258): a write has performed there, since the line holds another WRIDX
than was read last, or a byte that must be zero is not; whether the launch unit can read it shows at its read. -/
def State.watchWakes (s : State) (slice entry : Nat) : Bool :=
  let q := s.queue slice entry
  q.state == 1 && (match q.watch with
    | some (paddr, key) => let bs := s.viewBytes key paddr 128; natAt bs 0 8 != q.wridx || !line0Ok bs
    | none => false)

/-- QUEUE_WAKE (R258). -/
def execQueueWake (slice entry : Nat) (s : State) : Host.Outcome State Fault Refusal := .next ((s.wakeQueue slice entry).settle)

/-! ## The fetch (R258, R261) -/

/-- The slot of a packet index (R255). -/
def QueueEntry.slotAddr (q : QueueEntry) (i : Nat) : Addr := addrAdd q.ring ((64 * (i % 2 ^ q.log2n) : Nat) : Int)

/-- Every earlier kernel of a queue has ended (R260). -/
def State.queueEnded (s : State) (slice entry : Nat) : Bool :=
  s.kernels.all (fun e => e.2.slice != slice || e.2.entry != entry || e.2.child.isSome || e.2.ended)

/-- A record of a queue is held by a kernel that has not ended (R261). -/
def State.recordHeld (s : State) (slice entry record : Nat) : Bool :=
  s.kernels.any (fun e => e.2.slice == slice && e.2.entry == entry && e.2.child.isNone && e.2.record == record && !e.2.ended)

/-- A packet may start (R261). -/
def State.mayStart (s : State) (slice entry : Nat) (bs : List Byte) : Bool :=
  let q := s.queue slice entry
  (!packetFence bs || s.queueEnded slice entry) &&
    (packetType bs != 1 || (!s.recordHeld slice entry (packetRecord bs) && decide (s.chargedKernels q.part q.ctx < (s.ctx q.part q.ctx).qkern)))

/-- The error of a KERNEL packet that fails the packet checks (R260). -/
def kernelPacketError? (bs : List Byte) (records : Nat) : Option Nat :=
  if !gridOk bs then some errGrid else if !kernelPacketOk bs records then some errPacket else none

/-- A KERNEL packet starts (R234, R260): the kernel is QUEUED; one that its packet refuses stands at stage 16 or 17 and goes to
FAULTED from DISPATCHING. -/
def State.beginKernel (s : State) (slice entry : Nat) (p : Packet) : State :=
  let q := s.queue slice entry
  if q.started then s
  else
    let f := (s.modQueue slice entry (fun q => { q with started := true })).fresh
    let k := { kernelOfPacket p.bytes slice entry none q.part q.ctx q.prio with
      recordOk := decide (packetRecord p.bytes < q.nrec), stage := (kernelPacketError? p.bytes q.nrec).getD 0 }
    ((f.2.setKernel f.1 k).noteKernel f.1 (fun k => k)).traceLaunch k false

/-- The queue has a packet to fetch (R258, R261, R313). -/
def State.mayFetch (s : State) (slice entry : Nat) : Bool :=
  let q := s.queue slice entry
  q.state == 1 && q.access.isNone && q.head.isNone && s.ctxActive q.part q.ctx && decide (q.rdidx < q.wridx)

/-- A read of the next packet (R258): fresh, on a page of no SEALED slot. -/
def State.readPacket (s : State) (slice entry : Nat) : UnitRead × State :=
  let q := s.queue slice entry
  let r := s.unitBytes slice q.part q.ctx none false (q.slotAddr q.rdidx) 64
  (r.1.strict, r.2)

/-- The next packet is fetched where it may start (R258, R261); a kernel is QUEUED with the fetch of its packet (R234, R264). -/
def State.fetchPacket (s : State) (slice entry : Nat) : State :=
  if !s.mayFetch slice entry then s
  else
    State.onRead (s.readPacket slice entry) slice entry .fetch (fun bs s =>
      if s.mayStart slice entry bs then
        let p : Packet := { index := (s.queue slice entry).rdidx, bytes := bs }
        let s1 := (s.modQueue slice entry (fun q => { q with head := some p, started := false, rdidx := q.rdidx + 1, headerDue := true })).modSlice slice
          (fun x => { x with lastTaken := entry })
        (if packetType bs == 1 then s1.beginKernel slice entry p else s1).writeHeader slice entry
      else s)

/-- A packet of a queue may be fetched and start (R261): what lies there now, where it can be read, else that the read has to be made. -/
def State.packetReady (s : State) (slice entry : Nat) : Bool :=
  s.mayFetch slice entry && (match (s.readPacket slice entry).1 with | .ok bs _ => s.mayStart slice entry bs | _ => true)

/-- The queue of a slice whose packet is taken next (R264): the lowest PRIO among those that may start, then the next in round-robin order
after the one taken last. -/
def State.nextQueue? (s : State) (slice : Nat) : Option Nat :=
  let x := s.slice slice
  let rank := fun (e : Nat) => 256 * (s.queue slice e).prio + (e + 255 - x.lastTaken) % 256
  ((x.queues.keys).filter (fun e => s.packetReady slice e)).foldl (fun acc e => match acc with
    | none => some e
    | some b => if rank e < rank b then some e else acc) none

/-- PACKET_FETCH (R258). -/
def execPacketFetch (slice entry : Nat) (s : State) : Host.Outcome State Fault Refusal := .next ((s.fetchPacket slice entry).settle)

/-! ## What packets do (R260 to R263) -/

/-- The head packet of a queue acts: it is of a type, keeps the rules of R260, and nothing holds the queue. A packet other than
KERNEL that breaks them moves the queue to ERROR. -/
def State.withHead (s : State) (slice entry type : Nat) (f : Packet → State → State) : State :=
  let q := s.queue slice entry
  match q.head with
  | none => s
  | some p =>
    if packetType p.bytes != type || q.access.isSome then s
    else if q.state == 3 && p.waits then s.dropHead slice entry
    else if type == 1 || otherPacketOk p.bytes then f p s
    else ((s.queueError slice entry qBadPacket p.index true).dropHead slice entry).writeHeader slice entry

/-- A packet of no type of R260 moves the queue to ERROR. -/
def State.badHead (s : State) (slice entry : Nat) : State :=
  let q := s.queue slice entry
  match q.head with
  | some p =>
    if (packetType p.bytes == 0 || 7 < packetType p.bytes) && q.access.isNone then
      ((s.queueError slice entry qBadPacket p.index true).dropHead slice entry).writeHeader slice entry
    else s
  | none => s

/-- A KERNEL packet at the head starts (R234, R260). -/
def State.startKernel (s : State) (slice entry : Nat) : State := s.withHead slice entry 1 (fun p s => s.beginKernel slice entry p)

/-- PACKET_KERNEL (R234, R260). -/
def execPacketKernel (slice entry : Nat) (s : State) : Host.Outcome State Fault Refusal := .next ((s.startKernel slice entry).settle)

/-- The values of signals, each read fresh (R261): all of them, or the first access that did not complete. -/
def State.readSignals (s : State) (slice : Nat) (q : QueueEntry) : List Addr → List Nat → UnitRead × List Nat × State
  | [], vs => (.ok [] [], vs, s)
  | a :: rest, vs =>
    match s.unitBytes slice q.part q.ctx none false a 8 with
    | (.ok bs _, s1) => s1.readSignals slice q rest (vs ++ [natAt bs 0 8])
    | (r, s1) => (r.strict, vs, s1)

/-- The addresses of a wait's signals (R260). -/
def packetSignals (bs : List Byte) : List Addr := (List.range (packetNwait bs)).map (fun j => addrAt bs (0x10 + 8 * j))

/-- A wait is evaluated (R261): DEPFAULT first, then its end. -/
def State.evaluateWait (s : State) (slice entry : Nat) (p : Packet) (all : Bool) : State :=
  let q := s.queue slice entry
  let target := natAt p.bytes 8 8
  let r := s.readSignals slice q (packetSignals p.bytes) []
  State.onRead (r.1, r.2.2) slice entry .signals (fun _ s =>
    let vs := r.2.1
    if packetPoison p.bytes && vs.any (fun v => decide (2 ^ 63 ≤ v)) then
      ((s.queueError slice entry qDepFault p.index true).dropHead slice entry).writeHeader slice entry
    else if (if all then vs.all (fun v => decide (target ≤ v)) else vs.any (fun v => decide (target ≤ v))) then s.dropHead slice entry
    else s.modQueue slice entry (fun q => { q with started := true }))

/-- PACKET_WAITALL (R261). -/
def execPacketWaitall (slice entry : Nat) (s : State) : Host.Outcome State Fault Refusal :=
  .next ((s.withHead slice entry 2 (fun p s => s.evaluateWait slice entry p true)).settle)

/-- PACKET_WAITANY (R261). -/
def execPacketWaitany (slice entry : Nat) (s : State) : Host.Outcome State Fault Refusal :=
  .next ((s.withHead slice entry 3 (fun p s => s.evaluateWait slice entry p false)).settle)

/-- WAIT_REEVALUATE (R261): a wait at the head reads its signals again. -/
def execWaitReevaluate (slice entry : Nat) (s : State) : Host.Outcome State Fault Refusal :=
  let s1 := s.withHead slice entry 2 (fun p s => s.evaluateWait slice entry p true)
  if (s.queue slice entry).head.map (fun p => packetType p.bytes) == some 2 then .next s1.settle
  else .next ((s.withHead slice entry 3 (fun p s => s.evaluateWait slice entry p false)).settle)

/-- A SIGNAL packet's write (R261): OP 0 stores VALUE, OP 1 adds it. -/
def State.sendSignal (s : State) (slice entry : Nat) : State :=
  s.withHead slice entry 4 (fun p s =>
    let q := s.queue slice entry
    let v := natAt p.bytes 0x10 8
    State.onWrite
      (s.unitWrite slice q.part q.ctx none (addrAt p.bytes 8) 8 (natAt p.bytes 4 4 != 0) (fun old => leBytes 8 (if natAt p.bytes 4 4 == 0 then v else (natAt old 0 8 + v) % 2 ^ 64)))
      slice entry .target (fun s => s.dropHead slice entry))

/-- PACKET_SIGNAL (R261). -/
def execPacketSignal (slice entry : Nat) (s : State) : Host.Outcome State Fault Refusal := .next ((s.sendSignal slice entry).settle)

/-- A HOLD takes a grant (R261, R263). -/
def State.takeHold (s : State) (slice entry : Nat) : State :=
  s.withHead slice entry 5 (fun p s =>
    let q := s.queue slice entry
    let id := natAt p.bytes 4 4
    let n := (s.ctx q.part q.ctx).holds.getD id 0
    if n == 0 then s.modQueue slice entry (fun q => { q with started := true })
    else (s.modCtx q.part q.ctx (fun x => { x with holds := x.holds.put id (n - 1) })).dropHead slice entry)

/-- PACKET_HOLD (R261). -/
def execPacketHold (slice entry : Nat) (s : State) : Host.Outcome State Fault Refusal := .next ((s.takeHold slice entry).settle)

/-- A RELEASE adds a grant (R261, R263). -/
def State.addHold (s : State) (slice entry : Nat) : State :=
  s.withHead slice entry 6 (fun p s =>
    let q := s.queue slice entry
    let id := natAt p.bytes 4 4
    (s.modCtx q.part q.ctx (fun x => { x with holds := x.holds.put id (min (x.holds.getD id 0 + 1) 255) })).dropHead slice entry)

/-- PACKET_RELEASE (R261). -/
def execPacketRelease (slice entry : Nat) (s : State) : Host.Outcome State Fault Refusal := .next ((s.addHold slice entry).settle)

/-- PACKET_NOP (R261); a packet of no type of R260 ends here too, in ERROR. -/
def execPacketNop (slice entry : Nat) (s : State) : Host.Outcome State Fault Refusal :=
  .next (((s.withHead slice entry 7 (fun _ s => s.dropHead slice entry)).badHead slice entry).settle)

/-! ## Replies to a queue's accesses (R405) -/

/-- An access is made again from translation (R405). -/
def State.retryAccess (s : State) (slice entry : Nat) : State :=
  match (s.queue slice entry).access with
  | none => s
  | some (_, what) =>
    let s1 := s.modQueue slice entry (fun q => { q with access := none, far := none })
    match what with
    | .register => (s.modQueue slice entry (fun q => { q with access := some (0, .register) })).registerQueue slice entry
    | .readIdx => (s1.wakeQueue slice entry).judgeQueue slice entry
    | .fetch => (s1.fetchPacket slice entry).judgeQueue slice entry
    | .signals => (s1.withHead slice entry 2 (fun p s => s.evaluateWait slice entry p true)).withHead slice entry 3
        (fun p s => s.evaluateWait slice entry p false)
    | .record kid => (s1.writeRecordOf kid).judgeQueue slice entry
    | .signal kid => s1.signalKernel kid
    | .header => (s1.writeHeader slice entry).judgeQueue slice entry
    | .target => s1.sendSignal slice entry

end Sys2Proof.Machine
end

