-- ==== Sys2Proof/Machine/Contexts.lean ====
section
/-!
DEFINITION. Contexts and key slots (R312 to R317, R366, R367): the context commands and the key commands.
-/
namespace Sys2Proof.Machine

/-! ## What commands share -/

/-- A slice takes part in a partition: owned and not lent, or borrowed (R299, R307). -/
def State.sliceServes (s : State) (part slice : Nat) : Bool :=
  let x := s.slice slice
  match x.borrower with
  | some b => b == part
  | none => x.owner == some part

/-- The lowest slice of a partition: the one whose registers record a refusal of a command that names no slice. -/
def State.firstSlice (s : State) (part : Nat) : Nat := match s.part? part with | some p => p.slices.headD 0 | none => 0

/-- Every core of a partition sends its store-buffer entries, as L1WB does (R317). -/
def State.writeBackPart (s : State) (part : Nat) : State :=
  s.forEach (s.sheaves.filter (fun e => s.partOf e.2 == part)) (fun s e => s.sendBuffer e.1)

/-- Every write of a partition that was sent is acknowledged (R314, R317). -/
def State.finishPart (s : State) (part : Nat) : State := s.forEach (s.msgs.filter (fun m => m.part == part)) (fun s m => s.finishMsg m)

/-- Every core of a partition invalidates its L1, as L1INV does (R314, R317). -/
def State.invalidatePart (s : State) (part : Nat) : State :=
  s.forEach (s.cores.keys.filter (fun c => s.sliceServes part (sliceOf c))) (fun s c => s.invalidate c (fun _ => true))

/-- Put a key slot (R315). -/
def State.putKey (s : State) (part kh : Nat) (k : KeySlot) : State := s.modPart part (fun p => { p with keys := p.keys.put kh k })

/-- Nothing keeps the steps of an erasure back (R314, R317): every write sent is acknowledged, and every L1 can be invalidated. -/
def State.mayErase (s : State) (part : Nat) : Bool :=
  s.msgs.all (fun m => m.part != part) &&
    (s.cores.keys.filter (fun c => s.sliceServes part (sliceOf c))).all (fun c => (s.refreshBlocked? c (fun _ => true)).isNone)

/-- A key slot is erased (R317): the cipher boundaries drop the key, and every L1 is invalidated. -/
def State.eraseKey (s : State) (part kh : Nat) : State := (s.putKey part kh KeySlot.zero).invalidatePart part

/-- An ERASE of a partition is in progress: the device takes no other key command (R316, R317). -/
def State.keyBusy (s : State) (part : Nat) : Bool := match s.part? part with | some p => p.erasing.isSome | none => false

/-! ## Context commands (R313) -/

/-- The control-space offset of a context's CMD (R303, R312). -/
def ctxCmdOffset (ctx : Nat) : Nat := 0x06000000 + 64 * ctx + 0x18

/-- A command of a context is taken: its effect where the state allows it, else REG_REFUSED. Number 0xFFFF names no context. While a
DESTROY is in progress no command is taken (R313, R314). -/
def State.ctxCommand (s : State) (part ctx : Nat) (from_ : CtxState → Bool) (f : State → State) : State :=
  match s.part? part with
  | none => s
  | some _ =>
    if (s.ctx part ctx).ending then s
    else if ctx < 0xFFFF && from_ (s.ctx part ctx).state then f (s.modCtx part ctx (fun x => { x with cmd := 0, result := 0 }))
    else
      (s.modCtx part ctx (fun x => { x with cmd := 0, result := 1 })).refuse (s.firstSlice part) (ctxCmdOffset ctx)

/-- A context's state changes. -/
def State.setCtxState (s : State) (part ctx : Nat) (x : CtxState) : State := s.modCtx part ctx (fun c => { c with state := x })

/-- The kernels of a context. -/
def State.kernelsOf (s : State) (part ctx : Nat) : List (Nat × Kernel) := s.kernels.filter (fun e => e.2.part == part && e.2.ctx == ctx)

/-- The tufts of a context. -/
def State.tuftsOfCtx (s : State) (part ctx : Nat) : List (Nat × Tuft) := (s.kernelsOf part ctx).flatMap (fun e => s.tuftsOf e.1)

/-- CREATE (R313): hold counters and child table zeroed. -/
def State.ctxCreate (s : State) (part ctx : Nat) : State :=
  s.ctxCommand part ctx (fun x => x == .none || x == .destroyed) (fun s =>
    (s.modCtx part ctx (fun x => { x with state := .created, holds := [], children := [] })).zeroChildren part ctx)

/-- CTX_CREATE (R313). -/
def execCtxCreate (part ctx : Nat) (s : State) : Host.Outcome State Fault Refusal := .next ((s.ctxCreate part ctx).settle)

/-- ACTIVATE (R313). -/
def State.ctxActivate (s : State) (part ctx : Nat) : State :=
  s.ctxCommand part ctx (fun x => x == .created) (fun s => s.setCtxState part ctx .active)

/-- CTX_ACTIVATE (R313). -/
def execCtxActivate (part ctx : Nat) (s : State) : Host.Outcome State Fault Refusal := .next ((s.ctxActivate part ctx).settle)

/-- Tuft-boundary pre-emption is requested of a kernel (R234, R235). -/
def State.preemptKernel (s : State) (kid : Nat) : State :=
  match s.kernel? kid with
  | none => s
  | some k =>
    if k.state == .running then ((s.endHead kid).noteKernel kid (fun k => { k with state := .draining, preempt := true })).judgeKernel kid
    else if k.state == .draining then (s.modKernel kid (fun k => { k with preempt := true, again := false })).judgeKernel kid
    else s

/-- A tuft's suspension is ordered, unless it has handles or waits in HRECV (R313). -/
def State.orderSuspension (s : State) (tid : Nat) : State :=
  match s.tuft? tid with
  | none => s
  | some t => if t.state == .resident && !s.hasHandles tid && !s.receives t then s.modTuft tid (fun t => { t with forced := true }) else s

/-- SUSPEND (R313). -/
def State.ctxSuspend (s : State) (part ctx : Nat) (save : Bool) : State :=
  s.ctxCommand part ctx (fun x => x == .active) (fun s =>
    let s1 := (s.setCtxState part ctx .suspended).forEach (s.kernelsOf part ctx) (fun s e => s.preemptKernel e.1)
    if save then s1.forEach (s1.tuftsOfCtx part ctx) (fun s e => s.orderSuspension e.1) else s1)

/-- CTX_SUSPEND (R313). -/
def execCtxSuspend (part ctx : Nat) (save : Bool) (s : State) : Host.Outcome State Fault Refusal := .next ((s.ctxSuspend part ctx save).settle)

/-- A kernel is resumed (R234, R313): a SUSPENDED one is QUEUED; one that still drains will be (log entry 70). -/
def State.resumeKernel (s : State) (kid : Nat) : State :=
  match s.kernel? kid with
  | none => s
  | some k =>
    if k.state == .suspended then s.noteKernel kid (fun k => { k with state := .queued, stage := 0, preempt := false, again := false })
    else if k.state == .draining && k.preempt then s.modKernel kid (fun k => { k with again := true })
    else s

/-- RESUME (R313). -/
def State.ctxResume (s : State) (part ctx : Nat) : State :=
  s.ctxCommand part ctx (fun x => x == .suspended) (fun s =>
    (s.setCtxState part ctx .active).forEach (s.kernelsOf part ctx) (fun s e => s.resumeKernel e.1))

/-- CTX_RESUME (R313). -/
def execCtxResume (part ctx : Nat) (s : State) : Host.Outcome State Fault Refusal := .next ((s.ctxResume part ctx).settle)

/-- Every kernel of a context is discarded (R313). -/
def State.discardCtx (s : State) (part ctx : Nat) : State := s.forEach (s.kernelsOf part ctx) (fun s e => s.discardKernel e.1)

/-- A context may fault or, from one state more, be destroyed (R313). -/
def CtxState.standing : CtxState → Bool
  | .created | .active | .suspended => true
  | _ => false

/-- FAULT (R313). -/
def State.ctxFault (s : State) (part ctx : Nat) : State :=
  s.ctxCommand part ctx CtxState.standing (fun s => (s.setCtxState part ctx .faulted).discardCtx part ctx)

/-- CTX_FAULT (R313). -/
def execCtxFault (part ctx : Nat) (s : State) : Host.Outcome State Fault Refusal := .next ((s.ctxFault part ctx).settle)

/-- The queues of a context: slice and entry. -/
def State.queuesOf (s : State) (part ctx : Nat) : List (Nat × Nat) :=
  s.slices.flatMap (fun e => (e.2.queues.filter (fun q => q.2.part == part && q.2.ctx == ctx && (q.2.state == 1 || q.2.state == 2))).map
    (fun q => (e.1, q.1)))

/-- A queue moves to DRAINING with its context's end (R314). -/
def State.drainQueue (s : State) (slice entry : Nat) : State :=
  ((s.modQueue slice entry (fun q => { q with state := 3, headerDue := true })).writeHeader slice entry).abandonHead slice entry

/-- The steps of R314, as far as they go now: the invalidation waits until every write sent is acknowledged. -/
def State.endDestroy (s : State) (part ctx : Nat) : State :=
  if !(s.ctx part ctx).ending then s
  else
    let s1 := s.forEach (s.queuesOf part ctx) (fun s q => s.drainQueue q.1 q.2)
    let s2 := (s1.discardCtx part ctx).modCtx part ctx (fun x => { x with children := [] })
    let s3 := ((s2.forEach (s2.msgs.filter (fun m => m.part == part && m.ctx == ctx)) (fun s m => s.finishMsg m)).writeBackPart part).finishPart part
    if !s3.mayErase part then s3
    else
      let s4 := s3.invalidatePart part
      let keys := match s4.part? part with | some p => p.keys.filter (fun e => e.2.valid && e.2.owner == ctx) | none => []
      (s4.forEach keys (fun s e => s.eraseKey part e.1)).modCtx part ctx (fun x => { x with state := .destroyed, ending := false })

/-- A DESTROY begins, and ends at once where nothing keeps it back (R314). -/
def State.destroyCtx (s : State) (part ctx : Nat) : State :=
  (s.modCtx part ctx (fun x => { x with ending := true })).endDestroy part ctx

/-- DESTROY (R313, R314). -/
def State.ctxDestroy (s : State) (part ctx : Nat) : State :=
  s.ctxCommand part ctx (fun x => x.standing || x == .faulted) (fun s => s.destroyCtx part ctx)

/-- CTX_DESTROY (R313, R314). -/
def execCtxDestroy (part ctx : Nat) (s : State) : Host.Outcome State Fault Refusal := .next ((s.ctxDestroy part ctx).settle)

/-! ## Key commands (R315 to R317, R366, R367) -/

/-- OWNER, DECL and MARK of a CONTROL word (R315). -/
def controlOwner (c : BitVec 64) : Nat := field c.toNat 48 16
/-- DECL (R315). -/
def controlDecl (c : BitVec 64) : Bool := field c.toNat 2 1 == 1
/-- MARK (R315). -/
def controlMark (c : BitVec 64) : Nat := field c.toNat 0 2
/-- A CONTROL word with VALID = 0 and its reserved bits zero (R316). -/
def controlOk (c : BitVec 64) : Bool := field c.toNat 3 5 == 0 && field c.toNat 8 40 == 0

/-- All the bytes of a field are zero. -/
def allZero (bs : List Byte) : Bool := bs.all (fun b => b == 0)

/-- A command names a slot and keeps its reserved fields zero (R316). -/
def commandSound (c : KeyCommand) : Bool := decide (1 ≤ c.kh) && decide (c.kh ≤ 4095) && !c.reserved && controlOk c.control

/-- The checks that LOAD and LOADW share (R316). -/
def State.loadOk (s : State) (part : Nat) (c : KeyCommand) : Bool :=
  let m := controlMark c.control
  commandSound c && !(s.keySlot part c.kh).valid &&
    (controlOwner c.control == 0xFFFF || (s.ctx part (controlOwner c.control)).state.mayQueue) &&
    (if m == 3 then !allZero c.digest else !controlDecl c.control && allZero c.digest)

/-- The slot that a command fills with a key pair (R315). -/
def slotOfCommand (c : KeyCommand) (pair : List Byte) : KeySlot :=
  { owner := controlOwner c.control, valid := true, decl := controlDecl c.control, mark := BitVec.ofNat 2 (controlMark c.control),
    digest := c.digest, key := 1 + leNat pair }

/-- RESULT of a key command: OP and the KEY bytes of the block are zero again; a refusal counts in REFUSED too (R304, R316). -/
def State.keyResult (s : State) (slice code : Nat) : State :=
  let s1 := s.modSlice slice (fun x =>
    { x with keyResult := code,
             keyBlock := List.replicate 4 0 ++ bytesAt x.keyBlock 4 76 ++ List.replicate 64 0 ++ bytesAt x.keyBlock 144 104 ++ leBytes 4 code ++
                         bytesAt x.keyBlock 252 4 })
  if code == 0 then s1 else s1.refuse slice 0x05000000

/-- LOAD (R316). -/
def State.loadKey (s : State) (slice : Nat) (c : KeyCommand) : State :=
  match (s.slice slice).owner with
  | none => s
  | some part =>
    if s.keyBusy part then s
    else if s.loadOk part c && controlMark c.control != 3 && c.key.take 32 != c.key.drop 32 then (s.putKey part c.kh (slotOfCommand c c.key)).keyResult slice 0
    else s.keyResult slice 1

/-- KEY_LOAD (R316). -/
def execKeyLoad (slice : Nat) (cmd : KeyCommand) (s : State) : Host.Outcome State Fault Refusal := .next ((s.loadKey slice cmd).settle)

/-- A stretch that the partition kernel may name to Campion: below 1 TB of its package, in frames of the partition with PK = 1
(R290, R358, R366). -/
def State.kernelFrames (s : State) (part paddr len : Nat) : Bool :=
  (List.range ((paddr % 65536 + len + 65535) / 65536)).all (fun i =>
    let w := (s.ownerWord (paddr + 65536 * i)).toNat
    field w 31 1 == 1 && field w 30 1 == 1 && field w 16 10 == part)

/-- MS1, which no live activation changes (R357). -/
def Package.ms1 (k : Package) : List Byte := k.ms.getD 1 zeroSlot

/-- CDI1 of a package (R355). -/
def State.cdi1 (s : State) (pkg : Nat) : List Byte := Config.shake256 (Config.uds pkg ++ (s.package pkg).ms1) 64

/-- The bytes of a name in a derivation (R355). -/
def asciiBytes (name : String) : List Byte := name.toList.map (fun c => BitVec.ofNat 8 c.toNat)

/-- The private wrap key of a partition at a layout sequence (R355). -/
def State.wrapPrivate (s : State) (pkg part lseq : Nat) : List Byte :=
  Config.shake256 (s.cdi1 pkg ++ asciiBytes "wrap" ++ leBytes 2 part ++ leBytes 8 lseq) 56

/-- The public wrap key of a partition at a layout sequence (R355, R361). -/
def State.wrapPublic (s : State) (pkg part lseq : Nat) : List Byte := Config.x448Public (s.wrapPrivate pkg part lseq)

/-- The key that a wrapped key block is encrypted with (R366), from the side that holds the private wrap key. -/
def State.keyEncryptionKey (s : State) (pkg part lseq : Nat) (ephem : List Byte) : List Byte :=
  Config.shake256 (Config.x448 (s.wrapPrivate pkg part lseq) ephem ++ s.wrapPublic pkg part lseq ++ ephem ++ leBytes 8 lseq ++ leBytes 2 part) 32

/-- The key pair inside a wrapped key block (R366): none where the GCM tag fails. -/
def State.openBlock (s : State) (pkg part lseq : Nat) (bs : List Byte) : Option (List Byte) :=
  let kek := s.keyEncryptionKey pkg part lseq (bytesAt bs 0x18 56)
  let pair := Config.gcmPlain kek (bytesAt bs 0x90 12) (bytesAt bs 0x9C 64)
  if Config.gcmTag kek (bytesAt bs 0x90 12) (bytesAt bs 0 0x90) pair == bytesAt bs 0xDC 16 then some (bytesAt pair 0 64) else none

/-- The first refusal of a wrapped key block that stands (R367), its key pair being opened last. -/
def State.unwrap? (s : State) (slice part : Nat) (c : KeyCommand) (bs : List Byte) : Option (List Byte) :=
  let lseq := match s.part? part with | some p => p.lseq | none => 0
  if natAt bs 0 4 != 1 || !zeroAt bs 0xEC 20 || natAt bs 4 2 != part then none
  else if natAt bs 6 2 != c.kh || natAt bs 0x10 8 != c.control.toNat || bytesAt bs 0x50 64 != c.digest then none
  else if natAt bs 8 8 != lseq then none
  else s.openBlock (packageOf slice) part lseq bs

/-- LOADW (R316, R366, R367). -/
def State.loadWrapped (s : State) (slice : Nat) (c : KeyCommand) : State :=
  match (s.slice slice).owner with
  | none => s
  | some part =>
    let at_ := natAt c.key 0 8
    if s.keyBusy part then s
    else if !s.loadOk part c || !allZero (c.key.drop 8) || at_ % 64 != 0 || !s.kernelFrames part at_ 256 || s.poisoned at_ 256 then s.keyResult slice 1
    else match s.unwrap? slice part c (s.viewBytes 0 at_ 256) with
      | none => s.keyResult slice 2
      | some pair => (s.putKey part c.kh (slotOfCommand c pair)).keyResult slice 0

/-- KEY_LOADW (R366, R367). -/
def execKeyLoadw (slice : Nat) (cmd : KeyCommand) (s : State) : Host.Outcome State Fault Refusal := .next ((s.loadWrapped slice cmd).settle)

/-- The steps of R317, as far as they go now: the key is dropped once every write sent before is acknowledged. -/
def State.endErase (s : State) (part : Nat) : State :=
  match (s.part? part).bind Partition.erasing with
  | none => s
  | some (kh, slice) =>
    let s1 := (s.writeBackPart part).finishPart part
    if s1.mayErase part then ((s1.eraseKey part kh).modPart part (fun p => { p with erasing := none })).keyResult slice 0 else s1

/-- ERASE (R316, R317). -/
def State.eraseCommand (s : State) (slice : Nat) (c : KeyCommand) : State :=
  match (s.slice slice).owner with
  | none => s
  | some part =>
    if s.keyBusy part then s
    else if commandSound c && c.control == 0 && allZero c.digest && (s.keySlot part c.kh).valid then
      (s.modPart part (fun p => { p with erasing := some (c.kh, slice) })).endErase part
    else s.keyResult slice 1

/-- KEY_ERASE (R317). -/
def execKeyErase (slice : Nat) (cmd : KeyCommand) (s : State) : Host.Outcome State Fault Refusal := .next ((s.eraseCommand slice cmd).settle)

end Sys2Proof.Machine
end

