-- ==== Sys2Proof/Machine/Fences.lean ====
section
/-!
DEFINITION. Releases, acquires and cache maintenance (R171, R172), and the lease instructions (R245).
-/
namespace Sys2Proof.Machine

/-- The FENCE family (R151): it acts once for the sheaf where some issuing lane's guard is true. -/
def formSy : Form := Form.plain

/-- A release at a scope (R171): the state when it is complete, or the wait on the counters. -/
def relAct (slot : Slot) (scope : Nat) (s : State) (next : State → Act) : Act :=
  let s1 := s.releaseStart slot.sid scope
  if s1.ended slot.sid then .stop s1
  else if s1.released slot.sid scope then next s1 else .wait (.counters scope) s1

/-- An acquire at a scope (R171); it waits where a sector with unsent bytes cannot be read again (R341). -/
def acqAct (slot : Slot) (scope : Nat) (s : State) : Act :=
  match s.acquireBlocked? slot.sid scope with
  | some paddr => waitFar paddr s
  | none => .next (s.acquire slot.sid scope)

/-- An operation of the SY format with a scope. -/
def scopeOp (k : Nat) (body : Slot → State → Act) (_ : Slot) : Op :=
  { ok := scopeOk k, uses := [], also := [], writes := [], body := fun slot _ s => body slot s }

/-- FENCE (R171): REL, then ACQ. -/
def execFence (g : BitVec 4) (n : BitVec 1) (k : BitVec 3) (s : State) : Host.Outcome State Fault Refusal :=
  issued formSy g n (scopeOp k.toNat (fun slot s => relAct slot k.toNat s (acqAct slot k.toNat))) s

/-- REL (R171). -/
def execRel (g : BitVec 4) (n : BitVec 1) (k : BitVec 3) (s : State) : Host.Outcome State Fault Refusal :=
  issued formSy g n (scopeOp k.toNat (fun slot s => relAct slot k.toNat s .next)) s

/-- ACQ (R171). -/
def execAcq (g : BitVec 4) (n : BitVec 1) (k : BitVec 3) (s : State) : Host.Outcome State Fault Refusal :=
  issued formSy g n (scopeOp k.toNat (fun slot s => acqAct slot k.toNat s)) s

/-- The target core of an ACQ.RMT (R172), none where it is ILLEGAL. -/
def State.remoteCore? (s : State) (sh : Sheaf) (w : Word) : Option Nat :=
  let slice := packageOf (sliceOf sh.core) * 8 + field w.toNat 8 3
  let inPart := match s.part? (s.partOf sh) with | some p => p.slices.contains slice | none => false
  if field w.toNat 0 8 < 192 && w.toNat / 2048 == 0 && inPart then some (slice * 192 + field w.toNat 0 8) else none

/-- ACQ.RMT (R172): the target's buffers are sent; its invalidation and the requester's acquire follow when the target's sends
are acknowledged. -/
def execAcqRmt (g : BitVec 4) (n : BitVec 1) (b : BitVec 8) (s : State) : Host.Outcome State Fault Refusal :=
  issued formSy g n (fun _ =>
    { ok := isU b.toNat, uses := [b.toNat], also := [], writes := [],
      body := fun slot sh s => match s.remoteCore? sh (sh.readUB b.toNat) with
        | some core => .wait (.remote core) (s.writeBackCore core)
        | none => .trap (illegalWord slot) s }) s

/-- WDRAIN (R171). -/
def execWdrain (g : BitVec 4) (n : BitVec 1) (s : State) : Host.Outcome State Fault Refusal :=
  issued formSy g n (fun _ =>
    { ok := true, uses := [], also := [], writes := [],
      body := fun slot _ s =>
        let s1 := s.sendBuffer slot.sid
        if s1.released slot.sid 4 then .next s1 else .wait (.counters 4) s1 }) s

/-- L1WB (R171). -/
def execL1wb (g : BitVec 4) (n : BitVec 1) (s : State) : Host.Outcome State Fault Refusal :=
  issued formSy g n (fun _ =>
    { ok := true, uses := [], also := [], writes := [], body := fun _ sh s => .next (s.writeBackCore sh.core) }) s

/-- L1INV (R171). -/
def execL1inv (g : BitVec 4) (n : BitVec 1) (s : State) : Host.Outcome State Fault Refusal :=
  issued formSy g n (fun _ =>
    { ok := true, uses := [], also := [], writes := [], body := fun _ sh s => match s.refreshBlocked? sh.core (fun _ => true) with
        | some paddr => waitFar paddr s
        | none => .next (s.invalidate sh.core (fun _ => true)) }) s

/-! ## Leases (R242, R245) -/

/-- The lease instructions (R245). -/
def formLease : Form := { Form.plain with wide := true }

/-- LEASE.SET (R245): declared mode. -/
def execLeaseSet (g : BitVec 4) (n : BitVec 1) (b : BitVec 8) (s : State) : Host.Outcome State Fault Refusal :=
  issued formLease g n (fun _ =>
    { ok := isU b.toNat, uses := [b.toNat], also := [], writes := [],
      body := fun slot sh s =>
        .ofSheaf slot s { sh with lease := { sh.lease with measured := false, lease := min (sh.readUB b.toNat).toNat 255 } } }) s

/-- LEASE.MEAS (R245): measured mode, D and VG kept. -/
def execLeaseMeas (g : BitVec 4) (n : BitVec 1) (s : State) : Host.Outcome State Fault Refusal :=
  issued formLease g n (fun _ =>
    { ok := true, uses := [], also := [], writes := [],
      body := fun slot sh s => .ofSheaf slot s { sh with lease := { sh.lease with measured := true, lease := sh.lease.measuredValue } } }) s

/-- LEASE.GET (R245). -/
def execLeaseGet (g : BitVec 4) (n : BitVec 1) (b : BitVec 8) (s : State) : Host.Outcome State Fault Refusal :=
  issued formLease g n (fun _ =>
    { ok := isU b.toNat, uses := [b.toNat], also := [], writes := [],
      body := fun slot sh s => .ofSheaf slot s (sh.writeUB b.toNat (BitVec.ofNat 32 sh.lease.measuredValue) 0) }) s

end Sys2Proof.Machine
end

