-- ==== Sys2Proof/Machine/Flight.lean ====
section
/-!
DEFINITION. What happens to things in flight: store-buffer entries, sends, acknowledgements, loads, home atomics, long-latency
results and matrix operations (R98, R157, R158, R166, R170, R193, R221).
-/
namespace Sys2Proof.Machine

/-- The oldest entry of a sheaf's buffer is sent (R158). -/
def State.sendOldest (s : State) (sid : Nat) : State :=
  match (s.sheaf? sid).map Sheaf.buf with
  | some (e :: _) => s.sendEntry sid e
  | _ => s

/-- STORE_BUFFER_SEND (R158). -/
def execStoreBufferSend (sid : Nat) (s : State) : Host.Outcome State Fault Refusal := .next (s.sendOldest sid)

/-- A send performs at its home, after the earlier sends of its core to its line (R158, R221). -/
def State.performNumber (s : State) (mid : Nat) : State :=
  match s.msg? mid with
  | none => s
  | some m =>
    (s.performBefore m.core (lineOf m.paddr) (fun x => x.id == mid)).performId mid

/-- WRITE_PERFORM (R221). -/
def execWritePerform (mid : Nat) (s : State) : Host.Outcome State Fault Refusal := .next ((s.performNumber mid).settle)

/-- The answer to a send that has performed: an acknowledgement for a write, a reply for an atomic (R166, R170). -/
def State.answerMsg (s : State) (mid : Nat) (atomic : Bool) : State :=
  match s.msg? mid with
  | none => s
  | some m =>
    let isAtomic := match m.kind with | .write => false | .atomic _ _ _ _ _ _ => true
    if m.performed && s.carried m && isAtomic == atomic then s.replyMsg m else s

/-- WRITE_ACK (R170). -/
def execWriteAck (mid : Nat) (s : State) : Host.Outcome State Fault Refusal := .next ((s.answerMsg mid false).settle)

/-- ATOMIC_REPLY (R166). -/
def execAtomicReply (mid : Nat) (s : State) : Host.Outcome State Fault Refusal := .next ((s.answerMsg mid true).settle)

/-- LOAD_RETURN (R157): the data of some lanes returns. -/
def execLoadReturn (sid pid : Nat) (lanes : BitVec 32) (s : State) : Host.Outcome State Fault Refusal :=
  match (s.sheaf? sid).bind (fun sh => sh.pend? pid) with
  | none => .next s
  | some p => match p.kind with
    | .load _ _ => .next ((s.returnLoad sid pid lanes).settle)
    | _ => .next s

/-- Some lanes of a set that nothing settles: a part of it, never an empty part of a set that is not empty. -/
def State.freeLanes (s : State) (lanes : Mask) : Mask × State :=
  let r := s.choose (2 ^ 32)
  let part := BitVec.ofNat 32 r.1 &&& lanes
  (if part == 0 then lanes else part, r.2)

/-- LONG_LATENCY_RESULT (R98): a special function, shuffle, uniform divide or square root returns, for some of its lanes: inside a window
each element is the old value or the new one (R99). -/
def execLongLatencyResult (sid pid : Nat) (s : State) : Host.Outcome State Fault Refusal :=
  match (s.sheaf? sid).bind (fun sh => sh.pend? pid) with
  | none => .next s
  | some p => match p.kind with
    | .value =>
      let r := s.freeLanes p.lanes
      .next ((r.2.modSheaf sid (fun sh => sh.deliver p r.1)).settle)
    | _ => .next s

/-- MATRIX_OP_COMPLETE (R193): the oldest operation of a sheaf finishes its reads and writes. -/
def execMatrixOpComplete (sid : Nat) (s : State) : Host.Outcome State Fault Refusal := .next ((s.completeMatOp sid).settle)

end Sys2Proof.Machine
end

