-- ==== Sys2Proof/Machine/Handler.lean ====
section
/-!
DEFINITION. The instructions of a trap handler that touch memory, WSPILL and WFILL (R39, R40, R148), and the service call
SVC (R149).
-/
namespace Sys2Proof.Machine

/-- The addresses of a logical register's lanes in the spill area (R40). -/
def Sheaf.spillAddrs (sh : Sheaf) (k : Nat) : List (Nat × Addr) :=
  laneNumbers.map (fun l => (l, addrAdd sh.lstk ((128 * k + 4 * l : Nat) : Int)))

/-- The logical registers that a spill or fill has still to move: n from the lowest, less those moved before a fault. -/
def Sheaf.toMove (sh : Sheaf) (lowest n : Nat) : List Nat := (span lowest n).drop sh.moved

/-- Registers are spilled in ascending logical index (R148): weak stores of all 32 lanes, checked against the mark of each. -/
def spillRegs (slot : Slot) (n : Nat) : List Nat → State → Act
  | [], s => .next (s.modSheaf slot.sid (fun sh => { sh with wrbase := sh.wrbase + n, moved := 0 }))
  | k :: ks, s =>
    match s.sheaf? slot.sid with
    | none => .stop s
    | some sh =>
      let r := sh.vregs.getD (k % sh.vstack) VReg.zero
      match s.checkGlobal sh (sh.spillAddrs k) 4 true r.mark with
      | .stop a => a
      | .go xs s1 =>
        let stores := xs.map (fun x => { trans := x.trans, key := x.key, bytes := leBytes 4 (r.lanes.getD x.lane 0).toNat : LaneStore })
        spillRegs slot n ks ((s1.setSheaf slot.sid { sh.countMem (touchedLines xs) with moved := sh.moved + 1 }).storeLanes slot.sid false 0 stores)

/-- The kernel's LSTKSHEAF (R40, R230). -/
def State.spillArea (s : State) (sh : Sheaf) : Nat := match s.kernelOf? sh with | some k => k.desc.lstksheaf | none => 0

/-- The physical registers that the named logical ones stand in (R38). -/
def Sheaf.physOf (sh : Sheaf) (ks : List Nat) : List Nat := ks.map (fun k => k % sh.vstack)

/-- A spill or fill meets a pending matrix operation of the sheaf (R195 rows 2 and 4): MHAZARD under MSTRICT, under REPLAY it waits. -/
def spillHazard (slot : Slot) (sh : Sheaf) (names writes : List Nat) (go : State → Act) (s : State) : Act :=
  match sh.regHazard? names writes with
  | none => go s
  | some row =>
    if modeMstrict sh.mode then .trap (TrapInfo.at cMhazard row 0 (slot.word.setWidth 64)) s
    else go (if modeReplay sh.mode then s.drainMatrix slot.sid else s)

/-- WSPILL (R39, R148). -/
def wspillOp (n : Nat) (_ : Slot) : Op :=
  { ok := decide (1 ≤ n) && decide (n ≤ 224), legal := inHandler, uses := [], also := [], writes := [],
    body := fun slot sh s =>
      if sh.wrbase + n ≤ sh.wbase && 128 * (sh.wrbase + n) ≤ s.spillArea sh then
        spillHazard slot sh (sh.physOf (sh.toMove sh.wrbase n)) []
          (fun s => spillRegs slot n (sh.toMove sh.wrbase n) (s.forceResults slot.sid (fun _ => true))) s
      else .trap (illegalWord slot) s }

/-- WSPILL (R148). -/
def execWspill (g : BitVec 4) (n : BitVec 1) (x : BitVec 8) (s : State) : Host.Outcome State Fault Refusal :=
  issued formCtWide g n (wspillOp x.toNat) s

/-- The lanes of a filled register, or why its home gave none. -/
def State.fetchLanes (s : State) (sid : Nat) (xs : List Reached) : List (Nat × Word) × Option (Nat × Nat × Nat) × State :=
  xs.foldl (fun (acc : List (Nat × Word) × Option (Nat × Nat × Nat) × State) x =>
    match acc.2.1 with
    | some _ => acc
    | none =>
      match acc.2.2.fetchData sid (x.src false) 4 with
      | (.ok bs, s1) => (acc.1 ++ [(x.lane, (widenBytes .none bs).headD 0)], none, s1)
      | (.bad code pa, s1) => (acc.1, some (code, pa, x.lane), s1)) ([], none, s)

/-- Registers are filled in ascending logical index (R148); each takes the mark of the key slot (R40). -/
def fillRegs (slot : Slot) (n : Nat) : List Nat → State → Act
  | [], s => .next (s.modSheaf slot.sid (fun sh => { sh with wrbase := sh.wrbase - n, moved := 0 }))
  | k :: ks, s =>
    match s.sheaf? slot.sid with
    | none => .stop s
    | some sh =>
      match s.checkGlobal sh (sh.spillAddrs k) 4 false 0 with
      | .stop a => a
      | .go xs s1 =>
        match s1.fetchLanes slot.sid xs with
        | (_, some (code, pa, l), s2) => .stop (s2.endSheaf slot.sid slot (SysFault.ending code (maskOf (fun i => i == l)) pa))
        | (ws, none, s2) =>
          let mark := s2.reachedMark (s2.partOf sh) xs
          fillRegs slot n ks (s2.modSheaf slot.sid (fun sh =>
            { (sh.writePhys (k % sh.vstack) allLanes true (fun l => (ws.find? (fun e => e.1 == l)).elim 0 Prod.snd) mark).countMem (touchedLines xs) with
              moved := sh.moved + 1 }))

/-- WFILL (R39, R148). -/
def wfillOp (n : Nat) (_ : Slot) : Op :=
  { ok := decide (1 ≤ n) && decide (n ≤ 224), legal := inHandler, uses := [], also := [], writes := [],
    body := fun slot sh s =>
      if n ≤ sh.wrbase && sh.wbase + 32 + n ≤ sh.wrbase + sh.vstack && 128 * sh.wrbase ≤ s.spillArea sh then
        (let regs := sh.physOf (sh.toMove (sh.wrbase - n) n)
         spillHazard slot sh regs regs
          (fun s => (fillRegs slot n (sh.toMove (sh.wrbase - n) n) (s.forceResults slot.sid (fun _ => true))).noteWrites slot.sid regs) s)
      else .trap (illegalWord slot) s }

/-- WFILL (R148). -/
def execWfill (g : BitVec 4) (n : BitVec 1) (x : BitVec 8) (s : State) : Host.Outcome State Fault Refusal :=
  issued formCtWide g n (wfillOp x.toNat) s

/-- A request is posted to the partition kernel's service ring, with its interrupt (R149, R301). -/
def State.postService (s : State) (sh : Sheaf) (addr : Addr) (number : Nat) : State :=
  let slice := sliceOf sh.core
  let launch := match s.kernelOf? sh with | some k => k.slice | none => slice
  s.modSlice (s.faultSlice slice (s.partOf sh) launch) (fun x =>
    { x with serviceRing := x.serviceRing ++ [[addr.toNat, number, s.partOf sh, s.ctxOf sh, slice, coreIn sh.core, sh.slotNo]],
             interrupts := x.interrupts ++ [irqService] })

/-- SVC (R149): a PART-scope release, the request posted, then the wait for the reply. -/
def svcOp (b number : Nat) (_ : Slot) : Op :=
  { ok := evenU b, legal := fun sh _ => sh.handler.isNone, uses := span b 2, also := [], writes := [],
    body := fun slot sh s =>
      let addr := sh.readPairB b
      if addr.toNat % 64 != 0 then .trap (illegalWord slot) s
      else
        match s.releaseFirst slot.sid 2 3 with
        | .inl a => a
        | .inr s1 => .wait (.service number) (s1.postService sh addr number) }

/-- SVC (R149). -/
def execSvc (g : BitVec 4) (n : BitVec 1) (b x : BitVec 8) (s : State) : Host.Outcome State Fault Refusal :=
  issued formCtWide g n (svcOp b.toNat x.toNat) s

end Sys2Proof.Machine
end

