-- ==== Sys2Proof/Machine/Paging.lean ====
section
/-!
DEFINITION. The walker's happenings (R283 to R286, R294 to R297): a walk for a TLB miss, the end of a wait on a migrating page,
shoot-downs.
-/
namespace Sys2Proof.Machine

/-- The partition whose work runs on a slice: the borrower's while it is lent (R310). -/
def State.servedPart? (s : State) (slice : Nat) : Option Nat :=
  match (s.slice slice).borrower with
  | some b => some b
  | none => (s.slice slice).owner

/-- A walk for an address of a context that a core's TLB does not hold (R283, R285): where it ends in a leaf, A is set and the TLB
is filled. -/
def State.walkMiss (s : State) (core ctx : Nat) (va : Addr) : State :=
  match s.servedPart? (sliceOf core) with
  | none => s
  | some part => if canonical va then (s.xlateTlb core part ctx none va false).2 else s

/-- WALK (R283). -/
def execWalk (core ctx : Nat) (va : BitVec 64) (s : State) : Host.Outcome State Fault Refusal := .next (s.walkMiss core ctx va)

/-- A table entry still shows a migrating page (R284). -/
def State.stillMigrating (s : State) (entry : Nat) : Bool :=
  let e := s.viewNat 0 entry 8
  e % 2 == 1 && pteRes e == 3

/-- A sheaf that waits for a migrating page issues again once the entry shows another state, or once a shoot-down has completed (R284); one
that is suspended or not yet admitted again does so then (R248). -/
def State.wakeSheaf (s : State) (shot : Bool) (sid : Nat) : State :=
  match (s.sheaf? sid).bind Sheaf.wait with
  | some w => match w.kind with
    | .migrate entry => if s.stillMigrating entry && !shot then s else s.endWait sid (fun s => s.reissue sid)
    | _ => s
  | none => s

/-- A queue whose access waits for a migrating page, or for a port that now carries it, makes it again (R284, R341, R405). -/
def State.wakeAccess (s : State) (slice entry : Nat) : State :=
  match (s.queue slice entry).access with
  | some (0, _) => if s.farHeld slice (s.queue slice entry).far then s else s.retryAccess slice entry
  | _ => s

/-- The walks that wait in a slice are made again (R284). -/
def State.wakeWalks (s : State) (shot : Bool) (slice : Nat) : State :=
  let s1 := s.forEach (s.sheaves.filter (fun e => sliceOf e.2.core == slice)) (fun s e => s.wakeSheaf shot e.1)
  s1.forEach (s1.slice slice).queues.keys (fun s q => s.wakeAccess slice q)

/-- WALK_WAKE (R284). -/
def execWalkWake (slice : Nat) (s : State) : Host.Outcome State Fault Refusal := .next ((s.wakeWalks false slice).settle)

/-! ## Shoot-downs (R294 to R296) -/

/-- The shoot-down that a command block asks for (R294), none where it is malformed. -/
def shootdownOf? (bs : List Byte) (number : Nat) : Option Shootdown :=
  let c := natAt bs 0 4
  let n := natAt bs 4 4
  let va := addrAt bs 8
  if (0xFFFF ≤ c && c != 0xFFFFFFFF) || n == 0 || !addrOk va 65536 || !zeroAt bs 16 16 then none
  else some { number := number, ctx := if c == 0xFFFFFFFF then none else some c, page := pageOf va, pages := if n == 0xFFFFFFFF then none else some n }

/-- GO is taken (R294, R295). -/
def State.takeShootdown (s : State) (slice : Nat) : State :=
  let w := (s.slice slice).walker
  match (s.slice slice).owner.bind s.part? with
  | none => s
  | some p =>
    if w.go != 1 then s
    else match shootdownOf? w.cmd (p.sdseq + 1) with
      | none => (s.modSlice slice (fun x => { x with walker := { x.walker with go := 0, result := 1 } })).refuse slice 0x02000020
      | some d =>
        (s.modSlice slice (fun x => { x with walker := { x.walker with go := 0, result := 0, seq := d.number } })).modPart ((s.slice slice).owner.getD 0)
          (fun p => { p with sdseq := d.number, shoots := p.shoots ++ [d] })

/-- SHOOTDOWN_GO (R294, R295). -/
def execShootdownGo (slice : Nat) (s : State) : Host.Outcome State Fault Refusal := .next (s.takeShootdown slice)

/-- A shoot-down covers some page of a stretch of pages of a context (R294, R296). -/
def Shootdown.overlaps (d : Shootdown) (ctx page pages : Nat) : Bool :=
  (match d.ctx with | none => true | some c => c == ctx) &&
    (match d.pages with | none => true | some n => decide (page < d.page + n) && decide (d.page < page + pages))

/-- A TLB entry is covered. -/
def TlbEntry.shot (t : TlbEntry) (d : Shootdown) : Bool :=
  if t.big then d.overlaps t.ctx (t.page / 2048 * 2048) 2048 else d.overlaps t.ctx t.page 1

/-- Some extents without those covered. -/
def keptExtents (d : Shootdown) (ctx : Nat) (es : List Extent) : List Extent := es.filter (fun e => !d.overlaps ctx e.page e.pages)

/-- The kernels of a partition lose the covered extents, and their tufts with them (R296). -/
def State.revokeExtents (s : State) (part : Nat) (d : Shootdown) : State :=
  s.forEach (s.kernels.filter (fun e => e.2.part == part)) (fun s e =>
    let s1 := s.modKernel e.1 (fun k => { k with extents := keptExtents d k.ctx k.extents })
    s1.forEach (s1.tuftsOf e.1) (fun s t => s.modTuft t.1 (fun t => { t with extents := keptExtents d e.2.ctx t.extents })))

/-- A cached pointer entry is covered. -/
def NodeEntry.shot (n : NodeEntry) (d : Shootdown) : Bool := d.overlaps n.ctx n.page n.pages

/-- The slices whose cores and walkers serve a partition (R310). -/
def State.servedSlices (s : State) (part : Nat) : List Nat := s.slices.keys.filter (fun x => s.sliceServes part x)

/-- The translations that a shoot-down covers leave the TLBs, the walk caches and the extents of a partition (R296). -/
def State.dropShot (s : State) (part : Nat) (d : Shootdown) : State :=
  let s1 := s.forEach (s.cores.keys.filter (fun c => s.sliceServes part (sliceOf c))) (fun s c =>
    s.modCore c (fun k => { k with tlb := k.tlb.filter (fun t => !t.shot d) }))
  let s2 := s1.forEach (s1.servedSlices part) (fun s x => s.modSlice x (fun y => { y with nodes := y.nodes.filter (fun n => !n.shot d) }))
  s2.revokeExtents part d

/-- The pages covered that copy commands of a partition have begun to write take their remaining bytes (R296). -/
def State.finishCopies (s : State) (part : Nat) (d : Shootdown) : State :=
  s.forEach (s.cores.flatMap (fun e => e.2.copies.map (fun c => (e.1, c)))) (fun s x =>
    match (s.tuft? x.2.tid).bind (fun t => s.kernel? t.kid) with
    | some k => if k.part == part then s.finishPages x.1 x.2 (fun page => d.overlaps k.ctx page 1) else s
    | none => s)

/-- The oldest shoot-down of a partition completes (R296), once nothing of it waits for a port: every use of the translations has
performed, they are gone, SDDONE advances, and the walks that wait for a migrating page are made again (R284). -/
def State.completeShootdown (s : State) (part : Nat) : State :=
  match (s.part? part).bind (fun p => p.shoots.head?) with
  | none => s
  | some d =>
    let s1 := s.forEach (s.sheaves.filter (fun e => s.partOf e.2 == part)) (fun s e => s.forceResults e.1 (fun _ => true))
    let s2 := ((s1.finishCopies part d).writeBackPart part).finishPart part
    if s2.sheaves.any (fun e => s2.partOf e.2 == part && s2.stuckSheaf e.1) || s2.msgs.any (fun m => m.part == part) then s2
    else
      let s3 := (s2.dropShot part d).modPart part (fun p => { p with sddone := d.number + 1, shoots := p.shoots.drop 1 })
      s3.forEach (s3.servedSlices part) (fun s x => s.wakeWalks true x)

/-- SHOOTDOWN_COMPLETE (R296). -/
def execShootdownComplete (part : Nat) (s : State) : Host.Outcome State Fault Refusal := .next ((s.completeShootdown part).settle)

end Sys2Proof.Machine
end

