-- ==== Sys2Proof/Machine/Replies.lean ====
section
/-!
DEFINITION. Replies to fault records and to service calls (R149, R248, R292, R293, R335, R336, R405).
-/
namespace Sys2Proof.Machine

/-- Change a record of a partition that can be answered. -/
def State.modToken (s : State) (part token : Nat) (f : Token → Token) : State :=
  s.modPart part (fun p => { p with tokens := p.tokens.modify token f })

/-- What a record's reply would reach still waits for it (R335). -/
def State.awaits (s : State) (token : Nat) (t : Token) : Bool :=
  t.pending && (match t.use with
    | .sheaf sid => (match (s.sheaf? sid).bind Sheaf.wait with | some w => w.kind == .reply token | none => false)
    | .copy core cmd _ => (s.core core).copies.any (fun c => c.id == cmd && c.token == some token) ||
        (s.slice (sliceOf core)).colls.any (fun c => c.id == cmd && c.token == some token)
    | .prefault kid _ => (match s.kernel? kid with | some k => k.prefault == some token | none => false)
    | .dispatch kid => (match s.kernel? kid with | some k => k.access == some token | none => false)
    | .launch slice entry => (match (s.queue slice entry).access with | some (n, _) => n == token | none => false)
    | .abort tid => (s.tuft? tid).isSome
    | .info => false)

/-- A wait keeps the reply that ends it (R248). -/
def Wait.keep (w : Wait) (a : Reply) (t : Token) : Wait := { w with kind := .answered a t.lanes t.code }

/-- A reply reaches a sheaf (R292, R335, R336); one that is SUSPENDED, PARKED or swapped out keeps it until its admission (R248, R337). -/
def State.replySheaf (s : State) (sid : Nat) (t : Token) (a : Reply) : State :=
  match s.sheaf? sid with
  | none => s
  | some sh => if s.waitsHere sh then s.actReply sid a t.lanes t.code else s.setSheaf sid { sh with wait := sh.wait.map (fun w => w.keep a t) }

/-- A reply reaches what waits (R335). -/
def State.replyTo (s : State) (t : Token) (a : Reply) : State :=
  match t.use with
  | .sheaf sid => s.replySheaf sid t a
  | .copy core cmd page => s.replyCopy core cmd (a == .abandon) t.code page
  | .prefault kid page =>
    if a == .abandon then s else s.modKernel kid (fun k => { k with prefault := none, resolved := page :: k.resolved })
  | .dispatch kid => if a == .abandon then s.refuseKernel kid 1 else s.modKernel kid (fun k => { k with access := none })
  | .launch slice entry =>
    if a == .abandon then
      (match (s.queue slice entry).access with
       | some (_, what) => ((s.abandonAccess slice entry what).abandonHead slice entry).judgeQueue slice entry
       | none => s)
    else s.retryAccess slice entry
  | .abort tid => if a == .abandon then s.discardTuft tid else s.modTuft tid (fun t => { t with resumed := true })
  | .info => s

/-- The control-space offset of REPLY (R303, R332). -/
def replyOffset : Nat := 0x07000040

/-- A REPLY of RESUME, ABANDON or DROPLANES at a slice's registration (R335): taken where it is awaited, else refused. -/
def State.reply (s : State) (slice token : Nat) (a : Reply) : State :=
  match (s.slice slice).owner with
  | none => s
  | some part =>
    match (s.part? part).bind (fun p => p.tokens.find? token) with
    | none => s.refuse slice replyOffset
    | some t => if s.awaits token t then (s.modToken part token (fun t => { t with pending := false })).replyTo t a else s.refuse slice replyOffset

/-- REPLY_RESUME (R292, R335). -/
def execReplyResume (slice token : Nat) (s : State) : Host.Outcome State Fault Refusal := .next ((s.reply slice token .resume).settle)

/-- REPLY_ABANDON (R292, R335). -/
def execReplyAbandon (slice token : Nat) (s : State) : Host.Outcome State Fault Refusal := .next ((s.reply slice token .abandon).settle)

/-- REPLY_DROPLANES (R335). -/
def execReplyDroplanes (slice token : Nat) (s : State) : Host.Outcome State Fault Refusal := .next ((s.reply slice token .dropLanes).settle)

/-- A REPLY of DISCARD (R335): the record's tuft, or its kernel where it names no tuft. -/
def State.replyDiscard (s : State) (slice token : Nat) : State :=
  match (s.slice slice).owner with
  | none => s
  | some part =>
    match (s.part? part).bind (fun p => p.tokens.find? token) with
    | none => s.refuse slice replyOffset
    | some t =>
      match t.tid, t.kid with
      | some tid, _ => if (s.tuft? tid).isSome then s.discardTuft tid else s.refuse slice replyOffset
      | none, some kid =>
        (match s.kernel? kid with
         | some k => if k.ended then s.refuse slice replyOffset else s.discardKernel kid
         | none => s.refuse slice replyOffset)
      | none, none => s.refuse slice replyOffset

/-- REPLY_DISCARD (R335). -/
def execReplyDiscard (slice token : Nat) (s : State) : Host.Outcome State Fault Refusal := .next ((s.replyDiscard slice token).settle)

/-! ## Service replies (R149) -/

/-- The partition kernel's reply reaches a sheaf in SVC (R149); one that is SUSPENDED or PARKED keeps it until its admission (R248). -/
def State.serviceReply (s : State) (sid : Nat) (failed : Bool) : State :=
  match s.sheaf? sid, ((s.sheaf? sid).bind Sheaf.wait).map Wait.kind with
  | some sh, some (.service _) =>
    if s.waitsHere sh then s.serviceEnd sid failed
    else s.setSheaf sid { sh with wait := sh.wait.map (fun w => { w with done := some (if failed then 1 else 0) }) }
  | _, _ => s

/-- SERVICE_REPLY (R149). -/
def execServiceReply (sid : Nat) (failed : Bool) (s : State) : Host.Outcome State Fault Refusal := .next ((s.serviceReply sid failed).settle)

end Sys2Proof.Machine
end

