-- ==== Sys2Proof/Machine/Partitions.lean ====
section
/-!
DEFINITION. Partitions (R299 to R311, R357, R359, R394): formation, boot, resizing, lending and recall, HALT, RESUME and
DISSOLVE, and the loss of a slice (R338).
-/
namespace Sys2Proof.Machine

/-! ## Formation and boot (R306, R357, R394) -/

/-- Extend a measurement slot with a digest (R357). -/
def extendSlot (ms d : List Byte) : List Byte := Config.shake256 (ms ++ d) 64

/-- The digest of a component (R357). -/
def digestOf (bs : List Byte) : List Byte := Config.shake256 bs 64

/-- Extend a slot of a list of slots. -/
def extendAt (ms : List (List Byte)) (i : Nat) (d : List Byte) : List (List Byte) :=
  (List.range ms.length).map (fun j => if j == i then extendSlot (ms.getD j zeroSlot) d else ms.getD j zeroSlot)

/-- A partition as it enters FORMING (R295, R306, R312, R315, R357, R359). -/
def newPartition (req : FormRequest) : Partition :=
  let slices := (req.slices.foldl (fun (m : Map Unit) x => m.put x ()) []).keys
  { state := .forming, slices := slices, memBase := req.memBase.foldl (fun (m : Map Nat) e => m.put e.1 e.2) [], routes := req.routes,
    ports := slices.filter (fun x => req.ports.contains x), lseq := 1,
    ms := extendAt (List.replicate 8 zeroSlot) 0 (digestOf req.bootConfig), sdseq := 0, sddone := 1, shoots := [], ctxs := [], keys := [],
    tokens := [], nextToken := 1, request := some .form, colls := [], mailbox := [] }

/-- Campion accepts a formation command (R299, R300, R302): a new number, free and connected slices of brought-up packages, windows, ports of
those slices and routes that no other partition owns. -/
def State.formOk (s : State) (req : FormRequest) : Bool :=
  let p := newPartition req
  decide (req.part < 1024) && (match s.part? req.part with | none => true | some q => q.state == .dissolved) && !p.slices.isEmpty &&
    p.slices.all (fun x => s.sliceFree x && decide (5 ≤ (s.package (packageOf x)).step)) && layoutOk p.slices &&
    (packagesOf p.slices).all (fun k => match p.memBase.find? k with
      | some b => s.windowFree req.part k b (p.slicesIn k).length
      | none => false) &&
    p.memBase.all (fun e => (packagesOf p.slices).contains e.1) && req.ports.all p.slices.contains &&
    p.routes.all (fun r => s.parts.all (fun e => e.1 == req.part || !e.2.routes.contains r))

/-- The name of the management port's answer LAYOUT to a formation command (R299). -/
def replyLayout : Nat := 0x103

/-- Campion answers on the management port of a package (R362, R394, R402). -/
def State.tellPort (s : State) (pkg name : Nat) (bs : List Byte) : State :=
  s.modPackage pkg (fun k => { k with replies := k.replies ++ [{ name := name, bytes := bs }] })

/-- Formation (R306): the partition enters FORMING with ownership, window, routes and a new domain secret; one that no layout allows is
refused with LAYOUT, reported where the command came from, the management port (R299, R394). -/
def State.formPartition (s : State) (req : FormRequest) : State :=
  if s.formOk req then
    let p := { newPartition req with secret := Config.domainSecret s.freeCount }
    (({ s with freeCount := s.freeCount + 1 }.setPart req.part p).moveMemory p.ofHbm).forEach p.slices (fun s x => s.handSlice x (some req.part))
  else s.tellPort (packageOf (req.slices.headD 0)) replyLayout []

/-- PARTITION_FORM (R306). -/
def execPartitionForm (req : FormRequest) (s : State) : Host.Outcome State Fault Refusal := .next (s.formPartition req)

/-- The partition changes where it is in a state. -/
def State.inPartState (s : State) (part : Nat) (x : PartState) (f : Partition → State) : State :=
  match s.part? part with
  | some p => if p.state == x then f p else s
  | none => s

/-- The partition kernel is fetched (R357, R394): MS9 and MS10 are extended, and it runs on the service cores of the partition's slices,
which are offline no more (R305). -/
def State.fetchKernel (s : State) (part : Nat) (image args : List Byte) (p : Partition) : State :=
  (s.setPart part { p with ms := extendAt (extendAt p.ms 1 (digestOf image)) 2 (digestOf args), fetched := true }).forEach p.slices
    (fun s x => s.modSlice x (fun y => { y with offline := false }))

/-- PARTITION_KERNEL_FETCH (R357, R394). -/
def execPartitionKernelFetch (part : Nat) (image args : List (BitVec 8)) (s : State) : Host.Outcome State Fault Refusal :=
  .next (s.inPartState part .booting (s.fetchKernel part image args))

/-- PARTITION_READY (R306, R394): a partition kernel that has been fetched reports ready. -/
def execPartitionReady (part : Nat) (s : State) : Host.Outcome State Fault Refusal :=
  .next (s.inPartState part .booting (fun p => if p.fetched then s.setPart part { p with state := .running } else s))

/-! ## The end of a partition (R306) -/

/-- Nothing of a partition's work remains: tufts, sheaves, kernels, sends. -/
def State.clearWork (s : State) (part : Nat) : State :=
  let kids := (s.kernels.filter (fun e => e.2.part == part)).map Prod.fst
  let s1 := s.forEach (s.tufts.filter (fun e => kids.contains e.2.kid)) (fun s e => s.removeTuft e.1)
  { s1 with kernels := s1.kernels.reject (fun k _ => kids.contains k), msgs := s1.msgs.filter (fun m => m.part != part),
             trays := s1.trays.reject (fun _ t => t.1 == part) }

/-- The planes of every core of a slice are exchanged (R309): lookahead windows end (R99), and nothing is cached across the swap (log entry
26). -/
def State.swapPlanes (s : State) (slice : Nat) : State :=
  { s.modSlice slice (fun x => { x with nodes := [] }) with
    sheaves := s.sheaves.map (fun (e : Nat × Sheaf) => if sliceOf e.2.core == slice && e.2.state != .suspended then (e.1, e.2.closeWindows) else e),
    cores := s.cores.map (fun e =>
      if sliceOf e.1 == slice then (e.1, { e.2 with front := e.2.back, back := e.2.front, l1 := [], tlb := [], victims := [] }) else e) }

/-- The back planes of a slice's cores are scrubbed (R309). -/
def State.scrubBack (s : State) (slice : Nat) : State :=
  { s with cores := s.cores.map (fun (e : Nat × Core) => if sliceOf e.1 == slice then (e.1, { e.2 with back := PlaneState.scrubbed }) else e) }

/-- A borrowed slice goes back to its owner, nothing of the borrower's work being left on it: the owner's plane comes to the front and the
back is scrubbed (R306, R310). -/
def State.returnSlice (s : State) (slice : Nat) : State :=
  let s1 := ((s.swapPlanes slice).scrubBack slice).modSlice slice (fun y => { y with borrower := none, recalled := false, deadline := 0 })
  match (s.slice slice).owner with
  | some part => s1.raiseLseq part
  | none => s1

/-- A partition's end (R306): borrowed slices go back, key slots are erased, ownership words cleared, planes scrubbed, slices freed. What
stands in HBM stays (R302). -/
def State.endPartition (s : State) (part : Nat) : State :=
  match s.part? part with
  | none => s
  | some p =>
    let s1 := s.clearWork part
    let s2 := s1.forEach ((s1.slices.filter (fun e => e.2.borrower == some part)).map Prod.fst) (fun s x => s.returnSlice x)
    let s3 := { s2.moveMemory p.hbmOf with
      frames := s2.frames.reject (fun _ w => field w.toNat 16 10 == part),
      lostSets := s2.lostSets.filter (fun x => p.memBase.find? x.package != some x.base) }
    (s3.forEach p.slices (fun s x => s.handSlice x none)).setPart part
      { p with state := .dissolved, slices := [], memBase := [], routes := [], ports := [], keys := [], ctxs := [], shoots := [], tokens := [],
               request := none, colls := [], secret := [] }

/-- The name of the management port's report of a failure that holds a step (R394). -/
def replyBootFailure : Nat := 0x104

/-- BOOT_FAILURE (R306, R394): the partition is dissolved, and the management port hears of the failure. -/
def execBootFailure (part : Nat) (s : State) : Host.Outcome State Fault Refusal :=
  .next (s.inPartState part .booting (fun p => (s.endPartition part).tellPort (packageOf (p.slices.headD 0)) replyBootFailure (leBytes 2 part)))

/-! ## Resizing (R305, R307) -/

/-- A request of the mailbox is taken: the partition is RUNNING (R306). -/
def State.request (s : State) (part : Nat) (f : Partition → State) : State := s.inPartState part .running f

/-- The slices of a partition with one more. -/
def Partition.withSlice (p : Partition) (slice : Nat) : List Nat := ((slice :: p.slices).foldl (fun (m : Map Unit) x => m.put x ()) []).keys

/-- The window base that an ADD uses, where it may be done (R299, R302, R305): a free slice, connected, and room for the window. -/
def State.addBase? (s : State) (part slice : Nat) (p : Partition) : Option Nat :=
  let pkg := packageOf slice
  let slices := p.withSlice slice
  let count := (slices.filter (fun x => packageOf x == pkg)).length
  (match p.memBase.find? pkg with | some b => some b | none => s.newBase? part pkg).filter (fun b =>
    s.sliceFree slice && layoutOk slices && s.windowFree part pkg b count)

/-- A request that cannot be done is refused, and its partition is RUNNING (R305, R306). -/
def State.refuseRequest (s : State) (part code : Nat) : State :=
  (s.modPart part (fun p => { p with state := .running, request := none })).answerMail part code

/-- ADD is taken (R305, R307): the partition is RESIZING. -/
def State.addSlice (s : State) (part slice : Nat) (p : Partition) : State :=
  match s.addBase? part slice p with
  | some _ => s.setPart part { p with state := .resizing, request := some (.add slice) }
  | none => s.answerMail part mailLayout

/-- ADD ends (R305, R307): firewall, ownership and interleave take the slice in, with its port (log entry 25). -/
def State.finishAdd (s : State) (part slice : Nat) (p : Partition) : State :=
  match s.addBase? part slice p with
  | some b =>
    let q := { p with slices := p.withSlice slice, ports := slice :: p.ports, memBase := p.memBase.put (packageOf slice) b, lseq := p.lseq + 1,
                      state := .running, request := none }
    (((s.bringTop q slice).setPart part q).handSlice slice (some part)).answerMail part 0
  | none => s.refuseRequest part mailLayout

/-- PART_ADD (R305, R307). -/
def execPartAdd (part slice : Nat) (s : State) : Host.Outcome State Fault Refusal := .next (s.request part (s.addSlice part slice))

/-- A queue is registered on a slice and not DESTROYED (R305). -/
def State.queueOn (s : State) (slice : Nat) : Bool := (s.slice slice).queues.any (fun q => q.2.state != 0 && q.2.state != 4)

/-- REMOVE is taken (R305, R307): the drain begins. Whether the service cores of the slice, once they have run, are offline is their
software's doing, which no happening of the machine shows (log entry 16). -/
def State.removeSlice (s : State) (part slice : Nat) (p : Partition) : State :=
  let rest := p.slices.filter (fun x => x != slice)
  let r := if (s.slice slice).offline then (1, s) else s.choose 2
  if !p.slices.contains slice || rest.isEmpty || (s.slice slice).borrower.isSome || !layoutOk rest then s.answerMail part mailLayout
  else if (s.queueOn slice && !(s.slice slice).lost) || r.1 == 0 then r.2.answerMail part mailBusy
  else (r.2.setPart part { p with state := .resizing, request := some (.remove slice) }).modSlice slice (fun x => { x with draining := true, offline := true })

/-- PART_REMOVE (R305, R307). -/
def execPartRemove (part slice _drainMax : Nat) (s : State) : Host.Outcome State Fault Refusal :=
  .next ((s.request part (s.removeSlice part slice)).settle)

/-- A tuft that must leave a slice (R307, R309): discarded with a fault where it has handles, else its suspension is ordered. -/
def State.evictTuft (s : State) (tid : Nat) : State :=
  match s.tuft? tid with
  | none => s
  | some t =>
    if s.hasHandles tid then (s.faultTuft tid fResized 0 0).discardTuft tid
    else if t.state == .resident then (s.modTuft tid (fun t => { t with forced := true })).forceSuspend tid
    else s

/-- DRAINMAX passes (R307): every tuft still resident leaves; those that are not at a boundary follow with FORCED_SUSPENSION. -/
def State.expireDrain (s : State) (part : Nat) : State :=
  match (s.part? part).bind Partition.request with
  | some (.remove slice) => s.forEach (s.tufts.filter (fun e => e.2.resident && sliceOf e.2.core == slice)) (fun s e => s.evictTuft e.1)
  | _ => s

/-- DRAINMAX_EXPIRY (R307). -/
def execDrainmaxExpiry (part : Nat) (s : State) : Host.Outcome State Fault Refusal := .next ((s.expireDrain part).settle)

/-! ## Lending and recall (R309 to R311) -/

/-- A slice may be lent (R305, R310). -/
def State.lendOk (s : State) (part slice borrower deadline : Nat) (p : Partition) : Bool :=
  p.slices.contains slice && (s.slice slice).borrower.isNone && borrower != part && decide (10 ≤ deadline) && decide (deadline ≤ 1000000) &&
    (match s.part? borrower with | some q => q.state == .running | none => false)

/-- LEND is taken (R305, R306): the partition is LENDING. -/
def State.lendSlice (s : State) (part slice borrower deadline : Nat) (p : Partition) : State :=
  if !s.lendOk part slice borrower deadline p then s.answerMail part mailLayout
  else if !s.sliceEmpty slice || s.queueOn slice then s.answerMail part mailBusy
  else s.setPart part { p with state := .lending, request := some (.lend slice borrower deadline) }

/-- LEND ends (R305, R309, R310): the owner's plane is parked and the borrower finds an empty one. -/
def State.finishLend (s : State) (part slice borrower deadline : Nat) (p : Partition) : State :=
  if !s.lendOk part slice borrower deadline p then s.refuseRequest part mailLayout
  else if !s.sliceEmpty slice || s.queueOn slice then s.refuseRequest part mailBusy
  else
    let s1 := s.setPart part { p with state := .running, request := none }
    (((((s1.passSlice part slice).swapPlanes slice).modSlice slice (fun x => { x with borrower := some borrower, deadline := deadline, recalled := false })).raiseLseq
      part).raiseLseq borrower).answerMail part 0

/-- PART_LEND (R305, R310). -/
def execPartLend (part slice borrower deadline : Nat) (s : State) : Host.Outcome State Fault Refusal :=
  .next (s.request part (s.lendSlice part slice borrower deadline))

/-- The borrower tufts that stand in the front plane of a slice. -/
def State.borrowed (s : State) (slice : Nat) : List (Nat × Tuft) :=
  s.tufts.filter (fun e => e.2.resident && !e.2.parked && sliceOf e.2.core == slice)

/-- A tuft has halted: every sheaf at a boundary, nothing issued left (R311). -/
def State.halted (s : State) (tid : Nat) (t : Tuft) : Bool :=
  (s.sheavesOf t).all (fun x => x.2.atBoundary) && !s.hasCommands tid t.core && !s.stuckTuft tid

/-- The tufts that can finish what they issued do so (R311). -/
def State.haltSlice (s : State) (slice : Nat) : State :=
  s.forEach ((s.borrowed slice).filter (fun e => (s.sheavesOf e.2).all (fun x => x.2.atBoundary))) (fun s e => s.quiesce e.1)

/-- The planes swap back once every borrower tuft has halted (R311): the owner's cores resume and the borrower is parked. -/
def State.judgeRecall (s : State) (slice : Nat) : State :=
  let x := s.slice slice
  match x.owner, x.borrower with
  | some part, some borrower =>
    if !x.recalled then s
    else
      let s1 := s.haltSlice slice
      if !(s1.borrowed slice).all (fun e => s1.halted e.1 e.2) then s1
      else
        let s2 := s1.forEach (s1.borrowed slice) (fun s e => s.modTuft e.1 (fun t => { t with parked := true }))
        (((s2.swapPlanes slice).modSlice slice (fun x => { x with borrower := none, recalled := false })).raiseLseq part).raiseLseq borrower
  | _, _ => s

/-- A recall begins (R311): the borrower places no tuft on the slice any more. -/
def State.beginRecall (s : State) (slice : Nat) : State :=
  let s1 := s.modSlice slice (fun x => { x with recalled := true })
  match (s.slice slice).borrower with
  | some borrower => ((s1.leaveLists borrower slice).passSlice borrower slice).judgeRecall slice
  | none => s

/-- RECALL (R305, R311). -/
def State.recallSlice (s : State) (part slice : Nat) (p : Partition) : State :=
  if !p.slices.contains slice || (s.slice slice).borrower.isNone then s.answerMail part mailLayout
  else (s.setPart part { p with state := .recalling, request := some (.recall slice) }).beginRecall slice

/-- PART_RECALL (R305, R311). -/
def execPartRecall (part slice : Nat) (s : State) : Host.Outcome State Fault Refusal := .next ((s.request part (s.recallSlice part slice)).settle)

/-- A borrower tuft that has not halted is discarded with RECALLED (R311). -/
def State.recallTuft (s : State) (tid : Nat) : State := (s.faultTuft tid fRecalled 0 0).discardTuft tid

/-- The deadline of a recall passes (R311). -/
def State.recallDeadline (s : State) (slice : Nat) : State :=
  if !(s.slice slice).recalled then s
  else
    (s.forEach ((s.borrowed slice).filter (fun e => !s.halted e.1 e.2)) (fun s e => s.recallTuft e.1)).judgeRecall slice

/-- RECALL_DEADLINE (R311). -/
def execRecallDeadline (slice : Nat) (s : State) : Host.Outcome State Fault Refusal := .next ((s.recallDeadline slice).settle)

/-- Parked borrower tufts stand on a slice. -/
def State.parkedOn (s : State) (slice : Nat) : List (Nat × Tuft) := s.tufts.filter (fun e => e.2.parked && sliceOf e.2.core == slice)

/-- The planes of a slice have swapped back and its write-out is to come (R311): in a recall, or in a dissolution that recalls it (R306). -/
def State.writesOut (s : State) (slice : Nat) : Bool :=
  let x := s.slice slice
  x.borrower.isNone && (match x.owner.bind s.part? with
    | some p => p.request == some (.recall slice) || (p.request == some .dissolve && !(s.parkedOn slice).isEmpty)
    | none => false)

/-- The parked borrower tufts are written to their save areas and the back plane is scrubbed (R311); the recall ends (R306). -/
def State.writeOut (s : State) (slice : Nat) : State :=
  if !s.writesOut slice then s
  else
    let s1 := (s.forEach (s.parkedOn slice) (fun s e => (s.saveTuft e.1 true).judgeKernel e.2.kid)).scrubBack slice
    match (s.slice slice).owner.bind s1.part? with
    | some p => if p.request == some (.recall slice) then s1.refuseRequest ((s.slice slice).owner.getD 0) 0 else s1
    | none => s1

/-- RECALL_WRITE_OUT (R311). -/
def execRecallWriteOut (slice : Nat) (s : State) : Host.Outcome State Fault Refusal := .next ((s.writeOut slice).settle)

/-! ## HALT, RESUME, DISSOLVE (R305, R306) -/

/-- PART_HALT (R306): issue stops on every core at a counted-instruction boundary. -/
def execPartHalt (part : Nat) (s : State) : Host.Outcome State Fault Refusal :=
  .next (s.request part (fun p => (s.setPart part { p with state := .halted }).answerMail part 0))

/-- PART_RESUME (R306). -/
def execPartResume (part : Nat) (s : State) : Host.Outcome State Fault Refusal :=
  .next (s.inPartState part .halted (fun p => if p.request == none then (s.setPart part { p with state := .running }).answerMail part 0 else s))

/-- DISSOLVE is taken (R306): every slice that the partition has lent is recalled. -/
def State.dissolve (s : State) (part : Nat) (p : Partition) : State :=
  (s.setPart part { p with request := some .dissolve }).forEach p.slices (fun s x => s.beginRecall x)

/-- PART_DISSOLVE (R306). -/
def execPartDissolve (part : Nat) (s : State) : Host.Outcome State Fault Refusal :=
  .next ((s.inPartState part .halted (fun p => if p.request == none then s.dissolve part p else s)).settle)

/-! ## The end of a change of layout (R305 to R307) -/

/-- What a change of layout in progress waits for has come about: a REMOVE's slice is drained, the lent slices of a partition that
dissolves are back. A REMOVE leaves the partition kernel its time to vacate frames after the drain (R307 step 2). -/
def State.layoutReady (s : State) (p : Partition) : Bool :=
  match p.request with
  | none => false
  | some (.remove slice) => s.drained slice
  | some (.recall _) => false
  | some .dissolve => p.slices.all (fun x => (s.slice x).borrower.isNone && (s.parkedOn x).isEmpty)
  | _ => true

/-- A change of layout in progress ends (R305 to R307). -/
def State.endRequest (s : State) (part : Nat) : State :=
  match s.part? part with
  | none => s
  | some p =>
    if !s.layoutReady p then s
    else match p.request with
      | some .form => s.setPart part { p with state := .booting, request := none }
      | some (.add slice) => s.finishAdd part slice p
      | some (.remove slice) => s.finishRemove part slice
      | some (.lend slice borrower deadline) => s.finishLend part slice borrower deadline p
      | some .dissolve => s.endPartition part
      | _ => s

/-! ## Errors (R338) -/

/-- CORRECTABLE_ERROR (R338): corrected, and counted in the slice. -/
def execCorrectableError (slice : Nat) (s : State) : Host.Outcome State Fault Refusal :=
  .next (s.modSlice slice (fun x => { x with errors := x.errors + 1 }))

/-- UNCORRECTABLE_ERROR (R338). -/
def execUncorrectableError (site : ErrorSite) (s : State) : Host.Outcome State Fault Refusal :=
  match site with
  | .sector paddr => .next (if s.isPoisoned (paddr / 32) then s else { s with poison := s.poison ++ [paddr / 32] })
  | .tuft tid =>
    match s.tuft? tid with
    | some t => if t.resident then .next ((s.breakTuft tid).settle) else .next s
    | none => .next s

/-- SLICE_LOST is posted to a partition on its other slices (R338). -/
def State.tellLost (s : State) (part slice : Nat) : State :=
  match s.part? part with
  | none => s
  | some p => s.forEach (p.slices.filter (fun x => x != slice)) (fun s x =>
      (s.postSliceFault x part (SysFault.ending fSliceLost 0 slice) .info 0 none 0 none).2)

/-- The granules homed in a slice of a partition (R302). -/
def Partition.lostSet? (p : Partition) (slice : Nat) : Option LostSet :=
  let pkg := packageOf slice
  let lk := p.slicesIn pkg
  match p.memBase.find? pkg, lk.findIdx? (· == slice) with
  | some base, some i => some { package := pkg, base := base, count := lk.length, place := i, rehomed := false, healed := [] }
  | _, _ => none

/-- A slice is lost (R338): it is reset, its tufts are discarded, its granules are poisoned, its partitions hear of it. -/
def State.loseSlice (s : State) (slice : Nat) : State :=
  let x := s.slice slice
  if x.lost then s
  else
    let s1 := s.forEach (s.tufts.filter (fun e => e.2.resident && sliceOf e.2.core == slice)) (fun s e => s.discardTuft e.1)
    let s2 := (s1.modSlice slice (fun x => { Slice.reset with owner := x.owner, borrower := x.borrower, deadline := x.deadline, lost := true })).scrubCores slice
    let s3 := match x.owner.bind s2.part? with
      | some p => (match p.lostSet? slice with
        | some l => { s2 with lostSets := s2.lostSets ++ [l], cache := s2.cache.reject (fun n _ => p.homeOf (128 * n) == some slice) }
        | none => s2)
      | none => s2
    let s4 := match x.owner with | some part => s3.tellLost part slice | none => s3
    match x.borrower with
    | some part => s4.tellLost part slice
    | none => s4

/-- SLICE_LOST (R338). -/
def execSliceLost (slice : Nat) (s : State) : Host.Outcome State Fault Refusal := .next ((s.loseSlice slice).settle)

end Sys2Proof.Machine
end

