-- ==== Sys2Proof/Machine/Link.lean ====
section
/-!
DEFINITION. The fabric ports (R340 to R347): their states, the timeouts of transactions, the packets that arrive, CPU trays.
-/
namespace Sys2Proof.Machine

/-! ## Port states (R340, R341) -/

/-- LSTAT (R340). -/
def Port.lstat (p : Port) : Word := BitVec.ofNat 32 (p.state.code + p.epoch % 16 * 2 ^ 4 + p.rxUp * 2 ^ 8 + p.txUp * 2 ^ 16)

/-- Enable by Campion (R341). -/
def Port.enable (p : Port) : Port := if p.state == .down then { p with state := .training, fails := 0, txUp := 0, rxUp := 0 } else p

/-- Disable by Campion (R341). -/
def Port.disable (p : Port) : Port :=
  if p.state == .fenced || p.state == .failed then { p with state := .down, txUp := 0, rxUp := 0 } else p

/-- Unfence (R341). The packet numbers of the epoch go on, so that none repeats under one key (R345). -/
def Port.unfence (p : Port) : Port := if p.state == .fenced then { p with state := .keying } else p

/-- Wavelengths have trained (R341). -/
def Port.trained (p : Port) (tx rx : Nat) : Port :=
  if p.state == .training && decide (1 ≤ tx) && decide (1 ≤ rx) && decide (tx ≤ 32) && decide (rx ≤ 32) then { p with state := .keying, txUp := tx, rxUp := rx }
  else p

/-- A training attempt has failed; the third leaves the port FAILED (R341). -/
def Port.attemptFailed (p : Port) : Port :=
  if p.state == .training then { p with fails := p.fails + 1, state := if 3 ≤ p.fails + 1 then .failed else .training } else p

/-- Keys are installed (R341, R345): UP with all 32 wavelengths both ways, else DEGRADED; FENCED where the slice belongs to no partition that owns the port. -/
def Port.keyed (p : Port) (owned : Bool) : Port :=
  if p.state == .keying then
    { p with state := if !owned then .fenced else if p.txUp == 32 && p.rxUp == 32 then .up else .degraded }
  else p

/-- Wavelengths are lost (R341): all of a direction, back to TRAINING; some, DEGRADED. -/
def Port.lose (p : Port) (tx rx : Nat) : Port :=
  if p.carries && decide (tx ≤ p.txUp) && decide (rx ≤ p.rxUp) && (decide (tx < p.txUp) || decide (rx < p.rxUp)) then
    if tx == 0 || rx == 0 then { p with state := .training, fails := 0, txUp := tx, rxUp := rx } else { p with state := .degraded, txUp := tx, rxUp := rx }
  else p

/-- Background retraining restores all wavelengths (R341). -/
def Port.restore (p : Port) : Port := if p.state == .degraded then { p with state := .up, txUp := 32, rxUp := 32 } else p

/-- A port that reaches 2^63 packet numbers rekeys (R345). -/
def Port.rekey (p : Port) : Port :=
  if p.carries && decide (2 ^ 63 ≤ p.number) then { p with state := .keying, epoch := p.epoch + 1, number := 1 } else p

/-- The numbers accepted from a source are forgotten everywhere, its keys being those of a new epoch (R345, R346). -/
def State.forgetSource (s : State) (source : Nat) : State :=
  { s with slices := s.slices.map (fun (e : Nat × Slice) => (e.1, { e.2 with port := { e.2.port with seen := e.2.port.seen.filter (fun x => x.1 != source) } })) }

/-- The numbers that a port has accepted from CPU trays are forgotten, their keys being new (R345, R347; log entry 73). -/
def State.forgetTrays (s : State) (p : Port) : Port := { p with seen := p.seen.filter (fun x => (s.trays.find? x.1).isNone) }

/-- PORT_ENABLE (R341). -/
def execPortEnable (slice : Nat) (s : State) : Host.Outcome State Fault Refusal := .next (s.modPort slice Port.enable)

/-- PORT_DISABLE (R341). -/
def execPortDisable (slice : Nat) (s : State) : Host.Outcome State Fault Refusal := .next (s.modPort slice Port.disable)

/-- PORT_FENCE (R341, R354). -/
def execPortFence (slice : Nat) (s : State) : Host.Outcome State Fault Refusal := .next (s.fencePort slice)

/-- TRAINING_DONE (R341). -/
def execTrainingDone (slice tx rx : Nat) (s : State) : Host.Outcome State Fault Refusal := .next (s.modPort slice (fun p => p.trained tx rx))

/-- TRAINING_FAILED (R341). -/
def execTrainingFailed (slice : Nat) (s : State) : Host.Outcome State Fault Refusal := .next (s.modPort slice Port.attemptFailed)

/-- A slice belongs to a partition that owns its port (R300, R341). -/
def State.portOwned (s : State) (slice : Nat) : Bool :=
  match (s.slice slice).owner.bind s.part? with | some p => p.ports.contains slice | none => false

/-- The domain secret of the partition that owns a slice (R345). -/
def State.secretOf (s : State) (slice : Nat) : List Byte := match (s.slice slice).owner.bind s.part? with | some p => p.secret | none => []

/-- PORT_UNFENCE (R341): for a new owner, which its domain secret tells from the last. -/
def execPortUnfence (slice : Nat) (s : State) : Host.Outcome State Fault Refusal :=
  .next (if s.secretOf slice != (s.slice slice).port.secret then s.modPort slice Port.unfence else s)

/-- The domain secret of a port's owner is installed (R345); with a new one nothing sent under the old is answered again (R344). -/
def State.install (s : State) (slice : Nat) (p : Port) : Port :=
  if p.secret == s.secretOf slice then p else s.forgetTrays { p with secret := s.secretOf slice, sent := [] }

/-- Keying ends: the domain secret is installed and the port carries packets, or is FENCED (R341, R345). -/
def State.keyPort (s : State) (slice : Nat) : State :=
  if (s.slice slice).port.state == .keying then
    s.modPort slice (fun p => (if s.portOwned slice then s.install slice p else p).keyed (s.portOwned slice))
  else s

/-- KEYING_DONE (R341, R345). -/
def execKeyingDone (slice : Nat) (s : State) : Host.Outcome State Fault Refusal := .next ((s.keyPort slice).settle)

/-- WAVELENGTH_LOSS (R341). -/
def execWavelengthLoss (slice tx rx : Nat) (s : State) : Host.Outcome State Fault Refusal := .next (s.modPort slice (fun p => p.lose tx rx))

/-- RETRAINING_RESTORED (R341). -/
def execRetrainingRestored (slice : Nat) (s : State) : Host.Outcome State Fault Refusal := .next (s.modPort slice Port.restore)

/-- REKEY (R345). -/
def execRekey (slice : Nat) (s : State) : Host.Outcome State Fault Refusal :=
  let s1 := s.modPort slice Port.rekey
  if (s1.slice slice).port.epoch == (s.slice slice).port.epoch then .next s1
  else .next ((s1.forgetSource (sourceId slice)).modPort slice s.forgetTrays)

/-! ## LCTL (R340) -/

/-- A value that LCTL takes (R340). -/
def lctlLegal (v : Word) : Bool := field v.toNat 24 8 == 0 && field v.toNat 16 8 != 0 && field v.toNat 0 16 != 0

/-- The offset of LCTL (R303, R340). -/
def lctlOffset : Nat := 0x08000004

/-- A write of LCTL (R340). -/
def State.writeLctl (s : State) (slice : Nat) (v : Word) : State :=
  if lctlLegal v then s.modSlice slice (fun x => { x with port := { x.port with lctl := v } }) else s.refuse slice lctlOffset

/-- LCTL_WRITE (R340). -/
def execLctlWrite (slice : Nat) (v : BitVec 32) (s : State) : Host.Outcome State Fault Refusal := .next (s.writeLctl slice v)

/-! ## Timeouts (R344) -/

/-- MEMERR with reason LINK (R344). -/
def linkFault (lanes : Mask) (paddr : Nat) : SysFault := { SysFault.ending fMemErr lanes paddr with reason := 1 }

/-- A sent write or an atomic fails (R344): its counter falls, its sheaf is FAULTED where it is resident. -/
def State.failMsg (s : State) (m : Msg) : State :=
  (s.ackMsg m).turnedAway m fMemErr 1 m.paddr 0 (s.sourceOf m)

/-- A send's timeout (R344); what waits at its port has not been sent yet (R343). -/
def State.timeoutMsg (s : State) (m : Msg) : State :=
  if !remoteOf (sliceOf m.core) m.paddr || (s.heldAtPort m && m.tries != 3) then s
  else if 2 ≤ m.tries then s.failMsg m
  else (s.setMsg { m with tries := m.tries + 1 }).ask (sliceOf m.core) m.request

/-- The sheaf of a pending load. -/
def State.pendingLoad? (s : State) (id : Nat) : Option (Nat × Sheaf × Pending) :=
  s.sheaves.findSome? (fun e => (e.2.pend? id).bind (fun p => match p.kind with | .load _ _ => some (e.1, e.2, p) | _ => none))

/-- A load's timeout (R344): the third ends the sheaf. -/
def State.timeoutLoad (s : State) (sid : Nat) (sh : Sheaf) (p : Pending) : State :=
  match p.source.find? (fun x => remoteOf (sliceOf sh.core) x.paddr) with
  | none => s
  | some x =>
    if p.bound then s
    else if 2 ≤ p.tries then
      let s1 := s.modSheaf sid (fun sh => { sh with pend := sh.pend.filter (fun q => q.id != p.id) })
      s1.endSheaf sid (slotAt sid p.group) (linkFault sh.live x.paddr)
    else (s.modSheaf sid (fun sh => sh.setPend { p with tries := p.tries + 1 })).ask (sliceOf sh.core)
      (newPacket .read (linkTag p.id x.lane) x.paddr x.kh (readMask p.size))

/-- The core that holds a copy command. -/
def State.copyCore? (s : State) (id : Nat) : Option (Nat × CopyCmd) :=
  s.cores.findSome? (fun e => (e.2.copies.find? (fun c => c.id == id)).map (fun c => (e.1, c)))

/-- The first of some global addresses of a command that lies in another package, or a node of whose walk does. -/
def State.firstRemote? (s : State) (core : Nat) (c : CopyCmd) (vas : List Addr) : Option Nat :=
  vas.findSome? (fun va => match (s.xlateTuft c.tid core va false).1 with
    | .ok t => if remoteOf (sliceOf core) t.paddr then some t.paddr else none
    | .far paddr => some paddr
    | _ => none)

/-- A remote address that a copy command reads or writes. -/
def State.copyRemote? (s : State) (core : Nat) (c : CopyCmd) : Option Nat :=
  s.firstRemote? core c (match c.kind with | .xpnd => [c.pair 0] | _ => (cutAll (s.pieces core c)).map Piece.va)

/-- An engine's READ is sent again (R344): the bytes of one line. -/
def State.askAgain (s : State) (slice id paddr : Nat) : State :=
  s.ask slice (newPacket .engineRead (linkTag id 0) paddr 0 (readMask (128 - paddr % 128)))

/-- A copy command's timeout (R344): the third fails its tag with MEMERR, once what it has written is acknowledged. Its writes time out by
themselves. -/
def State.timeoutCopy (s : State) (core : Nat) (c : CopyCmd) : State :=
  match (if c.started && c.outcome.isNone then s.copyRemote? core c else none) with
  | none => s
  | some paddr =>
    if 2 ≤ c.tries then (s.copyRecord core c fMemErr 1 0 paddr none).2.closeCopy core c (some copyMemErr)
    else (s.modCopy core c.id (fun c => { c with tries := c.tries + 1 })).askAgain (sliceOf core) c.id paddr

/-- The collective command of a name: slice and command. -/
def State.coll? (s : State) (id : Nat) : Option (Nat × CollCmd) :=
  s.slices.findSome? (fun e => (e.2.colls.find? (fun c => c.id == id)).map (fun c => (e.1, c)))

/-- A remote address that a collective command reads or writes, or that of a member in another package. -/
def State.collRemote? (s : State) (slice : Nat) (c : CollCmd) : Option Nat :=
  match s.firstRemote? ((s.tuft? c.tid).elim 0 Tuft.core) c.asCopy
      (((c.pagesOf c.src c.reads) ++ (c.pagesOf c.dst c.writes) ++ (if c.packed then c.pagesOf c.resid c.count else [])).map (fun x => x.1)) with
  | some paddr => some paddr
  | none => (c.ranks.find? (fun r => packageOf r != packageOf slice)).map (fun r => 2 ^ 42 * packageOf r)

/-- A collective command's timeout (R344): the third fails its tag with MEMERR, and with it the others' with PEER. -/
def State.timeoutColl (s : State) (slice : Nat) (c : CollCmd) : State :=
  match (if c.joined && c.outcome.isNone then s.collRemote? slice c else none) with
  | none => s
  | some paddr =>
    if c.tries < 2 then
      (s.modSlice slice (fun x => { x with colls := x.colls.map (fun y => if y.id == c.id then { y with tries := y.tries + 1 } else y) })).askAgain
        slice c.id paddr
    else match (s.slice slice).owner.bind s.part? with
      | none => s
      | some p => s.endColls (((s.collsAt p c.group c.seq).filter (fun e => e.2.joined)).map
          (fun e => (e.1, e.2, some (if e.2.id == c.id then copyMemErr else collPeer))))

/-- A sheaf that waits for a read over a port, by the name of the read: the sheaf, its wait, the address, how often it timed out. -/
def State.farWait? (s : State) (id : Nat) : Option (Nat × Wait × Nat × Nat) :=
  s.sheaves.findSome? (fun e => e.2.wait.bind (fun w => match w.kind with
    | .link n paddr tries => if n == id && e.2.state == .waiting then some (e.1, w, paddr, tries) else none
    | _ => none))

/-- The timeout of such a read, a load's, a fetch's or a walk's (R344): the third ends the sheaf. -/
def State.timeoutFar (s : State) (id sid : Nat) (w : Wait) (paddr tries : Nat) : State :=
  match s.sheaf? sid with
  | none => s
  | some sh =>
    if 2 ≤ tries then s.endSheaf sid w.slot (linkFault sh.live paddr)
    else (s.setSheaf sid { sh with wait := some { w with kind := .link id paddr (tries + 1) } }).ask (sliceOf sh.core)
      (newPacket .read (linkTag id 0) paddr 0 (readMask 8))

/-- The queue whose access no port carries, by its name. -/
def State.farQueue? (s : State) (id : Nat) : Option (Nat × Nat × FarRead × LaunchAccess) :=
  s.slices.findSome? (fun x => x.2.queues.findSome? (fun q => match q.2.far, q.2.access with
    | some f, some (0, what) => if f.id == id then some (x.1, q.1, f, what) else none
    | _, _ => none))

/-- The timeout of a queue's access (R344): the third ends it with MEMERR, reason LINK. -/
def State.timeoutQueue (s : State) (slice entry : Nat) (f : FarRead) (what : LaunchAccess) : State :=
  let q := s.queue slice entry
  if 2 ≤ f.tries then ((s.postSliceFault slice q.part (linkFault 0 f.paddr) .info q.ctx none (queueField entry 0) none).2).abandonAccess slice entry what
  else (s.modQueue slice entry (fun q => { q with far := some { f with tries := f.tries + 1 } })).ask slice
    (newPacket .read (linkTag f.id 0) f.paddr 0 (readMask 8))

/-- The kernel whose dispatch waits for a read that no port carries, by the read's name. -/
def State.farKernel? (s : State) (id : Nat) : Option (Nat × Kernel × FarRead) :=
  s.kernels.findSome? (fun e => e.2.far.bind (fun f => if f.id == id then some (e.1, e.2, f) else none))

/-- The timeout of such a read (R344): the third is a MEMERR, reason LINK, which refuses the kernel, and in the residency pass holds it as
a poisoned entry does (log entry 77). -/
def State.timeoutKernel (s : State) (kid : Nat) (k : Kernel) (f : FarRead) : State :=
  if f.tries < 2 then (s.modKernel kid (fun k => { k with far := some { f with tries := f.tries + 1 } })).ask k.slice
      (newPacket .read (linkTag f.id 0) f.paddr 0 (readMask 8))
  else
    let s1 := s.modKernel kid (fun k => { k with far := none })
    match f.page with
    | some page =>
      let r := s1.postSliceFault k.slice k.part (SysFault.replayable fMemErr 1 (BitVec.ofNat 64 (65536 * page)) 0 f.paddr) (.prefault kid page) k.ctx
        (some kid) (kernelField k) none
      r.2.modKernel kid (fun k => { k with prefault := some r.1 })
    | none => ((s1.postSliceFault k.slice k.part (linkFault 0 f.paddr) .info k.ctx (some kid) (kernelField k) none).2).refuseKernel kid 1

/-- A transaction is not answered within TIMEOUT (R344): a send, a load, an engine command or a read that waits, by its name. -/
def State.timeout (s : State) (id : Nat) : State :=
  match s.msg? id with
  | some m => s.timeoutMsg m
  | none =>
    match s.pendingLoad? id with
    | some (sid, sh, p) => s.timeoutLoad sid sh p
    | none =>
      match s.copyCore? id with
      | some (core, c) => s.timeoutCopy core c
      | none =>
        match s.coll? id with
        | some (slice, c) => s.timeoutColl slice c
        | none =>
          match s.farWait? id with
          | some (sid, w, paddr, tries) => s.timeoutFar id sid w paddr tries
          | none =>
            match s.farQueue? id with
            | some (slice, entry, f, what) => s.timeoutQueue slice entry f what
            | none => match s.farKernel? id with
              | some (kid, k, f) => s.timeoutKernel kid k f
              | none => s

/-- RETRANSMIT_TIMEOUT (R344). -/
def execRetransmitTimeout (mid : Nat) (s : State) : Host.Outcome State Fault Refusal := .next ((s.timeout mid).settle)

/-! ## Packets that arrive (R342, R345 to R347) -/

/-- The highest packet number accepted from a source. -/
def Port.highest (p : Port) (source : Nat) : Nat := p.seen.foldl (fun m e => if e.1 == source then max m e.2 else m) 0

/-- A packet's number may still be accepted (R346). -/
def Port.numberOk (p : Port) (source number : Nat) : Bool :=
  decide (p.highest source < number + 4096) && !p.seen.contains (source, number)

/-- A number is accepted; numbers too old to matter are forgotten. -/
def Port.accept (p : Port) (source number : Nat) : Port :=
  let top := max number (p.highest source)
  { p with seen := (p.seen ++ [(source, number)]).filter (fun e => e.1 != source || decide (top < e.2 + 4096)) }

/-- EPOCH of a source (R345): its own port's, of a CPU tray the receiving port's (log entry 73). -/
def State.epochOf (s : State) (slice source : Nat) : Nat :=
  if (s.trays.find? source).isSome then (s.slice slice).port.epoch else (s.slice (sourceSlice source)).port.epoch

/-- A packet verifies at a slice's port under the key of its source, and its payload is what the ciphertext gives (R345). -/
def State.authentic (s : State) (slice : Nat) (pkt : LinkPacket) : Bool :=
  pkt == sealPacket pkt (sourceKey (s.slice slice).port.secret (s.epochOf slice pkt.source) pkt.source) (sourceId slice)

/-- A packet carries bytes of one line (R342). -/
def oneLine (pkt : LinkPacket) : Bool := pkt.bytes.all (fun b => decide (pkt.paddr % 128 + b.1 < 128))

/-- A port takes a packet (R341, R342, R346): it carries packets, the packet verifies under the key of its source and keeps to one line,
its route belongs to the partition, its number is new. -/
def State.takes (s : State) (slice : Nat) (pkt : LinkPacket) : Bool :=
  let x := s.slice slice
  match x.owner.bind s.part? with
  | none => false
  | some p => x.port.carries && s.authentic slice pkt && oneLine pkt && p.routes.contains pkt.route && x.port.numberOk pkt.source pkt.number &&
      (match s.trays.find? pkt.source with
       | some t => x.owner == some t.1
       | none => p.slices.contains (sourceSlice pkt.source))

/-- A CPU tray's access is turned away at its home, and the partition kernel hears of it (R291, R318, R338, R347). -/
def State.trayRefused (s : State) (slice part ctx code : Nat) (pkt : LinkPacket) : State :=
  (s.postSliceFault slice part (SysFault.ending code 0 (refusalDetail code pkt.kh pkt.paddr)) .info ctx none 0 none).2

/-- Why a CPU tray's access is turned away (R291, R318, R347): judged as its context's, SEALED slots never. -/
def State.trayRefusal (s : State) (part ctx : Nat) (pkt : LinkPacket) : Option Nat :=
  let k := s.keySlot part pkt.kh
  if !s.ownerOk false part ctx pkt.paddr then some fFillOwner
  else if !k.valid || (k.owner != ctx && k.owner != 0xFFFF) || k.mark == 3 then some fKeySlot
  else none

/-- The port answers a CPU tray's transaction (R343, R347). -/
def State.answerTray (s : State) (slice : Nat) (pkt : LinkPacket) (op : LinkOp) (bytes : List (Nat × Byte)) : State :=
  s.emit slice pkt.source (newPacket op pkt.tag pkt.paddr pkt.kh bytes)

/-- A CPU tray's strong store (R347): its bytes are written at their home, and the acknowledgement goes back. -/
def State.trayWrite (s : State) (slice : Nat) (pkt : LinkPacket) (part ctx : Nat) : State :=
  let s1 := match s.trayRefusal part ctx pkt with
    | some code => s.trayRefused slice part ctx code pkt
    | none => s.putBytes (s.keySlot part pkt.kh).key pkt.paddr pkt.bytes
  s1.answerTray slice pkt .wack []

/-- The bytes that a packet's mask asks for, under a key. -/
def State.maskBytes (s : State) (key : Nat) (pkt : LinkPacket) : List (Nat × Byte) := pkt.bytes.map (fun b => (b.1, s.viewByte key (pkt.paddr + b.1)))

/-- A CPU tray's strong load (R347): the bytes it asks for go back, none where its home gives none (R291, R318, R338). -/
def State.trayRead (s : State) (slice : Nat) (pkt : LinkPacket) (part ctx : Nat) : State :=
  let r := match s.trayRefusal part ctx pkt with
    | some code => (s.trayRefused slice part ctx code pkt, [])
    | none =>
      if pkt.bytes.any (fun b => s.isPoisoned ((pkt.paddr + b.1) / 32)) then (s.trayRefused slice part ctx fMemErr pkt, [])
      else (s, s.maskBytes (s.keySlot part pkt.kh).key pkt)
  r.1.answerTray slice pkt .readResp r.2

/-- The response that a port has given to a source's transaction (R344). -/
def State.answered? (s : State) (slice : Nat) (pkt : LinkPacket) : Option LinkPacket :=
  ((s.slice slice).port.sent.find? (fun e => e.1 == pkt.source && e.2.tag == pkt.tag && answerOp pkt.op == some e.2.op)).map Prod.snd

/-- A CPU tray's packet (R347): a strong store or a strong load. -/
def State.trayPacket (s : State) (slice : Nat) (pkt : LinkPacket) (part ctx : Nat) : State :=
  match pkt.op with
  | .write => s.trayWrite slice pkt part ctx
  | .read => s.trayRead slice pkt part ctx
  | _ => s

/-- Two packets say the same (R342): opcode, tag, address, key handle, operands and bytes. -/
def sameContent (a b : LinkPacket) : Bool :=
  a.op == b.op && a.tag == b.tag && a.paddr == b.paddr && a.kh == b.kh && a.atomic == b.atomic && a.bytes == b.bytes

/-- A write or an atomic of another package reaches the home of its address and performs there as the packet says (R343). -/
def State.remoteRequest (s : State) (slice : Nat) (pkt : LinkPacket) : State :=
  match s.msgs.find? (fun m => sourceId (sliceOf m.core) == pkt.source && sameContent m.request pkt) with
  | some m => if s.homePort m.paddr == slice then s.performNumber m.id else s
  | none => s

/-- A load's READ reaches the home of its address (R343). -/
def State.remoteRead (s : State) (slice : Nat) (pkt : LinkPacket) : State :=
  match s.sheaves.findSome? (fun e => if sourceId (sliceOf e.2.core) != pkt.source then none else
      (e.2.pend.find? (fun p => p.source.any (fun x => sameContent (newPacket .read (linkTag p.id x.lane) x.paddr x.kh (readMask p.size)) pkt))).map
        (fun p => (e.1, p))) with
  | some (sid, p) => if s.homePort pkt.paddr == slice then s.bindLoad sid p else s
  | none => s

/-- The command of an engine that a tag names: its core and number. -/
def State.engineOf? (s : State) (source tag : Nat) : Option (Nat × Nat) :=
  s.cores.findSome? (fun e => if sourceId (sliceOf e.1) != source then none else
    (e.2.copies.find? (fun c => linkTag c.id 0 == tag)).map (fun c => (e.1, c.id)))

/-- An engine's READ reaches the home of its address (R202, R343): the command reads, and may move bytes before it completes. -/
def State.engineRequest (s : State) (slice : Nat) (pkt : LinkPacket) : State :=
  match s.engineOf? pkt.source pkt.tag with
  | some (core, id) => if s.homePort pkt.paddr == slice then s.copyEarly core id else s
  | none => s

/-- A response is one that its home has given to a slice (R343, R344). -/
def State.wasSent (s : State) (slice : Nat) (pkt : LinkPacket) : Bool :=
  (s.slice (sourceSlice pkt.source)).port.sent.any (fun e => e.1 == sourceId slice && sameContent e.2 pkt)

/-- A response reaches the slice that waits for it (R343): a send is acknowledged, a load returns for the lane, an engine's command can
complete (R201). -/
def State.remoteAnswer (s : State) (slice : Nat) (pkt : LinkPacket) : State :=
  if !s.wasSent slice pkt then s
  else match pkt.op with
  | .wack | .atomResp | .engineWack =>
    (match s.msgs.find? (fun m => sliceOf m.core == slice && linkTag m.id 0 == pkt.tag) with
     | some m => s.answerIf m.id
     | none => s)
  | .readResp =>
    (match s.sheaves.findSome? (fun e => if sliceOf e.2.core != slice then none else
        e.2.pend.findSome? (fun p => (p.source.find? (fun x => linkTag p.id x.lane == pkt.tag)).map (fun x => (e.1, p.id, x.lane)))) with
     | some (sid, pid, lane) => s.returnLoad sid pid (maskOf (fun l => l == lane))
     | none => s)
  | _ =>
    (match s.engineOf? (sourceId slice) pkt.tag with
     | some (core, id) => s.completeCopy core id
     | none => s)

/-- A packet of a slice of the partition (R342, R343). No engine makes an atomic, so that no transaction answers to the engine forms of
ATOMIC and ATOMRESP. -/
def State.podPacket (s : State) (slice : Nat) (pkt : LinkPacket) : State :=
  match pkt.op with
  | .write | .atomic | .engineWrite => s.remoteRequest slice pkt
  | .read => s.remoteRead slice pkt
  | .engineRead => s.engineRequest slice pkt
  | .readResp | .wack | .atomResp | .engineReadResp | .engineWack => s.remoteAnswer slice pkt
  | .engineAtomic | .engineAtomResp => s

/-- A packet arrives at a port (R344, R346): it is dropped and counted, or taken; a request that its port has answered is answered with the
same response. -/
def State.receive (s : State) (slice : Nat) (pkt : LinkPacket) : State :=
  if !s.takes slice pkt then s.modSlice slice (fun x => { x with drops := x.drops + 1 })
  else
    let s1 := s.modSlice slice (fun x => { x with port := x.port.accept pkt.source pkt.number })
    match s.answered? slice pkt with
    | some a => s1.emit slice pkt.source a
    | none => match s.trays.find? pkt.source with
      | some (part, ctx) => s1.trayPacket slice pkt part ctx
      | none => s1.podPacket slice pkt

/-- PACKET_RECEIVE (R342, R345, R346). -/
def execPacketReceive (slice : Nat) (pkt : LinkPacket) (s : State) : Host.Outcome State Fault Refusal := .next ((s.receive slice pkt).settle)

/-- CPU_TRAY_REGISTER (R347): a source identifier for one partition and one context. -/
def execCpuTrayRegister (source part ctx : Nat) (s : State) : Host.Outcome State Fault Refusal :=
  match s.part? part with
  | some p => if p.state == .dissolved then .next s else .next { s with trays := s.trays.put source (part, ctx) }
  | none => .next s

end Sys2Proof.Machine
end

