-- ==== Sys2Proof/Machine/Marks.lean ====
section
/-!
DEFINITION. The mark, trace and clock instructions (R321 to R326) and the hint prefixes XIMM, REP and LA (R92 to R96).
-/
namespace Sys2Proof.Machine

/-- MKDOWN, MKGET and CLKRD (R322). -/
def formMark : Form := { Form.plain with wide := true }

/-- A kernel holds the declassify grant (R321): some SEALED slot that it may use has DECL = 1. -/
def State.holdsGrant (s : State) (k : Kernel) : Bool :=
  match s.part? k.part with
  | some p => p.keys.any (fun e => e.2.valid && e.2.mark == 3 && e.2.decl && (e.2.owner == k.ctx || e.2.owner == 0xFFFF) && k.maySeal e.2)
  | none => false

/-- A sheaf's kernel holds the grant. -/
def State.grantOf (s : State) (sh : Sheaf) : Bool := match s.kernelOf? sh with | some k => s.holdsGrant k | none => false

/-- The smaller of two marks. -/
def minMark (a b : Mark) : Mark := if a.toNat ≤ b.toNat then a else b

/-- The register of an operand byte has its mark lowered (R323). -/
def Sheaf.lowerMark (sh : Sheaf) (b : Nat) (m : Mark) : Sheaf :=
  if b < 32 then
    let r := sh.vreg b
    { sh with vregs := sh.vregs.put (sh.phys b) { r with mark := minMark r.mark m } }
  else if b < 64 then
    let r := sh.readA (aIndex b)
    { sh with aregs := sh.aregs.put (aIndex b) { r with mark := minMark r.mark m } }
  else
    let r := sh.ureg (uIndex b)
    { sh with uregs := sh.uregs.put (uIndex b) { r with mark := minMark r.mark m } }

/-- MKDOWN (R323). -/
def mkdownOp (b : Nat) (m : Mark) (_ : Slot) : Op :=
  { ok := true, uses := [b], also := [], writes := [],
    body := fun slot sh s =>
      if s.grantOf sh then .ofSheaf slot s (sh.lowerMark b m)
      else .fault (SysFault.replayable fMarkFlow 0 0 slot.acting m.toNat) s }

/-- MKDOWN (R323). -/
def execMkdown (g : BitVec 4) (n : BitVec 1) (m : BitVec 2) (b : BitVec 8) (s : State) : Host.Outcome State Fault Refusal :=
  issued formMark g n (mkdownOp b.toNat m) s

/-- The tiles that a sheaf of a tuft may name: TILES of its kernel, for a MATRIX sheaf (R231, R324). -/
def State.tileAllotment (s : State) (sh : Sheaf) : Nat := if sh.role == .matrix then (match s.kernelOf? sh with | some k => k.desc.tiles | none => 0) else 0

/-- What MKGET reads by its selector (R324), none where it raises ILLEGAL. -/
def State.markAnswer? (s : State) (sh : Sheaf) (sel : Nat) : Option Nat :=
  let i := sel % 256
  if 2048 ≤ sel then none
  else match sel / 256 with
    | 0 => some (sh.operandMark i).toNat
    | 1 => if i < 12 then some (sh.preg i).mark.toNat else none
    | 2 => if i < s.tileAllotment sh then some (sh.tile i).mark.toNat else none
    | 3 => if i < 8 && sh.role == .matrix then some (sh.dreg i).mark.toNat else none
    | 4 => if i == 0 then some ((if s.boundOf sh then 1 else 0) + (if s.grantOf sh then 2 else 0)) else none
    | _ => none

/-- What the selector names is brought up to date: a result in flight, matrix operations on a tile (log entry 22). -/
def State.readyMark (s : State) (sid : Nat) (sh : Sheaf) (sel : Nat) : State :=
  match sel / 256 with
  | 0 => s.forceResults sid (fun p => p.meets [sh.physName (sel % 256)])
  | 2 => s.drainMatrix sid
  | _ => s

/-- MKGET (R324). -/
def mkgetOp (b : Nat) (_ : Slot) : Op :=
  { ok := isU b, uses := [b], also := [], writes := [],
    body := fun slot sh s =>
      let sel := (sh.readUB b).toNat
      let s1 := s.readyMark slot.sid sh sel
      match s1.sheaf? slot.sid with
      | none => .stop s1
      | some sh1 =>
        match s1.markAnswer? sh1 sel with
        | some v => .ofSheaf slot s1 (sh1.writeUB b (BitVec.ofNat 32 v) 0)
        | none => .trap (illegalWord slot) s1 }

/-- MKGET (R324). -/
def execMkget (g : BitVec 4) (n : BitVec 1) (b : BitVec 8) (s : State) : Host.Outcome State Fault Refusal :=
  issued formMark g n (mkgetOp b.toNat) s

/-- TRMARK (R325). -/
def trmarkOp (b : Nat) (_ : Slot) : Op :=
  { ok := isU b, uses := [b], also := [], writes := [],
    body := fun _ sh s => .next (s.traceSheaf sh 11 (if sh.operandMark b == 0 then (sh.readUB b).toNat else 0)) }

/-- TRMARK (R325): legal under divergence. -/
def execTrmark (g : BitVec 4) (n : BitVec 1) (b : BitVec 8) (s : State) : Host.Outcome State Fault Refusal :=
  issued Form.plain g n (trmarkOp b.toNat) s

/-- CLKRD (R326): every earlier result of the sheaf, an MROWV's included (R190), is there before CLK is read. -/
def clkrdOp (b : Nat) (_ : Slot) : Op :=
  { ok := evenU b, uses := span b 2, also := [], writes := [],
    body := fun slot _ s =>
      let s1 := (s.drainMatrix slot.sid).forceResults slot.sid (fun _ => true)
      match s1.sheaf? slot.sid with
      | none => .stop s1
      | some sh =>
        if !sh.issuing then .stop s1
        else
          let v := s1.readClk (packageOf (sliceOf sh.core))
          .next (v.2.setSheaf slot.sid (sh.writePairB b v.1 0)) }

/-- CLKRD (R326). -/
def execClkrd (g : BitVec 4) (n : BitVec 1) (b : BitVec 8) (s : State) : Host.Outcome State Fault Refusal :=
  issued formMark g n (clkrdOp b.toNat) s

/-! ## Hints (R92) -/

/-- XIMM (R92, R93). -/
def execXimm (p : BitVec 19) (s : State) : Host.Outcome State Fault Refusal :=
  .next ((issueHint (fun h => h.ximm.isNone && h.la.isNone) (fun h => { h with ximm := some p }) s).settle)

/-- The payload of a REP (R94). -/
def repPayload (b a d : BitVec 1) (st : BitVec 2) (c : BitVec 6) : BitVec 19 :=
  BitVec.ofNat 19 (c.toNat + st.toNat * 2 ^ 6 + d.toNat * 2 ^ 8 + a.toNat * 2 ^ 9 + b.toNat * 2 ^ 10)

/-- REP (R92, R94). -/
def execRep (b a d : BitVec 1) (st : BitVec 2) (c : BitVec 6) (s : State) : Host.Outcome State Fault Refusal :=
  .next ((issueHint (fun h => h.rep.isNone && h.ximm.isNone && h.la.isNone) (fun h => { h with rep := some (repPayload b a d st c) }) s).settle)

/-- LA (R92, R96). -/
def execLa (l : BitVec 4) (s : State) : Host.Outcome State Fault Refusal :=
  .next ((issueHint (fun h => h.la.isNone) (fun h => { h with la := some (l.setWidth 19) }) s).settle)

end Sys2Proof.Machine
end

