-- ==== Sys2Proof/Machine/Matrix.lean ====
section
/-!
DEFINITION. The matrix instructions (R177 to R195): MMA in its four shapes with the pairing of fused arrivals, the tile
functions, MWAIT, MFENCE and the descriptors.
-/
namespace Sys2Proof.Machine

/-- Majors 0x34 and 0x35 (R186). -/
def formMatrix : Form := { Form.plain with role := .matrix }
/-- A fused MMA (R182): only the issuing set is judged, and it arrives whatever its guard. -/
def formFused : Form := { formMatrix with wide := true, liveOnly := true, always := true }
/-- MDESC (R186). -/
def formMdesc : Form := { formMatrix with wide := true }

/-- The tile allotment of a sheaf's tuft (R45, R231). -/
def State.tilesOf (s : State) (sh : Sheaf) : Nat := match s.kernelOf? sh with | some k => field k.desc.geom.toNat 16 4 | none => 0

/-- The tiles that an instruction names are in the allotment (R45). -/
def tilesLegal (ms : List Nat) (sh : Sheaf) (s : State) : Bool := ms.all (fun m => decide (m < s.tilesOf sh))

/-- The first byte of the tuft's allotment, among some, that it does not hold: beyond it, or lent (R184, R213). -/
def State.absentByte? (s : State) (tid : Nat) (offs : List Nat) : Option Nat :=
  match s.tuft? tid with
  | none => none
  | some t => offs.find? (fun o => decide (t.lsize ≤ o) || (s.lentBy tid).any (fun b => b.overlaps o 1))

/-- The lowest row of R195 among 1 to 4 that a matrix instruction of a sheaf meets: it names and writes varying registers,
reads some bytes of its own allotment, reads B registers, and reads some rows of a tile. -/
def Sheaf.matrixHazard? (sh : Sheaf) (named writes breads bytes : List Nat) (tile : Option (Nat × List Nat)) : Option Nat :=
  if breads.any sh.bWrites.contains || bytes.any sh.aWrites.contains then some 1
  else if sh.mops.any (fun m => m.bRegs.any writes.contains) then some 2
  else if sh.mops.any (fun m => tile.any (fun x => m.updatesRow x.1 x.2)) then some 3
  else if sh.mops.any (fun m => m.kind.rowRegs.any named.contains) then some 4 else none

/-- The checks of a matrix instruction before its effect (R184, R188, R189): HANDLE for bytes, then under MSTRICT SWIZZLE over
other bytes and MHAZARD. -/
def State.matrixTrap? (s : State) (slot : Slot) (sh : Sheaf) (offs : List Nat) (swizzle : Option (List Nat × Nat)) (hazard : Option Nat) :
    Option TrapInfo :=
  match s.absentByte? sh.tid offs with
  | some o => some (TrapInfo.at cHandle 0 0 (BitVec.ofNat 64 o))
  | none =>
    if !modeMstrict sh.mode then none
    else
      match (match swizzle, s.tuft? sh.tid with | some (xs, span), some t => t.badSwizzle? xs span | _, _ => none) with
      | some o => some (TrapInfo.at cSwizzle 0 0 (BitVec.ofNat 64 o))
      | none => hazard.map (fun row => TrapInfo.at cMhazard row 0 (slot.word.setWidth 64))

/-- An operation enters a sheaf's matrix order (R180). -/
def Sheaf.addMatOp (sh : Sheaf) (op : MatOp) : Sheaf := { sh with mops := sh.mops ++ [op] }

/-- Fields of an MMA (R177). -/
structure MmaFields where
  mt   : Nat
  fuse : Nat
  vb   : Nat
  ad   : Nat
  typ  : Nat
  z    : Bool
  asrc : Nat
  deriving DecidableEq, Repr

/-- The bytes of A that an MMA's descriptor names in its stored rows (R184). -/
def MmaFields.aBytes (m : MmaFields) (d : BitVec 64) : List Nat :=
  if m.asrc == 0 then descBytes d (descStored d (fuseM m.fuse)) 32 (typBytes (m.typ / 3)) else []

/-- The operation of quadrant q (R178 to R183), from the quartet's sheaves by quadrant: A and B are read now. -/
def MmaFields.matOp (m : MmaFields) (id : Nat) (t : Tuft) (q : Nat) (sh : Sheaf) (acting : Mask) (sheaf : Nat → Option Sheaf) : MatOp :=
  let d := sh.dreg m.ad
  let w := typBytes (m.typ / 3)
  let rows := (List.range 16).map (fun r => rowBase m.fuse q + r)
  let aMark := if m.asrc == 0 then
      maxMark d.mark (t.bytesMark (descBytes d.val (aRows m.fuse q d.val) 32 w)) else 0
  { id := id, kind := .mma m.mt m.fuse m.typ m.z (if m.asrc == 0 then none else some m.ad), acting := acting, desc := d.val,
    aElems := if m.asrc == 0 then rows.map (fun i => (List.range 32).map (fun k => t.element d.val i k w)) else [],
    bElems := bRows m.fuse q (m.typ % 3) m.vb sheaf, bRegs := (span m.vb (bCount (m.typ % 3))).map sh.phys,
    mark := maxMark aMark (bMark m.fuse q (m.typ % 3) m.vb sheaf), done := false }

/-- Under REPLAY an MMA waits for the writers of its B registers and for the MROWVs that write them (R195 rows 1 and 4). -/
def State.replayMma (s : State) (slot : Slot) (sh : Sheaf) (regs : List Nat) : State :=
  if !modeReplay sh.mode then s
  else
    let s1 := if sh.mops.any (fun m => m.kind.rowRegs.any regs.contains) then s.drainMatrix slot.sid else s
    s1.forceResults slot.sid (fun p => p.varying && p.regs.any regs.contains)

/-- The MFUSE of a sheaf that waits in a fused arrival (R182): a trap at once, or once it is WAITING again (R33). -/
def State.dropArrival (s : State) (sid : Nat) : State :=
  let s1 := s.modSheaf sid (fun sh => { sh with fused := sh.fused + 1, arrival := none })
  match s.sheaf? sid with
  | some sh => match sh.wait with
    | some w =>
      if sh.state == .waiting then s1.trapWait sid cMfuse 0 (w.slot.word.setWidth 64)
      else s1.modSheaf sid (fun y => { y with wait := some { w with done := some cMfuse } })
    | none => s1
  | none => s1

/-- The last arrival of a quartet (R182): the operation starts on the four quadrants, or all four raise MFUSE. others are the
waiting sheaves. -/
def fusedStart (m : MmaFields) (slot : Slot) (sh : Sheaf) (t : Tuft) (others : List (Nat × Sheaf)) (s : State) : Act :=
  let mine : Arrival := { body := slot.word.toNat % 2 ^ 21, desc := if m.asrc == 0 then some (sh.dreg m.ad).val else none, acting := slot.acting }
  let agree := others.all (fun x => match x.2.arrival with | some a => a.body == mine.body && a.desc == mine.desc | none => false)
  if !agree then
    let s1 := s.forEach others (fun s x => s.dropArrival x.1)
    .trap (TrapInfo.at cMfuse 0 0 (slot.word.setWidth 64)) (s1.modSheaf slot.sid (fun sh => { sh with fused := sh.fused + 1 }))
  else
    let all := (slot.sid, sh, slot.acting) :: others.map (fun x => (x.1, x.2, (x.2.arrival.map Arrival.acting).getD 0))
    let sheaf := fun q => (all.find? (fun x => x.2.1.quadrant == q)).map (fun x => x.2.1)
    let s1 := s.forEach all (fun s x => s.modSheaf x.1 (fun y =>
      { (y.addMatOp (m.matOp s.nextId t x.2.1.quadrant x.2.1 x.2.2 sheaf)) with fused := y.fused + 1, arrival := none }))
    .next ((s1.forEach others (fun s x => s.endWait x.1 (fun s => s.complete x.1))).fresh).2

/-- A fused arrival (R182). -/
def fusedArrive (m : MmaFields) (slot : Slot) (sh : Sheaf) (t : Tuft) (s : State) : Act :=
  let others := (s.quartet t).filter (fun x => x.1 != slot.sid)
  if s.quartetGone t then .trap (TrapInfo.at cMfuse 1 0 (slot.word.setWidth 64)) s
  else if others.all (fun x => x.2.arrival.isSome) then fusedStart m slot sh t others s
  else
    let mine : Arrival := { body := slot.word.toNat % 2 ^ 21, desc := if m.asrc == 0 then some (sh.dreg m.ad).val else none, acting := slot.acting }
    .wait .fused (s.modSheaf slot.sid (fun sh => { sh with arrival := some mine }))

/-- MMA (R177 to R184). DESIGN CHOICE (log entry 64): a x4 MMA whose acting lanes select no row still makes the checks of R184 before it
has no effect; where no lane acts at all nothing is checked but what R86 and R195 rows 2 and 4 ask whatever the guard. -/
def mmaOp (m : MmaFields) (_ : Slot) : Op :=
  let bs := span m.vb (bCount (m.typ % 3))
  { ok := okMma m.fuse m.vb m.ad m.typ m.asrc,
    legal := tilesLegal (m.mt :: (if m.asrc == 1 then [m.ad, m.ad + 1] else [])),
    uses := [], also := [], writes := [], named := bs,
    hazard := fun _ sh _ => (sh.matrixHazard? (bs.map sh.phys) [] (bs.map sh.phys) (m.aBytes (sh.dreg m.ad).val) none).isSome,
    body := fun slot sh s =>
      let regs := bs.map sh.phys
      let offs := m.aBytes (sh.dreg m.ad).val
      match s.matrixTrap? slot sh offs (if m.asrc == 0 then some (offs, descSpan (sh.dreg m.ad).val) else none)
          (sh.matrixHazard? regs [] regs offs none) with
      | some t => .trap t s
      | none =>
        let s1 := s.replayMma slot sh regs
        match s1.sheaf? slot.sid, s1.tuft? sh.tid with
        | some sh1, some t =>
          if m.fuse != 0 then fusedArrive m slot sh1 t s1
          else if !rowsAct slot.acting then .next s1
          else .next ((s1.setSheaf slot.sid (sh1.addMatOp (m.matOp s1.nextId t sh1.quadrant sh1 slot.acting
            (fun q => if q == sh1.quadrant then some sh1 else none)))).fresh).2
        | _, _ => .stop s1 }

/-- MMA (R177). -/
def execMma (g : BitVec 4) (n : BitVec 1) (t : BitVec 3) (f : BitVec 2) (v : BitVec 5) (a : BitVec 3) (y : BitVec 4) (z : BitVec 1)
    (x : BitVec 3) (s : State) : Host.Outcome State Fault Refusal :=
  issued (if f == 0 then formMatrix else formFused) g n
    (mmaOp { mt := t.toNat, fuse := f.toNat, vb := v.toNat, ad := a.toNat, typ := y.toNat, z := z == 1, asrc := x.toNat }) s

/-- A tile operation without A or B (R187 to R190). -/
def tileMatOp (id : Nat) (kind : MatKind) (acting : Mask) (d : BitVec 64) (elems : List (List Nat)) (mark : Mark) : MatOp :=
  { id := id, kind := kind, acting := acting, desc := d, aElems := elems, bElems := [], bRegs := [], mark := mark, done := false }

/-- MZERO (R187). -/
def execMzero (g : BitVec 4) (n : BitVec 1) (t : BitVec 3) (s : State) : Host.Outcome State Fault Refusal :=
  issued formMatrix g n (fun _ =>
    { ok := true, legal := tilesLegal [t.toNat], uses := [], also := [], writes := [],
      body := fun slot sh s =>
        if !rowsAct slot.acting then .next s
        else .next ((s.setSheaf slot.sid (sh.addMatOp (tileMatOp s.nextId (.mzero t.toNat) slot.acting 0 [] 0))).fresh).2 }) s

/-- The stored rows of a tile access that act (R188, R189). -/
def actingRows (d : BitVec 64) (acting : Mask) : List Nat := (descStored d 16).filter (hasLane acting)

/-- MLDT (R188). -/
def mldtOp (mt dd fmt : Nat) (_ : Slot) : Op :=
  { ok := true, legal := tilesLegal [mt], uses := [], also := [], writes := [],
    hazard := fun slot sh _ =>
      (sh.matrixHazard? [] [] [] (descBytes (sh.dreg dd).val (actingRows (sh.dreg dd).val slot.acting) 16 (fmtBytes fmt)) none).isSome,
    body := fun slot sh s =>
      let d := sh.dreg dd
      let w := fmtBytes fmt
      let offs := descBytes d.val (actingRows d.val slot.acting) 16 w
      let all := descBytes d.val (descStored d.val 16) 16 w
      match s.matrixTrap? slot sh offs (some (all, descSpan d.val)) (sh.matrixHazard? [] [] [] offs none), s.tuft? sh.tid with
      | some t, _ => .trap t s
      | none, some t =>
        if !rowsAct slot.acting then .next s
        else
          let elems := (List.range 16).map (fun r => (List.range 16).map (fun j => t.element d.val r j w))
          let op := tileMatOp s.nextId (.mldt mt fmt) slot.acting d.val elems (maxMark d.mark (t.bytesMark offs))
          .next ((s.setSheaf slot.sid (sh.addMatOp op)).fresh).2
      | none, none => .stop s }

/-- MLDT (R188). -/
def execMldt (g : BitVec 4) (n : BitVec 1) (t d : BitVec 3) (f : BitVec 2) (s : State) : Host.Outcome State Fault Refusal :=
  issued formMatrix g n (mldtOp t.toNat d.toNat f.toNat) s

/-- MSTT (R189). -/
def msttOp (mt dd fmt : Nat) (_ : Slot) : Op :=
  { ok := true, legal := tilesLegal [mt], uses := [], also := [], writes := [],
    hazard := fun slot sh _ => (sh.matrixHazard? [] [] [] [] (some (mt, actingRows (sh.dreg dd).val slot.acting))).isSome,
    body := fun slot sh s =>
      let d := sh.dreg dd
      if !rowsAct slot.acting then .next s
      else
        match s.matrixTrap? slot sh (descBytes d.val (actingRows d.val slot.acting) 16 (fmtBytes fmt)) none (sh.matrixHazard? [] [] [] [] (some (mt, actingRows d.val slot.acting))) with
        | some t => .trap t s
        | none => .next ((s.setSheaf slot.sid (sh.addMatOp (tileMatOp s.nextId (.mstt mt fmt) slot.acting d.val [] d.mark))).fresh).2 }

/-- MSTT (R189). -/
def execMstt (g : BitVec 4) (n : BitVec 1) (t d : BitVec 3) (f : BitVec 2) (s : State) : Host.Outcome State Fault Refusal :=
  issued formMatrix g n (msttOp t.toNat d.toNat f.toNat) s

/-- The tile rows that an MROWV of some lanes reads (R190): row l mod 16 for a lane l. -/
def laneRows (acting : Mask) : List Nat := (List.range 16).filter (fun r => hasLane acting r || hasLane acting (r + 16))

/-- MROWV (R190). -/
def mrowvOp (vd mt : Nat) (_ : Slot) : Op :=
  { ok := alignV 8 vd, legal := tilesLegal [mt], uses := span vd 8, also := [], writes := span vd 8,
    hazard := fun slot sh _ =>
      (sh.matrixHazard? ((span vd 8).map sh.phys) ((span vd 8).map sh.phys) [] [] (some (mt, laneRows slot.acting))).isSome,
    body := fun slot sh s =>
      let regs := (span vd 8).map sh.phys
      match s.matrixTrap? slot sh [] none (sh.matrixHazard? regs regs [] [] (some (mt, laneRows slot.acting))) with
      | some t => .trap t s
      | none =>
        .next ((s.setSheaf slot.sid (sh.addMatOp { tileMatOp s.nextId (.mrowv regs mt) slot.acting 0 [] 0 with whole := slot.acting == sh.live })).fresh).2 }

/-- MROWV (R190). -/
def execMrowv (g : BitVec 4) (n : BitVec 1) (v : BitVec 5) (t : BitVec 3) (s : State) : Host.Outcome State Fault Refusal :=
  issued formMatrix g n (mrowvOp v.toNat t.toNat) s

/-- An MWAIT covers the operations of a sheaf (R193, R195): none is pending, and what its MROWVs wrote has been written. -/
def Sheaf.coverMops (sh : Sheaf) : Sheaf :=
  { sh with mops := [], bWrites := sh.bWrites.filter (fun r => !sh.mops.any (fun m => m.kind.rowRegs.contains r)) }

/-- MWAIT (R193): every operation that the sheaf issued is complete. -/
def execMwait (g : BitVec 4) (n : BitVec 1) (s : State) : Host.Outcome State Fault Refusal :=
  issued formMatrix g n (bareOp (fun slot sh s =>
    if sh.mops.all (fun m => m.done) then .ofSheaf slot s sh.coverMops else .wait .matrix s)) s

/-- MFENCE (R192): it waits, WAITING on matrix, until every result in flight is written; local accesses of the sheaf perform as they
issue. -/
def execMfence (g : BitVec 4) (n : BitVec 1) (s : State) : Host.Outcome State Fault Refusal :=
  issued formMatrix g n (bareOp (fun slot sh s =>
    if sh.pend.all (fun p => p.lanes == 0) then .ofSheaf slot s { sh with bWrites := [], aWrites := [] } else .wait .fence s)) s

/-- A descriptor that MDESC accepts (R175, R191). -/
def descLegal (d : BitVec 64) : Bool := d.toNat / 2 ^ 50 == 0 && descStride d % 16 == 0 && descLaddr d % 16 == 0

/-- MDESC (R191). -/
def execMdesc (g : BitVec 4) (n : BitVec 1) (d : BitVec 3) (b : BitVec 8) (s : State) : Host.Outcome State Fault Refusal :=
  issued formMdesc g n (fun _ =>
    { ok := evenU b.toNat, uses := span b.toNat 2, also := [], writes := [],
      body := fun slot sh s =>
        let v := sh.readPairB b.toNat
        if descLegal v then .ofSheaf slot s (sh.writeD d.toNat v (sh.pairMark (uIndex b.toNat))) else .trap (illegalWord slot) s }) s

/-- MDESC with g = 1 (R191). -/
def execMdescGet (g : BitVec 4) (n : BitVec 1) (d : BitVec 3) (b : BitVec 8) (s : State) : Host.Outcome State Fault Refusal :=
  issued formMdesc g n (fun _ =>
    { ok := evenU b.toNat, uses := span b.toNat 2, also := [], writes := [],
      body := fun slot sh s => .ofSheaf slot s (sh.writePairB b.toNat (sh.dreg d.toNat).val (sh.dreg d.toNat).mark) }) s

end Sys2Proof.Machine
end

