-- ==== Sys2Proof/Machine/Trust.lean ====
section
/-!
DEFINITION. Measurement and attestation (R355 to R365), the management port's messages (R362, R363, R402) and the reset of a
package with its bring-up (R394). Signatures, digests and keys are opaque functions of Config.
-/
namespace Sys2Proof.Machine

/-! ## Evidence (R357 to R361) -/

/-- Bytes cut or filled with zeros to a length. -/
def fitTo (n : Nat) (bs : List Byte) : List Byte := bytesAt bs 0 n

/-- MS0 to MS7 as a request sees them (R364): the committed snapshot while an activation runs. -/
def Package.slots (k : Package) : List (List Byte) := k.snapshot.getD k.ms

/-- FLAGS of R361: [0] ACTIVATION_PENDING. -/
def Package.flags (k : Package) : Nat := if k.snapshot.isSome then 1 else 0

/-- An entry of a layout record (R360). -/
def layoutEntry (pkg id kind route base : Nat) : List Byte :=
  leBytes 2 pkg ++ leBytes 1 id ++ leBytes 1 kind ++ leBytes 4 route ++ leBytes 8 base

/-- The layout record of a partition (R360): its own slices, those it has lent, those it has borrowed, its routes. -/
def State.layoutRecord (s : State) (part : Nat) (p : Partition) : List Byte :=
  let mine := fun (lent : Bool) => p.slices.filter (fun x => (s.slice x).borrower.isSome == lent)
  let entry := fun (kind x : Nat) => layoutEntry (packageOf x) (sliceIn x) kind 0 (p.memBase.getD (packageOf x) 0)
  let borrowed := (s.slices.filter (fun e => e.2.borrower == some part)).map Prod.fst
  let routes : Map Unit := p.routes.foldl (fun (m : Map Unit) r => m.put r ()) []
  leBytes 2 part ++ List.replicate 6 0 ++ leBytes 8 p.lseq ++ (mine false).flatMap (entry 0) ++ (mine true).flatMap (entry 1) ++
    borrowed.flatMap (fun x => layoutEntry (packageOf x) (sliceIn x) 2 0 0) ++ (Map.keys routes).flatMap (fun r => layoutEntry 0 0 3 r 0)

/-- The layout digest (R360). -/
def State.layoutDigest (s : State) (part : Nat) (p : Partition) : List Byte := fitTo 64 (Config.shake256 (s.layoutRecord part p) 64)

/-- The private seed of the alias key (R355). -/
def State.aliasSeed (s : State) (pkg : Nat) : List Byte := Config.shake256 (s.cdi1 pkg ++ asciiBytes "alias") 57

/-- The alias public key (R355). -/
def State.aliasPublic (s : State) (pkg : Nat) : List Byte := Config.ed448Public (s.aliasSeed pkg)

/-- The private seed of the DeviceID key (R355). -/
def deviceSeed (pkg : Nat) : List Byte := Config.shake256 (Config.uds pkg ++ asciiBytes "devid") 57

/-- The evidence block up to its signature (R361). -/
def State.evidenceBody (s : State) (part pkg : Nat) (p : Partition) (nonce : List Byte) : List Byte :=
  let k := s.package pkg
  leBytes 4 1 ++ leBytes 4 k.flags ++ leBytes 2 part ++ leBytes 2 pkg ++ leBytes 4 0 ++ leBytes 8 p.lseq ++ leBytes 8 k.aseq ++
    fitTo 64 nonce ++ s.layoutDigest part p ++ k.slots.flatMap (fitTo 64) ++ p.ms.flatMap (fitTo 64) ++
    fitTo 64 (fitTo 57 (s.aliasPublic pkg)) ++ fitTo 64 (fitTo 56 (s.wrapPublic pkg part p.lseq))

/-- The evidence block (R361). -/
def State.evidence (s : State) (part pkg : Nat) (p : Partition) (nonce : List Byte) : List Byte :=
  let body := s.evidenceBody part pkg p nonce
  body ++ fitTo 114 (Config.signEd448 (s.aliasSeed pkg) body) ++ List.replicate 46 0

/-- A mailbox request on evidence (R358), which a partition makes in every state of its life. Campion handles it once the request before it
has ended (R305): until then it stays in the mailbox, and nothing happens. -/
def State.asked (s : State) (part : Nat) (f : Partition → State) : State :=
  match s.part? part with
  | some p => if p.state == .dissolved || p.request.isSome then s else f p
  | none => s

/-- An address that a request of R358 may name: 64-aligned, in frames of the partition with PK = 1. -/
def State.mailAddress (s : State) (part paddr len : Nat) : Bool := paddr % 64 == 0 && s.kernelFrames part paddr len

/-- EVIDENCE (R358, R361). -/
def State.giveEvidence (s : State) (part pkg out nonce : Nat) (p : Partition) : State :=
  if !(packagesOf p.slices).contains pkg || !s.mailAddress part out 1472 || !s.mailAddress part nonce 64 || s.poisoned nonce 64 then
    s.answerMail part mailRefused
  else (s.putClear out (s.evidence part pkg p (s.viewBytes 0 nonce 64))).answerMail part 0

/-- EVIDENCE (R358, R361). -/
def execEvidence (part pkg out nonce : Nat) (s : State) : Host.Outcome State Fault Refusal := .next (s.asked part (s.giveEvidence part pkg out nonce))

/-- The certificate chain of a package (R356): the root, the DeviceID certificate, the alias certificate. -/
def State.chain (s : State) (pkg : Nat) : List Byte :=
  Config.rootCert ++ Config.deviceCert pkg (Config.ed448Public (deviceSeed pkg)) ++ Config.aliasCert (deviceSeed pkg) (s.aliasPublic pkg)

/-- CERTS (R358): the chain behind its length in 4 bytes. -/
def State.giveCerts (s : State) (part pkg out len : Nat) (p : Partition) : State :=
  let bs := s.chain pkg
  if !(packagesOf p.slices).contains pkg || decide (len < bs.length) || !s.mailAddress part out (4 + bs.length) then s.answerMail part mailRefused
  else (s.putClear out (leBytes 4 bs.length ++ bs)).answerMail part 0

/-- CERTS (R358). -/
def execCerts (part pkg out len : Nat) (s : State) : Host.Outcome State Fault Refusal := .next (s.asked part (s.giveCerts part pkg out len))

/-- EXTEND (R357, R358). -/
def State.extendBank (s : State) (part slot digestAt : Nat) (p : Partition) : State :=
  if slot < 11 || 15 < slot || !s.mailAddress part digestAt 64 || s.poisoned digestAt 64 then s.answerMail part mailRefused
  else (s.setPart part { p with ms := extendAt p.ms (slot - 8) (s.viewBytes 0 digestAt 64) }).answerMail part 0

/-- EXTEND (R358). -/
def execExtend (part slot digestAt : Nat) (s : State) : Host.Outcome State Fault Refusal := .next (s.asked part (s.extendBank part slot digestAt))

/-! ## The management port (R362, R363, R402) -/

/-- SPDM ERROR. -/
def replyError : Nat := 0x7F
/-- An MCTP error reply (R402). -/
def replyMctp : Nat := 0x100
/-- A command to Campion is done. -/
def replyDone : Nat := 0x101
/-- A command is refused with BUSY (R364). -/
def replyBusy : Nat := 0x102

/-- Campion has come up and answers (R394). -/
def Package.up (k : Package) : Bool := decide (5 ≤ k.step)

/-- The management port answers a message (R362, R402). -/
def State.tell (s : State) (pkg name : Nat) (bs : List Byte) : State :=
  s.modPackage pkg (fun k => if k.up then { k with replies := k.replies ++ [{ name := name, bytes := bs }] } else k)

/-- The octets of a request and of the response to it, whose code is the request's less 0x80. -/
def exchange (request : Nat) (fields answer : List Byte) : List Byte :=
  Config.spdmMessage request fields ++ Config.spdmMessage (request - 0x80) answer

/-- The port answers an SPDM request, the transcripts becoming what the messages make them. -/
def State.respond (s : State) (pkg request : Nat) (answer : List Byte) (hear : Transcript → Transcript) : State :=
  (s.tell pkg (request - 0x80) answer).modPackage pkg (fun k => if k.up then { k with heard := hear k.heard } else k)

/-- An SPDM error, which ends a run of measurement messages. -/
def State.respondError (s : State) (pkg : Nat) (bs : List Byte) : State :=
  (s.tell pkg replyError bs).modPackage pkg (fun k => if k.up then { k with heard := { k.heard with meas := [] } } else k)

/-- ERROR InvalidRequest (R363). -/
def State.tellInvalid (s : State) (pkg : Nat) : State := s.respondError pkg [0x01]

/-- The signature of a package's alias key over the SHA3-512 digest of a transcript (R362). -/
def State.signTranscript (s : State) (pkg : Nat) (octets : List Byte) : List Byte :=
  Config.signEd448 (s.aliasSeed pkg) (Config.sha3 octets)

/-- GET_VERSION: 1.3 (R362). -/
def execGetVersion (pkg : Nat) (s : State) : Host.Outcome State Fault Refusal :=
  .next (s.respond pkg 0x84 [0x13] (fun _ => { vca := exchange 0x84 [] [0x13], certs := [], meas := [] }))

/-- GET_CAPABILITIES (R362): CERT, CHAL, MEAS with signature. -/
def execGetCapabilities (pkg : Nat) (s : State) : Host.Outcome State Fault Refusal :=
  .next (s.respond pkg 0xE1 (leBytes 4 0x16) (fun h => { vca := h.vca ++ exchange 0xE1 [] (leBytes 4 0x16), certs := [], meas := [] }))

/-- What ALGORITHMS selects (R362): EdDSA Ed448 and SHA3-512 where they are offered, raw bit streams. -/
def algorithms (sign hash : Nat) : List Byte := leBytes 4 (sign &&& 0x800) ++ leBytes 4 (hash &&& 0x20) ++ leBytes 4 0x1

/-- NEGOTIATE_ALGORITHMS (R362). -/
def execNegotiateAlgorithms (offer : AlgorithmOffer) (s : State) : Host.Outcome State Fault Refusal :=
  let answer := algorithms offer.sign offer.hash
  .next (s.respond offer.package 0xE3 answer (fun h =>
    { vca := h.vca ++ exchange 0xE3 (leBytes 4 offer.sign ++ leBytes 4 offer.hash) answer, certs := [], meas := [] }))

/-- GET_DIGESTS (R362): the digest of the chain in slot 0. -/
def execGetDigests (pkg : Nat) (s : State) : Host.Outcome State Fault Refusal :=
  let d := Config.sha3 (s.chain pkg)
  .next (s.respond pkg 0x81 d (fun h => { h with certs := h.certs ++ exchange 0x81 [] d, meas := [] }))

/-- GET_CERTIFICATE (R362): slot 0, a part of the chain. -/
def execGetCertificate (pkg slot offset len : Nat) (s : State) : Host.Outcome State Fault Refusal :=
  let bs := ((s.chain pkg).drop offset).take len
  if slot != 0 || decide ((s.chain pkg).length ≤ offset) then .next (s.tellInvalid pkg)
  else .next (s.respond pkg 0x82 bs (fun h =>
    { h with certs := h.certs ++ exchange 0x82 (leBytes 1 slot ++ leBytes 2 offset ++ leBytes 2 len) bs, meas := [] }))

/-- CHALLENGE (R362): the chain's digest and the requester's nonce, signed over the transcript with them. -/
def execChallenge (pkg : Nat) (nonce : List (BitVec 8)) (s : State) : Host.Outcome State Fault Refusal :=
  if nonce.length != 32 then .next (s.tellInvalid pkg)
  else
    let bs := Config.sha3 (s.chain pkg) ++ nonce
    let h := (s.package pkg).heard
    .next (s.respond pkg 0x83 (bs ++ s.signTranscript pkg (h.vca ++ h.certs ++ exchange 0x83 nonce bs)) (fun h => { h with certs := [], meas := [] }))

/-- The partition that owns a slice of a package, with its number. -/
def State.ownerOf? (s : State) (pkg slice : Nat) : Option (Nat × Partition) :=
  (s.slice (8 * pkg + slice)).owner.bind (fun part => (s.part? part).map (fun p => (part, p)))

/-- The block that a measurement index names (R363). -/
def State.measurement? (s : State) (pkg index : Nat) : Option (List Byte) :=
  let k := s.package pkg
  if 1 ≤ index ∧ index ≤ 8 then some (k.slots.getD (index - 1) zeroSlot)
  else if 0x10 ≤ index ∧ index < 0x50 then (s.ownerOf? pkg ((index - 0x10) / 8)).map (fun e => e.2.ms.getD ((index - 0x10) % 8) zeroSlot)
  else if 0x50 ≤ index ∧ index < 0x58 then (s.ownerOf? pkg (index - 0x50)).map (fun e => leBytes 8 e.2.lseq ++ s.layoutDigest e.1 e.2)
  else if index == 0x60 then some (leBytes 4 k.flags ++ leBytes 8 k.aseq)
  else if 0x68 ≤ index ∧ index < 0x70 then (s.ownerOf? pkg (index - 0x68)).map (fun e => fitTo 56 (s.wrapPublic pkg e.1 e.2.lseq))
  else none

/-- A block with its index and length. -/
def indexed (index : Nat) (bs : List Byte) : List Byte := leBytes 1 index ++ leBytes 2 bs.length ++ bs

/-- The blocks that a request asks for (R363): one, or with 0xFF all that exist. -/
def State.measurements? (s : State) (pkg index : Nat) : Option (List Byte) :=
  if index == 0xFF then some ((List.range 0x70).flatMap (fun i => match s.measurement? pkg i with | some bs => indexed i bs | none => []))
  else (s.measurement? pkg index).map (indexed index)

/-- GET_MEASUREMENTS (R362, R363): blocks of one snapshot, signed over the transcript with the requester's 32-byte nonce; a request
without a nonce asks for no signature. -/
def execGetMeasurements (pkg index : Nat) (nonce : List (BitVec 8)) (s : State) : Host.Outcome State Fault Refusal :=
  match s.measurements? pkg index with
  | none => .next (s.tellInvalid pkg)
  | some bs =>
    let said := exchange 0xE0 (leBytes 1 index ++ nonce) (bs ++ nonce)
    let h := (s.package pkg).heard
    if nonce.length == 0 then .next (s.respond pkg 0xE0 bs (fun h => { h with meas := h.meas ++ said }))
    else if nonce.length != 32 then .next (s.tellInvalid pkg)
    else .next (s.respond pkg 0xE0 (bs ++ nonce ++ s.signTranscript pkg (h.vca ++ h.meas ++ said)) (fun h => { h with meas := [] }))

/-- SPDM_UNSUPPORTED (R362): ERROR UnsupportedRequest. -/
def execSpdmUnsupported (pkg code : Nat) (s : State) : Host.Outcome State Fault Refusal := .next (s.respondError pkg (0x07 :: leBytes 1 code))

/-- PWRSTAT (R395). -/
def Island.stat (x : Island) : Word :=
  BitVec.ofNat 32 (x.power % 65536 + (if x.therm then 2 ^ 16 else 0) + (if x.capmiss then 2 ^ 17 else 0) + x.fclk % 4096 * 2 ^ 20)

/-- The reply to a read of a PWRSTAT (R402). -/
def replyPower : Nat := 0x106

/-- A dissolution command of the management port (R402): what DISSOLVE does to a HALTED partition of the package (R306), with no mailbox
answer; else an MCTP error. -/
def State.portDissolve (s : State) (pkg part : Nat) : State :=
  match s.part? part with
  | some p =>
    if (s.package pkg).up && p.state == .halted && p.request == none && (packagesOf p.slices).contains pkg then
      (s.dissolve part p).tell pkg replyDone []
    else s.tell pkg replyMctp []
  | none => s.tell pkg replyMctp []

/-- MGMT_OTHER_MESSAGE (R402): a read of a PWRSTAT, a dissolution command, or an MCTP error reply. DESIGN CHOICE (log entry 15): codes
0x100 + 2 * slice + island read, codes 0x200 + partition dissolve; no rule gives the messages of the port their codes. -/
def execMgmtOtherMessage (pkg code : Nat) (s : State) : Host.Outcome State Fault Refusal :=
  if 0x100 ≤ code ∧ code < 0x110 then
    .next (s.tell pkg replyPower (leBytes 4 ((s.slice (8 * pkg + code % 16 / 2)).islands.getD (code % 2) Island.reset).stat.toNat))
  else if 0x200 ≤ code ∧ code < 0x200 + 1024 then .next (s.portDissolve pkg (code - 0x200)).settle
  else .next (s.tell pkg replyMctp (leBytes 1 code))

/-! ## Live activation (R364, R365) -/

/-- FIRMWARE_STAGE (R364): an image for MS3 to MS7. -/
def execFirmwareStage (pkg slot : Nat) (image : List (BitVec 8)) (s : State) : Host.Outcome State Fault Refusal :=
  if slot < 3 || 7 < slot then .next (s.tell pkg replyMctp (leBytes 1 slot))
  else .next ((s.modPackage pkg (fun k => if k.up then
    { k with staged := k.staged.filter (fun e => e.1 != slot) ++ [(slot, digestOf image)] } else k)).tell pkg replyDone [])

/-- ACTIVATION_START (R364). -/
def execActivationStart (pkg : Nat) (s : State) : Host.Outcome State Fault Refusal :=
  let k := s.package pkg
  if !k.up then .next s
  else if k.snapshot.isSome then .next (s.tell pkg replyBusy [])
  else
    .next ((s.modPackage pkg (fun k => { k with aseq := k.aseq + 1, snapshot := some k.ms, active := k.staged, staged := [] })).tell pkg replyDone [])

/-- The partitions with a slice in a package. -/
def State.partsIn (s : State) (pkg : Nat) : List Nat :=
  (s.parts.filter (fun e => e.2.state != .dissolved && (packagesOf e.2.slices).contains pkg)).map Prod.fst

/-- ACTIVATION_COMMIT (R365): the slots are extended, every partition's LSEQ rises, IDLE. -/
def execActivationCommit (pkg : Nat) (s : State) : Host.Outcome State Fault Refusal :=
  if (s.package pkg).snapshot.isNone then .next (s.tell pkg replyMctp [])
  else
    let s1 := s.modPackage pkg (fun k =>
      { k with ms := k.active.foldl (fun ms e => extendAt ms e.1 e.2) k.ms, snapshot := none, active := [] })
    .next ((s1.forEach (s1.partsIn pkg) (fun s p => s.raiseLseq p)).tell pkg replyDone [])

/-- ACTIVATION_ROLLBACK (R365): slots and ASEQ stay. -/
def execActivationRollback (pkg : Nat) (s : State) : Host.Outcome State Fault Refusal :=
  if (s.package pkg).snapshot.isNone then .next (s.tell pkg replyMctp [])
  else .next ((s.modPackage pkg (fun k => { k with snapshot := none, active := [] })).tell pkg replyDone [])

/-! ## Package reset and bring-up (R394) -/

/-- A package after the steps of R394 up to one: MS0 and MS1 measured and the fuses locked at 2, MS2 to MS7 measured at 3 (R357). -/
def Package.broughtUp (now pkg step : Nat) : Package :=
  let measured := if step < 2 then 0 else if step < 3 then 2 else 8
  { Package.reset with
    step := step
    locked := decide (2 ≤ step)
    ms := (List.range 8).map (fun i => if i < measured then extendSlot zeroSlot (Config.bootDigest now pkg i) else zeroSlot) }

/-- A slice after the steps of R394 up to one: from step 4 its islands have power, in BALANCED (R396). -/
def Slice.broughtUp (step : Nat) : Slice :=
  if step < 4 then Slice.reset else { Slice.reset with islands := [{ Island.reset with fclk := 2100 }, { Island.reset with fclk := 2600 }] }

/-- The CLK that Campion gives a package at bring-up (R400): within 1 microsecond of another package's that is up; which one is free. -/
def State.alignedClk (s : State) (pkg : Nat) : Nat :=
  match s.packages.findSome? (fun e => if e.1 != pkg && e.2.up then some e.2.clk else none) with
  | some clk => clk + 1000 - Config.freeNat s.freeCount % 2001
  | none => 0

/-- The slices of a package. -/
def packageSlices (pkg : Nat) : List Nat := (List.range 8).map (fun i => 8 * pkg + i)

/-- A partition whose slices all lie in a package ends with it; another loses its slices there (R338, R394). -/
def State.leavePackage (s : State) (pkg part : Nat) : State :=
  match s.part? part with
  | none => s
  | some p =>
    if (packagesOf p.slices).all (fun k => k == pkg) then s.endPartition part
    else
      let kids := (s.kernels.filter (fun e => e.2.part == part && packageOf e.2.slice == pkg)).map Prod.fst
      let s1 := s.forEach (s.tufts.filter (fun e => kids.contains e.2.kid)) (fun s e => s.removeTuft e.1)
      let s2 := s1.forEach (p.slices.filter (fun x => packageOf x == pkg)) (fun s x => s.loseSlice x)
      ({ s2 with kernels := s2.kernels.reject (fun k _ => kids.contains k) }).modPart part (fun p =>
        { p with
          slices := p.slices.filter (fun x => packageOf x != pkg)
          ports := p.ports.filter (fun x => packageOf x != pkg)
          memBase := p.memBase.drop pkg
          request := none
          state := if p.state == PartState.halted || p.state == PartState.booting then p.state else PartState.running })

/-- A physical address of a package, or the key of a location in the HBM of one of its slices (R302). -/
def inPackage (pkg a : Nat) : Bool := if a < 2 ^ 53 then a / 2 ^ 42 == pkg else packageOf ((a - 2 ^ 53) / 2 ^ 37) == pkg

/-- Everything of a package stands as its reset and the steps of its bring-up up to one leave it (R394): every slice and core reset, from
step 4 memory zero, from step 5 every frame word 0 and CLK aligned. -/
def State.wipePackage (s : State) (pkg step : Nat) : State :=
  { s with
    cores := s.cores.reject (fun c _ => packageOf (sliceOf c) == pkg),
    slices := (packageSlices pkg).foldl (fun m x => m.put x (Slice.broughtUp step)) s.slices,
    packages := s.packages.put pkg { Package.broughtUp s.freeCount pkg step with clk := if step < 5 then 0 else s.alignedClk pkg },
    freeCount := s.freeCount + 1,
    mem := s.mem.filter (fun e => decide (step < 4) || !inPackage pkg e.1),
    keyOf := s.keyOf.reject (fun n _ => decide (4 ≤ step) && inPackage pkg (32 * n)),
    poison := s.poison.filter (fun n => decide (step < 4) || !inPackage pkg (32 * n)),
    lostSets := s.lostSets.filter (fun x => x.package != pkg),
    frames := s.frames.reject (fun f _ => decide (5 ≤ step) && 65536 * f / 2 ^ 42 == pkg),
    cache := s.cache.reject (fun l _ => decide (4 ≤ step) && inPackage pkg (128 * l)) }

/-- The steps of R394 that end in a bring-up: 5, or those before one that fails. -/
def stepsDone (fails : Nat) : Nat := if 1 ≤ fails ∧ fails ≤ 5 then fails - 1 else 5

/-- PACKAGE_RESET (R394): a package reset, and the bring-up of the package to step 5; a step that fails holds it there, and the
management port reports it. -/
def execPackageReset (pkg : Nat) (s : State) : Host.Outcome State Fault Refusal :=
  let s1 := s.forEach (s.partsIn pkg) (fun s part => s.leavePackage pkg part)
  let s2 := s1.forEach (packageSlices pkg) (fun s x => if (s.slice x).borrower.isSome then s.loseSlice x else s)
  let done := stepsDone (Config.bringUpFails s2.freeCount)
  let s3 := s2.wipePackage pkg done
  .next ((if done < 5 then s3.tellPort pkg replyBootFailure (leBytes 1 (done + 1)) else s3).settle)

end Sys2Proof.Machine
end

