-- ==== Sys2Proof/Machine/Power.lean ====
section
/-!
DEFINITION. Island power and clocks (R395, R396) and the Teasel trace unit (R397 to R401).
-/
namespace Sys2Proof.Machine

/-! ## Islands (R395, R396) -/

/-- Change an island of a slice: 0 the compute die, 1 the base-die pair (R395). -/
def State.modIsland (s : State) (slice n : Nat) (f : Island → Island) : State :=
  s.modSlice slice (fun x => { x with islands := (List.range x.islands.length).map (fun i =>
    let y := x.islands.getD i Island.reset
    if i == n then f y else y) })

/-- MODE of PWRCTL (R395). -/
def Island.mode (x : Island) : Nat := field x.ctl.toNat 0 2
/-- CAP of PWRCTL (R395). -/
def Island.cap (x : Island) : Nat := field x.ctl.toNat 20 12

/-- The floor clock in MHz of an island (R396). -/
def floorClock (n : Nat) : Nat := if n == 0 then 600 else 800

/-- The clock of PEAK and of BALANCED in MHz (R396). -/
def modeClock (n mode : Nat) : Nat :=
  if mode == 0 then (if n == 0 then 2400 else 3000) else (if n == 0 then 2100 else 2600)

/-- A value that PWRCTL takes (R395). -/
def pwrctlLegal (v : Word) : Bool :=
  field v.toNat 2 18 == 0 && field v.toNat 0 2 != 3 && !(field v.toNat 0 2 == 2 && field v.toNat 20 12 == 0)

/-- The clocks that CAPPED may give an island, the highest first (R396): 25 MHz steps from the floor to PEAK's clock. -/
def capSteps (n : Nat) : List Nat := ((List.range ((modeClock n 0 - floorClock n) / 25 + 1)).map (fun i => floorClock n + 25 * i)).reverse

/-- The watts that an island draws at a clock, at a moment. DEDUCED (log entry 18): more than the 5 W that R403 says no clock meets. -/
def drawnWatts (n moment f : Nat) : Nat := 6 + Config.islandWatts moment n f

/-- The clock and CAPMISS that CAPPED gives an island (R396): the highest step at which it draws at most CAP, else the floor with CAPMISS. -/
def Island.capped (x : Island) (n : Nat) (draw : Nat → Nat) : Nat × Bool :=
  match (capSteps n).find? (fun f => decide (draw f ≤ x.cap)) with
  | some f => (f, false)
  | none => (floorClock n, true)

/-- The island in the mode of its PWRCTL (R396), drawing some watts at each clock. A clock that THERM has lowered stays low. -/
def Island.settleMode (x : Island) (n : Nat) (draw : Nat → Nat) : Island :=
  let c := if x.mode == 2 then x.capped n draw else (modeClock n x.mode, false)
  { x with fclk := if x.therm then min x.fclk c.1 else c.1, capmiss := c.2 }

/-- The control-space offset of an island's PWRCTL (R303, R395). -/
def pwrctlOffset (n : Nat) : Nat := 0x0A000000 + 0x40 * n

/-- A write of PWRCTL (R395, R396); what the island draws at each clock is free. -/
def State.writePwrctl (s : State) (slice n : Nat) (v : Word) : State :=
  if 2 ≤ n then s
  else if !pwrctlLegal v then s.refuse slice (pwrctlOffset n)
  else
    State.modIsland { s with freeCount := s.freeCount + 1 } slice n (fun x => { x with ctl := v }.settleMode n (drawnWatts n s.freeCount))

/-- PWRCTL_WRITE (R395). -/
def execPwrctlWrite (slice island : Nat) (v : BitVec 32) (s : State) : Host.Outcome State Fault Refusal := .next (s.writePwrctl slice island v)

/-- The cold plate lowers the clock to another, or is back within its limit at a moment (R396). -/
def Island.throttle (x : Island) (n : Nat) (on : Bool) (fclk : Nat) : Island :=
  if on then { x with therm := true, fclk := min x.fclk fclk }
  else if x.therm then { x with therm := false }.settleMode n (drawnWatts n fclk)
  else x

/-- THERM_THROTTLE (R396). -/
def execThermThrottle (slice island : Nat) (on : Bool) (fclk : Nat) (s : State) : Host.Outcome State Fault Refusal :=
  .next (s.modIsland slice island (fun x => x.throttle island on fclk))

/-- A millisecond of power has been measured at the island's clock, at a moment (R395, R396): in CAPPED the clock follows it. -/
def Island.measure (x : Island) (n watts moment : Nat) : Island :=
  let y := { x with power := min watts 65535 }
  if x.mode == 2 then y.settleMode n (fun f => if f == x.fclk then max watts 6 else drawnWatts n moment f) else y

/-- POWER_WINDOW (R395, R396). -/
def execPowerWindow (slice island watts moment : Nat) (s : State) : Host.Outcome State Fault Refusal :=
  .next (s.modIsland slice island (fun x => x.measure island watts moment))

/-! ## Teasel (R397 to R400) -/

/-- A value that TRCTL takes (R398). -/
def trctlLegal (v : Word) : Bool :=
  field v.toNat 20 12 == 0 && field v.toNat 19 1 == 0 && field v.toNat 2 2 == 0 && field v.toNat 0 2 != 3

/-- DEST of TRCTL (R398). -/
def Teasel.dest (t : Teasel) : Nat := field t.ctl.toNat 0 2

/-- Change a slice's Teasel. -/
def State.modTeasel (s : State) (slice : Nat) (f : Teasel → Teasel) : State := s.modSlice slice (fun x => { x with teasel := f x.teasel })

/-- A write of TRCTL (R398); with DEST 0 held records are discarded and counted (R400). -/
def State.writeTrctl (s : State) (slice : Nat) (v : Word) : State :=
  if !trctlLegal v then s.refuse slice 0x0B000000
  else s.modTeasel slice (fun t =>
    let u := { t with ctl := v }
    if u.dest == 0 then { u with held := [], drops := u.drops + u.held.length } else u)

/-- TRCTL_WRITE (R398). -/
def execTrctlWrite (slice : Nat) (v : BitVec 32) (s : State) : Host.Outcome State Fault Refusal := .next (s.writeTrctl slice v)

/-- The order in which records leave (R400): TIME, class, CORE, SLOT. -/
def TraceRec.before (a b : TraceRec) : Bool :=
  decide (a.time < b.time) || (a.time == b.time && (decide (a.cls < b.cls) || (a.cls == b.cls &&
    (decide (a.core < b.core) || (a.core == b.core && decide (a.slot < b.slot))))))

/-- The record that leaves first. -/
def Teasel.first? (t : Teasel) : Option TraceRec :=
  t.held.foldl (fun acc r => match acc with
    | none => some r
    | some b => if r.before b then some r else acc) none

/-- The held records without one. -/
def dropRecord (r : TraceRec) : List TraceRec → List TraceRec
  | [] => []
  | x :: xs => if x == r then xs else x :: dropRecord r xs

/-- The bytes of a record (R399). -/
def TraceRec.bytes (r : TraceRec) : List Byte :=
  leBytes 8 r.time ++ leBytes 1 r.cls ++ leBytes 1 (if r.sealed then 1 else 0) ++ leBytes 2 r.core ++ leBytes 2 r.slot ++ leBytes 2 r.ctx ++
  leBytes 16 r.payload

/-- The ring of a Teasel is set up (R397). What a TRCTX with non-zero bits [31:28] does is open, R397 naming no status: the model stores it and
the records wait, as they wait for a ring (DESIGN CHOICE, log entry 34). -/
def Teasel.ringOk (t : Teasel) : Bool :=
  decide (12 ≤ t.log2) && decide (t.log2 ≤ 30) && t.base % 4096 == 0 && field t.tctx.toNat 28 4 == 0

/-- The ring has room for a record (R400). -/
def Teasel.room (t : Teasel) : Bool := decide (t.wr + 32 - t.rd ≤ 2 ^ t.log2)

/-- A record goes to the ring (R400): under TRCTX's context and key slot; one that its home turns away is dropped. -/
def State.ringRecord (s : State) (slice part : Nat) (r : TraceRec) : State :=
  let t := (s.slice slice).teasel
  let ctx := field t.tctx.toNat 0 16
  let k := s.keySlot part (field t.tctx.toNat 16 12)
  let at_ := t.base + t.wr % 2 ^ t.log2
  if s.ownerOk false part ctx at_ && k.valid && (k.owner == ctx || k.owner == 0xFFFF) && k.mark != 3 then
    (s.putBytes k.key at_ ((List.range 32).zip r.bytes)).modTeasel slice (fun t => { t with held := dropRecord r t.held, wr := t.wr + 32 })
  else (s.countDrop part at_).modTeasel slice (fun t => { t with held := dropRecord r t.held, drops := t.drops + 1 })

/-- The name of a Teasel record among the management port's messages (R402). -/
def replyTrace : Nat := 0x105

/-- The first record leaves (R400), once CLK is past its TIME; else time passes. -/
def State.drainTeasel (s : State) (slice : Nat) : State :=
  let x := s.slice slice
  match x.teasel.first?, x.owner with
  | some r, some part =>
    if (s.package (packageOf slice)).clk ≤ r.time then (s.readClk (packageOf slice)).2
    else if x.teasel.dest == 2 then
      (s.modPackage (packageOf slice) (fun k => { k with replies := k.replies ++ [{ name := replyTrace, bytes := r.bytes }] })).modTeasel slice
        (fun t => { t with held := dropRecord r t.held })
    else if x.teasel.dest == 1 && x.teasel.ringOk && x.teasel.room then s.ringRecord slice part r
    else s
  | _, _ => s

/-- TEASEL_DRAIN (R400). -/
def execTeaselDrain (slice : Nat) (s : State) : Host.Outcome State Fault Refusal := .next (s.drainTeasel slice)

end Sys2Proof.Machine
end

