-- ==== Sys2Proof/Machine/Yarrow.lean ====
section
/-!
DEFINITION. Yarrow, the lease scheduler (R241 to R244), the choice of a quadrant (R246) and the turn of a fairness round (R24)
as happenings of their own.
-/
namespace Sys2Proof.Machine

/-! ## Turns (R24) -/

/-- QUANTUM_EXPIRY (R24): the turn ends where its count has reached the quantum. -/
def execQuantumExpiry (sid : Nat) (s : State) : Host.Outcome State Fault Refusal := .next (s.modSheaf sid Sheaf.expireTurn)

/-! ## The choice of a quadrant (R246) -/

/-- An admitted sheaf of a quadrant may issue: ACTIVE or TRAPPED, its tuft in the front plane and not stopped at a boundary by an
ordered suspension, an abort, a recall or a HALT (R246, R247, R293, R306, R311), nor with a result that its slice's port cannot
bring in (R341). -/
def State.mayIssue (s : State) (sid : Nat) (sh : Sheaf) : Bool :=
  (sh.state == .active || sh.state == .trapped) && !s.stuckSheaf sid &&
    (match s.tuft? sh.tid with
     | some t => t.resident && !t.parked &&
        !(sh.atBoundary && (t.forced || t.state == .aborted || (s.slice (sliceOf sh.core)).recalled ||
          (match s.part? (s.partOf sh) with | some p => p.state == .halted | none => false)))
     | none => false)

/-- A sheaf is older than another (R243, R246): placement or reload first, then index. -/
def Sheaf.older (a b : Sheaf) : Bool := decide (a.age < b.age) || (a.age == b.age && decide (a.idx < b.idx))

/-- Something that a sheaf has issued is still in flight (R98, R193). -/
def Sheaf.inFlight (sh : Sheaf) : Bool := sh.pend.any (fun p => p.lanes != 0) || sh.mops.any (fun m => !m.done)

/-- A sheaf stands at an interlock in the next issue slot (R246): what its next instruction needs is in flight. When it arrives is free. -/
def State.stalls (s : State) (sid : Nat) (sh : Sheaf) : Bool := sh.inFlight && Config.stalled s.freeCount sid

/-- The ready sheaves of a quadrant (R246). -/
def State.ready (s : State) (core quad : Nat) : List (Nat × Sheaf) :=
  s.sheaves.filter (fun e => e.2.core == core && e.2.quadrant == quad && s.mayIssue e.1 e.2 && !s.stalls e.1 e.2)

/-- The oldest of some sheaves. -/
def oldest? (xs : List (Nat × Sheaf)) : Option (Nat × Sheaf) :=
  xs.foldl (fun acc e => match acc with
    | none => some e
    | some b => if e.2.older b.2 then some e else acc) none

/-- The issue state of a quadrant. -/
def State.quad (s : State) (core quad : Nat) : Quad := (s.core core).quads.getD quad { last := none, run := 0, yield := false }

/-- The sheaf that issued in the previous slot may go on (R246). -/
def Quad.goesOn (q : Quad) : Bool := decide (q.run ≤ 32) && !q.yield

/-- The sheaf that a quadrant issues for (R246). -/
def State.chosen? (s : State) (core quad : Nat) : Option (Nat × Sheaf) :=
  let xs := s.ready core quad
  let q := s.quad core quad
  match oldest? (xs.filter (fun e => decide (512 ≤ e.2.starve))) with
  | some e => some e
  | none =>
    match (if q.goesOn then xs.filter (fun e => q.last == some e.1) else []) with
    | e :: _ => some e
    | [] => oldest? xs

/-- An issue slot of a quadrant is spent on a sheaf: starvation counts and the greedy run (R246). -/
def State.chargeSlot (s : State) (core quad sid : Nat) : State :=
  let xs := s.ready core quad
  let q := s.quad core quad
  let run := (if q.last == some sid then q.run else 0) + (if 1 < xs.length then 1 else 0)
  let s1 := s.forEach xs (fun s e => s.modSheaf e.1 (fun sh => { sh with starve := if e.1 == sid then 0 else sh.starve + 1 }))
  s1.modQuad core quad (fun _ => { last := some sid, run := run, yield := false })

/-- STARVATION_LIMIT (R246): the oldest ready sheaf whose count has reached 512 is the one that the quadrant issues for. -/
def execStarvationLimit (core quad : Nat) (s : State) : Host.Outcome State Fault Refusal :=
  match oldest? ((s.ready core quad).filter (fun e => decide (512 ≤ e.2.starve))) with
  | some e => .next (s.modQuad core quad (fun _ => { last := some e.1, run := 0, yield := false }))
  | none => .next s

/-- GREEDY_LIMIT (R246): the run of the greedy sheaf ends after its 32 slots, and the oldest ready sheaf follows. -/
def execGreedyLimit (core quad : Nat) (s : State) : Host.Outcome State Fault Refusal :=
  if (s.quad core quad).goesOn then .next s
  else .next (s.modQuad core quad (fun _ => { last := none, run := 0, yield := false }))

/-! ## Admission (R243) -/

/-- A sheaf is admitted (R243). -/
def Sheaf.admitted (sh : Sheaf) : Bool := sh.state == .active || sh.state == .waiting || sh.state == .trapped

/-- The sheaves of a core's front plane. -/
def State.frontSheaves (s : State) (core : Nat) : List (Nat × Sheaf) :=
  (s.tuftsOn core).flatMap (fun e => if e.2.state == .resident then s.sheavesOf e.2 else [])

/-- Lease(s): what admission counts (R242). -/
def State.leaseOf (s : State) (sh : Sheaf) : Nat :=
  match s.kernelOf? sh with
  | some k => if k.desc.lmode == 0 then 0 else sh.lease.lease
  | none => sh.lease.lease

/-- The lease budget of a core (R241, R243). -/
def Core.budget (k : Core) : Nat := k.granules * (16 - field k.lsched.toNat 20 4) / 16

/-- The leases of the admitted sheaves of a core. -/
def State.usedLease (s : State) (core : Nat) : Nat :=
  (s.frontSheaves core).foldl (fun n e => if e.2.admitted then n + s.leaseOf e.2 else n) 0

/-- Another sheaf of a quadrant is admitted. -/
def State.othersAdmitted (s : State) (core quad sid : Nat) : Bool :=
  (s.frontSheaves core).any (fun e => e.1 != sid && e.2.quadrant == quad && e.2.admitted)

/-- A sheaf returns from PARKED to the state it left (R33, R243, R248). -/
def State.letIn (s : State) (sid : Nat) (kept : Bool) : State :=
  match s.sheaf? sid with
  | some sh =>
    let s1 := (s.setSheaf sid { sh with state := sh.resumeAs, lease := { sh.lease with counted := 0, kept := kept, seen := s.leaseOf sh } }).traceSheaf
      sh 5 (s.leaseOf sh)
    if sh.resumeAs == .waiting then s1.compareShare sid else s1
  | none => s

/-- The own lease of a sheaf rose, and the leases exceed the budget since (R243). -/
def State.risen (s : State) (core : Nat) (sh : Sheaf) : Bool :=
  decide (sh.lease.seen < s.leaseOf sh) && decide ((s.core core).budget < s.usedLease core)

/-- A sheaf whose own lease rose beyond the budget is withdrawn (R243), once it has issued 1,024 counted instructions since its admission
and stands between two; until then the rise is kept. Any other rise is settled. -/
def State.withdraw (s : State) (core sid : Nat) : State :=
  match s.sheaf? sid with
  | none => s
  | some sh =>
    let candidate := sh.state == .active && !sh.lease.kept && s.risen core sh
    if candidate && (sh.lease.counted < 1024 || !sh.atBoundary) then s
    else if candidate && s.othersAdmitted core sh.quadrant sid then
      (s.setSheaf sid { sh with state := .parked, resumeAs := .active }).traceSheaf sh 6 (s.leaseOf sh)
    else s.setSheaf sid { sh with lease := { sh.lease with seen := s.leaseOf sh } }

/-- A PARKED sheaf is admitted where one of the tests of R243 but the age bound's holds. -/
def State.tryAdmit (s : State) (core sid : Nat) : State :=
  match s.sheaf? sid with
  | none => s
  | some sh =>
    let lease := s.leaseOf sh
    let alone := !s.othersAdmitted core sh.quadrant sid
    if sh.state == .parked && (lease == 0 || decide (s.usedLease core + lease ≤ (s.core core).budget) || alone) then s.letIn sid alone else s

/-- Some sheaves in age order. -/
def inAgeOrder (xs : List (Nat × Sheaf)) : List Nat :=
  (xs.foldl (fun (acc : List (Nat × Sheaf)) e => acc.takeWhile (fun x => x.2.older e.2) ++ e :: acc.dropWhile (fun x => x.2.older e.2)) []).map Prod.fst

/-- The admission pass of a core (R243). -/
def State.admissionPass (s : State) (core : Nat) : State :=
  let s1 := s.forEach (inAgeOrder ((s.frontSheaves core).filter (fun e => e.2.admitted))) (fun s sid => s.withdraw core sid)
  s1.forEach (inAgeOrder ((s1.frontSheaves core).filter (fun e => e.2.state == .parked))) (fun s sid => s.tryAdmit core sid)

/-- ADMISSION_PASS (R243). -/
def execAdmissionPass (core : Nat) (s : State) : Host.Outcome State Fault Refusal := .next ((s.admissionPass core).settle)

/-- AGE_BOUND_EXPIRY (R243): a sheaf that has been PARKED for 1,024 × LSCHED.AGE cycles is admitted, and never withdrawn. -/
def execAgeBoundExpiry (sid : Nat) (s : State) : Host.Outcome State Fault Refusal :=
  match s.sheaf? sid with
  | none => .next s
  | some sh => if sh.state == .parked && (s.frontSheaves sh.core).any (fun e => e.1 == sid) then .next ((s.letIn sid true).settle) else .next s

/-! ## The sketch (R242) -/

/-- What the sketch may say of a window (R242): an estimate within 12.5 % of the distinct lines touched; else the count itself. -/
def Lease.sketch (x : Lease) (estimate : Nat) : Nat :=
  let n := x.lines.length
  if decide (8 * n ≤ 8 * estimate + n) && decide (8 * estimate ≤ 9 * n) then estimate else n

/-- A window of 1,024 memory instructions ends: D is the sketch's estimate, VG halves (R242). -/
def Lease.endWindow (x : Lease) (estimate : Nat) : Lease :=
  { x with d := x.sketch estimate, vg := x.vg / 2, memInstrs := x.memInstrs - 1024, lines := x.after, after := [] }.follow

/-- The window of a sheaf ends once it has 1,024 memory instructions (R242). -/
def State.endWindow (s : State) (sid estimate : Nat) : State :=
  s.modSheaf sid (fun sh => if sh.lease.memInstrs < 1024 then sh else { sh with lease := sh.lease.endWindow estimate })

/-- A window that has its 1,024 memory instructions ends before the sheaf issues again, with an estimate that nothing fixes within its bounds
(R242). -/
def State.closeWindow (s : State) (sid : Nat) : State :=
  match s.sheaf? sid with
  | some sh =>
    if sh.lease.memInstrs < 1024 then s
    else
      let n := sh.lease.lines.length
      let r := s.choose (2 * (n / 8) + 1)
      r.2.endWindow sid (n - n / 8 + r.1)
  | none => s

/-- FOOTPRINT_WINDOW (R242); lines is what the sketch estimates. -/
def execFootprintWindow (sid lines : Nat) (s : State) : Host.Outcome State Fault Refusal := .next (s.endWindow sid lines)

/-! ## LSCHED (R241, R304) -/

/-- A tuft stands on a core, in either plane. -/
def State.holdsTuft (s : State) (core : Nat) : Bool := s.tufts.any (fun e => e.2.core == core && e.2.resident)

/-- A value that LSCHED takes (R241). -/
def lschedLegal (v : Word) : Bool :=
  field v.toNat 28 4 == 0 && field v.toNat 16 4 == 0 && decide (field v.toNat 24 4 ≤ 12) && field v.toNat 0 16 != 0

/-- A write of a core's LSCHED (R241). -/
def State.writeLsched (s : State) (core : Nat) (v : Word) : State :=
  let old := (s.core core).lsched
  if lschedLegal v && (field v.toNat 24 4 == field old.toNat 24 4 || !s.holdsTuft core) then s.modCore core (fun k => { k with lsched := v })
  else s.refuse (sliceOf core) (0x10000 * coreIn core)

/-- LSCHED_WRITE (R241). -/
def execLschedWrite (core : Nat) (v : BitVec 32) (s : State) : Host.Outcome State Fault Refusal := .next (s.writeLsched core v)

end Sys2Proof.Machine
end

