-- ==== Sys2Proof/Machine/Registers.lean ====
section
/-!
DEFINITION. Writes of control registers and blocks (R303, R304): the map of a slice's control space, the widths of R304, and what
each write does. The frame ownership table (R290), accesses of service cores (R318), and words that are no instruction (R86).
-/
namespace Sys2Proof.Machine

/-! ## URGENT and the frame ownership words -/

/-- The offset of URGENT (R303, R304). -/
def urgentOffset : Nat := 0x00F00000

/-- A write of URGENT (R304). -/
def State.writeUrgent (s : State) (slice : Nat) (v : Word) : State :=
  if v.toNat ≤ 192 then s.modSlice slice (fun x => { x with urgent := v.toNat }) else s.refuse slice urgentOffset

/-- URGENT_WRITE (R304). -/
def execUrgentWrite (slice : Nat) (v : BitVec 32) (s : State) : Host.Outcome State Fault Refusal := .next ((s.writeUrgent slice v).settle)

/-- The offset of a frame's ownership word (R303). -/
def frameOffset (frame : Nat) : Nat := 0x10000000 + 4 * frame

/-- A partition kernel's write of a frame's ownership word (R290): PK, CTX and the reserved bits; V and PART stay Campion's. A word with
reserved bits set counts as V = 0, so that a write over it is refused. -/
def State.writeFrame (s : State) (slice frame : Nat) (v : Word) : State :=
  match (s.slice slice).owner with
  | none => s
  | some part =>
    let f := packageOf slice * 2 ^ 26 + frame
    let w := (s.ownerWord (65536 * f)).toNat
    if decide (frame < 2 ^ 24) && field w 31 1 == 1 && field w 16 10 == part then
      { s with frames := s.frames.put f (BitVec.ofNat 32 (2 ^ 31 + field v.toNat 26 5 * 2 ^ 26 + part % 1024 * 2 ^ 16 + field v.toNat 0 16)) }
    else s.refuse slice (frameOffset frame)

/-- FRAME_OWNER_WRITE (R290). -/
def execFrameOwnerWrite (slice frame : Nat) (v : BitVec 32) (s : State) : Host.Outcome State Fault Refusal := .next (s.writeFrame slice frame v)

/-! ## Block fields (R304) -/

/-- A naturally aligned store of 1, 2, 4 or 8 bytes that lies within a field of a block (R304). -/
def inField (at_ size off width : Nat) : Bool :=
  (width == 1 || width == 2 || width == 4 || width == 8) && off % width == 0 && decide (at_ ≤ off) && decide (off + width ≤ at_ + size)

/-- The bytes of a value at a distance take new ones. -/
def patchBytes (old : List Byte) (d width value : Nat) : List Byte :=
  (List.range old.length).map (fun i => if d ≤ i && i < d + width then BitVec.ofNat 8 (value / 256 ^ (i - d)) else old.getD i 0)

/-- A number of size bytes with some of its bytes written. -/
def patch (old size d width value : Nat) : Nat := leNat (patchBytes (leBytes size old) d width value)

/-- A field of a queue-table entry (R255), CMD apart: its place and size, and how a store changes it. -/
def QueueEntry.store (q : QueueEntry) (off width value : Nat) : Option QueueEntry :=
  let p := fun (old size at_ : Nat) => patch old size (off - at_) width value
  if inField 0 8 off width then some { q with hdr := BitVec.ofNat 64 (p q.hdr.toNat 8 0) }
  else if inField 8 8 off width then some { q with ring := BitVec.ofNat 64 (p q.ring.toNat 8 8) }
  else if inField 0x10 8 off width then some { q with recbase := BitVec.ofNat 64 (p q.recbase.toNat 8 0x10) }
  else if inField 0x18 4 off width then some { q with nrec := p q.nrec 4 0x18 }
  else if inField 0x1C 4 off width then some { q with context := BitVec.ofNat 32 (p q.context.toNat 4 0x1C) }
  else if inField 0x20 1 off width then some { q with log2n := p q.log2n 1 0x20 }
  else if inField 0x21 1 off width then some { q with prio := p q.prio 1 0x21 }
  else if inField 0x22 2 off width then some { q with resv := p (q.resv % 65536) 2 0x22 + q.resv / 65536 * 65536 }
  else if inField 0x30 16 off width then some { q with resv := q.resv % 65536 + p (q.resv / 65536) 16 0x30 * 65536 }
  else none

/-- A write to a queue-table entry (R255, R256, R304). DESIGN CHOICE (log entry 34): a write of 0 to CMD has no effect and is not refused. -/
def State.writeQueue (s : State) (slice entry off width value at_ : Nat) : State :=
  if off == 0x24 && width == 4 then
    if value == 0 then s
    else if value == 1 || value == 2 then s.modQueue slice entry (fun q => { q with cmd := BitVec.ofNat 32 value })
    else if (s.queue slice entry).access.any (fun a => a.2 == .register) then s.modQueue slice entry (fun q => { q with cmd := BitVec.ofNat 32 value })
    else s.answerQueue slice entry 1
  else match (s.queue slice entry).store off width value with
    | some q => s.modQueue slice entry (fun _ => q)
    | none => s.refuse slice at_

/-- A CMD word of a context is taken (R313). -/
def State.ctxTake (s : State) (part ctx value : Nat) : State :=
  let save := field value 8 1 == 1
  if value / 512 != 0 || field value 4 4 != 0 then s.ctxCommand part ctx (fun _ => false) (fun s => s)
  else match value % 16 with
    | 1 => s.ctxCreate part ctx
    | 2 => s.ctxActivate part ctx
    | 3 => s.ctxSuspend part ctx save
    | 4 => s.ctxResume part ctx
    | 5 => s.ctxFault part ctx
    | 6 => s.ctxDestroy part ctx
    | _ => s.ctxCommand part ctx (fun _ => false) (fun s => s)

/-- A context's command arrives through a slice, whose REFUSED counts a refusal (R304, R313). While a DESTROY is in progress it stays in
CMD. -/
def State.ctxTakeAt (s : State) (slice part ctx value at_ : Nat) : State :=
  let t := s.ctxTake part ctx value
  if (s.ctx part ctx).ending then s.modCtx part ctx (fun x => { x with cmd := BitVec.ofNat 32 value })
  else if (t.ctx part ctx).result == 0 then t
  else
    let x := s.slice (s.firstSlice part)
    (t.modSlice (s.firstSlice part) (fun y => { y with refusedCount := x.refusedCount, refusedOffset := x.refusedOffset })).refuse slice at_

/-- A write to a context record (R312, R304): CHILDTAB only in NONE or DESTROYED. -/
def State.writeCtx (s : State) (slice part ctx off width value at_ : Nat) : State :=
  let x := s.ctx part ctx
  let p := fun (old size base : Nat) => patch old size (off - base) width value
  if 0xFFFF ≤ ctx then s.refuse slice at_
  else if off == 0x18 && width == 4 then s.ctxTakeAt slice part ctx value at_
  else if inField 0 8 off width then s.modCtx part ctx (fun x => { x with root := BitVec.ofNat 64 (p x.root.toNat 8 0) })
  else if inField 8 8 off width && (x.state == .none || x.state == .destroyed) then
    s.modCtx part ctx (fun x => { x with childtab := BitVec.ofNat 64 (p x.childtab.toNat 8 8) })
  else if inField 0x10 2 off width then s.modCtx part ctx (fun x => { x with qchild := p x.qchild 2 0x10 })
  else if inField 0x12 2 off width then s.modCtx part ctx (fun x => { x with qkern := p x.qkern 2 0x12 })
  else if inField 0x14 4 off width then s.modCtx part ctx (fun x => { x with qtuft := p x.qtuft 4 0x14 })
  else s.refuse slice at_

/-- A write to the walker control block (R295, R304): GO takes 1. -/
def State.writeWalker (s : State) (slice off width value at_ : Nat) : State :=
  if off == 0x20 && width == 4 then
    if value == 0 then s
    else if value == 1 then s.modSlice slice (fun x => { x with walker := { x.walker with go := 1 } })
    else (s.modSlice slice (fun x => { x with walker := { x.walker with result := 1 } })).refuse slice at_
  else if inField 0 32 off width then
    s.modSlice slice (fun x => { x with walker := { x.walker with cmd := patchBytes x.walker.cmd off width value } })
  else s.refuse slice at_

/-- The command that the key command block holds (R316). -/
def keyCommandOf (bs : List Byte) : KeyCommand :=
  { kh := natAt bs 4 2, reserved := !zeroAt bs 6 2 || !zeroAt bs 144 104 || !zeroAt bs 252 4, control := BitVec.ofNat 64 (natAt bs 8 8),
    digest := bytesAt bs 16 64, key := bytesAt bs 80 64 }

/-- The key command that a slice's block holds is taken (R316), unless another is in progress. -/
def State.takeKey (s : State) (slice : Nat) : State :=
  let bs := (s.slice slice).keyBlock
  if (match (s.slice slice).owner with | some part => s.keyBusy part | none => true) then s
  else match natAt bs 0 4 with
    | 0 => s
    | 1 => s.loadKey slice (keyCommandOf bs)
    | 2 => s.loadWrapped slice (keyCommandOf bs)
    | 3 => s.eraseCommand slice (keyCommandOf bs)
    | _ => s.keyResult slice 1

/-- A write to the key command block (R316, R304): OP is written last. -/
def State.writeKeyBlock (s : State) (slice off width value at_ : Nat) : State :=
  if off == 0 && width == 4 then
    if value == 0 then s else (s.modSlice slice (fun x => { x with keyBlock := patchBytes x.keyBlock 0 4 value })).takeKey slice
  else if [(4, 2), (6, 2), (8, 8), (16, 64), (80, 64), (144, 104), (252, 4)].any (fun f => inField f.1 f.2 off width) then
    s.modSlice slice (fun x => { x with keyBlock := patchBytes x.keyBlock off width value })
  else s.refuse slice at_

/-- A REPLY word (R335). -/
def State.writeReply (s : State) (slice value : Nat) : State :=
  let token := value % 2 ^ 32
  match value / 2 ^ 32 with
  | 1 => s.reply slice token .resume
  | 2 => s.reply slice token .abandon
  | 3 => s.reply slice token .dropLanes
  | 4 => s.replyDiscard slice token
  | _ => s.refuse slice replyOffset

/-- A write to the fault queue registration (R332, R335, R304): records that wait enter a ring that has room. -/
def State.writeFaultQueue (s : State) (slice off width value at_ : Nat) : State :=
  let p := fun (old size base : Nat) => patch old size (off - base) width value
  let change := fun (f : FaultQueue → FaultQueue) =>
    (s.modSlice slice (fun x => { x with faultq := f x.faultq })).drainRecords slice (s.slice slice).faultq.held.length
  if off == 0x40 && width == 8 then s.writeReply slice value
  else if inField 0 8 off width then change (fun q => { q with base := p q.base 8 0 })
  else if inField 8 4 off width then change (fun q => { q with log2n := p q.log2n 4 8 })
  else if inField 0x18 8 off width then change (fun q => { q with rdidx := p q.rdidx 8 0x18 })
  else s.refuse slice at_

/-- A list of words with one written. -/
def setWord (ws : List Word) (i : Nat) (w : Word) : List Word :=
  (List.range (max ws.length (i + 1))).map (fun j => if j == i then w else ws.getD j 0)

/-- A write to the collective table (R350, R304): it holds for every slice of the partition in the package. -/
def State.writeColl (s : State) (slice part off width value at_ : Nat) : State :=
  let group := off / 65536
  let d := off % 65536
  if group == 0 || 64 ≤ group || 4 * 8193 ≤ d || !inField (d / 4 * 4) 4 d width then s.refuse slice at_
  else
    let key := packageOf slice * 64 + group
    s.modPart part (fun p =>
      let ws := p.colls.getD key []
      { p with colls := p.colls.put key (setWord ws (d / 4) (BitVec.ofNat 32 (patch (ws.getD (d / 4) 0).toNat 4 (d % 4) width value))) })

/-- A write to the Teasel control block (R397, R304). -/
def State.writeTeasel (s : State) (slice off width value at_ : Nat) : State :=
  let p := fun (old size base : Nat) => patch old size (off - base) width value
  if off == 0 && width == 4 then s.writeTrctl slice (BitVec.ofNat 32 value)
  else if inField 8 8 off width then s.modTeasel slice (fun t => { t with base := p t.base 8 8 })
  else if inField 0x10 4 off width then s.modTeasel slice (fun t => { t with log2 := p t.log2 4 0x10 })
  else if inField 0x14 4 off width then s.modTeasel slice (fun t => { t with tctx := BitVec.ofNat 32 (p t.tctx.toNat 4 0x14) })
  else if inField 0x20 8 off width then s.modTeasel slice (fun t => { t with rd := p t.rd 8 0x20 })
  else s.refuse slice at_

/-! ## The control space (R303) -/

/-- A write to a slice's control space by its owner's service cores (R303, R304). -/
def State.writeControl (s : State) (slice off width value0 : Nat) : State :=
  let value := value0 % 256 ^ width
  let w : Word := BitVec.ofNat 32 value
  let four := width == 4 && off % 4 == 0
  match (s.slice slice).owner with
  | none => s
  | some part =>
    if off < 0x00C00000 then
      (if off % 0x10000 == 0 && width == 4 then s.writeLsched (slice * 192 + off / 0x10000) w else s.refuse slice off)
    else if off == urgentOffset && width == 4 then s.writeUrgent slice w
    else if 0x01000000 ≤ off && off < 0x01004000 then s.writeQueue slice ((off - 0x01000000) / 64) (off % 64) width value off
    else if 0x02000000 ≤ off && off < 0x02000040 then s.writeWalker slice (off - 0x02000000) width value off
    else if 0x05000000 ≤ off && off < 0x05000100 then s.writeKeyBlock slice (off - 0x05000000) width value off
    else if 0x06000000 ≤ off && off < 0x06400000 then s.writeCtx slice part ((off - 0x06000000) / 64) (off % 64) width value off
    else if 0x07000000 ≤ off && off < 0x07000080 then s.writeFaultQueue slice (off - 0x07000000) width value off
    else if off == lctlOffset && width == 4 then s.writeLctl slice w
    else if 0x09000000 ≤ off && off < 0x09400000 then s.writeColl slice part (off - 0x09000000) width value off
    else if (off == pwrctlOffset 0 || off == pwrctlOffset 1) && width == 4 then s.writePwrctl slice ((off - 0x0A000000) / 0x40) w
    else if 0x0B000000 ≤ off && off < 0x0B000040 then s.writeTeasel slice (off - 0x0B000000) width value off
    else if 0x10000000 ≤ off && off < 0x14000000 && four then s.writeFrame slice ((off - 0x10000000) / 4) w
    else if 0x03000000 ≤ off && off < 0x04000000 then s
    else s.refuse slice off

/-! ## Reads of the control space (R303) -/

/-- The code of a context's state (R313). -/
def CtxState.code : CtxState → Nat
  | .none => 0
  | .created => 1
  | .active => 2
  | .suspended => 3
  | .faulted => 4
  | .destroyed => 5

/-- STATE of a context record (R312). -/
def Ctx.stateWord (x : Ctx) : Nat := x.state.code + x.result % 256 * 2 ^ 8

/-- A context record (R312). -/
def Ctx.record (x : Ctx) : List Byte :=
  leBytes 8 x.root.toNat ++ leBytes 8 x.childtab.toNat ++ leBytes 2 x.qchild ++ leBytes 2 x.qkern ++ leBytes 4 x.qtuft ++ leBytes 4 x.cmd.toNat ++
    leBytes 4 x.stateWord

/-- CONTROL of a key slot (R315). -/
def KeySlot.control (k : KeySlot) : Nat :=
  k.mark.toNat + (if k.decl then 2 ^ 2 else 0) + (if k.valid then 2 ^ 7 else 0) + k.owner % 65536 * 2 ^ 48

/-- An entry of the key table (R315). -/
def KeySlot.entry (k : KeySlot) : List Byte := leBytes 8 k.control ++ bytesAt k.digest 0 64

/-- An entry of a queue table (R255): reserved bytes read as zero (R10). -/
def QueueEntry.entry (q : QueueEntry) : List Byte :=
  leBytes 8 q.hdr.toNat ++ leBytes 8 q.ring.toNat ++ leBytes 8 q.recbase.toNat ++ leBytes 4 q.nrec ++ leBytes 4 (q.context.toNat % 65536) ++ leBytes 1 q.log2n ++
    leBytes 1 q.prio ++ leBytes 2 0 ++ leBytes 4 q.cmd.toNat ++ leBytes 4 q.result ++ leBytes 4 q.state ++ leBytes 16 0

/-- A walker control block (R295) of a partition: the reserved bytes of its command read as zero (R10, R294). -/
def WalkerBlock.bytes (w : WalkerBlock) (p : Partition) : List Byte :=
  bytesAt w.cmd 0 16 ++ leBytes 16 0 ++ leBytes 4 w.go.toNat ++ leBytes 4 w.result ++ leBytes 8 w.seq ++ leBytes 8 p.sdseq ++ leBytes 8 p.sddone

/-- A fault queue registration (R332). -/
def FaultQueue.bytes (q : FaultQueue) : List Byte :=
  leBytes 8 q.base ++ leBytes 4 q.log2n ++ leBytes 4 q.lost ++ leBytes 8 q.wridx ++ leBytes 8 q.rdidx

/-- An island's power block (R395). -/
def Island.bytes (x : Island) : List Byte := leBytes 8 x.ctl.toNat ++ leBytes 8 x.stat.toNat

/-- A Teasel control block (R397). -/
def Teasel.bytes (t : Teasel) : List Byte :=
  leBytes 8 t.ctl.toNat ++ leBytes 8 t.base ++ leBytes 4 t.log2 ++ leBytes 4 (t.tctx.toNat % 2 ^ 28) ++ leBytes 8 t.wr ++ leBytes 8 t.rd ++ leBytes 8 t.drops ++
    leBytes 8 t.dropb

/-- The key command block as it reads (R316): reserved bytes, and reserved bits of CONTROL, as zero (R10). -/
def keyBlockBytes (bs : List Byte) (result : Nat) : List Byte :=
  let c := natAt bs 8 8
  bytesAt bs 0 6 ++ leBytes 2 0 ++ leBytes 8 (field c 0 3 + field c 7 1 * 2 ^ 7 + field c 48 16 * 2 ^ 48) ++ bytesAt bs 16 128 ++ leBytes 104 0 ++
    leBytes 4 result ++ leBytes 4 0

/-- The words of a collective table entry as they read (R350): reserved bits as zero (R10). -/
def collBytes (ws : List Word) : List Byte := (ws.mapIdx (fun i w => leBytes 4 (w.toNat % 2 ^ (if i == 0 then 14 else 13)))).flatten

/-- The bytes from an offset of a slice's control space on, as far as its block or entry reaches (R303): every other byte reads as zero. -/
def State.controlBytes (s : State) (slice part off : Nat) (p : Partition) : List Byte :=
  let x := s.slice slice
  let from_ := fun (base size : Nat) (entry : Nat → List Byte) => (entry ((off - base) / size)).drop ((off - base) % size)
  if off < 0x00C00000 then from_ 0 0x10000 (fun c => leBytes 4 (s.core (slice * 192 + c)).lsched.toNat)
  else if 0x00F00000 ≤ off ∧ off < 0x00F01000 then
    from_ 0x00F00000 4096 (fun _ => leBytes 8 x.urgent ++ leBytes 4 x.refusedCount ++ leBytes 4 x.refusedOffset)
  else if 0x01000000 ≤ off ∧ off < 0x01004000 then from_ 0x01000000 64 (fun k => (s.queue slice k).entry)
  else if 0x02000000 ≤ off ∧ off < 0x02000040 then from_ 0x02000000 64 (fun _ => x.walker.bytes p)
  else if 0x05000000 ≤ off ∧ off < 0x05000100 then
    from_ 0x05000000 256 (fun _ => keyBlockBytes x.keyBlock x.keyResult)
  else if 0x05100000 ≤ off ∧ off < 0x05180000 then from_ 0x05100000 128 (fun kh => (s.keySlot part kh).entry)
  else if 0x06000000 ≤ off ∧ off < 0x06400000 then from_ 0x06000000 64 (fun c => if c < 0xFFFF then (s.ctx part c).record else [])
  else if 0x07000000 ≤ off ∧ off < 0x07000080 then from_ 0x07000000 128 (fun _ => x.faultq.bytes)
  else if 0x08000000 ≤ off ∧ off < 0x08000008 then from_ 0x08000000 8 (fun _ => leBytes 4 x.port.lstat.toNat ++ leBytes 4 x.port.lctl.toNat)
  else if 0x09010000 ≤ off ∧ off < 0x09400000 then
    from_ 0x09000000 65536 (fun g => collBytes (p.colls.getD (packageOf slice * 64 + g) []))
  else if 0x0A000000 ≤ off ∧ off < 0x0A000080 then from_ 0x0A000000 64 (fun n => (x.islands.getD n Island.reset).bytes)
  else if 0x0B000000 ≤ off ∧ off < 0x0B000040 then from_ 0x0B000000 64 (fun _ => x.teasel.bytes)
  else if 0x10000000 ≤ off ∧ off < 0x14000000 then
    from_ 0x10000000 4 (fun f =>
      let w := (s.frameWord (packageOf slice * 2 ^ 42 + 65536 * f)).toNat
      leBytes 4 (field w 0 26 + field w 30 2 * 2 ^ 30))
  else []

/-- A read of a slice's control space (R303). -/
def State.readControl (s : State) (slice part off len : Nat) : List Byte :=
  match s.part? part with
  | some p => (List.range len).map (fun i => (s.controlBytes slice part (off + i) p).getD 0 0)
  | none => bytesAt [] 0 len

/-- CONTROL_REG_WRITE (R303, R304). -/
def execControlRegWrite (slice offset width value : Nat) (s : State) : Host.Outcome State Fault Refusal :=
  .next ((s.writeControl slice offset width value).settle)

/-! ## Service cores (R302, R303, R318) -/

/-- The value of some bytes to store. -/
def storeValue (bs : List Byte) : Nat := leNat bs

/-- A service core's read or write of memory (R290, R291, R318): in frames of its partition, through any VALID slot below SEALED. A
refused read returns no data. -/
def State.serviceMemory (s : State) (acc : ServiceAccess) (part : Nat) : State :=
  let k := s.keySlot part acc.kh
  let n := match acc.data with | some bs => bs.length | none => acc.len
  let mine := fun (a : Nat) => let w := (s.ownerWord a).toNat; field w 31 1 == 1 && field w 16 10 == part
  let refused := fun (code : Nat) =>
    { (s.postSliceFault acc.slice part (SysFault.ending code 0 (refusalDetail code acc.kh acc.paddr)) .info 0 none 0 none).2 with readData := [] }
  if !(mine acc.paddr && mine (acc.paddr + n - 1)) then refused fFillOwner
  else if !k.valid || k.mark == 3 then refused fKeySlot
  else match acc.data with
    | some bs => (s.putBytes k.key acc.paddr (spread 0 bs)).writeLines acc.slice acc.paddr acc.kh .write bs
    | none =>
      if s.poisoned acc.paddr acc.len then refused fMemErr
      else { s.readLines acc.slice acc.paddr acc.kh k.key acc.len with readData := s.viewBytes k.key acc.paddr acc.len }

/-- A service core's access to a control space (R303): one that another partition owns is dropped and counted (R300). -/
def State.serviceControl (s : State) (acc : ServiceAccess) (part target off : Nat) : State :=
  if (s.slice target).owner == some part then
    match acc.data with
    | some bs => s.writeControl target off bs.length (storeValue bs)
    | none => { s with readData := s.readControl target part off acc.len }
  else { s.modSlice target (fun x => { x with drops := x.drops + 1 }) with readData := [] }

/-- A service core's access can reach its target (R341): in another package over the ports of both slices. -/
def State.serviceReach (s : State) (acc : ServiceAccess) : Bool :=
  let o := acc.paddr % 2 ^ 42
  if o < 2 ^ 40 then s.reachable acc.slice acc.paddr
  else !remoteOf acc.slice acc.paddr || (s.linkUp acc.slice && s.linkUp (acc.paddr / 2 ^ 42 * 8 + (o - 0x30000000000) / 2 ^ 32))

/-- A service core's access that no port carries fails like any transaction (R344): MEMERR with reason LINK, and a read returns no data.
DESIGN CHOICE (log entry 77): its three timeouts pass within the step. -/
def State.serviceLost (s : State) (acc : ServiceAccess) (part : Nat) : State :=
  { (s.postSliceFault acc.slice part (linkFault 0 acc.paddr) .info 0 none 0 none).2 with readData := [] }

/-- SERVICE_CORE_ACCESS (R302, R303, R318): memory, a control space of its partition, or nothing at all. A slice whose service cores act has
them online (R305). -/
def execServiceCoreAccess (acc : ServiceAccess) (s : State) : Host.Outcome State Fault Refusal :=
  match (s.slice acc.slice).owner with
  | none => .next s
  | some part =>
    let o := acc.paddr % 2 ^ 42
    let t := s.modSlice acc.slice (fun x => { x with offline := false })
    if 2 ^ 40 ≤ o ∧ (o < 0x30000000000 ∨ 0x30800000000 ≤ o) then .fault (.noSuchAddress acc.paddr)
    else if !t.serviceReach acc then .next (t.serviceLost acc part).settle
    else if o < 2 ^ 40 then .next ((t.serviceMemory acc part).settle)
    else .next ((t.serviceControl acc part (acc.paddr / 2 ^ 42 * 8 + (o - 0x30000000000) / 2 ^ 32) (o % 2 ^ 32)).settle)

/-! ## Words that are no instruction (R83, R86, R89) -/

/-- What a word without an assignment is: illegal whatever its fields hold. -/
def illegalOp : Op := { ok := false, uses := [], also := [], writes := [], body := fun _ _ s => .stop s }

/-- UNASSIGNED_ENCODING (R86, R331): the word in the issue slot raises ILLEGAL, precisely; a word of the hints' major as a
hint does, at its own address (R92, R95). -/
def execUnassignedEncoding (w : BitVec 32) (s : State) : Host.Outcome State Fault Refusal :=
  let t := { s with slot := { s.slot with word := w } }
  if w.toNat / 2 ^ 26 == 63 then .next (issueHint (fun _ => false) (fun h => h) t).settle
  else issued Form.plain 15 0 (fun _ => illegalOp) t

end Sys2Proof.Machine
end

