-- ==== Sys2Proof/Machine/Uniform.lean ====
section
/-!
DEFINITION. The uniform instructions (R125 to R130): integers, floating point, immediates, and the moves between uniform
and predicate registers. Each is a sheaf-wide write (R126).
-/
namespace Sys2Proof.Machine

/-- Majors 0x10 and 0x11 (R127). -/
def formUr : Form := { Form.plain with rep := some (true, false, true), wide := true }
/-- The divisions and square roots with a lookahead (R127). -/
def formUrLong : Form := { formUr with la := true }
/-- Majors 0x12 and 0x13 (R127). -/
def formUi : Form := { Form.plain with ximm := true, wide := true }

/-- The mark of a UR result (R126). -/
def urMark (sh : Sheaf) (readsD : Bool) (d b : Nat) : Mark := marks [sh.operandMark b, if readsD then sh.operandMark d else 0]

/-- A UR instruction (R128, R129): f takes the values of sd and b and gives the result and its flags. -/
def urOp (readsD : Bool) (f : Word → Word → Word × Word) (d0 b0 : Nat) (slot : Slot) : Op :=
  let st := slot.steps
  let d := stepB d0 st.1
  let b := stepB b0 st.2.2
  { ok := okUR d b, uses := [d, b], also := [], writes := [],
    body := fun slot sh s =>
      let r := f (sh.readUB d) (sh.readUB b)
      .ofSheaf slot s ((sh.writeUB d r.1 (urMark sh readsD d b)).raise r.2) }

/-- A UR instruction whose result returns later (R127, R98). -/
def urLongOp (readsD : Bool) (f : Word → Word → Word × Word) (d0 b0 : Nat) (slot : Slot) : Op :=
  let st := slot.steps
  let d := stepB d0 st.1
  let b := stepB b0 st.2.2
  { ok := okUR d b, uses := [d, b], also := [], writes := [],
    body := fun slot sh s =>
      let r := f (sh.readUB d) (sh.readUB b)
      let sh1 := sh.pendU slot s.nextId (uIndex d) slot.lookahead r.1 (urMark sh readsD d b)
      .next ({ s with nextId := s.nextId + 1 }.setSheaf slot.sid (sh1.raise r.2)) }

/-- SADD.W and SSUB.W (R128). -/
def urWideOp (f : BitVec 64 → BitVec 64 → BitVec 64) (d0 b0 : Nat) (slot : Slot) : Op :=
  let st := slot.steps
  let d := stepB d0 st.1
  let b := stepB b0 st.2.2
  { ok := okURW d b, uses := span d 2 ++ span b 2, also := [], writes := [],
    body := fun slot sh s =>
      .ofSheaf slot s (sh.writePairB d (f (sh.readPairB d) (sh.readPairB b)) (maxMark (sh.pairMark (uIndex d)) (sh.pairMark (uIndex b)))) }

/-- SMOVP (R128): the 32 stored bits of a predicate. -/
def smovpOp (d0 b0 : Nat) (slot : Slot) : Op :=
  let st := slot.steps
  let d := stepB d0 st.1
  let p := stepP b0 st.2.2
  { ok := okSmovp d p, uses := [d], also := [], writes := [],
    body := fun slot sh s => .ofSheaf slot s (sh.writeUB d (sh.preg p).val (sh.preg p).mark) }

/-- PMOVS (R128): all 32 bits of a predicate. -/
def pmovsOp (d0 b0 : Nat) (slot : Slot) : Op :=
  let st := slot.steps
  let p := stepP d0 st.1
  let b := stepB b0 st.2.2
  { ok := okPmovs p b, uses := [b], also := [], writes := [],
    body := fun slot sh s => .ofSheaf slot s (sh.writePAll p (sh.readUB b) (sh.operandMark b)) }

/-- The immediate of SMOVI and SADDI (R93, R130). -/
def Slot.immediate (slot : Slot) (imm : BitVec 13) : Word :=
  match slot.ximm with
  | some p => BitVec.append p imm
  | .none => imm.signExtend 32

/-- SMOVI and SADDI (R130). -/
def uiOp (readsD : Bool) (f : Word → Word → Word) (d : Nat) (imm : BitVec 13) (_ : Slot) : Op :=
  { ok := isU d, uses := [d], also := [], writes := [],
    body := fun slot sh s =>
      .ofSheaf slot s (sh.writeUB d (f (sh.readUB d) (slot.immediate imm)) (if readsD then sh.operandMark d else 0)) }

/-- 1 where a condition holds, else 0. -/
def truth (c : Bool) : Word := if c then 1 else 0

/-! ## Integers (R128) -/

/-- SADD (R128). -/
def execSadd (g : BitVec 4) (n : BitVec 1) (d b : BitVec 8) (s : State) : Host.Outcome State Fault Refusal :=
  issued formUr g n (urOp true (fun d b => (d + b, 0)) d.toNat b.toNat) s

/-- SSUB (R128). -/
def execSsub (g : BitVec 4) (n : BitVec 1) (d b : BitVec 8) (s : State) : Host.Outcome State Fault Refusal :=
  issued formUr g n (urOp true (fun d b => (d - b, 0)) d.toNat b.toNat) s

/-- SSUBR (R128). -/
def execSsubr (g : BitVec 4) (n : BitVec 1) (d b : BitVec 8) (s : State) : Host.Outcome State Fault Refusal :=
  issued formUr g n (urOp true (fun d b => (b - d, 0)) d.toNat b.toNat) s

/-- SMUL (R128). -/
def execSmul (g : BitVec 4) (n : BitVec 1) (d b : BitVec 8) (s : State) : Host.Outcome State Fault Refusal :=
  issued formUr g n (urOp true (fun d b => (d * b, 0)) d.toNat b.toNat) s

/-- SMULH_S (R128). -/
def execSmulhS (g : BitVec 4) (n : BitVec 1) (d b : BitVec 8) (s : State) : Host.Outcome State Fault Refusal :=
  issued formUr g n (urOp true (fun d b => (aluMulhS d b, 0)) d.toNat b.toNat) s

/-- SMULH_U (R128). -/
def execSmulhU (g : BitVec 4) (n : BitVec 1) (d b : BitVec 8) (s : State) : Host.Outcome State Fault Refusal :=
  issued formUr g n (urOp true (fun d b => (aluMulhU d b, 0)) d.toNat b.toNat) s

/-- SDIV_S (R128). -/
def execSdivS (g : BitVec 4) (n : BitVec 1) (d b : BitVec 8) (s : State) : Host.Outcome State Fault Refusal :=
  issued formUrLong g n (urLongOp true (fun d b => (aluDivS d b, 0)) d.toNat b.toNat) s

/-- SDIV_U (R128). -/
def execSdivU (g : BitVec 4) (n : BitVec 1) (d b : BitVec 8) (s : State) : Host.Outcome State Fault Refusal :=
  issued formUrLong g n (urLongOp true (fun d b => (aluDivU d b, 0)) d.toNat b.toNat) s

/-- SREM_S (R128). -/
def execSremS (g : BitVec 4) (n : BitVec 1) (d b : BitVec 8) (s : State) : Host.Outcome State Fault Refusal :=
  issued formUrLong g n (urLongOp true (fun d b => (aluRemS d b, 0)) d.toNat b.toNat) s

/-- SREM_U (R128). -/
def execSremU (g : BitVec 4) (n : BitVec 1) (d b : BitVec 8) (s : State) : Host.Outcome State Fault Refusal :=
  issued formUrLong g n (urLongOp true (fun d b => (aluRemU d b, 0)) d.toNat b.toNat) s

/-- SAND (R128). -/
def execSand (g : BitVec 4) (n : BitVec 1) (d b : BitVec 8) (s : State) : Host.Outcome State Fault Refusal :=
  issued formUr g n (urOp true (fun d b => (d &&& b, 0)) d.toNat b.toNat) s

/-- SOR (R128). -/
def execSor (g : BitVec 4) (n : BitVec 1) (d b : BitVec 8) (s : State) : Host.Outcome State Fault Refusal :=
  issued formUr g n (urOp true (fun d b => (d ||| b, 0)) d.toNat b.toNat) s

/-- SXOR (R128). -/
def execSxor (g : BitVec 4) (n : BitVec 1) (d b : BitVec 8) (s : State) : Host.Outcome State Fault Refusal :=
  issued formUr g n (urOp true (fun d b => (d ^^^ b, 0)) d.toNat b.toNat) s

/-- SANDN (R128). -/
def execSandn (g : BitVec 4) (n : BitVec 1) (d b : BitVec 8) (s : State) : Host.Outcome State Fault Refusal :=
  issued formUr g n (urOp true (fun d b => (d &&& ~~~b, 0)) d.toNat b.toNat) s

/-- SSHL (R128). -/
def execSshl (g : BitVec 4) (n : BitVec 1) (d b : BitVec 8) (s : State) : Host.Outcome State Fault Refusal :=
  issued formUr g n (urOp true (fun d b => (aluShl d b, 0)) d.toNat b.toNat) s

/-- SSHR_U (R128). -/
def execSshrU (g : BitVec 4) (n : BitVec 1) (d b : BitVec 8) (s : State) : Host.Outcome State Fault Refusal :=
  issued formUr g n (urOp true (fun d b => (aluShrU d b, 0)) d.toNat b.toNat) s

/-- SSHR_S (R128). -/
def execSshrS (g : BitVec 4) (n : BitVec 1) (d b : BitVec 8) (s : State) : Host.Outcome State Fault Refusal :=
  issued formUr g n (urOp true (fun d b => (aluShrS d b, 0)) d.toNat b.toNat) s

/-- SMIN_S (R128). -/
def execSminS (g : BitVec 4) (n : BitVec 1) (d b : BitVec 8) (s : State) : Host.Outcome State Fault Refusal :=
  issued formUr g n (urOp true (fun d b => (aluMinS d b, 0)) d.toNat b.toNat) s

/-- SMAX_S (R128). -/
def execSmaxS (g : BitVec 4) (n : BitVec 1) (d b : BitVec 8) (s : State) : Host.Outcome State Fault Refusal :=
  issued formUr g n (urOp true (fun d b => (aluMaxS d b, 0)) d.toNat b.toNat) s

/-- SMIN_U (R128). -/
def execSminU (g : BitVec 4) (n : BitVec 1) (d b : BitVec 8) (s : State) : Host.Outcome State Fault Refusal :=
  issued formUr g n (urOp true (fun d b => (aluMinU d b, 0)) d.toNat b.toNat) s

/-- SMAX_U (R128). -/
def execSmaxU (g : BitVec 4) (n : BitVec 1) (d b : BitVec 8) (s : State) : Host.Outcome State Fault Refusal :=
  issued formUr g n (urOp true (fun d b => (aluMaxU d b, 0)) d.toNat b.toNat) s

/-- SMOV (R128). -/
def execSmov (g : BitVec 4) (n : BitVec 1) (d b : BitVec 8) (s : State) : Host.Outcome State Fault Refusal :=
  issued formUr g n (urOp false (fun _ b => (b, 0)) d.toNat b.toNat) s

/-- SPOPC (R128). -/
def execSpopc (g : BitVec 4) (n : BitVec 1) (d b : BitVec 8) (s : State) : Host.Outcome State Fault Refusal :=
  issued formUr g n (urOp false (fun _ b => (aluPopc b, 0)) d.toNat b.toNat) s

/-- SCLZ (R128). -/
def execSclz (g : BitVec 4) (n : BitVec 1) (d b : BitVec 8) (s : State) : Host.Outcome State Fault Refusal :=
  issued formUr g n (urOp false (fun _ b => (aluClz b, 0)) d.toNat b.toNat) s

/-- SSEQ (R128). -/
def execSseq (g : BitVec 4) (n : BitVec 1) (d b : BitVec 8) (s : State) : Host.Outcome State Fault Refusal :=
  issued formUr g n (urOp true (fun d b => (truth (d == b), 0)) d.toNat b.toNat) s

/-- SSNE (R128). -/
def execSsne (g : BitVec 4) (n : BitVec 1) (d b : BitVec 8) (s : State) : Host.Outcome State Fault Refusal :=
  issued formUr g n (urOp true (fun d b => (truth (d != b), 0)) d.toNat b.toNat) s

/-- SSLT_S (R128). -/
def execSsltS (g : BitVec 4) (n : BitVec 1) (d b : BitVec 8) (s : State) : Host.Outcome State Fault Refusal :=
  issued formUr g n (urOp true (fun d b => (truth (decide (d.toInt < b.toInt)), 0)) d.toNat b.toNat) s

/-- SSLT_U (R128). -/
def execSsltU (g : BitVec 4) (n : BitVec 1) (d b : BitVec 8) (s : State) : Host.Outcome State Fault Refusal :=
  issued formUr g n (urOp true (fun d b => (truth (decide (d.toNat < b.toNat)), 0)) d.toNat b.toNat) s

/-- SADD_W (R128). -/
def execSaddW (g : BitVec 4) (n : BitVec 1) (d b : BitVec 8) (s : State) : Host.Outcome State Fault Refusal :=
  issued formUr g n (urWideOp (fun x y => x + y) d.toNat b.toNat) s

/-- SSUB_W (R128). -/
def execSsubW (g : BitVec 4) (n : BitVec 1) (d b : BitVec 8) (s : State) : Host.Outcome State Fault Refusal :=
  issued formUr g n (urWideOp (fun x y => x - y) d.toNat b.toNat) s

/-- SMOVP (R128). -/
def execSmovp (g : BitVec 4) (n : BitVec 1) (d b : BitVec 8) (s : State) : Host.Outcome State Fault Refusal :=
  issued formUr g n (smovpOp d.toNat b.toNat) s

/-- PMOVS (R128). -/
def execPmovs (g : BitVec 4) (n : BitVec 1) (d b : BitVec 8) (s : State) : Host.Outcome State Fault Refusal :=
  issued formUr g n (pmovsOp d.toNat b.toNat) s

/-! ## Floating point (R129) -/

/-- SFADD (R129). -/
def execSfadd (g : BitVec 4) (n : BitVec 1) (d b : BitVec 8) (s : State) : Host.Outcome State Fault Refusal :=
  issued formUr g n (urOp true (fun d b => wordRes (fp32.add d.toNat b.toNat)) d.toNat b.toNat) s

/-- SFSUB (R129). -/
def execSfsub (g : BitVec 4) (n : BitVec 1) (d b : BitVec 8) (s : State) : Host.Outcome State Fault Refusal :=
  issued formUr g n (urOp true (fun d b => wordRes (fp32.sub d.toNat b.toNat)) d.toNat b.toNat) s

/-- SFMUL (R129). -/
def execSfmul (g : BitVec 4) (n : BitVec 1) (d b : BitVec 8) (s : State) : Host.Outcome State Fault Refusal :=
  issued formUr g n (urOp true (fun d b => wordRes (fp32.mul d.toNat b.toNat)) d.toNat b.toNat) s

/-- SFDIV (R129). -/
def execSfdiv (g : BitVec 4) (n : BitVec 1) (d b : BitVec 8) (s : State) : Host.Outcome State Fault Refusal :=
  issued formUrLong g n (urLongOp true (fun d b => wordRes (fp32.div d.toNat b.toNat)) d.toNat b.toNat) s

/-- SFSQRT (R129). -/
def execSfsqrt (g : BitVec 4) (n : BitVec 1) (d b : BitVec 8) (s : State) : Host.Outcome State Fault Refusal :=
  issued formUrLong g n (urLongOp false (fun _ b => wordRes (fp32Sqrt b.toNat)) d.toNat b.toNat) s

/-- SFRCP (R129). -/
def execSfrcp (g : BitVec 4) (n : BitVec 1) (d b : BitVec 8) (s : State) : Host.Outcome State Fault Refusal :=
  issued formUr g n (urOp false (fun _ b => wordRes (fp32Rcp b.toNat)) d.toNat b.toNat) s

/-- SFRSQ (R129). -/
def execSfrsq (g : BitVec 4) (n : BitVec 1) (d b : BitVec 8) (s : State) : Host.Outcome State Fault Refusal :=
  issued formUr g n (urOp false (fun _ b => wordRes (fp32Rsq b.toNat)) d.toNat b.toNat) s

/-- SFMIN (R129). -/
def execSfmin (g : BitVec 4) (n : BitVec 1) (d b : BitVec 8) (s : State) : Host.Outcome State Fault Refusal :=
  issued formUr g n (urOp true (fun d b => wordRes (fp32.minMax false d.toNat b.toNat)) d.toNat b.toNat) s

/-- SFMAX (R129). -/
def execSfmax (g : BitVec 4) (n : BitVec 1) (d b : BitVec 8) (s : State) : Host.Outcome State Fault Refusal :=
  issued formUr g n (urOp true (fun d b => wordRes (fp32.minMax true d.toNat b.toNat)) d.toNat b.toNat) s

/-- SCVT_F32_SI32 (R129). -/
def execScvtF32Si32 (g : BitVec 4) (n : BitVec 1) (d b : BitVec 8) (s : State) : Host.Outcome State Fault Refusal :=
  issued formUr g n (urOp false (fun _ b => wordRes (intToFp32 .rn b.toInt)) d.toNat b.toNat) s

/-- SCVT_F32_UI32 (R129). -/
def execScvtF32Ui32 (g : BitVec 4) (n : BitVec 1) (d b : BitVec 8) (s : State) : Host.Outcome State Fault Refusal :=
  issued formUr g n (urOp false (fun _ b => wordRes (intToFp32 .rn b.toNat)) d.toNat b.toNat) s

/-- SCVT_SI32_F32 (R129). -/
def execScvtSi32F32 (g : BitVec 4) (n : BitVec 1) (d b : BitVec 8) (s : State) : Host.Outcome State Fault Refusal :=
  issued formUr g n (urOp false (fun _ b => floatToInt .rz true b) d.toNat b.toNat) s

/-- SCVT_UI32_F32 (R129). -/
def execScvtUi32F32 (g : BitVec 4) (n : BitVec 1) (d b : BitVec 8) (s : State) : Host.Outcome State Fault Refusal :=
  issued formUr g n (urOp false (fun _ b => floatToInt .rz false b) d.toNat b.toNat) s

/-- SCVT_SI32_F32_RN (R129). -/
def execScvtSi32F32Rn (g : BitVec 4) (n : BitVec 1) (d b : BitVec 8) (s : State) : Host.Outcome State Fault Refusal :=
  issued formUr g n (urOp false (fun _ b => floatToInt .rn true b) d.toNat b.toNat) s

/-- SFLT (R129). -/
def execSflt (g : BitVec 4) (n : BitVec 1) (d b : BitVec 8) (s : State) : Host.Outcome State Fault Refusal :=
  issued formUr g n (urOp true (fun d b => (truth (floatCond 2 d b).1, (floatCond 2 d b).2)) d.toNat b.toNat) s

/-- SFLE (R129). -/
def execSfle (g : BitVec 4) (n : BitVec 1) (d b : BitVec 8) (s : State) : Host.Outcome State Fault Refusal :=
  issued formUr g n (urOp true (fun d b => (truth (floatCond 3 d b).1, (floatCond 3 d b).2)) d.toNat b.toNat) s

/-- SFEQ (R129). -/
def execSfeq (g : BitVec 4) (n : BitVec 1) (d b : BitVec 8) (s : State) : Host.Outcome State Fault Refusal :=
  issued formUr g n (urOp true (fun d b => (truth (floatCond 0 d b).1, (floatCond 0 d b).2)) d.toNat b.toNat) s

/-! ## Immediates (R130) -/

/-- SMOVI (R130). -/
def execSmovi (g : BitVec 4) (n : BitVec 1) (d : BitVec 8) (i : BitVec 13) (s : State) : Host.Outcome State Fault Refusal :=
  issued formUi g n (uiOp false (fun _ x => x) d.toNat i) s

/-- SADDI (R130). -/
def execSaddi (g : BitVec 4) (n : BitVec 1) (d : BitVec 8) (i : BitVec 13) (s : State) : Host.Outcome State Fault Refusal :=
  issued formUi g n (uiOp true (fun d x => d + x) d.toNat i) s

end Sys2Proof.Machine
end

