-- ==== Sys2Proof/Machine/Varying.lean ====
section
/-!
DEFINITION. The varying instructions (R105 to R124): integers and bits, FP32 and packed BF16, conversions, special
functions, compares into predicates, predicate logic, lane rank and shuffles. Every lane reads all its operands before any
lane writes (R105); marks are those of R107, flags those of R108, classes, windows and repeats those of R110.
-/
namespace Sys2Proof.Machine

/-- Majors 0x01 to 0x04 (R110). -/
def formInt : Form := { Form.plain with rep := some (true, true, true) }
/-- Majors 0x05 and 0x06 (R110). -/
def formFloat : Form := { Form.plain with rep := some (true, true, true), role := .varyingFloat }
/-- Majors 0x07 and 0x0A (R110). -/
def formConvert : Form := { Form.plain with role := .varyingFloat }
/-- Major 0x08 (R110, R118). -/
def formSpecial : Form := { Form.plain with role := .special }
/-- Majors 0x09 and 0x0B (R110). -/
def formLogic : Form := Form.plain
/-- Majors 0x0C to 0x0F (R110, R123). -/
def formShuffle : Form := { Form.plain with la := true }

/-- The acting lanes write v(d) by a function of the lane that gives a word and its flags (R105, R107, R108). -/
def Sheaf.writeFlagged (sh : Sheaf) (slot : Slot) (d : Nat) (f : Nat → Word × Word) (mark : Mark) : Sheaf :=
  (sh.writeV d slot.acting (fun l => (f l).1) mark).raise (orFlags ((lanesOf slot.acting).map (fun l => (f l).2)))

/-- A VV instruction (R106): f takes the elements of vd, va and b; readsD says whether vd is a source. -/
def vvOp (readsD : Bool) (f : Word → Word → Word → Word × Word) (d0 a0 b0 : Nat) (slot : Slot) : Op :=
  let st := slot.steps
  let d := stepV d0 st.1
  let a := stepV a0 st.2.1
  let b := stepB b0 st.2.2
  { ok := isV d && isV a && decide (b < 256), uses := [d, a, b], also := [], writes := [d],
    body := fun slot sh s =>
      let mark := marks [(sh.vreg a).mark, sh.operandMark b, if readsD then (sh.vreg d).mark else 0]
      .ofSheaf slot s (sh.writeFlagged slot d (fun l => f (sh.readV d l) (sh.readV a l) (sh.operand b l)) mark) }

/-- A unary VV instruction, whose va field is zero and stays zero under REP (R106, R113). -/
def vuOp (f : Word → Word) (d0 b0 : Nat) (slot : Slot) : Op :=
  let st := slot.steps
  let d := stepV d0 st.1
  let b := stepB b0 st.2.2
  { ok := isV d && stepV 0 st.2.1 == 0 && decide (b < 256), uses := [d, b], also := [], writes := [d],
    body := fun slot sh s => .ofSheaf slot s (sh.writeFlagged slot d (fun l => (f (sh.operand b l), 0)) (sh.operandMark b)) }

/-- A VC instruction (R116). -/
def vcOp (readsD : Bool) (f : Word → Word → Word × Word) (d b : Nat) (_ : Slot) : Op :=
  { ok := true, uses := [d, b], also := [], writes := [d],
    body := fun slot sh s =>
      let mark := marks [sh.operandMark b, if readsD then (sh.vreg d).mark else 0]
      .ofSheaf slot s (sh.writeFlagged slot d (fun l => f (sh.readV d l) (sh.operand b l)) mark) }

/-- A special function (R118): long-latency, its flags IV, DZ and OF raised at issue. -/
def vsOp (f : Nat → Res) (d l b : Nat) (_ : Slot) : Op :=
  { ok := true, uses := [d, b], also := [], writes := [d],
    body := fun slot sh s =>
      let r := fun lane => wordRes (f (sh.operand b lane).toNat)
      let sh1 := sh.pendV slot s.nextId d l (fun lane => (r lane).1) (sh.operandMark b)
      .next ({ s with nextId := s.nextId + 1 }.setSheaf slot.sid (sh1.raise (orFlags ((lanesOf slot.acting).map (fun lane => (r lane).2))))) }

/-- A compare into a predicate (R119). -/
def cmpOp (ok : Bool) (f : Word → Word → Bool × Word) (p a b : Nat) (_ : Slot) : Op :=
  { ok := ok && predOk p, uses := [a, b], also := [], writes := [],
    body := fun slot sh s =>
      let r := fun l => f (sh.readV a l) (sh.operand b l)
      let sh1 := sh.writeP p slot.acting (fun l => (r l).1) (maxMark (sh.vreg a).mark (sh.operandMark b))
      .ofSheaf slot s (sh1.raise (orFlags ((lanesOf slot.acting).map (fun l => (r l).2)))) }

/-- A logical function of predicates (R120): srcs are the predicates it reads. -/
def ppOp (srcs : List Nat) (f : List Bool → Bool) (d : Nat) (_ : Slot) : Op :=
  { ok := predOk d && srcs.all predOk, uses := [], also := [], writes := [],
    body := fun slot sh s =>
      .ofSheaf slot s (sh.writeP d slot.acting (fun l => f (srcs.map (fun p => hasLane (sh.preg p).val l)))
        (marks (srcs.map (fun p => (sh.preg p).mark)))) }

/-- VRANK (R121): the 1 bits of a predicate below each lane. -/
def rankOp (a d : Nat) (_ : Slot) : Op :=
  { ok := predOk a, uses := [d], also := [], writes := [d],
    body := fun slot sh s =>
      .ofSheaf slot s (sh.writeV d slot.acting (fun l => BitVec.ofNat 32 ((laneNumbers.filter (fun j => decide (j < l) && hasLane (sh.preg a).val j)).length))
        (sh.preg a).mark) }

/-- The source lane of a shuffle: kinds 0 IDX, 1 XOR, 2 UP, 3 DN, exact (R122). -/
def shuffleSource (kind l c : Nat) : Int :=
  match kind with
  | 0 => c
  | 1 => (l ^^^ c : Nat)
  | 2 => (l : Int) - c
  | _ => (l : Int) + c

/-- A shuffle (R122, R123): members read the elements held before it. -/
def shuffleOp (kind d a b m : Nat) (_ : Slot) : Op :=
  { ok := true, uses := [d, a, b], also := [], writes := [d],
    body := fun slot sh s =>
      let members := if m == 7 then slot.acting else slot.acting &&& (sh.preg m).val
      let mark := marks [(sh.vreg a).mark, sh.operandMark b, if m == 7 then 0 else (sh.preg m).mark]
      let res := fun l =>
        let j := shuffleSource kind l (sh.operand b l).toNat
        if 0 ≤ j && j < 32 && hasLane members j.toNat then sh.readV a j.toNat else sh.readV a l
      if members == 0 && slot.lookahead == 0 then .next s
      else .next ({ s with nextId := s.nextId + 1 }.setSheaf slot.sid
        (sh.pendV { slot with acting := members } s.nextId d slot.lookahead res (if members == 0 then 0 else mark))) }

/-- Only halves 0 and 1 exist (R116). -/
def halfOp (p : Nat) (op : Slot → Op) (slot : Slot) : Op :=
  let o := op slot
  { o with ok := o.ok && decide (p < 2) }

/-- A conversion into one part of vd (R116): part p of k bits. -/
def narrowInto (fm : Fmt) (k p : Nat) (d x : Word) : Word × Word :=
  let r := fm.store x.toNat
  (insertField d (k * p) k r.1, r.2)

/-- A function of two predicate bits. -/
def twoBits (f : Bool → Bool → Bool) (xs : List Bool) : Bool := f (xs.getD 0 false) (xs.getD 1 false)

/-- The square root as a special function: it raises no NX (R66, R118). -/
def sqrtSpecial (x : Nat) : Res := ((fp32Sqrt x).1, specialFlags (fp32Sqrt x).2)

/-! ## Integers and bits (R111 to R113) -/

/-- VADD (R111). -/
def execVadd (g : BitVec 4) (n : BitVec 1) (d a : BitVec 5) (b : BitVec 8) (s : State) : Host.Outcome State Fault Refusal :=
  issued formInt g n (vvOp false (fun _ a b => (a + b, 0)) d.toNat a.toNat b.toNat) s

/-- VSUB (R111). -/
def execVsub (g : BitVec 4) (n : BitVec 1) (d a : BitVec 5) (b : BitVec 8) (s : State) : Host.Outcome State Fault Refusal :=
  issued formInt g n (vvOp false (fun _ a b => (a - b, 0)) d.toNat a.toNat b.toNat) s

/-- VSUBR (R111). -/
def execVsubr (g : BitVec 4) (n : BitVec 1) (d a : BitVec 5) (b : BitVec 8) (s : State) : Host.Outcome State Fault Refusal :=
  issued formInt g n (vvOp false (fun _ a b => (b - a, 0)) d.toNat a.toNat b.toNat) s

/-- VMIN_S (R111). -/
def execVminS (g : BitVec 4) (n : BitVec 1) (d a : BitVec 5) (b : BitVec 8) (s : State) : Host.Outcome State Fault Refusal :=
  issued formInt g n (vvOp false (fun _ a b => (aluMinS a b, 0)) d.toNat a.toNat b.toNat) s

/-- VMAX_S (R111). -/
def execVmaxS (g : BitVec 4) (n : BitVec 1) (d a : BitVec 5) (b : BitVec 8) (s : State) : Host.Outcome State Fault Refusal :=
  issued formInt g n (vvOp false (fun _ a b => (aluMaxS a b, 0)) d.toNat a.toNat b.toNat) s

/-- VMIN_U (R111). -/
def execVminU (g : BitVec 4) (n : BitVec 1) (d a : BitVec 5) (b : BitVec 8) (s : State) : Host.Outcome State Fault Refusal :=
  issued formInt g n (vvOp false (fun _ a b => (aluMinU a b, 0)) d.toNat a.toNat b.toNat) s

/-- VMAX_U (R111). -/
def execVmaxU (g : BitVec 4) (n : BitVec 1) (d a : BitVec 5) (b : BitVec 8) (s : State) : Host.Outcome State Fault Refusal :=
  issued formInt g n (vvOp false (fun _ a b => (aluMaxU a b, 0)) d.toNat a.toNat b.toNat) s

/-- VADIF_S (R111). -/
def execVadifS (g : BitVec 4) (n : BitVec 1) (d a : BitVec 5) (b : BitVec 8) (s : State) : Host.Outcome State Fault Refusal :=
  issued formInt g n (vvOp false (fun _ a b => (aluAdif a b, 0)) d.toNat a.toNat b.toNat) s

/-- VAND (R112). -/
def execVand (g : BitVec 4) (n : BitVec 1) (d a : BitVec 5) (b : BitVec 8) (s : State) : Host.Outcome State Fault Refusal :=
  issued formInt g n (vvOp false (fun _ a b => (a &&& b, 0)) d.toNat a.toNat b.toNat) s

/-- VOR (R112). -/
def execVor (g : BitVec 4) (n : BitVec 1) (d a : BitVec 5) (b : BitVec 8) (s : State) : Host.Outcome State Fault Refusal :=
  issued formInt g n (vvOp false (fun _ a b => (a ||| b, 0)) d.toNat a.toNat b.toNat) s

/-- VXOR (R112). -/
def execVxor (g : BitVec 4) (n : BitVec 1) (d a : BitVec 5) (b : BitVec 8) (s : State) : Host.Outcome State Fault Refusal :=
  issued formInt g n (vvOp false (fun _ a b => (a ^^^ b, 0)) d.toNat a.toNat b.toNat) s

/-- VANDN (R112). -/
def execVandn (g : BitVec 4) (n : BitVec 1) (d a : BitVec 5) (b : BitVec 8) (s : State) : Host.Outcome State Fault Refusal :=
  issued formInt g n (vvOp false (fun _ a b => (a &&& ~~~b, 0)) d.toNat a.toNat b.toNat) s

/-- VSHL (R112). -/
def execVshl (g : BitVec 4) (n : BitVec 1) (d a : BitVec 5) (b : BitVec 8) (s : State) : Host.Outcome State Fault Refusal :=
  issued formInt g n (vvOp false (fun _ a b => (aluShl a b, 0)) d.toNat a.toNat b.toNat) s

/-- VSHR_U (R112). -/
def execVshrU (g : BitVec 4) (n : BitVec 1) (d a : BitVec 5) (b : BitVec 8) (s : State) : Host.Outcome State Fault Refusal :=
  issued formInt g n (vvOp false (fun _ a b => (aluShrU a b, 0)) d.toNat a.toNat b.toNat) s

/-- VSHR_S (R112). -/
def execVshrS (g : BitVec 4) (n : BitVec 1) (d a : BitVec 5) (b : BitVec 8) (s : State) : Host.Outcome State Fault Refusal :=
  issued formInt g n (vvOp false (fun _ a b => (aluShrS a b, 0)) d.toNat a.toNat b.toNat) s

/-- VROTL (R112). -/
def execVrotl (g : BitVec 4) (n : BitVec 1) (d a : BitVec 5) (b : BitVec 8) (s : State) : Host.Outcome State Fault Refusal :=
  issued formInt g n (vvOp false (fun _ a b => (aluRotl a b, 0)) d.toNat a.toNat b.toNat) s

/-- VMUL (R111). -/
def execVmul (g : BitVec 4) (n : BitVec 1) (d a : BitVec 5) (b : BitVec 8) (s : State) : Host.Outcome State Fault Refusal :=
  issued formInt g n (vvOp false (fun _ a b => (a * b, 0)) d.toNat a.toNat b.toNat) s

/-- VMULH_S (R111). -/
def execVmulhS (g : BitVec 4) (n : BitVec 1) (d a : BitVec 5) (b : BitVec 8) (s : State) : Host.Outcome State Fault Refusal :=
  issued formInt g n (vvOp false (fun _ a b => (aluMulhS a b, 0)) d.toNat a.toNat b.toNat) s

/-- VMULH_U (R111). -/
def execVmulhU (g : BitVec 4) (n : BitVec 1) (d a : BitVec 5) (b : BitVec 8) (s : State) : Host.Outcome State Fault Refusal :=
  issued formInt g n (vvOp false (fun _ a b => (aluMulhU a b, 0)) d.toNat a.toNat b.toNat) s

/-- VMAD (R111). -/
def execVmad (g : BitVec 4) (n : BitVec 1) (d a : BitVec 5) (b : BitVec 8) (s : State) : Host.Outcome State Fault Refusal :=
  issued formInt g n (vvOp true (fun d a b => (d + a * b, 0)) d.toNat a.toNat b.toNat) s

/-- VADDS_S (R111). -/
def execVaddsS (g : BitVec 4) (n : BitVec 1) (d a : BitVec 5) (b : BitVec 8) (s : State) : Host.Outcome State Fault Refusal :=
  issued formInt g n (vvOp false (fun _ a b => (clampWord minSigned maxSigned (a.toInt + b.toInt), 0)) d.toNat a.toNat b.toNat) s

/-- VSUBS_S (R111). -/
def execVsubsS (g : BitVec 4) (n : BitVec 1) (d a : BitVec 5) (b : BitVec 8) (s : State) : Host.Outcome State Fault Refusal :=
  issued formInt g n (vvOp false (fun _ a b => (clampWord minSigned maxSigned (a.toInt - b.toInt), 0)) d.toNat a.toNat b.toNat) s

/-- VADDS_U (R111). -/
def execVaddsU (g : BitVec 4) (n : BitVec 1) (d a : BitVec 5) (b : BitVec 8) (s : State) : Host.Outcome State Fault Refusal :=
  issued formInt g n (vvOp false (fun _ a b => (clampWord 0 maxUnsigned ((a.toNat : Int) + b.toNat), 0)) d.toNat a.toNat b.toNat) s

/-- VSUBS_U (R111). -/
def execVsubsU (g : BitVec 4) (n : BitVec 1) (d a : BitVec 5) (b : BitVec 8) (s : State) : Host.Outcome State Fault Refusal :=
  issued formInt g n (vvOp false (fun _ a b => (clampWord 0 maxUnsigned ((a.toNat : Int) - b.toNat), 0)) d.toNat a.toNat b.toNat) s

/-- VBFE_U (R113). -/
def execVbfeU (g : BitVec 4) (n : BitVec 1) (d a : BitVec 5) (b : BitVec 8) (s : State) : Host.Outcome State Fault Refusal :=
  issued formInt g n (vvOp false (fun _ a b => (aluBfeU a b, 0)) d.toNat a.toNat b.toNat) s

/-- VBFE_S (R113). -/
def execVbfeS (g : BitVec 4) (n : BitVec 1) (d a : BitVec 5) (b : BitVec 8) (s : State) : Host.Outcome State Fault Refusal :=
  issued formInt g n (vvOp false (fun _ a b => (aluBfeS a b, 0)) d.toNat a.toNat b.toNat) s

/-- VBFI (R113). -/
def execVbfi (g : BitVec 4) (n : BitVec 1) (d a : BitVec 5) (b : BitVec 8) (s : State) : Host.Outcome State Fault Refusal :=
  issued formInt g n (vvOp true (fun d a b => (aluBfi d a b, 0)) d.toNat a.toNat b.toNat) s

/-- VPERMB (R113). -/
def execVpermb (g : BitVec 4) (n : BitVec 1) (d a : BitVec 5) (b : BitVec 8) (s : State) : Host.Outcome State Fault Refusal :=
  issued formInt g n (vvOp false (fun _ a b => (aluPermb a b, 0)) d.toNat a.toNat b.toNat) s

/-- VPOPC (R113). -/
def execVpopc (g : BitVec 4) (n : BitVec 1) (d : BitVec 5) (b : BitVec 8) (s : State) : Host.Outcome State Fault Refusal :=
  issued formInt g n (vuOp (fun b => aluPopc b) d.toNat b.toNat) s

/-- VCLZ (R113). -/
def execVclz (g : BitVec 4) (n : BitVec 1) (d : BitVec 5) (b : BitVec 8) (s : State) : Host.Outcome State Fault Refusal :=
  issued formInt g n (vuOp (fun b => aluClz b) d.toNat b.toNat) s

/-- VBREV (R113). -/
def execVbrev (g : BitVec 4) (n : BitVec 1) (d : BitVec 5) (b : BitVec 8) (s : State) : Host.Outcome State Fault Refusal :=
  issued formInt g n (vuOp (fun b => aluBrev b) d.toNat b.toNat) s

/-- VMOV (R113). -/
def execVmov (g : BitVec 4) (n : BitVec 1) (d : BitVec 5) (b : BitVec 8) (s : State) : Host.Outcome State Fault Refusal :=
  issued formInt g n (vuOp (fun b => b) d.toNat b.toNat) s

/-! ## Floating point and packed BF16 (R114, R115) -/

/-- VFADD (R114). -/
def execVfadd (g : BitVec 4) (n : BitVec 1) (d a : BitVec 5) (b : BitVec 8) (s : State) : Host.Outcome State Fault Refusal :=
  issued formFloat g n (vvOp false (fun _ a b => wordRes (fp32.add a.toNat b.toNat)) d.toNat a.toNat b.toNat) s

/-- VFSUB (R114). -/
def execVfsub (g : BitVec 4) (n : BitVec 1) (d a : BitVec 5) (b : BitVec 8) (s : State) : Host.Outcome State Fault Refusal :=
  issued formFloat g n (vvOp false (fun _ a b => wordRes (fp32.sub a.toNat b.toNat)) d.toNat a.toNat b.toNat) s

/-- VFMUL (R114). -/
def execVfmul (g : BitVec 4) (n : BitVec 1) (d a : BitVec 5) (b : BitVec 8) (s : State) : Host.Outcome State Fault Refusal :=
  issued formFloat g n (vvOp false (fun _ a b => wordRes (fp32.mul a.toNat b.toNat)) d.toNat a.toNat b.toNat) s

/-- VFMA (R114). -/
def execVfma (g : BitVec 4) (n : BitVec 1) (d a : BitVec 5) (b : BitVec 8) (s : State) : Host.Outcome State Fault Refusal :=
  issued formFloat g n (vvOp true (fun d a b => wordRes (fp32.fma false a.toNat b.toNat d.toNat)) d.toNat a.toNat b.toNat) s

/-- VFNMA (R114). -/
def execVfnma (g : BitVec 4) (n : BitVec 1) (d a : BitVec 5) (b : BitVec 8) (s : State) : Host.Outcome State Fault Refusal :=
  issued formFloat g n (vvOp true (fun d a b => wordRes (fp32.fma true a.toNat b.toNat d.toNat)) d.toNat a.toNat b.toNat) s

/-- VFMIN (R114). -/
def execVfmin (g : BitVec 4) (n : BitVec 1) (d a : BitVec 5) (b : BitVec 8) (s : State) : Host.Outcome State Fault Refusal :=
  issued formFloat g n (vvOp false (fun _ a b => wordRes (fp32.minMax false a.toNat b.toNat)) d.toNat a.toNat b.toNat) s

/-- VFMAX (R114). -/
def execVfmax (g : BitVec 4) (n : BitVec 1) (d a : BitVec 5) (b : BitVec 8) (s : State) : Host.Outcome State Fault Refusal :=
  issued formFloat g n (vvOp false (fun _ a b => wordRes (fp32.minMax true a.toNat b.toNat)) d.toNat a.toNat b.toNat) s

/-- VFCPYS (R114). -/
def execVfcpys (g : BitVec 4) (n : BitVec 1) (d a : BitVec 5) (b : BitVec 8) (s : State) : Host.Outcome State Fault Refusal :=
  issued formFloat g n (vvOp false (fun _ a b => (aluCopySign a b, 0)) d.toNat a.toNat b.toNat) s

/-- VHADD2 (R115). -/
def execVhadd2 (g : BitVec 4) (n : BitVec 1) (d a : BitVec 5) (b : BitVec 8) (s : State) : Host.Outcome State Fault Refusal :=
  issued formFloat g n (vvOp false (bothHalves (fun _ a b => bf16.add a b)) d.toNat a.toNat b.toNat) s

/-- VHSUB2 (R115). -/
def execVhsub2 (g : BitVec 4) (n : BitVec 1) (d a : BitVec 5) (b : BitVec 8) (s : State) : Host.Outcome State Fault Refusal :=
  issued formFloat g n (vvOp false (bothHalves (fun _ a b => bf16.sub a b)) d.toNat a.toNat b.toNat) s

/-- VHMUL2 (R115). -/
def execVhmul2 (g : BitVec 4) (n : BitVec 1) (d a : BitVec 5) (b : BitVec 8) (s : State) : Host.Outcome State Fault Refusal :=
  issued formFloat g n (vvOp false (bothHalves (fun _ a b => bf16.mul a b)) d.toNat a.toNat b.toNat) s

/-- VHFMA2 (R115). -/
def execVhfma2 (g : BitVec 4) (n : BitVec 1) (d a : BitVec 5) (b : BitVec 8) (s : State) : Host.Outcome State Fault Refusal :=
  issued formFloat g n (vvOp true (bothHalves (fun d a b => bf16.fma false a b d)) d.toNat a.toNat b.toNat) s

/-- VHMIN2 (R115). -/
def execVhmin2 (g : BitVec 4) (n : BitVec 1) (d a : BitVec 5) (b : BitVec 8) (s : State) : Host.Outcome State Fault Refusal :=
  issued formFloat g n (vvOp false (bothHalves (fun _ a b => bf16.minMax false a b)) d.toNat a.toNat b.toNat) s

/-- VHMAX2 (R115). -/
def execVhmax2 (g : BitVec 4) (n : BitVec 1) (d a : BitVec 5) (b : BitVec 8) (s : State) : Host.Outcome State Fault Refusal :=
  issued formFloat g n (vvOp false (bothHalves (fun _ a b => bf16.minMax true a b)) d.toNat a.toNat b.toNat) s

/-! ## Conversions (R116, R117) -/

/-- VCVT_F32_SI32 (R116). -/
def execVcvtF32Si32 (g : BitVec 4) (n : BitVec 1) (d : BitVec 5) (r : BitVec 2) (b : BitVec 8) (s : State) : Host.Outcome State Fault Refusal :=
  issued formConvert g n (vcOp false (fun _ x => wordRes (intToFp32 (Rm.ofCode r.toNat) x.toInt)) d.toNat b.toNat) s

/-- VCVT_F32_UI32 (R116). -/
def execVcvtF32Ui32 (g : BitVec 4) (n : BitVec 1) (d : BitVec 5) (r : BitVec 2) (b : BitVec 8) (s : State) : Host.Outcome State Fault Refusal :=
  issued formConvert g n (vcOp false (fun _ x => wordRes (intToFp32 (Rm.ofCode r.toNat) x.toNat)) d.toNat b.toNat) s

/-- VCVT_SI32_F32 (R116). -/
def execVcvtSi32F32 (g : BitVec 4) (n : BitVec 1) (d : BitVec 5) (r : BitVec 2) (b : BitVec 8) (s : State) : Host.Outcome State Fault Refusal :=
  issued formConvert g n (vcOp false (fun _ x => floatToInt (Rm.ofCode r.toNat) true x) d.toNat b.toNat) s

/-- VCVT_UI32_F32 (R116). -/
def execVcvtUi32F32 (g : BitVec 4) (n : BitVec 1) (d : BitVec 5) (r : BitVec 2) (b : BitVec 8) (s : State) : Host.Outcome State Fault Refusal :=
  issued formConvert g n (vcOp false (fun _ x => floatToInt (Rm.ofCode r.toNat) false x) d.toNat b.toNat) s

/-- VFRINT (R116). -/
def execVfrint (g : BitVec 4) (n : BitVec 1) (d : BitVec 5) (r : BitVec 2) (b : BitVec 8) (s : State) : Host.Outcome State Fault Refusal :=
  issued formConvert g n (vcOp false (fun _ x => (BitVec.ofNat 32 (fp32Integral (Rm.ofCode r.toNat) x.toNat), 0)) d.toNat b.toNat) s

/-- VCVT_F32_BF16 (R116). -/
def execVcvtF32Bf16 (g : BitVec 4) (n : BitVec 1) (d : BitVec 5) (p : BitVec 2) (b : BitVec 8) (s : State) : Host.Outcome State Fault Refusal :=
  issued formConvert g n (halfOp p.toNat (vcOp false (fun _ x => (BitVec.ofNat 32 (bf16.widen (field x.toNat (16 * p.toNat) 16)), 0)) d.toNat b.toNat)) s

/-- VCVT_F32_E4M3 (R116). -/
def execVcvtF32E4m3 (g : BitVec 4) (n : BitVec 1) (d : BitVec 5) (p : BitVec 2) (b : BitVec 8) (s : State) : Host.Outcome State Fault Refusal :=
  issued formConvert g n (vcOp false (fun _ x => (BitVec.ofNat 32 (e4m3.widen (field x.toNat (8 * p.toNat) 8)), 0)) d.toNat b.toNat) s

/-- VCVT_F32_E5M2 (R116). -/
def execVcvtF32E5m2 (g : BitVec 4) (n : BitVec 1) (d : BitVec 5) (p : BitVec 2) (b : BitVec 8) (s : State) : Host.Outcome State Fault Refusal :=
  issued formConvert g n (vcOp false (fun _ x => (BitVec.ofNat 32 (e5m2.widen (field x.toNat (8 * p.toNat) 8)), 0)) d.toNat b.toNat) s

/-- VCVT_BF16_F32 (R116). -/
def execVcvtBf16F32 (g : BitVec 4) (n : BitVec 1) (d : BitVec 5) (p : BitVec 2) (b : BitVec 8) (s : State) : Host.Outcome State Fault Refusal :=
  issued formConvert g n (halfOp p.toNat (vcOp true (narrowInto bf16 16 p.toNat) d.toNat b.toNat)) s

/-- VCVT_E4M3_F32 (R116). -/
def execVcvtE4m3F32 (g : BitVec 4) (n : BitVec 1) (d : BitVec 5) (p : BitVec 2) (b : BitVec 8) (s : State) : Host.Outcome State Fault Refusal :=
  issued formConvert g n (vcOp true (narrowInto e4m3 8 p.toNat) d.toNat b.toNat) s

/-- VCVT_E5M2_F32 (R116). -/
def execVcvtE5m2F32 (g : BitVec 4) (n : BitVec 1) (d : BitVec 5) (p : BitVec 2) (b : BitVec 8) (s : State) : Host.Outcome State Fault Refusal :=
  issued formConvert g n (vcOp true (narrowInto e5m2 8 p.toNat) d.toNat b.toNat) s

/-- VFCLASS (R117). -/
def execVfclass (g : BitVec 4) (n : BitVec 1) (d : BitVec 5) (b : BitVec 8) (s : State) : Host.Outcome State Fault Refusal :=
  issued formConvert g n (vcOp false (fun _ x => (BitVec.ofNat 32 (fp32Class x.toNat), 0)) d.toNat b.toNat) s

/-- VFGETEXP (R117). -/
def execVfgetexp (g : BitVec 4) (n : BitVec 1) (d : BitVec 5) (b : BitVec 8) (s : State) : Host.Outcome State Fault Refusal :=
  issued formConvert g n (vcOp false (fun _ x => (fp32Exponent x.toNat, 0)) d.toNat b.toNat) s

/-- VFSCALEB (R117). -/
def execVfscaleb (g : BitVec 4) (n : BitVec 1) (d : BitVec 5) (b : BitVec 8) (s : State) : Host.Outcome State Fault Refusal :=
  issued formConvert g n (vcOp true (fun d x => wordRes (fp32Scale d.toNat x.toInt)) d.toNat b.toNat) s

/-! ## Special functions (R70, R118) -/

/-- VRCP (R118). -/
def execVrcp (g : BitVec 4) (n : BitVec 1) (d : BitVec 5) (l : BitVec 4) (b : BitVec 8) (s : State) : Host.Outcome State Fault Refusal :=
  issued formSpecial g n (vsOp fp32Rcp d.toNat l.toNat b.toNat) s

/-- VRSQ (R118). -/
def execVrsq (g : BitVec 4) (n : BitVec 1) (d : BitVec 5) (l : BitVec 4) (b : BitVec 8) (s : State) : Host.Outcome State Fault Refusal :=
  issued formSpecial g n (vsOp fp32Rsq d.toNat l.toNat b.toNat) s

/-- VSQRT (R118). -/
def execVsqrt (g : BitVec 4) (n : BitVec 1) (d : BitVec 5) (l : BitVec 4) (b : BitVec 8) (s : State) : Host.Outcome State Fault Refusal :=
  issued formSpecial g n (vsOp sqrtSpecial d.toNat l.toNat b.toNat) s

/-- VEXP2 (R118). -/
def execVexp2 (g : BitVec 4) (n : BitVec 1) (d : BitVec 5) (l : BitVec 4) (b : BitVec 8) (s : State) : Host.Outcome State Fault Refusal :=
  issued formSpecial g n (vsOp fp32Exp2 d.toNat l.toNat b.toNat) s

/-- VLOG2 (R118). -/
def execVlog2 (g : BitVec 4) (n : BitVec 1) (d : BitVec 5) (l : BitVec 4) (b : BitVec 8) (s : State) : Host.Outcome State Fault Refusal :=
  issued formSpecial g n (vsOp fp32Log2 d.toNat l.toNat b.toNat) s

/-- VSINPI (R118). -/
def execVsinpi (g : BitVec 4) (n : BitVec 1) (d : BitVec 5) (l : BitVec 4) (b : BitVec 8) (s : State) : Host.Outcome State Fault Refusal :=
  issued formSpecial g n (vsOp fp32SinPi d.toNat l.toNat b.toNat) s

/-- VCOSPI (R118). -/
def execVcospi (g : BitVec 4) (n : BitVec 1) (d : BitVec 5) (l : BitVec 4) (b : BitVec 8) (s : State) : Host.Outcome State Fault Refusal :=
  issued formSpecial g n (vsOp fp32CosPi d.toNat l.toNat b.toNat) s

/-- VTANH (R118). -/
def execVtanh (g : BitVec 4) (n : BitVec 1) (d : BitVec 5) (l : BitVec 4) (b : BitVec 8) (s : State) : Host.Outcome State Fault Refusal :=
  issued formSpecial g n (vsOp fp32Tanh d.toNat l.toNat b.toNat) s

/-! ## Compares (R119) -/

/-- VCMP_I (R119). -/
def execVcmpI (g : BitVec 4) (n : BitVec 1) (p : BitVec 4) (a : BitVec 5) (b : BitVec 8) (c : BitVec 4) (s : State) : Host.Outcome State Fault Refusal :=
  issued formLogic g n (cmpOp (decide (c.toNat < 12)) (fun x y => (intCond c.toNat x y, 0)) p.toNat a.toNat b.toNat) s

/-- VCMP_F (R119). -/
def execVcmpF (g : BitVec 4) (n : BitVec 1) (p : BitVec 4) (a : BitVec 5) (b : BitVec 8) (c : BitVec 4) (s : State) : Host.Outcome State Fault Refusal :=
  issued formConvert g n (cmpOp (decide (c.toNat < 8)) (floatCond c.toNat) p.toNat a.toNat b.toNat) s

/-! ## Predicates and rank (R120, R121) -/

/-- PAND (R120). -/
def execPand (g : BitVec 4) (n : BitVec 1) (d a b : BitVec 4) (s : State) : Host.Outcome State Fault Refusal :=
  issued formLogic g n (ppOp [a.toNat, b.toNat] (twoBits (fun x y => x && y)) d.toNat) s

/-- POR (R120). -/
def execPor (g : BitVec 4) (n : BitVec 1) (d a b : BitVec 4) (s : State) : Host.Outcome State Fault Refusal :=
  issued formLogic g n (ppOp [a.toNat, b.toNat] (twoBits (fun x y => x || y)) d.toNat) s

/-- PXOR (R120). -/
def execPxor (g : BitVec 4) (n : BitVec 1) (d a b : BitVec 4) (s : State) : Host.Outcome State Fault Refusal :=
  issued formLogic g n (ppOp [a.toNat, b.toNat] (twoBits (fun x y => x != y)) d.toNat) s

/-- PANDN (R120). -/
def execPandn (g : BitVec 4) (n : BitVec 1) (d a b : BitVec 4) (s : State) : Host.Outcome State Fault Refusal :=
  issued formLogic g n (ppOp [a.toNat, b.toNat] (twoBits (fun x y => x && !y)) d.toNat) s

/-- PNOT (R120). -/
def execPnot (g : BitVec 4) (n : BitVec 1) (d a : BitVec 4) (s : State) : Host.Outcome State Fault Refusal :=
  issued formLogic g n (ppOp [a.toNat] (fun xs => !xs.headD false) d.toNat) s

/-- PMOV (R120). -/
def execPmov (g : BitVec 4) (n : BitVec 1) (d a : BitVec 4) (s : State) : Host.Outcome State Fault Refusal :=
  issued formLogic g n (ppOp [a.toNat] (fun xs => xs.headD false) d.toNat) s

/-- PSET (R120). -/
def execPset (g : BitVec 4) (n : BitVec 1) (d : BitVec 4) (s : State) : Host.Outcome State Fault Refusal :=
  issued formLogic g n (ppOp [] (fun _ => true) d.toNat) s

/-- PCLR (R120). -/
def execPclr (g : BitVec 4) (n : BitVec 1) (d : BitVec 4) (s : State) : Host.Outcome State Fault Refusal :=
  issued formLogic g n (ppOp [] (fun _ => false) d.toNat) s

/-- VRANK (R121). -/
def execVrank (g : BitVec 4) (n : BitVec 1) (a : BitVec 4) (v : BitVec 5) (s : State) : Host.Outcome State Fault Refusal :=
  issued formLogic g n (rankOp a.toNat v.toNat) s

/-! ## Shuffles (R122, R123) -/

/-- SHFL_IDX (R122). -/
def execShflIdx (g : BitVec 4) (n : BitVec 1) (d a : BitVec 5) (b : BitVec 8) (m : BitVec 3) (s : State) : Host.Outcome State Fault Refusal :=
  issued formShuffle g n (shuffleOp 0 d.toNat a.toNat b.toNat m.toNat) s

/-- SHFL_XOR (R122). -/
def execShflXor (g : BitVec 4) (n : BitVec 1) (d a : BitVec 5) (b : BitVec 8) (m : BitVec 3) (s : State) : Host.Outcome State Fault Refusal :=
  issued formShuffle g n (shuffleOp 1 d.toNat a.toNat b.toNat m.toNat) s

/-- SHFL_UP (R122). -/
def execShflUp (g : BitVec 4) (n : BitVec 1) (d a : BitVec 5) (b : BitVec 8) (m : BitVec 3) (s : State) : Host.Outcome State Fault Refusal :=
  issued formShuffle g n (shuffleOp 2 d.toNat a.toNat b.toNat m.toNat) s

/-- SHFL_DN (R122). -/
def execShflDn (g : BitVec 4) (n : BitVec 1) (d a : BitVec 5) (b : BitVec 8) (m : BitVec 3) (s : State) : Host.Outcome State Fault Refusal :=
  issued formShuffle g n (shuffleOp 3 d.toNat a.toNat b.toNat m.toNat) s

end Sys2Proof.Machine
end

