-- ==== Sys2Proof/Machine/Dispatch.lean ====
section
/-!
DEFINITION. The meaning of every instruction and every happening: one arm per constructor, each one call.
-/
namespace Sys2Proof.Machine

/-- What an instruction or happening does to the machine. -/
def exec (i : Instr) (s : State) : Host.Outcome State Fault Refusal :=
  match i with
  | .vadd g n d a b => Sys2Proof.Machine.execVadd g n d a b s
  | .vsub g n d a b => Sys2Proof.Machine.execVsub g n d a b s
  | .vsubr g n d a b => Sys2Proof.Machine.execVsubr g n d a b s
  | .vminS g n d a b => Sys2Proof.Machine.execVminS g n d a b s
  | .vmaxS g n d a b => Sys2Proof.Machine.execVmaxS g n d a b s
  | .vminU g n d a b => Sys2Proof.Machine.execVminU g n d a b s
  | .vmaxU g n d a b => Sys2Proof.Machine.execVmaxU g n d a b s
  | .vadifS g n d a b => Sys2Proof.Machine.execVadifS g n d a b s
  | .vand g n d a b => Sys2Proof.Machine.execVand g n d a b s
  | .vor g n d a b => Sys2Proof.Machine.execVor g n d a b s
  | .vxor g n d a b => Sys2Proof.Machine.execVxor g n d a b s
  | .vandn g n d a b => Sys2Proof.Machine.execVandn g n d a b s
  | .vshl g n d a b => Sys2Proof.Machine.execVshl g n d a b s
  | .vshrU g n d a b => Sys2Proof.Machine.execVshrU g n d a b s
  | .vshrS g n d a b => Sys2Proof.Machine.execVshrS g n d a b s
  | .vrotl g n d a b => Sys2Proof.Machine.execVrotl g n d a b s
  | .vmul g n d a b => Sys2Proof.Machine.execVmul g n d a b s
  | .vmulhS g n d a b => Sys2Proof.Machine.execVmulhS g n d a b s
  | .vmulhU g n d a b => Sys2Proof.Machine.execVmulhU g n d a b s
  | .vmad g n d a b => Sys2Proof.Machine.execVmad g n d a b s
  | .vaddsS g n d a b => Sys2Proof.Machine.execVaddsS g n d a b s
  | .vsubsS g n d a b => Sys2Proof.Machine.execVsubsS g n d a b s
  | .vaddsU g n d a b => Sys2Proof.Machine.execVaddsU g n d a b s
  | .vsubsU g n d a b => Sys2Proof.Machine.execVsubsU g n d a b s
  | .vpopc g n d b => Sys2Proof.Machine.execVpopc g n d b s
  | .vclz g n d b => Sys2Proof.Machine.execVclz g n d b s
  | .vbrev g n d b => Sys2Proof.Machine.execVbrev g n d b s
  | .vbfeU g n d a b => Sys2Proof.Machine.execVbfeU g n d a b s
  | .vbfeS g n d a b => Sys2Proof.Machine.execVbfeS g n d a b s
  | .vbfi g n d a b => Sys2Proof.Machine.execVbfi g n d a b s
  | .vpermb g n d a b => Sys2Proof.Machine.execVpermb g n d a b s
  | .vmov g n d b => Sys2Proof.Machine.execVmov g n d b s
  | .vfadd g n d a b => Sys2Proof.Machine.execVfadd g n d a b s
  | .vfsub g n d a b => Sys2Proof.Machine.execVfsub g n d a b s
  | .vfmul g n d a b => Sys2Proof.Machine.execVfmul g n d a b s
  | .vfma g n d a b => Sys2Proof.Machine.execVfma g n d a b s
  | .vfnma g n d a b => Sys2Proof.Machine.execVfnma g n d a b s
  | .vfmin g n d a b => Sys2Proof.Machine.execVfmin g n d a b s
  | .vfmax g n d a b => Sys2Proof.Machine.execVfmax g n d a b s
  | .vfcpys g n d a b => Sys2Proof.Machine.execVfcpys g n d a b s
  | .vhadd2 g n d a b => Sys2Proof.Machine.execVhadd2 g n d a b s
  | .vhsub2 g n d a b => Sys2Proof.Machine.execVhsub2 g n d a b s
  | .vhmul2 g n d a b => Sys2Proof.Machine.execVhmul2 g n d a b s
  | .vhfma2 g n d a b => Sys2Proof.Machine.execVhfma2 g n d a b s
  | .vhmin2 g n d a b => Sys2Proof.Machine.execVhmin2 g n d a b s
  | .vhmax2 g n d a b => Sys2Proof.Machine.execVhmax2 g n d a b s
  | .vcvtF32Si32 g n d r b => Sys2Proof.Machine.execVcvtF32Si32 g n d r b s
  | .vcvtF32Ui32 g n d r b => Sys2Proof.Machine.execVcvtF32Ui32 g n d r b s
  | .vcvtSi32F32 g n d r b => Sys2Proof.Machine.execVcvtSi32F32 g n d r b s
  | .vcvtUi32F32 g n d r b => Sys2Proof.Machine.execVcvtUi32F32 g n d r b s
  | .vfrint g n d r b => Sys2Proof.Machine.execVfrint g n d r b s
  | .vcvtF32Bf16 g n d p b => Sys2Proof.Machine.execVcvtF32Bf16 g n d p b s
  | .vcvtF32E4m3 g n d p b => Sys2Proof.Machine.execVcvtF32E4m3 g n d p b s
  | .vcvtF32E5m2 g n d p b => Sys2Proof.Machine.execVcvtF32E5m2 g n d p b s
  | .vcvtBf16F32 g n d p b => Sys2Proof.Machine.execVcvtBf16F32 g n d p b s
  | .vcvtE4m3F32 g n d p b => Sys2Proof.Machine.execVcvtE4m3F32 g n d p b s
  | .vcvtE5m2F32 g n d p b => Sys2Proof.Machine.execVcvtE5m2F32 g n d p b s
  | .vfclass g n d b => Sys2Proof.Machine.execVfclass g n d b s
  | .vfgetexp g n d b => Sys2Proof.Machine.execVfgetexp g n d b s
  | .vfscaleb g n d b => Sys2Proof.Machine.execVfscaleb g n d b s
  | .vrcp g n d l b => Sys2Proof.Machine.execVrcp g n d l b s
  | .vrsq g n d l b => Sys2Proof.Machine.execVrsq g n d l b s
  | .vsqrt g n d l b => Sys2Proof.Machine.execVsqrt g n d l b s
  | .vexp2 g n d l b => Sys2Proof.Machine.execVexp2 g n d l b s
  | .vlog2 g n d l b => Sys2Proof.Machine.execVlog2 g n d l b s
  | .vsinpi g n d l b => Sys2Proof.Machine.execVsinpi g n d l b s
  | .vcospi g n d l b => Sys2Proof.Machine.execVcospi g n d l b s
  | .vtanh g n d l b => Sys2Proof.Machine.execVtanh g n d l b s
  | .vcmpI g n p a b c => Sys2Proof.Machine.execVcmpI g n p a b c s
  | .vcmpF g n p a b c => Sys2Proof.Machine.execVcmpF g n p a b c s
  | .pand g n d a b => Sys2Proof.Machine.execPand g n d a b s
  | .por g n d a b => Sys2Proof.Machine.execPor g n d a b s
  | .pxor g n d a b => Sys2Proof.Machine.execPxor g n d a b s
  | .pandn g n d a b => Sys2Proof.Machine.execPandn g n d a b s
  | .pnot g n d a => Sys2Proof.Machine.execPnot g n d a s
  | .pmov g n d a => Sys2Proof.Machine.execPmov g n d a s
  | .pset g n d => Sys2Proof.Machine.execPset g n d s
  | .pclr g n d => Sys2Proof.Machine.execPclr g n d s
  | .vrank g n a v => Sys2Proof.Machine.execVrank g n a v s
  | .shflIdx g n d a b m => Sys2Proof.Machine.execShflIdx g n d a b m s
  | .shflXor g n d a b m => Sys2Proof.Machine.execShflXor g n d a b m s
  | .shflUp g n d a b m => Sys2Proof.Machine.execShflUp g n d a b m s
  | .shflDn g n d a b m => Sys2Proof.Machine.execShflDn g n d a b m s
  | .sadd g n xs b => Sys2Proof.Machine.execSadd g n xs b s
  | .ssub g n xs b => Sys2Proof.Machine.execSsub g n xs b s
  | .ssubr g n xs b => Sys2Proof.Machine.execSsubr g n xs b s
  | .smul g n xs b => Sys2Proof.Machine.execSmul g n xs b s
  | .smulhS g n xs b => Sys2Proof.Machine.execSmulhS g n xs b s
  | .smulhU g n xs b => Sys2Proof.Machine.execSmulhU g n xs b s
  | .sdivS g n xs b => Sys2Proof.Machine.execSdivS g n xs b s
  | .sdivU g n xs b => Sys2Proof.Machine.execSdivU g n xs b s
  | .sremS g n xs b => Sys2Proof.Machine.execSremS g n xs b s
  | .sremU g n xs b => Sys2Proof.Machine.execSremU g n xs b s
  | .sand g n xs b => Sys2Proof.Machine.execSand g n xs b s
  | .sor g n xs b => Sys2Proof.Machine.execSor g n xs b s
  | .sxor g n xs b => Sys2Proof.Machine.execSxor g n xs b s
  | .sandn g n xs b => Sys2Proof.Machine.execSandn g n xs b s
  | .sshl g n xs b => Sys2Proof.Machine.execSshl g n xs b s
  | .sshrU g n xs b => Sys2Proof.Machine.execSshrU g n xs b s
  | .sshrS g n xs b => Sys2Proof.Machine.execSshrS g n xs b s
  | .sminS g n xs b => Sys2Proof.Machine.execSminS g n xs b s
  | .smaxS g n xs b => Sys2Proof.Machine.execSmaxS g n xs b s
  | .sminU g n xs b => Sys2Proof.Machine.execSminU g n xs b s
  | .smaxU g n xs b => Sys2Proof.Machine.execSmaxU g n xs b s
  | .smov g n xs b => Sys2Proof.Machine.execSmov g n xs b s
  | .spopc g n xs b => Sys2Proof.Machine.execSpopc g n xs b s
  | .sclz g n xs b => Sys2Proof.Machine.execSclz g n xs b s
  | .sseq g n xs b => Sys2Proof.Machine.execSseq g n xs b s
  | .ssne g n xs b => Sys2Proof.Machine.execSsne g n xs b s
  | .ssltS g n xs b => Sys2Proof.Machine.execSsltS g n xs b s
  | .ssltU g n xs b => Sys2Proof.Machine.execSsltU g n xs b s
  | .saddW g n xs b => Sys2Proof.Machine.execSaddW g n xs b s
  | .ssubW g n xs b => Sys2Proof.Machine.execSsubW g n xs b s
  | .smovp g n xs b => Sys2Proof.Machine.execSmovp g n xs b s
  | .pmovs g n xs b => Sys2Proof.Machine.execPmovs g n xs b s
  | .sfadd g n xs b => Sys2Proof.Machine.execSfadd g n xs b s
  | .sfsub g n xs b => Sys2Proof.Machine.execSfsub g n xs b s
  | .sfmul g n xs b => Sys2Proof.Machine.execSfmul g n xs b s
  | .sfdiv g n xs b => Sys2Proof.Machine.execSfdiv g n xs b s
  | .sfsqrt g n xs b => Sys2Proof.Machine.execSfsqrt g n xs b s
  | .sfrcp g n xs b => Sys2Proof.Machine.execSfrcp g n xs b s
  | .sfrsq g n xs b => Sys2Proof.Machine.execSfrsq g n xs b s
  | .sfmin g n xs b => Sys2Proof.Machine.execSfmin g n xs b s
  | .sfmax g n xs b => Sys2Proof.Machine.execSfmax g n xs b s
  | .scvtF32Si32 g n xs b => Sys2Proof.Machine.execScvtF32Si32 g n xs b s
  | .scvtF32Ui32 g n xs b => Sys2Proof.Machine.execScvtF32Ui32 g n xs b s
  | .scvtSi32F32 g n xs b => Sys2Proof.Machine.execScvtSi32F32 g n xs b s
  | .scvtUi32F32 g n xs b => Sys2Proof.Machine.execScvtUi32F32 g n xs b s
  | .scvtSi32F32Rn g n xs b => Sys2Proof.Machine.execScvtSi32F32Rn g n xs b s
  | .sflt g n xs b => Sys2Proof.Machine.execSflt g n xs b s
  | .sfle g n xs b => Sys2Proof.Machine.execSfle g n xs b s
  | .sfeq g n xs b => Sys2Proof.Machine.execSfeq g n xs b s
  | .smovi g n xs xi => Sys2Proof.Machine.execSmovi g n xs xi s
  | .saddi g n xs xi => Sys2Proof.Machine.execSaddi g n xs xi s
  | .srd g n xs r => Sys2Proof.Machine.execSrd g n xs r s
  | .swr g n xs r => Sys2Proof.Machine.execSwr g n xs r s
  | .agetb g n xs r => Sys2Proof.Machine.execAgetb g n xs r s
  | .agets g n xs r => Sys2Proof.Machine.execAgets g n xs r s
  | .agetw g n xs r => Sys2Proof.Machine.execAgetw g n xs r s
  | .lds g n xs b => Sys2Proof.Machine.execLds g n xs b s
  | .ldsW g n xs b => Sys2Proof.Machine.execLdsW g n xs b s
  | .ldsQ g n xs b => Sys2Proof.Machine.execLdsQ g n xs b s
  | .ldsO g n xs b => Sys2Proof.Machine.execLdsO g n xs b s
  | .ldp g n xs o w => Sys2Proof.Machine.execLdp g n xs o w s
  | .ldls g n xs b => Sys2Proof.Machine.execLdls g n xs b s
  | .aadd g n d a b => Sys2Proof.Machine.execAadd g n d a b s
  | .asub g n d a b => Sys2Proof.Machine.execAsub g n d a b s
  | .amul g n d a b => Sys2Proof.Machine.execAmul g n d a b s
  | .ashl g n d a b => Sys2Proof.Machine.execAshl g n d a b s
  | .aset g n d b => Sys2Proof.Machine.execAset g n d b s
  | .alane g n d b => Sys2Proof.Machine.execAlane g n d b s
  | .aneg g n d a => Sys2Proof.Machine.execAneg g n d a s
  | .amov g n d b => Sys2Proof.Machine.execAmov g n d b s
  | .acmp g n p a b c => Sys2Proof.Machine.execAcmp g n p a b c s
  | .bra g n o => Sys2Proof.Machine.execBra g n o s
  | .brz g n xs o => Sys2Proof.Machine.execBrz g n xs o s
  | .brnz g n xs o => Sys2Proof.Machine.execBrnz g n xs o s
  | .call g n w o => Sys2Proof.Machine.execCall g n w o s
  | .nop g n => Sys2Proof.Machine.execNop g n s
  | .exit g n => Sys2Proof.Machine.execExit g n s
  | .ret g n b w => Sys2Proof.Machine.execRet g n b w s
  | .callr g n b w => Sys2Proof.Machine.execCallr g n b w s
  | .brx g n b => Sys2Proof.Machine.execBrx g n b s
  | .yield g n => Sys2Proof.Machine.execYield g n s
  | .loopx g n xs => Sys2Proof.Machine.execLoopx g n xs s
  | .wspill g n x => Sys2Proof.Machine.execWspill g n x s
  | .wfill g n x => Sys2Proof.Machine.execWfill g n x s
  | .bkpt g n c => Sys2Proof.Machine.execBkpt g n c s
  | .trap g n c => Sys2Proof.Machine.execTrap g n c s
  | .rte g n => Sys2Proof.Machine.execRte g n s
  | .svc g n b x => Sys2Proof.Machine.execSvc g n b x s
  | .xpcr g n b l => Sys2Proof.Machine.execXpcr g n b l s
  | .xpcw g n b l => Sys2Proof.Machine.execXpcw g n b l s
  | .loop g n c b e => Sys2Proof.Machine.execLoop g n c b e s
  | .sfromv g n d a l => Sys2Proof.Machine.execSfromv g n d a l s
  | .sfirst g n d a => Sys2Proof.Machine.execSfirst g n d a s
  | .sunif g n d a => Sys2Proof.Machine.execSunif g n d a s
  | .afromv g n d a => Sys2Proof.Machine.execAfromv g n d a s
  | .sredaddSi32 g n d a m p => Sys2Proof.Machine.execSredaddSi32 g n d a m p s
  | .sredaddF32 g n d a m p => Sys2Proof.Machine.execSredaddF32 g n d a m p s
  | .sredminSi32 g n d a m p => Sys2Proof.Machine.execSredminSi32 g n d a m p s
  | .sredmaxSi32 g n d a m p => Sys2Proof.Machine.execSredmaxSi32 g n d a m p s
  | .ldg g n d o b f l => Sys2Proof.Machine.execLdg g n d o b f l s
  | .ldgW g n d o b f l => Sys2Proof.Machine.execLdgW g n d o b f l s
  | .ldgQ g n d o b f l => Sys2Proof.Machine.execLdgQ g n d o b f l s
  | .stg g n d o b k c => Sys2Proof.Machine.execStg g n d o b k c s
  | .stgW g n d o b k c => Sys2Proof.Machine.execStgW g n d o b k c s
  | .stgQ g n d o b k c => Sys2Proof.Machine.execStgQ g n d o b k c s
  | .ldl g n d o b l => Sys2Proof.Machine.execLdl g n d o b l s
  | .ldlW g n d o b l => Sys2Proof.Machine.execLdlW g n d o b l s
  | .ldlQ g n d o b l => Sys2Proof.Machine.execLdlQ g n d o b l s
  | .stl g n d o b c => Sys2Proof.Machine.execStl g n d o b c s
  | .stlW g n d o b c => Sys2Proof.Machine.execStlW g n d o b c s
  | .stlQ g n d o b c => Sys2Proof.Machine.execStlQ g n d o b c s
  | .ldgU8 g n d o b f => Sys2Proof.Machine.execLdgU8 g n d o b f s
  | .ldgS8 g n d o b f => Sys2Proof.Machine.execLdgS8 g n d o b f s
  | .ldgU16 g n d o b f => Sys2Proof.Machine.execLdgU16 g n d o b f s
  | .ldgS16 g n d o b f => Sys2Proof.Machine.execLdgS16 g n d o b f s
  | .stgB8 g n d o b k => Sys2Proof.Machine.execStgB8 g n d o b k s
  | .stgB16 g n d o b k => Sys2Proof.Machine.execStgB16 g n d o b k s
  | .ldlU8 g n d o b => Sys2Proof.Machine.execLdlU8 g n d o b s
  | .ldlS8 g n d o b => Sys2Proof.Machine.execLdlS8 g n d o b s
  | .ldlU16 g n d o b => Sys2Proof.Machine.execLdlU16 g n d o b s
  | .ldlS16 g n d o b => Sys2Proof.Machine.execLdlS16 g n d o b s
  | .stlB8 g n d o b => Sys2Proof.Machine.execStlB8 g n d o b s
  | .stlB16 g n d o b => Sys2Proof.Machine.execStlB16 g n d o b s
  | .pfg g n o b f => Sys2Proof.Machine.execPfg g n o b f s
  | .atomg g n d v b o xs r => Sys2Proof.Machine.execAtomg g n d v b o xs r s
  | .atoml g n d v b o xs r => Sys2Proof.Machine.execAtoml g n d v b o xs r s
  | .atoms g n xs b o a => Sys2Proof.Machine.execAtoms g n xs b o a s
  | .fence g n xs => Sys2Proof.Machine.execFence g n xs s
  | .rel g n xs => Sys2Proof.Machine.execRel g n xs s
  | .acq g n xs => Sys2Proof.Machine.execAcq g n xs s
  | .acqRmt g n b => Sys2Proof.Machine.execAcqRmt g n b s
  | .wdrain g n => Sys2Proof.Machine.execWdrain g n s
  | .l1wb g n => Sys2Proof.Machine.execL1wb g n s
  | .l1inv g n => Sys2Proof.Machine.execL1inv g n s
  | .leaseSet g n b => Sys2Proof.Machine.execLeaseSet g n b s
  | .leaseMeas g n => Sys2Proof.Machine.execLeaseMeas g n s
  | .leaseGet g n b => Sys2Proof.Machine.execLeaseGet g n b s
  | .barv g n q b => Sys2Proof.Machine.execBarv g n q b s
  | .bwait g n q b => Sys2Proof.Machine.execBwait g n q b s
  | .bsync g n q => Sys2Proof.Machine.execBsync g n q s
  | .barvn g n q => Sys2Proof.Machine.execBarvn g n q s
  | .btest g n q b => Sys2Proof.Machine.execBtest g n q b s
  | .gmask g n q b => Sys2Proof.Machine.execGmask g n q b s
  | .gqry g n q b => Sys2Proof.Machine.execGqry g n q b s
  | .gsave g n q b => Sys2Proof.Machine.execGsave g n q b s
  | .gload g n q b => Sys2Proof.Machine.execGload g n q b s
  | .mma g n t f v a y z xs => Sys2Proof.Machine.execMma g n t f v a y z xs s
  | .mzero g n t => Sys2Proof.Machine.execMzero g n t s
  | .mldt g n t d f => Sys2Proof.Machine.execMldt g n t d f s
  | .mstt g n t d f => Sys2Proof.Machine.execMstt g n t d f s
  | .mrowv g n v t => Sys2Proof.Machine.execMrowv g n v t s
  | .mwait g n => Sys2Proof.Machine.execMwait g n s
  | .mfence g n => Sys2Proof.Machine.execMfence g n s
  | .mdesc g n d b => Sys2Proof.Machine.execMdesc g n d b s
  | .mdescGet g n d b => Sys2Proof.Machine.execMdescGet g n d b s
  | .cpyLin g n t b => Sys2Proof.Machine.execCpyLin g n t b s
  | .cpyLinw g n t b => Sys2Proof.Machine.execCpyLinw g n t b s
  | .cpyT2d g n t b => Sys2Proof.Machine.execCpyT2d g n t b s
  | .cpyT2dw g n t b => Sys2Proof.Machine.execCpyT2dw g n t b s
  | .cpyXpnd g n t b => Sys2Proof.Machine.execCpyXpnd g n t b s
  | .cpyGath g n t b => Sys2Proof.Machine.execCpyGath g n t b s
  | .cpyScat g n t b => Sys2Proof.Machine.execCpyScat g n t b s
  | .cpyL2l g n t b => Sys2Proof.Machine.execCpyL2l g n t b s
  | .cpyFill g n t b => Sys2Proof.Machine.execCpyFill g n t b s
  | .twaitany g n xs b => Sys2Proof.Machine.execTwaitany g n xs b s
  | .twaitall g n xs b => Sys2Proof.Machine.execTwaitall g n xs b s
  | .tfind g n xs b => Sys2Proof.Machine.execTfind g n xs b s
  | .tclr g n b => Sys2Proof.Machine.execTclr g n b s
  | .tstat g n xs b => Sys2Proof.Machine.execTstat g n xs b s
  | .rput g n r xs => Sys2Proof.Machine.execRput g n r xs s
  | .rget g n r xs => Sys2Proof.Machine.execRget g n r xs s
  | .rputNb g n r xs p => Sys2Proof.Machine.execRputNb g n r xs p s
  | .rgetNb g n r xs p => Sys2Proof.Machine.execRgetNb g n r xs p s
  | .rclose g n r => Sys2Proof.Machine.execRclose g n r s
  | .rstat g n r xs => Sys2Proof.Machine.execRstat g n r xs s
  | .hgive g n b x => Sys2Proof.Machine.execHgive g n b x s
  | .hrecv g n b x => Sys2Proof.Machine.execHrecv g n b x s
  | .hqry g n b => Sys2Proof.Machine.execHqry g n b s
  | .hdrop g n b => Sys2Proof.Machine.execHdrop g n b s
  | .klaunch g n b => Sys2Proof.Machine.execKlaunch g n b s
  | .kwait g n b => Sys2Proof.Machine.execKwait g n b s
  | .kquota g n b => Sys2Proof.Machine.execKquota g n b s
  | .crs g n t b c y => Sys2Proof.Machine.execCrs g n t b c y s
  | .cag g n t b c y => Sys2Proof.Machine.execCag g n t b c y s
  | .car g n t b c y => Sys2Proof.Machine.execCar g n t b c y s
  | .mkdown g n m b => Sys2Proof.Machine.execMkdown g n m b s
  | .mkget g n b => Sys2Proof.Machine.execMkget g n b s
  | .trmark g n b => Sys2Proof.Machine.execTrmark g n b s
  | .clkrd g n b => Sys2Proof.Machine.execClkrd g n b s
  | .ximm p => Sys2Proof.Machine.execXimm p s
  | .rep b a d xs c => Sys2Proof.Machine.execRep b a d xs c s
  | .la l => Sys2Proof.Machine.execLa l s
  | .quantumExpiry sid => Sys2Proof.Machine.execQuantumExpiry sid s
  | .starvationLimit core quad => Sys2Proof.Machine.execStarvationLimit core quad s
  | .greedyLimit core quad => Sys2Proof.Machine.execGreedyLimit core quad s
  | .admissionPass core => Sys2Proof.Machine.execAdmissionPass core s
  | .ageBoundExpiry sid => Sys2Proof.Machine.execAgeBoundExpiry sid s
  | .footprintWindow sid lines => Sys2Proof.Machine.execFootprintWindow sid lines s
  | .kernelDispatch kid => Sys2Proof.Machine.execKernelDispatch kid s
  | .kernelRunning kid => Sys2Proof.Machine.execKernelRunning kid s
  | .tuftPlacement kid => Sys2Proof.Machine.execTuftPlacement kid s
  | .tuftComplete tid => Sys2Proof.Machine.execTuftComplete tid s
  | .completionSignal kid => Sys2Proof.Machine.execCompletionSignal kid s
  | .runmaxExpiry tid => Sys2Proof.Machine.execRunmaxExpiry tid s
  | .tuftSuspend tid => Sys2Proof.Machine.execTuftSuspend tid s
  | .forcedSuspension tid => Sys2Proof.Machine.execForcedSuspension tid s
  | .tuftReload tid => Sys2Proof.Machine.execTuftReload tid s
  | .tuftAbort tid => Sys2Proof.Machine.execTuftAbort tid s
  | .storeBufferSend sid => Sys2Proof.Machine.execStoreBufferSend sid s
  | .writePerform mid => Sys2Proof.Machine.execWritePerform mid s
  | .writeAck mid => Sys2Proof.Machine.execWriteAck mid s
  | .loadReturn sid pid lanes => Sys2Proof.Machine.execLoadReturn sid pid lanes s
  | .atomicReply mid => Sys2Proof.Machine.execAtomicReply mid s
  | .walk core ctx va => Sys2Proof.Machine.execWalk core ctx va s
  | .walkWake slice => Sys2Proof.Machine.execWalkWake slice s
  | .shootdownGo slice => Sys2Proof.Machine.execShootdownGo slice s
  | .shootdownComplete part => Sys2Proof.Machine.execShootdownComplete part s
  | .matrixOpComplete sid => Sys2Proof.Machine.execMatrixOpComplete sid s
  | .copyStart core => Sys2Proof.Machine.execCopyStart core s
  | .copyComplete core cmd => Sys2Proof.Machine.execCopyComplete core cmd s
  | .collectiveJoin part group => Sys2Proof.Machine.execCollectiveJoin part group s
  | .collectiveComplete part group => Sys2Proof.Machine.execCollectiveComplete part group s
  | .serviceReply sid failed => Sys2Proof.Machine.execServiceReply sid failed s
  | .replyResume slice token => Sys2Proof.Machine.execReplyResume slice token s
  | .replyAbandon slice token => Sys2Proof.Machine.execReplyAbandon slice token s
  | .replyDroplanes slice token => Sys2Proof.Machine.execReplyDroplanes slice token s
  | .replyDiscard slice token => Sys2Proof.Machine.execReplyDiscard slice token s
  | .queueRegister slice entry => Sys2Proof.Machine.execQueueRegister slice entry s
  | .queueDestroy slice entry => Sys2Proof.Machine.execQueueDestroy slice entry s
  | .queueWake slice entry => Sys2Proof.Machine.execQueueWake slice entry s
  | .packetFetch slice entry => Sys2Proof.Machine.execPacketFetch slice entry s
  | .packetKernel slice entry => Sys2Proof.Machine.execPacketKernel slice entry s
  | .packetWaitall slice entry => Sys2Proof.Machine.execPacketWaitall slice entry s
  | .packetWaitany slice entry => Sys2Proof.Machine.execPacketWaitany slice entry s
  | .packetSignal slice entry => Sys2Proof.Machine.execPacketSignal slice entry s
  | .packetHold slice entry => Sys2Proof.Machine.execPacketHold slice entry s
  | .packetRelease slice entry => Sys2Proof.Machine.execPacketRelease slice entry s
  | .packetNop slice entry => Sys2Proof.Machine.execPacketNop slice entry s
  | .waitReevaluate slice entry => Sys2Proof.Machine.execWaitReevaluate slice entry s
  | .partitionForm req => Sys2Proof.Machine.execPartitionForm req s
  | .partitionReady part => Sys2Proof.Machine.execPartitionReady part s
  | .bootFailure part => Sys2Proof.Machine.execBootFailure part s
  | .partAdd part slice => Sys2Proof.Machine.execPartAdd part slice s
  | .partRemove part slice drainMax => Sys2Proof.Machine.execPartRemove part slice drainMax s
  | .drainmaxExpiry part => Sys2Proof.Machine.execDrainmaxExpiry part s
  | .partLend part slice borrower deadline => Sys2Proof.Machine.execPartLend part slice borrower deadline s
  | .partRecall part slice => Sys2Proof.Machine.execPartRecall part slice s
  | .recallDeadline slice => Sys2Proof.Machine.execRecallDeadline slice s
  | .recallWriteOut slice => Sys2Proof.Machine.execRecallWriteOut slice s
  | .partHalt part => Sys2Proof.Machine.execPartHalt part s
  | .partResume part => Sys2Proof.Machine.execPartResume part s
  | .partDissolve part => Sys2Proof.Machine.execPartDissolve part s
  | .evidence part package out nonce => Sys2Proof.Machine.execEvidence part package out nonce s
  | .certs part package out len => Sys2Proof.Machine.execCerts part package out len s
  | .extend part slot digestAt => Sys2Proof.Machine.execExtend part slot digestAt s
  | .ctxCreate part ctx => Sys2Proof.Machine.execCtxCreate part ctx s
  | .ctxActivate part ctx => Sys2Proof.Machine.execCtxActivate part ctx s
  | .ctxSuspend part ctx save => Sys2Proof.Machine.execCtxSuspend part ctx save s
  | .ctxResume part ctx => Sys2Proof.Machine.execCtxResume part ctx s
  | .ctxFault part ctx => Sys2Proof.Machine.execCtxFault part ctx s
  | .ctxDestroy part ctx => Sys2Proof.Machine.execCtxDestroy part ctx s
  | .keyLoad slice cmd => Sys2Proof.Machine.execKeyLoad slice cmd s
  | .keyLoadw slice cmd => Sys2Proof.Machine.execKeyLoadw slice cmd s
  | .keyErase slice cmd => Sys2Proof.Machine.execKeyErase slice cmd s
  | .correctableError slice => Sys2Proof.Machine.execCorrectableError slice s
  | .uncorrectableError site => Sys2Proof.Machine.execUncorrectableError site s
  | .sliceLost slice => Sys2Proof.Machine.execSliceLost slice s
  | .portEnable slice => Sys2Proof.Machine.execPortEnable slice s
  | .portDisable slice => Sys2Proof.Machine.execPortDisable slice s
  | .portFence slice => Sys2Proof.Machine.execPortFence slice s
  | .portUnfence slice => Sys2Proof.Machine.execPortUnfence slice s
  | .trainingDone slice txUp rxUp => Sys2Proof.Machine.execTrainingDone slice txUp rxUp s
  | .trainingFailed slice => Sys2Proof.Machine.execTrainingFailed slice s
  | .keyingDone slice => Sys2Proof.Machine.execKeyingDone slice s
  | .wavelengthLoss slice txUp rxUp => Sys2Proof.Machine.execWavelengthLoss slice txUp rxUp s
  | .retrainingRestored slice => Sys2Proof.Machine.execRetrainingRestored slice s
  | .rekey slice => Sys2Proof.Machine.execRekey slice s
  | .packetReceive slice pkt => Sys2Proof.Machine.execPacketReceive slice pkt s
  | .retransmitTimeout mid => Sys2Proof.Machine.execRetransmitTimeout mid s
  | .lctlWrite slice v => Sys2Proof.Machine.execLctlWrite slice v s
  | .getVersion package => Sys2Proof.Machine.execGetVersion package s
  | .getCapabilities package => Sys2Proof.Machine.execGetCapabilities package s
  | .negotiateAlgorithms offer => Sys2Proof.Machine.execNegotiateAlgorithms offer s
  | .getDigests package => Sys2Proof.Machine.execGetDigests package s
  | .getCertificate package slot offset len => Sys2Proof.Machine.execGetCertificate package slot offset len s
  | .challenge package nonce => Sys2Proof.Machine.execChallenge package nonce s
  | .getMeasurements package index nonce => Sys2Proof.Machine.execGetMeasurements package index nonce s
  | .spdmUnsupported package code => Sys2Proof.Machine.execSpdmUnsupported package code s
  | .firmwareStage package slot image => Sys2Proof.Machine.execFirmwareStage package slot image s
  | .activationStart package => Sys2Proof.Machine.execActivationStart package s
  | .activationCommit package => Sys2Proof.Machine.execActivationCommit package s
  | .activationRollback package => Sys2Proof.Machine.execActivationRollback package s
  | .mgmtOtherMessage package code => Sys2Proof.Machine.execMgmtOtherMessage package code s
  | .packageReset package => Sys2Proof.Machine.execPackageReset package s
  | .pwrctlWrite slice island v => Sys2Proof.Machine.execPwrctlWrite slice island v s
  | .thermThrottle slice island on fclk => Sys2Proof.Machine.execThermThrottle slice island on fclk s
  | .powerWindow slice island watts fclk => Sys2Proof.Machine.execPowerWindow slice island watts fclk s
  | .trctlWrite slice v => Sys2Proof.Machine.execTrctlWrite slice v s
  | .teaselDrain slice => Sys2Proof.Machine.execTeaselDrain slice s
  | .lschedWrite core v => Sys2Proof.Machine.execLschedWrite core v s
  | .urgentWrite slice v => Sys2Proof.Machine.execUrgentWrite slice v s
  | .frameOwnerWrite slice frame v => Sys2Proof.Machine.execFrameOwnerWrite slice frame v s
  | .controlRegWrite slice offset width value => Sys2Proof.Machine.execControlRegWrite slice offset width value s
  | .unassignedEncoding w => Sys2Proof.Machine.execUnassignedEncoding w s
  | .longLatencyResult sid pid => Sys2Proof.Machine.execLongLatencyResult sid pid s
  | .serviceCoreAccess acc => Sys2Proof.Machine.execServiceCoreAccess acc s
  | .partitionKernelFetch part image args => Sys2Proof.Machine.execPartitionKernelFetch part image args s
  | .cpuTrayRegister source part ctx => Sys2Proof.Machine.execCpuTrayRegister source part ctx s

end Sys2Proof.Machine
end

