-- ==== Sys2Proof/Machine/Fetch.lean ====
section
/-!
DEFINITION. What happens in an issue slot of a quadrant: the issuing set (R20, R24, R35, R92), the fetch of the word through
translation (R5, R83, R84, R155, R291, R319), and the run of the instruction that the word encodes.
-/
namespace Sys2Proof.Machine

/-! ## The run of a word

A word of a major below 0x38 is decoded and handed to exec. For the others exec's arm is called at once: what runs is the same
(run_eq_decode under Laws), and the model stays executable. -/

/-- The step of a word of major 0x38 (R89). -/
def runMaj38 (w : Nat) (s : State) : Host.Outcome State Fault Refusal :=
  match w / 2 ^ 11 % 16 with
  | 0 => if fixedField w 0 3 0 then Sys2Proof.Machine.execCpyLin (bits w 22 4) (bits w 21 1) (bits w 15 6) (bits w 3 8) s else execUnassignedEncoding (BitVec.ofNat 32 w) s
  | 1 => if fixedField w 0 3 0 then Sys2Proof.Machine.execCpyLinw (bits w 22 4) (bits w 21 1) (bits w 15 6) (bits w 3 8) s else execUnassignedEncoding (BitVec.ofNat 32 w) s
  | 2 => if fixedField w 0 3 0 then Sys2Proof.Machine.execCpyT2d (bits w 22 4) (bits w 21 1) (bits w 15 6) (bits w 3 8) s else execUnassignedEncoding (BitVec.ofNat 32 w) s
  | 3 => if fixedField w 0 3 0 then Sys2Proof.Machine.execCpyT2dw (bits w 22 4) (bits w 21 1) (bits w 15 6) (bits w 3 8) s else execUnassignedEncoding (BitVec.ofNat 32 w) s
  | 4 => if fixedField w 0 3 0 then Sys2Proof.Machine.execCpyXpnd (bits w 22 4) (bits w 21 1) (bits w 15 6) (bits w 3 8) s else execUnassignedEncoding (BitVec.ofNat 32 w) s
  | 5 => if fixedField w 0 3 0 then Sys2Proof.Machine.execCpyGath (bits w 22 4) (bits w 21 1) (bits w 15 6) (bits w 3 8) s else execUnassignedEncoding (BitVec.ofNat 32 w) s
  | 6 => if fixedField w 0 3 0 then Sys2Proof.Machine.execCpyScat (bits w 22 4) (bits w 21 1) (bits w 15 6) (bits w 3 8) s else execUnassignedEncoding (BitVec.ofNat 32 w) s
  | 7 => if fixedField w 0 3 0 then Sys2Proof.Machine.execCpyL2l (bits w 22 4) (bits w 21 1) (bits w 15 6) (bits w 3 8) s else execUnassignedEncoding (BitVec.ofNat 32 w) s
  | 8 => if fixedField w 0 3 0 then Sys2Proof.Machine.execCpyFill (bits w 22 4) (bits w 21 1) (bits w 15 6) (bits w 3 8) s else execUnassignedEncoding (BitVec.ofNat 32 w) s
  | _ => execUnassignedEncoding (BitVec.ofNat 32 w) s

/-- The step of a word of major 0x39 (R89). -/
def runMaj39 (w : Nat) (s : State) : Host.Outcome State Fault Refusal :=
  match w / 2 ^ 0 % 32 with
  | 0 => Sys2Proof.Machine.execTwaitany (bits w 22 4) (bits w 21 1) (bits w 13 8) (bits w 5 8) s
  | 1 => Sys2Proof.Machine.execTwaitall (bits w 22 4) (bits w 21 1) (bits w 13 8) (bits w 5 8) s
  | 2 => Sys2Proof.Machine.execTfind (bits w 22 4) (bits w 21 1) (bits w 13 8) (bits w 5 8) s
  | 3 => if fixedField w 13 8 0 then Sys2Proof.Machine.execTclr (bits w 22 4) (bits w 21 1) (bits w 5 8) s else execUnassignedEncoding (BitVec.ofNat 32 w) s
  | 4 => Sys2Proof.Machine.execTstat (bits w 22 4) (bits w 21 1) (bits w 13 8) (bits w 5 8) s
  | _ => execUnassignedEncoding (BitVec.ofNat 32 w) s

/-- The step of a word of major 0x3A (R89). -/
def runMaj3A (w : Nat) (s : State) : Host.Outcome State Fault Refusal :=
  match w / 2 ^ 12 % 32 with
  | 0 => if fixedField w 0 4 0 then Sys2Proof.Machine.execRput (bits w 22 4) (bits w 21 1) (bits w 17 4) (bits w 4 8) s else execUnassignedEncoding (BitVec.ofNat 32 w) s
  | 1 => if fixedField w 0 4 0 then Sys2Proof.Machine.execRget (bits w 22 4) (bits w 21 1) (bits w 17 4) (bits w 4 8) s else execUnassignedEncoding (BitVec.ofNat 32 w) s
  | 2 => Sys2Proof.Machine.execRputNb (bits w 22 4) (bits w 21 1) (bits w 17 4) (bits w 4 8) (bits w 0 4) s
  | 3 => Sys2Proof.Machine.execRgetNb (bits w 22 4) (bits w 21 1) (bits w 17 4) (bits w 4 8) (bits w 0 4) s
  | 4 => if fixedField w 0 12 0 then Sys2Proof.Machine.execRclose (bits w 22 4) (bits w 21 1) (bits w 17 4) s else execUnassignedEncoding (BitVec.ofNat 32 w) s
  | 5 => if fixedField w 0 4 0 then Sys2Proof.Machine.execRstat (bits w 22 4) (bits w 21 1) (bits w 17 4) (bits w 4 8) s else execUnassignedEncoding (BitVec.ofNat 32 w) s
  | _ => execUnassignedEncoding (BitVec.ofNat 32 w) s

/-- The step of a word of major 0x3B (R89). -/
def runMaj3B (w : Nat) (s : State) : Host.Outcome State Fault Refusal :=
  match w / 2 ^ 16 % 32 with
  | 0 => Sys2Proof.Machine.execHgive (bits w 22 4) (bits w 21 1) (bits w 8 8) (bits w 0 8) s
  | 1 => Sys2Proof.Machine.execHrecv (bits w 22 4) (bits w 21 1) (bits w 8 8) (bits w 0 8) s
  | 2 => if fixedField w 0 8 0 then Sys2Proof.Machine.execHqry (bits w 22 4) (bits w 21 1) (bits w 8 8) s else execUnassignedEncoding (BitVec.ofNat 32 w) s
  | 3 => if fixedField w 0 8 0 then Sys2Proof.Machine.execHdrop (bits w 22 4) (bits w 21 1) (bits w 8 8) s else execUnassignedEncoding (BitVec.ofNat 32 w) s
  | _ => execUnassignedEncoding (BitVec.ofNat 32 w) s

/-- The step of a word of major 0x3C (R89). -/
def runMaj3C (w : Nat) (s : State) : Host.Outcome State Fault Refusal :=
  match w / 2 ^ 16 % 32 with
  | 0 => if fixedField w 13 3 0 && fixedField w 0 5 0 then Sys2Proof.Machine.execKlaunch (bits w 22 4) (bits w 21 1) (bits w 5 8) s else execUnassignedEncoding (BitVec.ofNat 32 w) s
  | 1 => if fixedField w 13 3 0 && fixedField w 0 5 0 then Sys2Proof.Machine.execKwait (bits w 22 4) (bits w 21 1) (bits w 5 8) s else execUnassignedEncoding (BitVec.ofNat 32 w) s
  | 2 => if fixedField w 13 3 0 && fixedField w 0 5 0 then Sys2Proof.Machine.execKquota (bits w 22 4) (bits w 21 1) (bits w 5 8) s else execUnassignedEncoding (BitVec.ofNat 32 w) s
  | _ => execUnassignedEncoding (BitVec.ofNat 32 w) s

/-- The step of a word of major 0x3D (R89). -/
def runMaj3D (w : Nat) (s : State) : Host.Outcome State Fault Refusal :=
  match w / 2 ^ 11 % 16 with
  | 0 => Sys2Proof.Machine.execCrs (bits w 22 4) (bits w 21 1) (bits w 15 6) (bits w 3 8) (bits w 2 1) (bits w 0 2) s
  | 1 => Sys2Proof.Machine.execCag (bits w 22 4) (bits w 21 1) (bits w 15 6) (bits w 3 8) (bits w 2 1) (bits w 0 2) s
  | 2 => Sys2Proof.Machine.execCar (bits w 22 4) (bits w 21 1) (bits w 15 6) (bits w 3 8) (bits w 2 1) (bits w 0 2) s
  | _ => execUnassignedEncoding (BitVec.ofNat 32 w) s

/-- The step of a word of major 0x3E (R89). -/
def runMaj3E (w : Nat) (s : State) : Host.Outcome State Fault Refusal :=
  match w / 2 ^ 16 % 32 with
  | 0 => if fixedField w 15 1 0 && fixedField w 0 5 0 then Sys2Proof.Machine.execMkdown (bits w 22 4) (bits w 21 1) (bits w 13 2) (bits w 5 8) s else execUnassignedEncoding (BitVec.ofNat 32 w) s
  | 1 => if fixedField w 13 3 0 && fixedField w 0 5 0 then Sys2Proof.Machine.execMkget (bits w 22 4) (bits w 21 1) (bits w 5 8) s else execUnassignedEncoding (BitVec.ofNat 32 w) s
  | 2 => if fixedField w 13 3 0 && fixedField w 0 5 0 then Sys2Proof.Machine.execTrmark (bits w 22 4) (bits w 21 1) (bits w 5 8) s else execUnassignedEncoding (BitVec.ofNat 32 w) s
  | 3 => if fixedField w 13 3 0 && fixedField w 0 5 0 then Sys2Proof.Machine.execClkrd (bits w 22 4) (bits w 21 1) (bits w 5 8) s else execUnassignedEncoding (BitVec.ofNat 32 w) s
  | _ => execUnassignedEncoding (BitVec.ofNat 32 w) s

/-- The step of a word of major 0x3F (R89). -/
def runMaj3F (w : Nat) (s : State) : Host.Outcome State Fault Refusal :=
  match w / 2 ^ 19 % 4 with
  | 0 => if fixedField w 21 5 30 then Sys2Proof.Machine.execXimm (bits w 0 19) s else execUnassignedEncoding (BitVec.ofNat 32 w) s
  | 1 => if fixedField w 21 5 30 && fixedField w 11 8 0 then Sys2Proof.Machine.execRep (bits w 10 1) (bits w 9 1) (bits w 8 1) (bits w 6 2) (bits w 0 6) s else execUnassignedEncoding (BitVec.ofNat 32 w) s
  | 2 => if fixedField w 21 5 30 && fixedField w 4 15 0 then Sys2Proof.Machine.execLa (bits w 0 4) s else execUnassignedEncoding (BitVec.ofNat 32 w) s
  | _ => execUnassignedEncoding (BitVec.ofNat 32 w) s

/-- The instruction of a word runs; a word without one raises ILLEGAL (R86, R89). -/
def runWord (w : Word) (s : State) : Host.Outcome State Fault Refusal :=
  match w.toNat / 2 ^ 26 % 64 with
  | 56 => runMaj38 w.toNat s
  | 57 => runMaj39 w.toNat s
  | 58 => runMaj3A w.toNat s
  | 59 => runMaj3B w.toNat s
  | 60 => runMaj3C w.toNat s
  | 61 => runMaj3D w.toNat s
  | 62 => runMaj3E w.toNat s
  | 63 => runMaj3F w.toNat s
  | _ => match decodeLow w.toNat with
    | some i => exec i s
    | none => execUnassignedEncoding (BitVec.ofNat 32 w.toNat) s

/-! ## The issuing set (R20, R24, R35) -/

/-- The issue slot that a sheaf fills next, its word still to be fetched, and the sheaf with its round brought up to date. -/
structure Chosen where
  sheaf : Sheaf
  slot  : Slot

/-- An issue slot for lanes at an address, with pending prefixes (R92). -/
def slotFor (sid : Nat) (a : Addr) (lanes : Mask) (h : Hints) : Slot :=
  { sid := sid, addr := a, group := if h.lanes == 0 then a else h.first, lanes := lanes, acting := lanes, word := 0, rep := h.rep, ximm := h.ximm,
    la := h.la, index := 0 }

/-- SelectIssue for a sheaf that carries no prefix (R20, R24). -/
def Sheaf.chooseFresh (sh : Sheaf) (sid : Nat) : Option Chosen :=
  let r := ({ sh with hints := Hints.none, second := none }).selectIssue
  r.2.map (fun a => { sheaf := r.1, slot := slotFor sid a (r.1.lanesAt r.1.live a) Hints.none })

/-- The issuing set: lanes that carry prefixes go on (R92); the others that wait at the same instruction follow them (R35);
else SelectIssue. -/
def Sheaf.choose (sh : Sheaf) (sid : Nat) : Option Chosen :=
  let carry := sh.hints.lanes &&& sh.live
  match sh.second with
  | some x =>
    let others := sh.lanesAt (x.lanes &&& sh.live) x.addr
    if others == 0 then (sh.dropSecond x).chooseFresh sid
    else some { sheaf := sh, slot := slotFor sid x.addr others Hints.none }
  | none =>
    if carry == 0 then sh.chooseFresh sid
    else match sh.minPc? carry with
      | some a => some { sheaf := sh, slot := slotFor sid a (sh.lanesAt carry a) sh.hints }
      | none => none

/-! ## The fetch -/

/-- How a fetch ends: the word, a fault, a wait for a migrating page, or for a port that carries nothing (R341). -/
inductive Fetched1 where
  | word (w : Word)
  | fault (f : SysFault)
  | wait (entry : Nat)
  | far (paddr : Nat)
  deriving DecidableEq, Repr

/-- A bound kernel's code lies in its image (R319). -/
def Kernel.inImage (k : Kernel) (a : Addr) : Bool :=
  !k.bound || (decide (k.desc.code.toNat ≤ a.toNat) && decide (a.toNat + 4 ≤ k.desc.code.toNat + k.desc.codelen))

/-- The word at a translated address, its home's check passed (R291, R318, R338). -/
def State.fetchAt (s : State) (sh : Sheaf) (t : Trans) : Fetched1 :=
  let part := s.partOf sh
  let key := (s.keySlot part t.kh).key
  if !s.reachable (sliceOf sh.core) t.paddr then .far t.paddr
  else match s.homeRefusal part (s.ctxOf sh) t.paddr t.kh key with
    | some code => .fault (SysFault.ending code 0 t.paddr)
    | none =>
      if s.poisoned t.paddr 4 then .fault (SysFault.ending fMemErr 0 t.paddr)
      else .word (BitVec.ofNat 32 (s.viewNat key t.paddr 4))

/-- The fetch of the word at an address by a sheaf (R5, R83, R84, R155). -/
def State.fetchWord (s : State) (sh : Sheaf) (a : Addr) : Fetched1 × State :=
  if !canonical a then (.fault (SysFault.replayable fProt rCanon a 0 0), s)
  else
    let r := s.xlateTuft sh.tid sh.core a false
    match r.1 with
    | .fault code reason va detail => (.fault (SysFault.replayable code reason va 0 detail), r.2)
    | .memErr pa => (.fault (SysFault.ending fMemErr 0 pa), r.2)
    | .migrating entry => (.wait entry, r.2)
    | .far pa => (.far pa, r.2)
    | .ok t =>
      if !t.x || !(match s.kernelOf? sh with | some k => k.inImage a | none => true) then (.fault (SysFault.replayable fProt rExec a 0 0), r.2)
      else (r.2.fetchAt sh t, r.2)

/-! ## An issue slot (R20, R246, R399) -/

/-- An issue slot is sampled for Teasel (R398, R399). -/
def State.sampleIssue (s : State) (core quad : Nat) (sh : Sheaf) (a : Addr) : State :=
  let t := (s.slice (sliceOf core)).teasel
  if field t.ctl.toNat 0 2 == 0 then s
  else
    let n := t.slots.getD (core * 4 + quad) 0 + 1
    let full := decide (2 ^ (field t.ctl.toNat 4 4 + 8) ≤ n)
    let s1 := s.modSlice (sliceOf core) (fun x => { x with teasel := { x.teasel with slots := x.teasel.slots.put (core * 4 + quad) (if full then 0 else n) } })
    if full then s1.traceSheaf sh 4 (payload2 a.toNat quad) else s1

/-- A sheaf's issue slot: the issuing set, the fetch, the instruction. -/
def State.issueSheaf (s : State) (core quad sid : Nat) (sh : Sheaf) : Host.Outcome State Fault Refusal :=
  match sh.choose sid with
  | none => .next s
  | some c =>
    let s1 := s.setSheaf sid c.sheaf
    match s1.fetchWord c.sheaf c.slot.addr with
    | (.word w, s2) => runWord w { s2.sampleIssue core quad c.sheaf c.slot.addr with slot := { c.slot with word := w } }
    | (.fault f, s2) => .next (s2.raiseFault c.slot f).settle
    | (.wait entry, s2) => .next (s2.beginWait c.slot (.migrate entry))
    | (.far pa, s2) => .next ({ s2 with nextId := s2.nextId + 1 }.beginWait c.slot (.link s2.nextId pa 0))

/-- An issue slot of a quadrant (R246): its sheaf is charged for the slot and issues. -/
def State.issueQuad (s : State) (core quad : Nat) : Host.Outcome State Fault Refusal :=
  match s.chosen? core quad with
  | none => .next s
  | some (sid, _) =>
    let s1 := (s.chargeSlot core quad sid).closeWindow sid
    match s1.sheaf? sid with
    | some sh => s1.issueSheaf core quad sid sh
    | none => .next s1

end Sys2Proof.Machine
end

