-- ==== Sys2Proof/Machine/Progress.lean ====
section
/-!
DEFINITION. What can happen next by itself: issue slots, sends and their answers, results, engines, launch units, walkers, tufts and
kernels. Which of several happens is free.
-/
namespace Sys2Proof.Machine

/-! ## What is due -/

/-- The quadrants that have a sheaf to issue (R246). -/
def State.dueIssues (s : State) : List Due :=
  let ks : Map Unit := s.sheaves.foldl (fun (m : Map Unit) e => if s.mayIssue e.1 e.2 then m.put (e.2.core * 4 + e.2.quadrant) () else m) []
  (Map.keys ks).map (fun k => .issue (k / 4) (k % 4))

/-- What the sheaves have in flight (R98, R158, R193). -/
def State.dueFlight (s : State) : List Due :=
  s.sheaves.flatMap (fun e =>
    if e.2.state == .suspended then []
    else
      (if e.2.buf.isEmpty then [] else [.send e.1]) ++
      (e.2.pend.filter (fun p => p.lanes != 0 || p.window == 0)).filterMap (fun p => match p.kind with
        | .load _ _ => if s.stuckResult e.1 e.2 p then none else some (.load e.1 p.id)
        | .value => some (.result e.1 p.id)
        | .atomic => none) ++
      (if e.2.mops.any (fun m => !m.done) then [.matrix e.1] else [])) ++
  (s.msgs.filter s.carried).map (fun m => if m.performed then .answer m.id else .perform m.id)

/-- What the copy engines and the collective engines have to do (R201, R351). -/
def State.dueEngines (s : State) : List Due :=
  s.cores.flatMap (fun e =>
    (if (s.startable? e.1).isSome then [.copyStart e.1] else []) ++
    (e.2.copies.filter (fun c => c.started && c.token.isNone)).flatMap (fun c =>
      (if c.outcome.isSome && s.engineOut c.id then [] else [.copyEnd e.1 c.id]) ++ (if c.early then [] else [.copyEarly e.1 c.id]))) ++
  s.parts.flatMap (fun e =>
    let groups : Map Unit := e.2.slices.foldl (fun (m : Map Unit) x => (s.slice x).colls.foldl (fun (m : Map Unit) c => m.put c.group ()) m) []
    (Map.keys groups).flatMap (fun g =>
      (match (s.collSeqs e.2 g false).find? (s.collReady e.2 g) with | some _ => [.join e.1 g] | none => []) ++
      (if (s.collSeqs e.2 g true).isEmpty then [] else [.collect e.1 g])))

/-- What Yarrow has to do (R242, R243): admission passes of cores with a PARKED sheaf or one whose lease rose, the age bound of PARKED
sheaves, windows that have ended. -/
def State.dueAdmission (s : State) : List Due :=
  let ks : Map Unit := s.sheaves.foldl (fun (m : Map Unit) e =>
    if e.2.state == .parked || (e.2.admitted && e.2.lease.seen < s.leaseOf e.2) then m.put e.2.core () else m) []
  (Map.keys ks).map .admission ++
  s.sheaves.flatMap (fun e =>
    (if e.2.state == .parked then [.age e.1] else []) ++ (if 1024 ≤ e.2.lease.memInstrs then [.window e.1] else []))

/-- A QUEUED kernel enters DISPATCHING (R234, R264): of a slice's launch unit, the one of the lowest PRIO, and of these the first. -/
def State.nextDispatch? (s : State) (slice : Nat) : Option Nat :=
  (s.kernels.foldl (fun (acc : Option (Nat × Kernel)) e =>
    if e.2.slice == slice && e.2.state == .queued && s.ctxActive e.2.part e.2.ctx then
      (match acc with | none => some e | some b => if e.2.prio < b.2.prio then some e else acc)
    else acc) none).map Prod.fst

/-- What kernels and tufts wait for (R34, R233, R234, R235, R247, R262, R293). -/
def State.dueKernels (s : State) : List Due :=
  s.kernels.flatMap (fun e =>
    (if e.2.recordDue && !e.2.ended && (s.queue e.2.slice e.2.entry).access.isNone then [.record e.1] else []) ++
    (match e.2.state with
    | .dispatching =>
      if e.2.access.isSome || e.2.prefault.isSome || s.farHeld e.2.slice e.2.far then [] else if e.2.stage == 5 then [.run e.1] else [.dispatch e.1]
    | .complete | .faulted => if e.2.recordDue || !e.2.signalled then [.signal e.1] else []
    | _ => [])) ++
  s.tufts.flatMap (fun e =>
    match e.2.state with
    | .resident =>
      (if (s.sheavesOf e.2).all (fun x => x.2.state == .exited) then [.completeTuft e.1] else []) ++
      (if e.2.forced then [.force e.1]
       else match s.kernel? e.2.kid with | some k => if s.suspends e.1 e.2 k then [.suspend e.1] else [] | none => []) ++
      (match s.kernel? e.2.kid with | some k => if 0 < k.desc.runmax && !e.2.parked then [.time e.1] else [] | none => [])
    | .aborted => [.abort e.1]
    | _ => [])

/-- What a slice's launch unit has to do for its queues (R256 to R265, R405). -/
def State.dueQueues (s : State) (slice : Nat) (x : Slice) : List Due :=
  x.queues.flatMap (fun q => if q.2.access.isSome then [] else
    (if q.2.cmd == 2 then [.destroy slice q.1] else if q.2.cmd != 0 then [.register slice q.1] else []) ++
    (if q.2.headerDue || q.2.state == 4 || (q.2.state == 3 && q.2.head.isNone && s.queueQuiet slice q.1) then [.header slice q.1] else []) ++
    (if s.watchWakes slice q.1 then [.wake slice q.1] else []) ++
    (match q.2.head with
     | some p => if packetType p.bytes == 1 && q.2.started then [] else [.packet slice q.1]
     | none => [])) ++
  (match s.nextQueue? slice with | some e => [.fetch slice e] | none => [])

/-- What a slice's launch unit has to place (R234, R238, R248, R264). -/
def State.duePlaces (s : State) (slice : Nat) : List Due :=
  (match s.nextDispatch? slice with | some kid => [.dispatch kid] | none => []) ++
  (match s.nextClaim? slice with
   | some c => [match c.back with | some tid => .reload tid | none => .place c.kid]
   | none => [])

/-- What the launch units, walkers, ports and Teasel units have to do (R256, R258, R261, R284, R294, R296, R345, R400), and the ends of
recalls and of removals (R307, R311). -/
def State.dueSlices (s : State) : List Due :=
  s.slices.flatMap (fun e =>
    s.dueQueues e.1 e.2 ++ s.duePlaces e.1 ++
    (if e.2.walker.go == 1#32 then [Due.shoot e.1] else []) ++
    (if (e.2.queues.any (fun q => match q.2.access with | some (n, _) => n == 0 | none => false)) ||
        s.sheaves.any (fun x => sliceOf x.2.core == e.1 && (match x.2.wait with | some w => (match w.kind with | .migrate _ => true | _ => false) | none => false))
     then [.walks e.1] else []) ++
    (if e.2.teasel.held.isEmpty then [] else [.drain e.1]) ++
    (if e.2.port.carries && 2 ^ 63 ≤ e.2.port.number then [.rekey e.1] else []) ++
    (if e.2.recalled || s.writesOut e.1 then [.recall e.1] else [])) ++
  s.slices.flatMap (fun e => match e.2.owner with
    | some part => if natAt e.2.keyBlock 0 4 != 0 && !s.keyBusy part then [Due.keyCmd e.1] else []
    | none => []) ++
  s.parts.flatMap (fun e => (if e.2.shoots.isEmpty then [] else [Due.shot e.1]) ++ (if s.layoutReady e.2 then [.layout e.1] else []) ++
    (if e.2.erasing.isSome then [.erase e.1] else []) ++
    e.2.ctxs.flatMap (fun c => if c.2.ending then [.destroyCtx e.1 c.1] else if c.2.cmd != 0 then [.ctxCmd e.1 c.1] else []))

/-- Everything that is due. -/
def State.due (s : State) : List Due :=
  s.dueIssues ++ s.dueFlight ++ s.dueEngines ++ s.dueAdmission ++ s.dueKernels ++ s.dueSlices

/-! ## A happening -/

/-- The packet at the head of a queue acts (R260, R261). -/
def State.runPacket (s : State) (slice entry : Nat) : Host.Outcome State Fault Refusal :=
  match (s.queue slice entry).head.map (fun p => packetType p.bytes) with
  | some 1 => execPacketKernel slice entry s
  | some 2 => execPacketWaitall slice entry s
  | some 3 => execPacketWaitany slice entry s
  | some 4 => execPacketSignal slice entry s
  | some 5 => execPacketHold slice entry s
  | some 6 => execPacketRelease slice entry s
  | _ => execPacketNop slice entry s

/-- A send's answer (R166, R170). -/
def State.runAnswer (s : State) (mid : Nat) : Host.Outcome State Fault Refusal :=
  match s.msg? mid with
  | some m => (match m.kind with | .write => execWriteAck mid s | .atomic _ _ _ _ _ _ => execAtomicReply mid s)
  | none => .next s

/-- A load's data returns for some of its lanes (R157, R384). -/
def State.runLoad (s : State) (sid pid : Nat) : Host.Outcome State Fault Refusal :=
  let r := s.freeLanes (match (s.sheaf? sid).bind (fun sh => sh.pend? pid) with | some p => p.lanes | none => 0)
  execLoadReturn sid pid r.1 r.2

/-- Some time passes for a resident tuft, how much is free; past RUNMAX the check of R240 acts. -/
def State.runTime (s : State) (tid : Nat) : Host.Outcome State Fault Refusal :=
  let s1 := State.modTuft { s with freeCount := s.freeCount + 1 } tid (fun t => { t with ran := t.ran + 1 + Config.freeNat s.freeCount })
  match s1.tuft? tid with
  | some t => if (match s1.kernel? t.kid with | some k => k.desc.runmax | none => 0) < t.ran then execRunmaxExpiry tid s1 else .next s1
  | none => .next s1

/-- A happening takes place. -/
def runDue (d : Due) (s : State) : Host.Outcome State Fault Refusal :=
  match d with
  | .issue core quad => s.issueQuad core quad
  | .send sid => execStoreBufferSend sid s
  | .perform mid => execWritePerform mid s
  | .answer mid => s.runAnswer mid
  | .load sid pid => s.runLoad sid pid
  | .result sid pid => execLongLatencyResult sid pid s
  | .matrix sid => execMatrixOpComplete sid s
  | .copyStart core => execCopyStart core s
  | .copyEnd core id => execCopyComplete core id s
  | .copyEarly core id => .next ((s.copyEarly core id).settle)
  | .join part group => execCollectiveJoin part group s
  | .collect part group => execCollectiveComplete part group s
  | .admission core => execAdmissionPass core s
  | .age sid => execAgeBoundExpiry sid s
  | .window sid => .next (s.closeWindow sid)
  | .time tid => s.runTime tid
  | .erase part => .next ((s.endErase part).settle)
  | .destroyCtx part ctx => .next ((s.endDestroy part ctx).settle)
  | .ctxCmd part ctx => .next ((s.ctxTakeAt (s.firstSlice part) part ctx (s.ctx part ctx).cmd.toNat (ctxCmdOffset ctx)).settle)
  | .keyCmd slice => .next ((s.takeKey slice).settle)
  | .dispatch kid => execKernelDispatch kid s
  | .run kid => execKernelRunning kid s
  | .record kid => .next ((s.writeRecordOf kid).settle)
  | .place kid => execTuftPlacement kid s
  | .signal kid => execCompletionSignal kid s
  | .completeTuft tid => execTuftComplete tid s
  | .suspend tid => execTuftSuspend tid s
  | .force tid => execForcedSuspension tid s
  | .reload tid => execTuftReload tid s
  | .abort tid => execTuftAbort tid s
  | .register slice entry => execQueueRegister slice entry s
  | .destroy slice entry => execQueueDestroy slice entry s
  | .header slice entry => .next (((s.writeHeader slice entry).judgeQueue slice entry).settle)
  | .wake slice entry => execQueueWake slice entry s
  | .fetch slice entry => execPacketFetch slice entry s
  | .packet slice entry => s.runPacket slice entry
  | .walks slice => execWalkWake slice s
  | .shoot slice => execShootdownGo slice s
  | .shot part => execShootdownComplete part s
  | .drain slice => execTeaselDrain slice s
  | .rekey slice => execRekey slice s
  | .recall slice => .next ((if (s.slice slice).recalled then s.judgeRecall slice else s.writeOut slice).settle)
  | .layout part => .next ((s.endRequest part).settle)

/-- The happenings that are due, those that have been due longest first. -/
def State.inLine (s : State) : List Due :=
  let now := s.due
  let kept := s.line.filter (fun d => now.contains d)
  kept ++ now.filter (fun d => !kept.contains d)

/-- One of the happenings that are due takes place: one that nothing settles, but the one that has been due longest after at most
Config.patience others (R222, R253). -/
def State.progress (s : State) : Host.Outcome State Fault Refusal :=
  match s.inLine with
  | [] => .next s
  | d :: ds =>
    if ds.isEmpty || Config.patience ≤ s.streak then runDue d { s with line := ds, streak := 0 }
    else
      let r := s.choose (ds.length + 1)
      let e := (d :: ds).getD r.1 d
      runDue e { r.2 with line := (d :: ds).erase e, streak := if r.1 == 0 then 0 else s.streak + 1 }

/-! ## A place for one instruction -/

/-- Where placeWord puts its page: the address of its code, and the frame. -/
def probeCode : Addr := 0x10000

/-- The extent of placeWord's page: readable, writable, executable, clear. -/
def probeExtent : Extent :=
  { page := 1, pages := 1, frame := 1, kh := 0, grain := 0, fresh := false, w := true, x := true, remote := false, rangeR := true, rangeW := true }

/-- The kernel of placeWord: RUNNING, one tuft of one sheaf, all of it placed. -/
def probeKernel : Kernel :=
  { kernelOfPacket [] 0 0 none 0 0 2 with
    nx := 1, ny := 1, nz := 1, state := .draining, next := 1, signalled := true,
    desc := { Desc.zero with code := probeCode }, extents := [probeExtent], cores := [0] }

/-- The sheaf of placeWord: ACTIVE in slot 0 of core 0. -/
def probeSheaf : Sheaf := { newSheaf probeKernel.desc 0 0 0 0 0 0 with state := .active, starve := 512 }

/-- The tuft of placeWord. -/
def probeTuft : Tuft := newTuft probeKernel 0 0 0 0 0 0 [0]

/-- The partition of placeWord: number 0, RUNNING, slice 0 of package 0. -/
def probePartition : Partition :=
  { state := .running, slices := [0], memBase := [(0, 0)], routes := [], lseq := 1, ms := [], sdseq := 0, sddone := 1, shoots := [],
    ctxs := [(0, { Ctx.zero with state := .active })], keys := [], tokens := [], nextToken := 1, colls := [], mailbox := [] }

/-- A word stands where the next step fetches: in memory, at the code of a one-sheaf tuft of partition 0 on core 0, whose quadrant
issues next. -/
def State.placeWord (s : State) (w : Word) : State :=
  let s1 := { s with
    sheaves := s.sheaves.put 0 probeSheaf, tufts := s.tufts.put 0 probeTuft, kernels := s.kernels.put 0 probeKernel,
    parts := s.parts.put 0 probePartition, frames := s.frames.put 1 0x80000000, nextId := max s.nextId 1, agenda := [], pinned := some 0, line := [], streak := 0,
    poison := s.poison.filter (fun n => n / 2048 != 1), lostSets := [] }
  ((s1.modSlice 0 (fun x => { x with owner := some 0, recalled := false })).modCore 0 (fun k => { k with quads := List.replicate 4 { last := none, run := 0, yield := false } })).putClear
    0x10000 (leBytes 4 w.toNat)

end Sys2Proof.Machine
end

