-- ==== Sys2Proof/Machine/Step.lean ====
section
/-!
DEFINITION. The step of the machine: what the agenda holds comes first, then the quadrant whose turn is settled, else one of the
happenings that are due; and the placement of one instruction where the next step fetches it.
-/
namespace Sys2Proof.Machine

/-- One step of the machine. -/
def step (s : State) : Host.Outcome State Fault Refusal :=
  match s.agenda with
  | i :: rest => exec i { s with agenda := rest }
  | [] =>
    match s.pinned with
    | some q => { s with pinned := none }.issueQuad (q / 4) (q % 4)
    | none => s.progress

/-- A state with an instruction of nbits bits stored where the step fetches next, the bits above zero. -/
def State.withFetchWord (s : State) (nbits w : Nat) : State := s.placeWord (BitVec.ofNat 32 (w % 2 ^ nbits))

end Sys2Proof.Machine
end

