-- ==== Sys2Proof/Safety.lean ====
section
/-!
DEFINITION. The terms in which statements about the machine are made: when a sheaf is ready to issue, what the issue of any
instruction may change in a sheaf, and what counts as a safe run.
-/
namespace Sys2Proof.Machine

/-! ## When an instruction has its effect -/

/-- A sheaf stands in the issue slot and nothing that is pending concerns it: it may issue, it has no result and no matrix
operation in flight, no REP is attached, no armed loop ends here. These are conditions on the state alone; which role,
which guard and which registers an instruction needs besides is said with each. -/
structure Ready (s : State) (sh : Sheaf) : Prop where
  there   : s.sheaf? s.slot.sid = some sh
  issuing : sh.issuing = true
  norep   : s.slot.rep = none
  nopend  : sh.pend = []
  nomops  : sh.mops = []
  noend   : sh.atLoopEnd s.slot.addr = false

/-- A sheaf stands in the issue slot, no armed loop ends there; what it has in flight is open. -/
structure Standing (s : State) (sh : Sheaf) : Prop where
  there   : s.sheaf? s.slot.sid = some sh
  issuing : sh.issuing = true
  noend   : sh.atLoopEnd s.slot.addr = false

/-- The targets of XIMM (R93): immediates, global and local accesses, loads of the sheaf, atomics of the lanes, and the copy that
widens its scale bytes. -/
def takesXimm : Instr → Bool
  | .smovi .. | .saddi .. => true
  | .ldg .. | .ldgW .. | .ldgQ .. | .ldgU8 .. | .ldgS8 .. | .ldgU16 .. | .ldgS16 .. => true
  | .stg .. | .stgW .. | .stgQ .. | .stgB8 .. | .stgB16 .. | .pfg .. => true
  | .ldl .. | .ldlW .. | .ldlQ .. | .ldlU8 .. | .ldlS8 .. | .ldlU16 .. | .ldlS16 .. => true
  | .stl .. | .stlW .. | .stlQ .. | .stlB8 .. | .stlB16 .. => true
  | .lds .. | .ldsW .. | .ldsQ .. | .ldsO .. | .ldp .. | .ldls .. => true
  | .atomg .. | .atoml .. | .cpyXpnd .. => true
  | _ => false

/-- The targets of LA (R96): loads of bytes and halves, divisions and square roots, shuffles, atomics of the lanes. -/
def takesLa : Instr → Bool
  | .ldgU8 .. | .ldgS8 .. | .ldgU16 .. | .ldgS16 .. | .ldlU8 .. | .ldlS8 .. | .ldlU16 .. | .ldlS16 .. => true
  | .sdivS .. | .sdivU .. | .sremS .. | .sremU .. | .sfdiv .. | .sfsqrt .. => true
  | .shflIdx .. | .shflXor .. | .shflUp .. | .shflDn .. => true
  | .atomg .. | .atoml .. => true
  | _ => false

/-- What is attached to the instruction, REP apart, may stand before it (R92, R93, R96). -/
structure Prefixed (i : Instr) (s : State) : Prop where
  ximm : s.slot.ximm = none ∨ takesXimm i = true
  la   : s.slot.la = none ∨ takesLa i = true

/-- The issue slot as the instruction of guard p[g], sensed by n, finds it: its acting lanes are judged (R44, R105). -/
def State.here (s : State) (sh : Sheaf) (g n : Nat) : Slot :=
  { s.slot with index := 0, acting := sh.acting g n s.slot.lanes }

/-- The sheaf as an instruction without a REP prefix finds it: no repeats are left to run, and no group has begun (R95, R99). -/
def Sheaf.begun (sh : Sheaf) : Sheaf := { sh with reprem := 0, began := none }

/-- The state as an instruction without a REP prefix finds it. -/
def State.begun (s : State) (sh : Sheaf) : State := s.setSheaf s.slot.sid sh.begun

/-- The first name of a result of the counted instruction: a second slot belongs to the instruction of the first (R23, R35). -/
def State.began (s : State) (sh : Sheaf) : Nat := match sh.second with | some x => x.start | none => s.nextId

/-- The conditions of a sheaf-wide write (R50, R51): the issuing set is the live set, the guard has one value in it. -/
structure Wide (s : State) (sh : Sheaf) (g n : Nat) : Prop where
  converged : s.slot.lanes = sh.live
  uniform   : guardUniform (s.here sh g n) = true

/-- What follows a write of varying registers: a result some of whose lanes have been written into them, some not, writes them whole no more
(R56, R99), and under MSTRICT a MATRIX sheaf remembers them (R195 row 1). -/
def Sheaf.noted (x : Sheaf) (regs : List Nat) : Sheaf :=
  let sh := x.overwritten regs
  if modeMstrict sh.mode && sh.role == .matrix then { sh with bWrites := sh.bWrites ++ regs.filter (fun r => !sh.bWrites.contains r) } else sh

/-- A result in flight less its lookahead window, and less what is open of the mark of one that is written in part. -/
def Pending.bare (p : Pending) : Pending := { p with window := 0, whole := p.whole && !p.partly }

/-- A sheaf less what the issue of any instruction may change: lane PCs, fairness round and quantum, pending prefixes, REPREM,
the lookahead windows (a result already written stands in the list only for its window), the count of its instructions, MSTRICT's
list of writes, and ACTIVE or TRAPPED, which follows from handler status. -/
def Sheaf.still (sh : Sheaf) : Sheaf :=
  { sh with pcv := [], quantum := 0, round := Round.none, hints := Hints.none, second := none, reprem := 0, began := none,
            bWrites := [], lease := { sh.lease with counted := 0 }, state := .active, wait := none,
            pend := (sh.pend.filter (fun p => p.lanes != 0)).map Pending.bare }

/-- The issuing lanes stand after the instruction, every other lane where it stood (R19). -/
def Advanced (s : State) (sh sh' : Sheaf) : Prop :=
  ∀ l, l < 32 → sh'.pc l = if hasLane (s.slot.lanes &&& sh.live) l then addrAdd s.slot.addr 4 else sh.pc l

/-! ## Invariants -/

/-- What every step keeps: memory in its canonical form. -/
def State.Inv (s : State) : Prop := memWf s.mem = true

/-- A step goes on. -/
def StepsTo (s t : State) : Prop := step s = .next t

/-- A run of some steps. -/
inductive Runs : Nat → State → State → Prop where
  | here (s : State) : Runs 0 s s
  | step {n : Nat} {s t u : State} (h : StepsTo s t) (r : Runs n t u) : Runs (n + 1) s u

/-- A safe run of n steps: it meets neither a fault nor a refusal, and keeps the invariant. -/
def SafeRun (n : Nat) (s : State) : Prop := ∃ t, Runs n s t ∧ t.Inv

end Sys2Proof.Machine
end

