-- ==== Sys2Proof/Safety/Lanes.lean ====
section
/-!
DEFINITION. What each varying instruction writes, as the tables of R111 to R121 give it: the terms of the statements about
them.
-/
namespace Sys2Proof.Machine

/-! ## Arithmetic of the tables -/

/-- Clamp of an exact integer (R111). -/
def clamped (lo hi v : Int) : Word := BitVec.ofInt 32 (max lo (min hi v))

/-- Bits of a word of a result of a format. -/
def floatWord (r : Res) : Word × Word := (BitVec.ofNat 32 r.1, r.2)

/-- An integer result with its flags, as a word (R68). -/
def toWord (r : Int × Word) : Word × Word := (BitVec.ofInt 32 r.1, r.2)

/-- VBFE.U: pos = B[4:0], w = Min(B[13:8], 32) (R113). -/
def bitField (a b : Word) : Word :=
  BitVec.ofNat 32 (a.toNat / 2 ^ (b.toNat % 32) % 2 ^ min (b.toNat / 2 ^ 8 % 64) 32)

/-- VBFE.S (R113): the field read as a signed number of w bits, 0 for w = 0. -/
def bitFieldS (a b : Word) : Word :=
  BitVec.ofInt 32 ((a.toInt / 2 ^ (b.toNat % 32)).bmod (2 ^ min (b.toNat / 2 ^ 8 % 64) 32))

/-- VBFI (R113): w low bits of VA replace those of VD from pos upward. -/
def bitInsert (x a b : Word) : Word :=
  let mask : Word := BitVec.ofNat 32 ((2 ^ min (b.toNat / 2 ^ 8 % 64) 32 - 1) * 2 ^ (b.toNat % 32))
  (x &&& ~~~mask) ||| ((a <<< (b.toNat % 32)) &&& mask)

/-- Byte k of VPERMB (R113). -/
def permuted (a b : Word) (k : Nat) : Byte :=
  let s := b.toNat / 16 ^ k % 16
  let x : Byte := (a >>> (8 * (s % 4))).setWidth 8
  if s.testBit 2 then 0 else if s.testBit 3 then (if x.msb then 0xFF else 0) else x

/-- VPERMB (R113). -/
def bytePermute (a b : Word) : Word := permuted a b 3 ++ permuted a b 2 ++ permuted a b 1 ++ permuted a b 0

/-- A BF16 rule on both halves, the flags of both ORed (R115). -/
def perHalf (f : Nat → Nat → Nat → Res) (x a b : Word) : Word × Word :=
  let lo := f (x.toNat % 65536) (a.toNat % 65536) (b.toNat % 65536)
  let hi := f (x.toNat / 65536) (a.toNat / 65536) (b.toNat / 65536)
  (BitVec.ofNat 32 (hi.1 * 65536 + lo.1), lo.2 ||| hi.2)

/-- A value of k bits into part p of VD, the bits above and below kept (R116). -/
def intoPart (k p : Nat) (x : Word) (r : Res) : Word × Word :=
  (BitVec.ofNat 32 (x.toNat / 2 ^ (k * p + k) * 2 ^ (k * p + k) + r.1 % 2 ^ k * 2 ^ (k * p) + x.toNat % 2 ^ (k * p)), r.2)

/-! ## Results lane by lane -/

/-- What a varying instruction writes: its guard, its destination v(d), whether it belongs to a floating-point class (R110), the
word and the flags of lane l from the registers before it, and the mark of the value (R107). -/
structure LaneRule where
  g     : Nat
  n     : Nat
  d     : Nat
  float : Bool
  val   : Sheaf → Nat → Word × Word
  mark  : Sheaf → Mark

/-- A rule of the VV format (R106, R107): f takes VD, VA and B. -/
def LaneRule.vv (float readsD : Bool) (g : BitVec 4) (n : BitVec 1) (d a : BitVec 5) (b : BitVec 8)
    (f : Word → Word → Word → Word × Word) : LaneRule :=
  { g := g.toNat, n := n.toNat, d := d.toNat, float := float,
    val := fun sh l => f (sh.readV d.toNat l) (sh.readV a.toNat l) (sh.operand b.toNat l),
    mark := fun sh => maxMark (maxMark (sh.vreg a.toNat).mark (sh.operandMark b.toNat)) (if readsD then (sh.vreg d.toNat).mark else 0) }

/-- A rule of the VC format, and of the unary VV instructions (R106, R107): f takes VD and B. -/
def LaneRule.vc (float readsD : Bool) (g : BitVec 4) (n : BitVec 1) (d : BitVec 5) (b : BitVec 8) (f : Word → Word → Word × Word) : LaneRule :=
  { g := g.toNat, n := n.toNat, d := d.toNat, float := float,
    val := fun sh l => f (sh.readV d.toNat l) (sh.operand b.toNat l),
    mark := fun sh => maxMark (sh.operandMark b.toNat) (if readsD then (sh.vreg d.toNat).mark else 0) }

/-- VRANK (R121): the number of stored 1 bits of the predicate in the lanes below. -/
def LaneRule.rank (g : BitVec 4) (n : BitVec 1) (d : BitVec 5) (a : BitVec 4) : LaneRule :=
  { g := g.toNat, n := n.toNat, d := d.toNat, float := false,
    val := fun sh l => (BitVec.ofNat 32 (popCount (BitVec.ofNat 32 ((sh.preg a.toNat).val.toNat % 2 ^ l))), 0),
    mark := fun sh => (sh.preg a.toNat).mark }

/-- The rule of each varying instruction that writes v(d) at once. -/
def laneRule : Instr → Option LaneRule
  | .vadd g n d a b => some (.vv false false g n d a b (fun _ a b => (a + b, 0)))
  | .vsub g n d a b => some (.vv false false g n d a b (fun _ a b => (a - b, 0)))
  | .vsubr g n d a b => some (.vv false false g n d a b (fun _ a b => (b - a, 0)))
  | .vminS g n d a b => some (.vv false false g n d a b (fun _ a b => (if b.toInt < a.toInt then b else a, 0)))
  | .vmaxS g n d a b => some (.vv false false g n d a b (fun _ a b => (if a.toInt < b.toInt then b else a, 0)))
  | .vminU g n d a b => some (.vv false false g n d a b (fun _ a b => (if b.toNat < a.toNat then b else a, 0)))
  | .vmaxU g n d a b => some (.vv false false g n d a b (fun _ a b => (if a.toNat < b.toNat then b else a, 0)))
  | .vadifS g n d a b => some (.vv false false g n d a b (fun _ a b => (BitVec.ofNat 32 (a.toInt - b.toInt).natAbs, 0)))
  | .vand g n d a b => some (.vv false false g n d a b (fun _ a b => (a &&& b, 0)))
  | .vor g n d a b => some (.vv false false g n d a b (fun _ a b => (a ||| b, 0)))
  | .vxor g n d a b => some (.vv false false g n d a b (fun _ a b => (a ^^^ b, 0)))
  | .vandn g n d a b => some (.vv false false g n d a b (fun _ a b => (a &&& ~~~b, 0)))
  | .vshl g n d a b => some (.vv false false g n d a b (fun _ a b => (a <<< b.toNat, 0)))
  | .vshrU g n d a b => some (.vv false false g n d a b (fun _ a b => (a >>> b.toNat, 0)))
  | .vshrS g n d a b => some (.vv false false g n d a b (fun _ a b => (a.sshiftRight b.toNat, 0)))
  | .vrotl g n d a b => some (.vv false false g n d a b (fun _ a b => (a.rotateLeft (b.toNat % 32), 0)))
  | .vmul g n d a b => some (.vv false false g n d a b (fun _ a b => (a * b, 0)))
  | .vmulhS g n d a b => some (.vv false false g n d a b (fun _ a b => (((a.signExtend 64 * b.signExtend 64) >>> 32).setWidth 32, 0)))
  | .vmulhU g n d a b => some (.vv false false g n d a b (fun _ a b => (((a.setWidth 64 * b.setWidth 64) >>> 32).setWidth 32, 0)))
  | .vmad g n d a b => some (.vv false true g n d a b (fun x a b => (x + a * b, 0)))
  | .vaddsS g n d a b => some (.vv false false g n d a b (fun _ a b => (clamped (-2147483648) 2147483647 (a.toInt + b.toInt), 0)))
  | .vsubsS g n d a b => some (.vv false false g n d a b (fun _ a b => (clamped (-2147483648) 2147483647 (a.toInt - b.toInt), 0)))
  | .vaddsU g n d a b => some (.vv false false g n d a b (fun _ a b => (clamped 0 4294967295 ((a.toNat : Int) + b.toNat), 0)))
  | .vsubsU g n d a b => some (.vv false false g n d a b (fun _ a b => (clamped 0 4294967295 ((a.toNat : Int) - b.toNat), 0)))
  | .vbfeU g n d a b => some (.vv false false g n d a b (fun _ a b => (bitField a b, 0)))
  | .vbfeS g n d a b => some (.vv false false g n d a b (fun _ a b => (bitFieldS a b, 0)))
  | .vbfi g n d a b => some (.vv false true g n d a b (fun x a b => (bitInsert x a b, 0)))
  | .vpermb g n d a b => some (.vv false false g n d a b (fun _ a b => (bytePermute a b, 0)))
  | .vfadd g n d a b => some (.vv true false g n d a b (fun _ a b => floatWord (fp32.add a.toNat b.toNat)))
  | .vfsub g n d a b => some (.vv true false g n d a b (fun _ a b => floatWord (fp32.sub a.toNat b.toNat)))
  | .vfmul g n d a b => some (.vv true false g n d a b (fun _ a b => floatWord (fp32.mul a.toNat b.toNat)))
  | .vfma g n d a b => some (.vv true true g n d a b (fun x a b => floatWord (fp32.fma false a.toNat b.toNat x.toNat)))
  | .vfnma g n d a b => some (.vv true true g n d a b (fun x a b => floatWord (fp32.fma true a.toNat b.toNat x.toNat)))
  | .vfmin g n d a b => some (.vv true false g n d a b (fun _ a b => floatWord (fp32.minMax false a.toNat b.toNat)))
  | .vfmax g n d a b => some (.vv true false g n d a b (fun _ a b => floatWord (fp32.minMax true a.toNat b.toNat)))
  | .vfcpys g n d a b => some (.vv true false g n d a b (fun _ a b => ((a &&& 0x7FFFFFFF) ||| (b &&& 0x80000000), 0)))
  | .vhadd2 g n d a b => some (.vv true false g n d a b (fun x a b => perHalf (fun _ u v => bf16.add u v) x a b))
  | .vhsub2 g n d a b => some (.vv true false g n d a b (fun x a b => perHalf (fun _ u v => bf16.sub u v) x a b))
  | .vhmul2 g n d a b => some (.vv true false g n d a b (fun x a b => perHalf (fun _ u v => bf16.mul u v) x a b))
  | .vhfma2 g n d a b => some (.vv true true g n d a b (fun x a b => perHalf (fun w u v => bf16.fma false u v w) x a b))
  | .vhmin2 g n d a b => some (.vv true false g n d a b (fun x a b => perHalf (fun _ u v => bf16.minMax false u v) x a b))
  | .vhmax2 g n d a b => some (.vv true false g n d a b (fun x a b => perHalf (fun _ u v => bf16.minMax true u v) x a b))
  | .vpopc g n d b => some (.vc false false g n d b (fun _ b => (BitVec.ofNat 32 ((laneNumbers.filter (fun k => b.getLsbD k)).length), 0)))
  | .vclz g n d b => some (.vc false false g n d b (fun _ b => (BitVec.ofNat 32 (32 - Nat.size b.toNat), 0)))
  | .vbrev g n d b => some (.vc false false g n d b (fun _ b => (b.reverse, 0)))
  | .vmov g n d b => some (.vc false false g n d b (fun _ b => (b, 0)))
  | .vcvtF32Si32 g n d r b => some (.vc true false g n d b (fun _ b => floatWord (intToFp32 (Rm.ofCode r.toNat) b.toInt)))
  | .vcvtF32Ui32 g n d r b => some (.vc true false g n d b (fun _ b => floatWord (intToFp32 (Rm.ofCode r.toNat) b.toNat)))
  | .vcvtSi32F32 g n d r b => some (.vc true false g n d b (fun _ b => toWord (fp32ToInt (Rm.ofCode r.toNat) (-2147483648) 2147483647 b.toNat)))
  | .vcvtUi32F32 g n d r b => some (.vc true false g n d b (fun _ b => toWord (fp32ToInt (Rm.ofCode r.toNat) 0 4294967295 b.toNat)))
  | .vfrint g n d r b => some (.vc true false g n d b (fun _ b => (BitVec.ofNat 32 (fp32Integral (Rm.ofCode r.toNat) b.toNat), 0)))
  | .vcvtF32Bf16 g n d p b => some (.vc true false g n d b (fun _ b => (BitVec.ofNat 32 (bf16.widen (b.toNat / 2 ^ (16 * p.toNat) % 2 ^ 16)), 0)))
  | .vcvtF32E4m3 g n d p b => some (.vc true false g n d b (fun _ b => (BitVec.ofNat 32 (e4m3.widen (b.toNat / 2 ^ (8 * p.toNat) % 2 ^ 8)), 0)))
  | .vcvtF32E5m2 g n d p b => some (.vc true false g n d b (fun _ b => (BitVec.ofNat 32 (e5m2.widen (b.toNat / 2 ^ (8 * p.toNat) % 2 ^ 8)), 0)))
  | .vcvtBf16F32 g n d p b => some (.vc true true g n d b (fun x b => intoPart 16 p.toNat x (bf16.store b.toNat)))
  | .vcvtE4m3F32 g n d p b => some (.vc true true g n d b (fun x b => intoPart 8 p.toNat x (e4m3.store b.toNat)))
  | .vcvtE5m2F32 g n d p b => some (.vc true true g n d b (fun x b => intoPart 8 p.toNat x (e5m2.store b.toNat)))
  | .vfclass g n d b => some (.vc true false g n d b (fun _ b => (BitVec.ofNat 32 (fp32Class b.toNat), 0)))
  | .vfgetexp g n d b => some (.vc true false g n d b (fun _ b => (fp32Exponent b.toNat, 0)))
  | .vfscaleb g n d b => some (.vc true true g n d b (fun x b => floatWord (fp32Scale x.toNat b.toInt)))
  | .vrank g n a d => some (.rank g n d a)
  | _ => none

/-- What a sheaf is after a varying instruction (R105, R107, R108): the acting lanes of v(d) hold the results and the other lanes
what they held; the mark follows R56; every other varying register is as it was; the flags of the acting lanes are ORed
into STATUS; nothing else of the sheaf has changed but its place. -/
structure LaneResult (s : State) (sh sh' : Sheaf) (r : LaneRule) : Prop where
  lanes  : ∀ l, l < 32 → sh'.readV r.d l = if hasLane (s.here sh r.g r.n).acting l then (r.val sh l).1 else sh.readV r.d l
  mark   : (s.here sh r.g r.n).acting ≠ 0 →
    (sh'.vreg r.d).mark = if (s.here sh r.g r.n).acting = sh.live then r.mark sh else maxMark (sh.vreg r.d).mark (r.mark sh)
  others : ∀ p, p ≠ sh.phys r.d → sh'.vregs.getD p VReg.zero = sh.vregs.getD p VReg.zero
  flags  : sh'.status = sh.status ||| orFlags ((lanesOf (s.here sh r.g r.n).acting).map (fun l => (r.val sh l).2))
  frame  : sh'.still = ({ sh with vregs := sh'.vregs, status := sh'.status }).still
  pcs    : Advanced s sh sh'
  idle   : (s.here sh r.g r.n).acting = 0 → sh'.vregs = sh.vregs

end Sys2Proof.Machine
end

