-- ==== Sys2Proof/Safety/Registers.lean ====
section
/-!
DEFINITION. What each instruction writes that changes registers of its own sheaf and nothing else: uniform registers (R128 to
R132), predicates (R119, R120, R134), affine registers (R133), demotions and reductions (R135), results that return later
(R118, R122, R127). These are the terms of the statements about them.
-/
namespace Sys2Proof.Machine

/-- What an instruction does to the registers of its sheaf: its guard; whether it is a sheaf-wide write (R50); whether STAGE
sheaves may not issue it (R31); whether its result returns later, under a name of its own (R98); when its values fit, and the
trap it raises where they do not; its effect, given the state, the slot and the sheaf. -/
structure SheafRule where
  g      : BitVec 4
  n      : BitVec 1
  wide   : Bool
  float  : Bool
  late   : Bool
  fits   : Sheaf → Mask → Bool
  cause  : Nat
  effect : State → Slot → Sheaf → Sheaf

/-- The state after the rule's instruction, but for its sheaf: a late result has taken a name. -/
def SheafRule.after (r : SheafRule) (s : State) : State := if r.late then { s with nextId := s.nextId + 1 } else s

/-- A rule without further conditions. -/
def SheafRule.plain (g : BitVec 4) (n : BitVec 1) (wide : Bool) (effect : State → Slot → Sheaf → Sheaf) : SheafRule :=
  { g := g, n := n, wide := wide, float := false, late := false, fits := fun _ _ => true, cause := 0, effect := effect }

/-- The slot in which an instruction of the rule stands, its acting lanes judged. -/
def SheafRule.slot (r : SheafRule) (s : State) (sh : Sheaf) : Slot := s.here sh r.g.toNat r.n.toNat

/-- The instruction goes on to a state: the rest of the machine is t, settled; its sheaf has become x, but for what the
issue of any instruction changes; its lanes have advanced (R19). -/
def Ends (i : Instr) (s t : State) (sh x : Sheaf) : Prop :=
  ∃ sh', exec i s = .next (t.setSheaf s.slot.sid sh').settle ∧ sh'.still = x.still ∧ Advanced s sh sh'

/-- Every instruction of a table does what the table says of it, where nothing is pending in its sheaf; and nothing where no
lane acts (R105, R126). -/
def Rules (table : Instr → Option SheafRule) : Prop :=
  ∀ (i : Instr) (r : SheafRule) (s : State) (sh : Sheaf), table i = some r → i.wf = true → Ready s sh → Prefixed i s →
    (r.wide = true → Wide s sh r.g.toNat r.n.toNat) → (r.float = true → sh.role ≠ .stage) →
    ((r.slot s sh).acting = 0 → Ends i s s sh sh) ∧
    ((r.slot s sh).acting ≠ 0 → r.fits sh (r.slot s sh).acting = true → Ends i s (r.after s) sh (r.effect s (r.slot s sh) sh.begun))

/-- Where the values do not fit, the instruction raises its trap and writes nothing. -/
def RuleTraps (table : Instr → Option SheafRule) : Prop :=
  ∀ (i : Instr) (r : SheafRule) (s : State) (sh : Sheaf), table i = some r → i.wf = true → Ready s sh → Prefixed i s →
    (r.wide = true → Wide s sh r.g.toNat r.n.toNat) → (r.float = true → sh.role ≠ .stage) →
    (r.slot s sh).acting ≠ 0 → r.fits sh (r.slot s sh).acting = false →
    exec i s = .next (((s.begun sh).trap (r.slot s sh) (trapWord s.slot r.cause 0)).settle)

/-! ## Uniform integers (R128, R130) -/

/-- sd takes a word computed from SD and B; its mark is that of what is read (R126). -/
def SheafRule.ur (readsD : Bool) (g : BitVec 4) (n : BitVec 1) (d b : BitVec 8) (f : Word → Word → Word × Word) : SheafRule :=
  .plain g n true (fun _ _ sh =>
    let x := f (sh.readU (d.toNat - 64)) (sh.readU (b.toNat - 64))
    (sh.writeU (d.toNat - 64) x.1
      (maxMark (sh.ureg (b.toNat - 64)).mark (if readsD then (sh.ureg (d.toNat - 64)).mark else 0))).raise x.2)

/-- 1 or 0. -/
def bitWord (c : Prop) [Decidable c] : Word := if c then 1 else 0

/-- SADD.W and SSUB.W: 64 bits, low word first. -/
def SheafRule.urWide (g : BitVec 4) (n : BitVec 1) (d b : BitVec 8) (f : BitVec 64 → BitVec 64 → BitVec 64) : SheafRule :=
  .plain g n true (fun _ _ sh =>
    let x := f (sh.readPair (d.toNat - 64)) (sh.readPair (b.toNat - 64))
    sh.writePair (d.toNat - 64) x (maxMark (sh.pairMark (d.toNat - 64)) (sh.pairMark (b.toNat - 64))))

/-- The immediate of SMOVI and SADDI: 13 bits sign-extended, or below the 19 bits of an XIMM (R93, R130). -/
def immediateWord (slot : Slot) (i : BitVec 13) : Word :=
  match slot.ximm with
  | some p => p ++ i
  | none => i.signExtend 32

/-- The integer functions of 0x10 that complete at once, and the immediates. -/
def uniformRule : Instr → Option SheafRule
  | .sadd g n d b => some (.ur true g n d b (fun d b => (d + b, 0)))
  | .ssub g n d b => some (.ur true g n d b (fun d b => (d - b, 0)))
  | .ssubr g n d b => some (.ur true g n d b (fun d b => (b - d, 0)))
  | .smul g n d b => some (.ur true g n d b (fun d b => (d * b, 0)))
  | .smulhS g n d b => some (.ur true g n d b (fun d b => (((d.signExtend 64 * b.signExtend 64) >>> 32).setWidth 32, 0)))
  | .smulhU g n d b => some (.ur true g n d b (fun d b => (((d.setWidth 64 * b.setWidth 64) >>> 32).setWidth 32, 0)))
  | .sand g n d b => some (.ur true g n d b (fun d b => (d &&& b, 0)))
  | .sor g n d b => some (.ur true g n d b (fun d b => (d ||| b, 0)))
  | .sxor g n d b => some (.ur true g n d b (fun d b => (d ^^^ b, 0)))
  | .sandn g n d b => some (.ur true g n d b (fun d b => (d &&& ~~~b, 0)))
  | .sshl g n d b => some (.ur true g n d b (fun d b => (d <<< b.toNat, 0)))
  | .sshrU g n d b => some (.ur true g n d b (fun d b => (d >>> b.toNat, 0)))
  | .sshrS g n d b => some (.ur true g n d b (fun d b => (d.sshiftRight b.toNat, 0)))
  | .sminS g n d b => some (.ur true g n d b (fun d b => (if b.toInt < d.toInt then b else d, 0)))
  | .smaxS g n d b => some (.ur true g n d b (fun d b => (if d.toInt < b.toInt then b else d, 0)))
  | .sminU g n d b => some (.ur true g n d b (fun d b => (if b.toNat < d.toNat then b else d, 0)))
  | .smaxU g n d b => some (.ur true g n d b (fun d b => (if d.toNat < b.toNat then b else d, 0)))
  | .smov g n d b => some (.ur false g n d b (fun _ b => (b, 0)))
  | .spopc g n d b => some (.ur false g n d b (fun _ b => (BitVec.ofNat 32 (laneNumbers.filter (fun k => b.getLsbD k)).length, 0)))
  | .sclz g n d b => some (.ur false g n d b (fun _ b => (BitVec.ofNat 32 (32 - Nat.size b.toNat), 0)))
  | .sseq g n d b => some (.ur true g n d b (fun d b => (bitWord (d = b), 0)))
  | .ssne g n d b => some (.ur true g n d b (fun d b => (bitWord (d ≠ b), 0)))
  | .ssltS g n d b => some (.ur true g n d b (fun d b => (bitWord (d.toInt < b.toInt), 0)))
  | .ssltU g n d b => some (.ur true g n d b (fun d b => (bitWord (d.toNat < b.toNat), 0)))
  | .saddW g n d b => some (.urWide g n d b (fun d b => d + b))
  | .ssubW g n d b => some (.urWide g n d b (fun d b => d - b))
  | .smovp g n d p => some (.plain g n true (fun _ _ sh => sh.writeU (d.toNat - 64) (sh.preg p.toNat).val (sh.preg p.toNat).mark))
  | .pmovs g n p b => some (.plain g n true (fun _ _ sh => sh.writePAll p.toNat (sh.readU (b.toNat - 64)) (sh.ureg (b.toNat - 64)).mark))
  | .smovi g n d i => some (.plain g n true (fun _ slot sh => sh.writeU (d.toNat - 64) (immediateWord slot i) 0))
  | .saddi g n d i => some (.plain g n true (fun _ slot sh =>
      sh.writeU (d.toNat - 64) (sh.readU (d.toNat - 64) + immediateWord slot i) (sh.ureg (d.toNat - 64)).mark))
  | .agetb g n d a => some (.plain g n true (fun _ _ sh =>
      sh.writeU (d.toNat - 64) (sh.readA (a.toNat - 32)).base (sh.readA (a.toNat - 32)).mark))
  | .agets g n d a => some (.plain g n true (fun _ _ sh =>
      sh.writeU (d.toNat - 64) (sh.readA (a.toNat - 32)).stride (sh.readA (a.toNat - 32)).mark))
  | .agetw g n d a => some (.plain g n true (fun _ _ sh =>
      let x := sh.readA (a.toNat - 32)
      sh.writeU (d.toNat - 64) (bitWord (x.ws = true) + 2 * bitWord (x.wu = true)) x.mark))
  | _ => none

/-! ## Uniform floating point (R129) -/

/-- A floating-point compare (R119): the order of two FP32 patterns, none where either is a NaN; IV is raised on a NaN where
the compare is an ordered one. -/
def compareWord (ordered : Bool) (test : Ordering → Bool) (a b : Word) : Bool × Word :=
  match fp32.compare a.toNat b.toNat with
  | none => (false, if ordered then flagIV else 0)
  | some o => (test o, 0)

/-- The functions of 0x11 that complete at once. -/
def uniformFloatRule : Instr → Option SheafRule
  | .sfadd g n d b => some (.ur true g n d b (fun d b => floatWord (fp32.add d.toNat b.toNat)))
  | .sfsub g n d b => some (.ur true g n d b (fun d b => floatWord (fp32.sub d.toNat b.toNat)))
  | .sfmul g n d b => some (.ur true g n d b (fun d b => floatWord (fp32.mul d.toNat b.toNat)))
  | .sfrcp g n d b => some (.ur false g n d b (fun _ b => floatWord (fp32Rcp b.toNat)))
  | .sfrsq g n d b => some (.ur false g n d b (fun _ b => floatWord (fp32Rsq b.toNat)))
  | .sfmin g n d b => some (.ur true g n d b (fun d b => floatWord (fp32.minMax false d.toNat b.toNat)))
  | .sfmax g n d b => some (.ur true g n d b (fun d b => floatWord (fp32.minMax true d.toNat b.toNat)))
  | .scvtF32Si32 g n d b => some (.ur false g n d b (fun _ b => floatWord (intToFp32 .rn b.toInt)))
  | .scvtF32Ui32 g n d b => some (.ur false g n d b (fun _ b => floatWord (intToFp32 .rn b.toNat)))
  | .scvtSi32F32 g n d b => some (.ur false g n d b (fun _ b => toWord (fp32ToInt .rz (-2147483648) 2147483647 b.toNat)))
  | .scvtUi32F32 g n d b => some (.ur false g n d b (fun _ b => toWord (fp32ToInt .rz 0 4294967295 b.toNat)))
  | .scvtSi32F32Rn g n d b => some (.ur false g n d b (fun _ b => toWord (fp32ToInt .rn (-2147483648) 2147483647 b.toNat)))
  | .sflt g n d b => some (.ur true g n d b (fun d b =>
      (bitWord ((compareWord true (· == .lt) d b).1 = true), (compareWord true (· == .lt) d b).2)))
  | .sfle g n d b => some (.ur true g n d b (fun d b =>
      (bitWord ((compareWord true (· != .gt) d b).1 = true), (compareWord true (· != .gt) d b).2)))
  | .sfeq g n d b => some (.ur true g n d b (fun d b =>
      (bitWord ((compareWord false (· == .eq) d b).1 = true), (compareWord false (· == .eq) d b).2)))
  | _ => none

/-! ## Predicates (R119, R120, R134) -/

/-- The acting lanes of a predicate take a bit of their own each (R44). -/
def SheafRule.toPred (float : Bool) (g : BitVec 4) (n : BitVec 1) (p : BitVec 4) (mark : Sheaf → Mark) (f : Sheaf → Nat → Bool × Word) : SheafRule :=
  { SheafRule.plain g n false (fun _ slot sh =>
      (sh.writeP p.toNat slot.acting (fun l => (f sh l).1) (mark sh)).raise (orFlags ((lanesOf slot.acting).map (fun l => (f sh l).2)))) with float := float }

/-- The condition of a code of VCMP.I (R119). -/
def intTest (c : Nat) (a b : Word) : Bool :=
  match c with
  | 0 => decide (a = b)
  | 1 => decide (a ≠ b)
  | 2 => decide (a.toInt < b.toInt)
  | 3 => decide (a.toInt ≤ b.toInt)
  | 4 => decide (b.toInt < a.toInt)
  | 5 => decide (b.toInt ≤ a.toInt)
  | 6 => decide (a.toNat < b.toNat)
  | 7 => decide (a.toNat ≤ b.toNat)
  | 8 => decide (b.toNat < a.toNat)
  | 9 => decide (b.toNat ≤ a.toNat)
  | 10 => decide (a &&& b ≠ 0)
  | _ => decide (a &&& b = 0)

/-- The condition of a code of VCMP.F and its flag (R119). -/
def floatTest (c : Nat) (a b : Word) : Bool × Word :=
  match fp32.compare a.toNat b.toNat with
  | none => (decide (c = 1 ∨ c = 6), if 2 ≤ c ∧ c ≤ 5 then flagIV else 0)
  | some .lt => (decide (c = 1 ∨ c = 2 ∨ c = 3 ∨ c = 7), 0)
  | some .eq => (decide (c = 0 ∨ c = 3 ∨ c = 5 ∨ c = 7), 0)
  | some .gt => (decide (c = 1 ∨ c = 4 ∨ c = 5 ∨ c = 7), 0)

/-- Bit l of a predicate. -/
def Sheaf.predBit (sh : Sheaf) (p : BitVec 4) (l : Nat) : Bool := hasLane (sh.preg p.toNat).val l

/-- The mark of two predicates. -/
def predMarks (a b : BitVec 4) (sh : Sheaf) : Mark := maxMark (sh.preg a.toNat).mark (sh.preg b.toNat).mark

/-- The compares and the logic of predicates. -/
def predRule : Instr → Option SheafRule
  | .vcmpI g n p a b c => some (.toPred false g n p (fun sh => maxMark (sh.vreg a.toNat).mark (sh.operandMark b.toNat))
      (fun sh l => (intTest c.toNat (sh.readV a.toNat l) (sh.operand b.toNat l), 0)))
  | .vcmpF g n p a b c => some (.toPred true g n p (fun sh => maxMark (sh.vreg a.toNat).mark (sh.operandMark b.toNat))
      (fun sh l => floatTest c.toNat (sh.readV a.toNat l) (sh.operand b.toNat l)))
  | .acmp g n p a b c => some (.toPred false g n p (fun sh => maxMark (sh.readA a.toNat).mark (sh.operandMark b.toNat))
      (fun sh l => (intTest c.toNat ((sh.readA a.toNat).base + BitVec.ofNat 32 l * (sh.readA a.toNat).stride) (sh.operand b.toNat l), 0)))
  | .pand g n d a b => some (.toPred false g n d (predMarks a b) (fun sh l => (sh.predBit a l && sh.predBit b l, 0)))
  | .por g n d a b => some (.toPred false g n d (predMarks a b) (fun sh l => (sh.predBit a l || sh.predBit b l, 0)))
  | .pxor g n d a b => some (.toPred false g n d (predMarks a b) (fun sh l => (sh.predBit a l ^^ sh.predBit b l, 0)))
  | .pandn g n d a b => some (.toPred false g n d (predMarks a b) (fun sh l => (sh.predBit a l && !sh.predBit b l, 0)))
  | .pnot g n d a => some (.toPred false g n d (fun sh => (sh.preg a.toNat).mark) (fun sh l => (!sh.predBit a l, 0)))
  | .pmov g n d a => some (.toPred false g n d (fun sh => (sh.preg a.toNat).mark) (fun sh l => (sh.predBit a l, 0)))
  | .pset g n d => some (.toPred false g n d (fun _ => 0) (fun _ _ => (true, 0)))
  | .pclr g n d => some (.toPred false g n d (fun _ => 0) (fun _ _ => (false, 0)))
  | _ => none

/-! ## Affine registers (R42, R43, R133, R136) -/

/-- The exact value that an affine result would present in some lane leaves the signed, or the unsigned, range (R42). -/
def wraps (base stride lo hi : Int) : Bool := decide (∃ l : Fin 32, base + (l.val : Int) * stride < lo ∨ hi < base + (l.val : Int) * stride)

/-- A signed wrap of a result (R42). -/
def AffResult.leavesSigned (r : AffResult) : Bool := wraps r.baseS r.stride (-2147483648) 2147483647
/-- An unsigned wrap of a result (R42). -/
def AffResult.leavesUnsigned (r : AffResult) : Bool := wraps r.baseU r.stride 0 4294967295

/-- An affine register takes a result: its wrapped base and stride, the wraps ORed to those of its sources, the mark (R42);
AWRAP under MODE.AFAULT where it wraps signed. -/
def SheafRule.toAffine (g : BitVec 4) (n : BitVec 1) (d : Nat) (srcs : Sheaf → List AReg) (mark : Sheaf → Mark) (f : Sheaf → AffResult) : SheafRule :=
  { SheafRule.plain g n true (fun _ _ sh =>
      let r := f sh
      let a : AReg :=
        { base := BitVec.ofInt 32 r.baseS, stride := BitVec.ofInt 32 r.stride, ws := r.leavesSigned || (srcs sh).any AReg.ws,
          wu := r.leavesUnsigned || (srcs sh).any AReg.wu, mark := mark sh }
      ({ sh with aregs := sh.aregs.put d a }).raise (if r.leavesSigned || r.leavesUnsigned then flagAWRAP else 0)) with
    fits := fun sh _ => !(modeAfault sh.mode && (f sh).leavesSigned), cause := cAwrap }

/-- A source of AADD and ASUB: a uniform u counts as (u, 0). -/
def Sheaf.affineSource (sh : Sheaf) (b : BitVec 8) : AReg :=
  if b.toNat < 64 then sh.readA (b.toNat - 32)
  else { base := sh.readU (b.toNat - 64), stride := 0, ws := false, wu := false, mark := (sh.ureg (b.toNat - 64)).mark }

/-- A rule of aa and b. -/
def SheafRule.affine2 (g : BitVec 4) (n : BitVec 1) (d a : BitVec 5) (b : BitVec 8) (f : AReg → AReg → AffResult) : SheafRule :=
  .toAffine g n d.toNat (fun sh => [sh.readA a.toNat, sh.affineSource b])
    (fun sh => maxMark (sh.readA a.toNat).mark (sh.affineSource b).mark) (fun sh => f (sh.readA a.toNat) (sh.affineSource b))

/-- The functions of 0x16. -/
def affineRule : Instr → Option SheafRule
  | .aadd g n d a b => some (.affine2 g n d a b (fun x y =>
      { baseS := x.base.toInt + y.base.toInt, baseU := x.base.toNat + y.base.toNat, stride := x.stride.toInt + y.stride.toInt }))
  | .asub g n d a b => some (.affine2 g n d a b (fun x y =>
      { baseS := x.base.toInt - y.base.toInt, baseU := (x.base.toNat : Int) - y.base.toNat, stride := x.stride.toInt - y.stride.toInt }))
  | .amul g n d a b => some (.affine2 g n d a b (fun x y =>
      { baseS := x.base.toInt * y.base.toInt, baseU := x.base.toNat * y.base.toInt, stride := x.stride.toInt * y.base.toInt }))
  | .ashl g n d a b => some (.affine2 g n d a b (fun x y =>
      { baseS := x.base.toInt * 2 ^ (y.base.toNat % 32), baseU := x.base.toNat * 2 ^ (y.base.toNat % 32),
        stride := x.stride.toInt * 2 ^ (y.base.toNat % 32) }))
  | .aset g n d b => some (.toAffine g n d.toNat (fun _ => []) (fun sh => sh.pairMark (b.toNat - 64)) (fun sh =>
      { baseS := (sh.readU (b.toNat - 64)).toInt, baseU := (sh.readU (b.toNat - 64)).toNat, stride := (sh.readU (b.toNat - 63)).toInt }))
  | .alane g n d b => some (.toAffine g n d.toNat (fun _ => []) (fun sh => (sh.ureg (b.toNat - 64)).mark) (fun sh =>
      { baseS := (sh.readU (b.toNat - 64)).toInt, baseU := (sh.readU (b.toNat - 64)).toNat, stride := 1 }))
  | .aneg g n d a => some (.toAffine g n d.toNat (fun sh => [sh.readA a.toNat]) (fun sh => (sh.readA a.toNat).mark) (fun sh =>
      { baseS := -(sh.readA a.toNat).base.toInt, baseU := -((sh.readA a.toNat).base.toNat : Int), stride := -(sh.readA a.toNat).stride.toInt }))
  | .amov g n d b => some (.toAffine g n d.toNat (fun sh => [sh.readA (b.toNat - 32)]) (fun sh => (sh.readA (b.toNat - 32)).mark) (fun sh =>
      { baseS := (sh.readA (b.toNat - 32)).base.toInt, baseU := (sh.readA (b.toNat - 32)).base.toNat, stride := (sh.readA (b.toNat - 32)).stride.toInt }))
  | _ => none

/-! ## Demotions and reductions (R135) -/

/-- A uniform register takes a value from the lanes of a set. -/
def SheafRule.demote (float : Bool) (g : BitVec 4) (n : BitVec 1) (d : BitVec 8) (mark : Sheaf → Mark) (f : Sheaf → Mask → Word × Word) : SheafRule :=
  { SheafRule.plain g n true (fun _ slot sh =>
      (sh.writeU (d.toNat - 64) (f sh slot.acting).1 (mark sh)).raise (f sh slot.acting).2) with float := float }

/-- The reduction set S: further restricted by pM where M = 1. -/
def Sheaf.reduceSet (sh : Sheaf) (m : BitVec 1) (p : BitVec 4) (acting : Mask) : Mask :=
  if m = 1 then acting &&& (sh.preg p.toNat).val else acting

/-- The mark of a reduction. -/
def reduceMark (a : BitVec 5) (m : BitVec 1) (p : BitVec 4) (sh : Sheaf) : Mark :=
  maxMark (sh.vreg a.toNat).mark (if m = 1 then (sh.preg p.toNat).mark else 0)

/-- The elements of v(a) in the lanes of a set. -/
def Sheaf.elements (sh : Sheaf) (a : BitVec 5) (lanes : Mask) : List Word := (lanesOf lanes).map (sh.readV a.toNat)

/-- The functions of 0x1E that write a uniform register. -/
def demoteRule : Instr → Option SheafRule
  | .sfromv g n d a l => some (.demote false g n d (fun sh => (sh.vreg a.toNat).mark) (fun sh _ => (sh.readV a.toNat l.toNat, 0)))
  | .sfirst g n d a => some (.demote false g n d (fun sh => (sh.vreg a.toNat).mark) (fun sh m => ((sh.elements a m).headD 0, 0)))
  | .sunif g n d a => some { SheafRule.demote false g n d (fun sh => (sh.vreg a.toNat).mark) (fun sh m => ((sh.elements a m).headD 0, 0)) with
      fits := fun sh m => (sh.elements a m).all (fun x => x == (sh.elements a m).headD 0), cause := cDemote }
  | .sredaddSi32 g n d a m p => some (.demote false g n d (reduceMark a m p) (fun sh k => ((sh.elements a (sh.reduceSet m p k)).sum, 0)))
  | .sredaddF32 g n d a m p => some (.demote true g n d (reduceMark a m p) (fun sh k =>
      let xs := sh.elements a (sh.reduceSet m p k)
      if xs = [] then (0, 0)
      else
        let ts := xs.map (fun x => fp32.decode x.toNat)
        (BitVec.ofNat 32 (dotAdd ts).bits, dotFlags ts (dotAdd ts))))
  | .sredminSi32 g n d a m p => some (.demote false g n d (reduceMark a m p) (fun sh k =>
      (BitVec.ofInt 32 ((sh.elements a (sh.reduceSet m p k)).foldl (fun x w => min x w.toInt) 2147483647), 0)))
  | .sredmaxSi32 g n d a m p => some (.demote false g n d (reduceMark a m p) (fun sh k =>
      (BitVec.ofInt 32 ((sh.elements a (sh.reduceSet m p k)).foldl (fun x w => max x w.toInt) (-2147483648)), 0)))
  | _ => none

/-! ## Results that return later (R98, R118, R122, R127) -/

/-- A result in flight: its name, the address of its instruction, its destination, its lanes and their words, its window. -/
def Sheaf.awaiting (sh : Sheaf) (s : State) (varying : Bool) (dest : Nat) (lanes : Mask) (whole : Bool) (window : Nat) (words : List (Nat × List Word))
    (mark : Mark) : Sheaf :=
  { sh with pend := sh.pend ++
      [{ id := s.nextId, addr := s.slot.addr, varying := varying, regs := [dest], lanes := lanes, whole := whole, window := window,
         kind := .value, source := [], data := words, bound := true, mark := mark }] }

/-- The window that an LA gives (R96, R99); 0 without one. -/
def windowOf (slot : Slot) : Nat :=
  match slot.la with
  | some p => p.toNat % 16
  | none => 0

/-- A uniform result returns later. -/
def SheafRule.lateU (readsD : Bool) (g : BitVec 4) (n : BitVec 1) (d b : BitVec 8) (f : Word → Word → Word × Word) : SheafRule :=
  { SheafRule.plain g n true (fun s slot sh =>
      let x := f (sh.readU (d.toNat - 64)) (sh.readU (b.toNat - 64))
      (sh.awaiting s false (d.toNat - 64) 1 true (windowOf slot) [(0, [x.1])]
        (maxMark (sh.ureg (b.toNat - 64)).mark (if readsD then (sh.ureg (d.toNat - 64)).mark else 0))).raise x.2) with late := true }

/-- A special function: its window is L, its flags are raised at issue. -/
def SheafRule.lateV (g : BitVec 4) (n : BitVec 1) (d : BitVec 5) (w : BitVec 4) (b : BitVec 8) (f : Nat → Res) : SheafRule :=
  { SheafRule.plain g n false (fun s slot sh =>
      (sh.awaiting s true (sh.phys d.toNat) slot.acting (slot.acting == sh.live) w.toNat
        ((lanesOf slot.acting).map (fun l => (l, [(floatWord (f (sh.operand b.toNat l).toNat)).1]))) (sh.operandMark b.toNat)).raise
        (orFlags ((lanesOf slot.acting).map (fun l => (floatWord (f (sh.operand b.toNat l).toNat)).2)))) with float := true, late := true }

/-- Quotient and remainder of R60: toward zero; the one overflow wraps; a zero divisor gives all ones and the dividend. -/
def quotient (a b : Word) : Word × Word := if b = 0 then (0xFFFFFFFF, a) else (a.sdiv b, a.srem b)
/-- The same, unsigned (R60). -/
def quotientU (a b : Word) : Word × Word := if b = 0 then (0xFFFFFFFF, a) else (a / b, a % b)

/-- The instructions whose result returns later, but for loads and atomics. -/
def lateRule : Instr → Option SheafRule
  | .sdivS g n d b => some (.lateU true g n d b (fun d b => ((quotient d b).1, 0)))
  | .sdivU g n d b => some (.lateU true g n d b (fun d b => ((quotientU d b).1, 0)))
  | .sremS g n d b => some (.lateU true g n d b (fun d b => ((quotient d b).2, 0)))
  | .sremU g n d b => some (.lateU true g n d b (fun d b => ((quotientU d b).2, 0)))
  | .sfdiv g n d b => some (.lateU true g n d b (fun d b => floatWord (fp32.div d.toNat b.toNat)))
  | .sfsqrt g n d b => some (.lateU false g n d b (fun _ b => floatWord (fp32Sqrt b.toNat)))
  | .vrcp g n d w b => some (.lateV g n d w b fp32Rcp)
  | .vrsq g n d w b => some (.lateV g n d w b fp32Rsq)
  | .vsqrt g n d w b => some (.lateV g n d w b sqrtSpecial)
  | .vexp2 g n d w b => some (.lateV g n d w b fp32Exp2)
  | .vlog2 g n d w b => some (.lateV g n d w b fp32Log2)
  | .vsinpi g n d w b => some (.lateV g n d w b fp32SinPi)
  | .vcospi g n d w b => some (.lateV g n d w b fp32CosPi)
  | .vtanh g n d w b => some (.lateV g n d w b fp32Tanh)
  | _ => none

/-! ## Shuffles (R122, R123) -/

/-- The members of a shuffle among its acting lanes: all of them for m = 7, else those of pm. -/
def Sheaf.members (sh : Sheaf) (m : BitVec 3) (acting : Mask) : Mask := if m = 7 then acting else acting &&& (sh.preg m.toNat).val

/-- A member reads va of the member its kind names, else of itself. -/
def Sheaf.shuffled (sh : Sheaf) (source : Int → Int → Int) (a : BitVec 5) (b : BitVec 8) (members : Mask) (l : Nat) : Word :=
  let j := source l ((sh.operand b.toNat l).toNat)
  if 0 ≤ j ∧ j < 32 ∧ hasLane members j.toNat = true then sh.readV a.toNat j.toNat else sh.readV a.toNat l

/-- A shuffle's result is in flight; with no members it writes nothing. -/
def SheafRule.shuffle (source : Int → Int → Int) (g : BitVec 4) (n : BitVec 1) (d a : BitVec 5) (b : BitVec 8) (m : BitVec 3) : SheafRule :=
  { SheafRule.plain g n false (fun s slot sh =>
      let k := sh.members m slot.acting
      sh.awaiting s true (sh.phys d.toNat) k (k == sh.live) (windowOf slot) ((lanesOf k).map (fun l => (l, [sh.shuffled source a b k l])))
        (maxMark (maxMark (sh.vreg a.toNat).mark (sh.operandMark b.toNat)) (if m = 7 then 0 else (sh.preg m.toNat).mark))) with
    late := true, fits := fun sh k => sh.members m k != 0 }

/-- The shuffles. -/
def shuffleRule : Instr → Option SheafRule
  | .shflIdx g n d a b m => some (.shuffle (fun _ c => c) g n d a b m)
  | .shflXor g n d a b m => some (.shuffle (fun l c => ((l.toNat ^^^ c.toNat : Nat) : Int)) g n d a b m)
  | .shflUp g n d a b m => some (.shuffle (fun l c => l - c) g n d a b m)
  | .shflDn g n d a b m => some (.shuffle (fun l c => l + c) g n d a b m)
  | _ => none

end Sys2Proof.Machine
end

