-- ==== Sys2Proof/Safety/Control.lean ====
section
/-!
DEFINITION. What special registers read and take (R47, R131), what AFROMV finds (R136), where branches, calls, returns and loops go
(R137 to R143), and what trap entry and return leave (R144 to R147, R328): the terms of the statements about them.
-/
namespace Sys2Proof.Machine

/-! ## Special registers (R47) -/

/-- The loop slot that numbers 0x18 to 0x1D address: the saved one in a handler (R145). -/
def Sheaf.loopNamed (sh : Sheaf) (j : Bool) : LoopSlot :=
  match sh.handler with
  | some h => if j then h.loop1 else h.loop0
  | none => if j then sh.loop1 else sh.loop0

/-- The value of each special register but CLK, and whether it has 64 bits (R47). -/
def specialValue (s : State) (sh : Sheaf) (n : Nat) : Option (Bool × Nat) :=
  let narrow (v : Nat) : Option (Bool × Nat) := some (false, v % 2 ^ 32)
  let wide (v : Nat) : Option (Bool × Nat) := some (true, v)
  let index := match s.tuft? sh.tid with | some t => t.index | none => 0
  match n, s.kernelOf? sh with
  | 0x00, _ => narrow sh.idx
  | 0x01, some k => narrow (index % k.nx)
  | 0x02, some k => narrow (index / k.nx % k.ny)
  | 0x03, some k => narrow (index / (k.nx * k.ny))
  | 0x04, some k => narrow k.nx
  | 0x05, some k => narrow k.ny
  | 0x06, some k => narrow k.nz
  | 0x08, _ => narrow (sh.core % 192)
  | 0x09, _ => narrow (packageOf (sliceOf sh.core) + sliceIn (sliceOf sh.core) * 2 ^ 10)
  | 0x0A, _ => narrow (s.partOf sh)
  | 0x10, _ => narrow sh.status.toNat
  | 0x11, _ => narrow sh.mode.toNat
  | 0x12, _ => narrow sh.fairq.toNat
  | 0x13, _ => narrow sh.lease.lease
  | 0x18, _ => narrow (sh.loopNamed false).lc.toNat
  | 0x19, _ => narrow (sh.loopNamed true).lc.toNat
  | 0x1A, _ => wide (sh.loopNamed false).ls.toNat
  | 0x1B, _ => wide (sh.loopNamed false).le.toNat
  | 0x1C, _ => wide (sh.loopNamed true).ls.toNat
  | 0x1D, _ => wide (sh.loopNamed true).le.toNat
  | 0x1E, _ => narrow (match sh.handler with | some h => h.reprem | none => 0)
  | 0x20, _ => narrow (match sh.handler with | some h => h.tcause.toNat | none => 0)
  | 0x21, _ => wide (match sh.handler with | some h => h.tinfo.toNat | none => 0)
  | 0x24, _ => narrow sh.wbase
  | 0x25, _ => narrow sh.wrbase
  | 0x26, _ => wide sh.lstk.toNat
  | _, _ => none

/-- A value in the register, or the even pair, of an operand byte, with mark OPEN. -/
def Sheaf.takeSpecial (sh : Sheaf) (d : BitVec 8) (v : Bool × Nat) : Sheaf :=
  if v.1 then sh.writePair (d.toNat - 64) (BitVec.ofNat 64 v.2) 0 else sh.writeU (d.toNat - 64) (BitVec.ofNat 32 v.2) 0

/-- An address that branches, loops and the handler accept (R84): a multiple of 4, its bits [63:57] equal to bit 56. -/
def reachableTarget (a : Addr) : Bool := decide (a.toNat % 4 = 0) && decide (a.toNat < 2 ^ 56 ∨ 2 ^ 64 - 2 ^ 56 ≤ a.toNat)

/-- The sheaf with the loop slot that SWR addresses changed; the slot's mark covers what is written (R56). -/
def Sheaf.setLoopNamed (sh : Sheaf) (j : Bool) (mark : Mark) (f : LoopSlot → LoopSlot) : Sheaf :=
  let x := sh.loopNamed j
  let y : LoopSlot := { f x with mark := maxMark x.mark mark }
  match sh.handler with
  | some h => { sh with handler := some (if j then { h with loop1 := y } else { h with loop0 := y }) }
  | none => if j then { sh with loop1 := y } else { sh with loop0 := y }

/-- What SWR does to each writable register, and the values it accepts (R22, R38, R47, R48). -/
def specialWrite (sh : Sheaf) (n : Nat) (w : Word) (v : Addr) (mark wmark : Mark) : Option (Bool × Sheaf) :=
  match n with
  | 0x10 => some (decide (w.toNat < 2 ^ 7), { sh with status := w })
  | 0x12 => some (decide (16 ≤ w.toNat ∧ w.toNat ≤ 4096), { sh with fairq := w })
  | 0x18 => some (true, sh.setLoopNamed false mark (fun x => { x with lc := w }))
  | 0x19 => some (true, sh.setLoopNamed true mark (fun x => { x with lc := w }))
  | 0x1A => some (reachableTarget v, sh.setLoopNamed false wmark (fun x => { x with ls := v }))
  | 0x1B => some (reachableTarget v, sh.setLoopNamed false wmark (fun x => { x with le := v }))
  | 0x1C => some (reachableTarget v, sh.setLoopNamed true wmark (fun x => { x with ls := v }))
  | 0x1D => some (reachableTarget v, sh.setLoopNamed true wmark (fun x => { x with le := v }))
  | 0x1E => sh.handler.map (fun h => (true, { sh with handler := some { h with reprem := w.toNat } }))
  | 0x24 => sh.handler.map (fun _ => (decide (sh.wrbase ≤ w.toNat ∧ w.toNat + 32 ≤ sh.wrbase + sh.vstack), { sh with wbase := w.toNat }))
  | 0x25 => sh.handler.map (fun _ => (decide (w.toNat ≤ sh.wbase ∧ sh.wbase + 32 ≤ w.toNat + sh.vstack), { sh with wrbase := w.toNat }))
  | _ => none

/-! ## AFROMV (R136) -/

/-- A stride presents the values of some lanes, from the lowest of them on. -/
def StrideFits (va : Nat → Word) (lanes : Mask) (x : Word) : Prop :=
  ∀ l, l < 32 → hasLane lanes l = true → va (lowestLane lanes) + BitVec.ofNat 32 (l - lowestLane lanes) * x = va l

/-- The stride that R136 chooses: 0 for one lane; else of those that fit the one of smallest magnitude, of two the one not
below zero. -/
def StrideChosen (va : Nat → Word) (lanes : Mask) (x : Word) : Prop :=
  if (lanesOf lanes).length = 1 then x = 0
  else StrideFits va lanes x ∧ ∀ y, StrideFits va lanes y → x.toInt.natAbs ≤ y.toInt.natAbs ∧ (x.toInt.natAbs = y.toInt.natAbs → x = y ∨ 0 ≤ x.toInt)

/-- What AFROMV forms of the stride that is chosen: the base that presents the value of the lowest lane (R136). -/
def afromvResult (va : Nat → Word) (lanes : Mask) (x : Word) : AffResult :=
  let base := va (lowestLane lanes) - BitVec.ofNat 32 (lowestLane lanes) * x
  { baseS := base.toInt, baseU := base.toNat, stride := x.toInt }

/-- AFROMV with the stride that R136 chooses, as a rule of an affine register: its flags are judged on its own result. -/
def afromvRule (g : BitVec 4) (n : BitVec 1) (d : BitVec 8) (a : BitVec 5) (lanes : Mask) (x : Word) : SheafRule :=
  .toAffine g n (d.toNat - 32) (fun _ => []) (fun sh => (sh.vreg a.toNat).mark) (fun sh => afromvResult (sh.readV a.toNat) lanes x)

/-- AFROMV (R135, R136): nothing where no lane acts; the affine register of the chosen stride, or AWRAP under AFAULT; DEMOTE, which
writes nothing, where the values of two lanes or more lie on no stride. -/
def AfromvSays (g : BitVec 4) (n : BitVec 1) (d : BitVec 8) (a : BitVec 5) (s : State) (sh : Sheaf) : Prop :=
  let slot := s.here sh g.toNat n.toNat
  (slot.acting = 0 → Ends (.afromv g n d a) s s sh sh) ∧
  (∀ x, slot.acting ≠ 0 → StrideChosen (sh.readV a.toNat) slot.acting x →
    if (afromvRule g n d a slot.acting x).fits sh slot.acting = true
    then Ends (.afromv g n d a) s s sh ((afromvRule g n d a slot.acting x).effect s slot sh.begun)
    else exec (.afromv g n d a) s = .next (((s.begun sh).trap slot (trapWord s.slot cAwrap 0)).settle)) ∧
  (2 ≤ (lanesOf slot.acting).length → (∀ x, ¬ StrideFits (sh.readV a.toNat) slot.acting x) →
    exec (.afromv g n d a) s = .next (((s.begun sh).trap slot (trapWord s.slot cDemote 0)).settle))

/-! ## Words without an instruction (R86, R331) -/

/-- The state with a word in its issue slot. -/
def State.holding (s : State) (w : Word) : State := { s with slot := { s.slot with word := w } }

/-- A word to which no instruction is assigned raises ILLEGAL with the word in TINFO. -/
def UnassignedSays (w : Word) (s : State) (sh : Sheaf) : Prop :=
  exec (.unassignedEncoding w) s = .next (((((s.holding w).begun sh).trap ((s.holding w).here sh 15 0)
    (TrapInfo.at cIllegal 0 0 (w.setWidth 64)))).settle)

/-! ## Traps and waits -/

/-- The instruction raises a trap and has no other effect (R86). -/
def Raises (i : Instr) (s : State) (sh : Sheaf) (t : TrapInfo) : Prop := exec i s = .next (((s.begun sh).trap s.slot t).settle)

/-- The instruction, of guard p[g] sensed by n, having made a state t of the machine, begins a wait (R33): its sheaf, if it has not ended, is
WAITING for k, its issuing lanes stand at their prefix group, the others where they stood; then waits that are over end. -/
def Waits (i : Instr) (s t : State) (sh : Sheaf) (g n : Nat) (k : WaitKind) : Prop :=
  let u := (t.stopAt (s.here sh g n) (s.began sh)).beginWait (s.here sh g n) k
  exec i s = .next u.settle ∧
    ∀ y, t.sheaf? s.slot.sid = some y → y.over = false →
      ∃ sh', u.sheaf? s.slot.sid = some sh' ∧ sh'.state = .waiting ∧ sh'.wait.map Wait.kind = some k ∧
        ∀ l, l < 32 → sh'.pc l = if hasLane (s.slot.lanes &&& y.live) l then s.slot.group else y.pc l

/-! ## Where lanes go (R19, R137) -/

/-- The instruction goes on to a state t, settled, its sheaf having become x but for what the issue of any instruction
changes; the lanes that it takes stand at its target, the other issuing lanes at the next instruction. -/
def Goes (i : Instr) (s t : State) (sh x : Sheaf) (taken : Mask) (target : Addr) : Prop :=
  ∃ sh', exec i s = .next (t.setSheaf s.slot.sid sh').settle ∧ sh'.still = x.still ∧
    ∀ l, l < 32 → sh'.pc l = if hasLane (s.slot.lanes &&& sh.live) l then (if hasLane taken l then target else addrAdd s.slot.addr 4) else sh.pc l

/-- What a control instruction does: its guard; whether it is a sheaf-wide write; whether it is one of a handler; the word of
the trap it raises, if any; its effect on its sheaf; the target its acting lanes leave to, if they do. -/
structure FlowRule where
  g       : BitVec 4
  n       : BitVec 1
  wide    : Bool
  handler : Bool
  trap    : Slot → Sheaf → Option TrapInfo
  effect  : Slot → Sheaf → Sheaf
  target  : Slot → Sheaf → Option Addr

/-- An address so many instructions away (R84). -/
def ahead (slot : Slot) (k : Int) : Addr := slot.addr + BitVec.ofInt 64 (4 * k)

/-- The trap of a target that R84 does not accept (R331): the target where a register supplies it, else the word. -/
def badTarget (slot : Slot) (register : Bool) (a : Addr) : Option TrapInfo :=
  if reachableTarget a then none
  else some (if register then TrapInfo.at cIllegal 1 0 a else TrapInfo.at cIllegal 0 0 (slot.word.setWidth 64))

/-- A transfer of the acting lanes to an address. -/
def FlowRule.branch (g : BitVec 4) (n : BitVec 1) (register : Bool) (take : Sheaf → Bool) (target : Slot → Sheaf → Addr) : FlowRule :=
  { g := g, n := n, wide := false, handler := false, trap := fun slot sh => if take sh then badTarget slot register (target slot sh) else none,
    effect := fun _ sh => sh, target := fun slot sh => if take sh then some (target slot sh) else none }

/-- The slide of a code (R88): 0 is 8 registers, 1 is 16, 2 is 24, 3 is none. -/
def slide (w : BitVec 2) : Nat := if w = 0 then 8 else if w = 1 then 16 else if w = 2 then 24 else 0

/-- A call (R39, R138): the target first, then the window; the link takes the next address, with mark OPEN. -/
def FlowRule.call (g : BitVec 4) (n : BitVec 1) (w : BitVec 2) (register : Bool) (target : Slot → Sheaf → Addr) : FlowRule :=
  { g := g, n := n, wide := true, handler := false,
    trap := fun slot sh => match badTarget slot register (target slot sh) with
      | some t => some t
      | none =>
        if sh.wbase + slide w + 32 ≤ sh.wrbase + sh.vstack then none
        else some (TrapInfo.at cWspill 0 0 (BitVec.ofNat 64 (sh.wbase + slide w + 32 - sh.wrbase - sh.vstack))),
    effect := fun slot sh => { (sh.writePair 190 (slot.addr + 4) 0) with wbase := sh.wbase + slide w },
    target := fun slot sh => some (target slot sh) }

/-- Branches, calls, returns, loops, NOP, and the instructions of a handler that touch no memory. -/
def flowRule : Instr → Option FlowRule
  | .bra g n o => some (.branch g n false (fun _ => true) (fun slot _ => ahead slot o.toInt))
  | .brz g n x o => some (.branch g n false (fun sh => sh.readU (x.toNat - 64) == 0) (fun slot _ => ahead slot o.toInt))
  | .brnz g n x o => some (.branch g n false (fun sh => sh.readU (x.toNat - 64) != 0) (fun slot _ => ahead slot o.toInt))
  | .brx g n b => some (.branch g n true (fun _ => true) (fun slot sh => ahead slot (sh.readU (b.toNat - 64)).toInt))
  | .call g n w o => some (.call g n w false (fun slot _ => ahead slot o.toInt))
  | .callr g n b w => some (.call g n w true (fun _ sh => sh.readPair (b.toNat - 64)))
  | .ret g n b w => some
    { g := g, n := n, wide := w != 3, handler := false,
      trap := fun slot sh => match badTarget slot true (sh.readPair (b.toNat - 64)) with
        | some t => some t
        | none =>
          if sh.wrbase + slide w ≤ sh.wbase then none
          else some (TrapInfo.at cWfill 0 0 (BitVec.ofNat 64 (sh.wrbase + slide w - sh.wbase))),
      effect := fun _ sh => { sh with wbase := sh.wbase - slide w }, target := fun _ sh => some (sh.readPair (b.toNat - 64)) }
  | .loop g n c b e => some
    { g := g, n := n, wide := true, handler := false, trap := fun _ _ => none,
      effect := fun slot sh =>
        let x : LoopSlot := { lc := sh.readU (b.toNat - 64), ls := slot.addr + 4, le := ahead slot e.toNat, mark := (sh.ureg (b.toNat - 64)).mark }
        if c = 0 then { sh with loop0 := x } else { sh with loop1 := x },
      target := fun slot sh => if sh.readU (b.toNat - 64) = 0 then some (ahead slot (e.toNat + 1)) else none }
  | .loopx g n c => some
    { g := g, n := n, wide := true, handler := false, trap := fun _ _ => none,
      effect := fun _ sh => if c = 0 then { sh with loop0 := { sh.loop0 with lc := 0 } } else { sh with loop1 := { sh.loop1 with lc := 0 } },
      target := fun _ _ => none }
  | .nop g n => some
    { g := g, n := n, wide := false, handler := false, trap := fun _ _ => none, effect := fun _ sh => sh, target := fun _ _ => none }
  | .xpcr g n b l => some
    { g := g, n := n, wide := true, handler := true, trap := fun _ _ => none,
      effect := fun _ sh => match sh.handler with
        | some h => sh.writePair (b.toNat - 64) (h.xpc.getD l.toNat 0) 0
        | none => sh,
      target := fun _ _ => none }
  | .xpcw g n b l => some
    { g := g, n := n, wide := true, handler := true,
      trap := fun slot sh =>
        if hasLane sh.live l.toNat then badTarget slot true (sh.readPair (b.toNat - 64)) else some (TrapInfo.at cIllegal 0 0 (slot.word.setWidth 64)),
      effect := fun _ sh => match sh.handler with
        | some h => { sh with handler := some { h with xpc := laneNumbers.map (fun k => if k = l.toNat then sh.readPair (b.toNat - 64) else h.xpc.getD k 0) } }
        | none => sh,
      target := fun _ _ => none }
  | _ => none

end Sys2Proof.Machine
end

