-- ==== Sys2Proof/Safety/Acts.lean ====
section
/-!
DEFINITION. What the instructions end in that wait, trap, leave lanes behind or reach what a tuft shares: special registers (R131),
EXIT, YIELD and software traps (R139, R144), the handler's own (R146, R148), SVC (R149), ACQ.RMT (R172), barriers and groups
(R270 to R278), the matrix functions (R177 to R195). The terms of the statements about them.
-/
namespace Sys2Proof.Machine

/-- What an instruction ends in: its guard; whether it is a sheaf-wide write; whether only its issuing set is judged and it acts
whatever its guard (R182); its class (R31); the varying registers it writes; what its sheaf and tuft must be like for it to be
legal; the outcome, where the statement speaks of it. -/
structure ActRule where
  g       : BitVec 4
  n       : BitVec 1
  wide    : Bool := false
  lone    : Bool := false
  role    : RoleClass := .other
  writes  : List Nat := []
  legal   : State → Sheaf → Prop := fun _ _ => True
  outcome : State → Slot → Sheaf → Option Act

/-- Under MSTRICT the registers written are remembered (R195 row 1). -/
def ActRule.noted (r : ActRule) (sid : Nat) (sh : Sheaf) (a : Act) : Act := if r.writes = [] then a else a.noteWrites sid (r.writes.map sh.phys)

/-- Every instruction of a table ends in what the table says of it, where nothing is pending in its sheaf, and does nothing
where no lane acts (R105, R126). -/
def ActRules (table : Instr → Option ActRule) : Prop :=
  ∀ (i : Instr) (r : ActRule) (s : State) (sh : Sheaf), table i = some r → i.wf = true → Ready s sh → Prefixed i s →
    (r.wide = true → s.slot.lanes = sh.live ∧ (r.lone = true ∨ guardUniform (s.here sh r.g.toNat r.n.toNat) = true)) →
    r.role.issues sh.role = true → r.legal (s.begun sh) sh.begun →
    let slot := s.here sh r.g.toNat r.n.toNat
    (slot.acting = 0 → r.lone = false → Ends i s s sh sh) ∧
    (∀ a, (slot.acting ≠ 0 ∨ r.lone = true) → r.outcome (s.begun sh) slot sh.begun = some a →
      exec i s = .next (endAct slot (s.began sh) (r.noted s.slot.sid sh a)).settle)

/-- An instruction that its sheaf or its tuft does not allow raises ILLEGAL before anything else, whatever its guard (R86 step 2): one of a
handler outside it, one that a handler may not issue, a tile, a tag or a ring that the tuft does not hold. -/
def IllegalTraps (table : Instr → Option ActRule) : Prop :=
  ∀ (i : Instr) (r : ActRule) (s : State) (sh : Sheaf), table i = some r → i.wf = true → s.sheaf? s.slot.sid = some sh → sh.issuing = true →
    s.slot.rep = none → ¬ r.legal (s.begun sh) sh.begun → Raises i s sh (TrapInfo.at cIllegal 0 0 (s.slot.word.setWidth 64))

/-- ILLEGAL with the word (R331). -/
def illegal (slot : Slot) (s : State) : Act := .trap (TrapInfo.at cIllegal 0 0 (slot.word.setWidth 64)) s

/-- The sheaf of the slot becomes another. -/
def put (slot : Slot) (s : State) (sh : Sheaf) : Act := .next (s.setSheaf slot.sid sh)

/-- A legal instruction of a handler (R145). -/
def ofHandler (_ : State) (sh : Sheaf) : Prop := sh.handler.isSome = true

/-! ## Special registers (R131) -/

/-- SRD: CLK is some number of nanoseconds on; every other register reads as R47 says. -/
def srdOutcome (d r : BitVec 8) (s : State) (slot : Slot) (sh : Sheaf) : Option Act :=
  if r.toNat = 0x0C then
    let p := packageOf (sliceOf sh.core)
    let now := (s.package p).clk + Config.clkAdvance s.freeCount
    some (put slot ({ s with freeCount := s.freeCount + 1 }.modPackage p (fun x => { x with clk := now }))
      (sh.writePair (d.toNat - 64) (BitVec.ofNat 64 now) 0))
  else (specialValue s sh r.toNat).map (fun v => put slot s (sh.takeSpecial d v))

/-- SWR: ILLEGAL for a value that the register does not accept. -/
def swrOutcome (d r : BitVec 8) (s : State) (slot : Slot) (sh : Sheaf) : Option Act :=
  (specialWrite sh r.toNat (sh.readU (d.toNat - 64)) (sh.readPair (d.toNat - 64)) (sh.ureg (d.toNat - 64)).mark (sh.pairMark (d.toNat - 64))).map
    (fun x => if x.1 then put slot s x.2 else illegal slot s)

/-- SRD and SWR. -/
def specialRule : Instr → Option ActRule
  | .srd g n d r => some { g := g, n := n, wide := true, outcome := srdOutcome d r }
  | .swr g n d r => some
    { g := g, n := n, wide := true, legal := fun _ sh => r.toNat = 0x1E ∨ r.toNat = 0x24 ∨ r.toNat = 0x25 → sh.handler.isSome = true,
      outcome := swrOutcome d r }
  | _ => none

/-! ## EXIT, YIELD, software traps, the handler's instructions -/

/-- EXIT (R139): the acting lanes are EXITED; with live lanes left those go on; else the sheaf is EXITED, or FAULTED where a lane of
it has faulted, and is in no wait, prefix group or round. A lane that exits in a handler keeps its PC there (R18, R147). -/
def exitOutcome (s : State) (slot : Slot) (sh : Sheaf) : Option Act :=
  let left := slot.acting &&& sh.live
  let x : Sheaf := { sh with
    exited := sh.exited ||| left
    handler := sh.handler.map (fun h => { h with xpc := laneNumbers.map (fun l => if hasLane left l then sh.pc l else h.xpc.getD l 0) }) }
  if sh.live &&& ~~~slot.acting ≠ 0 then some (.leave (s.setSheaf slot.sid x))
  else
    let gone : Sheaf := { x with handler := none, wait := none, hints := Hints.none, second := none, round := Round.none, arrival := none }
    if sh.faulted = 0 then some (.stop ((s.setSheaf slot.sid { gone with state := .exited }).exitGroups slot.sid))
    else some (.stop ((s.setSheaf slot.sid { gone with state := .faulted, arr := [] }).poisonBy { gone with state := .faulted }))

/-- A software trap (R144): the instruction is over, counted and closing every window (R23, R99); TINFO is the code, and the issuing lanes
resume after it. -/
def softOutcome (cause : Nat) (c : BitVec 8) (s : State) (slot : Slot) (_ : Sheaf) : Option Act :=
  some (.trap { cause := cause, sub := 0, lane := 0, info := BitVec.ofNat 64 c.toNat, after := true, reprem := 0 }
    (s.finish slot 0 (fun _ => 0) true 0))

/-- RTE (R146): the live lanes resume where XPC says, the loop slots, the round and REPREM are as they were, handler status ends;
the instruction is counted. -/
def rteOutcome (s : State) (slot : Slot) (sh : Sheaf) : Option Act :=
  sh.handler.map (fun h =>
    let back := sh.setPcs sh.live (fun l => h.xpc.getD l 0)
    .stop (s.setSheaf slot.sid
      { back with loop0 := h.loop0, loop1 := h.loop1, round := h.round, reprem := h.reprem, second := h.second, handler := none, state := .active,
                  lease := { sh.lease with counted := min (sh.lease.counted + 1) 1024 } }))

/-- WSPILL (R148): the logical registers from WRBASE on go to the spill area; ILLEGAL where the window or the area does not
allow it. -/
def wspillOutcome (n : Nat) (s : State) (slot : Slot) (sh : Sheaf) : Option Act :=
  if sh.wrbase + n ≤ sh.wbase ∧ 128 * (sh.wrbase + n) ≤ s.spillArea sh then some (spillRegs slot n (sh.toMove sh.wrbase n) s)
  else some (illegal slot s)

/-- WFILL (R148). -/
def wfillOutcome (n : Nat) (s : State) (slot : Slot) (sh : Sheaf) : Option Act :=
  if n ≤ sh.wrbase ∧ sh.wbase + 32 + n ≤ sh.wrbase + sh.vstack ∧ 128 * sh.wrbase ≤ s.spillArea sh then
    some (fillRegs slot n (sh.toMove (sh.wrbase - n) n) s)
  else some (illegal slot s)

/-- SVC (R149): ILLEGAL at an address that is no multiple of 64; its release complete, the request is posted and the wait begins. -/
def svcOutcome (b x : BitVec 8) (s : State) (slot : Slot) (sh : Sheaf) : Option Act :=
  let a := sh.readPair (b.toNat - 64)
  if a.toNat % 64 ≠ 0 then some (illegal slot s)
  else if (s.releaseStart slot.sid 3).ended slot.sid then some (.stop (s.releaseStart slot.sid 3))
  else if (s.releaseStart slot.sid 3).released slot.sid 3 then
    some (.wait (.service x.toNat) ((s.releaseStart slot.sid 3).postService sh a x.toNat))
  else some (.wait (.counters 3) (s.releaseStart slot.sid 3))

/-- ACQ.RMT (R172): the target core's entries are sent, and the wait begins; ILLEGAL for a core outside the partition. -/
def acqRmtOutcome (b : BitVec 8) (s : State) (slot : Slot) (sh : Sheaf) : Option Act :=
  let w := (sh.readU (b.toNat - 64)).toNat
  let slice := packageOf (sliceOf sh.core) * 8 + field w 8 3
  if field w 0 8 < 192 ∧ w < 2 ^ 11 ∧ (∃ p, s.part? (s.partOf sh) = some p ∧ p.slices.contains slice = true) then
    some (.wait (.remote (slice * 192 + field w 0 8)) (s.writeBackCore (slice * 192 + field w 0 8)))
  else some (illegal slot s)

/-- Control that ends otherwise than at the next instruction. -/
def handlerRule : Instr → Option ActRule
  | .exit g n => some { g := g, n := n, outcome := exitOutcome }
  | .yield g n => some { g := g, n := n, outcome := fun s _ sh => some (.next (s.modQuad sh.core (sh.idx % 4) (fun q => { q with yield := true }))) }
  | .bkpt g n c => some { g := g, n := n, outcome := softOutcome 12 c }
  | .trap g n c => some { g := g, n := n, outcome := softOutcome 13 c }
  | .rte g n => some { g := g, n := n, wide := true, legal := ofHandler, outcome := rteOutcome }
  | .wspill g n x => some { g := g, n := n, wide := true, legal := ofHandler, outcome := wspillOutcome x.toNat }
  | .wfill g n x => some { g := g, n := n, wide := true, legal := ofHandler, outcome := wfillOutcome x.toNat }
  | .svc g n b x => some { g := g, n := n, wide := true, legal := fun _ sh => sh.handler = none, outcome := svcOutcome b x }
  | .acqRmt g n b => some { g := g, n := n, wide := true, outcome := acqRmtOutcome b }
  | _ => none

/-- XPCR and XPCW outside a handler raise ILLEGAL, whatever their guard (R147). -/
def WindowTraps : Prop :=
  ∀ (i : Instr) (r : FlowRule) (s : State) (sh : Sheaf), flowRule i = some r → r.handler = true → i.wf = true → s.sheaf? s.slot.sid = some sh →
    sh.issuing = true → s.slot.rep = none → sh.handler = none → Raises i s sh (TrapInfo.at cIllegal 0 0 (s.slot.word.setWidth 64))

/-! ## Barriers and groups (R270 to R278) -/

/-- ILLEGAL for a group that the tuft does not define (R277). -/
def ofGroup (s : State) (slot : Slot) (sh : Sheaf) (q : BitVec 8) (f : Tuft → GroupEntry → Act) : Option Act :=
  (s.tuft? sh.tid).map (fun t => match t.groups.find? (fun e => e.number == q.toNat) with
    | none => illegal slot s
    | some e => f t e)

/-- An arrival (R277): ILLEGAL for a sheaf that is no member or has retired, then BARPOISON. -/
def arrival (s : State) (slot : Slot) (sh : Sheaf) (q : BitVec 8) (e : GroupEntry) (f : Act) : Act :=
  if hasLane e.members sh.idx = false ∨ sh.ret.contains q.toNat = true then illegal slot s
  else if e.poison then .trap (TrapInfo.at cBarPoison 0 0 (BitVec.ofNat 64 q.toNat)) s else f

/-- A phase that a token names is not over (R278): PHASE is the token's low byte and some member is not gone. -/
def phaseHeld (s : State) (t : Tuft) (e : GroupEntry) (token : Word) : Bool :=
  decide (e.phase = token.toNat % 256) && decide (s.goneCount t e ≠ popCount e.members)

/-- The barrier and group instructions. -/
def barrierRule : Instr → Option ActRule
  | .barv g n q b => some
    { g := g, n := n, wide := true, outcome := fun s slot sh => ofGroup s slot sh q (fun _ e => arrival s slot sh q e (
        if sh.arr.contains q.toNat then .wait (.arrival q.toNat) s
        else
          let t := s.arriveNow slot.sid sh.tid q.toNat
          if t.ended slot.sid then .stop t else .next (t.modSheaf slot.sid (fun y => y.writeU (b.toNat - 64) (BitVec.ofNat 32 e.phase) 0)))) }
  | .bsync g n q => some
    { g := g, n := n, wide := true, outcome := fun s slot sh => ofGroup s slot sh q (fun _ e => arrival s slot sh q e (
        let t := if sh.arr.contains q.toNat then s else s.arriveNow slot.sid sh.tid q.toNat
        if t.phaseOf sh.tid q.toNat = some e.phase then .wait (.barrier q.toNat e.phase) t else .next (t.acquire slot.sid 1))) }
  | .barvn g n q => some
    { g := g, n := n, wide := true, outcome := fun s slot sh => ofGroup s slot sh q (fun _ e => arrival s slot sh q e (
        let t := if sh.arr.contains q.toNat then s.addArrived sh.tid q.toNat false else s.releaseStart slot.sid 1
        if t.ended slot.sid then .stop t else .next ((t.modSheaf slot.sid (fun y => { y with ret := q.toNat :: y.ret })).checkComplete sh.tid q.toNat))) }
  | .bwait g n q b => some
    { g := g, n := n, wide := true, outcome := fun s slot sh => ofGroup s slot sh q (fun t e =>
        if e.poison then .trap (TrapInfo.at cBarPoison 0 0 (BitVec.ofNat 64 q.toNat)) s
        else if phaseHeld s t e (sh.readU (b.toNat - 64)) then .wait (.barrier q.toNat e.phase) s else .next (s.acquire slot.sid 1)) }
  | .btest g n q b => some
    { g := g, n := n, wide := true, outcome := fun s slot sh => ofGroup s slot sh q (fun t e =>
        put slot s (sh.writeU (b.toNat - 63) (if e.poison then 2 else if phaseHeld s t e (sh.readU (b.toNat - 64)) then 0 else 1) 0)) }
  | .gmask g n q b => some
    { g := g, n := n, wide := true, outcome := fun s slot sh => ofGroup s slot sh q (fun _ e => put slot s (sh.writeU (b.toNat - 64) e.members 0)) }
  | .gqry g n q b => some
    { g := g, n := n, wide := true, outcome := fun s slot sh => ofGroup s slot sh q (fun _ e =>
        put slot s (sh.writeU (b.toNat - 64) (BitVec.ofNat 32 (popCount e.members + e.arrived * 2 ^ 8 + e.phase * 2 ^ 16 + (if e.quartet then 2 ^ 24 else 0) +
          (if e.poison then 2 ^ 25 else 0) + (if hasLane e.members sh.idx then 2 ^ 26 else 0))) 0)) }
  | .gsave g n q b => some
    { g := g, n := n, wide := true, legal := ofHandler, outcome := fun s slot sh => ofGroup s slot sh q (fun _ e =>
        put slot s (sh.writePair (b.toNat - 64) (BitVec.ofNat 64 (e.members.toNat + popCount e.members * 2 ^ 32 + e.arrived * 2 ^ 40 + e.phase * 2 ^ 48 +
          (if e.quartet then 2 ^ 56 else 0) + (if e.poison then 2 ^ 57 else 0))) 0)) }
  | .gload g n q b => some
    { g := g, n := n, wide := true, legal := ofHandler, outcome := fun s slot sh => ofGroup s slot sh q (fun t e =>
        let v := sh.readPair (b.toNat - 64)
        let x : GroupEntry := { e with arrived := field v.toNat 40 6, phase := field v.toNat 48 8, poison := v.getLsbD 57 }
        if x.image ≠ v ∨ popCount e.members ≤ x.arrived then illegal slot s
        else if sh.pairMark (b.toNat - 64) ≠ 0 then .fault (SysFault.replayable fMarkFlow 0 0 slot.lanes 0) s
        else .next (s.setTuft sh.tid { t with groups := t.groups.map (fun y => if y.number = e.number then x else y) })) }
  | _ => none

/-! ## The matrix functions (R177 to R195) -/

/-- An operation enters the sheaf's matrix order (R180) under a name of its own. -/
def queued (s : State) (slot : Slot) (sh : Sheaf) (op : MatOp) : Act :=
  .next { s.setSheaf slot.sid { sh with mops := sh.mops ++ [op] } with nextId := s.nextId + 1 }

/-- What a matrix instruction meets before its effect, in the order of R184: HANDLE at the first of some bytes that the tuft does not hold;
under MSTRICT, SWIZZLE at the first of some bytes whose line carries another swizzle than the descriptor's; under MSTRICT, MHAZARD in the
lowest row of R195. -/
def matrixMeets (s : State) (slot : Slot) (sh : Sheaf) (there : List Nat) (checked : Option (List Nat × Nat)) (row : Option Nat) (go : Act) : Act :=
  match s.absentByte? sh.tid there with
  | some o => .trap (TrapInfo.at cHandle 0 0 (BitVec.ofNat 64 o)) s
  | none =>
    if modeMstrict sh.mode = false then go
    else match (match checked, s.tuft? sh.tid with | some c, some t => t.badSwizzle? c.1 c.2 | _, _ => none) with
      | some o => .trap (TrapInfo.at cSwizzle 0 0 (BitVec.ofNat 64 o)) s
      | none => match row with
        | some k => .trap (TrapInfo.at cMhazard k 0 (slot.word.setWidth 64)) s
        | none => go

/-- Row 1 of R195: a B register or a local byte of A that was written since the last MFENCE. -/
def writtenSince (sh : Sheaf) (regs bytes : List Nat) : Option Nat :=
  if regs.any sh.bWrites.contains || bytes.any sh.aWrites.contains then some 1 else none

/-- MMA (R177 to R184): unfused, the operation is queued where a row acts; fused, the sheaf arrives. An MMA whose acting lanes select no row
makes its checks all the same (DESIGN CHOICE, log entry 64). -/
def mmaOutcome (m : MmaFields) (s : State) (slot : Slot) (sh : Sheaf) : Option Act :=
  let d := (sh.dreg m.ad).val
  let offs := if m.asrc = 0 then descBytes d (descStored d (fuseM m.fuse)) 32 (typBytes (m.typ / 3)) else []
  let regs := (destRegsFrom m.vb (bCount (m.typ % 3))).map sh.phys
  (s.tuft? sh.tid).map (fun t => matrixMeets s slot sh offs (if m.asrc = 0 then some (offs, descSpan d) else none) (writtenSince sh regs offs)
    (if m.fuse ≠ 0 then fusedArrive m slot sh t s
     else if slot.acting &&& 0xFFFF#32 = 0 then .next s
     else queued s slot sh (m.matOp s.nextId t (sh.idx % 4) sh slot.acting (fun q => if q = sh.idx % 4 then some sh else none))))
where
  /-- Registers one after the other. -/
  destRegsFrom (b k : Nat) : List Nat := (List.range k).map (fun i => b + i)

/-- A tile operation where no row acts: nothing. -/
def whereRows (slot : Slot) (s : State) (a : Option Act) : Option Act := if slot.acting &&& 0xFFFF#32 = 0 then some (.next s) else a

/-- The matrix functions. -/
def matrixRule : Instr → Option ActRule
  | .mma g n t f v a y z x => some
    { g := g, n := n, wide := f != 0, lone := f != 0, role := .matrix,
      legal := fun s sh => t.toNat < s.tilesOf sh ∧ (x = 1 → a.toNat + 1 < s.tilesOf sh),
      outcome := mmaOutcome { mt := t.toNat, fuse := f.toNat, vb := v.toNat, ad := a.toNat, typ := y.toNat, z := z == 1, asrc := x.toNat } }
  | .mzero g n t => some
    { g := g, n := n, role := .matrix, legal := fun s sh => t.toNat < s.tilesOf sh,
      outcome := fun s slot sh => whereRows slot s (some (queued s slot sh
        { id := s.nextId, kind := .mzero t.toNat, acting := slot.acting, desc := 0, aElems := [], bElems := [], bRegs := [], mark := 0, done := false })) }
  | .mldt g n t d f => some
    { g := g, n := n, role := .matrix, legal := fun s sh => t.toNat < s.tilesOf sh,
      outcome := fun s slot sh => (
        let x := sh.dreg d.toNat
        let stored := descStored x.val 16
        let offs := descBytes x.val (stored.filter (hasLane slot.acting)) 16 (fmtBytes f.toNat)
        (s.tuft? sh.tid).map (fun u => matrixMeets s slot sh offs (some (descBytes x.val stored 16 (fmtBytes f.toNat), descSpan x.val))
          (writtenSince sh [] offs)
          (if slot.acting &&& 0xFFFF#32 = 0 then .next s
           else queued s slot sh
            { id := s.nextId, kind := .mldt t.toNat f.toNat, acting := slot.acting, desc := x.val,
              aElems := (List.range 16).map (fun r => (List.range 16).map (fun j => u.element x.val r j (fmtBytes f.toNat))),
              bElems := [], bRegs := [], mark := maxMark x.mark (u.bytesMark offs), done := false }))) }
  | .mstt g n t d f => some
    { g := g, n := n, role := .matrix, legal := fun s sh => t.toNat < s.tilesOf sh,
      outcome := fun s slot sh => whereRows slot s (
        let x := sh.dreg d.toNat
        let offs := descBytes x.val ((descStored x.val 16).filter (hasLane slot.acting)) 16 (fmtBytes f.toNat)
        match s.absentByte? sh.tid offs with
        | some o => some (.trap (TrapInfo.at cHandle 0 0 (BitVec.ofNat 64 o)) s)
        | none => some (queued s slot sh
            { id := s.nextId, kind := .mstt t.toNat f.toNat, acting := slot.acting, desc := x.val, aElems := [], bElems := [], bRegs := [],
              mark := x.mark, done := false })) }
  | .mrowv g n v t => some
    { g := g, n := n, role := .matrix, writes := (List.range 8).map (fun i => v.toNat + i), legal := fun s sh => t.toNat < s.tilesOf sh,
      outcome := fun s slot sh => (s.tuft? sh.tid).map (fun _ => queued s slot sh
        { id := s.nextId, kind := .mrowv (((List.range 8).map (fun i => v.toNat + i)).map sh.phys) t.toNat, acting := slot.acting, desc := 0, aElems := [],
          bElems := [], bRegs := [], mark := 0, done := false, whole := slot.acting == sh.live }) }
  | .mwait g n => some { g := g, n := n, role := .matrix, outcome := fun s slot sh => some (put slot s sh) }
  | .mfence g n => some
    { g := g, n := n, role := .matrix, outcome := fun s slot sh => some (put slot s { sh with bWrites := [], aWrites := [] }) }
  | .mdesc g n d b => some
    { g := g, n := n, wide := true, role := .matrix,
      outcome := fun s slot sh =>
        let v := sh.readPair (b.toNat - 64)
        some (if v.toNat < 2 ^ 50 ∧ field v.toNat 24 16 % 16 = 0 ∧ field v.toNat 0 24 % 16 = 0 then put slot s (sh.writeD d.toNat v (sh.pairMark (b.toNat - 64)))
          else illegal slot s) }
  | .mdescGet g n d b => some
    { g := g, n := n, wide := true, role := .matrix,
      outcome := fun s slot sh => some (put slot s (sh.writePair (b.toNat - 64) (sh.dreg d.toNat).val (sh.dreg d.toNat).mark)) }
  | _ => none

/-! ## Hazards and waits with operations pending (R192, R193, R195) -/

/-- What of a matrix instruction R184 and R195 judge: the varying registers that it names, those that it writes, the B registers and the local
bytes that it reads, the tile rows that it reads; the bytes that must be there, and those whose swizzle is checked. -/
structure MatrixView where
  names   : List Nat := []
  writes  : List Nat := []
  regs    : List Nat := []
  bytes   : List Nat := []
  tile    : Nat := 0
  rows    : List Nat := []
  there   : List Nat := []
  checked : Option (List Nat × Nat) := none

/-- The view of the instructions that may meet a pending operation. -/
def matrixView (i : Instr) (slot : Slot) (sh : Sheaf) : Option MatrixView :=
  match i with
  | .mma _ _ _ f v a y _ x =>
    let d := (sh.dreg a.toNat).val
    let offs := if x = 0 then descBytes d (descStored d (fuseM f.toNat)) 32 (typBytes (y.toNat / 3)) else []
    some { regs := ((List.range (bCount (y.toNat % 3))).map (fun k => sh.phys (v.toNat + k))),
           names := ((List.range (bCount (y.toNat % 3))).map (fun k => sh.phys (v.toNat + k))), bytes := offs, there := offs,
           checked := if x = 0 then some (offs, descSpan d) else none }
  | .mldt _ _ _ d f =>
    let x := (sh.dreg d.toNat).val
    let offs := descBytes x ((descStored x 16).filter (hasLane slot.acting)) 16 (fmtBytes f.toNat)
    some { bytes := offs, there := offs, checked := some (descBytes x (descStored x 16) 16 (fmtBytes f.toNat), descSpan x) }
  | .mstt _ _ t d f =>
    let x := (sh.dreg d.toNat).val
    let rows := (descStored x 16).filter (hasLane slot.acting)
    if slot.acting &&& 0xFFFF#32 = 0 then none
    else some { tile := t.toNat, rows := rows, there := descBytes x rows 16 (fmtBytes f.toNat) }
  | .mrowv _ _ v t =>
    let regs := (List.range 8).map (fun k => sh.phys (v.toNat + k))
    some { names := regs, writes := regs, tile := t.toNat,
           rows := (List.range 16).filter (fun r => hasLane slot.acting r || hasLane slot.acting (r + 16)) }
  | _ => none

/-- The lowest row of R195 that a view meets: 1, a B register or a byte of A written since the last MFENCE; 2, a write of a B register of a
pending MMA; 3, a read of a tile row that a pending operation updates; 4, a register that a pending MROWV writes. -/
def MatrixView.row (v : MatrixView) (sh : Sheaf) : Option Nat :=
  if v.regs.any sh.bWrites.contains || v.bytes.any sh.aWrites.contains then some 1
  else if sh.mops.any (fun m => m.bRegs.any v.writes.contains) then some 2
  else if sh.mops.any (fun m => m.updatesRow v.tile v.rows) then some 3
  else if sh.mops.any (fun m => m.kind.rowRegs.any v.names.contains) then some 4 else none

/-- MHAZARD of matrix instructions with operations pending (R184 step 4, R188, R189, R190, R195): under MSTRICT, whether or not REPLAY is on
too, the instruction raises the lowest row that it meets, where HANDLE and SWIZZLE do not come first, and has no effect. -/
def MatrixHazards : Prop :=
  ∀ (i : Instr) (r : ActRule) (v : MatrixView) (k : Nat) (s : State) (sh : Sheaf) (t : Tuft), matrixRule i = some r → i.wf = true →
    Standing s sh → s.slot.rep = none → sh.pend = [] → Prefixed i s → (r.wide = true → s.slot.lanes = sh.live) → sh.role = .matrix →
    r.legal (s.begun sh) sh.begun → modeMstrict sh.mode = true → s.tuft? sh.tid = some t →
    let slot := s.here sh r.g.toNat r.n.toNat
    (slot.acting ≠ 0 ∨ r.lone = true) → matrixView i slot sh = some v → (s.begun sh).absentByte? sh.tid v.there = none →
    (∀ c, v.checked = some c → t.badSwizzle? c.1 c.2 = none) → v.row sh = some k →
    exec i s = .next (((s.begun sh).trap slot (TrapInfo.at cMhazard k 0 (s.slot.word.setWidth 64))).settle)

/-- MHAZARD of the varying instructions (R195 rows 2 and 4): under MSTRICT one whose destination is a B register of a pending MMA raises row 2,
one whose destination a pending MROWV writes raises row 4, whatever its guard. -/
def LaneHazards : Prop :=
  ∀ (i : Instr) (r : LaneRule) (s : State) (sh : Sheaf), laneRule i = some r → i.wf = true → Standing s sh → s.slot.rep = none → Prefixed i s →
    (r.float = true → sh.role ≠ .stage) → modeMstrict sh.mode = true →
    ((∃ m ∈ sh.mops, sh.phys r.d ∈ m.bRegs) → Raises i s sh (TrapInfo.at cMhazard 2 0 (s.slot.word.setWidth 64))) ∧
    ((∀ m ∈ sh.mops, sh.phys r.d ∉ m.bRegs) → (∃ m ∈ sh.mops, sh.phys r.d ∈ m.kind.rowRegs) →
      Raises i s sh (TrapInfo.at cMhazard 4 0 (s.slot.word.setWidth 64)))

/-- MWAIT and MFENCE with work pending: an MWAIT is over once every operation of the sheaf is complete, and covers them (R193); till then it
waits; an MFENCE is over once every result in flight is written (R192); till then it waits. -/
def MatrixWaits : Prop :=
  ∀ (g : BitVec 4) (n : BitVec 1) (s : State) (sh : Sheaf), guardOk g.toNat n.toNat = true → Standing s sh → s.slot.rep = none → s.slot.ximm = none →
    s.slot.la = none → sh.role = .matrix → (s.here sh g.toNat n.toNat).acting ≠ 0 →
    let goes (i : Instr) (x : Sheaf) : Prop :=
      exec i s = .next ((s.setSheaf s.slot.sid x).finish (s.here sh g.toNat n.toNat) 0 (fun _ => 0) false (s.began sh)).settle
    ((∀ m ∈ sh.mops, m.done = true) →
      goes (.mwait g n) { sh.begun with mops := [], bWrites := sh.bWrites.filter (fun r => !sh.mops.any (fun m => m.kind.rowRegs.contains r)) }) ∧
    ((∃ m ∈ sh.mops, m.done = false) → Waits (.mwait g n) s (s.begun sh) sh g.toNat n.toNat .matrix) ∧
    ((∀ p ∈ sh.pend, p.lanes = 0) → goes (.mfence g n) { sh.begun with bWrites := [], aWrites := [] }) ∧
    ((∃ p ∈ sh.pend, p.lanes ≠ 0) → Waits (.mfence g n) s (s.begun sh) sh g.toNat n.toNat .fence)

end Sys2Proof.Machine
end

