-- ==== Sys2Proof/Safety/Memory.lean ====
section
/-!
DEFINITION. What the loads and stores do where their accesses are legal (R151 to R164): which addresses the lanes form, which result is in
flight afterwards, what enters the buffers and the local stores. The terms of the statements about them.
-/
namespace Sys2Proof.Machine

/-- What an instruction does to the machine: its guard; whether it is a sheaf-wide write; its class (R31); the varying registers
that it writes, for MSTRICT; what its prefix must give, else it is ILLEGAL (R93); when it goes through, as a condition on the state and its operands; the machine after its
effect, in which its sheaf still stands at it. -/
structure MachineRule where
  g      : BitVec 4
  n      : BitVec 1
  wide   : Bool
  role   : RoleClass
  writes : List Nat
  legal  : Slot → Prop := fun _ => True
  goes   : State → Slot → Sheaf → Prop
  after  : State → Slot → Sheaf → State

/-- The machine once an instruction of an issue slot is over (R19, R23, R24, R99): its issuing lanes stand at the next one. -/
def State.over (s t : State) (sh : Sheaf) (g n : Nat) : State := t.finish (s.here sh g n) 0 (fun _ => 0) false (s.began sh)

/-- Under MSTRICT a MATRIX sheaf remembers the varying registers that the instruction wrote (R195 row 1). -/
def State.notes (t : State) (sid : Nat) (regs : List Nat) : State := if regs = [] then t else t.modSheaf sid (fun sh => sh.noted regs)

/-- An instruction does what its rule says where its condition holds, and nothing where no lane acts. -/
def MachineRule.Holds (i : Instr) (r : MachineRule) (s : State) (sh : Sheaf) : Prop :=
  let slot := s.here sh r.g.toNat r.n.toNat
  (slot.acting = 0 → Ends i s s sh sh) ∧
  (slot.acting ≠ 0 → r.goes (s.begun sh) slot sh.begun → exec i s = .next
    (s.over ((r.after (s.begun sh) slot sh.begun).notes s.slot.sid (r.writes.map sh.phys)) sh r.g.toNat r.n.toNat).settle)

/-- Every instruction of a table does what the table says of it, where nothing is pending in its sheaf. -/
def MachineRules (table : Instr → Option MachineRule) : Prop :=
  ∀ (i : Instr) (r : MachineRule) (s : State) (sh : Sheaf), table i = some r → i.wf = true → Ready s sh → Prefixed i s →
    (r.wide = true → Wide s sh r.g.toNat r.n.toNat) → r.role.issues sh.role = true → r.legal s.slot → r.Holds i s sh

/-! ## Global loads and stores (R153, R156 to R158, R160) -/

/-- The byte offset that an XIMM gives (R93). -/
def offsetOf (slot : Slot) : Int :=
  match slot.ximm with
  | some p => p.toInt
  | none => 0

/-- The acting lanes with the global addresses they form: bp(base) plus the lane's offset and that of the prefix (R153). -/
def Sheaf.globalAccesses (sh : Sheaf) (slot : Slot) (base : BitVec 3) (off : BitVec 8) : List (Nat × Addr) :=
  (lanesOf slot.acting).map (fun l => (l, sh.readPair (128 + 2 * base.toNat) + BitVec.ofInt 64 ((sh.operand off.toNat l).toInt + offsetOf slot)))

/-- The numbers of k registers from v(d) on. -/
def destRegs (d : BitVec 5) (k : Nat) : List Nat := (List.range k).map (fun i => d.toNat + i)

/-- A load of size bytes in each lane, into k registers (R157): it is in flight, with where each lane reads, and the mark of the
pages and of the address (R55). -/
def MachineRule.load (g : BitVec 4) (n : BitVec 1) (size k : Nat) (w : Widen) (window : Slot → Nat) (fresh : Bool) (d : BitVec 5) (base : BitVec 3)
    (off : BitVec 8) : MachineRule :=
  { g := g, n := n, wide := false, role := .other, writes := destRegs d k,
    goes := fun s slot sh => ∃ xs t, s.checkGlobal sh (sh.globalAccesses slot base off) size false 0 = .go xs t,
    after := fun s slot sh => match s.checkGlobal sh (sh.globalAccesses slot base off) size false 0 with
      | .go xs t =>
        let p : Pending :=
          { id := t.nextId, addr := slot.addr, group := slot.group, varying := true, regs := (destRegs d k).map sh.phys, lanes := slot.acting,
            whole := slot.acting == sh.live, window := window slot, kind := .load size w, source := xs.map (fun x => t.atIssue sh (x.src fresh) size), data := [],
            bound := false, mark := maxMark (t.reachedMark (t.partOf sh) xs) (sh.globalMark base.toNat off.toNat) }
        { t with nextId := t.nextId + 1 }.setSheaf slot.sid ((sh.countMem (touchedLines xs)).addPending p)
      | .stop _ => s }

/-- The low size bytes of the words of k registers from v(d) on, in a lane. -/
def Sheaf.laneBytes (sh : Sheaf) (d : BitVec 5) (k size l : Nat) : List Byte :=
  ((destRegs d k).flatMap (fun i => leBytes 4 (sh.readV i l).toNat)).take size

/-- The mark of the data of k registers (R55). -/
def Sheaf.laneMark (sh : Sheaf) (d : BitVec 5) (k : Nat) : Mark := marks ((destRegs d k).map (fun i => (sh.vreg i).mark))

/-- A store of size bytes in each lane (R158): weak, with a cache hint, or strong. -/
def MachineRule.store (g : BitVec 4) (n : BitVec 1) (size k : Nat) (strong : Bool) (hint : Nat) (d : BitVec 5) (base : BitVec 3) (off : BitVec 8) :
    MachineRule :=
  let flow (sh : Sheaf) : Mark := maxMark (sh.laneMark d k) (sh.globalMark base.toNat off.toNat)
  { g := g, n := n, wide := false, role := .other, writes := [],
    goes := fun s slot sh => ∃ xs t, s.checkGlobal sh (sh.globalAccesses slot base off) size true (flow sh) = .go xs t,
    after := fun s slot sh => match s.checkGlobal sh (sh.globalAccesses slot base off) size true (flow sh) with
      | .go xs t => (t.setSheaf slot.sid (sh.countMem (touchedLines xs))).storeLanes slot.sid strong hint
          (xs.map (fun x => { trans := x.trans, key := x.key, bytes := sh.laneBytes d k size x.lane }))
      | .stop _ => s }

/-- The global loads and stores. -/
def globalRule : Instr → Option MachineRule
  | .ldg g n d o b f l => some (.load g n 4 1 .none (fun _ => l.toNat) (f == 1) d b o)
  | .ldgW g n d o b f l => some (.load g n 8 2 .none (fun _ => l.toNat) (f == 1) d b o)
  | .ldgQ g n d o b f l => some (.load g n 16 4 .none (fun _ => l.toNat) (f == 1) d b o)
  | .ldgU8 g n d o b f => some (.load g n 1 1 .u8 windowOf (f == 1) d b o)
  | .ldgS8 g n d o b f => some (.load g n 1 1 .s8 windowOf (f == 1) d b o)
  | .ldgU16 g n d o b f => some (.load g n 2 1 .u16 windowOf (f == 1) d b o)
  | .ldgS16 g n d o b f => some (.load g n 2 1 .s16 windowOf (f == 1) d b o)
  | .stg g n d o b k c => some (.store g n 4 1 (k == 1) c.toNat d b o)
  | .stgW g n d o b k c => some (.store g n 8 2 (k == 1) c.toNat d b o)
  | .stgQ g n d o b k c => some (.store g n 16 4 (k == 1) c.toNat d b o)
  | .stgB8 g n d o b k => some (.store g n 1 1 (k == 1) 0 d b o)
  | .stgB16 g n d o b k => some (.store g n 2 1 (k == 1) 0 d b o)
  | .pfg g n o b f => some
    { g := g, n := n, wide := false, role := .other, writes := [], goes := fun _ _ _ => True,
      after := fun s slot sh => (s.setSheaf slot.sid (sh.countMem [])).forEach (sh.globalAccesses slot b o) (fun s a => s.prefetch slot.sid (f == 1) a.2) }
  | _ => none

/-! ## Local loads and stores (R154, R159, R160) -/

/-- The acting lanes with their distances from lb(base), the prefix's offset among them (R154). -/
def Sheaf.localAccesses (sh : Sheaf) (slot : Slot) (off : BitVec 8) : List (Nat × Int) :=
  (lanesOf slot.acting).map (fun l => (l, (sh.operand off.toNat l).toInt + offsetOf slot))

/-- A local load: its data is taken at once, its result is in flight (R159). -/
def MachineRule.loadLocal (g : BitVec 4) (n : BitVec 1) (size k : Nat) (w : Widen) (window : Slot → Nat) (d : BitVec 5) (base : BitVec 3) (off : BitVec 8) :
    MachineRule :=
  { g := g, n := n, wide := false, role := .other, writes := destRegs d k,
    goes := fun s slot sh => ∃ xs t, s.checkLocal slot sh (sh.readU (160 + base.toNat)) (sh.localAccesses slot off) size false = .go xs t,
    after := fun s slot sh => match s.checkLocal slot sh (sh.readU (160 + base.toNat)) (sh.localAccesses slot off) size false with
      | .go xs t =>
        let p : Pending :=
          { id := t.nextId, addr := slot.addr, varying := true, regs := (destRegs d k).map sh.phys, lanes := slot.acting,
            whole := slot.acting == sh.live, window := window slot, kind := .value, source := [],
            data := xs.map (fun x => (x.1, widenBytes w (t.localBytes x.2 size))), bound := true,
            mark := maxMark (marks (xs.map (fun x => t.localMark x.2 size)))
              (maxMark (sh.ureg (160 + base.toNat)).mark (sh.operandMark off.toNat)) }
        { t with nextId := t.nextId + 1 }.modSheaf slot.sid (fun sh => sh.addPending p)
      | .stop _ => s }

/-- A local store: its bytes are in the local store at once (R159). -/
def MachineRule.storeLocal (g : BitVec 4) (n : BitVec 1) (size k : Nat) (d : BitVec 5) (base : BitVec 3) (off : BitVec 8) : MachineRule :=
  { g := g, n := n, wide := false, role := .other, writes := [],
    goes := fun s slot sh => ∃ xs t, s.checkLocal slot sh (sh.readU (160 + base.toNat)) (sh.localAccesses slot off) size true = .go xs t,
    after := fun s slot sh => match s.checkLocal slot sh (sh.readU (160 + base.toNat)) (sh.localAccesses slot off) size true with
      | .go xs t =>
        (t.storeLocal xs (fun l => sh.laneBytes d k size l)
          (maxMark (sh.laneMark d k) (maxMark (sh.ureg (160 + base.toNat)).mark (sh.operandMark off.toNat)))).modSheaf slot.sid
          (fun sh => sh.noteStored (xs.flatMap (fun x => if x.2.tid == sh.tid then (List.range size).map (fun i => x.2.off + i) else [])))
      | .stop _ => s }

/-- The local loads and stores. -/
def localRule : Instr → Option MachineRule
  | .ldl g n d o b l => some (.loadLocal g n 4 1 .none (fun _ => l.toNat) d b o)
  | .ldlW g n d o b l => some (.loadLocal g n 8 2 .none (fun _ => l.toNat) d b o)
  | .ldlQ g n d o b l => some (.loadLocal g n 16 4 .none (fun _ => l.toNat) d b o)
  | .ldlU8 g n d o b => some (.loadLocal g n 1 1 .u8 windowOf d b o)
  | .ldlS8 g n d o b => some (.loadLocal g n 1 1 .s8 windowOf d b o)
  | .ldlU16 g n d o b => some (.loadLocal g n 2 1 .u16 windowOf d b o)
  | .ldlS16 g n d o b => some (.loadLocal g n 2 1 .s16 windowOf d b o)
  | .stl g n d o b _ => some (.storeLocal g n 4 1 d b o)
  | .stlW g n d o b _ => some (.storeLocal g n 8 2 d b o)
  | .stlQ g n d o b _ => some (.storeLocal g n 16 4 d b o)
  | .stlB8 g n d o b => some (.storeLocal g n 1 1 d b o)
  | .stlB16 g n d o b => some (.storeLocal g n 2 1 d b o)
  | _ => none

/-! ## Loads of the whole sheaf (R162 to R164) -/

/-- A load of k words at an address into uniform registers from s(d) on, its checks passed and its data there. -/
def MachineRule.loadWords (g : BitVec 4) (n : BitVec 1) (k d : Nat) (address : State → Sheaf → Slot → Addr) (mark : Sheaf → Mark)
    (bound : State → Sheaf → Slot → Prop) :
    MachineRule :=
  let found (s : State) (slot : Slot) (sh : Sheaf) : Option (List Byte × Mark × State) :=
    match s.checkGlobal sh [(lowestLane slot.lanes, address s sh slot)] (4 * k) false 0 with
    | .go (x :: xs) t =>
      (match ((t.setSheaf slot.sid (sh.countMem (touchedLines (x :: xs)))).forceResults slot.sid (fun p => p.reads x.trans.paddr (4 * k))).fetchData slot.sid (x.src false) (4 * k) with
       | (.ok bs, u) => some (bs, u.reachedMark (u.partOf sh) (x :: xs), u)
       | _ => none)
    | _ => none
  { g := g, n := n, wide := true, role := .other, writes := [],
    goes := fun s slot sh => bound s sh slot ∧ (found s slot sh).isSome = true,
    after := fun s slot sh => match found s slot sh with
      | some (bs, m, u) => u.modSheaf slot.sid (fun y =>
          y.writeUs d ((List.range (bs.length / 4)).map (fun i => BitVec.ofNat 32 (natAt bs (4 * i) 4))) (maxMark m (mark sh)))
      | none => s }

/-- The loads of the LS format. -/
def wordsRule : Instr → Option MachineRule
  | .lds g n d b => some (.loadWords g n 1 (d.toNat - 64) (fun _ sh slot => sh.readPair (b.toNat - 64) + BitVec.ofInt 64 (offsetOf slot))
      (fun sh => sh.pairMark (b.toNat - 64)) (fun _ _ _ => True))
  | .ldsW g n d b => some (.loadWords g n 2 (d.toNat - 64) (fun _ sh slot => sh.readPair (b.toNat - 64) + BitVec.ofInt 64 (offsetOf slot))
      (fun sh => sh.pairMark (b.toNat - 64)) (fun _ _ _ => True))
  | .ldsQ g n d b => some (.loadWords g n 4 (d.toNat - 64) (fun _ sh slot => sh.readPair (b.toNat - 64) + BitVec.ofInt 64 (offsetOf slot))
      (fun sh => sh.pairMark (b.toNat - 64)) (fun _ _ _ => True))
  | .ldsO g n d b => some (.loadWords g n 8 (d.toNat - 64) (fun _ sh slot => sh.readPair (b.toNat - 64) + BitVec.ofInt 64 (offsetOf slot))
      (fun sh => sh.pairMark (b.toNat - 64)) (fun _ _ _ => True))
  | .ldp g n d o w => some
    { MachineRule.loadWords g n 2 (d.toNat - 64)
        (fun s sh slot => match s.windowOf sh w.toNat with | some (base, _) => base + BitVec.ofInt 64 (8 * o.toNat + offsetOf slot) | none => 0)
        (fun _ => 0) (fun s sh slot => ∃ base size, s.windowOf sh w.toNat = some (base, size) ∧ 8 * (o.toNat : Int) + offsetOf slot + 8 ≤ size) with
      legal := fun slot => 0 ≤ 8 * (o.toNat : Int) + offsetOf slot ∧ (8 * (o.toNat : Int) + offsetOf slot) % 8 = 0 }
  | .ldls g n d b => some
    { g := g, n := n, wide := true, role := .other, writes := [],
      goes := fun s slot sh => ∃ x t, s.checkLocal slot sh (sh.readU (b.toNat - 64)) [(lowestLane slot.lanes, offsetOf slot)] 4 false = .go [x] t,
      after := fun s slot sh => match s.checkLocal slot sh (sh.readU (b.toNat - 64)) [(lowestLane slot.lanes, offsetOf slot)] 4 false with
        | .go (x :: _) t => t.modSheaf slot.sid (fun y =>
            y.writeU (d.toNat - 64) (BitVec.ofNat 32 (natAt (t.localBytes x.2 4) 0 4)) (maxMark (t.localMark x.2 4) (sh.ureg (b.toNat - 64)).mark))
        | _ => s }
  | _ => none

end Sys2Proof.Machine
end

