-- ==== Sys2Proof/Safety/Atomics.lean ====
section
/-!
DEFINITION. What atomics (R165 to R169), releases, acquires, cache maintenance (R171, R172) and leases (R245) end in: the table of R165,
where each operation performs, what orders it, what it waits for. The terms of the statements about them.
-/
namespace Sys2Proof.Machine

/-! ## The operations (R165) -/

/-- What R165 makes of the old value of a location: the new value and the value received. -/
def atomResult (op old d d2 : Nat) : Nat × Nat :=
  let x : Word := BitVec.ofNat 32 old
  let w : Word := BitVec.ofNat 32 d
  match op with
  | 0 => ((x + w).toNat, old)
  | 1 => ((x - w).toNat, old)
  | 2 => ((if w.toInt < x.toInt then w else x).toNat, old)
  | 3 => ((if x.toInt < w.toInt then w else x).toNat, old)
  | 4 => ((if w.toNat < x.toNat then w else x).toNat, old)
  | 5 => ((if x.toNat < w.toNat then w else x).toNat, old)
  | 6 => ((x &&& w).toNat, old)
  | 7 => ((x ||| w).toNat, old)
  | 8 => ((x ^^^ w).toNat, old)
  | 9 => (w.toNat, old)
  | 10 => (if x = w then d2 % 2 ^ 32 else old, old)
  | 11 => ((fp32.add old d).1, old)
  | 12 => (((SumSlot.ofNat old).xadd d).toNat, (SumSlot.ofNat old).value)
  | 13 => (old, (SumSlot.ofNat old).value)
  | 14 => ((SumSlot.ofNat old).clear.toNat, (SumSlot.ofNat old).value)
  | _ => ((old + d) % 2 ^ 64, old)

/-- The bytes of a location (R165): 16 for the exact sums, 8 for ADD.W, else 4. -/
def atomSize (op : Nat) : Nat := if op = 15 then 8 else if 12 ≤ op ∧ op ≤ 14 then 16 else 4

/-- The words that vd takes of a value received: two for ADD.W, else one. -/
def atomReceives (op v : Nat) : List Word := if op = 15 then [BitVec.ofNat 32 v, BitVec.ofNat 32 (v / 2 ^ 32)] else [BitVec.ofNat 32 v]

/-- The operand D of the words at vd (R165): the pair for ADD.W, else the first. -/
def atomOperand (op : Nat) (w0 w1 : Word) : Nat := if op = 15 then w0.toNat + w1.toNat * 2 ^ 32 else w0.toNat

/-- The registers at vd whose marks an operation reads: none for XGET and XCLR, two for CAS and ADD.W. -/
def atomSources (op : Nat) : Nat := if op = 13 ∨ op = 14 then 0 else if op = 10 ∨ op = 15 then 2 else 1

/-- The registers at vd that an operation writes. -/
def atomTargets (op : Nat) : Nat := if op = 15 then 2 else 1

/-! ## Releases and acquires (R167, R171) -/

/-- A release at a scope and what follows it: earlier loads return and earlier local accesses perform, at SLICE and wider the buffer is sent
(of home atomics still out see log entry 62); a sheaf that a refused fill ends on the way stops (R155); then the counters of the scope are
zero, or the sheaf waits for them. -/
def releasing (s : State) (slot : Slot) (scope : Nat) (go : State → Act) : Act :=
  let t := s.releaseStart slot.sid scope
  if t.ended slot.sid then .stop t
  else if t.released slot.sid scope then go t
  else .wait (.counters scope) t

/-- ACQ at a scope: earlier loads have returned, the covered sectors are invalidated; a sector with unsent bytes whose home no port reaches
keeps it waiting (R341). -/
def acquiring (s : State) (slot : Slot) (scope : Nat) : Act :=
  match s.acquireBlocked? slot.sid scope with
  | some paddr => .wait (.link s.nextId paddr 0) { s with nextId := s.nextId + 1 }
  | none => .next (s.acquire slot.sid scope)

/-- The release before an atomic that orders (R167): modifiers 2 and 3. -/
def orderedBefore (s : State) (slot : Slot) (scope r : Nat) (go : State → Act) : Act := if 2 ≤ r then releasing s slot scope go else go s

/-- The acquire after an atomic that orders (R167): modifiers 1 and 3; where its value or an invalidation is held back the sheaf waits. -/
def orderedAfter (s : State) (slot : Slot) (scope r : Nat) : Act :=
  if r % 2 = 0 then .next s
  else if s.acquireReady slot.sid scope then .next (s.acquire slot.sid scope)
  else .wait (.acquire scope) s

/-! ## Atomics (R165 to R169) -/

/-- The result of an atomic in flight. -/
def Sheaf.atomInFlight (sh : Sheaf) (pid : Nat) (slot : Slot) (varying : Bool) (regs : List Nat) (lanes : Mask) (whole : Bool) (kind : PendKind)
    (data : List (Nat × List Word)) (mark : Mark) : Sheaf :=
  sh.addPending { id := pid, addr := slot.addr, group := slot.group, varying := varying, regs := regs, lanes := lanes, whole := whole,
                  window := windowOf slot, kind := kind, source := [], data := data, bound := true, mark := mark }

/-- One lane of an atomic in its core's L1 (R166): what was sent to the line and reads it comes first, the sector is valid, or why its fill
was refused; the L1 then holds the new value, which enters the store buffer as a weak store, but for XGET; the words received. -/
def State.laneL1 (s : State) (sid op : Nat) (x : AtomLane) : Sum (Nat × Nat × State) (List Word × State) :=
  match s.sheaf? sid with
  | none => .inr (atomReceives op 0, s)
  | some sh =>
    let src := x.at_.src false
    let size := atomSize op
    let t := ((s.bindReads sid src.paddr size).performLine sh.core (lineOf src.paddr)).bringLine sh.core (lineOf src.paddr)
    match t.readyLane sid { src with fresh := false } size [] (linkTag t.nextId src.lane) with
    | (some bad, u) => .inl (bad.1, bad.2, u)
    | (none, u) =>
      let r := atomResult op (leNat (u.laneBytes sid { src with fresh := false } size)) x.d x.d2
      .inr (atomReceives op r.2, if op = 13 then u else u.storeLanes sid false 0
        [{ trans := { paddr := src.paddr, kh := src.kh, grain := src.grain, fresh := false, r := true, w := true, x := false }, key := src.key,
           bytes := leBytes size r.1 }])

/-- The lanes in ascending order (R152): each lane's words, up to the first whose fill is refused. -/
def lanesL1 (sid op : Nat) : List AtomLane → State → Sum (Nat × Nat × State) (List (Nat × List Word) × State)
  | [], s => .inr ([], s)
  | x :: xs, s => match s.laneL1 sid op x with
    | .inl bad => .inl bad
    | .inr y => match lanesL1 sid op xs y.2 with
      | .inl bad => .inl bad
      | .inr z => .inr ((x.at_.lane, y.1) :: z.1, z.2)

/-- One lane of a local atomic (R166): the words received; the new value stands in the local store, with a mark. -/
def State.laneLocal (s : State) (p : Place) (op d d2 : Nat) (mark : Mark) : List Word × State :=
  let r := atomResult op (leNat (s.localBytes p (atomSize op))) d d2
  (atomReceives op r.2, s.writeLocal p.tid (spread p.off (leBytes (atomSize op) r.1)) mark 0)

/-- The lanes of a local atomic, one after the other (R152, R166): the words received, the largest mark of what they read, each at its
turn (R55), and the local stores after them. -/
def lanesLocal (sh : Sheaf) (d : BitVec 5) (op : Nat) (mark : Mark) : List (Nat × Place) → State → List (Nat × List Word) × Mark × State
  | [], s => ([], 0, s)
  | x :: xs, s =>
    let y := s.laneLocal x.2 op (atomOperand op (sh.readV d.toNat x.1) (sh.readV (d.toNat + 1) x.1)) (sh.readV (d.toNat + 1) x.1).toNat mark
    let z := lanesLocal sh d op mark xs y.2
    ((x.1, y.1) :: z.1, maxMark (s.localMark x.2 (atomSize op)) z.2.1, z.2.2)

/-- What a global atomic of checked lanes does (R166, R167): at CORE scope the lanes perform in the L1, and a refused fill ends the sheaf
(R155, R291); at a wider scope they leave for their homes, where each performs (R166), and the result is in flight. -/
def atomAct (s : State) (slot : Slot) (op scope r : Nat) (varying : Bool) (regs : List Nat) (lanes : Mask) (whole : Bool) (xs : List AtomLane)
    (mark : Mark) : Act :=
  orderedBefore s slot scope r (fun t =>
    let u := { t with nextId := t.nextId + 1 }
    if scope = 1 then
      match lanesL1 slot.sid op xs u with
      | .inl bad => .stop (bad.2.2.endSheaf slot.sid slot (SysFault.ending bad.1 lanes bad.2.1))
      | .inr v => orderedAfter (v.2.modSheaf slot.sid (fun y => y.atomInFlight t.nextId slot varying regs lanes whole .value v.1 mark)) slot scope r
    else
      orderedAfter ((u.modSheaf slot.sid (fun y => y.atomInFlight t.nextId slot varying regs lanes whole .atomic [] mark)).sendAtomics slot.sid op t.nextId xs)
        slot scope r)

/-- The operands of lanes from v(d) and v(d+1). -/
def Sheaf.atomLanes (sh : Sheaf) (d : BitVec 5) (op : Nat) (xs : List Reached) : List AtomLane :=
  xs.map (fun x => { at_ := x, d := atomOperand op (sh.readV d.toNat x.lane) (sh.readV (d.toNat + 1) x.lane), d2 := (sh.readV (d.toNat + 1) x.lane).toNat })

/-- The operand of ATOMS. -/
def Sheaf.atomUniform (sh : Sheaf) (d : BitVec 8) (op : Nat) (xs : List Reached) : List AtomLane :=
  xs.map (fun x =>
    { at_ := { x with lane := 0 }, d := atomOperand op (sh.readU (d.toNat - 64)) (sh.readU (d.toNat - 63)), d2 := (sh.readU (d.toNat - 63)).toNat })

/-- ATOMG (R165): at scope sc + 1, where its lanes' accesses pass their checks. -/
def atomgOutcome (d v : BitVec 5) (b : BitVec 3) (op : Nat) (sc r : BitVec 2) (s : State) (slot : Slot) (sh : Sheaf) : Option Act :=
  let flow := maxMark (sh.laneMark d (atomSources op)) (sh.globalMark b.toNat v.toNat)
  match s.checkGlobal sh (sh.globalAccesses slot b (v.setWidth 8)) (atomSize op) (op != 13) flow with
  | .go xs t => some (atomAct (t.setSheaf slot.sid (sh.countMem (touchedLines xs))) slot op (sc.toNat + 1) r.toNat true
      ((destRegs d (atomTargets op)).map sh.phys) slot.acting (slot.acting == sh.live) (sh.atomLanes d op xs)
      (maxMark (t.reachedMark (t.partOf sh) xs) (sh.globalMark b.toNat v.toNat)))
  | .stop _ => none

/-- ATOML (R165): at the local store; its scope orders global accesses only (R167). -/
def atomlOutcome (d v : BitVec 5) (b : BitVec 3) (op : Nat) (sc r : BitVec 2) (s : State) (slot : Slot) (sh : Sheaf) : Option Act :=
  let addressed := maxMark (sh.ureg (160 + b.toNat)).mark (sh.operandMark v.toNat)
  match s.checkLocal slot sh (sh.readU (160 + b.toNat)) (sh.localAccesses slot (v.setWidth 8)) (atomSize op) true with
  | .go xs t => some (orderedBefore t slot (sc.toNat + 1) r.toNat (fun t =>
      let u := lanesLocal sh d op (maxMark (sh.laneMark d (atomSources op)) addressed) xs t
      orderedAfter ({ u.2.2 with nextId := u.2.2.nextId + 1 }.modSheaf slot.sid (fun y =>
        y.atomInFlight u.2.2.nextId slot true ((destRegs d (atomTargets op)).map sh.phys) slot.acting (slot.acting == sh.live) .value u.1
          (maxMark u.2.1 addressed))) slot (sc.toNat + 1) r.toNat))
  | .stop _ => none

/-- ATOMS (R169): one operation at PART scope, relaxed or ordered both ways. -/
def atomsOutcome (d b : BitVec 8) (op : Nat) (a : BitVec 1) (s : State) (slot : Slot) (sh : Sheaf) : Option Act :=
  let flow := maxMark (marks ((List.range (atomSources op)).map (fun i => sh.operandMark (d.toNat + i)))) (sh.pairMark (b.toNat - 64))
  match s.checkGlobal sh [(lowestLane slot.lanes, sh.readPair (b.toNat - 64))] (atomSize op) true flow with
  | .go xs t => some (atomAct (t.setSheaf slot.sid (sh.countMem (touchedLines xs))) slot op 3 (3 * a.toNat) false
      ((List.range (atomTargets op)).map (fun i => d.toNat - 64 + i)) 1 true (sh.atomUniform d op xs)
      (maxMark (t.reachedMark (t.partOf sh) xs) (sh.pairMark (b.toNat - 64))))
  | .stop _ => none

/-- The atomics. -/
def atomicRule : Instr → Option ActRule
  | .atomg g n d v b o sc r => some { g := g, n := n, writes := destRegs d (atomTargets o.toNat), outcome := atomgOutcome d v b o.toNat sc r }
  | .atoml g n d v b o sc r => some { g := g, n := n, writes := destRegs d (atomTargets o.toNat), outcome := atomlOutcome d v b o.toNat sc r }
  | .atoms g n d b o a => some { g := g, n := n, wide := true, outcome := atomsOutcome d b o.toNat a }
  | _ => none

/-! ## Releases, acquires, cache maintenance and leases (R171, R245) -/

/-- Every instruction of the SY functions but ACQ.RMT; the leases. -/
def fenceRule : Instr → Option ActRule
  | .fence g n k => some { g := g, n := n, outcome := fun s slot _ => some (releasing s slot k.toNat (fun t => acquiring t slot k.toNat)) }
  | .rel g n k => some { g := g, n := n, outcome := fun s slot _ => some (releasing s slot k.toNat .next) }
  | .acq g n k => some { g := g, n := n, outcome := fun s slot _ => some (acquiring s slot k.toNat) }
  | .wdrain g n => some
    { g := g, n := n, outcome := fun s slot _ =>
        let t := s.sendBuffer slot.sid
        some (if t.released slot.sid 4 then .next t else .wait (.counters 4) t) }
  | .l1wb g n => some { g := g, n := n, outcome := fun s _ sh => some (.next (s.writeBackCore sh.core)) }
  | .l1inv g n => some
    { g := g, n := n, outcome := fun s _ sh => some (match s.refreshBlocked? sh.core (fun _ => true) with
        | some paddr => .wait (.link s.nextId paddr 0) { s with nextId := s.nextId + 1 }
        | none => .next (s.invalidate sh.core (fun _ => true))) }
  | .leaseSet g n b => some
    { g := g, n := n, wide := true, outcome := fun s slot sh =>
        some (put slot s { sh with lease := { sh.lease with measured := false, lease := min (sh.readU (b.toNat - 64)).toNat 255 } }) }
  | .leaseMeas g n => some
    { g := g, n := n, wide := true, outcome := fun s slot sh =>
        some (put slot s { sh with lease := { sh.lease with measured := true, lease := min 255 ((sh.lease.d + 31) / 32 + sh.lease.vg) } }) }
  | .leaseGet g n b => some
    { g := g, n := n, wide := true, outcome := fun s slot sh =>
        some (put slot s (sh.writeU (b.toNat - 64) (BitVec.ofNat 32 (min 255 ((sh.lease.d + 31) / 32 + sh.lease.vg))) 0)) }
  | _ => none

/-- What a release or a drain waits for (R171): a fence or a release for the counters of its scope, a drain for all three. -/
def fenceWaits : Instr → Option (BitVec 4 × BitVec 1 × Nat × (State → Nat → State))
  | .fence g n k => some (g, n, k.toNat, fun s sid => s.releaseStart sid k.toNat)
  | .rel g n k => some (g, n, k.toNat, fun s sid => s.releaseStart sid k.toNat)
  | .wdrain g n => some (g, n, 4, fun s sid => s.sendBuffer sid)
  | _ => none

/-- While a counter of its scope is not zero, such an instruction waits on the counters, what it has to send having been sent (R171). -/
def ReleasesWait : Prop :=
  ∀ (i : Instr) (g : BitVec 4) (n : BitVec 1) (scope : Nat) (begins : State → Nat → State) (s t : State) (sh y : Sheaf),
    fenceWaits i = some (g, n, scope, begins) → i.wf = true → Ready s sh → Prefixed i s → (s.here sh g.toNat n.toNat).acting ≠ 0 →
    t = begins (s.begun sh) s.slot.sid → t.sheaf? s.slot.sid = some y → y.over = false →
    ((y.cntSlice ≠ 0 ∧ 2 ≤ scope) ∨ (y.cntPart ≠ 0 ∧ 3 ≤ scope) ∨ (y.cntSys ≠ 0 ∧ 4 ≤ scope)) →
    Waits i s t sh g.toNat n.toNat (.counters scope)

end Sys2Proof.Machine
end

