-- ==== Sys2Proof/Safety/Engines.lean ====
section
/-!
DEFINITION. What the instructions do that command an engine or share what a tuft, a core or a context holds: copies (R197 to R201),
tags (R206 to R208), stage rings (R209 to R212), buffer handles (R213 to R215), child kernels (R249 to R252), collectives
(R348, R349), marks, trace and clock (R321 to R326), and what hint prefixes leave (R92). The terms of the statements about
them.
-/
namespace Sys2Proof.Machine

/-- Uniform registers k from an operand byte on. -/
def Sheaf.wordsFrom (sh : Sheaf) (b : BitVec 8) (k : Nat) : List Word := (List.range k).map (fun i => sh.readU (b.toNat - 64 + i))

/-- The largest mark of k uniform registers from an operand byte on. -/
def Sheaf.marksFrom (sh : Sheaf) (b : BitVec 8) (k : Nat) : Mark := marks ((List.range k).map (fun i => (sh.ureg (b.toNat - 64 + i)).mark))

/-- A tag of the tuft's allotment (R206). -/
def ofTag (tag : Nat) (s : State) (sh : Sheaf) : Prop := ∃ t, s.tuft? sh.tid = some t ∧ tag < t.tags.length

/-- A command enters its tag (R207): an idle tag begins afresh; COUNT goes up. -/
def Tag.entered (x : Tag) : Tag :=
  if x.count = 0 then { count := 1, done := false, fail := false, code := 0 } else { x with count := x.count + 1 }

/-! ## Copies -/

/-- CPY (R197, R201): a SLICE-scope release begins, the tag counts, the command stands last in the core's queue with its words and
their mark; a full queue, or a tag that counts 255, makes the sheaf wait; a release that ends the sheaf stops it (R155). -/
def cpyOutcome (kind : CopyKind) (k : Nat) (tag : BitVec 6) (b : BitVec 8) (s : State) (slot : Slot) (sh : Sheaf) : Option Act :=
  (s.tuft? sh.tid).map (fun t =>
    if 32 ≤ (s.core sh.core).copies.length ∨ 255 ≤ (t.tags.getD tag.toNat Tag.zero).count then .wait (.command tag.toNat) s
    else
      let u := s.releaseStart slot.sid 2
      let c : CopyCmd :=
        { id := u.nextId, tid := sh.tid, sid := slot.sid, tag := tag.toNat, kind := kind, words := sh.wordsFrom b k, lstride := slot.ximm.map BitVec.toNat,
          mark := sh.marksFrom b k, after := (u.msgs.filter (fun m => m.sid == slot.sid && m.cls == .slice)).map Msg.id, started := false,
          token := none, failed := none, skipped := [], tries := 0 }
      if u.ended slot.sid then .stop u
      else .next (({ u with nextId := u.nextId + 1 }.modTag sh.tid tag.toNat Tag.entered).modCore sh.core (fun x => { x with copies := x.copies ++ [c] })))

/-- A copy instruction: k descriptor registers from b on. -/
def ActRule.copy (g : BitVec 4) (n : BitVec 1) (kind : CopyKind) (k : Nat) (tag : BitVec 6) (b : BitVec 8) : ActRule :=
  { g := g, n := n, role := .copy, legal := ofTag tag.toNat, outcome := cpyOutcome kind k tag b }

/-- CRS, CAG, CAR (R348, R349): a PART-scope release begins and the tag counts; the command takes the next position of its group
in the slice's engine; a descriptor that breaks R349 fails the tag with DESC; a full engine or tag makes the sheaf wait. -/
def collOutcome (kind x : Nat) (tag : BitVec 6) (b : BitVec 8) (s : State) (slot : Slot) (sh : Sheaf) : Option Act :=
  (s.tuft? sh.tid).map (fun t =>
    let slice := sliceOf sh.core
    if 64 ≤ ((s.slice slice).colls.filter (fun c => c.failed != some 10)).length ∨ 255 ≤ (t.tags.getD tag.toNat Tag.zero).count then
      .wait (.collective tag.toNat) s
    else
      let v := s.releaseStart slot.sid 3
      let u := v.modTag sh.tid tag.toNat Tag.entered
      let words := sh.wordsFrom b 8
      let group := field (words.getD 5 0).toNat 0 6
      let c : CollCmd :=
        { id := u.nextId, sid := slot.sid, tid := sh.tid, tag := tag.toNat, kind := kind, x := x, words := words, mark := sh.marksFrom b 8,
          ranks := ((u.part? (u.partOf sh)).bind (fun p => p.ranks? slice group)).getD [], group := group,
          seq := (u.slice slice).collSeq.getD group 0,
          after := (u.msgs.filter (fun m => m.sid == slot.sid && (m.cls == .slice || m.cls == .part))).map Msg.id, joined := false, failed := none,
          token := none, skipped := [], tries := 0 }
      if v.ended slot.sid then .stop v
      else if c.descOk slice then
        .next ({ u with nextId := u.nextId + 1 }.modSlice slice (fun y => { y with colls := y.colls ++ [c], collSeq := y.collSeq.put group (c.seq + 1) }))
      else .next (u.completeTag sh.tid tag.toNat (some 1)))

/-- The instructions that command the copy and the collective engines. -/
def commandRule : Instr → Option ActRule
  | .cpyLin g n t b => some (.copy g n .lin 4 t b)
  | .cpyLinw g n t b => some (.copy g n .linw 4 t b)
  | .cpyT2d g n t b => some (.copy g n .t2d 8 t b)
  | .cpyT2dw g n t b => some (.copy g n .t2dw 8 t b)
  | .cpyXpnd g n t b => some (.copy g n .xpnd 4 t b)
  | .cpyGath g n t b => some (.copy g n .gath 8 t b)
  | .cpyScat g n t b => some (.copy g n .scat 8 t b)
  | .cpyL2l g n t b => some (.copy g n .l2l 4 t b)
  | .cpyFill g n t b => some (.copy g n .fill 4 t b)
  | .crs g n t b c y => some { g := g, n := n, role := .copy, legal := ofTag t.toNat, outcome := collOutcome 0 (4 * c.toNat + y.toNat) t b }
  | .cag g n t b c y => some { g := g, n := n, role := .copy, legal := ofTag t.toNat, outcome := collOutcome 1 (4 * c.toNat + y.toNat) t b }
  | .car g n t b c y => some { g := g, n := n, role := .copy, legal := ofTag t.toNat, outcome := collOutcome 2 (4 * c.toNat + y.toNat) t b }
  | _ => none

/-! ## Tags -/

/-- A tag function over a mask pair (R208): ILLEGAL for a bit beyond the allotment. -/
def ofMask (s : State) (slot : Slot) (sh : Sheaf) (b : BitVec 8) (f : Tuft → List (Nat × Tag) → Act) : Option Act :=
  (s.tuft? sh.tid).map (fun t =>
    let mask := sh.readPair (b.toNat - 64)
    if mask.toNat < 2 ^ t.tags.length then
      f t ((List.range t.tags.length).filterMap (fun i => if mask.getLsbD i then some (i, t.tags.getD i Tag.zero) else none))
    else illegal slot s)

/-- The result of a tag function, with the mark of its selecting pair; reporting DONE acquires at CORE scope (R207, R208). -/
def tagged (s : State) (slot : Slot) (x b : BitVec 8) (done : Bool) (w : Word) : Act :=
  .next ((if done then s.acquire slot.sid 1 else s).modSheaf slot.sid (fun y => y.writeU (x.toNat - 64) w (y.pairMark (b.toNat - 64))))

/-- The number of a DONE tag, bit 31 its FAIL. -/
def tagWord (e : Nat × Tag) : Word := BitVec.ofNat 32 (e.1 + (if e.2.fail then 2 ^ 31 else 0))

/-- The tag functions. -/
def tagRule : Instr → Option ActRule
  | .twaitany g n x b => some
    { g := g, n := n, wide := true, outcome := fun s slot sh => ofMask s slot sh b (fun _ es =>
        match es.find? (fun e => e.2.done) with
        | some e => tagged s slot x b true (tagWord e)
        | none => if es.all (fun e => e.2.count == 0) then tagged s slot x b false 0xFFFFFFFF
                  else .wait (.tagAny (sh.readPair (b.toNat - 64))) s) }
  | .twaitall g n x b => some
    { g := g, n := n, wide := true, outcome := fun s slot sh => ofMask s slot sh b (fun _ es =>
        if es.all (fun e => e.2.count == 0) then tagged s slot x b true (BitVec.ofNat 32 (es.filter (fun e => e.2.fail)).length)
        else .wait (.tagAll (sh.readPair (b.toNat - 64))) s) }
  | .tfind g n x b => some
    { g := g, n := n, wide := true, outcome := fun s slot sh => ofMask s slot sh b (fun _ es =>
        match es.find? (fun e => e.2.done) with
        | some e => tagged s slot x b true (tagWord e)
        | none => tagged s slot x b false 0xFFFFFFFF) }
  | .tclr g n b => some
    { g := g, n := n, outcome := fun s slot sh => ofMask s slot sh b (fun t _ =>
        .next (s.setTuft sh.tid { t with tags := (List.range t.tags.length).map (fun i =>
          let x := t.tags.getD i Tag.zero
          if (sh.readPair (b.toNat - 64)).getLsbD i = true ∧ x.count = 0 then { count := 0, done := false, fail := false, code := 0 } else x) })) }
  | .tstat g n x b => some
    { g := g, n := n, wide := true, outcome := fun s slot sh => (s.tuft? sh.tid).map (fun t =>
        let k := (sh.readU (b.toNat - 64)).toNat
        if t.tags.length ≤ k then illegal slot s
        else
          let y := t.tags.getD k Tag.zero
          .next ((if y.done then s.acquire slot.sid 1 else s).modSheaf slot.sid (fun z => z.writeU (x.toNat - 64)
            (BitVec.ofNat 32 (y.count % 256 + y.code % 256 * 2 ^ 8 + (if y.done then 2 ^ 16 else 0) + (if y.fail then 2 ^ 17 else 0)))
            (z.ureg (b.toNat - 64)).mark))) }
  | _ => none

/-! ## Stage rings -/

/-- A ring that the tuft declares (R209). -/
def ofRing (r : BitVec 4) (s : State) (sh : Sheaf) : Prop := ∃ t, s.tuft? sh.tid = some t ∧ r.toNat < t.rings.length

/-- A ring instruction of a sheaf of a role set (R211): ROLE for another sheaf. -/
def inRole (slot : Slot) (s : State) (set : BitVec 4) (sh : Sheaf) (a : Act) : Act :=
  if roleIn set sh.role then a else .trap (TrapInfo.at cRole 0 0 (slot.word.setWidth 64)) s

/-- A token enters behind the others, after a CORE-scope release (R211, R212), and what follows it; a release that ends the sheaf
stops it (R155). -/
def tokenIn (s : State) (slot : Slot) (sh : Sheaf) (r : BitVec 4) (x : BitVec 8) (after : State → State) : Act :=
  let t := s.releaseStart slot.sid 1
  if t.ended slot.sid then .stop t
  else .next (after (t.modRing sh.tid r.toNat (fun y =>
    { y with tokens := y.tokens ++ [(sh.readU (x.toNat - 64), (sh.ureg (x.toNat - 64)).mark)] })))

/-- The oldest token leaves for the register with its mark, then a CORE-scope acquire (R211, R212). -/
def tokenOut (s : State) (slot : Slot) (sh : Sheaf) (r : BitVec 4) (x : BitVec 8) (w : Word) (m : Mark) : State :=
  ((s.modRing sh.tid r.toNat (fun y => { y with tokens := y.tokens.drop 1 })).setSheaf slot.sid (sh.writeU (x.toNat - 64) w m)).acquire slot.sid 1

/-- What a put meets, in the order of R210: poison, a closed or deaf ring, a full one (SLOTS + 1 tokens). -/
def putMeets (s : State) (sh : Sheaf) (t : Tuft) (r : Nat) (ring : Ring) (poison closed full go : Act) : Act :=
  if ring.poisoned then poison
  else if sh.closed.contains r || s.ringClosed t r ring || !s.ringHeard t ring then closed
  else if ring.slots < ring.tokens.length then full else go

/-- What a get meets, in the order of R210: poison, a token, a closed ring, an empty one. -/
def getMeets (s : State) (t : Tuft) (r : Nat) (ring : Ring) (poison closed empty : Act) (go : Word → Mark → Act) : Act :=
  if ring.poisoned then poison
  else match ring.tokens with
    | x :: _ => go x.1 x.2
    | [] => if s.ringClosed t r ring then closed else empty

/-- All 32 bits of a predicate, with mark OPEN (R211). -/
def State.answered (s : State) (sid : Nat) (p : BitVec 4) (yes : Bool) : State :=
  s.modSheaf sid (fun sh => sh.writePAll p.toNat (if yes then 0xFFFFFFFF else 0) 0)

/-- A ring and its tuft. -/
def withRing (s : State) (sh : Sheaf) (r : BitVec 4) (f : Tuft → Ring → Act) : Option Act :=
  (s.tuft? sh.tid).bind (fun t => (t.rings[r.toNat]?).map (f t))

/-- RING_POISON and RING_CLOSED (R331). -/
def ringStop (cause : Nat) (r : BitVec 4) (s : State) : Act := .trap (TrapInfo.at cause 0 0 (BitVec.ofNat 64 r.toNat)) s

/-- The ring instructions. -/
def ringRule : Instr → Option ActRule
  | .rput g n r x => some
    { g := g, n := n, wide := true, legal := ofRing r, outcome := fun s slot sh => withRing s sh r (fun t y => inRole slot s y.prod sh (
        putMeets s sh t r.toNat y (ringStop cRingPoison r s) (ringStop cRingClosed r s) (.wait (.ringPut r.toNat) s) (tokenIn s slot sh r x id))) }
  | .rget g n r x => some
    { g := g, n := n, wide := true, legal := ofRing r, outcome := fun s slot sh => withRing s sh r (fun t y => inRole slot s y.cons sh (
        getMeets s t r.toNat y (ringStop cRingPoison r s) (ringStop cRingClosed r s) (.wait (.ringGet r.toNat) s)
          (fun w m => .next (tokenOut s slot sh r x w m)))) }
  | .rputNb g n r x p => some
    { g := g, n := n, wide := true, legal := ofRing r, outcome := fun s slot sh => withRing s sh r (fun t y => inRole slot s y.prod sh (
        putMeets s sh t r.toNat y (ringStop cRingPoison r s) (ringStop cRingClosed r s) (.next (s.answered slot.sid p false))
          (tokenIn s slot sh r x (fun t => t.answered slot.sid p true)))) }
  | .rgetNb g n r x p => some
    { g := g, n := n, wide := true, legal := ofRing r, outcome := fun s slot sh => withRing s sh r (fun t y => inRole slot s y.cons sh (
        getMeets s t r.toNat y (ringStop cRingPoison r s) (.next (s.answered slot.sid p false)) (.next (s.answered slot.sid p false))
          (fun w m => .next ((tokenOut s slot sh r x w m).answered slot.sid p true)))) }
  | .rclose g n r => some
    { g := g, n := n, wide := true, legal := ofRing r, outcome := fun s slot sh => withRing s sh r (fun _ y => inRole slot s y.prod sh (
        put slot s (if sh.closed.contains r.toNat then sh else { sh with closed := sh.closed ++ [r.toNat] }))) }
  | .rstat g n r x => some
    { g := g, n := n, wide := true, legal := ofRing r, outcome := fun s slot sh => withRing s sh r (fun t y =>
        put slot s (sh.writeU (x.toNat - 64) (BitVec.ofNat 32 (y.tokens.length % 128 + y.slots % 64 * 2 ^ 8 +
          (if s.ringClosed t r.toNat y = true ∧ y.poisoned = false then 2 ^ 14 else 0) + (if y.poisoned then 2 ^ 15 else 0))) 0)) }
  | _ => none

/-! ## Buffer handles -/

/-- HANDLE for a local address (R331). -/
def handleStop (la : Word) (s : State) : Act := .trap (TrapInfo.at cHandle 0 0 (BitVec.ofNat 64 la.toNat)) s

/-- The giver's access ends; the buffer stands last in the target core's queue of arrivals, or waits for a place there (R214). -/
def passes (s : State) (sh : Sheaf) (buffer : Buffer) (slot target channel : Nat) : Act :=
  let t := if slot = 0 then s else s.modCore sh.core (fun k => { k with front := { k.front with handles := k.front.handles.drop slot } })
  if (t.core target).front.parcels.length < 64 then
    .next (t.modCore target (fun k => { k with front := { k.front with parcels := k.front.parcels ++
      [{ buffer := buffer, part := t.partOf sh, ctx := t.ctxOf sh, channel := channel }] } }))
  else .wait (.post target channel buffer) t

/-- The handle instructions. -/
def handleRule : Instr → Option ActRule
  | .hgive g n b x => some
    { g := g, n := n, wide := true, outcome := fun s slot sh =>
        let la := sh.readU (b.toNat - 64)
        let w := (sh.readU (b.toNat - 63)).toNat
        let target := sliceOf sh.core * 192 + field w 0 8
        some (
          if 192 ≤ field w 0 8 ∨ 2 ^ 16 ≤ w then illegal slot s
          else if (s.slice (sliceOf sh.core)).borrower ≠ none then handleStop la s
          else match s.givenBuffer? sh la (field w 8 8) with
            | none => handleStop la s
            | some buffer =>
              let t := s.releaseStart slot.sid 1
              if t.ended slot.sid then .stop t
              else if t.handOffReady sh.tid sh.core (localSlot la) buffer then passes t sh buffer (localSlot la) target x.toNat
              else .wait (.handOff (localSlot la) buffer) t) }
  | .hrecv g n b x => some
    { g := g, n := n, wide := true, outcome := fun s slot sh =>
        let mine : Parcel → Bool := fun p => p.part == s.partOf sh && p.ctx == s.ctxOf sh && p.channel == x.toNat
        some (match (s.core sh.core).front.parcels.find? mine, (List.range' 1 63).find? (fun i => ((s.core sh.core).front.handles.find? i).isNone) with
          | none, _ => .wait (.receive x.toNat) s
          | some _, none => handleStop 0 s
          | some p, some k =>
            let t := s.modCore sh.core (fun c => { c with front :=
              { handles := c.front.handles.put k { buffer := p.buffer, holder := sh.tid }, parcels := dropFirst mine c.front.parcels } })
            .next ((t.acquire slot.sid 1).modSheaf slot.sid (fun y =>
              y.writeU (b.toNat - 64) (BitVec.ofNat 32 (k * 2 ^ 26)) (y.ureg (b.toNat - 64)).mark))) }
  | .hqry g n b => some
    { g := g, n := n, wide := true, outcome := fun s slot sh =>
        some (put slot s (sh.writeU (b.toNat - 64) (s.handleWord sh (localSlot (sh.readU (b.toNat - 64)))) (sh.ureg (b.toNat - 64)).mark)) }
  | .hdrop g n b => some
    { g := g, n := n, wide := true, outcome := fun s slot sh =>
        let la := sh.readU (b.toNat - 64)
        some (match s.heldSlot? sh.tid sh.core (localSlot la) with
          | none => handleStop la s
          | some h =>
            let t := s.releaseStart slot.sid 1
            if t.ended slot.sid then .stop t
            else if t.handOffReady sh.tid sh.core (localSlot la) h.buffer then
              .next (t.modCore sh.core (fun k => { k with front := { k.front with handles := k.front.handles.drop (localSlot la) } }))
            else .wait (.handOff (localSlot la) h.buffer) t) }
  | _ => none

/-! ## Child kernels -/

/-- KLAUNCH with its packet at hand (R250): the status in the fourth register of the quad. -/
def klaunchOutcome (b : BitVec 8) (s : State) (slot : Slot) (_ : Sheaf) : Option Act :=
  let t := s.releaseStart slot.sid 3
  if t.ended slot.sid then some (.stop t)
  else if t.released slot.sid 3 = false then some (.wait (.counters 3) t)
  else (t.sheaf? slot.sid).bind (fun y =>
    match t.checkGlobal y [(lowestLane slot.lanes, y.readPair (b.toNat - 64))] 64 false 0 with
    | .go (x :: xs) u =>
      (match ((u.setSheaf slot.sid (y.countMem (touchedLines (x :: xs)))).forceResults slot.sid (fun p => p.reads x.trans.paddr 64)).fetchData slot.sid (x.src true) 64 with
       | (.ok bs, v) =>
         let r := v.launchChild y bs (y.readU (b.toNat - 62) == 0)
         some (.next (r.2.modSheaf slot.sid (fun z => z.writeU (b.toNat - 61) r.1 0)))
       | _ => none)
    | _ => none)

/-- The child instructions. -/
def childRule : Instr → Option ActRule
  | .klaunch g n b => some { g := g, n := n, wide := true, outcome := klaunchOutcome b }
  | .kwait g n b => some
    { g := g, n := n, wide := true, outcome := fun s slot sh =>
        let id := (sh.readU (b.toNat - 64)).toNat
        let none' := put slot s (sh.writeU (b.toNat - 64) 0xFFFFFFFF 0)
        some (match (s.ctx (s.partOf sh) (s.ctxOf sh)).children.find? id with
          | none => none'
          | some c => match s.kernel? c.kid with
            | none => none'
            | some k => if k.ended then .next (s.childReturn slot.sid id c.kid (b.toNat - 64) k) else .wait (.child id c.kid (b.toNat - 64)) s) }
  | .kquota g n b => some
    { g := g, n := n, wide := true, outcome := fun s slot sh =>
        let x := s.ctx (s.partOf sh) (s.ctxOf sh)
        let left := min x.qchild 65536 - x.children.length
        some (put slot s ((sh.writeU (b.toNat - 64)
          (BitVec.ofNat 32 (min left 0xFFFF + min (x.qkern - s.chargedKernels (s.partOf sh) (s.ctxOf sh)) 0xFFFF * 2 ^ 16)) 0).writeU (b.toNat - 63)
          (BitVec.ofNat 32 (x.qtuft - s.chargedTufts (s.partOf sh) (s.ctxOf sh))) 0)) }
  | _ => none

/-! ## Marks, trace and clock -/

/-- MKDOWN, MKGET, TRMARK and CLKRD. -/
def markRule : Instr → Option ActRule
  | .mkdown g n m b => some
    { g := g, n := n, wide := true, outcome := fun s slot sh =>
        some (if s.grantOf sh then put slot s (sh.lowerMark b.toNat m)
              else .fault { code := 6, reason := 0, va := 0, lanes := slot.acting, detail := m.toNat, reply := true } s) }
  | .mkget g n b => some
    { g := g, n := n, wide := true, outcome := fun s slot sh =>
        some (match s.markAnswer? sh (sh.readU (b.toNat - 64)).toNat with
          | some v => put slot s (sh.writeU (b.toNat - 64) (BitVec.ofNat 32 v) 0)
          | none => illegal slot s) }
  | .trmark g n b => some
    { g := g, n := n, outcome := fun s _ sh =>
        some (.next (s.traceSheaf sh 11 (if (sh.ureg (b.toNat - 64)).mark = 0 then (sh.readU (b.toNat - 64)).toNat else 0))) }
  | .clkrd g n b => some
    { g := g, n := n, wide := true, outcome := fun s slot sh =>
        let p := packageOf (sliceOf sh.core)
        let now := (s.package p).clk + Config.clkAdvance s.freeCount
        some (put slot ({ s with freeCount := s.freeCount + 1 }.modPackage p (fun x => { x with clk := now }))
          (sh.writePair (b.toNat - 64) (BitVec.ofNat 64 now) 0)) }
  | _ => none

/-! ## Hints -/

/-- What a hint attaches (R92): it is legal behind the prefixes already there, and what stands then. -/
def hintRule : Instr → Option ((Hints → Prop) × (Hints → Hints))
  | .ximm p => some (fun h => h.ximm = none ∧ h.la = none, fun h => { h with ximm := some p })
  | .rep b a d st c => some (fun h => h.rep = none ∧ h.ximm = none ∧ h.la = none, fun h =>
      { h with rep := some (BitVec.ofNat 19 (c.toNat + 2 ^ 6 * st.toNat + 2 ^ 8 * d.toNat + 2 ^ 9 * a.toNat + 2 ^ 10 * b.toNat)) })
  | .la l => some (fun h => h.la = none, fun h => { h with la := some (BitVec.ofNat 19 l.toNat) })
  | _ => none

/-- A hint goes on (R92): the issuing lanes stand at the next instruction, and the prefixes stand for those lanes; nothing else of
the machine changes, but for waits that end. -/
def HintGoes (i : Instr) (add : Hints → Hints) (s : State) (sh : Sheaf) : Prop :=
  ∃ sh', exec i s = .next (s.setSheaf s.slot.sid sh').settle ∧ Advanced s sh sh' ∧
    sh'.hints = add (if sh.hints.lanes = 0 then { Hints.none with lanes := s.slot.lanes, first := s.slot.addr } else sh.hints) ∧
    ({ sh' with pcv := sh.pcv, hints := sh.hints } : Sheaf) = sh

end Sys2Proof.Machine
end

