-- ==== Sys2Proof/Safety/Events.lean ====
section
/-!
DEFINITION. What the happenings of the machine do where they are due: the scheduler's (R24, R241 to R246), those of kernels and
tufts (R233 to R240, R247, R248, R262, R293), of what is in flight (R157, R158, R166, R170, R193, R221), of walks and
shoot-downs (R283 to R286, R294 to R296), of engines (R201, R351), of replies (R149, R335) and of queues (R255 to R265). The
terms of the statements about them.
-/
namespace Sys2Proof.Machine

/-- What a happening makes of a state, where the statement speaks of it. -/
abbrev Happening : Type := State → Option State

/-- Every happening of a table does what the table says. -/
def Happens (table : Instr → Option Happening) : Prop :=
  ∀ (i : Instr) (f : Happening) (s t : State), table i = some f → f s = some t → exec i s = .next t

/-- A happening that is due under a condition. -/
def due (c : Prop) [Decidable c] (t : State) : Option State := if c then some t else none

/-! ## The scheduler -/

/-- The turn of a fairness round ends (R24): the next group's turn begins, with the quantum that FAIRQ holds (R22); after the last
group a new round is judged. -/
def Sheaf.turnOver (sh : Sheaf) : Sheaf :=
  if sh.round.turn + 1 = sh.round.groups.length then sh.startRound
  else { sh with quantum := sh.fairq.toNat, round := { sh.round with turn := sh.round.turn + 1, count := 0 } }

/-- A quadrant's issue state. -/
def State.withQuad (s : State) (core q : Nat) (x : Quad) : State := s.modQuad core q (fun _ => x)

/-- A sheaf goes back from PARKED to what it was, with its lease seen and its count at zero (R243), and is traced (R399); one that returns
to WAITING makes the comparison of R247. -/
def State.admits (s : State) (sid : Nat) (sh : Sheaf) (kept : Bool) : State :=
  let t := (s.setSheaf sid { sh with state := sh.resumeAs, lease := { sh.lease with counted := 0, kept := kept, seen := s.leaseOf sh } }).traceSheaf sh 5 (s.leaseOf sh)
  if sh.resumeAs = .waiting then t.compareShare sid else t

/-- D of a window (R242): the estimate, where it is within 12.5 % of the distinct lines. -/
def sketched (lines estimate : Nat) : Nat := if lines - lines / 8 ≤ estimate ∧ 8 * estimate ≤ 9 * lines then estimate else lines

/-- The scheduler's happenings. -/
def scheduleHappening : Instr → Option Happening
  | .quantumExpiry sid => some (fun s => (s.sheaf? sid).bind (fun sh =>
      due (sh.round.active = true ∧ sh.quantum ≤ sh.round.count) (s.setSheaf sid sh.turnOver)))
  | .starvationLimit core q => some (fun s => (oldest? ((s.ready core q).filter (fun e => decide (512 ≤ e.2.starve)))).map (fun e =>
      s.withQuad core q { last := some e.1, run := 0, yield := false }))
  | .greedyLimit core q => some (fun s => due (32 < (s.quad core q).run ∨ (s.quad core q).yield = true) (s.withQuad core q { last := none, run := 0, yield := false }))
  | .admissionPass core => some (fun s =>
      let t := s.forEach (inAgeOrder ((s.frontSheaves core).filter (fun e => e.2.admitted))) (fun s sid => s.withdraw core sid)
      some (t.forEach (inAgeOrder ((t.frontSheaves core).filter (fun e => e.2.state == .parked))) (fun s sid => s.tryAdmit core sid)).settle)
  | .ageBoundExpiry sid => some (fun s => (s.sheaf? sid).bind (fun sh =>
      due (sh.state = .parked ∧ sid ∈ (s.frontSheaves sh.core).map Prod.fst) (s.admits sid sh true).settle))
  | .footprintWindow sid lines => some (fun s => (s.sheaf? sid).bind (fun sh =>
      let x := sh.lease
      let vg := x.vg / 2
      let d := sketched x.lines.length lines
      due (1024 ≤ x.memInstrs) (s.setSheaf sid { sh with lease :=
        { x with d := d, vg := vg, memInstrs := x.memInstrs - 1024, lines := x.after, after := [],
                 lease := if x.measured then min 255 ((d + 31) / 32 + vg) else x.lease } })))
  | .lschedWrite core v => some (fun s => some (
      let free := ∀ e ∈ s.tufts, (e.2.core == core && e.2.resident) = false
      if field v.toNat 28 4 = 0 ∧ field v.toNat 16 4 = 0 ∧ field v.toNat 24 4 ≤ 12 ∧ field v.toNat 0 16 ≠ 0 ∧
          (field v.toNat 24 4 = field (s.core core).lsched.toNat 24 4 ∨ free) then s.modCore core (fun k => { k with lsched := v })
      else s.refuse (sliceOf core) (0x10000 * (core % 192))))
  | _ => none

/-! ## Kernels and tufts -/

/-- A kernel is in a state in which its tufts are placed (R235, R238): RUNNING or DRAINING, no pre-emption, its context ACTIVE. -/
def placing (s : State) (k : Kernel) : Bool := (k.state == .running || k.state == .draining) && !k.preempt && s.ctxActive k.part k.ctx

/-- A new tuft is placed (R238): every suspended tuft that may return has; the quota is not full; a frame and a core are free. -/
def placeHappening (kid : Nat) : Happening := fun s => (s.kernel? kid).bind (fun k =>
  if placing s k = true ∧ s.reloadDue kid = false ∧ s.chargedTufts k.part k.ctx < (s.ctx k.part k.ctx).qtuft then
    match s.nextTuft? kid k, s.freeFrame? kid k with
    | some (old, index), some frame => (s.coreFor? k index).map (fun core =>
        (match old with
         | some tid => (s.placeTuft kid k tid index core frame).noteKernel kid (fun k => k)
         | none => (({ s with nextId := s.nextId + 1 }.placeTuft kid k s.nextId index core frame).advanceNext kid).writeRecordOf kid).settle)
    | _, _ => none
  else none)

/-- A tuft whose sheaves have all exited, whose commands are done and whose writes are acknowledged leaves (R34, R228). -/
def completeHappening (tid : Nat) : Happening := fun s => (s.tuft? tid).bind (fun t =>
  let u := s.forEach t.sheaves (fun s sid => s.sendBuffer sid)
  let ended := t.state == .resident && !t.parked && (s.sheavesOf t).all (fun x => x.2.state == .exited) && !s.hasCommands tid t.core
  if ended && (u.sheavesOf t).all (fun x => x.2.drained) then some ((((u.removeTuft tid).noteKernel t.kid (fun k => k)).judgeKernel t.kid).settle)
  else if ended then some u.settle else none)

/-- A tuft that has lost what it held and waits to be placed (R293). -/
def freed (t : Tuft) : Tuft :=
  { t with state := .pending, sheaves := [], lbytes := [], lmarks := [], ltags := [], tags := [], rings := [], groups := [], lsize := 0 }

/-- The happenings of kernels and tufts. -/
def tuftHappening : Instr → Option Happening
  | .kernelDispatch kid => some (fun s => (s.kernel? kid).bind (fun k =>
      if k.state = .queued ∧ s.ctxActive k.part k.ctx = true then
        let entered (k : Kernel) : Kernel :=
          { k with state := .dispatching, list := (s.placeList k.part).map (fun sl => (sl, (s.slice sl).reserved)), resolved := [] }
        some (((s.noteKernel kid entered).dispatchAll kid).settle)
      else due (k.state = .dispatching) (s.dispatchAll kid).settle))
  | .kernelRunning kid => some (fun s => (s.kernel? kid).bind (fun k =>
      if k.state = .dispatching ∧ k.stage = 5 ∧ k.prefault = none ∧ k.access = none ∧ s.farHeld k.slice k.far = false then
        match s.passRanges kid k k.ranges { extents := [], grows := false } with
        | (.done b, t) =>
          let u := t.noteKernel kid (fun k => { k with state := .running, extents := b.extents.reverse, far := none })
          some (if k.next = k.nx * k.ny * k.nz then ((u.endHead kid).noteKernel kid (fun k => { k with state := .draining })).judgeKernel kid else u).settle
        | (.hold, t) => some t.settle
        | (.far page pa, t) => some (t.holdFarKernel kid pa (some page)).settle
        | (.refused, t) => some (t.endKernel kid .faulted 13).settle
        | (.prefault page f, t) =>
          let r := t.postSliceFault k.slice k.part f (.prefault kid page) k.ctx (some kid) (kernelField k) none
          some (r.2.modKernel kid (fun k => { k with prefault := some r.1 })).settle
      else none))
  | .tuftPlacement kid => some (placeHappening kid)
  | .tuftComplete tid => some (completeHappening tid)
  | .completionSignal kid => some (fun s => (s.kernel? kid).bind (fun k =>
      due (k.ended = true ∧ k.recordDue = false ∧ (s.queue k.slice k.entry).access = none ∧ (k.signalled = true ∨ k.noSignal = true) ∧ s.writeRecordOf kid = s)
        ((s.modKernel kid (fun k => { k with signalled := true })).judgeQueue k.slice k.entry).settle))
  | .runmaxExpiry tid => some (fun s => (s.tuft? tid).bind (fun t => (s.kernel? t.kid).bind (fun k =>
      due (t.state = .resident ∧ t.parked = false ∧ 0 < k.desc.runmax) (s.faultTuft tid 11 0 0).settle)))
  | .tuftSuspend tid => some (fun s => (s.tuft? tid).bind (fun t => (s.kernel? t.kid).bind (fun k =>
      let u := s.quiesce tid
      match u.tuft? tid with
      | some v => due (s.eligible tid t = true ∧ (t.leaving = true ∨ (s.inKwait t = true ∧ s.childStarved k = true)) ∧
          u.eligible tid v = true ∧ u.hasCommands tid v.core = false ∧ u.stuckTuft tid = false) ((u.saveTuft tid false).judgeKernel t.kid).settle
      | none => none)))
  | .forcedSuspension tid => some (fun s => (s.tuft? tid).bind (fun t =>
      let u := s.quiesce tid
      match u.tuft? tid with
      | some v => due (t.state = .resident ∧ t.parked = false ∧ t.forced = true ∧ (s.sheavesOf t).all (fun x => x.2.atBoundary) = true ∧
          u.hasCommands tid v.core = false ∧ u.stuckTuft tid = false) ((u.saveTuft tid true).judgeKernel t.kid).settle
      | none => none))
  | .tuftReload tid => some (fun s => (s.tuft? tid).bind (fun t => (s.kernel? t.kid).bind (fun k => t.image.bind (fun image =>
      if s.reloadable t = true ∧ placing s k = true then
        (s.reloadCore? k t.index).map (fun core =>
          (if s.saveIntact t k image then s.placeAgain tid t k core
           else (s.postSliceFault k.slice k.part (SysFault.ending 15 0 (k.desc.saveArea t.frame).1.toNat) .info k.ctx (some t.kid) (kernelField k) (some tid)).2.modTuft
             tid (fun t => { t with image := none })).settle)
      else none))))
  | .tuftAbort tid => some (fun s => (s.tuft? tid).bind (fun t =>
      let u := (s.dropColls tid false).abortCommands tid t.core
      due (t.state = .aborted ∧ (s.sheavesOf t).all (fun x => x.2.atBoundary) = true ∧ u.hasCommands tid t.core = false)
        ((((u.removeTuft tid).setTuft tid (freed t)).noteKernel t.kid (fun k => k)).judgeKernel t.kid).settle))
  | _ => none

/-! ## What is in flight -/

/-- The happenings of stores, sends, loads, home atomics, computed results and matrix operations. -/
def flightHappening : Instr → Option Happening
  | .storeBufferSend sid => some (fun s => (s.sheaf? sid).bind (fun sh => match sh.buf with | e :: _ => some (s.sendEntry sid e) | [] => none))
  | .writePerform mid => some (fun s => (s.msg? mid).bind (fun m =>
      let t := s.performBefore m.core (lineOf m.paddr) (fun x => x.id == mid)
      (t.msg? mid).map (fun x => (t.performMsg x).settle)))
  | .writeAck mid => some (fun s => (s.msg? mid).bind (fun m =>
      due (m.kind = .write ∧ m.performed = true ∧ s.carried m = true)
        ({ s.modSheaf m.sid (fun sh => sh.addCounter m.cls false) with msgs := s.msgs.filter (fun x => x.id != m.id) }).settle))
  | .atomicReply mid => some (fun s => (s.msg? mid).bind (fun m => due (m.kind ≠ .write ∧ m.performed = true ∧ s.carried m = true) (s.replyMsg m).settle))
  | .loadReturn sid pid lanes => some (fun s => (s.sheaf? sid).bind (fun sh => (sh.pend? pid).bind (fun p =>
      match p.kind with
      | .load _ _ => if s.stuckResult sid sh p then none else
          let t := s.bindLoad sid p
          ((t.sheaf? sid).bind (fun x => x.pend? pid)).map (fun q => (t.modSheaf sid (fun x => x.deliver q lanes)).settle)
      | _ => none)))
  | .longLatencyResult sid pid => some (fun s => (s.sheaf? sid).bind (fun sh => (sh.pend? pid).bind (fun p =>
      due (p.kind = .value) ((s.freeLanes p.lanes).2.modSheaf sid (fun x => x.deliver p (s.freeLanes p.lanes).1)).settle)))
  | .matrixOpComplete sid => some (fun s => (s.sheaf? sid).bind (fun sh => (sh.mops.find? (fun m => !m.done)).bind (fun op =>
      (s.tuft? sh.tid).map (fun t => (s.forEach t.sheaves (fun s x => s.runMatUpTo x op.id)).settle))))
  | _ => none

/-! ### What lands, said of the state alone -/

/-- A result p has come in for some lanes (R98, R157): its registers hold the words there and are unchanged in every other lane, and only
its other lanes still pend. -/
def Sheaf.took (sh sh' : Sheaf) (p : Pending) (lanes : Mask) (word : Nat → Nat → Word) : Prop :=
  (p.varying = true → ∀ i r, p.regs[i]? = some r → ∀ l, l < 32 → (sh'.vregs.getD r VReg.zero).lanes.getD l 0 =
    if hasLane (lanes &&& p.lanes) l then word l i else (sh.vregs.getD r VReg.zero).lanes.getD l 0) ∧
  (p.varying = false → p.lanes ≠ 0 → ∀ i r, p.regs[i]? = some r → sh'.readU r = word 0 i) ∧
  ∀ q, sh'.pend? p.id = some q → q.lanes = p.lanes &&& ~~~(lanes &&& p.lanes)

/-- What an entry takes with it when it is sent (R158, R289): each entry of its grain unit, split where the page has GRAIN 1. -/
def Sheaf.leaves (sh : Sheaf) (e : BufEntry) : List (BufEntry × Map Byte) :=
  (sh.buf.filter e.sameUnit).flatMap (fun x => x.units.map (fun m => (x, m)))

/-- The sends of a class among those that leave. -/
def State.ofClass (s : State) (sh : Sheaf) (xs : List (BufEntry × Map Byte)) (c : HomeClass) : Nat :=
  (xs.filter (fun u => s.homeClass (s.partOf sh) (sliceOf sh.core) (u.1.line * 128) == c)).length

/-- STORE_BUFFER_SEND (R158, R170): the oldest entry of a buffer leaves it with its grain unit, as sends that carry the bytes and count in
their sheaf; memory is as it was. -/
def StoresLeave : Prop :=
  ∀ (s : State) (sid : Nat) (sh : Sheaf) (e : BufEntry) (rest : List BufEntry), s.sheaf? sid = some sh → sh.buf = e :: rest →
    ∃ (t : State) (sh' : Sheaf), exec (.storeBufferSend sid) s = .next t ∧ t.mem = s.mem ∧ t.sheaf? sid = some sh' ∧
      sh'.buf = sh.buf.filter (fun x => (sh.buf.filter e.sameUnit).all (fun y => !(x.line == y.line && x.key == y.key))) ∧
      t.msgs = s.msgs ++ (sh.leaves e).mapIdx (fun i u =>
        { id := s.nextId + i, sid := sid, kid := (s.tuft? sh.tid).map Tuft.kid, core := sh.core, part := s.partOf sh, ctx := s.ctxOf sh, paddr := u.1.line * 128, bytes := u.2, key := u.1.key,
          kh := u.1.kh, cls := s.homeClass (s.partOf sh) (sliceOf sh.core) (u.1.line * 128), kind := .write, performed := false, result := 0, tries := 0,
          due := u.1.hidden.filter (fun j => (u.2.find? j).isSome) }) ∧
      sh'.cntSlice = sh.cntSlice + s.ofClass sh (sh.leaves e) .slice ∧ sh'.cntPart = sh.cntPart + s.ofClass sh (sh.leaves e) .part ∧
      sh'.cntSys = sh.cntSys + s.ofClass sh (sh.leaves e) .sys

/-- WRITE_PERFORM (R166, R221): a send that is there after the earlier sends of its core to its line have performed, that its home can be
reached with and admits, performs: a write's bytes stand in memory; an atomic's location holds the operation's value, what it held is
kept for the reply. To another package its request leaves its port before, if it has not, and its response the home's port after (R343). -/
def SendsPerform : Prop :=
  ∀ (s t u : State) (mid : Nat) (m x : Msg), s.msg? mid = some m → t = s.performBefore m.core (lineOf m.paddr) (fun y => y.id == mid) →
    t.msg? mid = some x → x.performed = false → t.carried x = true → u = t.depart x → u.homeRefusal x.part x.ctx x.paddr x.kh x.key = none →
    (x.kind = .write → exec (.writePerform mid) s =
      .next ((((u.putBytes x.key x.paddr x.bytes).bringDue x).setMsg { x with performed := true }).giveAnswer x).settle) ∧
    (∀ op width d d2 pid lane, x.kind = .atomic op width d d2 pid lane → u.poisoned x.paddr width = false →
      let y := atomResult op (u.viewNat x.key x.paddr width) d d2
      let new : Map Byte := if op = 13 then [] else (List.range width).zip (leBytes width y.1)
      exec (.writePerform mid) s = .next (((if op ≠ 13 then u.putBytes x.key x.paddr new else u.cacheRead x.paddr width).setMsg
        { x with performed := true, result := y.2, bytes := new }).giveAnswer x).settle)

/-- WRITE_ACK (R170): a write that has performed, and whose acknowledgement can come, is forgotten, and its counter falls. -/
def WritesAreAcknowledged : Prop :=
  ∀ (s : State) (mid : Nat) (m : Msg), s.msg? mid = some m → m.kind = .write → m.performed = true → s.carried m = true →
    exec (.writeAck mid) s = .next ({ s.modSheaf m.sid (fun sh => sh.addCounter m.cls false) with msgs := s.msgs.filter (fun x => x.id != mid) }).settle

/-- ATOMIC_REPLY (R166, R170): an atomic that has performed, and whose reply can come, is forgotten, its counter falls, and its lane's
registers hold what the location held. -/
def AtomicsAreAnswered : Prop :=
  ∀ (s : State) (mid : Nat) (m : Msg) (op width d d2 pid lane : Nat) (sh : Sheaf) (p : Pending),
    s.msg? mid = some m → m.kind = .atomic op width d d2 pid lane → m.performed = true → s.carried m = true → s.sheaf? m.sid = some sh →
    sh.pend? pid = some p → p.regs.Nodup → lane < 32 → p.data.all (fun e => e.1 != lane) = true → (p.varying = false → lane = 0) →
    ∃ (u : State) (sh' : Sheaf), exec (.atomicReply mid) s = .next u.settle ∧ u.msgs = s.msgs.filter (fun x => x.id != mid) ∧ u.sheaf? m.sid = some sh' ∧
      sh.took sh' p (maskOf (fun l => l == lane)) (fun _ i => (atomReceives op m.result).getD i 0) ∧
      sh'.cntSlice = (sh.addCounter m.cls false).cntSlice ∧ sh'.cntPart = (sh.addCounter m.cls false).cntPart ∧ sh'.cntSys = (sh.addCounter m.cls false).cntSys

/-- LOAD_RETURN (R157): a load that can come in takes its data for all its lanes at one moment, and some lanes of its registers hold
it. -/
def LoadsReturn : Prop :=
  ∀ (s t : State) (sid pid size : Nat) (conv : Widen) (lanes : Mask) (sh x : Sheaf) (p q : Pending),
    s.sheaf? sid = some sh → sh.pend? pid = some p → p.kind = .load size conv → s.stuckResult sid sh p = false →
    t = s.bindLoad sid p → t.sheaf? sid = some x → x.pend? pid = some q → q.regs.Nodup →
    ∃ sh', exec (.loadReturn sid pid lanes) s = .next (t.setSheaf sid sh').settle ∧ x.took sh' q lanes q.wordOf

/-- LONG_LATENCY_RESULT (R98, R99): a computed result comes in for some of its lanes, one at least where some pend; which is open. -/
def ResultsReturn : Prop :=
  ∀ (s : State) (sid pid : Nat) (sh : Sheaf) (p : Pending), s.sheaf? sid = some sh → sh.pend? pid = some p → p.kind = .value → p.regs.Nodup →
    ∃ (u : State) (sh' : Sheaf) (done : Mask), exec (.longLatencyResult sid pid) s = .next u.settle ∧ u.sheaf? sid = some sh' ∧ done &&& p.lanes = done ∧ (p.lanes ≠ 0 → done ≠ 0) ∧
      sh.took sh' p done p.wordOf

/-- MATRIX_OP_COMPLETE (R181, R187, R188, R190, R193): the oldest operation under way acts, a fused one in all the sheaves of its quartet.
Of one that is alone: the rows that act hold their values, the others are as they were; an MROWV's registers hold the tile. -/
def MatrixOperationsComplete : Prop :=
  (∀ (s : State) (sid : Nat) (sh : Sheaf) (op : MatOp) (t : Tuft), s.sheaf? sid = some sh → sh.mops.find? (fun m => !m.done) = some op → s.tuft? sh.tid = some t →
    exec (.matrixOpComplete sid) s = .next (s.forEach t.sheaves (fun s x => s.runMatUpTo x op.id)).settle) ∧
  (∀ (s : State) (sid : Nat) (sh : Sheaf) (op : MatOp) (t : Tuft), s.sheaf? sid = some sh → sh.mops = [op] → op.done = false → s.tuft? sh.tid = some t →
    t.sheaves = [sid] →
    let o := s.mixOperands sh op
    let rows (sh' : Sheaf) (mt : Nat) (f : Nat → Nat → Nat) : Prop :=
      ∀ r j, r < 16 → j < 16 → (sh'.tile mt).at r j = if hasLane op.acting r then f r j % 2 ^ 32 else (sh.tile mt).at r j
    ∃ (u : State) (sh' : Sheaf), exec (.matrixOpComplete sid) s = .next u.settle ∧ u.sheaf? sid = some sh' ∧ sh'.mops = [{ op with done := true }] ∧
      (∀ mt fuse typ z aTile, op.kind = .mma mt fuse typ z aTile → rows sh' mt (sh.mmaElement o mt typ z aTile)) ∧
      (∀ mt, op.kind = .mzero mt → rows sh' mt (fun _ _ => 0)) ∧
      (∀ mt fmt, op.kind = .mldt mt fmt → rows sh' mt (fun r j => widenFmt fmt ((o.aElems.getD r []).getD j 0))) ∧
      (∀ regs mt, op.kind = .mrowv regs mt → op.olds = [] → regs.Nodup → regs.length = 8 →
        ∀ i r, regs[i]? = some r → ∀ l, l < 32 → (sh'.vregs.getD r VReg.zero).lanes.getD l 0 =
          if hasLane op.acting l then BitVec.ofNat 32 ((sh.tile mt).at (l % 16) (i + 8 * (l / 16))) else (sh.vregs.getD r VReg.zero).lanes.getD l 0))

/-- What is in flight lands, under conditions on the state alone. -/
def FlightLands : Prop :=
  StoresLeave ∧ SendsPerform ∧ WritesAreAcknowledged ∧ AtomicsAreAnswered ∧ LoadsReturn ∧ ResultsReturn ∧ MatrixOperationsComplete

/-! ## Walks, shoot-downs, engines -/

/-- Every job of a shoot-down's partition that used a translation is over (R296). -/
def shotClean (s : State) (part : Nat) : Bool :=
  !(s.sheaves.any (fun e => s.partOf e.2 == part && s.stuckSheaf e.1) || s.msgs.any (fun m => m.part == part))

/-- The happenings of the walker and of the copy and collective engines. -/
def engineHappening : Instr → Option Happening
  | .walk core ctx va => some (fun s => (s.servedPart? (sliceOf core)).bind (fun part => due (canonical va = true) (s.xlateTlb core part ctx none va false).2))
  | .walkWake slice => some (fun s =>
      let t := s.forEach (s.sheaves.filter (fun e => sliceOf e.2.core == slice)) (fun s e => s.wakeSheaf false e.1)
      some (t.forEach (t.slice slice).queues.keys (fun s q => s.wakeAccess slice q)).settle)
  | .shootdownGo slice => some (fun s => (s.slice slice).owner.bind (fun part => (s.part? part).bind (fun p =>
      if (s.slice slice).walker.go = 1 then
        match shootdownOf? (s.slice slice).walker.cmd (p.sdseq + 1) with
        | none => some ((s.modSlice slice (fun x => { x with walker := { x.walker with go := 0, result := 1 } })).refuse slice 0x02000020)
        | some d => some ((s.modSlice slice (fun x => { x with walker := { x.walker with go := 0, result := 0, seq := p.sdseq + 1 } })).setPart part
            { p with sdseq := p.sdseq + 1, shoots := p.shoots ++ [d] })
      else none)))
  | .shootdownComplete part => some (fun s => ((s.part? part).bind (fun p => p.shoots.head?)).bind (fun d =>
      let u := (((s.forEach (s.sheaves.filter (fun e => s.partOf e.2 == part)) (fun s e => s.forceResults e.1 (fun _ => true))).finishCopies part d).writeBackPart
        part).finishPart part
      due (shotClean u part = true)
        (let v := u.forEach (u.cores.keys.filter (fun c => u.sliceServes part (sliceOf c))) (fun s c =>
           s.modCore c (fun k => { k with tlb := k.tlb.filter (fun t => !t.shot d) }))
         let w := v.forEach (v.slices.keys.filter (fun x => v.sliceServes part x)) (fun s x =>
           s.modSlice x (fun y => { y with nodes := y.nodes.filter (fun n => !n.shot d) }))
         let x := (w.revokeExtents part d).modPart part (fun p => { p with sddone := d.number + 1, shoots := p.shoots.drop 1 })
         (x.forEach (x.slices.keys.filter (fun y => x.sliceServes part y)) (fun s y => s.wakeWalks true y)).settle)))
  | .copyStart core => some (fun s => (s.startable? core).map (fun c =>
      (if c.descOk = false then s.endCopy core c (some 1)
       else if s.extentsOk core c = false then s.endCopy core c (some 2)
       else s.modCopy core c.id (fun c => { c with started := true })).settle))
  | .copyComplete core cmd => some (fun s => ((s.core core).copies.find? (fun c => c.id == cmd)).bind (fun c =>
      due (c.started = true ∧ c.token = none)
        (match c.outcome with
         | some failed => if s.engineOut cmd then s else (s.invalidate core (fun n => c.wrote.contains n)).endCopy core c (failed.or c.failed)
         | none =>
         if s.extentsOk core c = false then s.closeCopy core c (some 2)
         else match c.kind with
           | .lin | .t2d | .gath => s.moveIn core c
           | .linw | .t2dw | .scat => s.moveOut core c
           | .xpnd => s.moveXpnd core c
           | .l2l => s.moveLocal core c
           | .fill => s.moveFill core c).settle))
  | .collectiveJoin part group => some (fun s => (s.part? part).bind (fun p =>
      ((s.collSeqs p group false).find? (s.collReady p group)).map (fun k =>
        let xs := s.collsAt p group k
        (if collAgree xs then
          s.forEach xs (fun s e => s.modSlice e.1 (fun y => { y with colls := y.colls.map (fun c => if c.id == e.2.id then { c with joined := true } else c) }))
         else s.endColls (xs.map (fun e => (e.1, e.2, some 10)))).settle)))
  | .collectiveComplete part group => some (fun s => (s.part? part).bind (fun p => ((s.collSeqs p group true).head?).bind (fun k =>
      let xs := inRankOrder ((s.collsAt p group k).filter (fun e => e.2.joined))
      if (xs.any (fun e => e.2.failed == some 10) || !collAgree xs) = true then some (s.endColls (xs.map (fun e => (e.1, e.2, some 10)))).settle
      else if (xs.all (fun e => e.2.outcome.isSome)) = true then due (xs.any (fun e => s.engineOut e.2.id) = false) (s.settleColls xs).settle
      else due (s.collFree xs = true ∧ xs.all (fun e => s.collLinked e.1 e.2) = true) (s.moveColls xs).settle)))
  | _ => none

/-! ## Replies -/

/-- A reply reaches the record that waits for it, which then expects none (R335). -/
def replyHappening (slice token : Nat) (a : Reply) : Happening := fun s => (s.slice slice).owner.bind (fun part => (s.part? part).bind (fun p =>
  some (match p.tokens.find? token with
    | none => s.refuse slice 0x07000040
    | some t =>
      if s.awaits token t then (s.modPart part (fun p => { p with tokens := p.tokens.modify token (fun t => { t with pending := false }) })).replyTo t a
      else s.refuse slice 0x07000040).settle))

/-- The replies. -/
def replyHappenings : Instr → Option Happening
  | .replyResume slice token => some (replyHappening slice token .resume)
  | .replyAbandon slice token => some (replyHappening slice token .abandon)
  | .replyDroplanes slice token => some (replyHappening slice token .dropLanes)
  | .replyDiscard slice token => some (fun s => (s.slice slice).owner.bind (fun part => (s.part? part).bind (fun p =>
      some (match p.tokens.find? token with
        | none => s.refuse slice 0x07000040
        | some t => match t.tid, t.kid.bind s.kernel? with
          | some tid, _ => if (s.tuft? tid).isSome then s.discardTuft tid else s.refuse slice 0x07000040
          | none, some k => if k.ended then s.refuse slice 0x07000040 else s.discardKernel (t.kid.getD 0)
          | none, none => s.refuse slice 0x07000040).settle)))
  | .serviceReply sid failed => some (fun s => (s.sheaf? sid).bind (fun sh => sh.wait.bind (fun w =>
      match w.kind with
      | .service n =>
        some (if sh.state = .waiting ∧ (s.tuft? sh.tid).all (fun t => !t.parked) then
          (if failed then s.endSheaf sid w.slot (SysFault.ending 14 sh.live n) else (s.acquire sid 3).complete sid)
        else s.setSheaf sid { sh with wait := some { w with done := some (if failed then 1 else 0) } }).settle
      | _ => none)))
  | _ => none

/-! ## Queues -/

/-- The head packet of a queue, of a type and sound, with nothing held and not to be abandoned (R258, R260, R265). -/
def headOf (s : State) (slice entry type : Nat) : Option Packet :=
  let q := s.queue slice entry
  q.head.bind (fun p => if packetType p.bytes = type ∧ q.access = none ∧ (q.state ≠ 3 ∨ p.waits = false) ∧ (type = 1 ∨ otherPacketOk p.bytes = true) then some p else none)

/-- The head packet has ended. -/
def State.headDone (s : State) (slice entry : Nat) : State := (s.modQueue slice entry (fun q => { q with head := none, started := false })).judgeQueue slice entry

/-- A KERNEL packet starts (R234, R260): its kernel is QUEUED under a new name with its record due; one that its packet refuses stands at the
stage of its error. -/
def State.kernelStarts (s : State) (slice entry : Nat) (p : Packet) : State :=
  let q := s.queue slice entry
  let kid := s.nextId
  let k := { kernelOfPacket p.bytes slice entry none q.part q.ctx q.prio with
    recordOk := decide (packetRecord p.bytes < q.nrec),
    stage := if gridOk p.bytes = false then errGrid else if kernelPacketOk p.bytes q.nrec = false then errPacket else 0 }
  let t := { s.modQueue slice entry (fun q => { q with started := true }) with nextId := s.nextId + 1 }.setKernel kid k
  (t.noteKernel kid (fun k => k)).traceLaunch k false

/-- The happenings of queues and their packets. -/
def queueHappening : Instr → Option Happening
  | .queueRegister slice entry => some (fun s => (s.slice slice).owner.bind (fun part =>
      let q := s.queue slice entry
      if q.access = none ∧ q.cmd = 1 then
        some (if q.state = 0 ∧ q.fieldsOk = true ∧ (s.ctx part q.ctx).state.mayQueue = true then
          (s.modQueue slice entry (fun q => { q with cmd := 0, part := part })).openQueue slice entry
        else (s.modQueue slice entry (fun q => { q with cmd := 0, result := 1 })).refuse slice (0x01000024 + 64 * entry)).settle
      else none))
  | .queueDestroy slice entry => some (fun s =>
      let q := s.queue slice entry
      due (q.cmd = 2 ∧ q.access.any (fun a => a.2 == .register) = false)
        (if q.state = 1 ∨ q.state = 2 then
          ((s.modQueue slice entry (fun q => { q with cmd := 0, result := 0, state := 3, headerDue := true })).writeHeader slice entry).abandonHead slice entry
        else (s.modQueue slice entry (fun q => { q with cmd := 0, result := 1 })).refuse slice (0x01000024 + 64 * entry)).settle)
  | .queueWake slice entry => some (fun s =>
      let q := s.queue slice entry
      if q.state = 1 ∧ q.access = none then
        match s.unitBytes slice q.part q.ctx none false q.hdr 128 with
        | (.ok bs _, t) =>
          let u := t.modQueue slice entry (fun q => { q with wridx := natAt bs 0 8, watch := t.headerHome? slice entry })
          some (if indexOk (natAt bs 0 8) q.rdidx q.log2n = true ∧ zeroAt bs 8 120 = true then u else (u.queueError slice entry qIndex q.rdidx true).writeHeader slice entry).settle
        | _ => none
      else none)
  | .packetFetch slice entry => some (fun s =>
      let q := s.queue slice entry
      if q.state = 1 ∧ q.access = none ∧ q.head = none ∧ s.ctxActive q.part q.ctx = true ∧ q.rdidx < q.wridx then
        match s.unitBytes slice q.part q.ctx none false (q.ring + BitVec.ofNat 64 (64 * (q.rdidx % 2 ^ q.log2n))) 64 with
        | (.ok bs _, t) =>
          let p : Packet := { index := (t.queue slice entry).rdidx, bytes := bs }
          let u := (t.modQueue slice entry (fun q => { q with head := some p, started := false, rdidx := q.rdidx + 1, headerDue := true })).modSlice slice
            (fun x => { x with lastTaken := entry })
          some (if t.mayStart slice entry bs then ((if packetType bs = 1 then u.kernelStarts slice entry p else u).writeHeader slice entry).settle
                else t.settle)
        | _ => none
      else none)
  | .packetKernel slice entry => some (fun s => (headOf s slice entry 1).bind (fun p =>
      due ((s.queue slice entry).started = false) (s.kernelStarts slice entry p).settle))
  | .packetWaitall slice entry => some (fun s => (headOf s slice entry 2).map (fun p => (s.evaluateWait slice entry p true).settle))
  | .packetWaitany slice entry => some (fun s => (headOf s slice entry 3).map (fun p => (s.evaluateWait slice entry p false).settle))
  | .packetSignal slice entry => some (fun s => (headOf s slice entry 4).map (fun p => (State.onWrite
      (s.unitWrite slice (s.queue slice entry).part (s.queue slice entry).ctx none (addrAt p.bytes 8) 8 (natAt p.bytes 4 4 != 0) (fun old =>
        leBytes 8 (if natAt p.bytes 4 4 = 0 then natAt p.bytes 0x10 8 else (natAt old 0 8 + natAt p.bytes 0x10 8) % 2 ^ 64)))
      slice entry .target (fun s => s.headDone slice entry)).settle))
  | .packetHold slice entry => some (fun s => (headOf s slice entry 5).map (fun p =>
      let q := s.queue slice entry
      let id := natAt p.bytes 4 4
      let n := (s.ctx q.part q.ctx).holds.getD id 0
      (if n = 0 then s.modQueue slice entry (fun q => { q with started := true })
       else (s.modCtx q.part q.ctx (fun x => { x with holds := x.holds.put id (n - 1) })).headDone slice entry).settle))
  | .packetRelease slice entry => some (fun s => (headOf s slice entry 6).map (fun p =>
      let q := s.queue slice entry
      let id := natAt p.bytes 4 4
      ((s.modCtx q.part q.ctx (fun x => { x with holds := x.holds.put id (min (x.holds.getD id 0 + 1) 255) })).headDone slice entry).settle))
  | .packetNop slice entry => some (fun s => (headOf s slice entry 7).map (fun _ => ((s.headDone slice entry).badHead slice entry).settle))
  | .waitReevaluate slice entry => some (fun s => match headOf s slice entry 2, headOf s slice entry 3 with
      | some p, _ => some (s.evaluateWait slice entry p true).settle
      | none, some p => some (s.evaluateWait slice entry p false).settle
      | none, none => none)
  | _ => none

end Sys2Proof.Machine
end

