-- ==== Sys2Proof/Safety/Devices.lean ====
section
/-!
DEFINITION. What the commands of Campion and of partition kernels do where they are due: partitions (R299 to R311, R357, R394),
contexts and key slots (R312 to R317, R366), evidence and the management port (R357 to R365, R402), errors (R338), ports
(R340 to R347), power (R395, R396), trace (R397 to R400), control space and service cores (R290, R303, R304, R318). The terms
of the statements about them.
-/
namespace Sys2Proof.Machine

/-! ## Partitions -/

/-- A partition in a state (R306). -/
def inState (s : State) (part : Nat) (x : PartState) (f : Partition → State) : Option State :=
  (s.part? part).bind (fun p => if p.state = x then some (f p) else none)

/-- The mailbox answers a request of a partition (R301, R305): a code, and the interrupt of its lowest slice. -/
def State.mailed (s : State) (part code : Nat) : State :=
  match s.part? part with
  | some p => (s.setPart part { p with mailbox := p.mailbox ++ [code] }).modSlice (p.slices.headD 0) (fun x => { x with interrupts := x.interrupts ++ [3] })
  | none => s.modSlice 0 (fun x => { x with interrupts := x.interrupts ++ [3] })

/-- A slice may be lent (R305, R310): the owner's, not lent, to another RUNNING partition, with a deadline in range. -/
def lendable (s : State) (part slice borrower deadline : Nat) (p : Partition) : Bool :=
  p.slices.contains slice && (s.slice slice).borrower.isNone && borrower != part && decide (10 ≤ deadline ∧ deadline ≤ 1000000) &&
    (match s.part? borrower with | some q => q.state == .running | none => false)

/-- The digest of bytes as a measurement slot takes it (R357). -/
def measured (slot bs : List Byte) : List Byte := Config.shake256 (slot ++ Config.shake256 bs 64) 64

/-- A partition with its MS(8 + i) extended by a component (R357). -/
def Partition.measures (p : Partition) (i : Nat) (bs : List Byte) : Partition :=
  { p with ms := (List.range p.ms.length).map (fun j => if j = i then measured (p.ms.getD j zeroSlot) bs else p.ms.getD j zeroSlot) }

/-- Campion reports at the management port of a package (R394, R402). -/
def State.reports (s : State) (pkg name : Nat) (bs : List Byte) : State :=
  s.modPackage pkg (fun k => { k with replies := k.replies ++ [{ name := name, bytes := bs }] })

/-- The happenings of partitions. -/
def partHappening : Instr → Option Happening
  | .partitionForm req => some (fun s =>
      let p := { newPartition req with secret := Config.domainSecret s.freeCount }
      some (if s.formOk req then
        (({ s with freeCount := s.freeCount + 1 }.setPart req.part p).moveMemory p.ofHbm).forEach p.slices (fun s x => s.handSlice x (some req.part))
      else s.reports (packageOf (req.slices.headD 0)) 0x103 []))
  | .partitionKernelFetch part image args => some (fun s => inState s part .booting (fun p =>
      (s.setPart part { (p.measures 1 image).measures 2 args with fetched := true }).forEach p.slices (fun s x =>
        s.modSlice x (fun y => { y with offline := false }))))
  | .partitionReady part => some (fun s => inState s part .booting (fun p => if p.fetched then s.setPart part { p with state := .running } else s))
  | .bootFailure part => some (fun s => inState s part .booting (fun p =>
      (s.endPartition part).reports (packageOf (p.slices.headD 0)) 0x104 (leBytes 2 part)))
  | .partAdd part slice => some (fun s => inState s part .running (fun p =>
      let pkg := packageOf slice
      let slices := ((slice :: p.slices).foldl (fun (m : Map Unit) x => m.put x ()) []).keys
      match (match p.memBase.find? pkg with | some b => some b | none => s.newBase? part pkg) with
      | some b =>
        if s.sliceFree slice = true ∧ layoutOk slices = true ∧ s.windowFree part pkg b (slices.filter (fun x => packageOf x == pkg)).length = true then
          s.setPart part { p with state := .resizing, request := some (.add slice) }
        else s.mailed part 1
      | none => s.mailed part 1))
  | .partRemove part slice _ => some (fun s => inState s part .running (fun p =>
      let rest := p.slices.filter (fun x => x != slice)
      let busy := (s.slice slice).offline = false ∧ Config.freeNat s.freeCount % 2 = 0
      let t := if (s.slice slice).offline then s else { s with freeCount := s.freeCount + 1 }
      (if !p.slices.contains slice || rest.isEmpty || (s.slice slice).borrower.isSome || !layoutOk rest then s.mailed part 1
       else if (s.queueOn slice = true ∧ (s.slice slice).lost = false) ∨ busy then t.mailed part 2
       else (t.setPart part { p with state := .resizing, request := some (.remove slice) }).modSlice slice (fun x =>
         { x with draining := true, offline := true })).settle))
  | .drainmaxExpiry part => some (fun s => (s.part? part).bind (fun p => match p.request with
      | some (.remove slice) =>
        some (s.forEach (s.tufts.filter (fun e => e.2.resident && sliceOf e.2.core == slice)) (fun s e => s.evictTuft e.1)).settle
      | _ => none))
  | .partLend part slice borrower deadline => some (fun s => inState s part .running (fun p =>
      if lendable s part slice borrower deadline p = false then s.mailed part 1
      else if s.sliceEmpty slice = false ∨ s.queueOn slice = true then s.mailed part 2
      else s.setPart part { p with state := .lending, request := some (.lend slice borrower deadline) }))
  | .partRecall part slice => some (fun s => inState s part .running (fun p =>
      (if p.slices.contains slice = false ∨ (s.slice slice).borrower = none then s.mailed part 1
       else (s.setPart part { p with state := .recalling, request := some (.recall slice) }).beginRecall slice).settle))
  | .recallDeadline slice => some (fun s => due ((s.slice slice).recalled = true)
      ((s.forEach ((s.borrowed slice).filter (fun e => !s.halted e.1 e.2)) (fun s e => s.recallTuft e.1)).judgeRecall slice).settle)
  | .recallWriteOut slice => some (fun s => (s.slice slice).owner.bind (fun part => due (s.writesOut slice = true)
      (let t := (s.forEach (s.parkedOn slice) (fun s e => (s.saveTuft e.1 true).judgeKernel e.2.kid)).scrubBack slice
       match t.part? part with
       | some q => if q.request = some (PartRequest.recall slice) then (t.setPart part { q with state := .running, request := none }).mailed part 0 else t
       | none => t).settle))
  | .partHalt part => some (fun s => inState s part .running (fun p => (s.setPart part { p with state := .halted }).mailed part 0))
  | .partResume part => some (fun s => inState s part .halted (fun p =>
      if p.request = none then (s.setPart part { p with state := .running }).mailed part 0 else s))
  | .partDissolve part => some (fun s => inState s part .halted (fun p =>
      (if p.request = none then (s.setPart part { p with request := some .dissolve }).forEach p.slices (fun s x => s.beginRecall x) else s).settle))
  | .correctableError slice => some (fun s => some (s.modSlice slice (fun x => { x with errors := x.errors + 1 })))
  | .uncorrectableError site => some (fun s => match site with
      | .sector paddr => some (if s.isPoisoned (paddr / 32) then s else { s with poison := s.poison ++ [paddr / 32] })
      | .tuft tid => (s.tuft? tid).bind (fun t => due (t.resident = true) (s.breakTuft tid).settle))
  | .sliceLost slice => some (fun s => due ((s.slice slice).lost = false) (s.loseSlice slice).settle)
  | .packageReset pkg => some (fun s =>
      let t := s.forEach (s.partsIn pkg) (fun s part => s.leavePackage pkg part)
      let u := t.forEach ((List.range 8).map (fun i => 8 * pkg + i)) (fun s x => if (s.slice x).borrower.isSome then s.loseSlice x else s)
      let fails := Config.bringUpFails u.freeCount
      some (if 1 ≤ fails ∧ fails ≤ 5 then (u.wipePackage pkg (fails - 1)).reports pkg 0x104 (leBytes 1 fails) else u.wipePackage pkg 5).settle)
  | _ => none

/-! ## Contexts and key slots -/

/-- A context command is taken where its context's state allows it, and no DESTROY of it is in progress: CMD reads 0 and RESULT 0 (R313,
R314). -/
def ctxTaken (s : State) (part ctx : Nat) (allowed : List CtxState) (f : State → State) : Option State :=
  (s.part? part).bind (fun p =>
    if (s.ctx part ctx).ending = true then some s.settle
    else if ctx < 0xFFFF ∧ (s.ctx part ctx).state ∈ allowed then some (f (s.modCtx part ctx (fun x => { x with cmd := 0, result := 0 }))).settle
    else some ((s.modCtx part ctx (fun x => { x with cmd := 0, result := 1 })).refuse (p.slices.headD 0) (0x06000018 + 64 * ctx)).settle)

/-- The state of a context changes. -/
def State.ctxBecomes (s : State) (part ctx : Nat) (x : CtxState) : State := s.modCtx part ctx (fun c => { c with state := x })

/-- A key command has its RESULT (R316). -/
def keyAnswered (s : State) (slice : Nat) (code : Nat) : State := (s.keyResult slice code).settle

/-- A key command is taken while no ERASE of the slice's partition is in progress (R316, R317). -/
def keyTaken (s : State) (slice : Nat) (f : Nat → State) : Option State :=
  (s.slice slice).owner.bind (fun part => (s.part? part).map (fun p => if p.erasing.isSome then s.settle else f part))

/-- The first steps of an ERASE (R317): every core of the partition sends its stores, and what was sent is acknowledged. -/
def State.sentBefore (s : State) (part : Nat) : State := (s.writeBackPart part).finishPart part

/-- The slot that a LOAD or LOADW makes VALID (R315, R316). -/
def loadedSlot (c : KeyCommand) (pair : List Byte) : KeySlot :=
  { owner := field c.control.toNat 48 16, valid := true, decl := c.control.getLsbD 2, mark := c.control.setWidth 2, digest := c.digest, key := 1 + leNat pair }

/-- The happenings of contexts and key slots. -/
def ctxHappening : Instr → Option Happening
  | .ctxCreate part ctx => some (fun s => ctxTaken s part ctx [.none, .destroyed] (fun s =>
      (s.modCtx part ctx (fun x => { x with state := .created, holds := [], children := [] })).zeroChildren part ctx))
  | .ctxActivate part ctx => some (fun s => ctxTaken s part ctx [.created] (fun s => s.ctxBecomes part ctx .active))
  | .ctxSuspend part ctx save => some (fun s => ctxTaken s part ctx [.active] (fun s =>
      let t := (s.ctxBecomes part ctx .suspended).forEach (s.kernelsOf part ctx) (fun s e => s.preemptKernel e.1)
      if save then t.forEach (t.tuftsOfCtx part ctx) (fun s e => s.orderSuspension e.1) else t))
  | .ctxResume part ctx => some (fun s => ctxTaken s part ctx [.suspended] (fun s =>
      (s.ctxBecomes part ctx .active).forEach (s.kernelsOf part ctx) (fun s e => match s.kernel? e.1 with
        | some k =>
          if k.state = .suspended then s.noteKernel e.1 (fun k => { k with state := .queued, stage := 0, preempt := false, again := false })
          else if k.state = .draining ∧ k.preempt = true then s.modKernel e.1 (fun k => { k with again := true })
          else s
        | none => s)))
  | .ctxFault part ctx => some (fun s => ctxTaken s part ctx [.created, .active, .suspended] (fun s =>
      (s.ctxBecomes part ctx .faulted).forEach ((s.ctxBecomes part ctx .faulted).kernelsOf part ctx) (fun s e => s.discardKernel e.1)))
  | .ctxDestroy part ctx => some (fun s => ctxTaken s part ctx [.created, .active, .suspended, .faulted] (fun s => s.destroyCtx part ctx))
  | .keyLoad slice c => some (fun s => keyTaken s slice (fun part =>
      if s.loadOk part c = true ∧ field c.control.toNat 0 2 ≠ 3 ∧ c.key.take 32 ≠ c.key.drop 32 then
        keyAnswered (s.putKey part c.kh (loadedSlot c c.key)) slice 0
      else keyAnswered s slice 1))
  | .keyLoadw slice c => some (fun s => keyTaken s slice (fun part =>
      let a := natAt c.key 0 8
      if s.loadOk part c = false ∨ (c.key.drop 8).any (fun b => b != 0) = true ∨ a % 64 ≠ 0 ∨ s.kernelFrames part a 256 = false ∨ s.poisoned a 256 = true then
        keyAnswered s slice 1
      else match s.unwrap? slice part c (s.viewBytes 0 a 256) with
        | none => keyAnswered s slice 2
        | some pair => keyAnswered (s.putKey part c.kh (loadedSlot c pair)) slice 0))
  | .keyErase slice c => some (fun s => keyTaken s slice (fun part =>
      if commandSound c = true ∧ c.control = 0 ∧ c.digest.all (fun b => b == 0) = true ∧ (s.keySlot part c.kh).valid = true then
        (let t := (s.modPart part (fun p => { p with erasing := some (c.kh, slice) })).sentBefore part
         if t.mayErase part = true then
           keyAnswered (((t.putKey part c.kh KeySlot.zero).invalidatePart part).modPart part (fun p => { p with erasing := none })) slice 0
         else t.settle)
      else keyAnswered s slice 1))
  | _ => none

/-! ## Evidence and the management port -/

/-- A request of a partition (R358), in whatever state of its life; it waits while an earlier one is in progress (R305). -/
def whileUp (s : State) (part : Nat) (f : Partition → State) : Option State :=
  (s.part? part).bind (fun p => if p.state = .dissolved then none else some (if p.request = none then f p else s))

/-- The package answers at its management port (R362, R402), once it is up (R394). -/
def told (s : State) (pkg name : Nat) (bs : List Byte) : Option State :=
  if 5 ≤ (s.package pkg).step then some (s.modPackage pkg (fun k => { k with replies := k.replies ++ [{ name := name, bytes := bs }] })) else none

/-- The port answers an SPDM request (R362): the response's code is the request's less 0x80, and the transcripts take both messages in. -/
def responds (s : State) (pkg request : Nat) (bs : List Byte) (hear : Transcript → Transcript) : Option State :=
  (told s pkg (request - 0x80) bs).map (fun t => t.modPackage pkg (fun k => { k with heard := hear k.heard }))

/-- An SPDM error (R363), after which no earlier measurement message counts. -/
def errs (s : State) (pkg : Nat) (bs : List Byte) : Option State :=
  (told s pkg 0x7F bs).map (fun t => t.modPackage pkg (fun k => { k with heard := { k.heard with meas := [] } }))

/-- Ed448 over the SHA3-512 digest of octets, under the alias key SHAKE256(CDI1 ‖ "alias") of a package (R355, R362). -/
def signedBy (s : State) (pkg : Nat) (octets : List Byte) : List Byte :=
  Config.signEd448 (Config.shake256 (s.cdi1 pkg ++ asciiBytes "alias") 57) (Config.sha3 octets)

/-- The happenings of attestation. -/
def trustHappening : Instr → Option Happening
  | .evidence part pkg out nonce => some (fun s => whileUp s part (fun p =>
      if (packagesOf p.slices).contains pkg = true ∧ s.mailAddress part out 1472 = true ∧ s.mailAddress part nonce 64 = true ∧ s.poisoned nonce 64 = false then
        (s.putClear out (s.evidence part pkg p (s.viewBytes 0 nonce 64))).mailed part 0
      else s.mailed part 3))
  | .certs part pkg out len => some (fun s => whileUp s part (fun p =>
      let bs := s.chain pkg
      if (packagesOf p.slices).contains pkg = true ∧ bs.length ≤ len ∧ s.mailAddress part out (4 + bs.length) = true then
        (s.putClear out (leBytes 4 bs.length ++ bs)).mailed part 0
      else s.mailed part 3))
  | .extend part slot a => some (fun s => whileUp s part (fun p =>
      if 11 ≤ slot ∧ slot ≤ 15 ∧ s.mailAddress part a 64 = true ∧ s.poisoned a 64 = false then
        (s.setPart part { p with ms := (List.range p.ms.length).map (fun j =>
          if j = slot - 8 then Config.shake256 (p.ms.getD j zeroSlot ++ s.viewBytes 0 a 64) 64 else p.ms.getD j zeroSlot) }).mailed part 0
      else s.mailed part 3))
  | .getVersion pkg => some (fun s => responds s pkg 0x84 [0x13] (fun _ => { vca := exchange 0x84 [] [0x13], certs := [], meas := [] }))
  | .getCapabilities pkg => some (fun s =>
      let bs := leBytes 4 0x16
      responds s pkg 0xE1 bs (fun h => { vca := h.vca ++ exchange 0xE1 [] bs, certs := [], meas := [] }))
  | .negotiateAlgorithms x => some (fun s =>
      let bs := leBytes 4 (x.sign &&& 0x800) ++ leBytes 4 (x.hash &&& 0x20) ++ leBytes 4 0x1
      responds s x.package 0xE3 bs (fun h =>
        { vca := h.vca ++ exchange 0xE3 (leBytes 4 x.sign ++ leBytes 4 x.hash) bs, certs := [], meas := [] }))
  | .getDigests pkg => some (fun s =>
      let bs := Config.sha3 (s.chain pkg)
      responds s pkg 0x81 bs (fun h => { h with certs := h.certs ++ exchange 0x81 [] bs, meas := [] }))
  | .getCertificate pkg slot offset len => some (fun s =>
      if slot = 0 ∧ offset < (s.chain pkg).length then
        let bs := ((s.chain pkg).drop offset).take len
        responds s pkg 0x82 bs (fun h => { h with certs := h.certs ++ exchange 0x82 (leBytes 1 slot ++ leBytes 2 offset ++ leBytes 2 len) bs, meas := [] })
      else errs s pkg [0x01])
  | .challenge pkg nonce => some (fun s =>
      let bs := Config.sha3 (s.chain pkg) ++ nonce
      let h := (s.package pkg).heard
      if nonce.length = 32 then
        responds s pkg 0x83 (bs ++ signedBy s pkg (h.vca ++ h.certs ++ exchange 0x83 nonce bs)) (fun h => { h with certs := [], meas := [] })
      else errs s pkg [0x01])
  | .getMeasurements pkg index nonce => some (fun s =>
      match s.measurements? pkg index with
      | some bs =>
        let said := exchange 0xE0 (leBytes 1 index ++ nonce) (bs ++ nonce)
        let h := (s.package pkg).heard
        if nonce.length = 0 then responds s pkg 0xE0 bs (fun h => { h with meas := h.meas ++ said })
        else if nonce.length = 32 then responds s pkg 0xE0 (bs ++ nonce ++ signedBy s pkg (h.vca ++ h.meas ++ said)) (fun h => { h with meas := [] })
        else errs s pkg [0x01]
      | none => errs s pkg [0x01])
  | .spdmUnsupported pkg code => some (fun s => errs s pkg (0x07 :: leBytes 1 code))
  | .mgmtOtherMessage pkg code => some (fun s =>
      if 0x100 ≤ code ∧ code < 0x110 then
        told s pkg 0x106 (leBytes 4 ((s.slice (8 * pkg + code % 16 / 2)).islands.getD (code % 2) Island.reset).stat.toNat)
      else if 0x200 ≤ code ∧ code < 0x600 then
        (match s.part? (code - 0x200) with
         | some p =>
           if p.state = .halted ∧ p.request = none ∧ (packagesOf p.slices).contains pkg = true ∧ 5 ≤ (s.package pkg).step then
             some ((s.dissolve (code - 0x200) p).reports pkg 0x101 []).settle
           else (told s pkg 0x100 []).map State.settle
         | none => (told s pkg 0x100 []).map State.settle)
      else told s pkg 0x100 (leBytes 1 code))
  | .firmwareStage pkg slot image => some (fun s =>
      if 3 ≤ slot ∧ slot ≤ 7 then
        told (s.modPackage pkg (fun k => { k with staged := k.staged.filter (fun e => e.1 != slot) ++ [(slot, Config.shake256 image 64)] })) pkg 0x101 []
      else told s pkg 0x100 (leBytes 1 slot))
  | .activationStart pkg => some (fun s =>
      if (s.package pkg).snapshot = none then
        told (s.modPackage pkg (fun k => { k with aseq := k.aseq + 1, snapshot := some k.ms, active := k.staged, staged := [] })) pkg 0x101 []
      else told s pkg 0x102 [])
  | .activationCommit pkg => some (fun s =>
      if (s.package pkg).snapshot = none then told s pkg 0x100 []
      else
        let extended (k : Package) : Package := { k with ms := k.active.foldl (fun ms e => extendAt ms e.1 e.2) k.ms, snapshot := none, active := [] }
        let t := s.modPackage pkg extended
        told (t.forEach (t.partsIn pkg) (fun s p => s.raiseLseq p)) pkg 0x101 [])
  | .activationRollback pkg => some (fun s =>
      if (s.package pkg).snapshot = none then told s pkg 0x100 [] else told (s.modPackage pkg (fun k => { k with snapshot := none, active := [] })) pkg 0x101 [])
  | _ => none

/-! ## Ports -/

/-- The port of a slice becomes another (R341); a change of its state is traced for the slice's owner (R399). -/
def State.portBecomes (s : State) (slice : Nat) (p : Port) : State :=
  let t := s.modSlice slice (fun x => { x with port := p })
  if p.state = (s.slice slice).port.state then t
  else match (s.slice slice).owner with
    | some part => t.trace slice part 10 255 0 0 (p.state.code + p.txUp * 2 ^ 32 + p.rxUp * 2 ^ 64) false
    | none => t

/-- A port in one of some states becomes another. -/
def portFrom (s : State) (slice : Nat) (from_ : List PortState) (f : Port → Port) : Option State :=
  let p := (s.slice slice).port
  if p.state ∈ from_ then some (s.portBecomes slice (f p)) else none

/-- The happenings of ports. -/
def portHappening : Instr → Option Happening
  | .portEnable slice => some (fun s => portFrom s slice [.down] (fun p => { p with state := .training, fails := 0, txUp := 0, rxUp := 0 }))
  | .portDisable slice => some (fun s => portFrom s slice [.fenced, .failed] (fun p => { p with state := .down, txUp := 0, rxUp := 0 }))
  | .portFence slice => some (fun s => if (s.slice slice).port.state = .up ∨ (s.slice slice).port.state = .degraded then
      portFrom (s.dropInFlight slice) slice [.up, .degraded] (fun p => { p with state := .fenced }) else none)
  | .portUnfence slice => some (fun s => if s.secretOf slice = (s.slice slice).port.secret then some s
      else portFrom s slice [.fenced] (fun p => { p with state := .keying }))
  | .trainingDone slice tx rx => some (fun s => if 1 ≤ tx ∧ tx ≤ 32 ∧ 1 ≤ rx ∧ rx ≤ 32 then
      portFrom s slice [.training] (fun p => { p with state := .keying, txUp := tx, rxUp := rx }) else none)
  | .trainingFailed slice => some (fun s => portFrom s slice [.training] (fun p =>
      { p with fails := p.fails + 1, state := if p.fails < 2 then .training else .failed }))
  | .keyingDone slice => some (fun s => (portFrom s slice [.keying] (fun p =>
      if s.portOwned slice = false then { p with state := .fenced }
      else
        let q := if p.secret = s.secretOf slice then p else
          { p with secret := s.secretOf slice, sent := [], seen := p.seen.filter (fun x => (s.trays.find? x.1).isNone) }
        { q with state := if p.txUp = 32 ∧ p.rxUp = 32 then .up else .degraded })).map State.settle)
  | .wavelengthLoss slice tx rx => some (fun s =>
      let p := (s.slice slice).port
      if tx ≤ p.txUp ∧ rx ≤ p.rxUp ∧ (tx < p.txUp ∨ rx < p.rxUp) then
        portFrom s slice [.up, .degraded] (fun p =>
          if tx = 0 ∨ rx = 0 then { p with state := .training, fails := 0, txUp := tx, rxUp := rx } else { p with state := .degraded, txUp := tx, rxUp := rx })
      else none)
  | .retrainingRestored slice => some (fun s => portFrom s slice [.degraded] (fun p => { p with state := .up, txUp := 32, rxUp := 32 }))
  | .rekey slice => some (fun s =>
      let p := (s.slice slice).port
      if (p.state = .up ∨ p.state = .degraded) ∧ 2 ^ 63 ≤ p.number then
        some (((s.portBecomes slice { p with state := .keying, epoch := p.epoch + 1, number := 1 }).forgetSource (sourceId slice)).modPort slice s.forgetTrays)
      else none)
  | .lctlWrite slice v => some (fun s => some (
      if field v.toNat 24 8 = 0 ∧ field v.toNat 16 8 ≠ 0 ∧ field v.toNat 0 16 ≠ 0 then s.modSlice slice (fun x => { x with port := { x.port with lctl := v } })
      else s.refuse slice 0x08000004))
  | .packetReceive slice pkt => some (fun s => some (
      if s.takes slice pkt = false then s.modSlice slice (fun x => { x with drops := x.drops + 1 })
      else
        let t := s.modSlice slice (fun x => { x with port := x.port.accept pkt.source pkt.number })
        match s.answered? slice pkt with
        | some a => t.emit slice pkt.source a
        | none => match s.trays.find? pkt.source with
          | some (part, ctx) => t.trayPacket slice pkt part ctx
          | none => t.podPacket slice pkt).settle)
  | .retransmitTimeout mid => some (fun s => (s.msg? mid).map (fun m =>
      (if remoteOf (sliceOf m.core) m.paddr = false ∨ (s.heldAtPort m = true ∧ m.tries ≠ 3) then s
       else if m.tries < 2 then (s.setMsg { m with tries := m.tries + 1 }).ask (sliceOf m.core) m.request
       else s.failMsg m).settle))
  | .cpuTrayRegister source part ctx => some (fun s => (s.part? part).bind (fun p =>
      due (p.state ≠ .dissolved) { s with trays := s.trays.put source (part, ctx) }))
  | _ => none

/-! ## Power, trace and control space -/

/-- An island of a slice becomes another (R395). -/
def State.islandBecomes (s : State) (slice n : Nat) (f : Island → Island) : State :=
  s.modSlice slice (fun x => { x with islands := (List.range x.islands.length).map (fun i =>
    if i = n then f (x.islands.getD i Island.reset) else x.islands.getD i Island.reset) })

/-- The clock in MHz of PEAK or BALANCED (R396), for the compute die (0) and the base-die pair (1). -/
def clockOf (n mode : Nat) : Nat :=
  match mode, n with
  | 0, 0 => 2400
  | 0, _ => 3000
  | _, 0 => 2100
  | _, _ => 2600

/-- The clock and CAPMISS that CAPPED gives an island (R396), which draws some watts at each clock: the highest clock, in steps of 25 MHz from
the floor to PEAK's, at which it draws at most CAP; where there is none, the floor and CAPMISS. -/
def cappedAt (n cap : Nat) (draw : Nat → Nat) (f : Nat) (miss : Bool) : Prop :=
  let floor := if n = 0 then 600 else 800
  let step (g : Nat) : Prop := floor ≤ g ∧ g ≤ clockOf n 0 ∧ (g - floor) % 25 = 0
  if miss then f = floor ∧ ∀ g, step g → cap < draw g
  else step f ∧ draw f ≤ cap ∧ ∀ g, step g → f < g → cap < draw g

/-- An island takes the clock of its mode (R395, R396); THERM keeps a lowered clock low. -/
def settled (n : Nat) (x : Island) (draw : Nat → Nat) : Island :=
  let c := if field x.ctl.toNat 0 2 = 2 then x.capped n draw else (clockOf n (field x.ctl.toNat 0 2), false)
  { x with fclk := if x.therm then min x.fclk c.1 else c.1, capmiss := c.2 }

/-- CAPPED, whatever the island draws (R396), and as R403 asks: no clock keeps it to 5 W. -/
def CappedClocks : Prop :=
  (∀ (n : Nat) (x : Island) (draw : Nat → Nat), n < 2 → cappedAt n (field x.ctl.toNat 20 12) draw (x.capped n draw).1 (x.capped n draw).2) ∧
  (∀ (n moment f : Nat), 5 < drawnWatts n moment f)

/-- A service core's access to memory (R290, R291, R318): both its ends lie in frames of the partition and its slot is VALID below SEALED;
else a record is posted and no data comes back. -/
def serviceTouches (s : State) (acc : ServiceAccess) (part : Nat) : State :=
  let k := s.keySlot part acc.kh
  let n := match acc.data with | some bs => bs.length | none => acc.len
  let owned (a : Nat) : Bool := field (s.ownerWord a).toNat 31 1 == 1 && field (s.ownerWord a).toNat 16 10 == part
  let refused (code detail : Nat) : State :=
    { (s.postSliceFault acc.slice part (SysFault.ending code 0 detail) .info 0 none 0 none).2 with readData := [] }
  if (owned acc.paddr && owned (acc.paddr + n - 1)) = false then refused 7 acc.paddr
  else if k.valid = false ∨ k.mark = 3 then refused 5 acc.kh
  else match acc.data with
    | some bs => (s.putBytes k.key acc.paddr (spread 0 bs)).writeLines acc.slice acc.paddr acc.kh .write bs
    | none =>
      if s.poisoned acc.paddr acc.len then refused 8 acc.paddr
      else { s.readLines acc.slice acc.paddr acc.kh k.key acc.len with readData := s.viewBytes k.key acc.paddr acc.len }

/-- A service core's access to another package crosses the ports of both slices (R341). -/
def serviceCrosses (s : State) (acc : ServiceAccess) (target : Nat) : Bool :=
  packageOf acc.slice == acc.paddr / 2 ^ 42 || (s.linkUp acc.slice && s.linkUp target)

/-- One that no port carries ends as a transaction without an answer (R344): a MEMERR record with reason LINK, and no data. -/
def serviceFails (s : State) (acc : ServiceAccess) (part : Nat) : State :=
  { (s.postSliceFault acc.slice part { SysFault.ending 8 0 acc.paddr with reason := 1 } .info 0 none 0 none).2 with readData := [] }

/-- The happenings of power, trace and control space. -/
def controlHappening : Instr → Option Happening
  | .pwrctlWrite slice n v => some (fun s =>
      if 2 ≤ n then none
      else if field v.toNat 2 18 ≠ 0 ∨ field v.toNat 0 2 = 3 ∨ (field v.toNat 0 2 = 2 ∧ field v.toNat 20 12 = 0) then some (s.refuse slice (0x0A000000 + 0x40 * n))
      else
        some ({ s with freeCount := s.freeCount + 1 }.islandBecomes slice n (fun x => settled n { x with ctl := v } (drawnWatts n s.freeCount))))
  | .thermThrottle slice n hot f => some (fun s => some (s.islandBecomes slice n (fun x =>
      if hot then { x with therm := true, fclk := min x.fclk f } else if x.therm then settled n { x with therm := false } (drawnWatts n f) else x)))
  | .powerWindow slice n watts f => some (fun s => some (s.islandBecomes slice n (fun x =>
      let y := { x with power := min watts 65535 }
      if field x.ctl.toNat 0 2 = 2 then settled n y (fun g => if g = x.fclk then max watts 6 else drawnWatts n f g) else y)))
  | .trctlWrite slice v => some (fun s => some (
      if field v.toNat 20 12 ≠ 0 ∨ field v.toNat 19 1 ≠ 0 ∨ field v.toNat 2 2 ≠ 0 ∨ field v.toNat 0 2 = 3 then s.refuse slice 0x0B000000
      else s.modSlice slice (fun x =>
        let t := { x.teasel with ctl := v }
        let empty := { t with held := [], drops := t.drops + t.held.length }
        { x with teasel := if field v.toNat 0 2 = 0 then empty else t })))
  | .teaselDrain slice => some (fun s =>
      let x := s.slice slice
      match x.teasel.first?, x.owner with
      | some r, some part =>
        if r.time < (s.package (packageOf slice)).clk then
          (if x.teasel.dest = 2 then
            some ((s.modPackage (packageOf slice) (fun k => { k with replies := k.replies ++ [{ name := 0x105, bytes := r.bytes }] })).modSlice slice
              (fun x => { x with teasel := { x.teasel with held := dropRecord r x.teasel.held } }))
           else due (x.teasel.dest = 1 ∧ x.teasel.ringOk = true ∧ x.teasel.room = true) (s.ringRecord slice part r))
        else none
      | _, _ => none)
  | .urgentWrite slice v => some (fun s => some
      (if v.toNat ≤ 192 then s.modSlice slice (fun x => { x with urgent := v.toNat }) else s.refuse slice 0x00F00000).settle)
  | .frameOwnerWrite slice frame v => some (fun s => (s.slice slice).owner.map (fun part =>
      let f := packageOf slice * 2 ^ 26 + frame
      let w := (s.ownerWord (65536 * f)).toNat
      if frame < 2 ^ 24 ∧ field w 31 1 = 1 ∧ field w 16 10 = part then
        { s with frames := s.frames.put f (BitVec.ofNat 32 (2 ^ 31 + field v.toNat 26 5 * 2 ^ 26 + part % 1024 * 2 ^ 16 + field v.toNat 0 16)) }
      else s.refuse slice (0x10000000 + 4 * frame)))
  | .controlRegWrite slice offset width value => some (fun s => some (s.writeControl slice offset width value).settle)
  | .serviceCoreAccess acc => some (fun s => (s.slice acc.slice).owner.bind (fun part =>
      let t := s.modSlice acc.slice (fun x => { x with offline := false })
      let o := acc.paddr % 2 ^ 42
      if o < 2 ^ 40 then some (if t.reachable acc.slice acc.paddr = true then serviceTouches t acc part else serviceFails t acc part).settle
      else if 3 * 2 ^ 40 ≤ o ∧ o < 3 * 2 ^ 40 + 8 * 2 ^ 32 then
        let target := acc.paddr / 2 ^ 42 * 8 + (o - 3 * 2 ^ 40) / 2 ^ 32
        some (if serviceCrosses t acc target = false then serviceFails t acc part
        else if (t.slice target).owner = some part then
          (match acc.data with
           | some bs => t.writeControl target (o % 2 ^ 32) bs.length (storeValue bs)
           | none => { t with readData := t.readControl target part (o % 2 ^ 32) acc.len })
         else { t.modSlice target (fun x => { x with drops := x.drops + 1 }) with readData := [] }).settle
      else none))
  | _ => none

/-- An access beside memory and the control spaces of the eight slices stops (R302, R303): no address is there. -/
def HoleFaults : Prop :=
  ∀ (acc : ServiceAccess) (s : State) (part : Nat), (s.slice acc.slice).owner = some part → 2 ^ 40 ≤ acc.paddr % 2 ^ 42 →
    (acc.paddr % 2 ^ 42 < 3 * 2 ^ 40 ∨ 3 * 2 ^ 40 + 8 * 2 ^ 32 ≤ acc.paddr % 2 ^ 42) →
    exec (.serviceCoreAccess acc) s = .fault (.noSuchAddress acc.paddr)

end Sys2Proof.Machine
end

