-- ==== Sys2Proof/Safety/General.lean ====
section
/-!
DEFINITION. What holds of many instructions at once: traps at issue (R31, R51, R86, R92), trap entry (R328, R336), repeats (R94),
loop-backs (R141), what a write leaves of memory and of the local stores. The terms of the statements about them.
-/
namespace Sys2Proof.Machine

/-! ## Traps at issue -/

/-- UNIFORM_DIVERGENCE (R51, R331): SUB 0 for an issuing set that is not the live set, 1 for a guard of two values; the live set
and the issuing set in TINFO. -/
def divergenceTrap (s : State) (sh : Sheaf) (sub : Nat) : TrapInfo := TrapInfo.at cDivergence sub 0 (sh.live ++ s.slot.lanes)

/-- The instructions that reach nothing but registers of their sheaf. -/
def registerRule (i : Instr) : Option SheafRule :=
  (uniformRule i).orElse (fun _ => (uniformFloatRule i).orElse (fun _ => (predRule i).orElse (fun _ => (affineRule i).orElse (fun _ =>
    (demoteRule i).orElse (fun _ => (lateRule i).orElse (fun _ => shuffleRule i))))))

/-- The sheaf-wide writes of registers, with their guard (R50): uniform and affine destinations, demotions and reductions, late
uniform results. -/
def wideRule (i : Instr) : Option SheafRule :=
  ((uniformRule i).orElse (fun _ => (uniformFloatRule i).orElse (fun _ => (affineRule i).orElse (fun _ =>
    (demoteRule i).orElse (fun _ => lateRule i))))).filter (fun r => r.wide)

/-- The instructions that some role may not issue, with what the sheaf and the tuft must be like for ROLE to be judged (R31, R86):
varying floating point, special functions, matrix functions, commands. -/
def roleBound (i : Instr) : Option (RoleClass × (State → Sheaf → Prop)) :=
  match laneRule i, predRule i, lateRule i, demoteRule i, matrixRule i, commandRule i with
  | some r, _, _, _, _, _ => if r.float then some (.varyingFloat, fun _ _ => True) else none
  | _, some r, _, _, _, _ => if r.float then some (.varyingFloat, fun _ _ => True) else none
  | _, _, some r, _, _, _ => if r.float then some (.special, fun _ _ => True) else none
  | _, _, _, some r, _, _ => if r.float then some (.varyingFloat, fun _ _ => True) else none
  | _, _, _, _, some r, _ => some (.matrix, r.legal)
  | _, _, _, _, _, some r => some (.copy, r.legal)
  | _, _, _, _, _, _ => none

/-- The sheaf and its tuft allow an instruction and its role issues it: neither ILLEGAL nor ROLE is raised on their account (R31, R86). -/
def Allowed (i : Instr) (s : State) (sh : Sheaf) : Prop :=
  (∀ c legal, roleBound i = some (c, legal) → c.issues sh.role = true) ∧
  (∀ table ∈ [specialRule, handlerRule, barrierRule, matrixRule, commandRule, tagRule, ringRule, handleRule, childRule, markRule],
    ∀ r : ActRule, table i = some r → r.legal s sh)

/-- The local loads and stores: their guard, the register of the base, the operand of the offset, their bytes, whether they store. -/
def localAccess : Instr → Option (BitVec 4 × BitVec 1 × BitVec 3 × BitVec 8 × Nat × Bool)
  | .ldl g n _ o b _ => some (g, n, b, o, 4, false)
  | .ldlW g n _ o b _ => some (g, n, b, o, 8, false)
  | .ldlQ g n _ o b _ => some (g, n, b, o, 16, false)
  | .ldlU8 g n _ o b => some (g, n, b, o, 1, false)
  | .ldlS8 g n _ o b => some (g, n, b, o, 1, false)
  | .ldlU16 g n _ o b => some (g, n, b, o, 2, false)
  | .ldlS16 g n _ o b => some (g, n, b, o, 2, false)
  | .stl g n _ o b _ => some (g, n, b, o, 4, true)
  | .stlW g n _ o b _ => some (g, n, b, o, 8, true)
  | .stlQ g n _ o b _ => some (g, n, b, o, 16, true)
  | .stlB8 g n _ o b => some (g, n, b, o, 1, true)
  | .stlB16 g n _ o b => some (g, n, b, o, 2, true)
  | _ => none

/-! ## Trap entry (R145, R328, R330) -/

/-- LANE of a trap (R330): the lane that the cause names itself, else 0 for a cause of the whole sheaf, else the lowest issuing lane, for a
trap that resumes after its instruction the lowest acting one. -/
def laneNamed (t : TrapInfo) (slot : Slot) : Nat :=
  if t.lane ≠ 0 ∨ t.cause ∈ [3, 4, 8, 10, 11, 14, 15, 16, 17] then t.lane else lowestLane (if t.after then slot.acting else slot.lanes)

/-- What trap entry makes of a sheaf: every live lane stands at the trap entry; the issuing lanes resume where the trap says, the
others where they stood; loop slots, round and REPREM are saved and clear; TCAUSE and TINFO say why; nothing that a program
computed has changed. -/
structure Entered (sh sh' : Sheaf) (slot : Slot) (t : TrapInfo) (entry : Addr) : Prop where
  state   : sh'.state = .trapped
  pcs     : ∀ l, l < 32 → sh'.pc l = if hasLane sh.live l then entry else sh.pc l
  saved   : ∃ h, sh'.handler = some h ∧
    (∀ l, l < 32 → h.xpc.getD l 0 =
      if hasLane slot.lanes l && hasLane sh.live l then (if t.after then slot.addr + 4 else slot.group) else sh.pc l) ∧
    h.loop0 = sh.loop0 ∧ h.loop1 = sh.loop1 ∧ h.round = sh.round ∧ h.reprem = t.reprem ∧ h.tinfo = t.info ∧
    (t.cause < 2 ^ 8 → laneNamed t slot < 2 ^ 5 → t.sub < 2 ^ 3 →
      field h.tcause.toNat 0 8 = t.cause ∧ field h.tcause.toNat 8 5 = laneNamed t slot ∧ field h.tcause.toNat 13 3 = t.sub ∧ field h.tcause.toNat 16 16 = 0)
  loops   : sh'.loop0 = LoopSlot.zero ∧ sh'.loop1 = LoopSlot.zero
  cleared : sh'.round = Round.none ∧ sh'.reprem = 0 ∧ sh'.hints = Hints.none ∧ sh'.wait = none
  frame   : sh'.vregs = sh.vregs ∧ sh'.aregs = sh.aregs ∧ sh'.uregs = sh.uregs ∧ sh'.preds = sh.preds ∧ sh'.descs = sh.descs ∧
    sh'.tiles = sh.tiles ∧ sh'.status = sh.status ∧ sh'.mode = sh.mode ∧ sh'.fairq = sh.fairq ∧ sh'.wbase = sh.wbase ∧
    sh'.wrbase = sh.wrbase ∧ sh'.exited = sh.exited ∧ sh'.faulted = sh.faulted ∧ sh'.buf = sh.buf

/-! ## Repeats (R94, R95) -/

/-- The distance of a field at repeat k under a payload: STEP times k where its step bit is set. -/
def repDistance (p : BitVec 19) (bit k : Nat) : Int :=
  if p.getLsbD bit then (match (p.toNat / 2 ^ 6) % 4 with | 0 => 1 | 1 => 2 | 2 => 4 | _ => -1) * k else 0

/-- A register number at a distance, where it stays in its file of 32. -/
def movedTo (d : BitVec 5) (x : Int) : Option (BitVec 5) := if 0 ≤ d.toNat + x ∧ d.toNat + x < 32 then some (BitVec.ofInt 5 (d.toNat + x)) else none

/-- An operand byte at a distance, where it stays in the file that it names. -/
def movedByte (b : BitVec 8) (x : Int) : Option (BitVec 8) :=
  let y := b.toNat + x
  if (if b.toNat < 32 then 0 ≤ y ∧ y < 32 else if b.toNat < 64 then 32 ≤ y ∧ y < 64 else 64 ≤ y ∧ y < 256) then some (BitVec.ofInt 8 y) else none

/-- A field that holds a predicate number at a distance. -/
def movedPred (b : BitVec 8) (x : Int) : Option (BitVec 8) :=
  if x = 0 then some b else if 0 ≤ b.toNat + x ∧ b.toNat + x < 12 then some (BitVec.ofInt 8 (b.toNat + x)) else none

/-- A field that must be zero stays zero. -/
def movedZero {α : Type} (x : Int) (v : Option α) : Option α := if x = 0 then v else none

/-- The instructions of the VV format with two sources (R94). -/
def repeatVv : List (BitVec 4 → BitVec 1 → BitVec 5 → BitVec 5 → BitVec 8 → Instr) :=
  [.vadd, .vsub, .vsubr, .vminS, .vmaxS, .vminU, .vmaxU, .vadifS, .vand, .vor, .vxor, .vandn, .vshl, .vshrU, .vshrS, .vrotl, .vmul, .vmulhS, .vmulhU,
   .vmad, .vaddsS, .vsubsS, .vaddsU, .vsubsU, .vbfeU, .vbfeS, .vbfi, .vpermb, .vfadd, .vfsub, .vfmul, .vfma, .vfnma, .vfmin, .vfmax, .vfcpys, .vhadd2,
   .vhsub2, .vhmul2, .vhfma2, .vhmin2, .vhmax2]
/-- Those with one source, whose va is zero. -/
def repeatVu : List (BitVec 4 → BitVec 1 → BitVec 5 → BitVec 8 → Instr) := [.vpopc, .vclz, .vbrev, .vmov]
/-- The instructions of the UR format on uniform registers. -/
def repeatUr : List (BitVec 4 → BitVec 1 → BitVec 8 → BitVec 8 → Instr) :=
  [.sadd, .ssub, .ssubr, .smul, .smulhS, .smulhU, .sand, .sor, .sxor, .sandn, .sshl, .sshrU, .sshrS, .sminS, .smaxS, .sminU, .smaxU, .smov, .spopc, .sclz,
   .sseq, .ssne, .ssltS, .ssltU, .saddW, .ssubW, .sdivS, .sdivU, .sremS, .sremU, .sfadd, .sfsub, .sfmul, .sfrcp, .sfrsq, .sfmin, .sfmax, .sfdiv, .sfsqrt,
   .scvtF32Si32, .scvtF32Ui32, .scvtSi32F32, .scvtUi32F32, .scvtSi32F32Rn, .sflt, .sfle, .sfeq]
/-- The instructions of the AF format with two sources. -/
def repeatAf : List (BitVec 4 → BitVec 1 → BitVec 5 → BitVec 5 → BitVec 8 → Instr) := [.aadd, .asub, .amul, .ashl]
/-- Those whose aa is zero. -/
def repeatAu : List (BitVec 4 → BitVec 1 → BitVec 5 → BitVec 8 → Instr) := [.aset, .alane, .amov]
/-- The loads and stores of the ME format, their last two fields F or K and L or C. -/
def repeatGlobal (x : BitVec 1) (y : BitVec 4) : List (BitVec 4 → BitVec 1 → BitVec 5 → BitVec 8 → BitVec 3 → Instr) :=
  [fun g n d o b => .ldg g n d o b x y, fun g n d o b => .ldgW g n d o b x y, fun g n d o b => .ldgQ g n d o b x y,
   fun g n d o b => .stg g n d o b x y, fun g n d o b => .stgW g n d o b x y, fun g n d o b => .stgQ g n d o b x y,
   fun g n d o b => .stgB8 g n d o b x, fun g n d o b => .stgB16 g n d o b x, fun g n d o b => .ldgU8 g n d o b x, fun g n d o b => .ldgS8 g n d o b x,
   fun g n d o b => .ldgU16 g n d o b x, fun g n d o b => .ldgS16 g n d o b x]
/-- The local loads and stores of the ME and MX formats. -/
def repeatLocal (y : BitVec 4) : List (BitVec 4 → BitVec 1 → BitVec 5 → BitVec 8 → BitVec 3 → Instr) :=
  [fun g n d o b => .ldl g n d o b y, fun g n d o b => .ldlW g n d o b y, fun g n d o b => .ldlQ g n d o b y, fun g n d o b => .stl g n d o b y,
   fun g n d o b => .stlW g n d o b y, fun g n d o b => .stlQ g n d o b y, .stlB8, .stlB16, .ldlU8, .ldlS8, .ldlU16, .ldlS16]

/-- The instructions that REP may repeat (R94), each with the instruction that it is when SD, SA and SB have moved their fields by some
distances, none where a field leaves its file; and whether its format has a field for SA and for SB. -/
inductive RepeatForm : Instr → (Int → Int → Int → Option Instr) → Bool → Bool → Prop where
  | vv {mk} (h : mk ∈ repeatVv) (g : BitVec 4) (n : BitVec 1) (d a : BitVec 5) (b : BitVec 8) : RepeatForm (mk g n d a b)
      (fun x y z => (movedTo d x).bind (fun d => (movedTo a y).bind (fun a => (movedByte b z).map (mk g n d a)))) true true
  | vu {mk} (h : mk ∈ repeatVu) (g : BitVec 4) (n : BitVec 1) (d : BitVec 5) (b : BitVec 8) : RepeatForm (mk g n d b)
      (fun x y z => movedZero y ((movedTo d x).bind (fun d => (movedByte b z).map (mk g n d)))) true true
  | ur {mk} (h : mk ∈ repeatUr) (g : BitVec 4) (n : BitVec 1) (d b : BitVec 8) : RepeatForm (mk g n d b)
      (fun x _ z => (movedByte d x).bind (fun d => (movedByte b z).map (mk g n d))) false true
  | smovp (g : BitVec 4) (n : BitVec 1) (d b : BitVec 8) : RepeatForm (.smovp g n d b)
      (fun x _ z => (movedByte d x).bind (fun d => (movedPred b z).map (.smovp g n d))) false true
  | pmovs (g : BitVec 4) (n : BitVec 1) (d b : BitVec 8) : RepeatForm (.pmovs g n d b)
      (fun x _ z => (movedPred d x).bind (fun d => (movedByte b z).map (.pmovs g n d))) false true
  | af {mk} (h : mk ∈ repeatAf) (g : BitVec 4) (n : BitVec 1) (d a : BitVec 5) (b : BitVec 8) : RepeatForm (mk g n d a b)
      (fun x y z => (movedTo d x).bind (fun d => (movedTo a y).bind (fun a => (movedByte b z).map (mk g n d a)))) true true
  | au {mk} (h : mk ∈ repeatAu) (g : BitVec 4) (n : BitVec 1) (d : BitVec 5) (b : BitVec 8) : RepeatForm (mk g n d b)
      (fun x y z => movedZero y ((movedTo d x).bind (fun d => (movedByte b z).map (mk g n d)))) true true
  | aneg (g : BitVec 4) (n : BitVec 1) (d a : BitVec 5) : RepeatForm (.aneg g n d a)
      (fun x y z => movedZero z ((movedTo d x).bind (fun d => (movedTo a y).map (.aneg g n d)))) true true
  | glob {mk} (k : BitVec 1) (l : BitVec 4) (h : mk ∈ repeatGlobal k l) (g : BitVec 4) (n : BitVec 1) (d : BitVec 5) (o : BitVec 8) (b : BitVec 3) :
      RepeatForm (mk g n d o b) (fun x _ z => (movedTo d x).bind (fun d => (movedByte o z).map (fun o => mk g n d o b))) false true
  | pfg (g : BitVec 4) (n : BitVec 1) (o : BitVec 8) (b : BitVec 3) (f : BitVec 1) :
      RepeatForm (.pfg g n o b f) (fun x _ z => movedZero x ((movedByte o z).map (fun o => .pfg g n o b f))) false true
  | loc {mk} (l : BitVec 4) (h : mk ∈ repeatLocal l) (g : BitVec 4) (n : BitVec 1) (d : BitVec 5) (o : BitVec 8) (b : BitVec 3) :
      RepeatForm (mk g n d o b) (fun x _ z => (movedTo d x).bind (fun d => (movedByte o z).map (fun o => mk g n d o b))) false true

/-- The instruction of repeat k under a payload. -/
def atRepeat (at_ : Int → Int → Int → Option Instr) (p : BitVec 19) (k : Nat) : Option Instr :=
  at_ (repDistance p 8 k) (repDistance p 9 k) (repDistance p 10 k)

/-- A register among those that R98 keeps apart: varying ones by their physical number, the others by their operand byte. -/
def Sheaf.nameOf (sh : Sheaf) (b : Nat) : Nat := if b < 32 then sh.phys b else 1000 + b

/-- What one repeat does (R94): its guard; whether it is a sheaf-wide write; whether STAGE sheaves may not issue it; the operand bytes of the
registers that it waits for, where the group leaves results in flight; its condition and its effect on the machine. -/
structure RepeatRule where
  g     : BitVec 4
  n     : BitVec 1
  wide  : Bool
  float : Bool
  needs : List Nat
  goes  : State → Slot → Sheaf → Prop
  after : State → Slot → Sheaf → State

/-- A varying instruction as a repeat. -/
def LaneRule.once (r : LaneRule) : RepeatRule :=
  { g := BitVec.ofNat 4 r.g, n := BitVec.ofNat 1 r.n, wide := false, float := r.float, needs := [], goes := fun _ _ _ => True,
    after := fun s slot sh => s.setSheaf slot.sid
      (((sh.writeV r.d slot.acting (fun l => (r.val sh l).1) (r.mark sh)).raise (orFlags ((lanesOf slot.acting).map (fun l => (r.val sh l).2)))).noted
        [sh.phys r.d]) }

/-- An instruction of registers as a repeat. -/
def SheafRule.once (r : SheafRule) (needs : List Nat) : RepeatRule :=
  { g := r.g, n := r.n, wide := r.wide, float := r.float, needs := needs, goes := fun _ slot sh => r.fits sh slot.acting = true,
    after := fun s slot sh => (r.after s).setSheaf slot.sid (r.effect s slot sh) }

/-- A memory instruction as a repeat. -/
def MachineRule.once (r : MachineRule) (needs : List Nat) : RepeatRule :=
  { g := r.g, n := r.n, wide := r.wide, float := false, needs := needs, goes := r.goes,
    after := fun s slot sh => (r.after s slot sh).notes slot.sid (r.writes.map sh.phys) }

/-- The operand bytes that a repeatable instruction waits for (R98): of the loads, stores and late results; the others leave nothing in
flight. -/
def repeatNeeds : Instr → List Nat
  | .sdivS _ _ d b | .sdivU _ _ d b | .sremS _ _ d b | .sremU _ _ d b | .sfdiv _ _ d b | .sfsqrt _ _ d b => [d.toNat, b.toNat]
  | .ldg _ _ d o b _ _ | .stg _ _ d o b _ _ => [d.toNat, o.toNat, 192 + 2 * b.toNat, 193 + 2 * b.toNat]
  | .ldgW _ _ d o b _ _ | .stgW _ _ d o b _ _ => [d.toNat, d.toNat + 1, o.toNat, 192 + 2 * b.toNat, 193 + 2 * b.toNat]
  | .ldgQ _ _ d o b _ _ | .stgQ _ _ d o b _ _ => [d.toNat, d.toNat + 1, d.toNat + 2, d.toNat + 3, o.toNat, 192 + 2 * b.toNat, 193 + 2 * b.toNat]
  | .ldgU8 _ _ d o b _ | .ldgS8 _ _ d o b _ | .ldgU16 _ _ d o b _ | .ldgS16 _ _ d o b _ | .stgB8 _ _ d o b _ | .stgB16 _ _ d o b _ =>
    [d.toNat, o.toNat, 192 + 2 * b.toNat, 193 + 2 * b.toNat]
  | .pfg _ _ o b _ => [o.toNat, 192 + 2 * b.toNat, 193 + 2 * b.toNat]
  | .ldl _ _ d o b _ | .stl _ _ d o b _ => [d.toNat, o.toNat, 224 + b.toNat]
  | .ldlW _ _ d o b _ | .stlW _ _ d o b _ => [d.toNat, d.toNat + 1, o.toNat, 224 + b.toNat]
  | .ldlQ _ _ d o b _ | .stlQ _ _ d o b _ => [d.toNat, d.toNat + 1, d.toNat + 2, d.toNat + 3, o.toNat, 224 + b.toNat]
  | .ldlU8 _ _ d o b | .ldlS8 _ _ d o b | .ldlU16 _ _ d o b | .ldlS16 _ _ d o b | .stlB8 _ _ d o b | .stlB16 _ _ d o b =>
    [d.toNat, o.toNat, 224 + b.toNat]
  | _ => []

/-- MHAZARD of local loads and stores (R195 row 5): under MSTRICT, where every lane's access is aligned and exists, one that touches a byte of its
own allotment which a pending operation stores, or that stores a byte which one reads, raises row 5, where its registers meet neither row 2
nor row 4. -/
def LocalHazards : Prop :=
  ∀ (i : Instr) (g : BitVec 4) (n : BitVec 1) (b : BitVec 3) (o : BitVec 8) (size : Nat) (store : Bool) (s : State) (sh : Sheaf) (m : MatOp)
    (x : Nat × Int) (p : Place) (k : Nat),
    localAccess i = some (g, n, b, o, size, store) → i.wf = true → Standing s sh → s.slot.rep = none → sh.pend = [] → Prefixed i s →
    modeMstrict sh.mode = true → (∀ m ∈ sh.mops, (store = false → ∀ q ∈ (repeatNeeds i).dropLast.dropLast, sh.phys q ∉ m.bRegs) ∧
      ∀ q ∈ repeatNeeds i, sh.nameOf q ∉ m.kind.rowRegs) →
    let slot := s.here sh g.toNat n.toNat
    let la := sh.readU (160 + b.toNat)
    (∀ y ∈ sh.begun.localAccesses slot o, (localWord la y.2).toNat % size = 0 ∧ ((s.begun sh).localAddr? sh.tid sh.core la y.2 size).isSome = true) →
    x ∈ sh.begun.localAccesses slot o → (s.begun sh).localAddr? sh.tid sh.core la x.2 size = some p → p.tid = sh.tid → m ∈ sh.mops → k < size →
    (p.off + k ∈ m.writesBytes ∨ (store = true ∧ p.off + k ∈ m.readsBytes)) →
    exec i s = .next (((s.begun sh).trap slot (TrapInfo.at cMhazard 5 0 (s.slot.word.setWidth 64))).settle)

/-- What a repeat of an instruction does. -/
def repeatRule (i : Instr) : Option RepeatRule :=
  ((laneRule i).map LaneRule.once).orElse (fun _ =>
    (((uniformRule i).orElse (fun _ => (uniformFloatRule i).orElse (fun _ => (affineRule i).orElse (fun _ => lateRule i)))).map
      (fun r => r.once (repeatNeeds i))).orElse (fun _ =>
        ((globalRule i).orElse (fun _ => localRule i)).map (fun r => r.once (repeatNeeds i))))

/-- Repeat k of the group in the issue slot of s0 runs the instruction i from one state to another (R94): its guard is judged on the state that
the repeat before it left; the results in flight that it needs come in; it has its effect, and none where no lane acts. start is the first
name of the group's results. -/
def RunsRepeat (s0 : State) (start k : Nat) (i : Instr) (s t : State) : Prop :=
  ∃ (r : RepeatRule) (sh x : Sheaf), repeatRule i = some r ∧ i.wf = true ∧ s.sheaf? s0.slot.sid = some sh ∧ sh.issuing = true ∧
    (r.float = true → sh.role ≠ .stage) ∧
    let slot : Slot := { s0.slot with index := k, acting := sh.acting r.g.toNat r.n.toNat s0.slot.lanes }
    (r.wide = true → slot.lanes = sh.live ∧ guardUniform slot = true) ∧
    let u := s.forceResults slot.sid (fun p => (p.window == 0 || decide (start ≤ p.id)) && p.meets (r.needs.map sh.nameOf))
    u.sheaf? slot.sid = some x ∧ x.issuing = true ∧
    ((slot.acting = 0 ∧ t = u) ∨ (slot.acting ≠ 0 ∧ r.goes u slot x ∧ t = r.after u slot x))

/-- The repeats from first on, up to and without k, run from s to a state. -/
inductive RunsTo (s : State) (start : Nat) (at_ : Nat → Option Instr) (first : Nat) : Nat → State → Prop where
  | none : RunsTo s start at_ first first s
  | more {k : Nat} {i : Instr} {t u : State} (before : RunsTo s start at_ first k t) (here : at_ k = some i) (runs : RunsRepeat s start k i t u) :
      RunsTo s start at_ first (k + 1) u

/-- The repeats that a group still has to run: all COUNT + 1, or the last REPREM of them (R95). -/
def repeatsToRun (p : BitVec 19) (reprem : Nat) : Nat := if reprem = 0 ∨ p.toNat % 64 + 1 < reprem then p.toNat % 64 + 1 else reprem

/-- The first name of a group's results: a group that a wait or a fault has cut keeps the one it began with (R95, R99). -/
def State.groupStart (s : State) (sh : Sheaf) : Nat := match sh.second with | some x => x.start | none => sh.began.getD s.nextId

/-- REP (R94, R95): its instruction runs COUNT + 1 times, or the last REPREM times, each time with its stepped fields and with its guard judged
afresh, as one instruction; where the fields of a repeat leave their file or break R85, that repeat raises ILLEGAL, those before it stand,
and REPREM is what is left to run. -/
def RepeatsRun : Prop :=
  ∀ (i : Instr) (at_ : Int → Int → Int → Option Instr) (sa sb : Bool) (p : BitVec 19) (s : State) (sh : Sheaf), RepeatForm i at_ sa sb → Standing s sh →
    s.slot.rep = some p → Prefixed i s → sh.pend = [] → sh.mops = [] → s.groupStart sh ≤ s.nextId → (sa = false → p.getLsbD 9 = false) → (sb = false → p.getLsbD 10 = false) →
    let count := p.toNat % 64 + 1
    let first := count - repeatsToRun p sh.reprem
    let start := s.groupStart sh
    (∀ t y, RunsTo s start (atRepeat at_ p) first count t → t.sheaf? s.slot.sid = some y → y.issuing = true →
      ∃ sh', exec i s = .next (t.setSheaf s.slot.sid sh').settle ∧ sh'.still = y.still ∧
        ∀ l, l < 32 → sh'.pc l = if hasLane (s.slot.lanes &&& y.live) l then s.slot.addr + 4 else y.pc l) ∧
    (∀ k t y, first ≤ k → k < count → RunsTo s start (atRepeat at_ p) first k t → t.sheaf? s.slot.sid = some y → y.issuing = true →
      (∀ j, atRepeat at_ p k = some j → j.wf = false) →
      exec i s = .next ((t.trap { s.slot with index := k }
        { TrapInfo.at cIllegal 0 0 (s.slot.word.setWidth 64) with reprem := count - k }).settle))

/-- REP before an instruction of another format, or with a step bit for a field that its format does not have, raises ILLEGAL at it, and REPREM
is what was to run (R94, R95). -/
def RepeatsElsewhereTrap : Prop :=
  ∀ (i : Instr) (w : Nat) (p : BitVec 19) (s : State) (sh : Sheaf), encodeNat i = some w → hintRule i = none → s.sheaf? s.slot.sid = some sh →
    sh.issuing = true → s.slot.rep = some p →
    (∀ at_ sa sb, RepeatForm i at_ sa sb → (sa = false ∧ p.getLsbD 9 = true) ∨ (sb = false ∧ p.getLsbD 10 = true)) →
    exec i s = .next ((s.trap s.slot
      { TrapInfo.at cIllegal 0 0 (s.slot.word.setWidth 64) with reprem := repeatsToRun p sh.reprem }).settle)

/-! ## Loop-backs (R141) -/

/-- The conditions of Ready, but that some armed slot ends here; the sheaf has converged. -/
structure AtEnd (s : State) (sh : Sheaf) : Prop where
  there   : s.sheaf? s.slot.sid = some sh
  issuing : sh.issuing = true
  norep   : s.slot.rep = none
  nopend  : sh.pend = []
  nomops  : sh.mops = []
  ends    : sh.atLoopEnd s.slot.addr = true
  whole   : s.slot.lanes = sh.live

/-- A slot that ends at an address is counted down. -/
def LoopSlot.counted (x : LoopSlot) (a : Addr) : LoopSlot := if x.lc ≠ 0 ∧ a = x.le then { x with lc := x.lc - 1 } else x

/-- What the check at an address leaves of slot 1 and slot 0, and where the lanes go back to: slot 1 first, slot 0 only where slot 1
does not go back. -/
def loopCheck (loop1 loop0 : LoopSlot) (a : Addr) : LoopSlot × LoopSlot × Option Addr :=
  if loop1.lc ≠ 0 ∧ a = loop1.le ∧ loop1.lc ≠ 1 then (loop1.counted a, loop0, some loop1.ls)
  else (loop1.counted a, loop0.counted a, if loop0.lc ≠ 0 ∧ a = loop0.le ∧ loop0.lc ≠ 1 then some loop0.ls else none)

/-- The sheaf with its loop slots checked at an address. -/
def Sheaf.looped (sh : Sheaf) (a : Addr) : Sheaf :=
  { sh with loop1 := (loopCheck sh.loop1 sh.loop0 a).1, loop0 := (loopCheck sh.loop1 sh.loop0 a).2.1 }

/-- At the end of an armed slot the instruction goes on to a state t, settled, its sheaf having become y but for its loop slots, which have
been checked, and for what the issue of any instruction changes; its lanes go back, or on. -/
def Loops (i : Instr) (s t : State) (y : Sheaf) : Prop :=
  ∃ sh', exec i s = .next (t.setSheaf s.slot.sid sh').settle ∧ sh'.still = (y.looped s.slot.addr).still ∧
    ∀ l, l < 32 → sh'.pc l =
      if hasLane (s.slot.lanes &&& y.live) l then ((loopCheck y.loop1 y.loop0 s.slot.addr).2.2).getD (s.slot.addr + 4) else y.pc l

/-- Uniform, affine and predicate instructions, demotions and results that return later, at the end of a body (R141). -/
def RegisterLoops : Prop :=
  ∀ (i : Instr) (r : SheafRule) (s : State) (sh : Sheaf), registerRule i = some r → i.wf = true → AtEnd s sh → Prefixed i s →
    (r.wide = true → guardUniform (r.slot s sh) = true) → (r.float = true → sh.role ≠ .stage) →
    ((r.slot s sh).acting = 0 → Loops i s s sh) ∧
    ((r.slot s sh).acting ≠ 0 → r.fits sh (r.slot s sh).acting = true → Loops i s (r.after s) (r.effect s (r.slot s sh) sh.begun))

/-- Loads and stores at the end of a body (R141). -/
def MemoryLoops : Prop :=
  ∀ table ∈ [globalRule, localRule, wordsRule], ∀ (i : Instr) (r : MachineRule) (s : State) (sh : Sheaf), table i = some r → i.wf = true → AtEnd s sh →
    Prefixed i s → (r.wide = true → guardUniform (s.here sh r.g.toNat r.n.toNat) = true) → r.legal s.slot →
    let slot := s.here sh r.g.toNat r.n.toNat
    (slot.acting = 0 → Loops i s s sh) ∧
    (slot.acting ≠ 0 → r.goes (s.begun sh) slot sh.begun →
      let t := (r.after (s.begun sh) slot sh.begun).notes s.slot.sid (r.writes.map sh.phys)
      ∀ y, t.sheaf? s.slot.sid = some y → y.over = false → Loops i s t y)

/-- At the end of an armed slot a sheaf that has not converged raises UNIFORM_DIVERGENCE, whatever the guard (R141 step 1). -/
def SplitLoopEndsTrap : Prop :=
  ∀ (i : Instr) (w : Nat) (s : State) (sh : Sheaf), encodeNat i = some w → hintRule i = none → w / 2 ^ 26 ∉ [0x18, 0x19, 0x1A, 0x1B, 0x1C, 0x1D] →
    i.wf = true → s.sheaf? s.slot.sid = some sh → sh.issuing = true → s.slot.rep = none → Prefixed i s → Allowed i (s.begun sh) sh.begun →
    (∀ g n d o v, i = .ldp g n d o v → s.slot.ximm = none) →
    sh.atLoopEnd s.slot.addr = true → s.slot.lanes ≠ sh.live → Raises i s sh (divergenceTrap s sh 0)

/-- No instruction of majors 0x18 to 0x1D and no hint may stand at the end of an armed slot (R142). -/
def LoopEndsTrap : Prop :=
  (∀ (i : Instr) (w : Nat) (s : State) (sh : Sheaf), encodeNat i = some w → w / 2 ^ 26 ∈ [0x18, 0x19, 0x1A, 0x1B, 0x1C, 0x1D] →
    s.sheaf? s.slot.sid = some sh → sh.issuing = true → s.slot.rep = none → sh.atLoopEnd s.slot.addr = true →
    Raises i s sh (TrapInfo.at cIllegal 0 0 (s.slot.word.setWidth 64))) ∧
  (∀ (i : Instr) (legal : Hints → Prop) (add : Hints → Hints) (s : State) (sh : Sheaf), hintRule i = some (legal, add) →
    s.sheaf? s.slot.sid = some sh → sh.atLoopEnd s.slot.addr = true →
    exec i s = .next ((s.trap { s.slot with group := s.slot.addr }
      { TrapInfo.at cIllegal 0 0 (s.slot.word.setWidth 64) with reprem := sh.reprem }).settle))

/-! ## Bytes written -/

/-- Some lane's access covers a place. -/
def covered (xs : List (Nat × Place)) (size : Nat) (p : Place) : Prop := ∃ x ∈ xs, x.2.tid = p.tid ∧ x.2.off ≤ p.off ∧ p.off < x.2.off + size

/-- The byte at a place in a local store. -/
def State.localByte (s : State) (p : Place) : Byte := (s.localBytes p 1).headD 0

/-- The local store instructions: how many bytes a lane stores, the register of the base, the offset's operand. -/
def localStore : Instr → Option (BitVec 4 × BitVec 1 × Nat × BitVec 3 × BitVec 8)
  | .stl g n _ o b _ => some (g, n, 4, b, o)
  | .stlW g n _ o b _ => some (g, n, 8, b, o)
  | .stlQ g n _ o b _ => some (g, n, 16, b, o)
  | .stlB8 g n _ o b => some (g, n, 1, b, o)
  | .stlB16 g n _ o b => some (g, n, 2, b, o)
  | _ => none

end Sys2Proof.Machine
end

