-- ==== Sys2Proof/Certificates/Slice0/Obligations.lean ====
section
/-!
DEFINITION. The statements about the machine that are left to prove.
-/
open Sys2Proof Sys2Proof.Machine

/-! ## Encoding, fetch, step -/

/-- R83, R86: where nothing is due and a quadrant's turn is settled, the word its sheaf fetches runs as the instruction it decodes to;
a word without one runs as an unassigned encoding; what the agenda holds comes first. -/
def Obligations.StepRunsTheFetchedInstruction : Prop :=
  (∀ (s : State) (i : Instr) (rest : List Instr), s.agenda = i :: rest → step s = exec i { s with agenda := rest }) ∧
  (∀ (s s1 s2 : State) (q sid : Nat) (chosen sh : Sheaf) (c : Chosen) (w : Word),
    s.agenda = [] → s.pinned = some q → ({ s with pinned := none } : State).chosen? (q / 4) (q % 4) = some (sid, chosen) →
    ({ s with pinned := none } : State).chargeSlot (q / 4) (q % 4) sid = s1 → s1.sheaf? sid = some sh → sh.choose sid = some c →
    (s1.setSheaf sid c.sheaf).fetchWord c.sheaf c.slot.addr = (.word w, s2) →
    (∀ i, decode w = some i →
      step s = exec i { s2.sampleIssue (q / 4) (q % 4) c.sheaf c.slot.addr with slot := { c.slot with word := w } }) ∧
    (decode w = none → step s = exec (.unassignedEncoding w)
      { s2.sampleIssue (q / 4) (q % 4) c.sheaf c.slot.addr with slot := { c.slot with word := w } }))

/-- R5, R83, R84, R155: a fetch from a canonical address, translated, executable and granted, takes the four bytes that stand there, the first the
least significant; a fetch from an address that is not canonical is the fault PROT, reason CANON. Model's choices: log entry 7. -/
def Obligations.FetchTakesFourBytes : Prop :=
  ∀ (s s1 : State) (sh : Sheaf) (a : Addr) (t : Trans),
    (canonical a = true → s.xlateTuft sh.tid sh.core a false = (.ok t, s1) → t.x = true →
      (∀ k, s.kernelOf? sh = some k → k.inImage a = true) → s1.reachable (sliceOf sh.core) t.paddr = true →
      s1.homeRefusal (s1.partOf sh) (s1.ctxOf sh) t.paddr t.kh (s1.keySlot (s1.partOf sh) t.kh).key = none → s1.poisoned t.paddr 4 = false →
      let byte (k : Nat) : Nat := (s1.viewByte (s1.keySlot (s1.partOf sh) t.kh).key (t.paddr + k)).toNat
      s.fetchWord sh a = (.word (BitVec.ofNat 32 (byte 0 + 2 ^ 8 * byte 1 + 2 ^ 16 * byte 2 + 2 ^ 24 * byte 3)), s1)) ∧
    (canonical a = false → s.fetchWord sh a = (.fault (SysFault.replayable fProt rCanon a 0 0), s))

/-- R83, R89, R102, R122, R140: words that the spec lists decode to the instructions that stand beside them; words of reserved
majors, of unassigned functions and with non-zero must-be-zero bits decode to none. -/
def Obligations.ListedWordsDecode : Prop :=
  decodeNat 0x4BCD0004 = some (.smovi 15 0 104 4) ∧ decodeNat 0x4FCD4001 = some (.saddi 15 0 106 1) ∧
  decodeNat 0x43CD2D40 = some (.sadd 15 0 105 106) ∧ decodeNat 0x53CD8300 = some (.srd 15 0 108 0x18) ∧
  decodeNat 0x5BC10354 = some (.aset 15 0 1 106) ∧ decodeNat 0x13C1010F = some (.vmov 15 0 1 33) ∧
  decodeNat 0x27C21684 = some (.vcmpI 15 0 1 1 104 4) ∧ decodeNat 0x3BC20B49 = some (.shflUp 15 0 2 1 105 1) ∧
  decodeNat 0x77C68002 = some (.loop 15 0 0 104 2) ∧ decodeNat 0x73C10000 = some (.exit 15 0) ∧
  decodeNat 0x8BC82100 = some (.ldgQ 15 0 8 33 0 0 0) ∧ decodeNat 0xD7C62D00 = some (.mdesc 15 0 1 104) ∧
  decodeNat 0xE7CE4E01 = some (.twaitall 15 0 114 112) ∧ decodeNat 0xFFC80703 = some (.rep 1 1 1 0 3) ∧
  decodeNat 0 = none ∧ decodeNat 0x7FC00000 = none ∧ decodeNat 0xCFC00000 = none ∧ decodeNat 0xFFD80000 = none ∧ decodeNat 0x73C10001 = none

/-- R83, R85 to R91: the word that the encoder gives a well-formed instruction decodes to that instruction, every operand at every value. -/
def Obligations.DecodeInvertsEncode : Prop := ∀ (i : Instr) (w : Nat), i.wf = true → encodeNat i = some w → decodeNat w = some i

/-- R83, R86, R89: the instruction that a 32-bit word decodes to is encoded by that word and no other. -/
def Obligations.EncodeInvertsDecode : Prop := ∀ (w : Nat) (i : Instr), w < 2 ^ 32 → decodeNat w = some i → encodeNat i = some w

/-- R83, R85, R86, R125, R331: a word to which no instruction is assigned raises ILLEGAL with the word in TINFO, whatever its bits hold; so does
an instruction that is not well-formed: a guard that names no predicate, p15 sensed by 1, a register of the wrong file or not aligned, a
code or a special register that the tables do not list. -/
def Obligations.UnassignedWordsTrap : Prop :=
  (∀ (w : Word) (s : State) (sh : Sheaf), Ready s sh → UnassignedSays w s sh) ∧
  (∀ (i : Instr) (w : Nat) (s : State) (sh : Sheaf), encodeNat i = some w → i.wf = false → hintRule i = none → s.sheaf? s.slot.sid = some sh →
    sh.issuing = true → s.slot.rep = none → Raises i s sh (TrapInfo.at cIllegal 0 0 (s.slot.word.setWidth 64)))

/-! ## Invariants -/

/-- R394 step 4: after reset every byte of memory reads zero in the clear, and memory is in its canonical form. -/
def Obligations.ResetMeetsTheInvariant : Prop := State.reset.Inv ∧ ∀ a, State.reset.viewByte 0 a = 0

/-- Memory keeps its canonical form in every step from every state. -/
def Obligations.StepsKeepMemoryCanonical : Prop := ∀ (s t : State), s.Inv → step s = .next t → t.Inv

/-- No instruction and no happening is refused, and only an access of a service core to an address the spec leaves unmapped stops. Model's choices:
log entry 52. -/
def Obligations.EveryInstructionGoesOn : Prop :=
  ∀ (i : Instr) (s : State), (∃ t, exec i s = .next t) ∨ ∃ acc, i = .serviceCoreAccess acc ∧ exec i s = .fault (.noSuchAddress acc.paddr)

/-! ## Memory -/

/-- R158, R302, R368: bytes written under a key are read under it where they were written, and every other byte reads as before: under
that key everywhere, under any key in a sector that was not written. -/
def Obligations.WrittenBytesAreRead : Prop :=
  ∀ (s : State) (key paddr : Nat) (bytes : Map Byte), (bytes.map Prod.fst).Nodup →
    (∀ e ∈ bytes, (s.putBytes key paddr bytes).viewByte key (paddr + e.1) = e.2) ∧
    (∀ a, (∀ e ∈ bytes, a ≠ paddr + e.1) → (s.putBytes key paddr bytes).viewByte key a = s.viewByte key a) ∧
    (∀ k a, (∀ e ∈ bytes, a / 32 ≠ (paddr + e.1) / 32) → (s.putBytes key paddr bytes).viewByte k a = s.viewByte k a)

/-- R154, R159: a local store changes the bytes that its lanes address, and no other byte of any local store and none of memory. -/
def Obligations.LocalStoresChangeTheirBytes : Prop :=
  ∀ (i : Instr) (s t u : State) (sh : Sheaf) (g : BitVec 4) (n : BitVec 1) (size : Nat) (base : BitVec 3) (off : BitVec 8) (xs : List (Nat × Place)),
    localStore i = some (g, n, size, base, off) → i.wf = true → Ready s sh → Prefixed i s → s.waiting = [] →
    (s.here sh g.toNat n.toNat).acting ≠ 0 →
    (s.begun sh).checkLocal (s.here sh g.toNat n.toNat) sh.begun (sh.readU (160 + base.toNat))
      (sh.begun.localAccesses (s.here sh g.toNat n.toNat) off) size true = .go xs u →
    exec i s = .next t →
    (∀ p, ¬ covered xs size p → t.localByte p = s.localByte p) ∧ (∀ key a, t.viewByte key a = s.viewByte key a)

/-- R126, R158: an instruction that only writes registers of its sheaf leaves every byte of memory and every other sheaf, and all else
of the machine, where no sheaf waits. -/
def Obligations.RegisterInstructionsLeaveTheRest : Prop :=
  ∀ (i : Instr) (r : SheafRule) (s : State) (sh : Sheaf), registerRule i = some r → i.wf = true → Ready s sh → Prefixed i s → s.waiting = [] →
    (r.wide = true → Wide s sh r.g.toNat r.n.toNat) → (r.float = true → sh.role ≠ .stage) →
    (r.slot s sh).acting ≠ 0 → r.fits sh (r.slot s sh).acting = true →
    ∃ t sh', exec i s = .next t ∧ t = (r.after s).setSheaf s.slot.sid sh' ∧ (∀ key a, t.viewByte key a = s.viewByte key a) ∧
      ∀ x, x ≠ s.slot.sid → t.sheaf? x = s.sheaf? x

/-! ## Instructions that write registers -/

/-- R105, R107, R111 to R121: what each varying instruction that completes at once writes, lane by lane, and what it leaves. -/
def Obligations.VaryingResults : Prop :=
  ∀ (i : Instr) (r : LaneRule) (s : State) (sh : Sheaf), laneRule i = some r → i.wf = true → Ready s sh → Prefixed i s →
    (r.float = true → sh.role ≠ .stage) → ∃ sh', exec i s = .next (s.setSheaf s.slot.sid sh').settle ∧ LaneResult s sh sh' r

/-- R93, R125 to R132: what each uniform integer instruction that completes at once writes. -/
def Obligations.UniformResults : Prop := Rules uniformRule

/-- R129: what each uniform floating-point instruction that completes at once writes. -/
def Obligations.UniformFloatResults : Prop := Rules uniformFloatRule

/-- R44, R119, R120, R134: what compares and predicate logic write. -/
def Obligations.PredicateResults : Prop := Rules predRule

/-- R42, R43, R133: what affine instructions write, and their trap AWRAP. -/
def Obligations.AffineResults : Prop := Rules affineRule ∧ RuleTraps affineRule

/-- R135: what demotions and reductions write, and the trap DEMOTE. -/
def Obligations.DemotionResults : Prop := Rules demoteRule ∧ RuleTraps demoteRule

/-- R135, R136: AFROMV finds the affine register that presents the values of its lanes. -/
def Obligations.AfromvResults : Prop :=
  ∀ (g : BitVec 4) (n : BitVec 1) (d : BitVec 8) (a : BitVec 5) (s : State) (sh : Sheaf), (Instr.afromv g n d a).wf = true → Ready s sh →
    Prefixed (.afromv g n d a) s → Wide s sh g.toNat n.toNat → AfromvSays g n d a s sh

/-- R60, R96, R98, R118, R127: which result each division, square root and special function leaves in flight. -/
def Obligations.LateResults : Prop := Rules lateRule

/-- R122, R123: which result a shuffle leaves in flight; one without members writes nothing, an LA before it opening its window all the
same (R99). -/
def Obligations.ShuffleResults : Prop :=
  Rules shuffleRule ∧
  ∀ (i : Instr) (r : SheafRule) (s : State) (sh : Sheaf), shuffleRule i = some r → i.wf = true → Ready s sh → Prefixed i s →
    (r.slot s sh).acting ≠ 0 → r.fits sh (r.slot s sh).acting = false → Ends i s (if windowOf s.slot = 0 then s else r.after s) sh sh

/-! ## Control flow -/

/-- R19, R39, R84, R137 to R143, R148: where branches, calls, returns and loops go, what they write, when they trap. Model's choices: log entry 57. -/
def Obligations.ControlFlow : Prop :=
  ∀ (i : Instr) (r : FlowRule) (s : State) (sh : Sheaf), flowRule i = some r → i.wf = true → Ready s sh → Prefixed i s →
    (r.wide = true → Wide s sh r.g.toNat r.n.toNat) → (r.handler = true → sh.handler.isSome = true) →
    ((s.here sh r.g.toNat r.n.toNat).acting = 0 → Ends i s s sh sh) ∧
    ((s.here sh r.g.toNat r.n.toNat).acting ≠ 0 →
      (∀ t, r.trap (s.here sh r.g.toNat r.n.toNat) sh = some t → exec i s = .next (((s.begun sh).trap (s.here sh r.g.toNat r.n.toNat) t).settle)) ∧
      (r.trap (s.here sh r.g.toNat r.n.toNat) sh = none →
        (r.target (s.here sh r.g.toNat r.n.toNat) sh = none → Ends i s s sh (r.effect (s.here sh r.g.toNat r.n.toNat) sh.begun)) ∧
        (∀ a, r.target (s.here sh r.g.toNat r.n.toNat) sh = some a → Goes i s s sh (r.effect (s.here sh r.g.toNat r.n.toNat) sh.begun)
          (s.here sh r.g.toNat r.n.toNat).acting a)))

/-- R141, R142: where an instruction stands at the end of an armed loop slot, in a converged sheaf, it does what it does elsewhere, the slots
are checked, slot 1 first, and the lanes go back or on; in a split sheaf it raises UNIFORM_DIVERGENCE; an instruction of control or a hint
raises ILLEGAL there. -/
def Obligations.LoopsGoBack : Prop :=
  (∀ (i : Instr) (r : LaneRule) (s : State) (sh : Sheaf), laneRule i = some r → i.wf = true → AtEnd s sh → Prefixed i s →
    (r.float = true → sh.role ≠ .stage) →
    ∃ sh', exec i s = .next (s.setSheaf s.slot.sid sh').settle ∧
      (∀ l, l < 32 → sh'.readV r.d l = if hasLane (s.here sh r.g r.n).acting l then (r.val sh l).1 else sh.readV r.d l) ∧
      (sh'.loop1, sh'.loop0) = ((loopCheck sh.loop1 sh.loop0 s.slot.addr).1, (loopCheck sh.loop1 sh.loop0 s.slot.addr).2.1) ∧
      ∀ l, l < 32 → sh'.pc l = if hasLane sh.live l then ((loopCheck sh.loop1 sh.loop0 s.slot.addr).2.2).getD (s.slot.addr + 4) else sh.pc l) ∧
  RegisterLoops ∧ MemoryLoops ∧ SplitLoopEndsTrap ∧ LoopEndsTrap

/-- R94, R95: REP runs its instruction COUNT + 1 times, or the last REPREM times, each time with its stepped fields and with its guard judged
afresh, as one instruction, for every instruction that it may repeat; a repeat whose fields leave their file raises ILLEGAL, those before
it stand; before any other instruction REP is ILLEGAL. -/
def Obligations.RepeatsStepTheirFields : Prop := RepeatsRun ∧ RepeatsElsewhereTrap

/-! ## Memory instructions -/

/-- R153, R156 to R158, R160, R161: what global loads leave in flight, what global stores put into the buffers, what prefetches fetch. -/
def Obligations.GlobalAccesses : Prop := MachineRules globalRule

/-- R154, R159, R160: what local loads take and local stores write. Model's choices: log entry 41. -/
def Obligations.LocalAccesses : Prop := MachineRules localRule

/-- R162 to R164: which words the loads of the whole sheaf write. -/
def Obligations.SheafLoads : Prop := MachineRules wordsRule

/-- R165 to R169: what atomics do, their orders and scopes. Model's choices: log entry 62. -/
def Obligations.AtomicOperations : Prop := ActRules atomicRule

/-- R171, R172, R245: fences, cache maintenance and leases. Model's choices: log entry 62. -/
def Obligations.FencesAndLeases : Prop := ActRules fenceRule ∧ ReleasesWait

/-! ## Instructions that wait, trap or reach what a tuft shares -/

/-- R22, R47, R48, R131: what SRD reads and SWR writes, for every special register. -/
def Obligations.SpecialRegisters : Prop := ActRules specialRule ∧ IllegalTraps specialRule

/-- R34, R139, R144 to R149, R172: EXIT, YIELD, the software traps, RTE, the window of a handler, SVC, ACQ.RMT. Model's choices: log entry 7. -/
def Obligations.HandlerInstructions : Prop := ActRules handlerRule ∧ IllegalTraps handlerRule ∧ WindowTraps

/-- R270 to R278: groups and barriers. -/
def Obligations.BarrierInstructions : Prop := ActRules barrierRule ∧ IllegalTraps barrierRule

/-- R177 to R195: the matrix functions. Model's choices: log entries 7, 47, 64 and 77. -/
def Obligations.MatrixFunctions : Prop :=
  ActRules matrixRule ∧ IllegalTraps matrixRule ∧ MatrixHazards ∧ LaneHazards ∧ LocalHazards ∧ MatrixWaits

/-- R196 to R204, R348, R349: copies and collectives enter their engines. -/
def Obligations.Commands : Prop := ActRules commandRule ∧ IllegalTraps commandRule

/-- R205 to R208: tags. -/
def Obligations.TagInstructions : Prop := ActRules tagRule

/-- R209 to R212: rings. -/
def Obligations.RingInstructions : Prop := ActRules ringRule ∧ IllegalTraps ringRule

/-- R213, R214: handles. Model's choices: log entries 43, 66 and 77. -/
def Obligations.HandleInstructions : Prop := ActRules handleRule

/-- R250 to R252: child kernels. Model's choices: log entry 69. -/
def Obligations.ChildInstructions : Prop := ActRules childRule

/-- R322 to R326: marks, trace and clock. Model's choices: log entries 8 and 41. -/
def Obligations.MarkInstructions : Prop := ActRules markRule

/-- R92: a hint stands for the lanes that issued it and writes nothing else; one out of order raises ILLEGAL at itself. Model's choices: log entry 63.
-/
def Obligations.HintsAttachAsStated : Prop :=
  ∀ (i : Instr) (legal : Machine.Hints → Prop) (add : Machine.Hints → Machine.Hints) (s : State) (sh : Sheaf), hintRule i = some (legal, add) →
    Ready s sh →
    (legal sh.hints → HintGoes i add s sh) ∧
    (¬ legal sh.hints → exec i s = .next ((s.trap { s.slot with group := s.slot.addr }
      { TrapInfo.at cIllegal 0 0 (s.slot.word.setWidth 64) with reprem := sh.reprem }).settle))

/-! ## Traps at issue -/

/-- R92, R93, R96: an XIMM or an LA before an instruction that it is not for raises ILLEGAL at that instruction. -/
def Obligations.PrefixesOutsideTheirTargetsTrap : Prop :=
  ∀ (i : Instr) (w : Nat) (s : State) (sh : Sheaf), encodeNat i = some w → hintRule i = none → s.sheaf? s.slot.sid = some sh →
    sh.issuing = true → s.slot.rep = none → ¬ Prefixed i s → Raises i s sh (TrapInfo.at cIllegal 0 0 (s.slot.word.setWidth 64))

/-- R31: an instruction of a class that the sheaf's role does not issue raises ROLE, whatever its guard. -/
def Obligations.WrongRolesTrap : Prop :=
  ∀ (i : Instr) (c : RoleClass) (legal : State → Sheaf → Prop) (s : State) (sh : Sheaf), roleBound i = some (c, legal) → i.wf = true → Ready s sh →
    Prefixed i s → legal (s.begun sh) sh.begun → c.issues sh.role = false →
    Raises i s sh (TrapInfo.at cRole 0 0 (s.slot.word.setWidth 64))

/-- R50, R51: a sheaf-wide write of registers issues only where the issuing set is the live set and its guard has one value there; else
it raises UNIFORM_DIVERGENCE. -/
def Obligations.SplitSheafWritesTrap : Prop :=
  ∀ (i : Instr) (r : SheafRule) (s : State) (sh : Sheaf), wideRule i = some r → i.wf = true → Ready s sh → Prefixed i s →
    (r.float = true → sh.role ≠ .stage) →
    (s.slot.lanes ≠ sh.live → Raises i s sh (divergenceTrap s sh 0)) ∧
    (s.slot.lanes = sh.live → guardUniform (s.here sh r.g.toNat r.n.toNat) = false → Raises i s sh (divergenceTrap s sh 1))

/-- R145, R328, R330, R331: taking a trap where the kernel has a trap entry and the sheaf no handler status. Model's choices: log entries 7 and 65. -/
def Obligations.TrapsEnterTheHandler : Prop :=
  ∀ (s : State) (slot : Slot) (t : TrapInfo) (sh : Sheaf), s.sheaf? slot.sid = some sh → sh.handler = none → s.trapEntryOf sh ≠ 0 →
    ∃ sh', (s.trap slot t).sheaf? slot.sid = some sh' ∧ Entered sh sh' slot t (s.trapEntryOf sh) ∧ (s.trap slot t).mem = s.mem

/-- R328, R334, R336: a trap in a handler, or one for which the kernel has no trap entry, ends the sheaf: every live lane FAULTED. -/
def Obligations.DoubleTrapsEndTheSheaf : Prop :=
  ∀ (s : State) (slot : Slot) (t : TrapInfo) (sh : Sheaf), s.sheaf? slot.sid = some sh → sh.state ≠ .exited → sh.state ≠ .faulted →
    (sh.handler.isSome = true ∨ s.trapEntryOf sh = 0) →
    ∃ sh', (s.trap slot t).sheaf? slot.sid = some sh' ∧ sh'.state = .faulted ∧ sh'.live = 0 ∧ sh'.exited = sh.exited ∧
      sh'.faulted = sh.faulted ||| sh.live ∧ sh'.handler = none

/-! ## Happenings of the machine -/

/-- R24, R26, R241 to R246: turns, starvation, admission, leases. Model's choices: log entries 30, 44 and 45. -/
def Obligations.SchedulerHappenings : Prop := Happens scheduleHappening

/-- R233 to R240, R247, R248, R262, R293: kernels and tufts. Model's choices: log entries 27, 37, 39, 58 and 77. -/
def Obligations.TuftHappenings : Prop := Happens tuftHappening

/-- R98, R157, R158, R166, R170, R193, R221: what is in flight lands. Model's choices: log entries 10, 11 and 50. -/
def Obligations.FlightHappenings : Prop := Happens flightHappening ∧ FlightLands

/-- R201, R283 to R286, R294 to R296, R351: walks, shoot-downs and engines. Model's choices: log entries 9, 17 and 42. -/
def Obligations.EngineHappenings : Prop := Happens engineHappening

/-- R149, R335: replies to faults and services. Model's choices: log entries 23 and 56. -/
def Obligations.ReplyHappenings : Prop := Happens replyHappenings

/-- R255 to R265: queues and their packets. Model's choices: log entries 27, 67 and 77. -/
def Obligations.QueueHappenings : Prop := Happens queueHappening

/-- R299 to R313, R338, R366: partitions, errors, contexts and key slots. Model's choices: log entries 15, 16, 24 and 31. -/
def Obligations.PartitionHappenings : Prop := Happens partHappening ∧ Happens ctxHappening

/-- R355 to R368, R394: attestation, keys and measurements. Model's choices: log entries 4, 15, 31 and 74. -/
def Obligations.TrustHappenings : Prop := Happens trustHappening

/-- R341 to R347, R396 to R403: ports, power, trace, control writes. Model's choices: log entries 15, 18, 19, 34, 72 and 73. -/
def Obligations.PortHappenings : Prop := Happens portHappening ∧ Happens controlHappening ∧ CappedClocks

/-- R302: an access of a service core above memory and below its windows, where the spec maps nothing, stops. Model's choices: log entry 52. -/
def Obligations.UnmappedAccessesStop : Prop := HoleFaults

/-! ## Rules of the spec, whole -/

/-- R52: a varying instruction reads its b operand per lane, and promotion raises nothing. -/
def Obligations.VaryingOperandsArePromoted : Prop :=
  (∀ (sh : Sheaf) (b l : Nat), l < 32 →
    (b < 32 → sh.operand b l = sh.readV b l) ∧
    (32 ≤ b → b < 64 → sh.operand b l = (sh.readA (b - 32)).base + BitVec.ofNat 32 l * (sh.readA (b - 32)).stride) ∧
    (64 ≤ b → b < 256 → sh.operand b l = sh.readU (b - 64))) ∧
  (∀ (g : BitVec 4) (n : BitVec 1) (d : BitVec 5) (b : BitVec 8) (s : State) (sh : Sheaf), guardOk g.toNat n.toNat = true → Ready s sh →
    Prefixed (.vmov g n d b) s → ∃ sh', exec (.vmov g n d b) s = .next (s.setSheaf s.slot.sid sh').settle ∧ sh'.status = sh.status ∧
      sh'.aregs = sh.aregs ∧
      ∀ l, l < 32 → sh'.readV d.toNat l = if hasLane (s.here sh g.toNat n.toNat).acting l then sh.operand b.toNat l else sh.readV d.toNat l)

/-- R132: AGETB, AGETS and AGETW. -/
def Obligations.AgetReadsAnAffineRegister : Prop :=
  ∀ (g : BitVec 4) (n : BitVec 1) (d a : BitVec 8) (s : State) (sh : Sheaf), guardOk g.toNat n.toNat = true → isU d.toNat = true → Ready s sh →
    s.slot.ximm = none → s.slot.la = none →
    decodeNat (0x50000002 + g.toNat * 2 ^ 22 + n.toNat * 2 ^ 21 + d.toNat * 2 ^ 13 + a.toNat * 2 ^ 5) = some (.agetb g n d a) ∧
    decodeNat (0x50000003 + g.toNat * 2 ^ 22 + n.toNat * 2 ^ 21 + d.toNat * 2 ^ 13 + a.toNat * 2 ^ 5) = some (.agets g n d a) ∧
    decodeNat (0x50000004 + g.toNat * 2 ^ 22 + n.toNat * 2 ^ 21 + d.toNat * 2 ^ 13 + a.toNat * 2 ^ 5) = some (.agetw g n d a) ∧
    (isA a.toNat = false → ∀ i ∈ [Instr.agetb g n d a, .agets g n d a, .agetw g n d a],
      Raises i s sh (TrapInfo.at cIllegal 0 0 (s.slot.word.setWidth 64))) ∧
    (isA a.toNat = true → Wide s sh g.toNat n.toNat → (s.here sh g.toNat n.toNat).acting ≠ 0 →
      let x := sh.readA (a.toNat - 32)
      let took (i : Instr) (w : Word) : Prop := ∃ sh', exec i s = .next (s.setSheaf s.slot.sid sh').settle ∧
        sh'.readU (d.toNat - 64) = w ∧ (sh'.ureg (d.toNat - 64)).mark = x.mark ∧
        (∀ j, j ≠ d.toNat - 64 → sh'.ureg j = sh.ureg j) ∧ sh'.aregs = sh.aregs ∧ Advanced s sh sh'
      took (.agetb g n d a) x.base ∧ took (.agets g n d a) x.stride ∧
      took (.agetw g n d a) (BitVec.ofNat 32 ((if x.ws then 1 else 0) + (if x.wu then 2 else 0))))

/-- R252: KQUOTA. -/
def Obligations.KquotaWritesTheQuotas : Prop :=
  ∀ (g : BitVec 4) (n : BitVec 1) (b : BitVec 8) (s : State) (sh : Sheaf), (Instr.kquota g n b).wf = true → Ready s sh →
    Prefixed (.kquota g n b) s → Wide s sh g.toNat n.toNat → (s.here sh g.toNat n.toNat).acting ≠ 0 →
    let x := s.ctx (s.partOf sh) (s.ctxOf sh)
    let k := b.toNat - 64
    ∃ sh', exec (.kquota g n b) s = .next (s.setSheaf s.slot.sid sh').settle ∧
      (min x.qchild 65536 - x.children.length < 2 ^ 16 → field (sh'.readU k).toNat 0 16 = min x.qchild 65536 - x.children.length) ∧
      field (sh'.readU k).toNat 16 16 = min (x.qkern - s.chargedKernels (s.partOf sh) (s.ctxOf sh)) 0xFFFF ∧
      sh'.readU (k + 1) = BitVec.ofNat 32 (x.qtuft - s.chargedTufts (s.partOf sh) (s.ctxOf sh)) ∧
      (∀ j, j ≠ k → j ≠ k + 1 → sh'.ureg j = sh.ureg j) ∧ Advanced s sh sh'

/-- R64, R65: in FP32 and BF16, sums of zero, sums with a NaN, minimum and maximum. -/
def Obligations.ZerosAndNansInSumsAndExtremes : Prop :=
  ∀ f ∈ [fp32, bf16], ∀ a b : Nat, a < 2 * f.signBit → b < 2 * f.signBit →
    (∀ (n : Bool) (m m' : Nat) (e e' : Int), f.decode a = .fin n m e → f.decode b = .fin (!n) m' e' → (m : Rat) * 2 ^ e = (m' : Rat) * 2 ^ e' →
      f.add a b = (0, 0)) ∧
    f.add f.signBit f.signBit = (f.signBit, 0) ∧
    ((f.decode a).isNan = true ∨ (f.decode b).isNan = true → f.add a b = (f.nanBits, 0) ∧ f.mul a b = (f.nanBits, 0)) ∧
    (∀ wantMax, (f.decode a).isNan = true → (f.decode b).isNan = false → f.minMax wantMax a b = (b, 0) ∧ f.minMax wantMax b a = (b, 0)) ∧
    (∀ wantMax, (f.decode a).isNan = true → (f.decode b).isNan = true → f.minMax wantMax a b = (f.nanBits, 0)) ∧
    (∀ wantMax, (f.decode a).isNan = false → (f.decode b).isNan = false → f.minMax wantMax a b = f.minMax wantMax b a) ∧
    (∀ n m e n' m' e', f.decode a = .fin n m e → f.decode b = .fin n' m' e' →
      (if n then -((m : Rat) * 2 ^ e) else (m : Rat) * 2 ^ e) < (if n' then -((m' : Rat) * 2 ^ e') else (m' : Rat) * 2 ^ e') →
      f.minMax false a b = (a, 0) ∧ f.minMax true a b = (b, 0)) ∧
    f.minMax false 0 f.signBit = (f.signBit, 0) ∧ f.minMax true 0 f.signBit = (0, 0)

/-- R163: LDP. -/
def Obligations.LdpReadsWindows : Prop :=
  ∀ (g : BitVec 4) (n : BitVec 1) (d : BitVec 8) (o : BitVec 5) (w : BitVec 3) (s : State) (sh : Sheaf),
    guardOk g.toNat n.toNat = true → evenU d.toNat = true → Ready s sh → s.slot.la = none →
    let i : Instr := .ldp g n d o w
    let slot := s.here sh g.toNat n.toNat
    let t : Int := 8 * o.toNat + offsetOf slot
    decodeNat (0x54000004 + g.toNat * 2 ^ 22 + n.toNat * 2 ^ 21 + d.toNat * 2 ^ 13 + o.toNat * 2 ^ 8 + w.toNat * 2 ^ 5) = some i ∧
    (t < 0 ∨ t % 8 ≠ 0 → Raises i s sh (TrapInfo.at cIllegal 0 0 (s.slot.word.setWidth 64))) ∧
    (0 ≤ t → t % 8 = 0 → Wide s sh g.toNat n.toNat → slot.acting ≠ 0 →
      ((s.begun sh).windowOf sh.begun w.toNat = none →
        exec i s = .next (((s.begun sh).trap slot (TrapInfo.at cParamUnbound 0 0 (BitVec.ofNat 64 w.toNat))).settle)) ∧
      (∀ base size, (s.begun sh).windowOf sh.begun w.toNat = some (base, size) →
        ((size : Int) < t + 8 → ∃ sh', exec i s = .next (s.setSheaf s.slot.sid sh').settle ∧ sh'.status = sh.status ||| flagPWOOB ∧
          (∀ j, sh'.ureg j = if j = d.toNat - 64 ∨ j = d.toNat - 63 then { val := 0, mark := 0 } else sh.ureg j) ∧ sh'.vregs = sh.vregs ∧
          Advanced s sh sh') ∧
        (t + 8 ≤ size → ∀ x xs u bs v,
          (s.begun sh).checkGlobal sh.begun [(lowestLane s.slot.lanes, base + BitVec.ofInt 64 t)] 8 false 0 = .go (x :: xs) u →
          ((u.setSheaf s.slot.sid (sh.begun.countMem (touchedLines (x :: xs)))).forceResults s.slot.sid (fun p => p.reads x.trans.paddr 8)).fetchData s.slot.sid (x.src false) 8 =
            (.ok bs, v) →
          exec i s = .next (s.over (v.modSheaf s.slot.sid (fun y => y.writeUs (d.toNat - 64)
            ((List.range (bs.length / 4)).map (fun k => BitVec.ofNat 32 (natAt bs (4 * k) 4))) (v.reachedMark (v.partOf sh.begun) (x :: xs))))
            sh g.toNat n.toNat).settle)))
end

