-- ==== Sys2Proof/Laws/Arith.lean ====
section
/-!
SUPPORT. The arithmetic of the machine's words is that of the tables of the spec.
-/
namespace Sys2Proof.Machine

theorem aluShl_eq (a b : Word) : aluShl a b = a <<< b.toNat := by
  apply BitVec.eq_of_toNat_eq
  unfold aluShl
  split
  · simp [Nat.shiftLeft_eq]
  · have h : 2 ^ 32 ∣ a.toNat * 2 ^ b.toNat := Dvd.dvd.mul_left (pow_dvd_pow 2 (by omega)) _
    have h0 : (0 : Word).toNat = 0 := rfl
    simp only [BitVec.toNat_shiftLeft, Nat.shiftLeft_eq, h0]
    omega

theorem aluShrU_eq (a b : Word) : aluShrU a b = a >>> b.toNat := by
  apply BitVec.eq_of_toNat_eq
  have ha := a.isLt
  unfold aluShrU
  split
  · rw [BitVec.toNat_ofNat, BitVec.toNat_ushiftRight, Nat.shiftRight_eq_div_pow]
    exact Nat.mod_eq_of_lt (lt_of_le_of_lt (Nat.div_le_self _ _) ha)
  · rw [BitVec.toNat_ushiftRight, Nat.shiftRight_eq_div_pow, Nat.div_eq_of_lt]
    · rfl
    · exact lt_of_lt_of_le ha (Nat.pow_le_pow_right (by norm_num) (by omega))

theorem aluShrS_eq (a b : Word) : aluShrS a b = a.sshiftRight b.toNat := by
  unfold aluShrS BitVec.sshiftRight
  split
  · rw [Int.shiftRight_eq_div_pow]
  · rw [Int.shiftRight_eq_div_pow]
    have h1 := BitVec.toInt_lt (x := a)
    have h2 := BitVec.le_toInt (x := a)
    have hp : (2 ^ 32 : Nat) ≤ 2 ^ b.toNat := Nat.pow_le_pow_right (by norm_num) (by omega)
    have hp' : (2 ^ 32 : Int) ≤ ((2 ^ b.toNat : Nat) : Int) := by exact_mod_cast hp
    have hq : ((2 ^ b.toNat : Nat) : Int) = 2 ^ b.toNat := by push_cast; rfl
    split
    · have : a.toInt / ((2 ^ b.toNat : Nat) : Int) = -1 := by
        apply Int.ediv_eq_neg_one_of_neg_of_le <;> omega
      rw [this]; rfl
    · have : a.toInt / ((2 ^ b.toNat : Nat) : Int) = 0 := Int.ediv_eq_zero_of_lt (by omega) (by omega)
      rw [this]; rfl

theorem aluMulhU_eq (a b : Word) : aluMulhU a b = ((a.setWidth 64 * b.setWidth 64) >>> 32).setWidth 32 := by
  apply BitVec.eq_of_toNat_eq
  have ha := a.isLt
  have hb := b.isLt
  have h : a.toNat * b.toNat < 2 ^ 64 := by
    calc a.toNat * b.toNat < 2 ^ 32 * 2 ^ 32 := Nat.mul_lt_mul'' ha hb
      _ = 2 ^ 64 := by norm_num
  simp only [aluMulhU, BitVec.toNat_ofNat, BitVec.toNat_setWidth, BitVec.toNat_ushiftRight, BitVec.toNat_mul, Nat.shiftRight_eq_div_pow]
  rw [Nat.mod_eq_of_lt (a := a.toNat) (by omega), Nat.mod_eq_of_lt (a := b.toNat) (by omega), Nat.mod_eq_of_lt h]

theorem aluMulhS_eq (a b : Word) : aluMulhS a b = ((a.signExtend 64 * b.signExtend 64) >>> 32).setWidth 32 := by
  have key : (a.signExtend 64 * b.signExtend 64) = BitVec.ofInt 64 (a.toInt * b.toInt) := by
    rw [BitVec.ofInt_mul]; rfl
  rw [key]
  apply BitVec.eq_of_toNat_eq
  unfold aluMulhS
  generalize a.toInt * b.toInt = v
  simp only [BitVec.toNat_ofInt, BitVec.toNat_setWidth, BitVec.toNat_ushiftRight, Nat.shiftRight_eq_div_pow]
  omega

theorem clampWord_eq (lo hi v : Int) (h : lo ≤ hi) : clampWord lo hi v = clamped lo hi v := by
  unfold clampWord clamped clampInt
  congr 1
  split
  · omega
  · split <;> omega

theorem aluRotl_eq (a b : Word) : aluRotl a b = a.rotateLeft (b.toNat % 32) := by
  have ha := a.isLt
  have hc : b.toNat % 32 < 32 := Nat.mod_lt _ (by norm_num)
  unfold aluRotl
  generalize b.toNat % 32 = c at hc
  apply BitVec.eq_of_toNat_eq
  have hs : 2 ^ c * 2 ^ (32 - c) = 2 ^ 32 := by rw [← pow_add]; congr 1; omega
  have hd : a.toNat / 2 ^ (32 - c) < 2 ^ c := by
    rw [Nat.div_lt_iff_lt_mul (by positivity), hs]; exact ha
  have hm : a.toNat * 2 ^ c % 2 ^ 32 = (a.toNat % 2 ^ (32 - c)) * 2 ^ c := by
    rw [← hs, Nat.mul_comm (2 ^ c), Nat.mul_mod_mul_right]
  rw [BitVec.rotateLeft_def, BitVec.toNat_or, BitVec.toNat_shiftLeft, BitVec.toNat_ushiftRight, Nat.shiftLeft_eq, Nat.shiftRight_eq_div_pow,
    Nat.mod_eq_of_lt hc, BitVec.toNat_ofNat, hm, ← Nat.shiftLeft_eq, Nat.shiftLeft_add_eq_or_of_lt hd, Nat.mod_eq_of_lt]
  refine Nat.or_lt_two_pow ?_ ?_
  · rw [Nat.shiftLeft_eq, ← hs, Nat.mul_comm (2 ^ c)]
    exact Nat.mul_lt_mul_of_pos_right (Nat.mod_lt _ (by positivity)) (by positivity)
  · exact lt_of_lt_of_le hd (Nat.pow_le_pow_right (by norm_num) (by omega))

theorem aluBfeU_eq (a b : Word) : aluBfeU a b = bitField a b := rfl

theorem aluBfeS_eq (a b : Word) : aluBfeS a b = bitFieldS a b := by
  unfold aluBfeS bitFieldS
  have hw : bfWidth b = min (b.toNat / 2 ^ 8 % 64) 32 := rfl
  rw [← hw]
  have hq : ((2 ^ bfPos b : Nat) : Int) = 2 ^ (b.toNat % 32) := by simp [bfPos]
  rw [← hq]
  generalize a.toInt / ((2 ^ bfPos b : Nat) : Int) = v
  generalize bfWidth b = w
  have hp : 0 < 2 ^ w := by positivity
  have hpi : (0 : Int) < ((2 ^ w : Nat) : Int) := by exact_mod_cast hp
  have h0 := Int.emod_nonneg v (ne_of_gt hpi)
  have h1 := Int.emod_lt_of_pos v hpi
  dsimp only
  by_cases hz : w = 0
  · subst hz; simp [Int.bmod]
  · have hhalf : (2 ^ w : Nat) = 2 * 2 ^ (w - 1) := by
      rw [← pow_succ']; congr 1; omega
    rw [if_neg (by simpa using hz)]
    unfold Int.bmod
    have ht : (((v % ((2 ^ w : Nat) : Int)).toNat : Nat) : Int) = v % ((2 ^ w : Nat) : Int) := Int.toNat_of_nonneg h0
    generalize hr : v % ((2 ^ w : Nat) : Int) = r at *
    generalize hx : (2 ^ (w - 1) : Nat) = x at *
    rw [hhalf] at *
    split
    · rw [if_neg (by push_cast at *; omega), ht]
    · rw [if_pos (by push_cast at *; omega), ← ht, BitVec.ofInt_natCast, Int.toNat_natCast]

theorem aluBfi_eq (x a b : Word) : aluBfi x a b = bitInsert x a b := by
  unfold aluBfi bitInsert
  have : BitVec.ofNat 32 (a.toNat * 2 ^ bfPos b) = a <<< (b.toNat % 32) := by
    apply BitVec.eq_of_toNat_eq
    simp [bfPos, Nat.shiftLeft_eq]
  simp only [this]
  rfl

theorem permByte_eq (a b : Word) (k : Nat) : permByte a b k = (permuted a b k).toNat := by
  have hk : field b.toNat (4 * k) 4 = b.toNat / 16 ^ k % 16 := by
    simp only [field]
    rw [show (2 : Nat) ^ (4 * k) = 16 ^ k by rw [pow_mul]; norm_num] <;> norm_num
  unfold permByte permuted
  rw [hk]
  have hs : b.toNat / 16 ^ k % 16 < 16 := Nat.mod_lt _ (by norm_num)
  generalize b.toNat / 16 ^ k % 16 = s at hs
  have hx : field a.toNat (8 * (s % 4)) 8 = ((a >>> (8 * (s % 4))).setWidth 8).toNat := by
    simp [field, Nat.shiftRight_eq_div_pow]
  have hmsb : ∀ x : Byte, (x.msb = true) ↔ 128 ≤ x.toNat := by decide
  dsimp only
  rw [hx]
  generalize (a >>> (8 * (s % 4))).setWidth 8 = x
  have h2 : s.testBit 2 = (s / 4 % 2 == 1) := by revert hs; clear * -; revert s; decide
  have h3 : s.testBit 3 = (s / 8 == 1) := by revert hs; clear * -; revert s; decide
  rw [h2, h3]
  split
  · rfl
  · split
    · by_cases hm : x.msb = true
      · rw [if_pos ((hmsb x).mp hm), if_pos hm]; rfl
      · rw [if_neg (fun h => hm ((hmsb x).mpr h)), if_neg hm]; rfl
    · rfl

theorem aluPermb_eq (a b : Word) : aluPermb a b = bytePermute a b := by
  apply BitVec.eq_of_toNat_eq
  unfold aluPermb bytePermute
  simp only [permByte_eq]
  generalize permuted a b 3 = x3
  generalize permuted a b 2 = x2
  generalize permuted a b 1 = x1
  generalize permuted a b 0 = x0
  have h3 := x3.isLt
  have h2 := x2.isLt
  have h1 := x1.isLt
  have h0 := x0.isLt
  simp only [BitVec.toNat_append, BitVec.toNat_ofNat]
  rw [← Nat.shiftLeft_add_eq_or_of_lt h2, ← Nat.shiftLeft_add_eq_or_of_lt h1, ← Nat.shiftLeft_add_eq_or_of_lt h0]
  simp only [Nat.shiftLeft_eq]
  omega

theorem aluPopc_eq (b : Word) : aluPopc b = BitVec.ofNat 32 ((laneNumbers.filter (fun k => b.getLsbD k)).length) := rfl

theorem aluClz_eq (b : Word) : aluClz b = BitVec.ofNat 32 (32 - Nat.size b.toNat) := by
  unfold aluClz
  by_cases h : b = 0
  · subst h; rfl
  · rw [if_neg (by simpa using h)]
    have h0 : b.toNat ≠ 0 := fun e => h (BitVec.eq_of_toNat_eq e)
    have h1 : Nat.size b.toNat = Nat.log2 b.toNat + 1 := by
      apply le_antisymm
      · exact Nat.size_le.mpr Nat.lt_log2_self
      · exact Nat.lt_size.mpr (Nat.log2_self_le h0)
    congr 1
    omega

/-- The bits of a number built from a list of bits. -/
theorem foldr_testBit (p : Nat → Bool) (xs : List Nat) (k : Nat) :
    (xs.foldr (fun l acc => (if p l then 1 else 0) + 2 * acc) 0).testBit k = (xs[k]?.map p).getD false := by
  induction xs generalizing k with
  | nil => simp
  | cons x xs ih =>
    simp only [List.foldr_cons]
    cases k with
    | zero => cases h : p x <;> simp [Nat.testBit_zero, h]
    | succ k =>
      rw [Nat.testBit_succ]
      have : ((if p x = true then 1 else 0) + 2 * xs.foldr (fun l acc => (if p l then 1 else 0) + 2 * acc) 0) / 2
          = xs.foldr (fun l acc => (if p l then 1 else 0) + 2 * acc) 0 := by
        split <;> omega
      rw [this, ih]; simp

/-- The lanes of a set given by a test. -/
theorem hasLane_maskOf (p : Nat → Bool) (l : Nat) : hasLane (maskOf p) l = (decide (l < 32) && p l) := by
  have hl : laneNumbers = List.range 32 := by decide
  simp only [hasLane, maskOf, BitVec.getLsbD_ofNat, foldr_testBit, hl]
  by_cases h : l < 32 <;> simp [h]

theorem aluBrev_eq (b : Word) : aluBrev b = b.reverse := by
  apply BitVec.eq_of_getLsbD_eq
  intro i hi
  have := hasLane_maskOf (fun l => hasLane b (31 - l)) i
  simp only [hasLane] at this
  unfold aluBrev
  rw [show (fun l => hasLane b (31 - l)) = (fun l => b.getLsbD (31 - l)) from rfl, this, BitVec.getLsbD_reverse, BitVec.getMsbD]

/-- The 1 bits below a lane, as the population count of the low bits (R121). -/
theorem rank_eq (w : Word) (l : Nat) :
    (laneNumbers.filter (fun j => decide (j < l) && hasLane w j)).length = popCount (BitVec.ofNat 32 (w.toNat % 2 ^ l)) := by
  unfold popCount
  congr 1
  apply List.filter_congr
  intro j hj
  have hl : laneNumbers = List.range 32 := by decide
  rw [hl, List.mem_range] at hj
  simp only [hasLane, BitVec.getLsbD_ofNat, hj, decide_true, Bool.true_and, Nat.testBit_mod_two_pow]
  rfl

theorem bothHalves_eq (f : Nat → Nat → Nat → Res) (x a b : Word) : bothHalves f x a b = perHalf f x a b := by
  have h : ∀ w : Word, field w.toNat (16 * 1) 16 = w.toNat / 65536 := by
    intro w; have := w.isLt; simp only [field]; omega
  have h0 : ∀ w : Word, field w.toNat (16 * 0) 16 = w.toNat % 65536 := by
    intro w; simp [field]
  simp only [bothHalves, perHalf, h, h0]
  rw [Nat.add_comm]

theorem narrowInto_eq (fm : Fmt) (k p : Nat) (x b : Word) : narrowInto fm k p x b = intoPart k p x (fm.store b.toNat) := by
  unfold narrowInto intoPart insertField field
  dsimp only
  generalize x.toNat = y
  have e : (2 : Nat) ^ (k * p + k) = 2 ^ (k * p) * 2 ^ k := pow_add _ _ _
  have h1 : y / 2 ^ (k * p) = y / 2 ^ (k * p + k) * 2 ^ k + y / 2 ^ (k * p) % 2 ^ k := by
    rw [e, ← Nat.div_div_eq_div_mul]; exact (Nat.div_add_mod' _ _).symm
  have h2 : y = y / 2 ^ (k * p) * 2 ^ (k * p) + y % 2 ^ (k * p) := (Nat.div_add_mod' _ _).symm
  have h3 : y = y / 2 ^ (k * p + k) * 2 ^ (k * p + k) + y / 2 ^ (k * p) % 2 ^ k * 2 ^ (k * p) + y % 2 ^ (k * p) := by
    conv_lhs => rw [h2, h1]
    rw [e]; ring
  congr 2
  generalize y / 2 ^ (k * p + k) * 2 ^ (k * p + k) = u at *
  generalize y / 2 ^ (k * p) % 2 ^ k * 2 ^ (k * p) = w at *
  generalize y % 2 ^ (k * p) = z at *
  omega

end Sys2Proof.Machine
end

