-- ==== Sys2Proof/Laws/Maps.lean ====
section
/-!
SUPPORT. What sparse data reads as after a write.
-/
namespace Sys2Proof.Machine

variable {α : Type}

/-- What was put under a key stands there. -/
@[simp] theorem Map.find?_put_self (m : Map α) (k : Nat) (v : α) : Map.find? (Map.put m k v) k = some v := by
  induction m with
  | nil => simp [Map.put, Map.find?]
  | cons e m ih =>
    obtain ⟨k', v'⟩ := e
    simp only [Map.put]
    split
    · simp [Map.find?]
    · split
      · simp [Map.find?]
      · simp_all [Map.find?]

/-- Other keys keep what stood under them. -/
theorem Map.find?_put_ne (m : Map α) {k j : Nat} (v : α) (h : j ≠ k) : Map.find? (Map.put m k v) j = Map.find? m j := by
  induction m with
  | nil => simp [Map.put, Map.find?, Ne.symm h]
  | cons e m ih =>
    obtain ⟨k', v'⟩ := e
    simp only [Map.put]
    split
    · subst_vars; simp [Map.find?, Ne.symm h]
    · split
      · simp [Map.find?, Ne.symm h]
      · simp [Map.find?, ih]

/-- Reading a key after a write. -/
theorem Map.find?_put (m : Map α) (k j : Nat) (v : α) : Map.find? (Map.put m k v) j = if j = k then some v else Map.find? m j := by
  split
  · subst_vars; simp
  · exact Map.find?_put_ne m v ‹_›

/-- Reading a key with a default after a write. -/
theorem Map.getD_put (m : Map α) (k j : Nat) (v d : α) : Map.getD (Map.put m k v) j d = if j = k then v else Map.getD m j d := by
  unfold Map.getD
  rw [Map.find?_put]
  split <;> rfl

/-- What was put under a key is read there. -/
@[simp] theorem Map.getD_put_self (m : Map α) (k : Nat) (v d : α) : Map.getD (Map.put m k v) k d = v := by simp [Map.getD_put]

/-- A second write under a key stands alone. -/
@[simp] theorem Map.put_put (m : Map α) (k : Nat) (v w : α) : Map.put (Map.put m k v) k w = Map.put m k w := by
  induction m with
  | nil => simp [Map.put]
  | cons e m ih =>
    obtain ⟨k', v'⟩ := e
    by_cases h1 : k' = k
    · simp [Map.put, h1]
    · by_cases h2 : k < k'
      · simp [Map.put, h1, h2]
      · simp [Map.put, h1, h2, ih]

/-- A key that was taken away holds nothing. -/
@[simp] theorem Map.find?_drop_self (m : Map α) (k : Nat) : Map.find? (Map.drop m k) k = none := by
  induction m with
  | nil => rfl
  | cons e m ih =>
    obtain ⟨k', v'⟩ := e
    by_cases h : k' = k
    · simpa [Map.drop, h] using ih
    · simpa [Map.drop, h, Map.find?] using ih

/-- Taking a key away leaves the others. -/
theorem Map.find?_drop_ne (m : Map α) {k j : Nat} (h : j ≠ k) : Map.find? (Map.drop m k) j = Map.find? m j := by
  induction m with
  | nil => rfl
  | cons e m ih =>
    obtain ⟨k', v'⟩ := e
    by_cases h1 : k' = k
    · subst h1
      simpa [Map.drop, Map.find?, Ne.symm h] using ih
    · by_cases h2 : k' = j
      · subst h2; simp [Map.drop, Map.find?, h1]
      · simpa [Map.drop, Map.find?, h1, h2] using ih

end Sys2Proof.Machine
end

