-- ==== Sys2Proof/Laws/State.lean ====
section
/-!
SUPPORT. What each update of the state, or of a sheaf, leaves of each field: so that no proof unfolds a record update.
-/
namespace Sys2Proof.Machine

/-! ### State.setSheaf -/

@[simp] theorem State.setSheaf_sheaves (s : State) (k : Nat) (x : Sheaf) : (s.setSheaf k x).sheaves = s.sheaves.put k x := rfl
@[simp] theorem State.setSheaf_tufts (s : State) (k : Nat) (x : Sheaf) : (s.setSheaf k x).tufts = s.tufts := rfl
@[simp] theorem State.setSheaf_kernels (s : State) (k : Nat) (x : Sheaf) : (s.setSheaf k x).kernels = s.kernels := rfl
@[simp] theorem State.setSheaf_cores (s : State) (k : Nat) (x : Sheaf) : (s.setSheaf k x).cores = s.cores := rfl
@[simp] theorem State.setSheaf_slices (s : State) (k : Nat) (x : Sheaf) : (s.setSheaf k x).slices = s.slices := rfl
@[simp] theorem State.setSheaf_packages (s : State) (k : Nat) (x : Sheaf) : (s.setSheaf k x).packages = s.packages := rfl
@[simp] theorem State.setSheaf_parts (s : State) (k : Nat) (x : Sheaf) : (s.setSheaf k x).parts = s.parts := rfl
@[simp] theorem State.setSheaf_trays (s : State) (k : Nat) (x : Sheaf) : (s.setSheaf k x).trays = s.trays := rfl
@[simp] theorem State.setSheaf_mem (s : State) (k : Nat) (x : Sheaf) : (s.setSheaf k x).mem = s.mem := rfl
@[simp] theorem State.setSheaf_keyOf (s : State) (k : Nat) (x : Sheaf) : (s.setSheaf k x).keyOf = s.keyOf := rfl
@[simp] theorem State.setSheaf_poison (s : State) (k : Nat) (x : Sheaf) : (s.setSheaf k x).poison = s.poison := rfl
@[simp] theorem State.setSheaf_lostSets (s : State) (k : Nat) (x : Sheaf) : (s.setSheaf k x).lostSets = s.lostSets := rfl
@[simp] theorem State.setSheaf_frames (s : State) (k : Nat) (x : Sheaf) : (s.setSheaf k x).frames = s.frames := rfl
@[simp] theorem State.setSheaf_cache (s : State) (k : Nat) (x : Sheaf) : (s.setSheaf k x).cache = s.cache := rfl
@[simp] theorem State.setSheaf_msgs (s : State) (k : Nat) (x : Sheaf) : (s.setSheaf k x).msgs = s.msgs := rfl
@[simp] theorem State.setSheaf_slot (s : State) (k : Nat) (x : Sheaf) : (s.setSheaf k x).slot = s.slot := rfl
@[simp] theorem State.setSheaf_readData (s : State) (k : Nat) (x : Sheaf) : (s.setSheaf k x).readData = s.readData := rfl
@[simp] theorem State.setSheaf_agenda (s : State) (k : Nat) (x : Sheaf) : (s.setSheaf k x).agenda = s.agenda := rfl
@[simp] theorem State.setSheaf_pinned (s : State) (k : Nat) (x : Sheaf) : (s.setSheaf k x).pinned = s.pinned := rfl
@[simp] theorem State.setSheaf_line (s : State) (k : Nat) (x : Sheaf) : (s.setSheaf k x).line = s.line := rfl
@[simp] theorem State.setSheaf_streak (s : State) (k : Nat) (x : Sheaf) : (s.setSheaf k x).streak = s.streak := rfl
@[simp] theorem State.setSheaf_freeCount (s : State) (k : Nat) (x : Sheaf) : (s.setSheaf k x).freeCount = s.freeCount := rfl
@[simp] theorem State.setSheaf_nextId (s : State) (k : Nat) (x : Sheaf) : (s.setSheaf k x).nextId = s.nextId := rfl

/-! ### State.setTuft -/

@[simp] theorem State.setTuft_sheaves (s : State) (k : Nat) (x : Tuft) : (s.setTuft k x).sheaves = s.sheaves := rfl
@[simp] theorem State.setTuft_tufts (s : State) (k : Nat) (x : Tuft) : (s.setTuft k x).tufts = s.tufts.put k x := rfl
@[simp] theorem State.setTuft_kernels (s : State) (k : Nat) (x : Tuft) : (s.setTuft k x).kernels = s.kernels := rfl
@[simp] theorem State.setTuft_cores (s : State) (k : Nat) (x : Tuft) : (s.setTuft k x).cores = s.cores := rfl
@[simp] theorem State.setTuft_slices (s : State) (k : Nat) (x : Tuft) : (s.setTuft k x).slices = s.slices := rfl
@[simp] theorem State.setTuft_packages (s : State) (k : Nat) (x : Tuft) : (s.setTuft k x).packages = s.packages := rfl
@[simp] theorem State.setTuft_parts (s : State) (k : Nat) (x : Tuft) : (s.setTuft k x).parts = s.parts := rfl
@[simp] theorem State.setTuft_trays (s : State) (k : Nat) (x : Tuft) : (s.setTuft k x).trays = s.trays := rfl
@[simp] theorem State.setTuft_mem (s : State) (k : Nat) (x : Tuft) : (s.setTuft k x).mem = s.mem := rfl
@[simp] theorem State.setTuft_keyOf (s : State) (k : Nat) (x : Tuft) : (s.setTuft k x).keyOf = s.keyOf := rfl
@[simp] theorem State.setTuft_poison (s : State) (k : Nat) (x : Tuft) : (s.setTuft k x).poison = s.poison := rfl
@[simp] theorem State.setTuft_lostSets (s : State) (k : Nat) (x : Tuft) : (s.setTuft k x).lostSets = s.lostSets := rfl
@[simp] theorem State.setTuft_frames (s : State) (k : Nat) (x : Tuft) : (s.setTuft k x).frames = s.frames := rfl
@[simp] theorem State.setTuft_cache (s : State) (k : Nat) (x : Tuft) : (s.setTuft k x).cache = s.cache := rfl
@[simp] theorem State.setTuft_msgs (s : State) (k : Nat) (x : Tuft) : (s.setTuft k x).msgs = s.msgs := rfl
@[simp] theorem State.setTuft_slot (s : State) (k : Nat) (x : Tuft) : (s.setTuft k x).slot = s.slot := rfl
@[simp] theorem State.setTuft_readData (s : State) (k : Nat) (x : Tuft) : (s.setTuft k x).readData = s.readData := rfl
@[simp] theorem State.setTuft_agenda (s : State) (k : Nat) (x : Tuft) : (s.setTuft k x).agenda = s.agenda := rfl
@[simp] theorem State.setTuft_pinned (s : State) (k : Nat) (x : Tuft) : (s.setTuft k x).pinned = s.pinned := rfl
@[simp] theorem State.setTuft_line (s : State) (k : Nat) (x : Tuft) : (s.setTuft k x).line = s.line := rfl
@[simp] theorem State.setTuft_streak (s : State) (k : Nat) (x : Tuft) : (s.setTuft k x).streak = s.streak := rfl
@[simp] theorem State.setTuft_freeCount (s : State) (k : Nat) (x : Tuft) : (s.setTuft k x).freeCount = s.freeCount := rfl
@[simp] theorem State.setTuft_nextId (s : State) (k : Nat) (x : Tuft) : (s.setTuft k x).nextId = s.nextId := rfl

/-! ### State.setKernel -/

@[simp] theorem State.setKernel_sheaves (s : State) (k : Nat) (x : Kernel) : (s.setKernel k x).sheaves = s.sheaves := rfl
@[simp] theorem State.setKernel_tufts (s : State) (k : Nat) (x : Kernel) : (s.setKernel k x).tufts = s.tufts := rfl
@[simp] theorem State.setKernel_kernels (s : State) (k : Nat) (x : Kernel) : (s.setKernel k x).kernels = s.kernels.put k x := rfl
@[simp] theorem State.setKernel_cores (s : State) (k : Nat) (x : Kernel) : (s.setKernel k x).cores = s.cores := rfl
@[simp] theorem State.setKernel_slices (s : State) (k : Nat) (x : Kernel) : (s.setKernel k x).slices = s.slices := rfl
@[simp] theorem State.setKernel_packages (s : State) (k : Nat) (x : Kernel) : (s.setKernel k x).packages = s.packages := rfl
@[simp] theorem State.setKernel_parts (s : State) (k : Nat) (x : Kernel) : (s.setKernel k x).parts = s.parts := rfl
@[simp] theorem State.setKernel_trays (s : State) (k : Nat) (x : Kernel) : (s.setKernel k x).trays = s.trays := rfl
@[simp] theorem State.setKernel_mem (s : State) (k : Nat) (x : Kernel) : (s.setKernel k x).mem = s.mem := rfl
@[simp] theorem State.setKernel_keyOf (s : State) (k : Nat) (x : Kernel) : (s.setKernel k x).keyOf = s.keyOf := rfl
@[simp] theorem State.setKernel_poison (s : State) (k : Nat) (x : Kernel) : (s.setKernel k x).poison = s.poison := rfl
@[simp] theorem State.setKernel_lostSets (s : State) (k : Nat) (x : Kernel) : (s.setKernel k x).lostSets = s.lostSets := rfl
@[simp] theorem State.setKernel_frames (s : State) (k : Nat) (x : Kernel) : (s.setKernel k x).frames = s.frames := rfl
@[simp] theorem State.setKernel_cache (s : State) (k : Nat) (x : Kernel) : (s.setKernel k x).cache = s.cache := rfl
@[simp] theorem State.setKernel_msgs (s : State) (k : Nat) (x : Kernel) : (s.setKernel k x).msgs = s.msgs := rfl
@[simp] theorem State.setKernel_slot (s : State) (k : Nat) (x : Kernel) : (s.setKernel k x).slot = s.slot := rfl
@[simp] theorem State.setKernel_readData (s : State) (k : Nat) (x : Kernel) : (s.setKernel k x).readData = s.readData := rfl
@[simp] theorem State.setKernel_agenda (s : State) (k : Nat) (x : Kernel) : (s.setKernel k x).agenda = s.agenda := rfl
@[simp] theorem State.setKernel_pinned (s : State) (k : Nat) (x : Kernel) : (s.setKernel k x).pinned = s.pinned := rfl
@[simp] theorem State.setKernel_line (s : State) (k : Nat) (x : Kernel) : (s.setKernel k x).line = s.line := rfl
@[simp] theorem State.setKernel_streak (s : State) (k : Nat) (x : Kernel) : (s.setKernel k x).streak = s.streak := rfl
@[simp] theorem State.setKernel_freeCount (s : State) (k : Nat) (x : Kernel) : (s.setKernel k x).freeCount = s.freeCount := rfl
@[simp] theorem State.setKernel_nextId (s : State) (k : Nat) (x : Kernel) : (s.setKernel k x).nextId = s.nextId := rfl

/-! ### State.setCore -/

@[simp] theorem State.setCore_sheaves (s : State) (k : Nat) (x : Core) : (s.setCore k x).sheaves = s.sheaves := rfl
@[simp] theorem State.setCore_tufts (s : State) (k : Nat) (x : Core) : (s.setCore k x).tufts = s.tufts := rfl
@[simp] theorem State.setCore_kernels (s : State) (k : Nat) (x : Core) : (s.setCore k x).kernels = s.kernels := rfl
@[simp] theorem State.setCore_cores (s : State) (k : Nat) (x : Core) : (s.setCore k x).cores = s.cores.put k x := rfl
@[simp] theorem State.setCore_slices (s : State) (k : Nat) (x : Core) : (s.setCore k x).slices = s.slices := rfl
@[simp] theorem State.setCore_packages (s : State) (k : Nat) (x : Core) : (s.setCore k x).packages = s.packages := rfl
@[simp] theorem State.setCore_parts (s : State) (k : Nat) (x : Core) : (s.setCore k x).parts = s.parts := rfl
@[simp] theorem State.setCore_trays (s : State) (k : Nat) (x : Core) : (s.setCore k x).trays = s.trays := rfl
@[simp] theorem State.setCore_mem (s : State) (k : Nat) (x : Core) : (s.setCore k x).mem = s.mem := rfl
@[simp] theorem State.setCore_keyOf (s : State) (k : Nat) (x : Core) : (s.setCore k x).keyOf = s.keyOf := rfl
@[simp] theorem State.setCore_poison (s : State) (k : Nat) (x : Core) : (s.setCore k x).poison = s.poison := rfl
@[simp] theorem State.setCore_lostSets (s : State) (k : Nat) (x : Core) : (s.setCore k x).lostSets = s.lostSets := rfl
@[simp] theorem State.setCore_frames (s : State) (k : Nat) (x : Core) : (s.setCore k x).frames = s.frames := rfl
@[simp] theorem State.setCore_cache (s : State) (k : Nat) (x : Core) : (s.setCore k x).cache = s.cache := rfl
@[simp] theorem State.setCore_msgs (s : State) (k : Nat) (x : Core) : (s.setCore k x).msgs = s.msgs := rfl
@[simp] theorem State.setCore_slot (s : State) (k : Nat) (x : Core) : (s.setCore k x).slot = s.slot := rfl
@[simp] theorem State.setCore_readData (s : State) (k : Nat) (x : Core) : (s.setCore k x).readData = s.readData := rfl
@[simp] theorem State.setCore_agenda (s : State) (k : Nat) (x : Core) : (s.setCore k x).agenda = s.agenda := rfl
@[simp] theorem State.setCore_pinned (s : State) (k : Nat) (x : Core) : (s.setCore k x).pinned = s.pinned := rfl
@[simp] theorem State.setCore_line (s : State) (k : Nat) (x : Core) : (s.setCore k x).line = s.line := rfl
@[simp] theorem State.setCore_streak (s : State) (k : Nat) (x : Core) : (s.setCore k x).streak = s.streak := rfl
@[simp] theorem State.setCore_freeCount (s : State) (k : Nat) (x : Core) : (s.setCore k x).freeCount = s.freeCount := rfl
@[simp] theorem State.setCore_nextId (s : State) (k : Nat) (x : Core) : (s.setCore k x).nextId = s.nextId := rfl

/-! ### State.setSlice -/

@[simp] theorem State.setSlice_sheaves (s : State) (k : Nat) (x : Slice) : (s.setSlice k x).sheaves = s.sheaves := rfl
@[simp] theorem State.setSlice_tufts (s : State) (k : Nat) (x : Slice) : (s.setSlice k x).tufts = s.tufts := rfl
@[simp] theorem State.setSlice_kernels (s : State) (k : Nat) (x : Slice) : (s.setSlice k x).kernels = s.kernels := rfl
@[simp] theorem State.setSlice_cores (s : State) (k : Nat) (x : Slice) : (s.setSlice k x).cores = s.cores := rfl
@[simp] theorem State.setSlice_slices (s : State) (k : Nat) (x : Slice) : (s.setSlice k x).slices = s.slices.put k x := rfl
@[simp] theorem State.setSlice_packages (s : State) (k : Nat) (x : Slice) : (s.setSlice k x).packages = s.packages := rfl
@[simp] theorem State.setSlice_parts (s : State) (k : Nat) (x : Slice) : (s.setSlice k x).parts = s.parts := rfl
@[simp] theorem State.setSlice_trays (s : State) (k : Nat) (x : Slice) : (s.setSlice k x).trays = s.trays := rfl
@[simp] theorem State.setSlice_mem (s : State) (k : Nat) (x : Slice) : (s.setSlice k x).mem = s.mem := rfl
@[simp] theorem State.setSlice_keyOf (s : State) (k : Nat) (x : Slice) : (s.setSlice k x).keyOf = s.keyOf := rfl
@[simp] theorem State.setSlice_poison (s : State) (k : Nat) (x : Slice) : (s.setSlice k x).poison = s.poison := rfl
@[simp] theorem State.setSlice_lostSets (s : State) (k : Nat) (x : Slice) : (s.setSlice k x).lostSets = s.lostSets := rfl
@[simp] theorem State.setSlice_frames (s : State) (k : Nat) (x : Slice) : (s.setSlice k x).frames = s.frames := rfl
@[simp] theorem State.setSlice_cache (s : State) (k : Nat) (x : Slice) : (s.setSlice k x).cache = s.cache := rfl
@[simp] theorem State.setSlice_msgs (s : State) (k : Nat) (x : Slice) : (s.setSlice k x).msgs = s.msgs := rfl
@[simp] theorem State.setSlice_slot (s : State) (k : Nat) (x : Slice) : (s.setSlice k x).slot = s.slot := rfl
@[simp] theorem State.setSlice_readData (s : State) (k : Nat) (x : Slice) : (s.setSlice k x).readData = s.readData := rfl
@[simp] theorem State.setSlice_agenda (s : State) (k : Nat) (x : Slice) : (s.setSlice k x).agenda = s.agenda := rfl
@[simp] theorem State.setSlice_pinned (s : State) (k : Nat) (x : Slice) : (s.setSlice k x).pinned = s.pinned := rfl
@[simp] theorem State.setSlice_line (s : State) (k : Nat) (x : Slice) : (s.setSlice k x).line = s.line := rfl
@[simp] theorem State.setSlice_streak (s : State) (k : Nat) (x : Slice) : (s.setSlice k x).streak = s.streak := rfl
@[simp] theorem State.setSlice_freeCount (s : State) (k : Nat) (x : Slice) : (s.setSlice k x).freeCount = s.freeCount := rfl
@[simp] theorem State.setSlice_nextId (s : State) (k : Nat) (x : Slice) : (s.setSlice k x).nextId = s.nextId := rfl

/-! ### State.setPart -/

@[simp] theorem State.setPart_sheaves (s : State) (k : Nat) (x : Partition) : (s.setPart k x).sheaves = s.sheaves := rfl
@[simp] theorem State.setPart_tufts (s : State) (k : Nat) (x : Partition) : (s.setPart k x).tufts = s.tufts := rfl
@[simp] theorem State.setPart_kernels (s : State) (k : Nat) (x : Partition) : (s.setPart k x).kernels = s.kernels := rfl
@[simp] theorem State.setPart_cores (s : State) (k : Nat) (x : Partition) : (s.setPart k x).cores = s.cores := rfl
@[simp] theorem State.setPart_slices (s : State) (k : Nat) (x : Partition) : (s.setPart k x).slices = s.slices := rfl
@[simp] theorem State.setPart_packages (s : State) (k : Nat) (x : Partition) : (s.setPart k x).packages = s.packages := rfl
@[simp] theorem State.setPart_parts (s : State) (k : Nat) (x : Partition) : (s.setPart k x).parts = s.parts.put k x := rfl
@[simp] theorem State.setPart_trays (s : State) (k : Nat) (x : Partition) : (s.setPart k x).trays = s.trays := rfl
@[simp] theorem State.setPart_mem (s : State) (k : Nat) (x : Partition) : (s.setPart k x).mem = s.mem := rfl
@[simp] theorem State.setPart_keyOf (s : State) (k : Nat) (x : Partition) : (s.setPart k x).keyOf = s.keyOf := rfl
@[simp] theorem State.setPart_poison (s : State) (k : Nat) (x : Partition) : (s.setPart k x).poison = s.poison := rfl
@[simp] theorem State.setPart_lostSets (s : State) (k : Nat) (x : Partition) : (s.setPart k x).lostSets = s.lostSets := rfl
@[simp] theorem State.setPart_frames (s : State) (k : Nat) (x : Partition) : (s.setPart k x).frames = s.frames := rfl
@[simp] theorem State.setPart_cache (s : State) (k : Nat) (x : Partition) : (s.setPart k x).cache = s.cache := rfl
@[simp] theorem State.setPart_msgs (s : State) (k : Nat) (x : Partition) : (s.setPart k x).msgs = s.msgs := rfl
@[simp] theorem State.setPart_slot (s : State) (k : Nat) (x : Partition) : (s.setPart k x).slot = s.slot := rfl
@[simp] theorem State.setPart_readData (s : State) (k : Nat) (x : Partition) : (s.setPart k x).readData = s.readData := rfl
@[simp] theorem State.setPart_agenda (s : State) (k : Nat) (x : Partition) : (s.setPart k x).agenda = s.agenda := rfl
@[simp] theorem State.setPart_pinned (s : State) (k : Nat) (x : Partition) : (s.setPart k x).pinned = s.pinned := rfl
@[simp] theorem State.setPart_line (s : State) (k : Nat) (x : Partition) : (s.setPart k x).line = s.line := rfl
@[simp] theorem State.setPart_streak (s : State) (k : Nat) (x : Partition) : (s.setPart k x).streak = s.streak := rfl
@[simp] theorem State.setPart_freeCount (s : State) (k : Nat) (x : Partition) : (s.setPart k x).freeCount = s.freeCount := rfl
@[simp] theorem State.setPart_nextId (s : State) (k : Nat) (x : Partition) : (s.setPart k x).nextId = s.nextId := rfl

/-! ### State.modCore -/

@[simp] theorem State.modCore_sheaves (s : State) (k : Nat) (f : Core → Core) : (s.modCore k f).sheaves = s.sheaves := rfl
@[simp] theorem State.modCore_tufts (s : State) (k : Nat) (f : Core → Core) : (s.modCore k f).tufts = s.tufts := rfl
@[simp] theorem State.modCore_kernels (s : State) (k : Nat) (f : Core → Core) : (s.modCore k f).kernels = s.kernels := rfl
@[simp] theorem State.modCore_cores (s : State) (k : Nat) (f : Core → Core) : (s.modCore k f).cores = s.cores.put k (f (s.core k)) := rfl
@[simp] theorem State.modCore_slices (s : State) (k : Nat) (f : Core → Core) : (s.modCore k f).slices = s.slices := rfl
@[simp] theorem State.modCore_packages (s : State) (k : Nat) (f : Core → Core) : (s.modCore k f).packages = s.packages := rfl
@[simp] theorem State.modCore_parts (s : State) (k : Nat) (f : Core → Core) : (s.modCore k f).parts = s.parts := rfl
@[simp] theorem State.modCore_trays (s : State) (k : Nat) (f : Core → Core) : (s.modCore k f).trays = s.trays := rfl
@[simp] theorem State.modCore_mem (s : State) (k : Nat) (f : Core → Core) : (s.modCore k f).mem = s.mem := rfl
@[simp] theorem State.modCore_keyOf (s : State) (k : Nat) (f : Core → Core) : (s.modCore k f).keyOf = s.keyOf := rfl
@[simp] theorem State.modCore_poison (s : State) (k : Nat) (f : Core → Core) : (s.modCore k f).poison = s.poison := rfl
@[simp] theorem State.modCore_lostSets (s : State) (k : Nat) (f : Core → Core) : (s.modCore k f).lostSets = s.lostSets := rfl
@[simp] theorem State.modCore_frames (s : State) (k : Nat) (f : Core → Core) : (s.modCore k f).frames = s.frames := rfl
@[simp] theorem State.modCore_cache (s : State) (k : Nat) (f : Core → Core) : (s.modCore k f).cache = s.cache := rfl
@[simp] theorem State.modCore_msgs (s : State) (k : Nat) (f : Core → Core) : (s.modCore k f).msgs = s.msgs := rfl
@[simp] theorem State.modCore_slot (s : State) (k : Nat) (f : Core → Core) : (s.modCore k f).slot = s.slot := rfl
@[simp] theorem State.modCore_readData (s : State) (k : Nat) (f : Core → Core) : (s.modCore k f).readData = s.readData := rfl
@[simp] theorem State.modCore_agenda (s : State) (k : Nat) (f : Core → Core) : (s.modCore k f).agenda = s.agenda := rfl
@[simp] theorem State.modCore_pinned (s : State) (k : Nat) (f : Core → Core) : (s.modCore k f).pinned = s.pinned := rfl
@[simp] theorem State.modCore_line (s : State) (k : Nat) (f : Core → Core) : (s.modCore k f).line = s.line := rfl
@[simp] theorem State.modCore_streak (s : State) (k : Nat) (f : Core → Core) : (s.modCore k f).streak = s.streak := rfl
@[simp] theorem State.modCore_freeCount (s : State) (k : Nat) (f : Core → Core) : (s.modCore k f).freeCount = s.freeCount := rfl
@[simp] theorem State.modCore_nextId (s : State) (k : Nat) (f : Core → Core) : (s.modCore k f).nextId = s.nextId := rfl

/-! ### State.modSlice -/

@[simp] theorem State.modSlice_sheaves (s : State) (k : Nat) (f : Slice → Slice) : (s.modSlice k f).sheaves = s.sheaves := rfl
@[simp] theorem State.modSlice_tufts (s : State) (k : Nat) (f : Slice → Slice) : (s.modSlice k f).tufts = s.tufts := rfl
@[simp] theorem State.modSlice_kernels (s : State) (k : Nat) (f : Slice → Slice) : (s.modSlice k f).kernels = s.kernels := rfl
@[simp] theorem State.modSlice_cores (s : State) (k : Nat) (f : Slice → Slice) : (s.modSlice k f).cores = s.cores := rfl
@[simp] theorem State.modSlice_slices (s : State) (k : Nat) (f : Slice → Slice) : (s.modSlice k f).slices = s.slices.put k (f (s.slice k)) := rfl
@[simp] theorem State.modSlice_packages (s : State) (k : Nat) (f : Slice → Slice) : (s.modSlice k f).packages = s.packages := rfl
@[simp] theorem State.modSlice_parts (s : State) (k : Nat) (f : Slice → Slice) : (s.modSlice k f).parts = s.parts := rfl
@[simp] theorem State.modSlice_trays (s : State) (k : Nat) (f : Slice → Slice) : (s.modSlice k f).trays = s.trays := rfl
@[simp] theorem State.modSlice_mem (s : State) (k : Nat) (f : Slice → Slice) : (s.modSlice k f).mem = s.mem := rfl
@[simp] theorem State.modSlice_keyOf (s : State) (k : Nat) (f : Slice → Slice) : (s.modSlice k f).keyOf = s.keyOf := rfl
@[simp] theorem State.modSlice_poison (s : State) (k : Nat) (f : Slice → Slice) : (s.modSlice k f).poison = s.poison := rfl
@[simp] theorem State.modSlice_lostSets (s : State) (k : Nat) (f : Slice → Slice) : (s.modSlice k f).lostSets = s.lostSets := rfl
@[simp] theorem State.modSlice_frames (s : State) (k : Nat) (f : Slice → Slice) : (s.modSlice k f).frames = s.frames := rfl
@[simp] theorem State.modSlice_cache (s : State) (k : Nat) (f : Slice → Slice) : (s.modSlice k f).cache = s.cache := rfl
@[simp] theorem State.modSlice_msgs (s : State) (k : Nat) (f : Slice → Slice) : (s.modSlice k f).msgs = s.msgs := rfl
@[simp] theorem State.modSlice_slot (s : State) (k : Nat) (f : Slice → Slice) : (s.modSlice k f).slot = s.slot := rfl
@[simp] theorem State.modSlice_readData (s : State) (k : Nat) (f : Slice → Slice) : (s.modSlice k f).readData = s.readData := rfl
@[simp] theorem State.modSlice_agenda (s : State) (k : Nat) (f : Slice → Slice) : (s.modSlice k f).agenda = s.agenda := rfl
@[simp] theorem State.modSlice_pinned (s : State) (k : Nat) (f : Slice → Slice) : (s.modSlice k f).pinned = s.pinned := rfl
@[simp] theorem State.modSlice_line (s : State) (k : Nat) (f : Slice → Slice) : (s.modSlice k f).line = s.line := rfl
@[simp] theorem State.modSlice_streak (s : State) (k : Nat) (f : Slice → Slice) : (s.modSlice k f).streak = s.streak := rfl
@[simp] theorem State.modSlice_freeCount (s : State) (k : Nat) (f : Slice → Slice) : (s.modSlice k f).freeCount = s.freeCount := rfl
@[simp] theorem State.modSlice_nextId (s : State) (k : Nat) (f : Slice → Slice) : (s.modSlice k f).nextId = s.nextId := rfl

/-! ### State.modPackage -/

@[simp] theorem State.modPackage_sheaves (s : State) (k : Nat) (f : Package → Package) : (s.modPackage k f).sheaves = s.sheaves := rfl
@[simp] theorem State.modPackage_tufts (s : State) (k : Nat) (f : Package → Package) : (s.modPackage k f).tufts = s.tufts := rfl
@[simp] theorem State.modPackage_kernels (s : State) (k : Nat) (f : Package → Package) : (s.modPackage k f).kernels = s.kernels := rfl
@[simp] theorem State.modPackage_cores (s : State) (k : Nat) (f : Package → Package) : (s.modPackage k f).cores = s.cores := rfl
@[simp] theorem State.modPackage_slices (s : State) (k : Nat) (f : Package → Package) : (s.modPackage k f).slices = s.slices := rfl
@[simp] theorem State.modPackage_packages (s : State) (k : Nat) (f : Package → Package) : (s.modPackage k f).packages = s.packages.put k (f (s.package k)) := rfl
@[simp] theorem State.modPackage_parts (s : State) (k : Nat) (f : Package → Package) : (s.modPackage k f).parts = s.parts := rfl
@[simp] theorem State.modPackage_trays (s : State) (k : Nat) (f : Package → Package) : (s.modPackage k f).trays = s.trays := rfl
@[simp] theorem State.modPackage_mem (s : State) (k : Nat) (f : Package → Package) : (s.modPackage k f).mem = s.mem := rfl
@[simp] theorem State.modPackage_keyOf (s : State) (k : Nat) (f : Package → Package) : (s.modPackage k f).keyOf = s.keyOf := rfl
@[simp] theorem State.modPackage_poison (s : State) (k : Nat) (f : Package → Package) : (s.modPackage k f).poison = s.poison := rfl
@[simp] theorem State.modPackage_lostSets (s : State) (k : Nat) (f : Package → Package) : (s.modPackage k f).lostSets = s.lostSets := rfl
@[simp] theorem State.modPackage_frames (s : State) (k : Nat) (f : Package → Package) : (s.modPackage k f).frames = s.frames := rfl
@[simp] theorem State.modPackage_cache (s : State) (k : Nat) (f : Package → Package) : (s.modPackage k f).cache = s.cache := rfl
@[simp] theorem State.modPackage_msgs (s : State) (k : Nat) (f : Package → Package) : (s.modPackage k f).msgs = s.msgs := rfl
@[simp] theorem State.modPackage_slot (s : State) (k : Nat) (f : Package → Package) : (s.modPackage k f).slot = s.slot := rfl
@[simp] theorem State.modPackage_readData (s : State) (k : Nat) (f : Package → Package) : (s.modPackage k f).readData = s.readData := rfl
@[simp] theorem State.modPackage_agenda (s : State) (k : Nat) (f : Package → Package) : (s.modPackage k f).agenda = s.agenda := rfl
@[simp] theorem State.modPackage_pinned (s : State) (k : Nat) (f : Package → Package) : (s.modPackage k f).pinned = s.pinned := rfl
@[simp] theorem State.modPackage_line (s : State) (k : Nat) (f : Package → Package) : (s.modPackage k f).line = s.line := rfl
@[simp] theorem State.modPackage_streak (s : State) (k : Nat) (f : Package → Package) : (s.modPackage k f).streak = s.streak := rfl
@[simp] theorem State.modPackage_freeCount (s : State) (k : Nat) (f : Package → Package) : (s.modPackage k f).freeCount = s.freeCount := rfl
@[simp] theorem State.modPackage_nextId (s : State) (k : Nat) (f : Package → Package) : (s.modPackage k f).nextId = s.nextId := rfl

/-! ### State.modSheaf -/

@[simp] theorem State.modSheaf_tufts (s : State) (k : Nat) (f : Sheaf → Sheaf) : (s.modSheaf k f).tufts = s.tufts := by unfold State.modSheaf; split <;> rfl
@[simp] theorem State.modSheaf_kernels (s : State) (k : Nat) (f : Sheaf → Sheaf) : (s.modSheaf k f).kernels = s.kernels := by unfold State.modSheaf; split <;> rfl
@[simp] theorem State.modSheaf_cores (s : State) (k : Nat) (f : Sheaf → Sheaf) : (s.modSheaf k f).cores = s.cores := by unfold State.modSheaf; split <;> rfl
@[simp] theorem State.modSheaf_slices (s : State) (k : Nat) (f : Sheaf → Sheaf) : (s.modSheaf k f).slices = s.slices := by unfold State.modSheaf; split <;> rfl
@[simp] theorem State.modSheaf_packages (s : State) (k : Nat) (f : Sheaf → Sheaf) : (s.modSheaf k f).packages = s.packages := by unfold State.modSheaf; split <;> rfl
@[simp] theorem State.modSheaf_parts (s : State) (k : Nat) (f : Sheaf → Sheaf) : (s.modSheaf k f).parts = s.parts := by unfold State.modSheaf; split <;> rfl
@[simp] theorem State.modSheaf_trays (s : State) (k : Nat) (f : Sheaf → Sheaf) : (s.modSheaf k f).trays = s.trays := by unfold State.modSheaf; split <;> rfl
@[simp] theorem State.modSheaf_mem (s : State) (k : Nat) (f : Sheaf → Sheaf) : (s.modSheaf k f).mem = s.mem := by unfold State.modSheaf; split <;> rfl
@[simp] theorem State.modSheaf_keyOf (s : State) (k : Nat) (f : Sheaf → Sheaf) : (s.modSheaf k f).keyOf = s.keyOf := by unfold State.modSheaf; split <;> rfl
@[simp] theorem State.modSheaf_poison (s : State) (k : Nat) (f : Sheaf → Sheaf) : (s.modSheaf k f).poison = s.poison := by unfold State.modSheaf; split <;> rfl
@[simp] theorem State.modSheaf_lostSets (s : State) (k : Nat) (f : Sheaf → Sheaf) : (s.modSheaf k f).lostSets = s.lostSets := by unfold State.modSheaf; split <;> rfl
@[simp] theorem State.modSheaf_frames (s : State) (k : Nat) (f : Sheaf → Sheaf) : (s.modSheaf k f).frames = s.frames := by unfold State.modSheaf; split <;> rfl
@[simp] theorem State.modSheaf_cache (s : State) (k : Nat) (f : Sheaf → Sheaf) : (s.modSheaf k f).cache = s.cache := by unfold State.modSheaf; split <;> rfl
@[simp] theorem State.modSheaf_msgs (s : State) (k : Nat) (f : Sheaf → Sheaf) : (s.modSheaf k f).msgs = s.msgs := by unfold State.modSheaf; split <;> rfl
@[simp] theorem State.modSheaf_slot (s : State) (k : Nat) (f : Sheaf → Sheaf) : (s.modSheaf k f).slot = s.slot := by unfold State.modSheaf; split <;> rfl
@[simp] theorem State.modSheaf_readData (s : State) (k : Nat) (f : Sheaf → Sheaf) : (s.modSheaf k f).readData = s.readData := by unfold State.modSheaf; split <;> rfl
@[simp] theorem State.modSheaf_agenda (s : State) (k : Nat) (f : Sheaf → Sheaf) : (s.modSheaf k f).agenda = s.agenda := by unfold State.modSheaf; split <;> rfl
@[simp] theorem State.modSheaf_pinned (s : State) (k : Nat) (f : Sheaf → Sheaf) : (s.modSheaf k f).pinned = s.pinned := by unfold State.modSheaf; split <;> rfl
@[simp] theorem State.modSheaf_line (s : State) (k : Nat) (f : Sheaf → Sheaf) : (s.modSheaf k f).line = s.line := by unfold State.modSheaf; split <;> rfl
@[simp] theorem State.modSheaf_streak (s : State) (k : Nat) (f : Sheaf → Sheaf) : (s.modSheaf k f).streak = s.streak := by unfold State.modSheaf; split <;> rfl
@[simp] theorem State.modSheaf_freeCount (s : State) (k : Nat) (f : Sheaf → Sheaf) : (s.modSheaf k f).freeCount = s.freeCount := by unfold State.modSheaf; split <;> rfl
@[simp] theorem State.modSheaf_nextId (s : State) (k : Nat) (f : Sheaf → Sheaf) : (s.modSheaf k f).nextId = s.nextId := by unfold State.modSheaf; split <;> rfl

/-! ### State.modTuft -/

@[simp] theorem State.modTuft_sheaves (s : State) (k : Nat) (f : Tuft → Tuft) : (s.modTuft k f).sheaves = s.sheaves := by unfold State.modTuft; split <;> rfl
@[simp] theorem State.modTuft_kernels (s : State) (k : Nat) (f : Tuft → Tuft) : (s.modTuft k f).kernels = s.kernels := by unfold State.modTuft; split <;> rfl
@[simp] theorem State.modTuft_cores (s : State) (k : Nat) (f : Tuft → Tuft) : (s.modTuft k f).cores = s.cores := by unfold State.modTuft; split <;> rfl
@[simp] theorem State.modTuft_slices (s : State) (k : Nat) (f : Tuft → Tuft) : (s.modTuft k f).slices = s.slices := by unfold State.modTuft; split <;> rfl
@[simp] theorem State.modTuft_packages (s : State) (k : Nat) (f : Tuft → Tuft) : (s.modTuft k f).packages = s.packages := by unfold State.modTuft; split <;> rfl
@[simp] theorem State.modTuft_parts (s : State) (k : Nat) (f : Tuft → Tuft) : (s.modTuft k f).parts = s.parts := by unfold State.modTuft; split <;> rfl
@[simp] theorem State.modTuft_trays (s : State) (k : Nat) (f : Tuft → Tuft) : (s.modTuft k f).trays = s.trays := by unfold State.modTuft; split <;> rfl
@[simp] theorem State.modTuft_mem (s : State) (k : Nat) (f : Tuft → Tuft) : (s.modTuft k f).mem = s.mem := by unfold State.modTuft; split <;> rfl
@[simp] theorem State.modTuft_keyOf (s : State) (k : Nat) (f : Tuft → Tuft) : (s.modTuft k f).keyOf = s.keyOf := by unfold State.modTuft; split <;> rfl
@[simp] theorem State.modTuft_poison (s : State) (k : Nat) (f : Tuft → Tuft) : (s.modTuft k f).poison = s.poison := by unfold State.modTuft; split <;> rfl
@[simp] theorem State.modTuft_lostSets (s : State) (k : Nat) (f : Tuft → Tuft) : (s.modTuft k f).lostSets = s.lostSets := by unfold State.modTuft; split <;> rfl
@[simp] theorem State.modTuft_frames (s : State) (k : Nat) (f : Tuft → Tuft) : (s.modTuft k f).frames = s.frames := by unfold State.modTuft; split <;> rfl
@[simp] theorem State.modTuft_cache (s : State) (k : Nat) (f : Tuft → Tuft) : (s.modTuft k f).cache = s.cache := by unfold State.modTuft; split <;> rfl
@[simp] theorem State.modTuft_msgs (s : State) (k : Nat) (f : Tuft → Tuft) : (s.modTuft k f).msgs = s.msgs := by unfold State.modTuft; split <;> rfl
@[simp] theorem State.modTuft_slot (s : State) (k : Nat) (f : Tuft → Tuft) : (s.modTuft k f).slot = s.slot := by unfold State.modTuft; split <;> rfl
@[simp] theorem State.modTuft_readData (s : State) (k : Nat) (f : Tuft → Tuft) : (s.modTuft k f).readData = s.readData := by unfold State.modTuft; split <;> rfl
@[simp] theorem State.modTuft_agenda (s : State) (k : Nat) (f : Tuft → Tuft) : (s.modTuft k f).agenda = s.agenda := by unfold State.modTuft; split <;> rfl
@[simp] theorem State.modTuft_pinned (s : State) (k : Nat) (f : Tuft → Tuft) : (s.modTuft k f).pinned = s.pinned := by unfold State.modTuft; split <;> rfl
@[simp] theorem State.modTuft_line (s : State) (k : Nat) (f : Tuft → Tuft) : (s.modTuft k f).line = s.line := by unfold State.modTuft; split <;> rfl
@[simp] theorem State.modTuft_streak (s : State) (k : Nat) (f : Tuft → Tuft) : (s.modTuft k f).streak = s.streak := by unfold State.modTuft; split <;> rfl
@[simp] theorem State.modTuft_freeCount (s : State) (k : Nat) (f : Tuft → Tuft) : (s.modTuft k f).freeCount = s.freeCount := by unfold State.modTuft; split <;> rfl
@[simp] theorem State.modTuft_nextId (s : State) (k : Nat) (f : Tuft → Tuft) : (s.modTuft k f).nextId = s.nextId := by unfold State.modTuft; split <;> rfl

/-! ### State.modKernel -/

@[simp] theorem State.modKernel_sheaves (s : State) (k : Nat) (f : Kernel → Kernel) : (s.modKernel k f).sheaves = s.sheaves := by unfold State.modKernel; split <;> rfl
@[simp] theorem State.modKernel_tufts (s : State) (k : Nat) (f : Kernel → Kernel) : (s.modKernel k f).tufts = s.tufts := by unfold State.modKernel; split <;> rfl
@[simp] theorem State.modKernel_cores (s : State) (k : Nat) (f : Kernel → Kernel) : (s.modKernel k f).cores = s.cores := by unfold State.modKernel; split <;> rfl
@[simp] theorem State.modKernel_slices (s : State) (k : Nat) (f : Kernel → Kernel) : (s.modKernel k f).slices = s.slices := by unfold State.modKernel; split <;> rfl
@[simp] theorem State.modKernel_packages (s : State) (k : Nat) (f : Kernel → Kernel) : (s.modKernel k f).packages = s.packages := by unfold State.modKernel; split <;> rfl
@[simp] theorem State.modKernel_parts (s : State) (k : Nat) (f : Kernel → Kernel) : (s.modKernel k f).parts = s.parts := by unfold State.modKernel; split <;> rfl
@[simp] theorem State.modKernel_trays (s : State) (k : Nat) (f : Kernel → Kernel) : (s.modKernel k f).trays = s.trays := by unfold State.modKernel; split <;> rfl
@[simp] theorem State.modKernel_mem (s : State) (k : Nat) (f : Kernel → Kernel) : (s.modKernel k f).mem = s.mem := by unfold State.modKernel; split <;> rfl
@[simp] theorem State.modKernel_keyOf (s : State) (k : Nat) (f : Kernel → Kernel) : (s.modKernel k f).keyOf = s.keyOf := by unfold State.modKernel; split <;> rfl
@[simp] theorem State.modKernel_poison (s : State) (k : Nat) (f : Kernel → Kernel) : (s.modKernel k f).poison = s.poison := by unfold State.modKernel; split <;> rfl
@[simp] theorem State.modKernel_lostSets (s : State) (k : Nat) (f : Kernel → Kernel) : (s.modKernel k f).lostSets = s.lostSets := by unfold State.modKernel; split <;> rfl
@[simp] theorem State.modKernel_frames (s : State) (k : Nat) (f : Kernel → Kernel) : (s.modKernel k f).frames = s.frames := by unfold State.modKernel; split <;> rfl
@[simp] theorem State.modKernel_cache (s : State) (k : Nat) (f : Kernel → Kernel) : (s.modKernel k f).cache = s.cache := by unfold State.modKernel; split <;> rfl
@[simp] theorem State.modKernel_msgs (s : State) (k : Nat) (f : Kernel → Kernel) : (s.modKernel k f).msgs = s.msgs := by unfold State.modKernel; split <;> rfl
@[simp] theorem State.modKernel_slot (s : State) (k : Nat) (f : Kernel → Kernel) : (s.modKernel k f).slot = s.slot := by unfold State.modKernel; split <;> rfl
@[simp] theorem State.modKernel_readData (s : State) (k : Nat) (f : Kernel → Kernel) : (s.modKernel k f).readData = s.readData := by unfold State.modKernel; split <;> rfl
@[simp] theorem State.modKernel_agenda (s : State) (k : Nat) (f : Kernel → Kernel) : (s.modKernel k f).agenda = s.agenda := by unfold State.modKernel; split <;> rfl
@[simp] theorem State.modKernel_pinned (s : State) (k : Nat) (f : Kernel → Kernel) : (s.modKernel k f).pinned = s.pinned := by unfold State.modKernel; split <;> rfl
@[simp] theorem State.modKernel_line (s : State) (k : Nat) (f : Kernel → Kernel) : (s.modKernel k f).line = s.line := by unfold State.modKernel; split <;> rfl
@[simp] theorem State.modKernel_streak (s : State) (k : Nat) (f : Kernel → Kernel) : (s.modKernel k f).streak = s.streak := by unfold State.modKernel; split <;> rfl
@[simp] theorem State.modKernel_freeCount (s : State) (k : Nat) (f : Kernel → Kernel) : (s.modKernel k f).freeCount = s.freeCount := by unfold State.modKernel; split <;> rfl
@[simp] theorem State.modKernel_nextId (s : State) (k : Nat) (f : Kernel → Kernel) : (s.modKernel k f).nextId = s.nextId := by unfold State.modKernel; split <;> rfl

/-! ### State.modPart -/

@[simp] theorem State.modPart_sheaves (s : State) (k : Nat) (f : Partition → Partition) : (s.modPart k f).sheaves = s.sheaves := by unfold State.modPart; split <;> rfl
@[simp] theorem State.modPart_tufts (s : State) (k : Nat) (f : Partition → Partition) : (s.modPart k f).tufts = s.tufts := by unfold State.modPart; split <;> rfl
@[simp] theorem State.modPart_kernels (s : State) (k : Nat) (f : Partition → Partition) : (s.modPart k f).kernels = s.kernels := by unfold State.modPart; split <;> rfl
@[simp] theorem State.modPart_cores (s : State) (k : Nat) (f : Partition → Partition) : (s.modPart k f).cores = s.cores := by unfold State.modPart; split <;> rfl
@[simp] theorem State.modPart_slices (s : State) (k : Nat) (f : Partition → Partition) : (s.modPart k f).slices = s.slices := by unfold State.modPart; split <;> rfl
@[simp] theorem State.modPart_packages (s : State) (k : Nat) (f : Partition → Partition) : (s.modPart k f).packages = s.packages := by unfold State.modPart; split <;> rfl
@[simp] theorem State.modPart_trays (s : State) (k : Nat) (f : Partition → Partition) : (s.modPart k f).trays = s.trays := by unfold State.modPart; split <;> rfl
@[simp] theorem State.modPart_mem (s : State) (k : Nat) (f : Partition → Partition) : (s.modPart k f).mem = s.mem := by unfold State.modPart; split <;> rfl
@[simp] theorem State.modPart_keyOf (s : State) (k : Nat) (f : Partition → Partition) : (s.modPart k f).keyOf = s.keyOf := by unfold State.modPart; split <;> rfl
@[simp] theorem State.modPart_poison (s : State) (k : Nat) (f : Partition → Partition) : (s.modPart k f).poison = s.poison := by unfold State.modPart; split <;> rfl
@[simp] theorem State.modPart_lostSets (s : State) (k : Nat) (f : Partition → Partition) : (s.modPart k f).lostSets = s.lostSets := by unfold State.modPart; split <;> rfl
@[simp] theorem State.modPart_frames (s : State) (k : Nat) (f : Partition → Partition) : (s.modPart k f).frames = s.frames := by unfold State.modPart; split <;> rfl
@[simp] theorem State.modPart_cache (s : State) (k : Nat) (f : Partition → Partition) : (s.modPart k f).cache = s.cache := by unfold State.modPart; split <;> rfl
@[simp] theorem State.modPart_msgs (s : State) (k : Nat) (f : Partition → Partition) : (s.modPart k f).msgs = s.msgs := by unfold State.modPart; split <;> rfl
@[simp] theorem State.modPart_slot (s : State) (k : Nat) (f : Partition → Partition) : (s.modPart k f).slot = s.slot := by unfold State.modPart; split <;> rfl
@[simp] theorem State.modPart_readData (s : State) (k : Nat) (f : Partition → Partition) : (s.modPart k f).readData = s.readData := by unfold State.modPart; split <;> rfl
@[simp] theorem State.modPart_agenda (s : State) (k : Nat) (f : Partition → Partition) : (s.modPart k f).agenda = s.agenda := by unfold State.modPart; split <;> rfl
@[simp] theorem State.modPart_pinned (s : State) (k : Nat) (f : Partition → Partition) : (s.modPart k f).pinned = s.pinned := by unfold State.modPart; split <;> rfl
@[simp] theorem State.modPart_line (s : State) (k : Nat) (f : Partition → Partition) : (s.modPart k f).line = s.line := by unfold State.modPart; split <;> rfl
@[simp] theorem State.modPart_streak (s : State) (k : Nat) (f : Partition → Partition) : (s.modPart k f).streak = s.streak := by unfold State.modPart; split <;> rfl
@[simp] theorem State.modPart_freeCount (s : State) (k : Nat) (f : Partition → Partition) : (s.modPart k f).freeCount = s.freeCount := by unfold State.modPart; split <;> rfl
@[simp] theorem State.modPart_nextId (s : State) (k : Nat) (f : Partition → Partition) : (s.modPart k f).nextId = s.nextId := by unfold State.modPart; split <;> rfl

/-! ### State.modCtx -/

@[simp] theorem State.modCtx_sheaves (s : State) (p c : Nat) (f : Ctx → Ctx) : (s.modCtx p c f).sheaves = s.sheaves := by unfold State.modCtx; simp
@[simp] theorem State.modCtx_tufts (s : State) (p c : Nat) (f : Ctx → Ctx) : (s.modCtx p c f).tufts = s.tufts := by unfold State.modCtx; simp
@[simp] theorem State.modCtx_kernels (s : State) (p c : Nat) (f : Ctx → Ctx) : (s.modCtx p c f).kernels = s.kernels := by unfold State.modCtx; simp
@[simp] theorem State.modCtx_cores (s : State) (p c : Nat) (f : Ctx → Ctx) : (s.modCtx p c f).cores = s.cores := by unfold State.modCtx; simp
@[simp] theorem State.modCtx_slices (s : State) (p c : Nat) (f : Ctx → Ctx) : (s.modCtx p c f).slices = s.slices := by unfold State.modCtx; simp
@[simp] theorem State.modCtx_packages (s : State) (p c : Nat) (f : Ctx → Ctx) : (s.modCtx p c f).packages = s.packages := by unfold State.modCtx; simp
@[simp] theorem State.modCtx_trays (s : State) (p c : Nat) (f : Ctx → Ctx) : (s.modCtx p c f).trays = s.trays := by unfold State.modCtx; simp
@[simp] theorem State.modCtx_mem (s : State) (p c : Nat) (f : Ctx → Ctx) : (s.modCtx p c f).mem = s.mem := by unfold State.modCtx; simp
@[simp] theorem State.modCtx_keyOf (s : State) (p c : Nat) (f : Ctx → Ctx) : (s.modCtx p c f).keyOf = s.keyOf := by unfold State.modCtx; simp
@[simp] theorem State.modCtx_poison (s : State) (p c : Nat) (f : Ctx → Ctx) : (s.modCtx p c f).poison = s.poison := by unfold State.modCtx; simp
@[simp] theorem State.modCtx_lostSets (s : State) (p c : Nat) (f : Ctx → Ctx) : (s.modCtx p c f).lostSets = s.lostSets := by unfold State.modCtx; simp
@[simp] theorem State.modCtx_frames (s : State) (p c : Nat) (f : Ctx → Ctx) : (s.modCtx p c f).frames = s.frames := by unfold State.modCtx; simp
@[simp] theorem State.modCtx_cache (s : State) (p c : Nat) (f : Ctx → Ctx) : (s.modCtx p c f).cache = s.cache := by unfold State.modCtx; simp
@[simp] theorem State.modCtx_msgs (s : State) (p c : Nat) (f : Ctx → Ctx) : (s.modCtx p c f).msgs = s.msgs := by unfold State.modCtx; simp
@[simp] theorem State.modCtx_slot (s : State) (p c : Nat) (f : Ctx → Ctx) : (s.modCtx p c f).slot = s.slot := by unfold State.modCtx; simp
@[simp] theorem State.modCtx_readData (s : State) (p c : Nat) (f : Ctx → Ctx) : (s.modCtx p c f).readData = s.readData := by unfold State.modCtx; simp
@[simp] theorem State.modCtx_agenda (s : State) (p c : Nat) (f : Ctx → Ctx) : (s.modCtx p c f).agenda = s.agenda := by unfold State.modCtx; simp
@[simp] theorem State.modCtx_pinned (s : State) (p c : Nat) (f : Ctx → Ctx) : (s.modCtx p c f).pinned = s.pinned := by unfold State.modCtx; simp
@[simp] theorem State.modCtx_line (s : State) (p c : Nat) (f : Ctx → Ctx) : (s.modCtx p c f).line = s.line := by unfold State.modCtx; simp
@[simp] theorem State.modCtx_streak (s : State) (p c : Nat) (f : Ctx → Ctx) : (s.modCtx p c f).streak = s.streak := by unfold State.modCtx; simp
@[simp] theorem State.modCtx_freeCount (s : State) (p c : Nat) (f : Ctx → Ctx) : (s.modCtx p c f).freeCount = s.freeCount := by unfold State.modCtx; simp
@[simp] theorem State.modCtx_nextId (s : State) (p c : Nat) (f : Ctx → Ctx) : (s.modCtx p c f).nextId = s.nextId := by unfold State.modCtx; simp

/-! ### Sheaf.writePhys -/

@[simp] theorem Sheaf.writePhys_tid (sh : Sheaf) (r : Nat) (m : Mask) (w : Bool) (f : Nat → Word) (k : Mark) : (sh.writePhys r m w f k).tid = sh.tid := rfl
@[simp] theorem Sheaf.writePhys_core (sh : Sheaf) (r : Nat) (m : Mask) (w : Bool) (f : Nat → Word) (k : Mark) : (sh.writePhys r m w f k).core = sh.core := rfl
@[simp] theorem Sheaf.writePhys_slotNo (sh : Sheaf) (r : Nat) (m : Mask) (w : Bool) (f : Nat → Word) (k : Mark) : (sh.writePhys r m w f k).slotNo = sh.slotNo := rfl
@[simp] theorem Sheaf.writePhys_idx (sh : Sheaf) (r : Nat) (m : Mask) (w : Bool) (f : Nat → Word) (k : Mark) : (sh.writePhys r m w f k).idx = sh.idx := rfl
@[simp] theorem Sheaf.writePhys_role (sh : Sheaf) (r : Nat) (m : Mask) (w : Bool) (f : Nat → Word) (k : Mark) : (sh.writePhys r m w f k).role = sh.role := rfl
@[simp] theorem Sheaf.writePhys_state (sh : Sheaf) (r : Nat) (m : Mask) (w : Bool) (f : Nat → Word) (k : Mark) : (sh.writePhys r m w f k).state = sh.state := rfl
@[simp] theorem Sheaf.writePhys_resumeAs (sh : Sheaf) (r : Nat) (m : Mask) (w : Bool) (f : Nat → Word) (k : Mark) : (sh.writePhys r m w f k).resumeAs = sh.resumeAs := rfl
@[simp] theorem Sheaf.writePhys_pcv (sh : Sheaf) (r : Nat) (m : Mask) (w : Bool) (f : Nat → Word) (k : Mark) : (sh.writePhys r m w f k).pcv = sh.pcv := rfl
@[simp] theorem Sheaf.writePhys_exited (sh : Sheaf) (r : Nat) (m : Mask) (w : Bool) (f : Nat → Word) (k : Mark) : (sh.writePhys r m w f k).exited = sh.exited := rfl
@[simp] theorem Sheaf.writePhys_faulted (sh : Sheaf) (r : Nat) (m : Mask) (w : Bool) (f : Nat → Word) (k : Mark) : (sh.writePhys r m w f k).faulted = sh.faulted := rfl
@[simp] theorem Sheaf.writePhys_fairq (sh : Sheaf) (r : Nat) (m : Mask) (w : Bool) (f : Nat → Word) (k : Mark) : (sh.writePhys r m w f k).fairq = sh.fairq := rfl
@[simp] theorem Sheaf.writePhys_quantum (sh : Sheaf) (r : Nat) (m : Mask) (w : Bool) (f : Nat → Word) (k : Mark) : (sh.writePhys r m w f k).quantum = sh.quantum := rfl
@[simp] theorem Sheaf.writePhys_round (sh : Sheaf) (r : Nat) (m : Mask) (w : Bool) (f : Nat → Word) (k : Mark) : (sh.writePhys r m w f k).round = sh.round := rfl
@[simp] theorem Sheaf.writePhys_hints (sh : Sheaf) (r : Nat) (m : Mask) (w : Bool) (f : Nat → Word) (k : Mark) : (sh.writePhys r m w f k).hints = sh.hints := rfl
@[simp] theorem Sheaf.writePhys_second (sh : Sheaf) (r : Nat) (m : Mask) (w : Bool) (f : Nat → Word) (k : Mark) : (sh.writePhys r m w f k).second = sh.second := rfl
@[simp] theorem Sheaf.writePhys_vstack (sh : Sheaf) (r : Nat) (m : Mask) (w : Bool) (f : Nat → Word) (k : Mark) : (sh.writePhys r m w f k).vstack = sh.vstack := rfl
@[simp] theorem Sheaf.writePhys_wbase (sh : Sheaf) (r : Nat) (m : Mask) (w : Bool) (f : Nat → Word) (k : Mark) : (sh.writePhys r m w f k).wbase = sh.wbase := rfl
@[simp] theorem Sheaf.writePhys_wrbase (sh : Sheaf) (r : Nat) (m : Mask) (w : Bool) (f : Nat → Word) (k : Mark) : (sh.writePhys r m w f k).wrbase = sh.wrbase := rfl
@[simp] theorem Sheaf.writePhys_aregs (sh : Sheaf) (r : Nat) (m : Mask) (w : Bool) (f : Nat → Word) (k : Mark) : (sh.writePhys r m w f k).aregs = sh.aregs := rfl
@[simp] theorem Sheaf.writePhys_uregs (sh : Sheaf) (r : Nat) (m : Mask) (w : Bool) (f : Nat → Word) (k : Mark) : (sh.writePhys r m w f k).uregs = sh.uregs := rfl
@[simp] theorem Sheaf.writePhys_preds (sh : Sheaf) (r : Nat) (m : Mask) (w : Bool) (f : Nat → Word) (k : Mark) : (sh.writePhys r m w f k).preds = sh.preds := rfl
@[simp] theorem Sheaf.writePhys_descs (sh : Sheaf) (r : Nat) (m : Mask) (w : Bool) (f : Nat → Word) (k : Mark) : (sh.writePhys r m w f k).descs = sh.descs := rfl
@[simp] theorem Sheaf.writePhys_loop0 (sh : Sheaf) (r : Nat) (m : Mask) (w : Bool) (f : Nat → Word) (k : Mark) : (sh.writePhys r m w f k).loop0 = sh.loop0 := rfl
@[simp] theorem Sheaf.writePhys_loop1 (sh : Sheaf) (r : Nat) (m : Mask) (w : Bool) (f : Nat → Word) (k : Mark) : (sh.writePhys r m w f k).loop1 = sh.loop1 := rfl
@[simp] theorem Sheaf.writePhys_status (sh : Sheaf) (r : Nat) (m : Mask) (w : Bool) (f : Nat → Word) (k : Mark) : (sh.writePhys r m w f k).status = sh.status := rfl
@[simp] theorem Sheaf.writePhys_mode (sh : Sheaf) (r : Nat) (m : Mask) (w : Bool) (f : Nat → Word) (k : Mark) : (sh.writePhys r m w f k).mode = sh.mode := rfl
@[simp] theorem Sheaf.writePhys_lstk (sh : Sheaf) (r : Nat) (m : Mask) (w : Bool) (f : Nat → Word) (k : Mark) : (sh.writePhys r m w f k).lstk = sh.lstk := rfl
@[simp] theorem Sheaf.writePhys_reprem (sh : Sheaf) (r : Nat) (m : Mask) (w : Bool) (f : Nat → Word) (k : Mark) : (sh.writePhys r m w f k).reprem = sh.reprem := rfl
@[simp] theorem Sheaf.writePhys_began (sh : Sheaf) (r : Nat) (m : Mask) (w : Bool) (f : Nat → Word) (k : Mark) : (sh.writePhys r m w f k).began = sh.began := rfl
@[simp] theorem Sheaf.writePhys_moved (sh : Sheaf) (r : Nat) (m : Mask) (w : Bool) (f : Nat → Word) (k : Mark) : (sh.writePhys r m w f k).moved = sh.moved := rfl
@[simp] theorem Sheaf.writePhys_handler (sh : Sheaf) (r : Nat) (m : Mask) (w : Bool) (f : Nat → Word) (k : Mark) : (sh.writePhys r m w f k).handler = sh.handler := rfl
@[simp] theorem Sheaf.writePhys_pend (sh : Sheaf) (r : Nat) (m : Mask) (w : Bool) (f : Nat → Word) (k : Mark) : (sh.writePhys r m w f k).pend = sh.pend := rfl
@[simp] theorem Sheaf.writePhys_buf (sh : Sheaf) (r : Nat) (m : Mask) (w : Bool) (f : Nat → Word) (k : Mark) : (sh.writePhys r m w f k).buf = sh.buf := rfl
@[simp] theorem Sheaf.writePhys_cntSlice (sh : Sheaf) (r : Nat) (m : Mask) (w : Bool) (f : Nat → Word) (k : Mark) : (sh.writePhys r m w f k).cntSlice = sh.cntSlice := rfl
@[simp] theorem Sheaf.writePhys_cntPart (sh : Sheaf) (r : Nat) (m : Mask) (w : Bool) (f : Nat → Word) (k : Mark) : (sh.writePhys r m w f k).cntPart = sh.cntPart := rfl
@[simp] theorem Sheaf.writePhys_cntSys (sh : Sheaf) (r : Nat) (m : Mask) (w : Bool) (f : Nat → Word) (k : Mark) : (sh.writePhys r m w f k).cntSys = sh.cntSys := rfl
@[simp] theorem Sheaf.writePhys_wait (sh : Sheaf) (r : Nat) (m : Mask) (w : Bool) (f : Nat → Word) (k : Mark) : (sh.writePhys r m w f k).wait = sh.wait := rfl
@[simp] theorem Sheaf.writePhys_arr (sh : Sheaf) (r : Nat) (m : Mask) (w : Bool) (f : Nat → Word) (k : Mark) : (sh.writePhys r m w f k).arr = sh.arr := rfl
@[simp] theorem Sheaf.writePhys_ret (sh : Sheaf) (r : Nat) (m : Mask) (w : Bool) (f : Nat → Word) (k : Mark) : (sh.writePhys r m w f k).ret = sh.ret := rfl
@[simp] theorem Sheaf.writePhys_fused (sh : Sheaf) (r : Nat) (m : Mask) (w : Bool) (f : Nat → Word) (k : Mark) : (sh.writePhys r m w f k).fused = sh.fused := rfl
@[simp] theorem Sheaf.writePhys_arrival (sh : Sheaf) (r : Nat) (m : Mask) (w : Bool) (f : Nat → Word) (k : Mark) : (sh.writePhys r m w f k).arrival = sh.arrival := rfl
@[simp] theorem Sheaf.writePhys_closed (sh : Sheaf) (r : Nat) (m : Mask) (w : Bool) (f : Nat → Word) (k : Mark) : (sh.writePhys r m w f k).closed = sh.closed := rfl
@[simp] theorem Sheaf.writePhys_tiles (sh : Sheaf) (r : Nat) (m : Mask) (w : Bool) (f : Nat → Word) (k : Mark) : (sh.writePhys r m w f k).tiles = sh.tiles := rfl
@[simp] theorem Sheaf.writePhys_mops (sh : Sheaf) (r : Nat) (m : Mask) (w : Bool) (f : Nat → Word) (k : Mark) : (sh.writePhys r m w f k).mops = sh.mops := rfl
@[simp] theorem Sheaf.writePhys_bWrites (sh : Sheaf) (r : Nat) (m : Mask) (w : Bool) (f : Nat → Word) (k : Mark) : (sh.writePhys r m w f k).bWrites = sh.bWrites := rfl
@[simp] theorem Sheaf.writePhys_aWrites (sh : Sheaf) (r : Nat) (m : Mask) (w : Bool) (f : Nat → Word) (k : Mark) : (sh.writePhys r m w f k).aWrites = sh.aWrites := rfl
@[simp] theorem Sheaf.writePhys_lease (sh : Sheaf) (r : Nat) (m : Mask) (w : Bool) (f : Nat → Word) (k : Mark) : (sh.writePhys r m w f k).lease = sh.lease := rfl
@[simp] theorem Sheaf.writePhys_starve (sh : Sheaf) (r : Nat) (m : Mask) (w : Bool) (f : Nat → Word) (k : Mark) : (sh.writePhys r m w f k).starve = sh.starve := rfl
@[simp] theorem Sheaf.writePhys_age (sh : Sheaf) (r : Nat) (m : Mask) (w : Bool) (f : Nat → Word) (k : Mark) : (sh.writePhys r m w f k).age = sh.age := rfl

/-! ### Sheaf.writeV -/

@[simp] theorem Sheaf.writeV_tid (sh : Sheaf) (i : Nat) (m : Mask) (f : Nat → Word) (k : Mark) : (sh.writeV i m f k).tid = sh.tid := rfl
@[simp] theorem Sheaf.writeV_core (sh : Sheaf) (i : Nat) (m : Mask) (f : Nat → Word) (k : Mark) : (sh.writeV i m f k).core = sh.core := rfl
@[simp] theorem Sheaf.writeV_slotNo (sh : Sheaf) (i : Nat) (m : Mask) (f : Nat → Word) (k : Mark) : (sh.writeV i m f k).slotNo = sh.slotNo := rfl
@[simp] theorem Sheaf.writeV_idx (sh : Sheaf) (i : Nat) (m : Mask) (f : Nat → Word) (k : Mark) : (sh.writeV i m f k).idx = sh.idx := rfl
@[simp] theorem Sheaf.writeV_role (sh : Sheaf) (i : Nat) (m : Mask) (f : Nat → Word) (k : Mark) : (sh.writeV i m f k).role = sh.role := rfl
@[simp] theorem Sheaf.writeV_state (sh : Sheaf) (i : Nat) (m : Mask) (f : Nat → Word) (k : Mark) : (sh.writeV i m f k).state = sh.state := rfl
@[simp] theorem Sheaf.writeV_resumeAs (sh : Sheaf) (i : Nat) (m : Mask) (f : Nat → Word) (k : Mark) : (sh.writeV i m f k).resumeAs = sh.resumeAs := rfl
@[simp] theorem Sheaf.writeV_pcv (sh : Sheaf) (i : Nat) (m : Mask) (f : Nat → Word) (k : Mark) : (sh.writeV i m f k).pcv = sh.pcv := rfl
@[simp] theorem Sheaf.writeV_exited (sh : Sheaf) (i : Nat) (m : Mask) (f : Nat → Word) (k : Mark) : (sh.writeV i m f k).exited = sh.exited := rfl
@[simp] theorem Sheaf.writeV_faulted (sh : Sheaf) (i : Nat) (m : Mask) (f : Nat → Word) (k : Mark) : (sh.writeV i m f k).faulted = sh.faulted := rfl
@[simp] theorem Sheaf.writeV_fairq (sh : Sheaf) (i : Nat) (m : Mask) (f : Nat → Word) (k : Mark) : (sh.writeV i m f k).fairq = sh.fairq := rfl
@[simp] theorem Sheaf.writeV_quantum (sh : Sheaf) (i : Nat) (m : Mask) (f : Nat → Word) (k : Mark) : (sh.writeV i m f k).quantum = sh.quantum := rfl
@[simp] theorem Sheaf.writeV_round (sh : Sheaf) (i : Nat) (m : Mask) (f : Nat → Word) (k : Mark) : (sh.writeV i m f k).round = sh.round := rfl
@[simp] theorem Sheaf.writeV_hints (sh : Sheaf) (i : Nat) (m : Mask) (f : Nat → Word) (k : Mark) : (sh.writeV i m f k).hints = sh.hints := rfl
@[simp] theorem Sheaf.writeV_second (sh : Sheaf) (i : Nat) (m : Mask) (f : Nat → Word) (k : Mark) : (sh.writeV i m f k).second = sh.second := rfl
@[simp] theorem Sheaf.writeV_vstack (sh : Sheaf) (i : Nat) (m : Mask) (f : Nat → Word) (k : Mark) : (sh.writeV i m f k).vstack = sh.vstack := rfl
@[simp] theorem Sheaf.writeV_wbase (sh : Sheaf) (i : Nat) (m : Mask) (f : Nat → Word) (k : Mark) : (sh.writeV i m f k).wbase = sh.wbase := rfl
@[simp] theorem Sheaf.writeV_wrbase (sh : Sheaf) (i : Nat) (m : Mask) (f : Nat → Word) (k : Mark) : (sh.writeV i m f k).wrbase = sh.wrbase := rfl
@[simp] theorem Sheaf.writeV_aregs (sh : Sheaf) (i : Nat) (m : Mask) (f : Nat → Word) (k : Mark) : (sh.writeV i m f k).aregs = sh.aregs := rfl
@[simp] theorem Sheaf.writeV_uregs (sh : Sheaf) (i : Nat) (m : Mask) (f : Nat → Word) (k : Mark) : (sh.writeV i m f k).uregs = sh.uregs := rfl
@[simp] theorem Sheaf.writeV_preds (sh : Sheaf) (i : Nat) (m : Mask) (f : Nat → Word) (k : Mark) : (sh.writeV i m f k).preds = sh.preds := rfl
@[simp] theorem Sheaf.writeV_descs (sh : Sheaf) (i : Nat) (m : Mask) (f : Nat → Word) (k : Mark) : (sh.writeV i m f k).descs = sh.descs := rfl
@[simp] theorem Sheaf.writeV_loop0 (sh : Sheaf) (i : Nat) (m : Mask) (f : Nat → Word) (k : Mark) : (sh.writeV i m f k).loop0 = sh.loop0 := rfl
@[simp] theorem Sheaf.writeV_loop1 (sh : Sheaf) (i : Nat) (m : Mask) (f : Nat → Word) (k : Mark) : (sh.writeV i m f k).loop1 = sh.loop1 := rfl
@[simp] theorem Sheaf.writeV_status (sh : Sheaf) (i : Nat) (m : Mask) (f : Nat → Word) (k : Mark) : (sh.writeV i m f k).status = sh.status := rfl
@[simp] theorem Sheaf.writeV_mode (sh : Sheaf) (i : Nat) (m : Mask) (f : Nat → Word) (k : Mark) : (sh.writeV i m f k).mode = sh.mode := rfl
@[simp] theorem Sheaf.writeV_lstk (sh : Sheaf) (i : Nat) (m : Mask) (f : Nat → Word) (k : Mark) : (sh.writeV i m f k).lstk = sh.lstk := rfl
@[simp] theorem Sheaf.writeV_reprem (sh : Sheaf) (i : Nat) (m : Mask) (f : Nat → Word) (k : Mark) : (sh.writeV i m f k).reprem = sh.reprem := rfl
@[simp] theorem Sheaf.writeV_began (sh : Sheaf) (i : Nat) (m : Mask) (f : Nat → Word) (k : Mark) : (sh.writeV i m f k).began = sh.began := rfl
@[simp] theorem Sheaf.writeV_moved (sh : Sheaf) (i : Nat) (m : Mask) (f : Nat → Word) (k : Mark) : (sh.writeV i m f k).moved = sh.moved := rfl
@[simp] theorem Sheaf.writeV_handler (sh : Sheaf) (i : Nat) (m : Mask) (f : Nat → Word) (k : Mark) : (sh.writeV i m f k).handler = sh.handler := rfl
@[simp] theorem Sheaf.writeV_pend (sh : Sheaf) (i : Nat) (m : Mask) (f : Nat → Word) (k : Mark) : (sh.writeV i m f k).pend = sh.pend := rfl
@[simp] theorem Sheaf.writeV_buf (sh : Sheaf) (i : Nat) (m : Mask) (f : Nat → Word) (k : Mark) : (sh.writeV i m f k).buf = sh.buf := rfl
@[simp] theorem Sheaf.writeV_cntSlice (sh : Sheaf) (i : Nat) (m : Mask) (f : Nat → Word) (k : Mark) : (sh.writeV i m f k).cntSlice = sh.cntSlice := rfl
@[simp] theorem Sheaf.writeV_cntPart (sh : Sheaf) (i : Nat) (m : Mask) (f : Nat → Word) (k : Mark) : (sh.writeV i m f k).cntPart = sh.cntPart := rfl
@[simp] theorem Sheaf.writeV_cntSys (sh : Sheaf) (i : Nat) (m : Mask) (f : Nat → Word) (k : Mark) : (sh.writeV i m f k).cntSys = sh.cntSys := rfl
@[simp] theorem Sheaf.writeV_wait (sh : Sheaf) (i : Nat) (m : Mask) (f : Nat → Word) (k : Mark) : (sh.writeV i m f k).wait = sh.wait := rfl
@[simp] theorem Sheaf.writeV_arr (sh : Sheaf) (i : Nat) (m : Mask) (f : Nat → Word) (k : Mark) : (sh.writeV i m f k).arr = sh.arr := rfl
@[simp] theorem Sheaf.writeV_ret (sh : Sheaf) (i : Nat) (m : Mask) (f : Nat → Word) (k : Mark) : (sh.writeV i m f k).ret = sh.ret := rfl
@[simp] theorem Sheaf.writeV_fused (sh : Sheaf) (i : Nat) (m : Mask) (f : Nat → Word) (k : Mark) : (sh.writeV i m f k).fused = sh.fused := rfl
@[simp] theorem Sheaf.writeV_arrival (sh : Sheaf) (i : Nat) (m : Mask) (f : Nat → Word) (k : Mark) : (sh.writeV i m f k).arrival = sh.arrival := rfl
@[simp] theorem Sheaf.writeV_closed (sh : Sheaf) (i : Nat) (m : Mask) (f : Nat → Word) (k : Mark) : (sh.writeV i m f k).closed = sh.closed := rfl
@[simp] theorem Sheaf.writeV_tiles (sh : Sheaf) (i : Nat) (m : Mask) (f : Nat → Word) (k : Mark) : (sh.writeV i m f k).tiles = sh.tiles := rfl
@[simp] theorem Sheaf.writeV_mops (sh : Sheaf) (i : Nat) (m : Mask) (f : Nat → Word) (k : Mark) : (sh.writeV i m f k).mops = sh.mops := rfl
@[simp] theorem Sheaf.writeV_bWrites (sh : Sheaf) (i : Nat) (m : Mask) (f : Nat → Word) (k : Mark) : (sh.writeV i m f k).bWrites = sh.bWrites := rfl
@[simp] theorem Sheaf.writeV_aWrites (sh : Sheaf) (i : Nat) (m : Mask) (f : Nat → Word) (k : Mark) : (sh.writeV i m f k).aWrites = sh.aWrites := rfl
@[simp] theorem Sheaf.writeV_lease (sh : Sheaf) (i : Nat) (m : Mask) (f : Nat → Word) (k : Mark) : (sh.writeV i m f k).lease = sh.lease := rfl
@[simp] theorem Sheaf.writeV_starve (sh : Sheaf) (i : Nat) (m : Mask) (f : Nat → Word) (k : Mark) : (sh.writeV i m f k).starve = sh.starve := rfl
@[simp] theorem Sheaf.writeV_age (sh : Sheaf) (i : Nat) (m : Mask) (f : Nat → Word) (k : Mark) : (sh.writeV i m f k).age = sh.age := rfl

/-! ### Sheaf.writeU -/

@[simp] theorem Sheaf.writeU_tid (sh : Sheaf) (i : Nat) (v : Word) (k : Mark) : (sh.writeU i v k).tid = sh.tid := rfl
@[simp] theorem Sheaf.writeU_core (sh : Sheaf) (i : Nat) (v : Word) (k : Mark) : (sh.writeU i v k).core = sh.core := rfl
@[simp] theorem Sheaf.writeU_slotNo (sh : Sheaf) (i : Nat) (v : Word) (k : Mark) : (sh.writeU i v k).slotNo = sh.slotNo := rfl
@[simp] theorem Sheaf.writeU_idx (sh : Sheaf) (i : Nat) (v : Word) (k : Mark) : (sh.writeU i v k).idx = sh.idx := rfl
@[simp] theorem Sheaf.writeU_role (sh : Sheaf) (i : Nat) (v : Word) (k : Mark) : (sh.writeU i v k).role = sh.role := rfl
@[simp] theorem Sheaf.writeU_state (sh : Sheaf) (i : Nat) (v : Word) (k : Mark) : (sh.writeU i v k).state = sh.state := rfl
@[simp] theorem Sheaf.writeU_resumeAs (sh : Sheaf) (i : Nat) (v : Word) (k : Mark) : (sh.writeU i v k).resumeAs = sh.resumeAs := rfl
@[simp] theorem Sheaf.writeU_pcv (sh : Sheaf) (i : Nat) (v : Word) (k : Mark) : (sh.writeU i v k).pcv = sh.pcv := rfl
@[simp] theorem Sheaf.writeU_exited (sh : Sheaf) (i : Nat) (v : Word) (k : Mark) : (sh.writeU i v k).exited = sh.exited := rfl
@[simp] theorem Sheaf.writeU_faulted (sh : Sheaf) (i : Nat) (v : Word) (k : Mark) : (sh.writeU i v k).faulted = sh.faulted := rfl
@[simp] theorem Sheaf.writeU_fairq (sh : Sheaf) (i : Nat) (v : Word) (k : Mark) : (sh.writeU i v k).fairq = sh.fairq := rfl
@[simp] theorem Sheaf.writeU_quantum (sh : Sheaf) (i : Nat) (v : Word) (k : Mark) : (sh.writeU i v k).quantum = sh.quantum := rfl
@[simp] theorem Sheaf.writeU_round (sh : Sheaf) (i : Nat) (v : Word) (k : Mark) : (sh.writeU i v k).round = sh.round := rfl
@[simp] theorem Sheaf.writeU_hints (sh : Sheaf) (i : Nat) (v : Word) (k : Mark) : (sh.writeU i v k).hints = sh.hints := rfl
@[simp] theorem Sheaf.writeU_second (sh : Sheaf) (i : Nat) (v : Word) (k : Mark) : (sh.writeU i v k).second = sh.second := rfl
@[simp] theorem Sheaf.writeU_vregs (sh : Sheaf) (i : Nat) (v : Word) (k : Mark) : (sh.writeU i v k).vregs = sh.vregs := rfl
@[simp] theorem Sheaf.writeU_vstack (sh : Sheaf) (i : Nat) (v : Word) (k : Mark) : (sh.writeU i v k).vstack = sh.vstack := rfl
@[simp] theorem Sheaf.writeU_wbase (sh : Sheaf) (i : Nat) (v : Word) (k : Mark) : (sh.writeU i v k).wbase = sh.wbase := rfl
@[simp] theorem Sheaf.writeU_wrbase (sh : Sheaf) (i : Nat) (v : Word) (k : Mark) : (sh.writeU i v k).wrbase = sh.wrbase := rfl
@[simp] theorem Sheaf.writeU_aregs (sh : Sheaf) (i : Nat) (v : Word) (k : Mark) : (sh.writeU i v k).aregs = sh.aregs := rfl
@[simp] theorem Sheaf.writeU_uregs (sh : Sheaf) (i : Nat) (v : Word) (k : Mark) : (sh.writeU i v k).uregs = sh.uregs.put i { val := v, mark := k } := rfl
@[simp] theorem Sheaf.writeU_preds (sh : Sheaf) (i : Nat) (v : Word) (k : Mark) : (sh.writeU i v k).preds = sh.preds := rfl
@[simp] theorem Sheaf.writeU_descs (sh : Sheaf) (i : Nat) (v : Word) (k : Mark) : (sh.writeU i v k).descs = sh.descs := rfl
@[simp] theorem Sheaf.writeU_loop0 (sh : Sheaf) (i : Nat) (v : Word) (k : Mark) : (sh.writeU i v k).loop0 = sh.loop0 := rfl
@[simp] theorem Sheaf.writeU_loop1 (sh : Sheaf) (i : Nat) (v : Word) (k : Mark) : (sh.writeU i v k).loop1 = sh.loop1 := rfl
@[simp] theorem Sheaf.writeU_status (sh : Sheaf) (i : Nat) (v : Word) (k : Mark) : (sh.writeU i v k).status = sh.status := rfl
@[simp] theorem Sheaf.writeU_mode (sh : Sheaf) (i : Nat) (v : Word) (k : Mark) : (sh.writeU i v k).mode = sh.mode := rfl
@[simp] theorem Sheaf.writeU_lstk (sh : Sheaf) (i : Nat) (v : Word) (k : Mark) : (sh.writeU i v k).lstk = sh.lstk := rfl
@[simp] theorem Sheaf.writeU_reprem (sh : Sheaf) (i : Nat) (v : Word) (k : Mark) : (sh.writeU i v k).reprem = sh.reprem := rfl
@[simp] theorem Sheaf.writeU_began (sh : Sheaf) (i : Nat) (v : Word) (k : Mark) : (sh.writeU i v k).began = sh.began := rfl
@[simp] theorem Sheaf.writeU_moved (sh : Sheaf) (i : Nat) (v : Word) (k : Mark) : (sh.writeU i v k).moved = sh.moved := rfl
@[simp] theorem Sheaf.writeU_handler (sh : Sheaf) (i : Nat) (v : Word) (k : Mark) : (sh.writeU i v k).handler = sh.handler := rfl
@[simp] theorem Sheaf.writeU_pend (sh : Sheaf) (i : Nat) (v : Word) (k : Mark) : (sh.writeU i v k).pend = sh.pend := rfl
@[simp] theorem Sheaf.writeU_buf (sh : Sheaf) (i : Nat) (v : Word) (k : Mark) : (sh.writeU i v k).buf = sh.buf := rfl
@[simp] theorem Sheaf.writeU_cntSlice (sh : Sheaf) (i : Nat) (v : Word) (k : Mark) : (sh.writeU i v k).cntSlice = sh.cntSlice := rfl
@[simp] theorem Sheaf.writeU_cntPart (sh : Sheaf) (i : Nat) (v : Word) (k : Mark) : (sh.writeU i v k).cntPart = sh.cntPart := rfl
@[simp] theorem Sheaf.writeU_cntSys (sh : Sheaf) (i : Nat) (v : Word) (k : Mark) : (sh.writeU i v k).cntSys = sh.cntSys := rfl
@[simp] theorem Sheaf.writeU_wait (sh : Sheaf) (i : Nat) (v : Word) (k : Mark) : (sh.writeU i v k).wait = sh.wait := rfl
@[simp] theorem Sheaf.writeU_arr (sh : Sheaf) (i : Nat) (v : Word) (k : Mark) : (sh.writeU i v k).arr = sh.arr := rfl
@[simp] theorem Sheaf.writeU_ret (sh : Sheaf) (i : Nat) (v : Word) (k : Mark) : (sh.writeU i v k).ret = sh.ret := rfl
@[simp] theorem Sheaf.writeU_fused (sh : Sheaf) (i : Nat) (v : Word) (k : Mark) : (sh.writeU i v k).fused = sh.fused := rfl
@[simp] theorem Sheaf.writeU_arrival (sh : Sheaf) (i : Nat) (v : Word) (k : Mark) : (sh.writeU i v k).arrival = sh.arrival := rfl
@[simp] theorem Sheaf.writeU_closed (sh : Sheaf) (i : Nat) (v : Word) (k : Mark) : (sh.writeU i v k).closed = sh.closed := rfl
@[simp] theorem Sheaf.writeU_tiles (sh : Sheaf) (i : Nat) (v : Word) (k : Mark) : (sh.writeU i v k).tiles = sh.tiles := rfl
@[simp] theorem Sheaf.writeU_mops (sh : Sheaf) (i : Nat) (v : Word) (k : Mark) : (sh.writeU i v k).mops = sh.mops := rfl
@[simp] theorem Sheaf.writeU_bWrites (sh : Sheaf) (i : Nat) (v : Word) (k : Mark) : (sh.writeU i v k).bWrites = sh.bWrites := rfl
@[simp] theorem Sheaf.writeU_aWrites (sh : Sheaf) (i : Nat) (v : Word) (k : Mark) : (sh.writeU i v k).aWrites = sh.aWrites := rfl
@[simp] theorem Sheaf.writeU_lease (sh : Sheaf) (i : Nat) (v : Word) (k : Mark) : (sh.writeU i v k).lease = sh.lease := rfl
@[simp] theorem Sheaf.writeU_starve (sh : Sheaf) (i : Nat) (v : Word) (k : Mark) : (sh.writeU i v k).starve = sh.starve := rfl
@[simp] theorem Sheaf.writeU_age (sh : Sheaf) (i : Nat) (v : Word) (k : Mark) : (sh.writeU i v k).age = sh.age := rfl

/-! ### Sheaf.writePair -/

@[simp] theorem Sheaf.writePair_tid (sh : Sheaf) (i : Nat) (v : BitVec 64) (k : Mark) : (sh.writePair i v k).tid = sh.tid := rfl
@[simp] theorem Sheaf.writePair_core (sh : Sheaf) (i : Nat) (v : BitVec 64) (k : Mark) : (sh.writePair i v k).core = sh.core := rfl
@[simp] theorem Sheaf.writePair_slotNo (sh : Sheaf) (i : Nat) (v : BitVec 64) (k : Mark) : (sh.writePair i v k).slotNo = sh.slotNo := rfl
@[simp] theorem Sheaf.writePair_idx (sh : Sheaf) (i : Nat) (v : BitVec 64) (k : Mark) : (sh.writePair i v k).idx = sh.idx := rfl
@[simp] theorem Sheaf.writePair_role (sh : Sheaf) (i : Nat) (v : BitVec 64) (k : Mark) : (sh.writePair i v k).role = sh.role := rfl
@[simp] theorem Sheaf.writePair_state (sh : Sheaf) (i : Nat) (v : BitVec 64) (k : Mark) : (sh.writePair i v k).state = sh.state := rfl
@[simp] theorem Sheaf.writePair_resumeAs (sh : Sheaf) (i : Nat) (v : BitVec 64) (k : Mark) : (sh.writePair i v k).resumeAs = sh.resumeAs := rfl
@[simp] theorem Sheaf.writePair_pcv (sh : Sheaf) (i : Nat) (v : BitVec 64) (k : Mark) : (sh.writePair i v k).pcv = sh.pcv := rfl
@[simp] theorem Sheaf.writePair_exited (sh : Sheaf) (i : Nat) (v : BitVec 64) (k : Mark) : (sh.writePair i v k).exited = sh.exited := rfl
@[simp] theorem Sheaf.writePair_faulted (sh : Sheaf) (i : Nat) (v : BitVec 64) (k : Mark) : (sh.writePair i v k).faulted = sh.faulted := rfl
@[simp] theorem Sheaf.writePair_fairq (sh : Sheaf) (i : Nat) (v : BitVec 64) (k : Mark) : (sh.writePair i v k).fairq = sh.fairq := rfl
@[simp] theorem Sheaf.writePair_quantum (sh : Sheaf) (i : Nat) (v : BitVec 64) (k : Mark) : (sh.writePair i v k).quantum = sh.quantum := rfl
@[simp] theorem Sheaf.writePair_round (sh : Sheaf) (i : Nat) (v : BitVec 64) (k : Mark) : (sh.writePair i v k).round = sh.round := rfl
@[simp] theorem Sheaf.writePair_hints (sh : Sheaf) (i : Nat) (v : BitVec 64) (k : Mark) : (sh.writePair i v k).hints = sh.hints := rfl
@[simp] theorem Sheaf.writePair_second (sh : Sheaf) (i : Nat) (v : BitVec 64) (k : Mark) : (sh.writePair i v k).second = sh.second := rfl
@[simp] theorem Sheaf.writePair_vregs (sh : Sheaf) (i : Nat) (v : BitVec 64) (k : Mark) : (sh.writePair i v k).vregs = sh.vregs := rfl
@[simp] theorem Sheaf.writePair_vstack (sh : Sheaf) (i : Nat) (v : BitVec 64) (k : Mark) : (sh.writePair i v k).vstack = sh.vstack := rfl
@[simp] theorem Sheaf.writePair_wbase (sh : Sheaf) (i : Nat) (v : BitVec 64) (k : Mark) : (sh.writePair i v k).wbase = sh.wbase := rfl
@[simp] theorem Sheaf.writePair_wrbase (sh : Sheaf) (i : Nat) (v : BitVec 64) (k : Mark) : (sh.writePair i v k).wrbase = sh.wrbase := rfl
@[simp] theorem Sheaf.writePair_aregs (sh : Sheaf) (i : Nat) (v : BitVec 64) (k : Mark) : (sh.writePair i v k).aregs = sh.aregs := rfl
@[simp] theorem Sheaf.writePair_uregs (sh : Sheaf) (i : Nat) (v : BitVec 64) (k : Mark) : (sh.writePair i v k).uregs = (sh.uregs.put i { val := v.setWidth 32, mark := k }).put (i + 1) { val := (v >>> 32).setWidth 32, mark := k } := rfl
@[simp] theorem Sheaf.writePair_preds (sh : Sheaf) (i : Nat) (v : BitVec 64) (k : Mark) : (sh.writePair i v k).preds = sh.preds := rfl
@[simp] theorem Sheaf.writePair_descs (sh : Sheaf) (i : Nat) (v : BitVec 64) (k : Mark) : (sh.writePair i v k).descs = sh.descs := rfl
@[simp] theorem Sheaf.writePair_loop0 (sh : Sheaf) (i : Nat) (v : BitVec 64) (k : Mark) : (sh.writePair i v k).loop0 = sh.loop0 := rfl
@[simp] theorem Sheaf.writePair_loop1 (sh : Sheaf) (i : Nat) (v : BitVec 64) (k : Mark) : (sh.writePair i v k).loop1 = sh.loop1 := rfl
@[simp] theorem Sheaf.writePair_status (sh : Sheaf) (i : Nat) (v : BitVec 64) (k : Mark) : (sh.writePair i v k).status = sh.status := rfl
@[simp] theorem Sheaf.writePair_mode (sh : Sheaf) (i : Nat) (v : BitVec 64) (k : Mark) : (sh.writePair i v k).mode = sh.mode := rfl
@[simp] theorem Sheaf.writePair_lstk (sh : Sheaf) (i : Nat) (v : BitVec 64) (k : Mark) : (sh.writePair i v k).lstk = sh.lstk := rfl
@[simp] theorem Sheaf.writePair_reprem (sh : Sheaf) (i : Nat) (v : BitVec 64) (k : Mark) : (sh.writePair i v k).reprem = sh.reprem := rfl
@[simp] theorem Sheaf.writePair_began (sh : Sheaf) (i : Nat) (v : BitVec 64) (k : Mark) : (sh.writePair i v k).began = sh.began := rfl
@[simp] theorem Sheaf.writePair_moved (sh : Sheaf) (i : Nat) (v : BitVec 64) (k : Mark) : (sh.writePair i v k).moved = sh.moved := rfl
@[simp] theorem Sheaf.writePair_handler (sh : Sheaf) (i : Nat) (v : BitVec 64) (k : Mark) : (sh.writePair i v k).handler = sh.handler := rfl
@[simp] theorem Sheaf.writePair_pend (sh : Sheaf) (i : Nat) (v : BitVec 64) (k : Mark) : (sh.writePair i v k).pend = sh.pend := rfl
@[simp] theorem Sheaf.writePair_buf (sh : Sheaf) (i : Nat) (v : BitVec 64) (k : Mark) : (sh.writePair i v k).buf = sh.buf := rfl
@[simp] theorem Sheaf.writePair_cntSlice (sh : Sheaf) (i : Nat) (v : BitVec 64) (k : Mark) : (sh.writePair i v k).cntSlice = sh.cntSlice := rfl
@[simp] theorem Sheaf.writePair_cntPart (sh : Sheaf) (i : Nat) (v : BitVec 64) (k : Mark) : (sh.writePair i v k).cntPart = sh.cntPart := rfl
@[simp] theorem Sheaf.writePair_cntSys (sh : Sheaf) (i : Nat) (v : BitVec 64) (k : Mark) : (sh.writePair i v k).cntSys = sh.cntSys := rfl
@[simp] theorem Sheaf.writePair_wait (sh : Sheaf) (i : Nat) (v : BitVec 64) (k : Mark) : (sh.writePair i v k).wait = sh.wait := rfl
@[simp] theorem Sheaf.writePair_arr (sh : Sheaf) (i : Nat) (v : BitVec 64) (k : Mark) : (sh.writePair i v k).arr = sh.arr := rfl
@[simp] theorem Sheaf.writePair_ret (sh : Sheaf) (i : Nat) (v : BitVec 64) (k : Mark) : (sh.writePair i v k).ret = sh.ret := rfl
@[simp] theorem Sheaf.writePair_fused (sh : Sheaf) (i : Nat) (v : BitVec 64) (k : Mark) : (sh.writePair i v k).fused = sh.fused := rfl
@[simp] theorem Sheaf.writePair_arrival (sh : Sheaf) (i : Nat) (v : BitVec 64) (k : Mark) : (sh.writePair i v k).arrival = sh.arrival := rfl
@[simp] theorem Sheaf.writePair_closed (sh : Sheaf) (i : Nat) (v : BitVec 64) (k : Mark) : (sh.writePair i v k).closed = sh.closed := rfl
@[simp] theorem Sheaf.writePair_tiles (sh : Sheaf) (i : Nat) (v : BitVec 64) (k : Mark) : (sh.writePair i v k).tiles = sh.tiles := rfl
@[simp] theorem Sheaf.writePair_mops (sh : Sheaf) (i : Nat) (v : BitVec 64) (k : Mark) : (sh.writePair i v k).mops = sh.mops := rfl
@[simp] theorem Sheaf.writePair_bWrites (sh : Sheaf) (i : Nat) (v : BitVec 64) (k : Mark) : (sh.writePair i v k).bWrites = sh.bWrites := rfl
@[simp] theorem Sheaf.writePair_aWrites (sh : Sheaf) (i : Nat) (v : BitVec 64) (k : Mark) : (sh.writePair i v k).aWrites = sh.aWrites := rfl
@[simp] theorem Sheaf.writePair_lease (sh : Sheaf) (i : Nat) (v : BitVec 64) (k : Mark) : (sh.writePair i v k).lease = sh.lease := rfl
@[simp] theorem Sheaf.writePair_starve (sh : Sheaf) (i : Nat) (v : BitVec 64) (k : Mark) : (sh.writePair i v k).starve = sh.starve := rfl
@[simp] theorem Sheaf.writePair_age (sh : Sheaf) (i : Nat) (v : BitVec 64) (k : Mark) : (sh.writePair i v k).age = sh.age := rfl

/-! ### Sheaf.writeP -/

@[simp] theorem Sheaf.writeP_tid (sh : Sheaf) (p : Nat) (m : Mask) (f : Nat → Bool) (k : Mark) : (sh.writeP p m f k).tid = sh.tid := rfl
@[simp] theorem Sheaf.writeP_core (sh : Sheaf) (p : Nat) (m : Mask) (f : Nat → Bool) (k : Mark) : (sh.writeP p m f k).core = sh.core := rfl
@[simp] theorem Sheaf.writeP_slotNo (sh : Sheaf) (p : Nat) (m : Mask) (f : Nat → Bool) (k : Mark) : (sh.writeP p m f k).slotNo = sh.slotNo := rfl
@[simp] theorem Sheaf.writeP_idx (sh : Sheaf) (p : Nat) (m : Mask) (f : Nat → Bool) (k : Mark) : (sh.writeP p m f k).idx = sh.idx := rfl
@[simp] theorem Sheaf.writeP_role (sh : Sheaf) (p : Nat) (m : Mask) (f : Nat → Bool) (k : Mark) : (sh.writeP p m f k).role = sh.role := rfl
@[simp] theorem Sheaf.writeP_state (sh : Sheaf) (p : Nat) (m : Mask) (f : Nat → Bool) (k : Mark) : (sh.writeP p m f k).state = sh.state := rfl
@[simp] theorem Sheaf.writeP_resumeAs (sh : Sheaf) (p : Nat) (m : Mask) (f : Nat → Bool) (k : Mark) : (sh.writeP p m f k).resumeAs = sh.resumeAs := rfl
@[simp] theorem Sheaf.writeP_pcv (sh : Sheaf) (p : Nat) (m : Mask) (f : Nat → Bool) (k : Mark) : (sh.writeP p m f k).pcv = sh.pcv := rfl
@[simp] theorem Sheaf.writeP_exited (sh : Sheaf) (p : Nat) (m : Mask) (f : Nat → Bool) (k : Mark) : (sh.writeP p m f k).exited = sh.exited := rfl
@[simp] theorem Sheaf.writeP_faulted (sh : Sheaf) (p : Nat) (m : Mask) (f : Nat → Bool) (k : Mark) : (sh.writeP p m f k).faulted = sh.faulted := rfl
@[simp] theorem Sheaf.writeP_fairq (sh : Sheaf) (p : Nat) (m : Mask) (f : Nat → Bool) (k : Mark) : (sh.writeP p m f k).fairq = sh.fairq := rfl
@[simp] theorem Sheaf.writeP_quantum (sh : Sheaf) (p : Nat) (m : Mask) (f : Nat → Bool) (k : Mark) : (sh.writeP p m f k).quantum = sh.quantum := rfl
@[simp] theorem Sheaf.writeP_round (sh : Sheaf) (p : Nat) (m : Mask) (f : Nat → Bool) (k : Mark) : (sh.writeP p m f k).round = sh.round := rfl
@[simp] theorem Sheaf.writeP_hints (sh : Sheaf) (p : Nat) (m : Mask) (f : Nat → Bool) (k : Mark) : (sh.writeP p m f k).hints = sh.hints := rfl
@[simp] theorem Sheaf.writeP_second (sh : Sheaf) (p : Nat) (m : Mask) (f : Nat → Bool) (k : Mark) : (sh.writeP p m f k).second = sh.second := rfl
@[simp] theorem Sheaf.writeP_vregs (sh : Sheaf) (p : Nat) (m : Mask) (f : Nat → Bool) (k : Mark) : (sh.writeP p m f k).vregs = sh.vregs := rfl
@[simp] theorem Sheaf.writeP_vstack (sh : Sheaf) (p : Nat) (m : Mask) (f : Nat → Bool) (k : Mark) : (sh.writeP p m f k).vstack = sh.vstack := rfl
@[simp] theorem Sheaf.writeP_wbase (sh : Sheaf) (p : Nat) (m : Mask) (f : Nat → Bool) (k : Mark) : (sh.writeP p m f k).wbase = sh.wbase := rfl
@[simp] theorem Sheaf.writeP_wrbase (sh : Sheaf) (p : Nat) (m : Mask) (f : Nat → Bool) (k : Mark) : (sh.writeP p m f k).wrbase = sh.wrbase := rfl
@[simp] theorem Sheaf.writeP_aregs (sh : Sheaf) (p : Nat) (m : Mask) (f : Nat → Bool) (k : Mark) : (sh.writeP p m f k).aregs = sh.aregs := rfl
@[simp] theorem Sheaf.writeP_uregs (sh : Sheaf) (p : Nat) (m : Mask) (f : Nat → Bool) (k : Mark) : (sh.writeP p m f k).uregs = sh.uregs := rfl
@[simp] theorem Sheaf.writeP_descs (sh : Sheaf) (p : Nat) (m : Mask) (f : Nat → Bool) (k : Mark) : (sh.writeP p m f k).descs = sh.descs := rfl
@[simp] theorem Sheaf.writeP_loop0 (sh : Sheaf) (p : Nat) (m : Mask) (f : Nat → Bool) (k : Mark) : (sh.writeP p m f k).loop0 = sh.loop0 := rfl
@[simp] theorem Sheaf.writeP_loop1 (sh : Sheaf) (p : Nat) (m : Mask) (f : Nat → Bool) (k : Mark) : (sh.writeP p m f k).loop1 = sh.loop1 := rfl
@[simp] theorem Sheaf.writeP_status (sh : Sheaf) (p : Nat) (m : Mask) (f : Nat → Bool) (k : Mark) : (sh.writeP p m f k).status = sh.status := rfl
@[simp] theorem Sheaf.writeP_mode (sh : Sheaf) (p : Nat) (m : Mask) (f : Nat → Bool) (k : Mark) : (sh.writeP p m f k).mode = sh.mode := rfl
@[simp] theorem Sheaf.writeP_lstk (sh : Sheaf) (p : Nat) (m : Mask) (f : Nat → Bool) (k : Mark) : (sh.writeP p m f k).lstk = sh.lstk := rfl
@[simp] theorem Sheaf.writeP_reprem (sh : Sheaf) (p : Nat) (m : Mask) (f : Nat → Bool) (k : Mark) : (sh.writeP p m f k).reprem = sh.reprem := rfl
@[simp] theorem Sheaf.writeP_began (sh : Sheaf) (p : Nat) (m : Mask) (f : Nat → Bool) (k : Mark) : (sh.writeP p m f k).began = sh.began := rfl
@[simp] theorem Sheaf.writeP_moved (sh : Sheaf) (p : Nat) (m : Mask) (f : Nat → Bool) (k : Mark) : (sh.writeP p m f k).moved = sh.moved := rfl
@[simp] theorem Sheaf.writeP_handler (sh : Sheaf) (p : Nat) (m : Mask) (f : Nat → Bool) (k : Mark) : (sh.writeP p m f k).handler = sh.handler := rfl
@[simp] theorem Sheaf.writeP_pend (sh : Sheaf) (p : Nat) (m : Mask) (f : Nat → Bool) (k : Mark) : (sh.writeP p m f k).pend = sh.pend := rfl
@[simp] theorem Sheaf.writeP_buf (sh : Sheaf) (p : Nat) (m : Mask) (f : Nat → Bool) (k : Mark) : (sh.writeP p m f k).buf = sh.buf := rfl
@[simp] theorem Sheaf.writeP_cntSlice (sh : Sheaf) (p : Nat) (m : Mask) (f : Nat → Bool) (k : Mark) : (sh.writeP p m f k).cntSlice = sh.cntSlice := rfl
@[simp] theorem Sheaf.writeP_cntPart (sh : Sheaf) (p : Nat) (m : Mask) (f : Nat → Bool) (k : Mark) : (sh.writeP p m f k).cntPart = sh.cntPart := rfl
@[simp] theorem Sheaf.writeP_cntSys (sh : Sheaf) (p : Nat) (m : Mask) (f : Nat → Bool) (k : Mark) : (sh.writeP p m f k).cntSys = sh.cntSys := rfl
@[simp] theorem Sheaf.writeP_wait (sh : Sheaf) (p : Nat) (m : Mask) (f : Nat → Bool) (k : Mark) : (sh.writeP p m f k).wait = sh.wait := rfl
@[simp] theorem Sheaf.writeP_arr (sh : Sheaf) (p : Nat) (m : Mask) (f : Nat → Bool) (k : Mark) : (sh.writeP p m f k).arr = sh.arr := rfl
@[simp] theorem Sheaf.writeP_ret (sh : Sheaf) (p : Nat) (m : Mask) (f : Nat → Bool) (k : Mark) : (sh.writeP p m f k).ret = sh.ret := rfl
@[simp] theorem Sheaf.writeP_fused (sh : Sheaf) (p : Nat) (m : Mask) (f : Nat → Bool) (k : Mark) : (sh.writeP p m f k).fused = sh.fused := rfl
@[simp] theorem Sheaf.writeP_arrival (sh : Sheaf) (p : Nat) (m : Mask) (f : Nat → Bool) (k : Mark) : (sh.writeP p m f k).arrival = sh.arrival := rfl
@[simp] theorem Sheaf.writeP_closed (sh : Sheaf) (p : Nat) (m : Mask) (f : Nat → Bool) (k : Mark) : (sh.writeP p m f k).closed = sh.closed := rfl
@[simp] theorem Sheaf.writeP_tiles (sh : Sheaf) (p : Nat) (m : Mask) (f : Nat → Bool) (k : Mark) : (sh.writeP p m f k).tiles = sh.tiles := rfl
@[simp] theorem Sheaf.writeP_mops (sh : Sheaf) (p : Nat) (m : Mask) (f : Nat → Bool) (k : Mark) : (sh.writeP p m f k).mops = sh.mops := rfl
@[simp] theorem Sheaf.writeP_bWrites (sh : Sheaf) (p : Nat) (m : Mask) (f : Nat → Bool) (k : Mark) : (sh.writeP p m f k).bWrites = sh.bWrites := rfl
@[simp] theorem Sheaf.writeP_aWrites (sh : Sheaf) (p : Nat) (m : Mask) (f : Nat → Bool) (k : Mark) : (sh.writeP p m f k).aWrites = sh.aWrites := rfl
@[simp] theorem Sheaf.writeP_lease (sh : Sheaf) (p : Nat) (m : Mask) (f : Nat → Bool) (k : Mark) : (sh.writeP p m f k).lease = sh.lease := rfl
@[simp] theorem Sheaf.writeP_starve (sh : Sheaf) (p : Nat) (m : Mask) (f : Nat → Bool) (k : Mark) : (sh.writeP p m f k).starve = sh.starve := rfl
@[simp] theorem Sheaf.writeP_age (sh : Sheaf) (p : Nat) (m : Mask) (f : Nat → Bool) (k : Mark) : (sh.writeP p m f k).age = sh.age := rfl

/-! ### Sheaf.writePAll -/

@[simp] theorem Sheaf.writePAll_tid (sh : Sheaf) (p : Nat) (v : Word) (k : Mark) : (sh.writePAll p v k).tid = sh.tid := rfl
@[simp] theorem Sheaf.writePAll_core (sh : Sheaf) (p : Nat) (v : Word) (k : Mark) : (sh.writePAll p v k).core = sh.core := rfl
@[simp] theorem Sheaf.writePAll_slotNo (sh : Sheaf) (p : Nat) (v : Word) (k : Mark) : (sh.writePAll p v k).slotNo = sh.slotNo := rfl
@[simp] theorem Sheaf.writePAll_idx (sh : Sheaf) (p : Nat) (v : Word) (k : Mark) : (sh.writePAll p v k).idx = sh.idx := rfl
@[simp] theorem Sheaf.writePAll_role (sh : Sheaf) (p : Nat) (v : Word) (k : Mark) : (sh.writePAll p v k).role = sh.role := rfl
@[simp] theorem Sheaf.writePAll_state (sh : Sheaf) (p : Nat) (v : Word) (k : Mark) : (sh.writePAll p v k).state = sh.state := rfl
@[simp] theorem Sheaf.writePAll_resumeAs (sh : Sheaf) (p : Nat) (v : Word) (k : Mark) : (sh.writePAll p v k).resumeAs = sh.resumeAs := rfl
@[simp] theorem Sheaf.writePAll_pcv (sh : Sheaf) (p : Nat) (v : Word) (k : Mark) : (sh.writePAll p v k).pcv = sh.pcv := rfl
@[simp] theorem Sheaf.writePAll_exited (sh : Sheaf) (p : Nat) (v : Word) (k : Mark) : (sh.writePAll p v k).exited = sh.exited := rfl
@[simp] theorem Sheaf.writePAll_faulted (sh : Sheaf) (p : Nat) (v : Word) (k : Mark) : (sh.writePAll p v k).faulted = sh.faulted := rfl
@[simp] theorem Sheaf.writePAll_fairq (sh : Sheaf) (p : Nat) (v : Word) (k : Mark) : (sh.writePAll p v k).fairq = sh.fairq := rfl
@[simp] theorem Sheaf.writePAll_quantum (sh : Sheaf) (p : Nat) (v : Word) (k : Mark) : (sh.writePAll p v k).quantum = sh.quantum := rfl
@[simp] theorem Sheaf.writePAll_round (sh : Sheaf) (p : Nat) (v : Word) (k : Mark) : (sh.writePAll p v k).round = sh.round := rfl
@[simp] theorem Sheaf.writePAll_hints (sh : Sheaf) (p : Nat) (v : Word) (k : Mark) : (sh.writePAll p v k).hints = sh.hints := rfl
@[simp] theorem Sheaf.writePAll_second (sh : Sheaf) (p : Nat) (v : Word) (k : Mark) : (sh.writePAll p v k).second = sh.second := rfl
@[simp] theorem Sheaf.writePAll_vregs (sh : Sheaf) (p : Nat) (v : Word) (k : Mark) : (sh.writePAll p v k).vregs = sh.vregs := rfl
@[simp] theorem Sheaf.writePAll_vstack (sh : Sheaf) (p : Nat) (v : Word) (k : Mark) : (sh.writePAll p v k).vstack = sh.vstack := rfl
@[simp] theorem Sheaf.writePAll_wbase (sh : Sheaf) (p : Nat) (v : Word) (k : Mark) : (sh.writePAll p v k).wbase = sh.wbase := rfl
@[simp] theorem Sheaf.writePAll_wrbase (sh : Sheaf) (p : Nat) (v : Word) (k : Mark) : (sh.writePAll p v k).wrbase = sh.wrbase := rfl
@[simp] theorem Sheaf.writePAll_aregs (sh : Sheaf) (p : Nat) (v : Word) (k : Mark) : (sh.writePAll p v k).aregs = sh.aregs := rfl
@[simp] theorem Sheaf.writePAll_uregs (sh : Sheaf) (p : Nat) (v : Word) (k : Mark) : (sh.writePAll p v k).uregs = sh.uregs := rfl
@[simp] theorem Sheaf.writePAll_preds (sh : Sheaf) (p : Nat) (v : Word) (k : Mark) : (sh.writePAll p v k).preds = sh.preds.put p { val := v, mark := k } := rfl
@[simp] theorem Sheaf.writePAll_descs (sh : Sheaf) (p : Nat) (v : Word) (k : Mark) : (sh.writePAll p v k).descs = sh.descs := rfl
@[simp] theorem Sheaf.writePAll_loop0 (sh : Sheaf) (p : Nat) (v : Word) (k : Mark) : (sh.writePAll p v k).loop0 = sh.loop0 := rfl
@[simp] theorem Sheaf.writePAll_loop1 (sh : Sheaf) (p : Nat) (v : Word) (k : Mark) : (sh.writePAll p v k).loop1 = sh.loop1 := rfl
@[simp] theorem Sheaf.writePAll_status (sh : Sheaf) (p : Nat) (v : Word) (k : Mark) : (sh.writePAll p v k).status = sh.status := rfl
@[simp] theorem Sheaf.writePAll_mode (sh : Sheaf) (p : Nat) (v : Word) (k : Mark) : (sh.writePAll p v k).mode = sh.mode := rfl
@[simp] theorem Sheaf.writePAll_lstk (sh : Sheaf) (p : Nat) (v : Word) (k : Mark) : (sh.writePAll p v k).lstk = sh.lstk := rfl
@[simp] theorem Sheaf.writePAll_reprem (sh : Sheaf) (p : Nat) (v : Word) (k : Mark) : (sh.writePAll p v k).reprem = sh.reprem := rfl
@[simp] theorem Sheaf.writePAll_began (sh : Sheaf) (p : Nat) (v : Word) (k : Mark) : (sh.writePAll p v k).began = sh.began := rfl
@[simp] theorem Sheaf.writePAll_moved (sh : Sheaf) (p : Nat) (v : Word) (k : Mark) : (sh.writePAll p v k).moved = sh.moved := rfl
@[simp] theorem Sheaf.writePAll_handler (sh : Sheaf) (p : Nat) (v : Word) (k : Mark) : (sh.writePAll p v k).handler = sh.handler := rfl
@[simp] theorem Sheaf.writePAll_pend (sh : Sheaf) (p : Nat) (v : Word) (k : Mark) : (sh.writePAll p v k).pend = sh.pend := rfl
@[simp] theorem Sheaf.writePAll_buf (sh : Sheaf) (p : Nat) (v : Word) (k : Mark) : (sh.writePAll p v k).buf = sh.buf := rfl
@[simp] theorem Sheaf.writePAll_cntSlice (sh : Sheaf) (p : Nat) (v : Word) (k : Mark) : (sh.writePAll p v k).cntSlice = sh.cntSlice := rfl
@[simp] theorem Sheaf.writePAll_cntPart (sh : Sheaf) (p : Nat) (v : Word) (k : Mark) : (sh.writePAll p v k).cntPart = sh.cntPart := rfl
@[simp] theorem Sheaf.writePAll_cntSys (sh : Sheaf) (p : Nat) (v : Word) (k : Mark) : (sh.writePAll p v k).cntSys = sh.cntSys := rfl
@[simp] theorem Sheaf.writePAll_wait (sh : Sheaf) (p : Nat) (v : Word) (k : Mark) : (sh.writePAll p v k).wait = sh.wait := rfl
@[simp] theorem Sheaf.writePAll_arr (sh : Sheaf) (p : Nat) (v : Word) (k : Mark) : (sh.writePAll p v k).arr = sh.arr := rfl
@[simp] theorem Sheaf.writePAll_ret (sh : Sheaf) (p : Nat) (v : Word) (k : Mark) : (sh.writePAll p v k).ret = sh.ret := rfl
@[simp] theorem Sheaf.writePAll_fused (sh : Sheaf) (p : Nat) (v : Word) (k : Mark) : (sh.writePAll p v k).fused = sh.fused := rfl
@[simp] theorem Sheaf.writePAll_arrival (sh : Sheaf) (p : Nat) (v : Word) (k : Mark) : (sh.writePAll p v k).arrival = sh.arrival := rfl
@[simp] theorem Sheaf.writePAll_closed (sh : Sheaf) (p : Nat) (v : Word) (k : Mark) : (sh.writePAll p v k).closed = sh.closed := rfl
@[simp] theorem Sheaf.writePAll_tiles (sh : Sheaf) (p : Nat) (v : Word) (k : Mark) : (sh.writePAll p v k).tiles = sh.tiles := rfl
@[simp] theorem Sheaf.writePAll_mops (sh : Sheaf) (p : Nat) (v : Word) (k : Mark) : (sh.writePAll p v k).mops = sh.mops := rfl
@[simp] theorem Sheaf.writePAll_bWrites (sh : Sheaf) (p : Nat) (v : Word) (k : Mark) : (sh.writePAll p v k).bWrites = sh.bWrites := rfl
@[simp] theorem Sheaf.writePAll_aWrites (sh : Sheaf) (p : Nat) (v : Word) (k : Mark) : (sh.writePAll p v k).aWrites = sh.aWrites := rfl
@[simp] theorem Sheaf.writePAll_lease (sh : Sheaf) (p : Nat) (v : Word) (k : Mark) : (sh.writePAll p v k).lease = sh.lease := rfl
@[simp] theorem Sheaf.writePAll_starve (sh : Sheaf) (p : Nat) (v : Word) (k : Mark) : (sh.writePAll p v k).starve = sh.starve := rfl
@[simp] theorem Sheaf.writePAll_age (sh : Sheaf) (p : Nat) (v : Word) (k : Mark) : (sh.writePAll p v k).age = sh.age := rfl

/-! ### Sheaf.writeD -/

@[simp] theorem Sheaf.writeD_tid (sh : Sheaf) (d : Nat) (v : BitVec 64) (k : Mark) : (sh.writeD d v k).tid = sh.tid := rfl
@[simp] theorem Sheaf.writeD_core (sh : Sheaf) (d : Nat) (v : BitVec 64) (k : Mark) : (sh.writeD d v k).core = sh.core := rfl
@[simp] theorem Sheaf.writeD_slotNo (sh : Sheaf) (d : Nat) (v : BitVec 64) (k : Mark) : (sh.writeD d v k).slotNo = sh.slotNo := rfl
@[simp] theorem Sheaf.writeD_idx (sh : Sheaf) (d : Nat) (v : BitVec 64) (k : Mark) : (sh.writeD d v k).idx = sh.idx := rfl
@[simp] theorem Sheaf.writeD_role (sh : Sheaf) (d : Nat) (v : BitVec 64) (k : Mark) : (sh.writeD d v k).role = sh.role := rfl
@[simp] theorem Sheaf.writeD_state (sh : Sheaf) (d : Nat) (v : BitVec 64) (k : Mark) : (sh.writeD d v k).state = sh.state := rfl
@[simp] theorem Sheaf.writeD_resumeAs (sh : Sheaf) (d : Nat) (v : BitVec 64) (k : Mark) : (sh.writeD d v k).resumeAs = sh.resumeAs := rfl
@[simp] theorem Sheaf.writeD_pcv (sh : Sheaf) (d : Nat) (v : BitVec 64) (k : Mark) : (sh.writeD d v k).pcv = sh.pcv := rfl
@[simp] theorem Sheaf.writeD_exited (sh : Sheaf) (d : Nat) (v : BitVec 64) (k : Mark) : (sh.writeD d v k).exited = sh.exited := rfl
@[simp] theorem Sheaf.writeD_faulted (sh : Sheaf) (d : Nat) (v : BitVec 64) (k : Mark) : (sh.writeD d v k).faulted = sh.faulted := rfl
@[simp] theorem Sheaf.writeD_fairq (sh : Sheaf) (d : Nat) (v : BitVec 64) (k : Mark) : (sh.writeD d v k).fairq = sh.fairq := rfl
@[simp] theorem Sheaf.writeD_quantum (sh : Sheaf) (d : Nat) (v : BitVec 64) (k : Mark) : (sh.writeD d v k).quantum = sh.quantum := rfl
@[simp] theorem Sheaf.writeD_round (sh : Sheaf) (d : Nat) (v : BitVec 64) (k : Mark) : (sh.writeD d v k).round = sh.round := rfl
@[simp] theorem Sheaf.writeD_hints (sh : Sheaf) (d : Nat) (v : BitVec 64) (k : Mark) : (sh.writeD d v k).hints = sh.hints := rfl
@[simp] theorem Sheaf.writeD_second (sh : Sheaf) (d : Nat) (v : BitVec 64) (k : Mark) : (sh.writeD d v k).second = sh.second := rfl
@[simp] theorem Sheaf.writeD_vregs (sh : Sheaf) (d : Nat) (v : BitVec 64) (k : Mark) : (sh.writeD d v k).vregs = sh.vregs := rfl
@[simp] theorem Sheaf.writeD_vstack (sh : Sheaf) (d : Nat) (v : BitVec 64) (k : Mark) : (sh.writeD d v k).vstack = sh.vstack := rfl
@[simp] theorem Sheaf.writeD_wbase (sh : Sheaf) (d : Nat) (v : BitVec 64) (k : Mark) : (sh.writeD d v k).wbase = sh.wbase := rfl
@[simp] theorem Sheaf.writeD_wrbase (sh : Sheaf) (d : Nat) (v : BitVec 64) (k : Mark) : (sh.writeD d v k).wrbase = sh.wrbase := rfl
@[simp] theorem Sheaf.writeD_aregs (sh : Sheaf) (d : Nat) (v : BitVec 64) (k : Mark) : (sh.writeD d v k).aregs = sh.aregs := rfl
@[simp] theorem Sheaf.writeD_uregs (sh : Sheaf) (d : Nat) (v : BitVec 64) (k : Mark) : (sh.writeD d v k).uregs = sh.uregs := rfl
@[simp] theorem Sheaf.writeD_preds (sh : Sheaf) (d : Nat) (v : BitVec 64) (k : Mark) : (sh.writeD d v k).preds = sh.preds := rfl
@[simp] theorem Sheaf.writeD_descs (sh : Sheaf) (d : Nat) (v : BitVec 64) (k : Mark) : (sh.writeD d v k).descs = sh.descs.put d { val := v, mark := k } := rfl
@[simp] theorem Sheaf.writeD_loop0 (sh : Sheaf) (d : Nat) (v : BitVec 64) (k : Mark) : (sh.writeD d v k).loop0 = sh.loop0 := rfl
@[simp] theorem Sheaf.writeD_loop1 (sh : Sheaf) (d : Nat) (v : BitVec 64) (k : Mark) : (sh.writeD d v k).loop1 = sh.loop1 := rfl
@[simp] theorem Sheaf.writeD_status (sh : Sheaf) (d : Nat) (v : BitVec 64) (k : Mark) : (sh.writeD d v k).status = sh.status := rfl
@[simp] theorem Sheaf.writeD_mode (sh : Sheaf) (d : Nat) (v : BitVec 64) (k : Mark) : (sh.writeD d v k).mode = sh.mode := rfl
@[simp] theorem Sheaf.writeD_lstk (sh : Sheaf) (d : Nat) (v : BitVec 64) (k : Mark) : (sh.writeD d v k).lstk = sh.lstk := rfl
@[simp] theorem Sheaf.writeD_reprem (sh : Sheaf) (d : Nat) (v : BitVec 64) (k : Mark) : (sh.writeD d v k).reprem = sh.reprem := rfl
@[simp] theorem Sheaf.writeD_began (sh : Sheaf) (d : Nat) (v : BitVec 64) (k : Mark) : (sh.writeD d v k).began = sh.began := rfl
@[simp] theorem Sheaf.writeD_moved (sh : Sheaf) (d : Nat) (v : BitVec 64) (k : Mark) : (sh.writeD d v k).moved = sh.moved := rfl
@[simp] theorem Sheaf.writeD_handler (sh : Sheaf) (d : Nat) (v : BitVec 64) (k : Mark) : (sh.writeD d v k).handler = sh.handler := rfl
@[simp] theorem Sheaf.writeD_pend (sh : Sheaf) (d : Nat) (v : BitVec 64) (k : Mark) : (sh.writeD d v k).pend = sh.pend := rfl
@[simp] theorem Sheaf.writeD_buf (sh : Sheaf) (d : Nat) (v : BitVec 64) (k : Mark) : (sh.writeD d v k).buf = sh.buf := rfl
@[simp] theorem Sheaf.writeD_cntSlice (sh : Sheaf) (d : Nat) (v : BitVec 64) (k : Mark) : (sh.writeD d v k).cntSlice = sh.cntSlice := rfl
@[simp] theorem Sheaf.writeD_cntPart (sh : Sheaf) (d : Nat) (v : BitVec 64) (k : Mark) : (sh.writeD d v k).cntPart = sh.cntPart := rfl
@[simp] theorem Sheaf.writeD_cntSys (sh : Sheaf) (d : Nat) (v : BitVec 64) (k : Mark) : (sh.writeD d v k).cntSys = sh.cntSys := rfl
@[simp] theorem Sheaf.writeD_wait (sh : Sheaf) (d : Nat) (v : BitVec 64) (k : Mark) : (sh.writeD d v k).wait = sh.wait := rfl
@[simp] theorem Sheaf.writeD_arr (sh : Sheaf) (d : Nat) (v : BitVec 64) (k : Mark) : (sh.writeD d v k).arr = sh.arr := rfl
@[simp] theorem Sheaf.writeD_ret (sh : Sheaf) (d : Nat) (v : BitVec 64) (k : Mark) : (sh.writeD d v k).ret = sh.ret := rfl
@[simp] theorem Sheaf.writeD_fused (sh : Sheaf) (d : Nat) (v : BitVec 64) (k : Mark) : (sh.writeD d v k).fused = sh.fused := rfl
@[simp] theorem Sheaf.writeD_arrival (sh : Sheaf) (d : Nat) (v : BitVec 64) (k : Mark) : (sh.writeD d v k).arrival = sh.arrival := rfl
@[simp] theorem Sheaf.writeD_closed (sh : Sheaf) (d : Nat) (v : BitVec 64) (k : Mark) : (sh.writeD d v k).closed = sh.closed := rfl
@[simp] theorem Sheaf.writeD_tiles (sh : Sheaf) (d : Nat) (v : BitVec 64) (k : Mark) : (sh.writeD d v k).tiles = sh.tiles := rfl
@[simp] theorem Sheaf.writeD_mops (sh : Sheaf) (d : Nat) (v : BitVec 64) (k : Mark) : (sh.writeD d v k).mops = sh.mops := rfl
@[simp] theorem Sheaf.writeD_bWrites (sh : Sheaf) (d : Nat) (v : BitVec 64) (k : Mark) : (sh.writeD d v k).bWrites = sh.bWrites := rfl
@[simp] theorem Sheaf.writeD_aWrites (sh : Sheaf) (d : Nat) (v : BitVec 64) (k : Mark) : (sh.writeD d v k).aWrites = sh.aWrites := rfl
@[simp] theorem Sheaf.writeD_lease (sh : Sheaf) (d : Nat) (v : BitVec 64) (k : Mark) : (sh.writeD d v k).lease = sh.lease := rfl
@[simp] theorem Sheaf.writeD_starve (sh : Sheaf) (d : Nat) (v : BitVec 64) (k : Mark) : (sh.writeD d v k).starve = sh.starve := rfl
@[simp] theorem Sheaf.writeD_age (sh : Sheaf) (d : Nat) (v : BitVec 64) (k : Mark) : (sh.writeD d v k).age = sh.age := rfl

/-! ### Sheaf.writeTile -/

@[simp] theorem Sheaf.writeTile_tid (sh : Sheaf) (m : Nat) (x : Tile) : (sh.writeTile m x).tid = sh.tid := rfl
@[simp] theorem Sheaf.writeTile_core (sh : Sheaf) (m : Nat) (x : Tile) : (sh.writeTile m x).core = sh.core := rfl
@[simp] theorem Sheaf.writeTile_slotNo (sh : Sheaf) (m : Nat) (x : Tile) : (sh.writeTile m x).slotNo = sh.slotNo := rfl
@[simp] theorem Sheaf.writeTile_idx (sh : Sheaf) (m : Nat) (x : Tile) : (sh.writeTile m x).idx = sh.idx := rfl
@[simp] theorem Sheaf.writeTile_role (sh : Sheaf) (m : Nat) (x : Tile) : (sh.writeTile m x).role = sh.role := rfl
@[simp] theorem Sheaf.writeTile_state (sh : Sheaf) (m : Nat) (x : Tile) : (sh.writeTile m x).state = sh.state := rfl
@[simp] theorem Sheaf.writeTile_resumeAs (sh : Sheaf) (m : Nat) (x : Tile) : (sh.writeTile m x).resumeAs = sh.resumeAs := rfl
@[simp] theorem Sheaf.writeTile_pcv (sh : Sheaf) (m : Nat) (x : Tile) : (sh.writeTile m x).pcv = sh.pcv := rfl
@[simp] theorem Sheaf.writeTile_exited (sh : Sheaf) (m : Nat) (x : Tile) : (sh.writeTile m x).exited = sh.exited := rfl
@[simp] theorem Sheaf.writeTile_faulted (sh : Sheaf) (m : Nat) (x : Tile) : (sh.writeTile m x).faulted = sh.faulted := rfl
@[simp] theorem Sheaf.writeTile_fairq (sh : Sheaf) (m : Nat) (x : Tile) : (sh.writeTile m x).fairq = sh.fairq := rfl
@[simp] theorem Sheaf.writeTile_quantum (sh : Sheaf) (m : Nat) (x : Tile) : (sh.writeTile m x).quantum = sh.quantum := rfl
@[simp] theorem Sheaf.writeTile_round (sh : Sheaf) (m : Nat) (x : Tile) : (sh.writeTile m x).round = sh.round := rfl
@[simp] theorem Sheaf.writeTile_hints (sh : Sheaf) (m : Nat) (x : Tile) : (sh.writeTile m x).hints = sh.hints := rfl
@[simp] theorem Sheaf.writeTile_second (sh : Sheaf) (m : Nat) (x : Tile) : (sh.writeTile m x).second = sh.second := rfl
@[simp] theorem Sheaf.writeTile_vregs (sh : Sheaf) (m : Nat) (x : Tile) : (sh.writeTile m x).vregs = sh.vregs := rfl
@[simp] theorem Sheaf.writeTile_vstack (sh : Sheaf) (m : Nat) (x : Tile) : (sh.writeTile m x).vstack = sh.vstack := rfl
@[simp] theorem Sheaf.writeTile_wbase (sh : Sheaf) (m : Nat) (x : Tile) : (sh.writeTile m x).wbase = sh.wbase := rfl
@[simp] theorem Sheaf.writeTile_wrbase (sh : Sheaf) (m : Nat) (x : Tile) : (sh.writeTile m x).wrbase = sh.wrbase := rfl
@[simp] theorem Sheaf.writeTile_aregs (sh : Sheaf) (m : Nat) (x : Tile) : (sh.writeTile m x).aregs = sh.aregs := rfl
@[simp] theorem Sheaf.writeTile_uregs (sh : Sheaf) (m : Nat) (x : Tile) : (sh.writeTile m x).uregs = sh.uregs := rfl
@[simp] theorem Sheaf.writeTile_preds (sh : Sheaf) (m : Nat) (x : Tile) : (sh.writeTile m x).preds = sh.preds := rfl
@[simp] theorem Sheaf.writeTile_descs (sh : Sheaf) (m : Nat) (x : Tile) : (sh.writeTile m x).descs = sh.descs := rfl
@[simp] theorem Sheaf.writeTile_loop0 (sh : Sheaf) (m : Nat) (x : Tile) : (sh.writeTile m x).loop0 = sh.loop0 := rfl
@[simp] theorem Sheaf.writeTile_loop1 (sh : Sheaf) (m : Nat) (x : Tile) : (sh.writeTile m x).loop1 = sh.loop1 := rfl
@[simp] theorem Sheaf.writeTile_status (sh : Sheaf) (m : Nat) (x : Tile) : (sh.writeTile m x).status = sh.status := rfl
@[simp] theorem Sheaf.writeTile_mode (sh : Sheaf) (m : Nat) (x : Tile) : (sh.writeTile m x).mode = sh.mode := rfl
@[simp] theorem Sheaf.writeTile_lstk (sh : Sheaf) (m : Nat) (x : Tile) : (sh.writeTile m x).lstk = sh.lstk := rfl
@[simp] theorem Sheaf.writeTile_reprem (sh : Sheaf) (m : Nat) (x : Tile) : (sh.writeTile m x).reprem = sh.reprem := rfl
@[simp] theorem Sheaf.writeTile_began (sh : Sheaf) (m : Nat) (x : Tile) : (sh.writeTile m x).began = sh.began := rfl
@[simp] theorem Sheaf.writeTile_moved (sh : Sheaf) (m : Nat) (x : Tile) : (sh.writeTile m x).moved = sh.moved := rfl
@[simp] theorem Sheaf.writeTile_handler (sh : Sheaf) (m : Nat) (x : Tile) : (sh.writeTile m x).handler = sh.handler := rfl
@[simp] theorem Sheaf.writeTile_pend (sh : Sheaf) (m : Nat) (x : Tile) : (sh.writeTile m x).pend = sh.pend := rfl
@[simp] theorem Sheaf.writeTile_buf (sh : Sheaf) (m : Nat) (x : Tile) : (sh.writeTile m x).buf = sh.buf := rfl
@[simp] theorem Sheaf.writeTile_cntSlice (sh : Sheaf) (m : Nat) (x : Tile) : (sh.writeTile m x).cntSlice = sh.cntSlice := rfl
@[simp] theorem Sheaf.writeTile_cntPart (sh : Sheaf) (m : Nat) (x : Tile) : (sh.writeTile m x).cntPart = sh.cntPart := rfl
@[simp] theorem Sheaf.writeTile_cntSys (sh : Sheaf) (m : Nat) (x : Tile) : (sh.writeTile m x).cntSys = sh.cntSys := rfl
@[simp] theorem Sheaf.writeTile_wait (sh : Sheaf) (m : Nat) (x : Tile) : (sh.writeTile m x).wait = sh.wait := rfl
@[simp] theorem Sheaf.writeTile_arr (sh : Sheaf) (m : Nat) (x : Tile) : (sh.writeTile m x).arr = sh.arr := rfl
@[simp] theorem Sheaf.writeTile_ret (sh : Sheaf) (m : Nat) (x : Tile) : (sh.writeTile m x).ret = sh.ret := rfl
@[simp] theorem Sheaf.writeTile_fused (sh : Sheaf) (m : Nat) (x : Tile) : (sh.writeTile m x).fused = sh.fused := rfl
@[simp] theorem Sheaf.writeTile_arrival (sh : Sheaf) (m : Nat) (x : Tile) : (sh.writeTile m x).arrival = sh.arrival := rfl
@[simp] theorem Sheaf.writeTile_closed (sh : Sheaf) (m : Nat) (x : Tile) : (sh.writeTile m x).closed = sh.closed := rfl
@[simp] theorem Sheaf.writeTile_tiles (sh : Sheaf) (m : Nat) (x : Tile) : (sh.writeTile m x).tiles = sh.tiles.put m x := rfl
@[simp] theorem Sheaf.writeTile_mops (sh : Sheaf) (m : Nat) (x : Tile) : (sh.writeTile m x).mops = sh.mops := rfl
@[simp] theorem Sheaf.writeTile_bWrites (sh : Sheaf) (m : Nat) (x : Tile) : (sh.writeTile m x).bWrites = sh.bWrites := rfl
@[simp] theorem Sheaf.writeTile_aWrites (sh : Sheaf) (m : Nat) (x : Tile) : (sh.writeTile m x).aWrites = sh.aWrites := rfl
@[simp] theorem Sheaf.writeTile_lease (sh : Sheaf) (m : Nat) (x : Tile) : (sh.writeTile m x).lease = sh.lease := rfl
@[simp] theorem Sheaf.writeTile_starve (sh : Sheaf) (m : Nat) (x : Tile) : (sh.writeTile m x).starve = sh.starve := rfl
@[simp] theorem Sheaf.writeTile_age (sh : Sheaf) (m : Nat) (x : Tile) : (sh.writeTile m x).age = sh.age := rfl

/-! ### Sheaf.raise -/

@[simp] theorem Sheaf.raise_tid (sh : Sheaf) (f : Word) : (sh.raise f).tid = sh.tid := rfl
@[simp] theorem Sheaf.raise_core (sh : Sheaf) (f : Word) : (sh.raise f).core = sh.core := rfl
@[simp] theorem Sheaf.raise_slotNo (sh : Sheaf) (f : Word) : (sh.raise f).slotNo = sh.slotNo := rfl
@[simp] theorem Sheaf.raise_idx (sh : Sheaf) (f : Word) : (sh.raise f).idx = sh.idx := rfl
@[simp] theorem Sheaf.raise_role (sh : Sheaf) (f : Word) : (sh.raise f).role = sh.role := rfl
@[simp] theorem Sheaf.raise_state (sh : Sheaf) (f : Word) : (sh.raise f).state = sh.state := rfl
@[simp] theorem Sheaf.raise_resumeAs (sh : Sheaf) (f : Word) : (sh.raise f).resumeAs = sh.resumeAs := rfl
@[simp] theorem Sheaf.raise_pcv (sh : Sheaf) (f : Word) : (sh.raise f).pcv = sh.pcv := rfl
@[simp] theorem Sheaf.raise_exited (sh : Sheaf) (f : Word) : (sh.raise f).exited = sh.exited := rfl
@[simp] theorem Sheaf.raise_faulted (sh : Sheaf) (f : Word) : (sh.raise f).faulted = sh.faulted := rfl
@[simp] theorem Sheaf.raise_fairq (sh : Sheaf) (f : Word) : (sh.raise f).fairq = sh.fairq := rfl
@[simp] theorem Sheaf.raise_quantum (sh : Sheaf) (f : Word) : (sh.raise f).quantum = sh.quantum := rfl
@[simp] theorem Sheaf.raise_round (sh : Sheaf) (f : Word) : (sh.raise f).round = sh.round := rfl
@[simp] theorem Sheaf.raise_hints (sh : Sheaf) (f : Word) : (sh.raise f).hints = sh.hints := rfl
@[simp] theorem Sheaf.raise_second (sh : Sheaf) (f : Word) : (sh.raise f).second = sh.second := rfl
@[simp] theorem Sheaf.raise_vregs (sh : Sheaf) (f : Word) : (sh.raise f).vregs = sh.vregs := rfl
@[simp] theorem Sheaf.raise_vstack (sh : Sheaf) (f : Word) : (sh.raise f).vstack = sh.vstack := rfl
@[simp] theorem Sheaf.raise_wbase (sh : Sheaf) (f : Word) : (sh.raise f).wbase = sh.wbase := rfl
@[simp] theorem Sheaf.raise_wrbase (sh : Sheaf) (f : Word) : (sh.raise f).wrbase = sh.wrbase := rfl
@[simp] theorem Sheaf.raise_aregs (sh : Sheaf) (f : Word) : (sh.raise f).aregs = sh.aregs := rfl
@[simp] theorem Sheaf.raise_uregs (sh : Sheaf) (f : Word) : (sh.raise f).uregs = sh.uregs := rfl
@[simp] theorem Sheaf.raise_preds (sh : Sheaf) (f : Word) : (sh.raise f).preds = sh.preds := rfl
@[simp] theorem Sheaf.raise_descs (sh : Sheaf) (f : Word) : (sh.raise f).descs = sh.descs := rfl
@[simp] theorem Sheaf.raise_loop0 (sh : Sheaf) (f : Word) : (sh.raise f).loop0 = sh.loop0 := rfl
@[simp] theorem Sheaf.raise_loop1 (sh : Sheaf) (f : Word) : (sh.raise f).loop1 = sh.loop1 := rfl
@[simp] theorem Sheaf.raise_status (sh : Sheaf) (f : Word) : (sh.raise f).status = sh.status ||| f := rfl
@[simp] theorem Sheaf.raise_mode (sh : Sheaf) (f : Word) : (sh.raise f).mode = sh.mode := rfl
@[simp] theorem Sheaf.raise_lstk (sh : Sheaf) (f : Word) : (sh.raise f).lstk = sh.lstk := rfl
@[simp] theorem Sheaf.raise_reprem (sh : Sheaf) (f : Word) : (sh.raise f).reprem = sh.reprem := rfl
@[simp] theorem Sheaf.raise_began (sh : Sheaf) (f : Word) : (sh.raise f).began = sh.began := rfl
@[simp] theorem Sheaf.raise_moved (sh : Sheaf) (f : Word) : (sh.raise f).moved = sh.moved := rfl
@[simp] theorem Sheaf.raise_handler (sh : Sheaf) (f : Word) : (sh.raise f).handler = sh.handler := rfl
@[simp] theorem Sheaf.raise_pend (sh : Sheaf) (f : Word) : (sh.raise f).pend = sh.pend := rfl
@[simp] theorem Sheaf.raise_buf (sh : Sheaf) (f : Word) : (sh.raise f).buf = sh.buf := rfl
@[simp] theorem Sheaf.raise_cntSlice (sh : Sheaf) (f : Word) : (sh.raise f).cntSlice = sh.cntSlice := rfl
@[simp] theorem Sheaf.raise_cntPart (sh : Sheaf) (f : Word) : (sh.raise f).cntPart = sh.cntPart := rfl
@[simp] theorem Sheaf.raise_cntSys (sh : Sheaf) (f : Word) : (sh.raise f).cntSys = sh.cntSys := rfl
@[simp] theorem Sheaf.raise_wait (sh : Sheaf) (f : Word) : (sh.raise f).wait = sh.wait := rfl
@[simp] theorem Sheaf.raise_arr (sh : Sheaf) (f : Word) : (sh.raise f).arr = sh.arr := rfl
@[simp] theorem Sheaf.raise_ret (sh : Sheaf) (f : Word) : (sh.raise f).ret = sh.ret := rfl
@[simp] theorem Sheaf.raise_fused (sh : Sheaf) (f : Word) : (sh.raise f).fused = sh.fused := rfl
@[simp] theorem Sheaf.raise_arrival (sh : Sheaf) (f : Word) : (sh.raise f).arrival = sh.arrival := rfl
@[simp] theorem Sheaf.raise_closed (sh : Sheaf) (f : Word) : (sh.raise f).closed = sh.closed := rfl
@[simp] theorem Sheaf.raise_tiles (sh : Sheaf) (f : Word) : (sh.raise f).tiles = sh.tiles := rfl
@[simp] theorem Sheaf.raise_mops (sh : Sheaf) (f : Word) : (sh.raise f).mops = sh.mops := rfl
@[simp] theorem Sheaf.raise_bWrites (sh : Sheaf) (f : Word) : (sh.raise f).bWrites = sh.bWrites := rfl
@[simp] theorem Sheaf.raise_aWrites (sh : Sheaf) (f : Word) : (sh.raise f).aWrites = sh.aWrites := rfl
@[simp] theorem Sheaf.raise_lease (sh : Sheaf) (f : Word) : (sh.raise f).lease = sh.lease := rfl
@[simp] theorem Sheaf.raise_starve (sh : Sheaf) (f : Word) : (sh.raise f).starve = sh.starve := rfl
@[simp] theorem Sheaf.raise_age (sh : Sheaf) (f : Word) : (sh.raise f).age = sh.age := rfl

/-! ### Sheaf.addPending -/

@[simp] theorem Sheaf.addPending_tid (sh : Sheaf) (p : Pending) : (sh.addPending p).tid = sh.tid := rfl
@[simp] theorem Sheaf.addPending_core (sh : Sheaf) (p : Pending) : (sh.addPending p).core = sh.core := rfl
@[simp] theorem Sheaf.addPending_slotNo (sh : Sheaf) (p : Pending) : (sh.addPending p).slotNo = sh.slotNo := rfl
@[simp] theorem Sheaf.addPending_idx (sh : Sheaf) (p : Pending) : (sh.addPending p).idx = sh.idx := rfl
@[simp] theorem Sheaf.addPending_role (sh : Sheaf) (p : Pending) : (sh.addPending p).role = sh.role := rfl
@[simp] theorem Sheaf.addPending_state (sh : Sheaf) (p : Pending) : (sh.addPending p).state = sh.state := rfl
@[simp] theorem Sheaf.addPending_resumeAs (sh : Sheaf) (p : Pending) : (sh.addPending p).resumeAs = sh.resumeAs := rfl
@[simp] theorem Sheaf.addPending_pcv (sh : Sheaf) (p : Pending) : (sh.addPending p).pcv = sh.pcv := rfl
@[simp] theorem Sheaf.addPending_exited (sh : Sheaf) (p : Pending) : (sh.addPending p).exited = sh.exited := rfl
@[simp] theorem Sheaf.addPending_faulted (sh : Sheaf) (p : Pending) : (sh.addPending p).faulted = sh.faulted := rfl
@[simp] theorem Sheaf.addPending_fairq (sh : Sheaf) (p : Pending) : (sh.addPending p).fairq = sh.fairq := rfl
@[simp] theorem Sheaf.addPending_quantum (sh : Sheaf) (p : Pending) : (sh.addPending p).quantum = sh.quantum := rfl
@[simp] theorem Sheaf.addPending_round (sh : Sheaf) (p : Pending) : (sh.addPending p).round = sh.round := rfl
@[simp] theorem Sheaf.addPending_hints (sh : Sheaf) (p : Pending) : (sh.addPending p).hints = sh.hints := rfl
@[simp] theorem Sheaf.addPending_second (sh : Sheaf) (p : Pending) : (sh.addPending p).second = sh.second := rfl
@[simp] theorem Sheaf.addPending_vregs (sh : Sheaf) (p : Pending) : (sh.addPending p).vregs = sh.vregs := rfl
@[simp] theorem Sheaf.addPending_vstack (sh : Sheaf) (p : Pending) : (sh.addPending p).vstack = sh.vstack := rfl
@[simp] theorem Sheaf.addPending_wbase (sh : Sheaf) (p : Pending) : (sh.addPending p).wbase = sh.wbase := rfl
@[simp] theorem Sheaf.addPending_wrbase (sh : Sheaf) (p : Pending) : (sh.addPending p).wrbase = sh.wrbase := rfl
@[simp] theorem Sheaf.addPending_aregs (sh : Sheaf) (p : Pending) : (sh.addPending p).aregs = sh.aregs := rfl
@[simp] theorem Sheaf.addPending_uregs (sh : Sheaf) (p : Pending) : (sh.addPending p).uregs = sh.uregs := rfl
@[simp] theorem Sheaf.addPending_preds (sh : Sheaf) (p : Pending) : (sh.addPending p).preds = sh.preds := rfl
@[simp] theorem Sheaf.addPending_descs (sh : Sheaf) (p : Pending) : (sh.addPending p).descs = sh.descs := rfl
@[simp] theorem Sheaf.addPending_loop0 (sh : Sheaf) (p : Pending) : (sh.addPending p).loop0 = sh.loop0 := rfl
@[simp] theorem Sheaf.addPending_loop1 (sh : Sheaf) (p : Pending) : (sh.addPending p).loop1 = sh.loop1 := rfl
@[simp] theorem Sheaf.addPending_status (sh : Sheaf) (p : Pending) : (sh.addPending p).status = sh.status := rfl
@[simp] theorem Sheaf.addPending_mode (sh : Sheaf) (p : Pending) : (sh.addPending p).mode = sh.mode := rfl
@[simp] theorem Sheaf.addPending_lstk (sh : Sheaf) (p : Pending) : (sh.addPending p).lstk = sh.lstk := rfl
@[simp] theorem Sheaf.addPending_reprem (sh : Sheaf) (p : Pending) : (sh.addPending p).reprem = sh.reprem := rfl
@[simp] theorem Sheaf.addPending_began (sh : Sheaf) (p : Pending) : (sh.addPending p).began = sh.began := rfl
@[simp] theorem Sheaf.addPending_moved (sh : Sheaf) (p : Pending) : (sh.addPending p).moved = sh.moved := rfl
@[simp] theorem Sheaf.addPending_handler (sh : Sheaf) (p : Pending) : (sh.addPending p).handler = sh.handler := rfl
@[simp] theorem Sheaf.addPending_pend (sh : Sheaf) (p : Pending) : (sh.addPending p).pend = sh.pend ++ [p] := rfl
@[simp] theorem Sheaf.addPending_buf (sh : Sheaf) (p : Pending) : (sh.addPending p).buf = sh.buf := rfl
@[simp] theorem Sheaf.addPending_cntSlice (sh : Sheaf) (p : Pending) : (sh.addPending p).cntSlice = sh.cntSlice := rfl
@[simp] theorem Sheaf.addPending_cntPart (sh : Sheaf) (p : Pending) : (sh.addPending p).cntPart = sh.cntPart := rfl
@[simp] theorem Sheaf.addPending_cntSys (sh : Sheaf) (p : Pending) : (sh.addPending p).cntSys = sh.cntSys := rfl
@[simp] theorem Sheaf.addPending_wait (sh : Sheaf) (p : Pending) : (sh.addPending p).wait = sh.wait := rfl
@[simp] theorem Sheaf.addPending_arr (sh : Sheaf) (p : Pending) : (sh.addPending p).arr = sh.arr := rfl
@[simp] theorem Sheaf.addPending_ret (sh : Sheaf) (p : Pending) : (sh.addPending p).ret = sh.ret := rfl
@[simp] theorem Sheaf.addPending_fused (sh : Sheaf) (p : Pending) : (sh.addPending p).fused = sh.fused := rfl
@[simp] theorem Sheaf.addPending_arrival (sh : Sheaf) (p : Pending) : (sh.addPending p).arrival = sh.arrival := rfl
@[simp] theorem Sheaf.addPending_closed (sh : Sheaf) (p : Pending) : (sh.addPending p).closed = sh.closed := rfl
@[simp] theorem Sheaf.addPending_tiles (sh : Sheaf) (p : Pending) : (sh.addPending p).tiles = sh.tiles := rfl
@[simp] theorem Sheaf.addPending_mops (sh : Sheaf) (p : Pending) : (sh.addPending p).mops = sh.mops := rfl
@[simp] theorem Sheaf.addPending_bWrites (sh : Sheaf) (p : Pending) : (sh.addPending p).bWrites = sh.bWrites := rfl
@[simp] theorem Sheaf.addPending_aWrites (sh : Sheaf) (p : Pending) : (sh.addPending p).aWrites = sh.aWrites := rfl
@[simp] theorem Sheaf.addPending_lease (sh : Sheaf) (p : Pending) : (sh.addPending p).lease = sh.lease := rfl
@[simp] theorem Sheaf.addPending_starve (sh : Sheaf) (p : Pending) : (sh.addPending p).starve = sh.starve := rfl
@[simp] theorem Sheaf.addPending_age (sh : Sheaf) (p : Pending) : (sh.addPending p).age = sh.age := rfl

end Sys2Proof.Machine
end

