-- ==== Sys2Proof/Laws/Issue.lean ====
section
/-!
SUPPORT. What the issue of an instruction does, once and for all: where nothing is pending, it is the effect of its body, the
advance of its lanes, and the end of the waits that this ends.
-/
namespace Sys2Proof.Machine

@[simp] theorem State.setSheaf_sheaf? (s : State) (x : Nat) (sh : Sheaf) : (s.setSheaf x sh).sheaf? x = some sh := by
  simp [State.setSheaf, State.sheaf?]

theorem State.setSheaf_sheaf?_ne (s : State) {x y : Nat} (sh : Sheaf) (h : y ≠ x) : (s.setSheaf x sh).sheaf? y = s.sheaf? y := by
  simp [State.setSheaf, State.sheaf?, Map.find?_put_ne _ _ h]

@[simp] theorem State.setSheaf_setSheaf (s : State) (x : Nat) (a b : Sheaf) : (s.setSheaf x a).setSheaf x b = s.setSheaf x b := by
  simp [State.setSheaf]

@[simp] theorem State.modSheaf_setSheaf (s : State) (x : Nat) (a : Sheaf) (f : Sheaf → Sheaf) :
    (s.setSheaf x a).modSheaf x f = s.setSheaf x (f a) := by
  simp [State.modSheaf]

@[simp] theorem Sheaf.begun_live (sh : Sheaf) : sh.begun.live = sh.live := rfl
@[simp] theorem Sheaf.begun_acting (sh : Sheaf) (g n : Nat) (m : Mask) : sh.begun.acting g n m = sh.acting g n m := rfl
@[simp] theorem Sheaf.begun_role (sh : Sheaf) : sh.begun.role = sh.role := rfl
@[simp] theorem Sheaf.begun_mode (sh : Sheaf) : sh.begun.mode = sh.mode := rfl

/-! The fields of the slot as the instruction finds it. -/

@[simp] theorem State.here_sid (s : State) (sh : Sheaf) (g n : Nat) : (s.here sh g n).sid = s.slot.sid := by simp only [State.here]
@[simp] theorem State.here_addr (s : State) (sh : Sheaf) (g n : Nat) : (s.here sh g n).addr = s.slot.addr := by simp only [State.here]
@[simp] theorem State.here_group (s : State) (sh : Sheaf) (g n : Nat) : (s.here sh g n).group = s.slot.group := by simp only [State.here]
@[simp] theorem State.here_lanes (s : State) (sh : Sheaf) (g n : Nat) : (s.here sh g n).lanes = s.slot.lanes := by simp only [State.here]
@[simp] theorem State.here_word (s : State) (sh : Sheaf) (g n : Nat) : (s.here sh g n).word = s.slot.word := by simp only [State.here]
@[simp] theorem State.here_rep (s : State) (sh : Sheaf) (g n : Nat) : (s.here sh g n).rep = s.slot.rep := by simp only [State.here]
@[simp] theorem State.here_ximm (s : State) (sh : Sheaf) (g n : Nat) : (s.here sh g n).ximm = s.slot.ximm := by simp only [State.here]
@[simp] theorem State.here_la (s : State) (sh : Sheaf) (g n : Nat) : (s.here sh g n).la = s.slot.la := by simp only [State.here]
@[simp] theorem State.here_index (s : State) (sh : Sheaf) (g n : Nat) : (s.here sh g n).index = 0 := by simp only [State.here]
@[simp] theorem State.here_acting (s : State) (sh : Sheaf) (g n : Nat) : (s.here sh g n).acting = sh.acting g n s.slot.lanes := by
  simp only [State.here]

/-- With no matrix operation pending no register is a hazard. -/
theorem Sheaf.regHazard?_none {sh : Sheaf} (h : sh.mops = []) (a b : List Nat) : sh.regHazard? a b = none := by
  simp [Sheaf.regHazard?, h]

/-- With nothing in flight no promise is broken. -/
theorem Sheaf.brokenPromise?_none {sh : Sheaf} (h : sh.pend = []) (k : Nat) (a : List Nat) : sh.brokenPromise? k a = none := by
  simp [Sheaf.brokenPromise?, h]

/-- With nothing in flight no result is brought in. -/
theorem State.forceResults_none {s : State} {x : Nat} {sh : Sheaf} (hs : s.sheaf? x = some sh) (h : sh.pend = []) (p : Pending → Bool) :
    s.forceResults x p = s := by
  simp [State.forceResults, hs, h, State.forEach]

/-- The prefixes are those of the slot. -/
theorem here_prefixesOk (f : Form) (s : State) (sh : Sheaf) (g n : Nat) : f.prefixesOk (s.here sh g n) = f.prefixesOk s.slot := by
  simp only [Form.prefixesOk, State.here_rep, State.here_ximm, State.here_la]

/-- What may be attached to an instruction is legal for its form. -/
theorem prefixes_ok {f : Form} {i : Instr} {s : State} (h : Prefixed i s) (hrep : s.slot.rep = none) (hx : takesXimm i = f.ximm) (hl : takesLa i = f.la) :
    f.prefixesOk s.slot = true := by
  have h1 := h.ximm
  have h2 := h.la
  rw [hx] at h1
  rw [hl] at h2
  rcases h1 with h1 | h1 <;> rcases h2 with h2 | h2 <;> simp [Form.prefixesOk, hrep, h1, h2]

/-- What one repeat ends in where its checks hold and nothing is in flight. -/
def actOf (f : Form) (op : Op) (slot : Slot) (sh : Sheaf) (s : State) : Act :=
  if slot.acting == 0 && !f.always then .next s
  else if op.writes.isEmpty then op.body slot sh s
  else (op.body slot sh s).noteWrites slot.sid (op.writes.map sh.phys)

/-- The checks of an instruction that has no prefix, in a sheaf that is ready. -/
theorem firstTrap_none {f : Form} {op : Op} {slot : Slot} {sh : Sheaf} {s : State} {k : Nat}
    (hpx : f.prefixesOk slot = true) (hp : sh.pend = []) (hm : sh.mops = [])
    (he : sh.atLoopEnd slot.addr = false) (hok : op.ok = true) (hl : op.legal sh s = true) (hrole : f.role.issues sh.role = true)
    (hw : f.wide = true → slot.lanes = sh.live ∧ (f.liveOnly = true ∨ guardUniform slot = true)) :
    firstTrap f op slot sh s k = none := by
  have h2 : (f.wide && !(slot.lanes == sh.live)) = false := by
    cases hf : f.wide
    · simp
    · simp [(hw hf).1]
  have h3 : (f.wide && !f.liveOnly && !guardUniform slot) = false := by
    cases hf : f.wide
    · simp
    · rcases (hw hf).2 with h | h <;> simp [h]
  unfold firstTrap
  simp only [hok, hl, hpx, he, Bool.false_and, Bool.or_false, Bool.not_true, hrole, h2, h3, Sheaf.regHazard?_none hm,
    Sheaf.brokenPromise?_none hp, ite_self, Bool.false_eq_true, if_false]

/-- One repeat where its checks hold and nothing is in flight. -/
theorem issueRepeat_ready {f : Form} {op : Op} {slot : Slot} {sh : Sheaf} {s : State} {k : Nat}
    (hs : s.sheaf? slot.sid = some sh) (hi : sh.issuing = true) (hp : sh.pend = []) (hm : sh.mops = [])
    (ht : firstTrap f op slot sh s k = none) :
    issueRepeat f op slot k s = actOf f op slot sh s := by
  have h1 : s.replayMatrix slot.sid sh op = s := by simp [State.replayMatrix, Sheaf.regHazard?_none hm]
  simp only [issueRepeat, hs, ht, h1, State.interlock, State.forceResults_none hs hp, hi]
  rfl

/-- What a repeat ends in does not depend on its checks. -/
theorem actOf_ok (f : Form) (op : Op) (b : Bool) (slot : Slot) (sh : Sheaf) (s : State) :
    actOf f { op with ok := b } slot sh s = actOf f op slot sh s := by
  unfold actOf; rfl

/-- The last repeat of a group ends it. -/
theorem runRepeats_one {f : Form} {g n : Nat} {op : Slot → Op} {slot : Slot} {start k : Nat} {s : State} {sh : Sheaf}
    (hs : s.sheaf? slot.sid = some sh) :
    runRepeats f g n op slot start 1 k s =
      endAct (slot.atRepeat sh g n k) start
        (issueRepeat f { op (slot.atRepeat sh g n k) with ok := (op (slot.atRepeat sh g n k)).ok && guardOk g n } (slot.atRepeat sh g n k) start s) := by
  simp only [runRepeats, hs]
  generalize issueRepeat f _ _ _ _ = a
  cases a <;> rfl

/-- A repeat of a slot that has no prefix finds the slot of the instruction. -/
theorem State.atRepeat_zero (s : State) (sh : Sheaf) (g n : Nat) : s.slot.atRepeat sh.begun g n 0 = s.here sh g n := by
  simp only [Slot.atRepeat, State.here, Sheaf.begun_acting]

/-- An instruction issues in a sheaf that is ready: its body's outcome, then the end of waits. -/
theorem issue_ready {f : Form} {g n : Nat} {op : Slot → Op} {s : State} {sh : Sheaf} (hr : Ready s sh) (hpx : f.prefixesOk s.slot = true) (hg : guardOk g n = true)
    (hrole : f.role.issues sh.role = true)
    (hw : f.wide = true → s.slot.lanes = sh.live ∧ (f.liveOnly = true ∨ guardUniform (s.here sh g n) = true))
    (hok : (op (s.here sh g n)).ok = true) (hl : (op (s.here sh g n)).legal sh.begun (s.begun sh) = true) :
    issue f g n op s =
      (endAct (s.here sh g n) (s.began sh) (actOf f (op (s.here sh g n)) (s.here sh g n) sh.begun (s.begun sh))).settle := by
  have hmod : s.modSheaf s.slot.sid (fun sh => { sh with reprem := 0, began := none }) = s.begun sh := by
    simp only [State.modSheaf, hr.there, State.begun, Sheaf.begun]
  have hthere : (s.begun sh).sheaf? s.slot.sid = some sh.begun := by simp [State.begun]
  have hle : repeatsLeft s.slot sh.reprem = 1 := by simp [repeatsLeft, hr.norep]
  have hfi : firstRepeat s.slot sh.reprem = 0 := by simp [firstRepeat, hr.norep]
  have ht := firstTrap_none (op := { op (s.here sh g n) with ok := (op (s.here sh g n)).ok && guardOk g n }) (f := f)
    (slot := s.here sh g n) (sh := sh.begun) (s := s.begun sh) (k := s.began sh)
    (by rw [here_prefixesOk]; exact hpx) hr.nopend hr.nomops (by rw [State.here_addr]; exact hr.noend)
    (by simp [hok, hg]) hl (by simpa using hrole) (by simpa using hw)
  have hit := issueRepeat_ready (slot := s.here sh g n) (sh := sh.begun) (by simpa using hthere) hr.issuing hr.nopend hr.nomops ht
  simp only [issue, hr.there, hr.norep, Option.isNone_none, if_true, hmod, hle, hfi]
  rw [runRepeats_one hthere, State.atRepeat_zero]
  exact congrArg (fun a => (endAct (s.here sh g n) (s.began sh) a).settle) (hit.trans (actOf_ok ..))

end Sys2Proof.Machine
end

