-- ==== Sys2Proof/Laws/Finish.lean ====
section
/-!
SUPPORT. What the end of an instruction does to its sheaf: the lanes advance, and nothing else that statements speak of changes.
-/
namespace Sys2Proof.Machine

/-! ## Each piece of bookkeeping leaves the sheaf less that bookkeeping -/

@[simp] theorem Sheaf.begun_still (sh : Sheaf) : sh.begun.still = sh.still := rfl
@[simp] theorem Sheaf.goOn_still (sh : Sheaf) : sh.goOn.still = sh.still := rfl
@[simp] theorem Sheaf.setPcs_still (sh : Sheaf) (m : Mask) (f : Nat → Addr) : (sh.setPcs m f).still = sh.still := rfl
@[simp] theorem Sheaf.advance_still (sh : Sheaf) (slot : Slot) (m : Mask) (f : Nat → Addr) : (sh.advance slot m f).still = sh.still := rfl

@[simp] theorem Sheaf.closeWindows_still (sh : Sheaf) : sh.closeWindows.still = sh.still := by
  have hb : ∀ p : Pending, ({ p with window := 0 } : Pending).bare = p.bare := fun _ => rfl
  simp [Sheaf.closeWindows, Sheaf.still, Function.comp_def, List.filter_map, List.filter_filter, hb]

/-- What stands in flight, windows apart, is what stood: the results already written leave the list with their windows. -/
theorem pend_passed {f : Pending → Pending} (hl : ∀ p, (f p).lanes = p.lanes)
    (hw : ∀ p, (f p).bare = p.bare) (ps : List Pending) :
    (((ps.map f).filter (fun p => p.lanes != 0 || p.window != 0)).filter (fun p => p.lanes != 0)).map Pending.bare =
    (ps.filter (fun p => p.lanes != 0)).map Pending.bare := by
  rw [List.filter_filter]
  induction ps with
  | nil => rfl
  | cons p ps ih =>
    by_cases z : p.lanes = 0#32
    · simpa [z, hl] using ih
    · have hz : (p.lanes != 0) = true := by simpa using z
      simp only [List.map_cons, List.filter_cons, hl, hz, Bool.true_or, Bool.and_self, if_true, ih]
      exact congrArg (· :: _) (hw p)

@[simp] theorem Sheaf.passWindows_still (sh : Sheaf) (k : Nat) : (sh.passWindows k).still = sh.still := by
  simp only [Sheaf.passWindows, Sheaf.still]
  rw [pend_passed (fun p => by split <;> rfl) (fun p => by split <;> rfl)]

@[simp] theorem Sheaf.startRound_still (sh : Sheaf) : sh.startRound.still = sh.still := by
  simp only [Sheaf.startRound]; split <;> rfl

@[simp] theorem Sheaf.nextTurn_still (sh : Sheaf) : sh.nextTurn.still = sh.still := by
  simp only [Sheaf.nextTurn]; split
  · exact sh.startRound_still
  · rfl

@[simp] theorem Sheaf.expireTurn_still (sh : Sheaf) : sh.expireTurn.still = sh.still := by
  simp only [Sheaf.expireTurn]; split
  · exact sh.nextTurn_still
  · rfl

@[simp] theorem Sheaf.afterIssue_still (sh : Sheaf) (m : Mask) : (sh.afterIssue m).still = sh.still := by
  simp only [Sheaf.afterIssue]; split
  · rfl
  · split
    · exact Sheaf.nextTurn_still _
    · exact Sheaf.expireTurn_still _

/-- A write of registers changes at most whether a result in part written still writes the whole of them. -/
theorem pend_overwritten (rs : List Nat) (ps : List Pending) :
    ((ps.map (fun p => if p.varying && p.partly && p.regs.any rs.contains then { p with whole := false } else p)).filter (fun p => p.lanes != 0)).map Pending.bare =
    (ps.filter (fun p => p.lanes != 0)).map Pending.bare := by
  have hl : ∀ p : Pending, (if p.varying && p.partly && p.regs.any rs.contains then { p with whole := false } else p).lanes = p.lanes := by
    intro p; split <;> rfl
  have hb : ∀ p : Pending, (if p.varying && p.partly && p.regs.any rs.contains then { p with whole := false } else p).bare = p.bare := by
    intro p
    split
    · next h =>
      have hp : p.partly = true := by simp only [Bool.and_eq_true] at h; exact h.1.2
      have hq : ({ p with whole := false } : Pending).partly = p.partly := rfl
      simp only [Pending.bare, hq, hp, Bool.not_true, Bool.and_false]
    · rfl
  simp only [List.filter_map, List.map_map, Function.comp_def, hl, hb]

@[simp] theorem Sheaf.overwritten_still (sh : Sheaf) (rs : List Nat) : (sh.overwritten rs).still = sh.still := by
  simp only [Sheaf.overwritten, Sheaf.still]
  rw [pend_overwritten]

@[simp] theorem Sheaf.noted_still (sh : Sheaf) (rs : List Nat) : (sh.noted rs).still = sh.still := by
  rw [← sh.overwritten_still rs]
  simp only [Sheaf.noted]; split <;> rfl

/-! ## None of it moves a lane -/

@[simp] theorem Sheaf.begun_pcv (sh : Sheaf) : sh.begun.pcv = sh.pcv := rfl
@[simp] theorem Sheaf.closeWindows_pcv (sh : Sheaf) : sh.closeWindows.pcv = sh.pcv := rfl
@[simp] theorem Sheaf.passWindows_pcv (sh : Sheaf) (k : Nat) : (sh.passWindows k).pcv = sh.pcv := rfl

@[simp] theorem Sheaf.startRound_pcv (sh : Sheaf) : sh.startRound.pcv = sh.pcv := by
  simp only [Sheaf.startRound]; split <;> rfl

@[simp] theorem Sheaf.nextTurn_pcv (sh : Sheaf) : sh.nextTurn.pcv = sh.pcv := by
  simp only [Sheaf.nextTurn]; split
  · exact sh.startRound_pcv
  · rfl

@[simp] theorem Sheaf.expireTurn_pcv (sh : Sheaf) : sh.expireTurn.pcv = sh.pcv := by
  simp only [Sheaf.expireTurn]; split
  · exact sh.nextTurn_pcv
  · rfl

@[simp] theorem Sheaf.afterIssue_pcv (sh : Sheaf) (m : Mask) : (sh.afterIssue m).pcv = sh.pcv := by
  simp only [Sheaf.afterIssue]; split
  · rfl
  · split
    · exact Sheaf.nextTurn_pcv _
    · exact Sheaf.expireTurn_pcv _

@[simp] theorem Sheaf.noted_pcv (sh : Sheaf) (rs : List Nat) : (sh.noted rs).pcv = sh.pcv := by
  simp only [Sheaf.noted]; split <;> rfl

/-! ## The end of an instruction -/

/-- Where no armed loop ends nothing branches back (R141). -/
theorem Sheaf.loopBack_none {sh : Sheaf} {a : Addr} (h : sh.atLoopEnd a = false) (m : Mask) : sh.loopBack a m = (sh, false) := by
  simp only [Sheaf.atLoopEnd, Bool.or_eq_false_iff] at h
  simp [Sheaf.loopBack, h.1, h.2]

/-- The sheaf once its lanes have advanced, its windows are as they should be and the prefixes are gone. -/
def Sheaf.ended (sh : Sheaf) (slot : Slot) (taken : Mask) (target : Nat → Addr) (leaves : Bool) : Sheaf :=
  let x := sh.goOn.advance slot taken target
  { (if taken != 0 || leaves then x.closeWindows else x) with hints := Hints.none, reprem := 0, began := none }

/-- The count of a sheaf's instructions goes up and its windows pass (R23, R99). -/
def Sheaf.counted (sh : Sheaf) (start : Nat) : Sheaf :=
  { (sh.passWindows start) with second := none, lease := { sh.lease with counted := min (sh.lease.counted + 1) 1024 } }

theorem Sheaf.ended_still (sh : Sheaf) (slot : Slot) (taken : Mask) (target : Nat → Addr) (leaves : Bool) :
    (sh.ended slot taken target leaves).still = sh.still := by
  have h1 : ∀ x : Sheaf, ({ x with hints := Hints.none, reprem := 0, began := none } : Sheaf).still = x.still := fun _ => rfl
  simp only [Sheaf.ended]
  split
  · exact (h1 _).trans (by simp)
  · exact (h1 _).trans (by simp)

theorem Sheaf.ended_pcv (sh : Sheaf) (slot : Slot) (taken : Mask) (target : Nat → Addr) (leaves : Bool) :
    (sh.ended slot taken target leaves).pcv = (sh.advance slot taken target).pcv := by
  simp only [Sheaf.ended]
  split <;> rfl

theorem Sheaf.counted_still (sh : Sheaf) (start : Nat) : (sh.counted start).still = sh.still :=
  Eq.trans rfl (sh.passWindows_still start)

theorem Sheaf.counted_pcv (sh : Sheaf) (start : Nat) : (sh.counted start).pcv = sh.pcv := rfl

/-- The end of an instruction, in these terms. -/
theorem Sheaf.finish_cases {sh : Sheaf} {slot : Slot} (taken : Mask) (target : Nat → Addr) (leaves : Bool) (start : Nat)
    (h : sh.atLoopEnd slot.addr = false) :
    let x := sh.ended slot taken target leaves
    sh.finish slot taken target leaves start = { x with second := some { addr := slot.addr, lanes := sh.othersAt slot, first := slot.lanes, start := start } } ∨
    sh.finish slot taken target leaves start = x.counted start ∨
    ∃ m, sh.finish slot taken target leaves start = (x.counted start).afterIssue m := by
  have hl : (sh.goOn.advance slot taken target).loopBack slot.addr slot.lanes = (sh.goOn.advance slot taken target, false) :=
    Sheaf.loopBack_none (sh := sh.goOn.advance slot taken target) h _
  intro x
  have e : sh.finish slot taken target leaves start =
      if sh.othersAt slot != 0 then { x with second := some { addr := slot.addr, lanes := sh.othersAt slot, first := slot.lanes, start := start } }
      else if (x.counted start).handler.isSome then x.counted start
      else (x.counted start).afterIssue (match x.second with | some y => slot.lanes ||| y.first | none => slot.lanes) := by
    unfold Sheaf.finish
    rw [hl]
    simp only [Bool.or_false]
    rfl
  rw [e]
  split
  · exact Or.inl rfl
  · split
    · exact Or.inr (Or.inl rfl)
    · exact Or.inr (Or.inr ⟨_, rfl⟩)

/-- The end of an instruction leaves what the bookkeeping of issue does not cover. -/
theorem Sheaf.finish_still {sh : Sheaf} {slot : Slot} (taken : Mask) (target : Nat → Addr) (leaves : Bool) (start : Nat)
    (h : sh.atLoopEnd slot.addr = false) : (sh.finish slot taken target leaves start).still = sh.still := by
  rw [← Sheaf.ended_still sh slot taken target leaves]
  rcases Sheaf.finish_cases taken target leaves start h with e | e | ⟨m, e⟩
  · rw [e]; rfl
  · rw [e, Sheaf.counted_still]
  · rw [e, Sheaf.afterIssue_still, Sheaf.counted_still]

/-- A lane's place after a change of PCs. -/
theorem Sheaf.setPcs_pc (sh : Sheaf) (m : Mask) (f : Nat → Addr) {l : Nat} (h : l < 32) :
    (sh.setPcs m f).pc l = if hasLane m l then f l else sh.pc l := by
  have : laneNumbers = List.range 32 := by decide
  simp [Sheaf.setPcs, Sheaf.pc, this, List.getD, h]

/-- Where the lanes stand at the end of an instruction (R19). -/
theorem Sheaf.finish_pcv {sh : Sheaf} {slot : Slot} (taken : Mask) (target : Nat → Addr) (leaves : Bool) (start : Nat)
    (h : sh.atLoopEnd slot.addr = false) : (sh.finish slot taken target leaves start).pcv = (sh.advance slot taken target).pcv := by
  rw [← Sheaf.ended_pcv sh slot taken target leaves]
  rcases Sheaf.finish_cases taken target leaves start h with e | e | ⟨m, e⟩
  · rw [e]
  · rw [e, Sheaf.counted_pcv]
  · rw [e, Sheaf.afterIssue_pcv, Sheaf.counted_pcv]

/-- Where a lane stands at the end of an instruction (R19). -/
theorem Sheaf.finish_pc {sh : Sheaf} {slot : Slot} (taken : Mask) (target : Nat → Addr) (leaves : Bool) (start : Nat)
    (h : sh.atLoopEnd slot.addr = false) {l : Nat} (hl : l < 32) :
    (sh.finish slot taken target leaves start).pc l =
      if hasLane (slot.lanes &&& sh.live) l then (if hasLane taken l then target l else addrAdd slot.addr 4) else sh.pc l := by
  simp only [Sheaf.pc, Sheaf.finish_pcv taken target leaves start h]
  exact Sheaf.setPcs_pc sh _ _ hl

end Sys2Proof.Machine
end

