-- ==== Sys2Proof/Laws/Sheaves.lean ====
section
/-!
SUPPORT. Instructions whose effect is on their own sheaf: the state after them is the state before with that sheaf put in place.
-/
namespace Sys2Proof.Machine

@[simp] theorem Sheaf.noted_over (sh : Sheaf) (rs : List Nat) : (sh.noted rs).over = sh.over := by
  simp only [Sheaf.noted]; split <;> rfl

/-- A sheaf that issues has not ended (R33). -/
theorem Sheaf.over_of_issuing {sh : Sheaf} (h : sh.issuing = true) : sh.over = false := by
  cases hs : sh.state <;> simp_all [Sheaf.over, Sheaf.issuing]

/-- The end of an instruction in a sheaf that stands. -/
theorem State.finish_here {s : State} {slot : Slot} {x : Sheaf} {taken : Mask} {target : Nat → Addr} {leaves : Bool} {start : Nat} (h : x.over = false) :
    (s.setSheaf slot.sid x).finish slot taken target leaves start = s.setSheaf slot.sid (x.finish slot taken target leaves start) := by
  simp [State.finish, h]

/-- How the sheaf of a pure instruction ends. -/
def State.ending (s : State) (sh x : Sheaf) (g n : Nat) (writes : List Nat) : Sheaf :=
  (if writes.isEmpty then x else x.noted (writes.map sh.phys)).finish (s.here sh g n) 0 (fun _ => 0) false (s.began sh)

/-- An instruction whose body puts a sheaf in place of its own ends in the state with that sheaf, its lanes advanced. -/
theorem issue_sheaf {f : Form} {g n : Nat} {op : Slot → Op} {s : State} {sh x : Sheaf} (hr : Ready s sh) (hpx : f.prefixesOk s.slot = true) (hg : guardOk g n = true)
    (hrole : f.role.issues sh.role = true)
    (hw : f.wide = true → s.slot.lanes = sh.live ∧ (f.liveOnly = true ∨ guardUniform (s.here sh g n) = true))
    (hok : (op (s.here sh g n)).ok = true) (hl : (op (s.here sh g n)).legal sh.begun (s.begun sh) = true)
    (ha : (s.here sh g n).acting ≠ 0 ∨ f.always = true)
    (hx : x.over = false)
    (hb : (op (s.here sh g n)).body (s.here sh g n) sh.begun (s.begun sh) = .next ((s.begun sh).setSheaf s.slot.sid x)) :
    issue f g n op s = (s.setSheaf s.slot.sid (s.ending sh x g n (op (s.here sh g n)).writes)).settle := by
  rw [issue_ready hr hpx hg hrole hw hok hl]
  have h0 : ((s.here sh g n).acting == 0 && !f.always) = false := by
    rcases ha with h | h
    · rw [beq_eq_false_iff_ne.mpr h]; rfl
    · rw [h]; simp
  have hp : sh.begun.phys = sh.phys := rfl
  simp only [actOf, h0, hb, Bool.false_eq_true, if_false, hp]
  by_cases hwr : (op (s.here sh g n)).writes.isEmpty = true
  · simp only [hwr, if_true, endAct, State.finish, State.here_sid, State.begun, State.setSheaf_setSheaf, State.modSheaf_setSheaf, State.ending, hx,
      Bool.false_eq_true, if_false]
  · have hn : (x.noted ((op (s.here sh g n)).writes.map sh.phys)).over = false := (Sheaf.noted_over _ _).trans hx
    simp only [Sheaf.noted] at hn
    simp only [hwr, if_false, Act.noteWrites, endAct, State.finish, State.here_sid, State.begun, State.setSheaf_setSheaf,
      State.modSheaf_setSheaf, State.ending, Bool.false_eq_true, Sheaf.noted, hn]

/-- Where no lane acts an instruction has no effect (R105). -/
theorem issue_idle {f : Form} {g n : Nat} {op : Slot → Op} {s : State} {sh : Sheaf} (hr : Ready s sh) (hpx : f.prefixesOk s.slot = true) (hg : guardOk g n = true)
    (hrole : f.role.issues sh.role = true)
    (hw : f.wide = true → s.slot.lanes = sh.live ∧ (f.liveOnly = true ∨ guardUniform (s.here sh g n) = true))
    (hok : (op (s.here sh g n)).ok = true) (hl : (op (s.here sh g n)).legal sh.begun (s.begun sh) = true)
    (ha : (s.here sh g n).acting = 0) (hf : f.always = false) :
    issue f g n op s = (s.setSheaf s.slot.sid (s.ending sh sh.begun g n [])).settle := by
  rw [issue_ready hr hpx hg hrole hw hok hl]
  simp only [actOf, ha, hf, beq_self_eq_true, Bool.not_false, Bool.and_self, if_true, endAct, State.finish, State.here_sid, State.begun,
    State.modSheaf_setSheaf, State.ending, List.isEmpty_nil, Sheaf.over_of_issuing (sh := sh.begun) hr.issuing, Bool.false_eq_true, if_false]

/-- What a pure instruction's sheaf keeps. -/
theorem State.ending_still {s : State} {sh x : Sheaf} {g n : Nat} {writes : List Nat} (hr : Ready s sh)
    (he : x.atLoopEnd s.slot.addr = sh.atLoopEnd s.slot.addr) : (s.ending sh x g n writes).still = x.still := by
  have h1 : ∀ y : Sheaf, y.atLoopEnd s.slot.addr = sh.atLoopEnd s.slot.addr → y.atLoopEnd (s.here sh g n).addr = false := by
    intro y hy; rw [State.here_addr, hy]; exact hr.noend
  have h2 : (x.noted (writes.map sh.phys)).atLoopEnd s.slot.addr = x.atLoopEnd s.slot.addr := by
    simp only [Sheaf.noted]; split <;> rfl
  unfold State.ending
  split
  · exact Sheaf.finish_still _ _ _ _ (h1 _ he)
  · rw [Sheaf.finish_still _ _ _ _ (h1 _ (h2.trans he)), Sheaf.noted_still]

/-- Where the lanes of a pure instruction's sheaf stand. -/
theorem State.ending_pcs {s : State} {sh x : Sheaf} {g n : Nat} {writes : List Nat} (hr : Ready s sh)
    (he : x.atLoopEnd s.slot.addr = sh.atLoopEnd s.slot.addr) (hv : x.live = sh.live) (hp : x.pcv = sh.pcv) :
    Advanced s sh (s.ending sh x g n writes) := by
  have h1 : ∀ y : Sheaf, y.atLoopEnd s.slot.addr = sh.atLoopEnd s.slot.addr → y.atLoopEnd (s.here sh g n).addr = false := by
    intro y hy; rw [State.here_addr, hy]; exact hr.noend
  have h2 : (x.noted (writes.map sh.phys)).atLoopEnd s.slot.addr = x.atLoopEnd s.slot.addr := by
    simp only [Sheaf.noted]; split <;> rfl
  have h3 : (x.noted (writes.map sh.phys)).live = x.live := by simp only [Sheaf.noted]; split <;> rfl
  have h4 : ∀ y : Sheaf, y.pcv = sh.pcv → ∀ l, y.pc l = sh.pc l := by intro y hy l; simp [Sheaf.pc, hy]
  have h5 : ∀ l, hasLane (0 : Mask) l = false := by intro l; simp [hasLane]
  intro l hl
  unfold State.ending
  split
  · rw [Sheaf.finish_pc _ _ _ _ (h1 _ he) hl, hv, h4 x hp, h5]; simp
  · rw [Sheaf.finish_pc _ _ _ _ (h1 _ (h2.trans he)) hl, h3, hv, h4 _ ((Sheaf.noted_pcv _ _).trans hp), h5]; simp

/-! ## What two sheaves with the same stillness have in common -/

section
variable {a b : Sheaf} (h : a.still = b.still)
include h
theorem Sheaf.still_vregs : a.vregs = b.vregs := by have := congrArg Sheaf.vregs h; exact this
theorem Sheaf.still_wbase : a.wbase = b.wbase := by have := congrArg Sheaf.wbase h; exact this
theorem Sheaf.still_vstack : a.vstack = b.vstack := by have := congrArg Sheaf.vstack h; exact this
theorem Sheaf.still_uregs : a.uregs = b.uregs := by have := congrArg Sheaf.uregs h; exact this
theorem Sheaf.still_aregs : a.aregs = b.aregs := by have := congrArg Sheaf.aregs h; exact this
theorem Sheaf.still_preds : a.preds = b.preds := by have := congrArg Sheaf.preds h; exact this
theorem Sheaf.still_descs : a.descs = b.descs := by have := congrArg Sheaf.descs h; exact this
theorem Sheaf.still_tiles : a.tiles = b.tiles := by have := congrArg Sheaf.tiles h; exact this
theorem Sheaf.still_status : a.status = b.status := by have := congrArg Sheaf.status h; exact this
theorem Sheaf.still_mode : a.mode = b.mode := by have := congrArg Sheaf.mode h; exact this
theorem Sheaf.still_handler : a.handler = b.handler := by have := congrArg Sheaf.handler h; exact this
theorem Sheaf.still_exited : a.exited = b.exited := by have := congrArg Sheaf.exited h; exact this
theorem Sheaf.still_faulted : a.faulted = b.faulted := by have := congrArg Sheaf.faulted h; exact this
theorem Sheaf.still_vreg (i : Nat) : a.vreg i = b.vreg i := by
  simp only [Sheaf.vreg, Sheaf.phys, Sheaf.still_vregs h, Sheaf.still_wbase h, Sheaf.still_vstack h]
theorem Sheaf.still_readV (i l : Nat) : a.readV i l = b.readV i l := by simp only [Sheaf.readV, Sheaf.still_vreg h]
end

end Sys2Proof.Machine
end

