-- ==== Sys2Proof/Laws/Lanes.lean ====
section
/-!
SUPPORT. What a varying instruction does, from the shape of its body: one lemma for all of them.
-/
namespace Sys2Proof.Machine

/-- Registers written in some lanes, lane by lane. -/
theorem Sheaf.writePhys_lanes (sh : Sheaf) (r : Nat) (m : Mask) (whole : Bool) (f : Nat → Word) (k : Mark) {l : Nat} (h : l < 32) :
    ((sh.writePhys r m whole f k).vregs.getD r VReg.zero).lanes.getD l 0 =
      if hasLane m l then f l else (sh.vregs.getD r VReg.zero).lanes.getD l 0 := by
  have : laneNumbers = List.range 32 := by decide
  simp [Sheaf.writePhys, this, List.getD, h]

/-- The mark after a write of some lanes (R56). -/
theorem Sheaf.writePhys_mark (sh : Sheaf) (r : Nat) (m : Mask) (whole : Bool) (f : Nat → Word) (k : Mark) :
    ((sh.writePhys r m whole f k).vregs.getD r VReg.zero).mark = newMark whole (sh.vregs.getD r VReg.zero).mark k := by
  simp [Sheaf.writePhys]

/-- Other registers keep their contents. -/
theorem Sheaf.writePhys_ne (sh : Sheaf) {r p : Nat} (m : Mask) (whole : Bool) (f : Nat → Word) (k : Mark) (h : p ≠ r) :
    (sh.writePhys r m whole f k).vregs.getD p VReg.zero = sh.vregs.getD p VReg.zero := by
  simp [Sheaf.writePhys, Map.getD_put, h]

/-- The body of a varying instruction that writes v(d) at once. -/
def LaneRule.writes (r : LaneRule) (sh : Sheaf) (slot : Slot) : Sheaf := sh.writeFlagged slot r.d (r.val sh) (r.mark sh)

/-- Nothing in flight, no loop end, checks that hold: a varying instruction has its effect. -/
theorem lane_issue {f : Form} {op : Slot → Op} {s : State} {sh : Sheaf} {r : LaneRule} (hr : Ready s sh) (hpx : f.prefixesOk s.slot = true) (hg : guardOk r.g r.n = true)
    (hrole : f.role.issues sh.role = true) (hw : f.wide = false) (hf : f.always = false)
    (hok : (op (s.here sh r.g r.n)).ok = true) (hl : (op (s.here sh r.g r.n)).legal sh.begun (s.begun sh) = true)
    (hb : (op (s.here sh r.g r.n)).body (s.here sh r.g r.n) sh.begun (s.begun sh) =
      Act.ofSheaf (s.here sh r.g r.n) (s.begun sh) (sh.begun.writeFlagged (s.here sh r.g r.n) r.d (r.val sh) (r.mark sh))) :
    ∃ sh', issue f r.g r.n op s = (s.setSheaf s.slot.sid sh').settle ∧ LaneResult s sh sh' r := by
  have hw' : f.wide = true → s.slot.lanes = sh.live ∧ (f.liveOnly = true ∨ guardUniform (s.here sh r.g r.n) = true) := by
    intro h; rw [hw] at h; cases h
  by_cases ha : (s.here sh r.g r.n).acting = 0
  · refine ⟨_, issue_idle hr hpx hg hrole hw' hok hl ha hf, ?_⟩
    have hs : (s.ending sh sh.begun r.g r.n []).still = sh.still := (State.ending_still (x := sh.begun) hr rfl).trans (Sheaf.begun_still sh)
    refine ⟨?_, ?_, ?_, ?_, ?_, ?_, ?_⟩
    · intro l _
      have : hasLane (0 : Mask) l = false := by simp [hasLane]
      simp only [ha, this, Sheaf.still_readV hs, Bool.false_eq_true, if_false]
    · intro h; exact absurd ha h
    · intro p _; rw [Sheaf.still_vregs hs]
    · have : lanesOf (0 : Mask) = [] := by decide
      simp only [Sheaf.still_status hs, ha, this, List.map_nil, orFlags, List.foldl_nil]
      exact BitVec.or_zero.symm
    · rw [hs]
      simp only [Sheaf.still_vregs hs, Sheaf.still_status hs]
    · exact State.ending_pcs hr rfl rfl rfl
    · intro _; exact Sheaf.still_vregs hs
  · refine ⟨_, issue_sheaf (x := sh.begun.writeFlagged (s.here sh r.g r.n) r.d (r.val sh) (r.mark sh)) hr hpx hg hrole hw' hok hl (Or.inl ha)
      (Sheaf.over_of_issuing (sh := sh) hr.issuing) (hb.trans (by rw [Act.ofSheaf, State.here_sid])), ?_⟩
    have hs := State.ending_still (x := sh.begun.writeFlagged (s.here sh r.g r.n) r.d (r.val sh) (r.mark sh)) (g := r.g) (n := r.n)
      (writes := (op (s.here sh r.g r.n)).writes) hr rfl
    refine ⟨?_, ?_, ?_, ?_, ?_, ?_, ?_⟩
    · intro l h
      rw [Sheaf.still_readV hs]
      exact Sheaf.writePhys_lanes _ _ _ _ _ _ h
    · intro _
      rw [Sheaf.still_vreg hs]
      refine (Sheaf.writePhys_mark _ _ _ _ _ _).trans ?_
      simp only [newMark]
      by_cases h : (s.here sh r.g r.n).acting = sh.live
      · rw [if_pos h, if_pos (by rw [h]; exact beq_self_eq_true _)]
      · rw [if_neg h, if_neg (by simpa using h)]; rfl
    · intro p h
      rw [Sheaf.still_vregs hs]
      exact Sheaf.writePhys_ne _ _ _ _ _ h
    · rw [Sheaf.still_status hs]; rfl
    · rw [hs]
      simp only [Sheaf.still_vregs hs, Sheaf.still_status hs]; rfl
    · exact State.ending_pcs hr rfl rfl rfl
    · intro h; exact absurd h ha

/-! ## The shapes of bodies -/

/-- A slot without a REP prefix steps no field (R94). -/
theorem Slot.steps_none {slot : Slot} (h : slot.rep = Option.none) : slot.steps = (0, 0, 0) := by simp [Slot.steps, h]

@[simp] theorem stepV_zero (v : Nat) : stepV v 0 = v := rfl
@[simp] theorem stepB_zero (v : Nat) : stepB v 0 = v := rfl
@[simp] theorem stepP_zero (v : Nat) : stepP v 0 = v := rfl

@[simp] theorem maxMark_zero_left (m : Mark) : maxMark 0 m = m := by revert m; decide
@[simp] theorem maxMark_zero_right (m : Mark) : maxMark m 0 = m := by revert m; decide

/-- A varying register number names a register. -/
theorem isV_toNat (d : BitVec 5) : isV d.toNat = true := by simp [isV]; omega

/-- A VV instruction (R106). -/
theorem vv_issue {f : Form} {F F' : Word → Word → Word → Word × Word} {s : State} {sh : Sheaf} (float readsD : Bool) {g : BitVec 4} {n : BitVec 1}
    (d a : BitVec 5) (b : BitVec 8) (hF : ∀ x y z, F x y z = F' x y z) (hr : Ready s sh) (hpx : f.prefixesOk s.slot = true) (hg : guardOk g.toNat n.toNat = true)
    (hrole : f.role.issues sh.role = true) (hw : f.wide = false) (hf : f.always = false) :
    ∃ sh', issue f g.toNat n.toNat (vvOp readsD F d.toNat a.toNat b.toNat) s = (s.setSheaf s.slot.sid sh').settle ∧
      LaneResult s sh sh' (.vv float readsD g n d a b F') := by
  have hst := Slot.steps_none (slot := s.here sh g.toNat n.toNat) (by simp [hr.norep])
  refine lane_issue (r := .vv float readsD g n d a b F') hr hpx hg hrole hw hf ?_ ?_ ?_
  · simp only [LaneRule.vv, vvOp, hst, stepV_zero, stepB_zero, isV_toNat, Bool.true_and, decide_eq_true_eq]; omega
  · rfl
  · have : F = F' := by funext x y z; exact hF x y z
    subst this
    simp only [LaneRule.vv, vvOp, hst, stepV_zero, stepB_zero, marks, List.foldl_cons, List.foldl_nil, maxMark_zero_left]
    rfl

/-- A unary VV instruction (R106, R113). -/
theorem vu_issue {f : Form} {F : Word → Word} {F' : Word → Word → Word × Word} {s : State} {sh : Sheaf} {g : BitVec 4} {n : BitVec 1}
    (d : BitVec 5) (b : BitVec 8) (hF : ∀ x y, (F y, (0 : Word)) = F' x y) (hr : Ready s sh) (hpx : f.prefixesOk s.slot = true) (hg : guardOk g.toNat n.toNat = true)
    (hrole : f.role.issues sh.role = true) (hw : f.wide = false) (hf : f.always = false) :
    ∃ sh', issue f g.toNat n.toNat (vuOp F d.toNat b.toNat) s = (s.setSheaf s.slot.sid sh').settle ∧
      LaneResult s sh sh' (.vc false false g n d b F') := by
  have hst := Slot.steps_none (slot := s.here sh g.toNat n.toNat) (by simp [hr.norep])
  refine lane_issue (r := .vc false false g n d b F') hr hpx hg hrole hw hf ?_ ?_ ?_
  · simp only [LaneRule.vc, vuOp, hst, stepV_zero, stepB_zero, isV_toNat, Bool.true_and, decide_eq_true_eq, beq_self_eq_true]; omega
  · rfl
  · have : (fun (_ : Word) y => (F y, (0 : Word))) = F' := by funext x y; exact hF x y
    subst this
    simp only [LaneRule.vc, vuOp, hst, stepV_zero, stepB_zero, maxMark_zero_right, Bool.false_eq_true, if_false]
    rfl

/-- A VC instruction (R116). -/
theorem vc_issue {f : Form} {F F' : Word → Word → Word × Word} {s : State} {sh : Sheaf} (readsD : Bool) {g : BitVec 4} {n : BitVec 1}
    (d : BitVec 5) (b : BitVec 8) (hF : ∀ x y, F x y = F' x y) (hr : Ready s sh) (hpx : f.prefixesOk s.slot = true) (hg : guardOk g.toNat n.toNat = true)
    (hrole : f.role.issues sh.role = true) (hw : f.wide = false) (hf : f.always = false) :
    ∃ sh', issue f g.toNat n.toNat (vcOp readsD F d.toNat b.toNat) s = (s.setSheaf s.slot.sid sh').settle ∧
      LaneResult s sh sh' (.vc true readsD g n d b F') := by
  refine lane_issue (r := .vc true readsD g n d b F') hr hpx hg hrole hw hf rfl rfl ?_
  have : F = F' := by funext x y; exact hF x y
  subst this
  simp only [LaneRule.vc, vcOp, marks, List.foldl_cons, List.foldl_nil, maxMark_zero_left]
  rfl

/-- A VC instruction with a half that exists (R116). -/
theorem half_issue {f : Form} {F F' : Word → Word → Word × Word} {s : State} {sh : Sheaf} (readsD : Bool) {g : BitVec 4} {n : BitVec 1}
    (d : BitVec 5) (b : BitVec 8) {p : Nat} (hp : p < 2) (hF : ∀ x y, F x y = F' x y) (hr : Ready s sh) (hpx : f.prefixesOk s.slot = true) (hg : guardOk g.toNat n.toNat = true)
    (hrole : f.role.issues sh.role = true) (hw : f.wide = false) (hf : f.always = false) :
    ∃ sh', issue f g.toNat n.toNat (halfOp p (vcOp readsD F d.toNat b.toNat)) s = (s.setSheaf s.slot.sid sh').settle ∧
      LaneResult s sh sh' (.vc true readsD g n d b F') := by
  refine lane_issue (r := .vc true readsD g n d b F') hr hpx hg hrole hw hf ?_ rfl ?_
  · simp [halfOp, vcOp, hp]
  have : F = F' := by funext x y; exact hF x y
  subst this
  simp only [LaneRule.vc, halfOp, vcOp, marks, List.foldl_cons, List.foldl_nil, maxMark_zero_left]
  rfl

/-- VRANK (R121). -/
theorem rank_issue {f : Form} {s : State} {sh : Sheaf} {g : BitVec 4} {n : BitVec 1} (d : BitVec 5) (a : BitVec 4)
    (ha : predOk a.toNat = true) (hr : Ready s sh) (hpx : f.prefixesOk s.slot = true) (hg : guardOk g.toNat n.toNat = true)
    (hrole : f.role.issues sh.role = true) (hw : f.wide = false) (hf : f.always = false) :
    ∃ sh', issue f g.toNat n.toNat (rankOp a.toNat d.toNat) s = (s.setSheaf s.slot.sid sh').settle ∧ LaneResult s sh sh' (.rank g n d a) := by
  refine lane_issue (r := .rank g n d a) hr hpx hg hrole hw hf ha rfl ?_
  have h0 : ∀ (x : Sheaf) (l : Nat), (x.raise (orFlags ((lanesOf (s.here sh g.toNat n.toNat).acting).map (fun _ => (0 : Word))))) = x := by
    intro x _
    have : ∀ (xs : List Nat), orFlags (xs.map (fun _ => (0 : Word))) = 0 := by
      intro xs; induction xs with
      | nil => rfl
      | cons y ys ih => simpa [orFlags] using ih
    rw [this]; simp [Sheaf.raise]
  simp only [rankOp, LaneRule.rank, Sheaf.writeFlagged, rank_eq, h0 _ 0]
  rfl

end Sys2Proof.Machine
end

