-- ==== Sys2Proof/Laws/Rules.lean ====
section
/-!
SUPPORT. From the body of an instruction to what the tables of rules say of it: one lemma for every instruction whose effect is on
its own sheaf, and one for each shape of body.
-/
namespace Sys2Proof.Machine

/-- The end of an instruction whose body leaves another sheaf in place, in a state t. -/
theorem State.finish_ends {s t : State} {sh x : Sheaf} {slot : Slot} {start : Nat} (hsid : slot.sid = s.slot.sid)
    (haddr : slot.addr = s.slot.addr) (hlanes : slot.lanes = s.slot.lanes) (he : x.atLoopEnd s.slot.addr = false)
    (hv : x.live = sh.live) (hp : x.pcv = sh.pcv) (ho : x.over = false) :
    ∃ sh', (t.setSheaf s.slot.sid x).finish slot 0 (fun _ => 0) false start = t.setSheaf s.slot.sid sh' ∧ sh'.still = x.still ∧
      Advanced s sh sh' := by
  have h5 : ∀ l, hasLane (0 : Mask) l = false := by intro l; simp [hasLane]
  refine ⟨x.finish slot 0 (fun _ => 0) false start, ?_, Sheaf.finish_still _ _ _ _ (by rw [haddr]; exact he), ?_⟩
  · rw [← hsid, State.finish_here ho]
  · intro l hl
    rw [Sheaf.finish_pc _ _ _ _ (by rw [haddr]; exact he) hl, hlanes, hv, haddr, h5]
    simp [Sheaf.pc, hp]

/-- The registers noted under MSTRICT are none of what statements speak of. -/
theorem Act.noteWrites_next {t : State} {x : Sheaf} {sid : Nat} (rs : List Nat) :
    Act.noteWrites sid rs (.next (t.setSheaf sid x)) = .next (t.setSheaf sid (x.noted rs)) := by
  simp only [Act.noteWrites, State.modSheaf_setSheaf]; rfl

/-- An instruction whose body goes on with a sheaf x in a state t ends so. -/
theorem sheaf_ends {f : Form} {g n : Nat} {op : Slot → Op} {s t : State} {sh x : Sheaf} (hr : Ready s sh) (hpx : f.prefixesOk s.slot = true) (hg : guardOk g n = true)
    (hrole : f.role.issues sh.role = true)
    (hw : f.wide = true → s.slot.lanes = sh.live ∧ (f.liveOnly = true ∨ guardUniform (s.here sh g n) = true))
    (hok : (op (s.here sh g n)).ok = true) (hl : (op (s.here sh g n)).legal sh.begun (s.begun sh) = true)
    (ha : (s.here sh g n).acting ≠ 0 ∨ f.always = true)
    (hb : (op (s.here sh g n)).body (s.here sh g n) sh.begun (s.begun sh) = .next (t.setSheaf s.slot.sid x))
    (he : x.atLoopEnd s.slot.addr = false) (hv : x.live = sh.live) (hp : x.pcv = sh.pcv) (ho : x.over = false) :
    ∃ sh', (Host.Outcome.next (issue f g n op s) : Host.Outcome State Fault Refusal) = .next (t.setSheaf s.slot.sid sh').settle ∧
      sh'.still = x.still ∧ Advanced s sh sh' := by
  rw [issue_ready hr hpx hg hrole hw hok hl]
  have h0 : ((s.here sh g n).acting == 0 && !f.always) = false := by
    rcases ha with h | h
    · rw [beq_eq_false_iff_ne.mpr h]; rfl
    · rw [h]; simp
  have hn : ∀ rs, (x.noted rs).atLoopEnd s.slot.addr = false ∧ (x.noted rs).live = sh.live ∧ (x.noted rs).pcv = sh.pcv := by
    intro rs; simp only [Sheaf.noted]; split <;> exact ⟨he, hv, hp⟩
  simp only [actOf, h0, hb, Bool.false_eq_true, if_false]
  split
  · obtain ⟨y, h1, h2, h3⟩ := State.finish_ends (s := s) (t := t) (sh := sh) (x := x) (slot := s.here sh g n) (start := s.began sh)
      (State.here_sid ..) (State.here_addr ..) (State.here_lanes ..) he hv hp ho
    exact ⟨y, by rw [endAct, h1], h2, h3⟩
  · have hn := hn ((op (s.here sh g n)).writes.map sh.begun.phys)
    obtain ⟨y, h1, h2, h3⟩ := State.finish_ends (s := s) (t := t) (sh := sh)
      (x := x.noted ((op (s.here sh g n)).writes.map sh.begun.phys)) (slot := s.here sh g n) (start := s.began sh)
      (State.here_sid ..) (State.here_addr ..) (State.here_lanes ..) hn.1 hn.2.1 hn.2.2 ((Sheaf.noted_over _ _).trans ho)
    refine ⟨y, ?_, h2.trans (Sheaf.noted_still x _), h3⟩
    rw [State.here_sid, Act.noteWrites_next, endAct, h1]

/-- Where no lane acts, nothing but the place of the sheaf changes (R105, R126). -/
theorem idle_ends {f : Form} {g n : Nat} {op : Slot → Op} {s : State} {sh : Sheaf} (hr : Ready s sh) (hpx : f.prefixesOk s.slot = true) (hg : guardOk g n = true)
    (hrole : f.role.issues sh.role = true)
    (hw : f.wide = true → s.slot.lanes = sh.live ∧ (f.liveOnly = true ∨ guardUniform (s.here sh g n) = true))
    (hok : (op (s.here sh g n)).ok = true) (hl : (op (s.here sh g n)).legal sh.begun (s.begun sh) = true)
    (ha : (s.here sh g n).acting = 0) (hf : f.always = false) :
    ∃ sh', (Host.Outcome.next (issue f g n op s) : Host.Outcome State Fault Refusal) = .next (s.setSheaf s.slot.sid sh').settle ∧
      sh'.still = sh.still ∧ Advanced s sh sh' := by
  refine ⟨_, congrArg _ (issue_idle hr hpx hg hrole hw hok hl ha hf), ?_, State.ending_pcs hr rfl rfl rfl⟩
  exact (State.ending_still (x := sh.begun) hr rfl).trans (Sheaf.begun_still sh)

/-- A body that traps leaves nothing but the trap. -/
theorem trap_ends {f : Form} {g n : Nat} {op : Slot → Op} {s : State} {sh : Sheaf} {t : TrapInfo} (hr : Ready s sh) (hpx : f.prefixesOk s.slot = true) (hg : guardOk g n = true)
    (hrole : f.role.issues sh.role = true)
    (hw : f.wide = true → s.slot.lanes = sh.live ∧ (f.liveOnly = true ∨ guardUniform (s.here sh g n) = true))
    (hok : (op (s.here sh g n)).ok = true) (hl : (op (s.here sh g n)).legal sh.begun (s.begun sh) = true)
    (ha : (s.here sh g n).acting ≠ 0) (ht : t.reprem = 0)
    (hb : (op (s.here sh g n)).body (s.here sh g n) sh.begun (s.begun sh) = .trap t (s.begun sh)) :
    (Host.Outcome.next (issue f g n op s) : Host.Outcome State Fault Refusal) = .next (((s.begun sh).trap (s.here sh g n) t).settle) := by
  rw [issue_ready hr hpx hg hrole hw hok hl]
  have h0 : ((s.here sh g n).acting == 0 && !f.always) = false := by rw [beq_eq_false_iff_ne.mpr ha]; rfl
  have h1 : (s.here sh g n).left = 0 := by simp [Slot.left, hr.norep]
  have h2 : ({ t with reprem := 0 } : TrapInfo) = t := by cases t; simp only at ht; subst ht; rfl
  simp only [actOf, h0, hb, Bool.false_eq_true, if_false, Act.noteWrites, ite_self, endAct, h1, h2]

/-! ## A rule and a body -/

/-- What a body must be for a rule to hold of it. -/
structure Meets (r : SheafRule) (f : Form) (op : Slot → Op) (s : State) (sh : Sheaf) : Prop where
  wide   : f.wide = true → r.wide = true
  ok     : (op (r.slot s sh)).ok = true
  legal  : (op (r.slot s sh)).legal sh.begun (s.begun sh) = true
  body   : (r.slot s sh).acting ≠ 0 → r.fits sh (r.slot s sh).acting = true → (op (r.slot s sh)).body (r.slot s sh) sh.begun (s.begun sh) =
    .next ((r.after s).setSheaf s.slot.sid (r.effect s (r.slot s sh) sh.begun))
  loops  : (r.effect s (r.slot s sh) sh.begun).atLoopEnd s.slot.addr = sh.atLoopEnd s.slot.addr
  live   : (r.effect s (r.slot s sh) sh.begun).live = sh.live
  pcv    : (r.effect s (r.slot s sh) sh.begun).pcv = sh.pcv
  stands : (r.effect s (r.slot s sh) sh.begun).over = sh.over

/-- Such a body ends as the rule says. -/
theorem rule_ends {f : Form} {op : Slot → Op} {s : State} {sh : Sheaf} {r : SheafRule} (hr : Ready s sh) (hpx : f.prefixesOk s.slot = true)
    (hg : guardOk r.g.toNat r.n.toNat = true) (hrole : f.role.issues sh.role = true) (hf : f.always = false)
    (hw : r.wide = true → Wide s sh r.g.toNat r.n.toNat) (hm : Meets r f op s sh) :
    ((r.slot s sh).acting = 0 → ∃ sh', (issued f r.g r.n op s) = .next (s.setSheaf s.slot.sid sh').settle ∧ sh'.still = sh.still ∧ Advanced s sh sh') ∧
    ((r.slot s sh).acting ≠ 0 → r.fits sh (r.slot s sh).acting = true → ∃ sh', (issued f r.g r.n op s) =
      .next ((r.after s).setSheaf s.slot.sid sh').settle ∧ sh'.still = (r.effect s (r.slot s sh) sh.begun).still ∧ Advanced s sh sh') := by
  have hw' : f.wide = true → s.slot.lanes = sh.live ∧ (f.liveOnly = true ∨ guardUniform (s.here sh r.g.toNat r.n.toNat) = true) :=
    fun h => ⟨(hw (hm.wide h)).converged, Or.inr (hw (hm.wide h)).uniform⟩
  exact ⟨fun ha => idle_ends hr hpx hg hrole hw' hm.ok hm.legal ha hf,
    fun ha hfit => sheaf_ends hr hpx hg hrole hw' hm.ok hm.legal (Or.inl ha) (hm.body ha hfit) (hm.loops.trans hr.noend) hm.live hm.pcv
      (hm.stands.trans (Sheaf.over_of_issuing hr.issuing))⟩

end Sys2Proof.Machine
end

