-- ==== Sys2Proof/Laws/Shapes.lean ====
section
/-!
SUPPORT. The shapes of bodies and the rules they meet: uniform, predicate, affine, demotion and late results, one lemma a shape.
-/
namespace Sys2Proof.Machine

/-- What a rule says of an instruction follows from its body. -/
theorem rule_of_meets {i : Instr} {f : Form} {op : Slot → Op} {r : SheafRule} {s : State} {sh : Sheaf} (hx : exec i s = issued f r.g r.n op s)
    (hr : Ready s sh) (hpx : f.prefixesOk s.slot = true) (hg : guardOk r.g.toNat r.n.toNat = true) (hrole : f.role.issues sh.role = true) (hf : f.always = false)
    (hw : r.wide = true → Wide s sh r.g.toNat r.n.toNat) (hm : Meets r f op s sh) :
    ((r.slot s sh).acting = 0 → Ends i s s sh sh) ∧
    ((r.slot s sh).acting ≠ 0 → r.fits sh (r.slot s sh).acting = true → Ends i s (r.after s) sh (r.effect s (r.slot s sh) sh.begun)) := by
  have := rule_ends hr hpx hg hrole hf hw hm
  unfold Ends
  rw [hx]
  exact this

/-! ## Uniform (R126 to R130) -/

theorem operandMark_uniform (sh : Sheaf) {b : Nat} (hb : 64 ≤ b) : sh.operandMark b = (sh.ureg (b - 64)).mark := by
  unfold Sheaf.operandMark uIndex; rw [if_neg (by omega), if_neg (by omega)]

theorem urMark_eq (sh : Sheaf) (d b : Nat) (readsD : Bool) (hd : 64 ≤ d) (hb : 64 ≤ b) :
    urMark sh readsD d b = maxMark (sh.ureg (b - 64)).mark (if readsD then (sh.ureg (d - 64)).mark else 0) := by
  simp only [urMark, marks, List.foldl_cons, List.foldl_nil, maxMark_zero_left, operandMark_uniform sh hd, operandMark_uniform sh hb]

theorem here_steps {s : State} {sh : Sheaf} (hr : Ready s sh) (g n : Nat) : (s.here sh g n).steps = (0, 0, 0) :=
  Slot.steps_none (by simp [hr.norep])

theorem lookahead_eq (slot : Slot) : slot.lookahead = windowOf slot := by
  unfold Slot.lookahead windowOf; cases slot.la <;> rfl

theorem lookahead_with (slot : Slot) (x : Mask) : ({ slot with acting := x } : Slot).lookahead = windowOf slot := lookahead_eq slot

theorem immediate_eq (slot : Slot) (i : BitVec 13) : slot.immediate i = immediateWord slot i := by
  unfold Slot.immediate immediateWord; cases slot.ximm <;> rfl

theorem ur_meets {g : BitVec 4} {n : BitVec 1} {d b : BitVec 8} {F F' : Word → Word → Word × Word} {s : State} {sh : Sheaf} (readsD : Bool)
    (hd : okUR d.toNat b.toNat = true) (hF : ∀ x y, F x y = F' x y) (hr : Ready s sh) :
    Meets (.ur readsD g n d b F') formUr (urOp readsD F d.toNat b.toNat) s sh := by
  have hF : F = F' := by funext x y; exact hF x y
  subst hF
  have hb : (64 ≤ d.toNat ∧ d.toNat < 256) ∧ (64 ≤ b.toNat ∧ b.toNat < 256) := by simpa [okUR, isU] using hd
  refine ⟨fun _ => rfl, ?_, rfl, ?_, rfl, rfl, rfl, rfl⟩
  · simp only [SheafRule.slot, SheafRule.ur, SheafRule.plain, urOp, here_steps hr, stepB_zero, hd]
  · intro _ _
    simp only [SheafRule.slot, SheafRule.ur, SheafRule.plain, urOp, here_steps hr, stepB_zero, SheafRule.after, Act.ofSheaf, State.here_sid,
      urMark_eq _ _ _ _ hb.1.1 hb.2.1, State.begun, State.setSheaf_setSheaf, Bool.false_eq_true, if_false]
    rfl

theorem urWide_meets {g : BitVec 4} {n : BitVec 1} {d b : BitVec 8} {F : BitVec 64 → BitVec 64 → BitVec 64} {s : State} {sh : Sheaf}
    (hd : okURW d.toNat b.toNat = true) (hr : Ready s sh) :
    Meets (.urWide g n d b F) formUr (urWideOp F d.toNat b.toNat) s sh := by
  refine ⟨fun _ => rfl, ?_, rfl, ?_, rfl, rfl, rfl, rfl⟩
  · simp only [SheafRule.slot, SheafRule.urWide, SheafRule.plain, urWideOp, here_steps hr, stepB_zero, hd]
  · intro _ _
    simp only [SheafRule.slot, SheafRule.urWide, SheafRule.plain, urWideOp, here_steps hr, stepB_zero, SheafRule.after, Act.ofSheaf,
      State.here_sid, State.begun, State.setSheaf_setSheaf, Bool.false_eq_true, if_false]
    rfl

/-! ## Predicates (R119, R120, R134) -/

theorem intCond_eq (c : Nat) (a b : Word) : intCond c a b = intTest c a b := by
  unfold intCond intTest
  split <;> first | rfl | exact Bool.beq_eq_decide_eq _ _ | (simp only [bne, decide_not, ne_eq, Bool.beq_eq_decide_eq])

theorem floatCond_eq (c : Nat) (a b : Word) (h : c < 8) : floatCond c a b = floatTest c a b := by
  unfold floatCond floatTest
  cases h : fp32.compare a.toNat b.toNat with
  | none => interval_cases c <;> rfl
  | some o => interval_cases c <;> cases o <;> rfl

theorem orFlags_zero (xs : List Nat) : orFlags (xs.map (fun _ => (0 : Word))) = 0 := by
  induction xs with
  | nil => rfl
  | cons y ys ih => simpa [orFlags] using ih

theorem raise_zero (x : Sheaf) (xs : List Nat) : x.raise (orFlags (xs.map (fun _ => (0 : Word)))) = x := by
  rw [orFlags_zero]; simp [Sheaf.raise]

theorem cmp_meets {g : BitVec 4} {n : BitVec 1} {p : BitVec 4} {a b : Nat} {f : Form} {F F' : Word → Word → Bool × Word} {s : State} {sh : Sheaf}
    {ok fl : Bool} (ho : (ok && predOk p.toNat) = true) (hF : ∀ x y, F x y = F' x y) (hfw : f.wide = false) :
    Meets (.toPred fl g n p (fun sh => maxMark (sh.vreg a).mark (sh.operandMark b)) (fun sh l => F' (sh.readV a l) (sh.operand b l)))
      f (cmpOp ok F p.toNat a b) s sh := by
  have hF : F = F' := by funext x y; exact hF x y
  subst hF
  refine ⟨fun h => (by rw [hfw] at h; cases h), ho, rfl, ?_, rfl, rfl, rfl, rfl⟩
  intro _ _
  simp only [SheafRule.slot, SheafRule.toPred, SheafRule.plain, cmpOp, SheafRule.after, Act.ofSheaf, State.here_sid,
    State.begun, State.setSheaf_setSheaf, Bool.false_eq_true, if_false]

theorem pp_meets {g : BitVec 4} {n : BitVec 1} {d : BitVec 4} {srcs : List Nat} {F : List Bool → Bool} {s : State} {sh : Sheaf}
    {F' : Sheaf → Nat → Bool} {M : Sheaf → Mark} (ho : (predOk d.toNat && srcs.all predOk) = true)
    (hF : ∀ sh l, F (srcs.map (fun p => hasLane (Sheaf.preg sh p).val l)) = F' sh l)
    (hM : ∀ sh, marks (srcs.map (fun p => (Sheaf.preg sh p).mark)) = M sh) :
    Meets (.toPred false g n d M (fun sh l => (F' sh l, 0))) formLogic (ppOp srcs F d.toNat) s sh := by
  refine ⟨fun h => (by cases h), ho, rfl, ?_, rfl, rfl, rfl, rfl⟩
  intro _ _
  simp only [SheafRule.slot, SheafRule.toPred, SheafRule.plain, ppOp, SheafRule.after, Act.ofSheaf, State.here_sid,
    State.begun, State.setSheaf_setSheaf, Bool.false_eq_true, if_false, raise_zero, hF, hM]

/-! ## Affine (R42, R43, R133) -/

theorem leaves_eq (b s lo hi : Int) : leaves b s lo hi = wraps b s lo hi := by
  have hl : laneNumbers = List.range 32 := by decide
  rw [Bool.eq_iff_iff]
  simp only [leaves, wraps, hl, List.any_eq_true, List.mem_range, Bool.or_eq_true, decide_eq_true_eq]
  exact ⟨fun ⟨l, h1, h2⟩ => ⟨⟨l, h1⟩, h2⟩, fun ⟨l, h2⟩ => ⟨l, l.2, h2⟩⟩

theorem wrapS_eq (r : AffResult) : r.wrapS = r.leavesSigned := leaves_eq ..
theorem wrapU_eq (r : AffResult) : r.wrapU = r.leavesUnsigned := leaves_eq ..

/-- The write of an affine result, where it fits. -/
theorem affineAct_fits {slot : Slot} {sh : Sheaf} {s : State} {d : Nat} {r : AffResult} {srcs : List AReg} {mark : Mark}
    (h : (modeAfault sh.mode && r.leavesSigned) = false) :
    affineAct slot sh s d r srcs mark = Act.ofSheaf slot s
      (({ sh with aregs := sh.aregs.put d (AReg.mk (BitVec.ofInt 32 r.baseS) (BitVec.ofInt 32 r.stride) (r.leavesSigned || srcs.any AReg.ws)
        (r.leavesUnsigned || srcs.any AReg.wu) mark) }).raise (if r.leavesSigned || r.leavesUnsigned then flagAWRAP else 0)) := by
  unfold affineAct Sheaf.writeA
  rw [wrapS_eq, wrapU_eq, h]
  rfl

theorem affine_meets {f : Form} {op : Slot → Op} {s : State} {sh : Sheaf} {g : BitVec 4} {n : BitVec 1} {d : Nat} {srcs : Sheaf → List AReg}
    {mark : Sheaf → Mark} {F : Sheaf → AffResult} (hok : (op (s.here sh g.toNat n.toNat)).ok = true)
    (hl : (op (s.here sh g.toNat n.toNat)).legal = fun _ _ => true)
    (hb : (op (s.here sh g.toNat n.toNat)).body (s.here sh g.toNat n.toNat) sh.begun (s.begun sh) =
      affineAct (s.here sh g.toNat n.toNat) sh.begun (s.begun sh) d (F sh.begun) (srcs sh.begun) (mark sh.begun))
    (hF : F sh.begun = F sh) : Meets (.toAffine g n d srcs mark F) f op s sh := by
  have hs : (SheafRule.toAffine g n d srcs mark F).slot s sh = s.here sh g.toNat n.toNat := rfl
  refine ⟨fun _ => rfl, hok, by rw [hs, hl], ?_, rfl, rfl, rfl, rfl⟩
  intro _ hfit
  have hfit : (modeAfault sh.begun.mode && (F sh.begun).leavesSigned) = false := by
    rw [hF]
    simpa only [SheafRule.toAffine, SheafRule.plain, Bool.not_eq_true', Sheaf.begun_mode] using hfit
  rw [hs, hb, affineAct_fits hfit]
  simp only [Act.ofSheaf, State.here_sid, State.begun, State.setSheaf_setSheaf, SheafRule.after, SheafRule.toAffine, SheafRule.plain,
    Bool.false_eq_true, if_false]

theorem affineReg_index (x : BitVec 5) : isA (32 + x.toNat) = true ∧ aIndex (32 + x.toNat) = x.toNat := by
  simp [isA, aIndex]; omega

theorem asAffine_eq {sh : Sheaf} {b : BitVec 8} (h : isAU b.toNat = true) : sh.asAffine b.toNat = sh.affineSource b := by
  unfold Sheaf.asAffine Sheaf.affineSource
  split
  · rfl
  · next h => rw [operandMark_uniform _ (by omega)]; rfl

theorem af2_meets {f : Form} {s : State} {sh : Sheaf} {g : BitVec 4} {n : BitVec 1} {d a : BitVec 5} {b : BitVec 8} {bOk : Nat → Bool}
    {F F' : AReg → AReg → AffResult} (hr : Ready s sh) (hb : bOk b.toNat = true) (hau : isAU b.toNat = true) (hF : ∀ x y, F x y = F' x y) :
    Meets (.affine2 g n d a b F') f (afOp bOk F d.toNat a.toNat b.toNat) s sh := by
  have hF : F = F' := by funext x y; exact hF x y
  subst hF
  refine affine_meets (F := fun sh => F (sh.readA a.toNat) (sh.affineSource b)) ?_ rfl ?_ rfl
  · simp only [afOp, here_steps hr, stepB_zero, hb, (affineReg_index _).1]; rfl
  · simp only [afOp, here_steps hr, stepB_zero, (affineReg_index _).2, asAffine_eq hau]

theorem aff_meets {f : Form} {s : State} {sh : Sheaf} {g : BitVec 4} {n : BitVec 1} {d : BitVec 5} {b w : Nat} {bOk : Nat → Bool}
    {G : Sheaf → Nat → AffResult × List AReg × Mark} {F : Sheaf → AffResult} {srcs : Sheaf → List AReg} {mark : Sheaf → Mark} (hr : Ready s sh)
    (hb : bOk b = true) (hF : ∀ sh, G sh b = (F sh, srcs sh, mark sh)) (hh : F sh.begun = F sh) :
    Meets (.toAffine g n d.toNat srcs mark F) f (afFromOp bOk w G d.toNat b) s sh := by
  refine affine_meets ?_ rfl ?_ hh
  · simp only [afFromOp, here_steps hr, stepB_zero, hb, (affineReg_index _).1]; rfl
  · simp only [afFromOp, here_steps hr, stepB_zero, (affineReg_index _).2, hF]

theorem aneg_meets {f : Form} {s : State} {sh : Sheaf} {g : BitVec 4} {n : BitVec 1} {d a : BitVec 5} (hr : Ready s sh) :
    Meets (.toAffine g n d.toNat (fun sh => [sh.readA a.toNat]) (fun sh => (sh.readA a.toNat).mark) (fun sh =>
      { baseS := -(sh.readA a.toNat).base.toInt, baseU := -((sh.readA a.toNat).base.toNat : Int), stride := -(sh.readA a.toNat).stride.toInt }))
      f (anegOp d.toNat a.toNat) s sh := by
  refine affine_meets ?_ rfl ?_ rfl
  · simp only [anegOp, here_steps hr, stepB_zero, (affineReg_index _).1]; rfl
  · simp only [anegOp, here_steps hr, stepB_zero, (affineReg_index _).2]

/-! ## Demotions and reductions (R135) -/

theorem demote_meets {g : BitVec 4} {n : BitVec 1} {d : BitVec 8} {a m p : Nat} {f : Form} {F : Sheaf → Mask → Option (Word × Word)}
    {F' : Sheaf → Mask → Word × Word} {M : Sheaf → Mark} {s : State} {sh : Sheaf} {fl : Bool} (hok : (isU d.toNat && okMember m p) = true)
    (hF : ∀ (sh : Sheaf) (k : Mask), k ≠ 0 → F sh (if m == 1 then k &&& (sh.preg p).val else k) = some (F' sh k))
    (hM : ∀ sh : Sheaf, marks [(sh.vreg a).mark, if m == 1 then (sh.preg p).mark else 0] = M sh) :
    Meets (.demote fl g n d M F') f (demoteOp F d.toNat a m p) s sh := by
  refine ⟨fun _ => rfl, hok, rfl, ?_, rfl, rfl, rfl, rfl⟩
  intro ha _
  have ha : (s.here sh g.toNat n.toNat).acting ≠ 0 := ha
  simp only [SheafRule.slot, SheafRule.demote, SheafRule.plain, demoteOp, SheafRule.after, Act.ofSheaf, State.here_sid,
    State.begun, State.setSheaf_setSheaf, Bool.false_eq_true, if_false, hF _ _ ha, hM, Sheaf.writeUB, uIndex]

theorem lanesOf_ne_nil {m : Mask} (h : m ≠ 0) : lanesOf m ≠ [] := by
  have hl : laneNumbers = List.range 32 := by decide
  intro he
  apply h
  apply BitVec.eq_of_getLsbD_eq
  intro i hi
  simp only [lanesOf, hl, List.filter_eq_nil_iff, List.mem_range, hasLane] at he
  simpa using he i hi

/-- The first of the elements is that of the lowest lane. -/
theorem elements_head (sh : Sheaf) (a : BitVec 5) {k : Mask} (h : k ≠ 0) : (sh.elements a k).headD 0 = sh.readV a.toNat (lowestLane k) := by
  unfold Sheaf.elements lowestLane
  cases hk : lanesOf k with
  | nil => exact absurd hk (lanesOf_ne_nil h)
  | cons x xs => rfl

theorem foldl_sum (xs : List Nat) (f : Nat → Word) : xs.foldl (fun x l => x + f l) 0 = (xs.map f).sum := by
  rw [List.sum_eq_foldl, List.foldl_map]

theorem foldl_min (f : Nat → Word) (xs : List Nat) (x : Word) :
    xs.foldl (fun x l => aluMinS x (f l)) x = BitVec.ofInt 32 ((xs.map f).foldl (fun x w => min x w.toInt) x.toInt) := by
  induction xs generalizing x with
  | nil => simp
  | cons y ys ih =>
    simp only [List.foldl_cons, List.map_cons, ih]
    congr 2
    unfold aluMinS
    split
    · rw [min_eq_right]; omega
    · rw [min_eq_left]; omega

theorem foldl_max (f : Nat → Word) (xs : List Nat) (x : Word) :
    xs.foldl (fun x l => aluMaxS x (f l)) x = BitVec.ofInt 32 ((xs.map f).foldl (fun x w => max x w.toInt) x.toInt) := by
  induction xs generalizing x with
  | nil => simp
  | cons y ys ih =>
    simp only [List.foldl_cons, List.map_cons, ih]
    congr 2
    unfold aluMaxS
    split
    · rw [max_eq_right]; omega
    · rw [max_eq_left]; omega

theorem bit_toNat (b : BitVec 1) : (b.toNat == 1) = decide (b = 1) := by revert b; decide

theorem reduceSet_eq (sh : Sheaf) (m : BitVec 1) (p : BitVec 4) (k : Mask) :
    (if m.toNat == 1 then k &&& (sh.preg p.toNat).val else k) = sh.reduceSet m p k := by
  rw [bit_toNat]; unfold Sheaf.reduceSet; by_cases h : m = 1 <;> simp [h]

theorem reduceMark_eq (sh : Sheaf) (a : BitVec 5) (m : BitVec 1) (p : BitVec 4) :
    marks [(sh.vreg a.toNat).mark, if m.toNat == 1 then (sh.preg p.toNat).mark else 0] = reduceMark a m p sh := by
  simp only [bit_toNat, reduceMark, marks, List.foldl_cons, List.foldl_nil, maxMark_zero_left, decide_eq_true_eq]

theorem marks_one (sh : Sheaf) (a p : Nat) : marks [(sh.vreg a).mark, if 0 == 1 then (sh.preg p).mark else 0] = (sh.vreg a).mark := by
  have : ((0 : Nat) == 1) = false := rfl
  simp only [this, Bool.false_eq_true, if_false, marks, List.foldl_cons, List.foldl_nil, maxMark_zero_left, maxMark_zero_right]

/-! ## Late results (R60, R118, R122, R127) -/

theorem aluDivS_eq (a b : Word) : aluDivS a b = (quotient a b).1 := by
  unfold aluDivS quotient
  by_cases h : b = 0
  · simp [h]
  · rw [if_neg h, if_neg (by simpa using h)]
    exact BitVec.eq_of_toInt_eq (by rw [BitVec.toInt_sdiv, BitVec.toInt_ofInt])

theorem aluRemS_eq (a b : Word) : aluRemS a b = (quotient a b).2 := by
  unfold aluRemS quotient
  by_cases h : b = 0
  · simp [h]
  · rw [if_neg h, if_neg (by simpa using h)]
    refine BitVec.eq_of_toInt_eq ?_
    rw [BitVec.toInt_ofInt, ← BitVec.toInt_srem, ← BitVec.toInt_ofInt, BitVec.ofInt_toInt]

theorem aluDivU_eq (a b : Word) : aluDivU a b = (quotientU a b).1 := by
  unfold aluDivU quotientU
  by_cases h : b = 0
  · simp [h]
  · rw [if_neg h, if_neg (by simpa using h)]
    refine BitVec.eq_of_toNat_eq ?_
    rw [BitVec.toNat_ofNat, BitVec.toNat_udiv]
    exact Nat.mod_eq_of_lt (lt_of_le_of_lt (Nat.div_le_self _ _) a.isLt)

theorem aluRemU_eq (a b : Word) : aluRemU a b = (quotientU a b).2 := by
  unfold aluRemU quotientU
  by_cases h : b = 0
  · simp [h]
  · rw [if_neg h, if_neg (by simpa using h)]
    refine BitVec.eq_of_toNat_eq ?_
    rw [BitVec.toNat_ofNat, BitVec.toNat_umod]
    exact Nat.mod_eq_of_lt (lt_of_le_of_lt (Nat.mod_le _ _) a.isLt)

theorem lateU_meets {g : BitVec 4} {n : BitVec 1} {d b : BitVec 8} {F F' : Word → Word → Word × Word} {s : State} {sh : Sheaf} (readsD : Bool)
    (hd : okUR d.toNat b.toNat = true) (hF : ∀ x y, F x y = F' x y) (hr : Ready s sh) :
    Meets (.lateU readsD g n d b F') formUrLong (urLongOp readsD F d.toNat b.toNat) s sh := by
  have hF : F = F' := by funext x y; exact hF x y
  subst hF
  have hb : (64 ≤ d.toNat ∧ d.toNat < 256) ∧ (64 ≤ b.toNat ∧ b.toNat < 256) := by simpa [okUR, isU] using hd
  refine ⟨fun _ => rfl, ?_, rfl, ?_, rfl, rfl, rfl, rfl⟩
  · simp only [SheafRule.slot, SheafRule.lateU, SheafRule.plain, urLongOp, here_steps hr, stepB_zero, hd]
  · intro _ _
    simp only [SheafRule.slot, SheafRule.lateU, SheafRule.plain, urLongOp, here_steps hr, stepB_zero, SheafRule.after, State.here_sid,
      lookahead_eq, Sheaf.pendU, Sheaf.addPending, Sheaf.awaiting, State.here_addr, urMark_eq _ _ _ _ hb.1.1 hb.2.1, State.begun,
      if_true, uIndex, State.setSheaf, Map.put_put]
    rfl

theorem vs_meets {g : BitVec 4} {n : BitVec 1} {d : BitVec 5} {w : BitVec 4} {b : BitVec 8} {F : Nat → Res} {s : State} {sh : Sheaf} :
    Meets (.lateV g n d w b F) formSpecial (vsOp F d.toNat w.toNat b.toNat) s sh := by
  refine ⟨fun h => (by cases h), rfl, rfl, ?_, rfl, rfl, rfl, rfl⟩
  intro _ _
  simp only [SheafRule.slot, SheafRule.lateV, SheafRule.plain, vsOp, SheafRule.after, State.here_sid, Sheaf.pendV, Sheaf.addPending,
    Sheaf.awaiting, State.here_addr, State.begun, if_true, State.setSheaf, Map.put_put]
  rfl

theorem members_eq (sh : Sheaf) (m : BitVec 3) (x : Mask) :
    (if m.toNat == 7 then x else x &&& (sh.preg m.toNat).val) = sh.members m x := by
  unfold Sheaf.members
  by_cases h : m = 7
  · subst h; rfl
  · rw [if_neg h, if_neg]
    intro h2
    exact h (BitVec.eq_of_toNat_eq (by simpa using h2))

theorem shuffleMark_eq (sh : Sheaf) (m : BitVec 3) :
    (if m.toNat == 7 then (0 : Mark) else (sh.preg m.toNat).mark) = if m = 7 then 0 else (sh.preg m.toNat).mark := by
  by_cases h : m = 7
  · subst h; rfl
  · rw [if_neg h, if_neg]
    intro h2
    exact h (BitVec.eq_of_toNat_eq (by simpa using h2))

theorem shuffled_eq {k : Nat} {src : Int → Int → Int} (hs : ∀ l c : Nat, shuffleSource k l c = src l c) (sh : Sheaf) (a : BitVec 5) (b : BitVec 8)
    (x : Mask) (l : Nat) :
    (if 0 ≤ shuffleSource k l (sh.operand b.toNat l).toNat && shuffleSource k l (sh.operand b.toNat l).toNat < 32 &&
        hasLane x (shuffleSource k l (sh.operand b.toNat l).toNat).toNat
      then sh.readV a.toNat (shuffleSource k l (sh.operand b.toNat l).toNat).toNat else sh.readV a.toNat l) = sh.shuffled src a b x l := by
  unfold Sheaf.shuffled
  simp only [hs, Bool.and_eq_true, decide_eq_true_eq, and_assoc]

theorem shuffle_meets {g : BitVec 4} {n : BitVec 1} {d a : BitVec 5} {b : BitVec 8} {m : BitVec 3} {k : Nat} {src : Int → Int → Int} {s : State}
    {sh : Sheaf} (hs : ∀ l c : Nat, shuffleSource k l c = src l c) :
    Meets (.shuffle src g n d a b m) formShuffle (shuffleOp k d.toNat a.toNat b.toNat m.toNat) s sh := by
  have hla : ∀ x : Mask, ({ s.here sh g.toNat n.toNat with acting := x } : Slot).lookahead = windowOf (s.here sh g.toNat n.toNat) :=
    fun x => lookahead_with _ x
  refine ⟨fun h => (by cases h), rfl, rfl, ?_, rfl, rfl, rfl, rfl⟩
  intro _ hfit
  have hfit : (sh.begun.members m (s.here sh g.toNat n.toNat).acting == 0) = false := by
    simp only [SheafRule.shuffle, SheafRule.slot, bne_iff_ne, SheafRule.plain] at hfit
    exact beq_eq_false_iff_ne.mpr hfit
  simp only [SheafRule.slot, SheafRule.shuffle, SheafRule.plain, shuffleOp, members_eq]
  rw [hfit]
  simp only [Bool.false_and, hla, SheafRule.after, State.here_sid, Sheaf.pendV, Sheaf.addPending, Sheaf.awaiting, State.here_addr,
    State.begun, Bool.false_eq_true, if_false, if_true, State.setSheaf, Map.put_put, marks, List.foldl_cons, List.foldl_nil,
    maxMark_zero_left, shuffleMark_eq, shuffled_eq hs]

end Sys2Proof.Machine
end

