-- ==== Sys2Proof/Laws/Flow.lean ====
section
/-!
SUPPORT. Control flow: from the body of an instruction to where its lanes stand.
-/
namespace Sys2Proof.Machine

/-- The end of an instruction that some lanes leave, in a state t. -/
theorem State.finish_goes {s t : State} {sh x : Sheaf} {slot : Slot} {start : Nat} (taken : Mask) (target : Nat → Addr) (hsid : slot.sid = s.slot.sid)
    (haddr : slot.addr = s.slot.addr) (hlanes : slot.lanes = s.slot.lanes) (he : x.atLoopEnd s.slot.addr = false)
    (hv : x.live = sh.live) (hp : x.pcv = sh.pcv) (ho : x.over = false) :
    ∃ sh', (t.setSheaf s.slot.sid x).finish slot taken target false start = t.setSheaf s.slot.sid sh' ∧ sh'.still = x.still ∧
      ∀ l, l < 32 → sh'.pc l = if hasLane (s.slot.lanes &&& sh.live) l then (if hasLane taken l then target l else addrAdd s.slot.addr 4) else sh.pc l := by
  refine ⟨x.finish slot taken target false start, ?_, Sheaf.finish_still _ _ _ _ (by rw [haddr]; exact he), ?_⟩
  · rw [← hsid, State.finish_here ho]
  · intro l hl
    rw [Sheaf.finish_pc _ _ _ _ (by rw [haddr]; exact he) hl, hlanes, hv, haddr]
    simp [Sheaf.pc, hp]

/-- An instruction whose body goes on, or jumps, with a sheaf x in a state t. -/
theorem sheaf_goes {f : Form} {g n : Nat} {op : Slot → Op} {s t : State} {sh x : Sheaf} {target : Addr} (hr : Ready s sh) (hpx : f.prefixesOk s.slot = true) (hg : guardOk g n = true)
    (hrole : f.role.issues sh.role = true)
    (hw : f.wide = true → s.slot.lanes = sh.live ∧ (f.liveOnly = true ∨ guardUniform (s.here sh g n) = true))
    (hok : (op (s.here sh g n)).ok = true) (hl : (op (s.here sh g n)).legal sh.begun (s.begun sh) = true)
    (hwr : (op (s.here sh g n)).writes = [])
    (ha : (s.here sh g n).acting ≠ 0) (taken : Option Addr)
    (hb : (op (s.here sh g n)).body (s.here sh g n) sh.begun (s.begun sh) = match taken with | some a => .jump (t.setSheaf s.slot.sid x) (s.here sh g n).acting (fun _ => a) | none => .next (t.setSheaf s.slot.sid x))
    (he : x.atLoopEnd s.slot.addr = false) (hv : x.live = sh.live) (hp : x.pcv = sh.pcv) (ho : x.over = false) (ht : taken.getD 0 = target) :
    ∃ sh', (Host.Outcome.next (issue f g n op s) : Host.Outcome State Fault Refusal) = .next (t.setSheaf s.slot.sid sh').settle ∧
      sh'.still = x.still ∧ ∀ l, l < 32 → sh'.pc l = if hasLane (s.slot.lanes &&& sh.live) l then (if hasLane (if taken.isSome then (s.here sh g n).acting else 0) l then target else addrAdd s.slot.addr 4) else sh.pc l := by
  rw [issue_ready hr hpx hg hrole hw hok hl]
  have h0 : ((s.here sh g n).acting == 0 && !f.always) = false := by
    rw [beq_eq_false_iff_ne.mpr ha]; rfl
  simp only [actOf, h0, hb, Bool.false_eq_true, if_false, hwr, List.isEmpty_nil, if_true]
  subst ht
  cases taken with
  | none =>
    obtain ⟨y, h1, h2, h3⟩ := State.finish_goes (s := s) (t := t) (sh := sh) (x := x) (slot := s.here sh g n) (start := s.began sh) 0 (fun _ => 0)
      (State.here_sid ..) (State.here_addr ..) (State.here_lanes ..) he hv hp ho
    refine ⟨y, by simp only; rw [endAct, h1], h2, ?_⟩
    intro l hl
    rw [h3 l hl]
    simp
  | some a =>
    obtain ⟨y, h1, h2, h3⟩ := State.finish_goes (s := s) (t := t) (sh := sh) (x := x) (slot := s.here sh g n) (start := s.began sh) (s.here sh g n).acting (fun _ => a)
      (State.here_sid ..) (State.here_addr ..) (State.here_lanes ..) he hv hp ho
    exact ⟨y, by simp only; rw [endAct, h1], h2, h3⟩

/-- What a body must be for a rule of control flow to hold of it. -/
structure FlowMeets (r : FlowRule) (f : Form) (op : Slot → Op) (s : State) (sh : Sheaf) : Prop where
  wide   : f.wide = true → r.wide = true
  role   : f.role = .other
  always : f.always = false
  ok     : (op (s.here sh r.g.toNat r.n.toNat)).ok = true
  legal  : r.handler = false ∨ sh.handler.isSome = true → (op (s.here sh r.g.toNat r.n.toNat)).legal sh.begun (s.begun sh) = true
  writes : (op (s.here sh r.g.toNat r.n.toNat)).writes = []
  body   : r.handler = false ∨ sh.handler.isSome = true → (op (s.here sh r.g.toNat r.n.toNat)).body (s.here sh r.g.toNat r.n.toNat) sh.begun (s.begun sh) =
    match r.trap (s.here sh r.g.toNat r.n.toNat) sh with
    | some t => .trap t (s.begun sh)
    | none => match r.target (s.here sh r.g.toNat r.n.toNat) sh with
      | some a => .jump (s.setSheaf s.slot.sid (r.effect (s.here sh r.g.toNat r.n.toNat) sh.begun)) (s.here sh r.g.toNat r.n.toNat).acting (fun _ => a)
      | none => .next (s.setSheaf s.slot.sid (r.effect (s.here sh r.g.toNat r.n.toNat) sh.begun))
  loops  : (r.effect (s.here sh r.g.toNat r.n.toNat) sh.begun).atLoopEnd s.slot.addr = false
  live   : (r.effect (s.here sh r.g.toNat r.n.toNat) sh.begun).live = sh.live
  pcv    : (r.effect (s.here sh r.g.toNat r.n.toNat) sh.begun).pcv = sh.pcv
  stands : (r.effect (s.here sh r.g.toNat r.n.toNat) sh.begun).over = sh.over
  trapz  : ∀ t, r.trap (s.here sh r.g.toNat r.n.toNat) sh = some t → t.reprem = 0

/-- What a rule of control flow says. -/
def FlowSays (i : Instr) (r : FlowRule) (s : State) (sh : Sheaf) : Prop :=
    ((s.here sh r.g.toNat r.n.toNat).acting = 0 → Ends i s s sh sh) ∧
    ((s.here sh r.g.toNat r.n.toNat).acting ≠ 0 → match r.trap (s.here sh r.g.toNat r.n.toNat) sh with
      | some t => exec i s = .next (((s.begun sh).trap (s.here sh r.g.toNat r.n.toNat) t).settle)
      | none => Goes i s s sh (r.effect (s.here sh r.g.toNat r.n.toNat) sh.begun)
        (if (r.target (s.here sh r.g.toNat r.n.toNat) sh).isSome then (s.here sh r.g.toNat r.n.toNat).acting else 0) ((r.target (s.here sh r.g.toNat r.n.toNat) sh).getD 0))
/-- What a rule of control flow says of an instruction follows from its body. -/
theorem flow_of_meets {i : Instr} {f : Form} {op : Slot → Op} {r : FlowRule} {s : State} {sh : Sheaf} (hx : exec i s = issued f r.g r.n op s)
    (hr : Ready s sh) (hpx : f.prefixesOk s.slot = true) (hg : guardOk r.g.toNat r.n.toNat = true) (hw : r.wide = true → Wide s sh r.g.toNat r.n.toNat)
    (hh : r.handler = true → sh.handler.isSome = true) (hm : FlowMeets r f op s sh) : FlowSays i r s sh := by
  have hrole : f.role.issues sh.role = true := by rw [hm.role]; rfl
  have hh' : r.handler = false ∨ sh.handler.isSome = true := by
    cases h : r.handler
    · exact Or.inl rfl
    · exact Or.inr (hh h)
  have hw' : f.wide = true → s.slot.lanes = sh.live ∧ (f.liveOnly = true ∨ guardUniform (s.here sh r.g.toNat r.n.toNat) = true) :=
    fun h => ⟨(hw (hm.wide h)).converged, Or.inr (hw (hm.wide h)).uniform⟩
  constructor
  · intro ha
    unfold Ends
    rw [hx]
    exact idle_ends hr hpx hg hrole hw' hm.ok (hm.legal hh') ha hm.always
  · intro ha
    have hb := hm.body hh'
    cases ht : r.trap (s.here sh r.g.toNat r.n.toNat) sh with
    | some t =>
      rw [ht] at hb
      simp only
      rw [hx]
      exact trap_ends hr hpx hg hrole hw' hm.ok (hm.legal hh') ha (hm.trapz t ht) hb
    | none =>
      rw [ht] at hb
      simp only
      unfold Goes
      rw [hx]
      exact sheaf_goes hr hpx hg hrole hw' hm.ok (hm.legal hh') hm.writes ha _ hb hm.loops hm.live hm.pcv (hm.stands.trans (Sheaf.over_of_issuing hr.issuing)) rfl

theorem targetOk_eq (a : Addr) : targetOk a = reachableTarget a := by
  unfold targetOk reachableTarget canonical
  rw [Bool.eq_iff_iff]
  simp only [Bool.and_eq_true, Bool.or_eq_true, beq_iff_eq, decide_eq_true_eq]
  have := a.isLt
  omega

theorem relative_eq (slot : Slot) (k : Int) : slot.relative k = ahead slot k := rfl

theorem addrAdd_four (a : Addr) : addrAdd a 4 = a + 4 := rfl

theorem badTarget_reprem {slot : Slot} {reg : Bool} {a : Addr} {t : TrapInfo} (h : badTarget slot reg a = some t) : t.reprem = 0 := by
  unfold badTarget at h; split at h
  · cases h
  · cases h; cases reg <;> rfl
theorem branch_meets {g : BitVec 4} {n : BitVec 1} {o : List Nat} {s : State} {sh : Sheaf} {op : Slot → Op} (hr : Ready s sh)
   (register : Bool) (take : Sheaf → Bool) (target : Slot → Sheaf → Addr) (hta : take sh.begun = take sh) (htt : target (s.here sh g.toNat n.toNat) sh.begun = target (s.here sh g.toNat n.toNat) sh)
   (hop : op (s.here sh g.toNat n.toNat) = { ok := true, uses := o, also := [], writes := [], body := fun slot sh s => if take sh then transfer slot s register (target slot sh) else .next s }) :
   FlowMeets (.branch g n register take target) formCt op s sh := by
  refine ⟨fun h => (by cases h), rfl, rfl, ?_, ?_, ?_, ?_, hr.noend, rfl, rfl, rfl, ?_⟩
  · simp only [FlowRule.branch, hop]
  · intro _; simp only [FlowRule.branch, hop]
  · simp only [FlowRule.branch, hop]
  · intro _
    simp only [FlowRule.branch, hop, hta, htt, transfer, badTarget, targetOk_eq]
    cases take sh
    · rfl
    · simp only [if_true]
      cases reachableTarget (target (s.here sh g.toNat n.toNat) sh)
      · cases register <;> rfl
      · rfl
  · intro t h
    simp only [FlowRule.branch] at h
    split at h
    · exact badTarget_reprem h
    · cases h
end Sys2Proof.Machine
end

