-- ==== Sys2Proof/Laws/Machine.lean ====
section
/-!
SUPPORT. From the body of an instruction that reaches beyond its sheaf to what its rule says.
-/
namespace Sys2Proof.Machine

/-- What a body must be for a machine rule to hold of it. -/
structure Does (r : MachineRule) (f : Form) (op : Slot → Op) (s : State) (sh : Sheaf) : Prop where
  wide   : f.wide = true → r.wide = true
  role   : f.role = r.role
  always : f.always = false
  ok     : (op (s.here sh r.g.toNat r.n.toNat)).ok = true
  legal  : (op (s.here sh r.g.toNat r.n.toNat)).legal sh.begun (s.begun sh) = true
  writes : (op (s.here sh r.g.toNat r.n.toNat)).writes = r.writes
  body   : r.goes (s.begun sh) (s.here sh r.g.toNat r.n.toNat) sh.begun →
    (op (s.here sh r.g.toNat r.n.toNat)).body (s.here sh r.g.toNat r.n.toNat) sh.begun (s.begun sh) =
      .next (r.after (s.begun sh) (s.here sh r.g.toNat r.n.toNat) sh.begun)

/-- A machine rule of an instruction follows from its body. -/
theorem holds_of_body {i : Instr} {f : Form} {op : Slot → Op} {r : MachineRule} {s : State} {sh : Sheaf} (hx : exec i s = issued f r.g r.n op s)
    (hr : Ready s sh) (hpx : f.prefixesOk s.slot = true) (hg : guardOk r.g.toNat r.n.toNat = true) (hrole : r.role.issues sh.role = true)
    (hw : r.wide = true → Wide s sh r.g.toNat r.n.toNat) (hd : Does r f op s sh) : r.Holds i s sh := by
  have hrole' : f.role.issues sh.role = true := by rw [hd.role]; exact hrole
  have hw' : f.wide = true → s.slot.lanes = sh.live ∧ (f.liveOnly = true ∨ guardUniform (s.here sh r.g.toNat r.n.toNat) = true) :=
    fun h => ⟨(hw (hd.wide h)).converged, Or.inr (hw (hd.wide h)).uniform⟩
  constructor
  · intro ha
    unfold Ends
    rw [hx]
    exact idle_ends hr hpx hg hrole' hw' hd.ok hd.legal ha hd.always
  · intro ha hgo
    have h0 : ((s.here sh r.g.toNat r.n.toNat).acting == 0 && !f.always) = false := by rw [beq_eq_false_iff_ne.mpr ha]; rfl
    rw [hx]
    show Host.Outcome.next _ = _
    rw [issue_ready hr hpx hg hrole' hw' hd.ok hd.legal]
    have hphys : sh.begun.phys = sh.phys := rfl
    simp only [actOf, h0, Bool.false_eq_true, if_false, hd.body hgo, hd.writes]
    by_cases hn : r.writes = []
    · simp only [hn, List.isEmpty_nil, if_true, endAct, State.over, State.notes, List.map_nil]
    · have h1 : r.writes.isEmpty = false := by cases h : r.writes with
        | nil => exact absurd h hn
        | cons _ _ => rfl
      have h2 : r.writes.map sh.phys ≠ [] := by simpa using hn
      simp only [h1, Bool.false_eq_true, if_false, Act.noteWrites, endAct, State.over, State.notes, h2, State.here_sid, hphys]
      rfl

end Sys2Proof.Machine
end

