-- ==== Sys2Proof/Laws/Acts.lean ====
section
/-!
SUPPORT. From the body of an instruction that may wait, trap or leave lanes behind to what its rule says.
-/
namespace Sys2Proof.Machine

/-- What a body must be for an act rule to hold of it. -/
structure EndsIn (r : ActRule) (f : Form) (op : Slot → Op) (s : State) (sh : Sheaf) : Prop where
  wide   : f.wide = true → r.wide = true
  lone   : r.lone = f.liveOnly
  always : f.always = r.lone
  role   : f.role = r.role
  ok     : (op (s.here sh r.g.toNat r.n.toNat)).ok = true
  legal  : (op (s.here sh r.g.toNat r.n.toNat)).legal sh.begun (s.begun sh) = true
  writes : (op (s.here sh r.g.toNat r.n.toNat)).writes = r.writes
  body   : ∀ a, r.outcome (s.begun sh) (s.here sh r.g.toNat r.n.toNat) sh.begun = some a →
    (op (s.here sh r.g.toNat r.n.toNat)).body (s.here sh r.g.toNat r.n.toNat) sh.begun (s.begun sh) = a

/-- An act rule of an instruction follows from its body. -/
theorem act_of_body {i : Instr} {f : Form} {op : Slot → Op} {r : ActRule} {s : State} {sh : Sheaf} (hx : exec i s = issued f r.g r.n op s)
    (hr : Ready s sh) (hpx : f.prefixesOk s.slot = true) (hg : guardOk r.g.toNat r.n.toNat = true) (hrole : r.role.issues sh.role = true)
    (hw : r.wide = true → s.slot.lanes = sh.live ∧ (r.lone = true ∨ guardUniform (s.here sh r.g.toNat r.n.toNat) = true))
    (hd : EndsIn r f op s sh) :
    ((s.here sh r.g.toNat r.n.toNat).acting = 0 → r.lone = false → Ends i s s sh sh) ∧
    (∀ a, ((s.here sh r.g.toNat r.n.toNat).acting ≠ 0 ∨ r.lone = true) → r.outcome (s.begun sh) (s.here sh r.g.toNat r.n.toNat) sh.begun = some a →
      exec i s = .next (endAct (s.here sh r.g.toNat r.n.toNat) (s.began sh) (r.noted s.slot.sid sh a)).settle) := by
  have hrole' : f.role.issues sh.role = true := by rw [hd.role]; exact hrole
  have hw' : f.wide = true → s.slot.lanes = sh.live ∧ (f.liveOnly = true ∨ guardUniform (s.here sh r.g.toNat r.n.toNat) = true) := by
    intro h; rw [← hd.lone]; exact hw (hd.wide h)
  constructor
  · intro ha hl
    unfold Ends
    rw [hx]
    exact idle_ends hr hpx hg hrole' hw' hd.ok hd.legal ha (hd.always.trans hl)
  · intro a ha ho
    have h0 : ((s.here sh r.g.toNat r.n.toNat).acting == 0 && !f.always) = false := by
      rcases ha with h | h
      · rw [beq_eq_false_iff_ne.mpr h]; rfl
      · rw [hd.always, h]; simp
    rw [hx]
    show Host.Outcome.next _ = _
    rw [issue_ready hr hpx hg hrole' hw' hd.ok hd.legal]
    have hphys : sh.begun.phys = sh.phys := rfl
    simp only [actOf, h0, Bool.false_eq_true, if_false, hd.body a ho, hd.writes]
    by_cases hn : r.writes = []
    · simp only [ActRule.noted, hn, List.isEmpty_nil, if_true]
    · have h1 : r.writes.isEmpty = false := by cases h : r.writes with
        | nil => exact absurd h hn
        | cons _ _ => rfl
      simp only [ActRule.noted, h1, hn, Bool.false_eq_true, if_false, hphys, State.here_sid]

end Sys2Proof.Machine
end

