-- ==== Sys2Proof/Laws/Fetch.lean ====
section
/-!
SUPPORT. The step runs what the decoder reads: the machine's choice by major agrees with the decoder on every word.
-/
namespace Sys2Proof.Machine

/-- What a word that may hold an instruction runs. -/
def ranAs (w : Nat) (o : Option Instr) (s : State) : Host.Outcome State Fault Refusal :=
  match o with
  | some i => exec i s
  | none => execUnassignedEncoding (BitVec.ofNat 32 w) s

theorem runMaj38_eq (w : Nat) (s : State) : runMaj38 w s = ranAs w (decodeMaj38 w) s := by
  unfold runMaj38 decodeMaj38; generalize w / 2 ^ 11 % 16 = k; split <;> first | rfl | (split <;> rfl) | (split <;> first | rfl | simp_all)
theorem runMaj39_eq (w : Nat) (s : State) : runMaj39 w s = ranAs w (decodeMaj39 w) s := by
  unfold runMaj39 decodeMaj39; generalize w / 2 ^ 0 % 32 = k; split <;> first | rfl | (split <;> rfl) | (split <;> first | rfl | simp_all)
theorem runMaj3A_eq (w : Nat) (s : State) : runMaj3A w s = ranAs w (decodeMaj3A w) s := by
  unfold runMaj3A decodeMaj3A; generalize w / 2 ^ 12 % 32 = k; split <;> first | rfl | (split <;> rfl) | (split <;> first | rfl | simp_all)
theorem runMaj3B_eq (w : Nat) (s : State) : runMaj3B w s = ranAs w (decodeMaj3B w) s := by
  unfold runMaj3B decodeMaj3B; generalize w / 2 ^ 16 % 32 = k; split <;> first | rfl | (split <;> rfl) | (split <;> first | rfl | simp_all)
theorem runMaj3C_eq (w : Nat) (s : State) : runMaj3C w s = ranAs w (decodeMaj3C w) s := by
  unfold runMaj3C decodeMaj3C; generalize w / 2 ^ 16 % 32 = k; split <;> first | rfl | (split <;> rfl) | (split <;> first | rfl | simp_all)
theorem runMaj3D_eq (w : Nat) (s : State) : runMaj3D w s = ranAs w (decodeMaj3D w) s := by
  unfold runMaj3D decodeMaj3D; generalize w / 2 ^ 11 % 16 = k; split <;> first | rfl | (split <;> rfl) | (split <;> first | rfl | simp_all)
theorem runMaj3E_eq (w : Nat) (s : State) : runMaj3E w s = ranAs w (decodeMaj3E w) s := by
  unfold runMaj3E decodeMaj3E; generalize w / 2 ^ 16 % 32 = k; split <;> first | rfl | (split <;> rfl) | (split <;> first | rfl | simp_all)
theorem runMaj3F_eq (w : Nat) (s : State) : runMaj3F w s = ranAs w (decodeMaj3F w) s := by
  unfold runMaj3F decodeMaj3F; generalize w / 2 ^ 19 % 4 = k; split <;> first | rfl | (split <;> rfl) | (split <;> first | rfl | simp_all)

/-- A word runs as what the decoder reads from it. -/
theorem run_eq_decode (w : Word) (s : State) : runWord w s = ranAs w.toNat (decode w) s := by
  unfold runWord decode decodeNat
  generalize w.toNat / 2 ^ 26 % 64 = k
  split
  · exact runMaj38_eq ..
  · exact runMaj39_eq ..
  · exact runMaj3A_eq ..
  · exact runMaj3B_eq ..
  · exact runMaj3C_eq ..
  · exact runMaj3D_eq ..
  · exact runMaj3E_eq ..
  · exact runMaj3F_eq ..
  · next h1 h2 h3 h4 h5 h6 h7 h8 =>
    have hl : ∀ o : Option Instr, (match o with | some i => exec i s | none => execUnassignedEncoding (BitVec.ofNat 32 w.toNat) s) = ranAs w.toNat o s := by
      intro o; cases o <;> rfl
    refine (hl (decodeLow w.toNat)).trans (congrArg (fun o => ranAs w.toNat o s) ?_)
    first | rfl | (split <;> first | rfl | (exfalso; first | exact h1 rfl | exact h2 rfl | exact h3 rfl | exact h4 rfl | exact h5 rfl | exact h6 rfl | exact h7 rfl | exact h8 rfl))

end Sys2Proof.Machine
end

