-- ==== Sys2Proof/Laws/Flight.lean ====
section
/-!
SUPPORT. Results that come in: what a delivery writes, lane by lane.
-/
namespace Sys2Proof.Machine

/-- The lanes of a list over all lanes, one by one. -/
theorem laneNumbers_getD (f : Nat → Word) {l : Nat} (h : l < 32) : (laneNumbers.map f).getD l 0 = f l := by
  have e : laneNumbers = List.range 32 := by decide
  simp [e, List.getD_eq_getElem?_getD, List.getElem?_map, List.getElem?_range h]

/-- A write of a physical register, lane by lane. -/
theorem Sheaf.writePhys_lane (sh : Sheaf) (r : Nat) (lanes : Mask) (whole : Bool) (f : Nat → Word) (mark : Mark) (x : Nat) {l : Nat} (h : l < 32) :
    ((sh.writePhys r lanes whole f mark).vregs.getD x VReg.zero).lanes.getD l 0 =
      if x = r then (if hasLane lanes l then f l else (sh.vregs.getD x VReg.zero).lanes.getD l 0) else (sh.vregs.getD x VReg.zero).lanes.getD l 0 := by
  unfold Sheaf.writePhys
  by_cases e : x = r
  · subst e; simp only [Map.getD_put, if_true, laneNumbers_getD _ h]
  · simp [Map.getD_put, e]

@[simp] theorem Sheaf.setPend_pend (sh : Sheaf) (p : Pending) : (sh.setPend p).pend = sh.pend.map (fun q => if q.id == p.id then p else q) := rfl

/-- A uniform write, register by register. -/
theorem Sheaf.writeU_readU (sh : Sheaf) (r : Nat) (v : Word) (mark : Mark) (x : Nat) : (sh.writeU r v mark).readU x = if x = r then v else sh.readU x := by
  unfold Sheaf.writeU Sheaf.readU Sheaf.ureg
  by_cases e : x = r <;> simp [Map.getD_put, e]

/-- A run over the places of a list that touches one register at each, as far as it has come. -/
theorem foldl_at {α : Type} (P : Sheaf → Nat → α) (f : Sheaf → Nat → Sheaf) (g : Nat → Nat → α → α) (regs : List Nat) (sh : Sheaf)
    (hf : ∀ x i r, P (f x i) r = if r = regs.getD i 0 then g i r (P x r) else P x r) (hn : regs.Nodup) (n : Nat) (hl : n ≤ regs.length) :
    (∀ i r, i < n → regs[i]? = some r → P ((List.range n).foldl f sh) r = g i r (P sh r)) ∧
    (∀ r, (∀ i, i < n → regs[i]? ≠ some r) → P ((List.range n).foldl f sh) r = P sh r) := by
  induction n with
  | zero => exact ⟨fun i r h => absurd h (Nat.not_lt_zero i), fun r _ => rfl⟩
  | succ n ih =>
    obtain ⟨ha, hb⟩ := ih (Nat.le_of_succ_le hl)
    have hr : regs[n]? = some (regs.getD n 0) := by
      simp [List.getD_eq_getElem?_getD, List.getElem?_eq_getElem (Nat.lt_of_succ_le hl)]
    have apart : ∀ i r, regs[i]? = some r → regs[n]? = some r → i = n := fun i r h1 h2 =>
      (List.nodup_iff_getElem?_ne_getElem?.mp hn |> fun k => by
        rcases Nat.lt_trichotomy i n with h | h | h
        · exact absurd (h1.trans h2.symm) (k i n h (Nat.lt_of_succ_le hl))
        · exact h
        · exact absurd (h2.trans h1.symm) (k n i h (by
            have := List.getElem?_eq_some_iff.mp h1
            exact this.1)))
    rw [List.range_succ, List.foldl_append]
    simp only [List.foldl_cons, List.foldl_nil]
    refine ⟨fun i r h h1 => ?_, fun r h => ?_⟩
    · rw [hf]
      by_cases e : r = regs.getD n 0
      · have : i = n := apart i r h1 (hr.trans (congrArg some e.symm))
        subst this
        rw [if_pos e, hb r (fun j hj hjr => absurd (apart j r hjr h1) (Nat.ne_of_lt hj))]
      · rw [if_neg e]
        refine ha i r (Nat.lt_of_le_of_ne (Nat.le_of_lt_succ h) (fun c => e ?_)) h1
        subst c
        exact Option.some.inj (h1.symm.trans hr)
    · rw [hf, if_neg (fun e => h n (Nat.lt_succ_self n) (hr.trans (congrArg some e.symm))), hb r (fun i hi => h i (Nat.lt_succ_of_lt hi))]

/-- A delivery takes its lanes (R98, R157). -/
theorem Sheaf.took_deliver (sh : Sheaf) (p : Pending) (lanes : Mask) (hn : p.regs.Nodup) : sh.took (sh.deliver p lanes) p lanes p.wordOf := by
  have hv : ∀ (x : Sheaf), ((x.deliver p lanes).vregs, (x.deliver p lanes).uregs) =
      ((if p.lanes == 0 then x else (List.range p.regs.length).foldl (fun sh i =>
        if p.varying then sh.writePhys (p.regs.getD i 0) (lanes &&& p.lanes) (p.whole && (p.lanes &&& ~~~(lanes &&& p.lanes)) == 0) (fun l => p.wordOf l i) p.mark
        else sh.writeU (p.regs.getD i 0) (p.wordOf 0 i) p.mark) x).vregs,
       (if p.lanes == 0 then x else (List.range p.regs.length).foldl (fun sh i =>
        if p.varying then sh.writePhys (p.regs.getD i 0) (lanes &&& p.lanes) (p.whole && (p.lanes &&& ~~~(lanes &&& p.lanes)) == 0) (fun l => p.wordOf l i) p.mark
        else sh.writeU (p.regs.getD i 0) (p.wordOf 0 i) p.mark) x).uregs) := by
    intro x
    unfold Sheaf.deliver
    dsimp only
    split <;> rfl
  have hv1 := congrArg Prod.fst (hv sh)
  have hv2 := congrArg Prod.snd (hv sh)
  dsimp only at hv1 hv2
  refine ⟨fun hp i r hr l hl => ?_, fun hp hz i r hr => ?_, fun q hq => ?_⟩
  · rw [hv1]
    by_cases z : p.lanes = 0
    · simp [z, hasLane]
    · simp only [hp, if_true, beq_iff_eq, z, if_false]
      have k := (foldl_at (fun x r => (x.vregs.getD r VReg.zero).lanes.getD l 0) (fun x i => x.writePhys (p.regs.getD i 0) (lanes &&& p.lanes) (p.whole && (p.lanes &&& ~~~(lanes &&& p.lanes)) == 0) (fun l => p.wordOf l i) p.mark)
        (fun i _ old => if hasLane (lanes &&& p.lanes) l then p.wordOf l i else old) p.regs sh
        (fun x j y => Sheaf.writePhys_lane x _ _ _ _ _ y hl) hn p.regs.length (Nat.le_refl _)).1 i r ((List.getElem?_eq_some_iff.mp hr).1) hr
      exact k
  · have e : (sh.deliver p lanes).readU r = _ := congrArg (fun m : Map UReg => (m.getD r UReg.zero).val) hv2
    rw [e]
    simp only [hp, beq_iff_eq, hz, if_false, Bool.false_eq_true]
    exact (foldl_at (fun x r => x.readU r) (fun x i => x.writeU (p.regs.getD i 0) (p.wordOf 0 i) p.mark) (fun i _ _ => p.wordOf 0 i) p.regs sh (fun x j y => Sheaf.writeU_readU x _ _ _ y) hn p.regs.length (Nat.le_refl _)).1 i r
      ((List.getElem?_eq_some_iff.mp hr).1) hr
  · have hid : ∀ (xs : List Pending) (x : Pending), x.id = p.id → (xs.map (fun q => if q.id == p.id then x else q)).find? (fun q => q.id == p.id) = some q → q = x := by
      intro xs x hx
      induction xs with
      | nil => simp
      | cons y ys ih =>
        by_cases c : y.id = p.id
        · simp only [List.map_cons, c, beq_self_eq_true, if_true, List.find?_cons_eq_some, hx]
          rintro (⟨-, h⟩ | ⟨h, -⟩)
          · exact h.symm
          · simp at h
        · rw [List.map_cons, if_neg (by simpa using c), List.find?_cons_eq_some]
          rintro (⟨h, -⟩ | ⟨-, h⟩)
          · exact absurd (by simpa using h) c
          · exact ih h
    unfold Sheaf.deliver at hq
    dsimp only at hq
    split at hq
    · exfalso
      have := List.find?_some hq
      have hm := List.mem_of_find?_eq_some hq
      simp only [List.mem_filter, bne_iff_ne, beq_iff_eq] at hm this
      exact hm.2 this
    · have := hid _ { p with lanes := p.lanes &&& ~~~(lanes &&& p.lanes) } rfl hq
      rw [this]

end Sys2Proof.Machine
end

