-- ==== Sys2Proof/Laws/Memory.lean ====
section
/-!
SUPPORT. Memory: what a byte reads as after a write, and that every operation on memory keeps its canonical form.
-/
namespace Sys2Proof.Machine

/-! ## One byte -/

/-- A byte after a write. -/
theorem memGet_memPut (m : List Host.Cell) (a c : Nat) (b : Byte) : memGet (memPut m a b) c = if c = a then b else memGet m c := by
  unfold memGet memPut
  split
  · next hb =>
    subst hb
    split
    · next h => subst h; simp [Map.getD]
    · next h => simp [Map.getD, Map.find?_drop_ne _ h]
  · exact Map.getD_put ..

@[simp] theorem memGet_memPut_self (m : List Host.Cell) (a : Nat) (b : Byte) : memGet (memPut m a b) a = b := by simp [memGet_memPut]

theorem memGet_memPut_ne (m : List Host.Cell) {a c : Nat} (b : Byte) (h : c ≠ a) : memGet (memPut m a b) c = memGet m c := by
  simp [memGet_memPut, h]

/-! ## The canonical form -/

/-- The canonical form, said of the whole list. -/
theorem memWf_iff (m : List Host.Cell) : memWf m = true ↔ m.Pairwise (fun x y => x.1 < y.1) ∧ ∀ e ∈ m, e.2 ≠ memDefault := by
  induction m with
  | nil => simp [memWf]
  | cons e m ih =>
    obtain ⟨a, b⟩ := e
    cases m with
    | nil => simp [memWf]
    | cons e' m =>
      obtain ⟨a', b'⟩ := e'
      rw [memWf, Bool.and_eq_true, Bool.and_eq_true, ih, decide_eq_true_eq, bne_iff_ne]
      constructor
      · rintro ⟨⟨hb, ha⟩, hp, hd⟩
        refine ⟨List.pairwise_cons.mpr ⟨?_, hp⟩, ?_⟩
        · intro x hx
          rcases List.mem_cons.mp hx with rfl | hx
          · exact ha
          · exact lt_trans ha ((List.pairwise_cons.mp hp).1 x hx)
        · intro x hx
          rcases List.mem_cons.mp hx with rfl | hx
          · exact hb
          · exact hd x hx
      · rintro ⟨hp, hd⟩
        exact ⟨⟨hd (a, b) (by simp), (List.pairwise_cons.mp hp).1 (a', b') (by simp)⟩, (List.pairwise_cons.mp hp).2,
          fun x hx => hd x (List.mem_cons_of_mem _ hx)⟩

/-- Rising keys stay rising. -/
theorem Map.put_pairwise {α : Type} (m : Map α) (k : Nat) (v : α) (h : m.Pairwise (fun x y => x.1 < y.1)) :
    (Map.put m k v).Pairwise (fun x y => x.1 < y.1) ∧ ∀ e ∈ Map.put m k v, e = (k, v) ∨ e ∈ m := by
  induction m with
  | nil => simp [Map.put]
  | cons e m ih =>
    obtain ⟨a, b⟩ := e
    have hm := List.pairwise_cons.mp h
    have hi := ih hm.2
    simp only [Map.put]
    split
    · next hk =>
      subst hk
      exact ⟨List.pairwise_cons.mpr ⟨hm.1, hm.2⟩, by intro x hx; rcases List.mem_cons.mp hx with rfl | hx <;> simp_all⟩
    · split
      · next hlt =>
        refine ⟨List.pairwise_cons.mpr ⟨?_, h⟩, by intro x hx; rcases List.mem_cons.mp hx with rfl | hx <;> simp_all⟩
        intro x hx
        rcases List.mem_cons.mp hx with rfl | hx
        · exact hlt
        · exact lt_trans hlt (hm.1 x hx)
      · next hne hlt =>
        refine ⟨List.pairwise_cons.mpr ⟨?_, hi.1⟩, ?_⟩
        · intro x hx
          rcases hi.2 x hx with rfl | hx
          · exact lt_of_le_of_ne (not_lt.mp hlt) hne
          · exact hm.1 x hx
        · intro x hx
          rcases List.mem_cons.mp hx with rfl | hx
          · simp
          · rcases hi.2 x hx with rfl | hx <;> simp_all

/-- A written byte keeps the canonical form. -/
theorem memPut_wf {m : List Host.Cell} (h : memWf m = true) (a : Nat) (b : Byte) : memWf (memPut m a b) = true := by
  rw [memWf_iff] at h ⊢
  unfold memPut
  split
  · exact ⟨h.1.filter _, fun e he => h.2 e (List.mem_filter.mp he).1⟩
  · next hb =>
    refine ⟨(Map.put_pairwise m a b h.1).1, fun e he => ?_⟩
    rcases (Map.put_pairwise m a b h.1).2 e he with rfl | he
    · exact hb
    · exact h.2 e he

/-- What is left of canonical memory is canonical. -/
theorem memWf_filter {m : List Host.Cell} (h : memWf m = true) (p : Host.Cell → Bool) : memWf (m.filter p) = true := by
  rw [memWf_iff] at h ⊢
  exact ⟨h.1.filter _, fun e he => h.2 e (List.mem_filter.mp he).1⟩

/-- Many written bytes keep it. -/
theorem foldl_memPut_wf {α : Type} (xs : List α) (f : α → Nat) (g : α → Byte) {m : List Host.Cell} (h : memWf m = true) :
    memWf (xs.foldl (fun m i => memPut m (f i) (g i)) m) = true := by
  induction xs generalizing m with
  | nil => exact h
  | cons x xs ih => exact ih (memPut_wf h _ _)

/-- What an operation over a list keeps, if each round keeps it. -/
theorem State.forEach_keeps {α : Type} (P : State → Prop) (xs : List α) (f : State → α → State) (hf : ∀ s x, P s → P (f s x)) {s : State} (h : P s) :
    P (s.forEach xs f) := by
  induction xs generalizing s with
  | nil => exact h
  | cons x xs ih => exact ih (hf _ _ h)

/-! ## The operations on memory -/

/-- A sector under a new key. -/
theorem State.rekeySector_wf {s : State} (h : memWf s.mem = true) (key n : Nat) : memWf (s.rekeySector key n).mem = true := by
  unfold State.rekeySector
  split
  · exact h
  · exact foldl_memPut_wf _ _ _ h

/-- One byte. -/
theorem State.putByte_wf {s : State} (h : memWf s.mem = true) (key a : Nat) (b : Byte) : memWf (s.putByte key a b).mem = true :=
  memPut_wf (State.rekeySector_wf h _ _) _ _

/-- Poison that goes touches no byte. -/
@[simp] theorem State.clearPoison_mem (s : State) (bs : Map Byte) (a : Nat) : (s.clearPoison bs a).mem = s.mem := by
  unfold State.clearPoison; split <;> rfl

/-- What stands in the slice caches is no byte of memory. -/
@[simp] theorem State.cacheSectors_mem (s : State) (w : Bool) (ns : List Nat) : (s.cacheSectors w ns).mem = s.mem := rfl
@[simp] theorem State.cacheWrite_mem (s : State) (bs : Map Byte) (a : Nat) : (s.cacheWrite bs a).mem = s.mem := rfl
@[simp] theorem State.cacheRead_mem (s : State) (a n : Nat) : (s.cacheRead a n).mem = s.mem := rfl

/-- Some bytes. -/
theorem State.putBytes_wf {s : State} (h : memWf s.mem = true) (key a : Nat) (bs : Map Byte) : memWf (s.putBytes key a bs).mem = true := by
  rw [State.putBytes, State.cacheWrite_mem, State.clearPoison_mem]
  exact State.forEach_keeps (fun s => memWf s.mem = true) _ _ (fun _ _ h => State.putByte_wf h _ _ _) h

/-- Bytes in the clear. -/
theorem State.putClear_wf {s : State} (h : memWf s.mem = true) (a : Nat) (bs : List Byte) : memWf (s.putClear a bs).mem = true :=
  State.putBytes_wf h _ _ _

/-- A package wiped. -/
theorem State.wipePackage_wf {s : State} (h : memWf s.mem = true) (pkg step : Nat) : memWf (s.wipePackage pkg step).mem = true := memWf_filter h _

/-- Sectors that move to other keys (R302). -/
theorem State.moveMemory_wf {s : State} (h : memWf s.mem = true) (f : Nat → Option Nat) : memWf (s.moveMemory f).mem = true := by
  have step : ∀ (cs : List (Nat × List Byte)) (m : List Host.Cell), memWf m = true →
      memWf (cs.foldl (fun m c => (List.range 32).foldl (fun m i => memPut m (c.1 + i) (c.2.getD i 0)) m) m) = true := by
    intro cs
    induction cs with
    | nil => exact fun _ hm => hm
    | cons c cs ih => exact fun m hm => ih _ (foldl_memPut_wf _ _ _ hm)
  exact step _ _ (memWf_filter h _)

/-- A child-table entry's write keeps the form. -/
theorem State.noteChild_wf {s : State} (h : memWf s.mem = true) (part ctx id : Nat) : memWf (s.noteChild part ctx id).mem = true := by
  unfold State.noteChild
  dsimp only
  split
  · exact State.putClear_wf (s := { s with freeCount := s.freeCount + 1 }) h _ _
  · exact h

/-- The zeroing of a child table keeps the form. -/
theorem State.zeroChildren_wf {s : State} (h : memWf s.mem = true) (part ctx : Nat) : memWf (s.zeroChildren part ctx).mem = true := memWf_filter h _

/-- Memory at reset. -/
theorem memWf_reset : memWf State.reset.mem = true := rfl

end Sys2Proof.Machine
end

