-- ==== Sys2Proof/Laws/PerInstr.lean ====
section
/-!
SUPPORT. The word of every instruction fits the 32 bits of R83: one lemma for each constructor.
-/
namespace Sys2Proof.Laws.Encoding

/-- The word that the encoder gives a well-formed instruction has 32 bits (R83). -/
def Statement (i : Instr) : Prop := ∀ w, i.wf = true → encodeNat i = some w → w < 2 ^ 32

/-- A word given out is bounded, if the sum it is written as is. -/
theorem fits {i : Instr} {v : Nat} (h : encodeNat i = some v) (hv : v < 2 ^ 32) : Statement i := by
  intro w _ hw
  rw [h] at hw
  cases hw
  exact hv

/-- A happening has no word. -/
theorem none_fits {i : Instr} (h : encodeNat i = none) : Statement i := by
  intro w _ hw
  rw [h] at hw
  cases hw

theorem vadd (g : BitVec 4) (n : BitVec 1) (d a : BitVec 5) (b : BitVec 8) : Statement (.vadd g n d a b) := fits rfl (by have := g.isLt; have := n.isLt; have := d.isLt; have := a.isLt; have := b.isLt; omega)
theorem vsub (g : BitVec 4) (n : BitVec 1) (d a : BitVec 5) (b : BitVec 8) : Statement (.vsub g n d a b) := fits rfl (by have := g.isLt; have := n.isLt; have := d.isLt; have := a.isLt; have := b.isLt; omega)
theorem vsubr (g : BitVec 4) (n : BitVec 1) (d a : BitVec 5) (b : BitVec 8) : Statement (.vsubr g n d a b) := fits rfl (by have := g.isLt; have := n.isLt; have := d.isLt; have := a.isLt; have := b.isLt; omega)
theorem vminS (g : BitVec 4) (n : BitVec 1) (d a : BitVec 5) (b : BitVec 8) : Statement (.vminS g n d a b) := fits rfl (by have := g.isLt; have := n.isLt; have := d.isLt; have := a.isLt; have := b.isLt; omega)
theorem vmaxS (g : BitVec 4) (n : BitVec 1) (d a : BitVec 5) (b : BitVec 8) : Statement (.vmaxS g n d a b) := fits rfl (by have := g.isLt; have := n.isLt; have := d.isLt; have := a.isLt; have := b.isLt; omega)
theorem vminU (g : BitVec 4) (n : BitVec 1) (d a : BitVec 5) (b : BitVec 8) : Statement (.vminU g n d a b) := fits rfl (by have := g.isLt; have := n.isLt; have := d.isLt; have := a.isLt; have := b.isLt; omega)
theorem vmaxU (g : BitVec 4) (n : BitVec 1) (d a : BitVec 5) (b : BitVec 8) : Statement (.vmaxU g n d a b) := fits rfl (by have := g.isLt; have := n.isLt; have := d.isLt; have := a.isLt; have := b.isLt; omega)
theorem vadifS (g : BitVec 4) (n : BitVec 1) (d a : BitVec 5) (b : BitVec 8) : Statement (.vadifS g n d a b) := fits rfl (by have := g.isLt; have := n.isLt; have := d.isLt; have := a.isLt; have := b.isLt; omega)
theorem vand (g : BitVec 4) (n : BitVec 1) (d a : BitVec 5) (b : BitVec 8) : Statement (.vand g n d a b) := fits rfl (by have := g.isLt; have := n.isLt; have := d.isLt; have := a.isLt; have := b.isLt; omega)
theorem vor (g : BitVec 4) (n : BitVec 1) (d a : BitVec 5) (b : BitVec 8) : Statement (.vor g n d a b) := fits rfl (by have := g.isLt; have := n.isLt; have := d.isLt; have := a.isLt; have := b.isLt; omega)
theorem vxor (g : BitVec 4) (n : BitVec 1) (d a : BitVec 5) (b : BitVec 8) : Statement (.vxor g n d a b) := fits rfl (by have := g.isLt; have := n.isLt; have := d.isLt; have := a.isLt; have := b.isLt; omega)
theorem vandn (g : BitVec 4) (n : BitVec 1) (d a : BitVec 5) (b : BitVec 8) : Statement (.vandn g n d a b) := fits rfl (by have := g.isLt; have := n.isLt; have := d.isLt; have := a.isLt; have := b.isLt; omega)
theorem vshl (g : BitVec 4) (n : BitVec 1) (d a : BitVec 5) (b : BitVec 8) : Statement (.vshl g n d a b) := fits rfl (by have := g.isLt; have := n.isLt; have := d.isLt; have := a.isLt; have := b.isLt; omega)
theorem vshrU (g : BitVec 4) (n : BitVec 1) (d a : BitVec 5) (b : BitVec 8) : Statement (.vshrU g n d a b) := fits rfl (by have := g.isLt; have := n.isLt; have := d.isLt; have := a.isLt; have := b.isLt; omega)
theorem vshrS (g : BitVec 4) (n : BitVec 1) (d a : BitVec 5) (b : BitVec 8) : Statement (.vshrS g n d a b) := fits rfl (by have := g.isLt; have := n.isLt; have := d.isLt; have := a.isLt; have := b.isLt; omega)
theorem vrotl (g : BitVec 4) (n : BitVec 1) (d a : BitVec 5) (b : BitVec 8) : Statement (.vrotl g n d a b) := fits rfl (by have := g.isLt; have := n.isLt; have := d.isLt; have := a.isLt; have := b.isLt; omega)
theorem vmul (g : BitVec 4) (n : BitVec 1) (d a : BitVec 5) (b : BitVec 8) : Statement (.vmul g n d a b) := fits rfl (by have := g.isLt; have := n.isLt; have := d.isLt; have := a.isLt; have := b.isLt; omega)
theorem vmulhS (g : BitVec 4) (n : BitVec 1) (d a : BitVec 5) (b : BitVec 8) : Statement (.vmulhS g n d a b) := fits rfl (by have := g.isLt; have := n.isLt; have := d.isLt; have := a.isLt; have := b.isLt; omega)
theorem vmulhU (g : BitVec 4) (n : BitVec 1) (d a : BitVec 5) (b : BitVec 8) : Statement (.vmulhU g n d a b) := fits rfl (by have := g.isLt; have := n.isLt; have := d.isLt; have := a.isLt; have := b.isLt; omega)
theorem vmad (g : BitVec 4) (n : BitVec 1) (d a : BitVec 5) (b : BitVec 8) : Statement (.vmad g n d a b) := fits rfl (by have := g.isLt; have := n.isLt; have := d.isLt; have := a.isLt; have := b.isLt; omega)
theorem vaddsS (g : BitVec 4) (n : BitVec 1) (d a : BitVec 5) (b : BitVec 8) : Statement (.vaddsS g n d a b) := fits rfl (by have := g.isLt; have := n.isLt; have := d.isLt; have := a.isLt; have := b.isLt; omega)
theorem vsubsS (g : BitVec 4) (n : BitVec 1) (d a : BitVec 5) (b : BitVec 8) : Statement (.vsubsS g n d a b) := fits rfl (by have := g.isLt; have := n.isLt; have := d.isLt; have := a.isLt; have := b.isLt; omega)
theorem vaddsU (g : BitVec 4) (n : BitVec 1) (d a : BitVec 5) (b : BitVec 8) : Statement (.vaddsU g n d a b) := fits rfl (by have := g.isLt; have := n.isLt; have := d.isLt; have := a.isLt; have := b.isLt; omega)
theorem vsubsU (g : BitVec 4) (n : BitVec 1) (d a : BitVec 5) (b : BitVec 8) : Statement (.vsubsU g n d a b) := fits rfl (by have := g.isLt; have := n.isLt; have := d.isLt; have := a.isLt; have := b.isLt; omega)
theorem vpopc (g : BitVec 4) (n : BitVec 1) (d : BitVec 5) (b : BitVec 8) : Statement (.vpopc g n d b) := fits rfl (by have := g.isLt; have := n.isLt; have := d.isLt; have := b.isLt; omega)
theorem vclz (g : BitVec 4) (n : BitVec 1) (d : BitVec 5) (b : BitVec 8) : Statement (.vclz g n d b) := fits rfl (by have := g.isLt; have := n.isLt; have := d.isLt; have := b.isLt; omega)
theorem vbrev (g : BitVec 4) (n : BitVec 1) (d : BitVec 5) (b : BitVec 8) : Statement (.vbrev g n d b) := fits rfl (by have := g.isLt; have := n.isLt; have := d.isLt; have := b.isLt; omega)
theorem vbfeU (g : BitVec 4) (n : BitVec 1) (d a : BitVec 5) (b : BitVec 8) : Statement (.vbfeU g n d a b) := fits rfl (by have := g.isLt; have := n.isLt; have := d.isLt; have := a.isLt; have := b.isLt; omega)
theorem vbfeS (g : BitVec 4) (n : BitVec 1) (d a : BitVec 5) (b : BitVec 8) : Statement (.vbfeS g n d a b) := fits rfl (by have := g.isLt; have := n.isLt; have := d.isLt; have := a.isLt; have := b.isLt; omega)
theorem vbfi (g : BitVec 4) (n : BitVec 1) (d a : BitVec 5) (b : BitVec 8) : Statement (.vbfi g n d a b) := fits rfl (by have := g.isLt; have := n.isLt; have := d.isLt; have := a.isLt; have := b.isLt; omega)
theorem vpermb (g : BitVec 4) (n : BitVec 1) (d a : BitVec 5) (b : BitVec 8) : Statement (.vpermb g n d a b) := fits rfl (by have := g.isLt; have := n.isLt; have := d.isLt; have := a.isLt; have := b.isLt; omega)
theorem vmov (g : BitVec 4) (n : BitVec 1) (d : BitVec 5) (b : BitVec 8) : Statement (.vmov g n d b) := fits rfl (by have := g.isLt; have := n.isLt; have := d.isLt; have := b.isLt; omega)
theorem vfadd (g : BitVec 4) (n : BitVec 1) (d a : BitVec 5) (b : BitVec 8) : Statement (.vfadd g n d a b) := fits rfl (by have := g.isLt; have := n.isLt; have := d.isLt; have := a.isLt; have := b.isLt; omega)
theorem vfsub (g : BitVec 4) (n : BitVec 1) (d a : BitVec 5) (b : BitVec 8) : Statement (.vfsub g n d a b) := fits rfl (by have := g.isLt; have := n.isLt; have := d.isLt; have := a.isLt; have := b.isLt; omega)
theorem vfmul (g : BitVec 4) (n : BitVec 1) (d a : BitVec 5) (b : BitVec 8) : Statement (.vfmul g n d a b) := fits rfl (by have := g.isLt; have := n.isLt; have := d.isLt; have := a.isLt; have := b.isLt; omega)
theorem vfma (g : BitVec 4) (n : BitVec 1) (d a : BitVec 5) (b : BitVec 8) : Statement (.vfma g n d a b) := fits rfl (by have := g.isLt; have := n.isLt; have := d.isLt; have := a.isLt; have := b.isLt; omega)
theorem vfnma (g : BitVec 4) (n : BitVec 1) (d a : BitVec 5) (b : BitVec 8) : Statement (.vfnma g n d a b) := fits rfl (by have := g.isLt; have := n.isLt; have := d.isLt; have := a.isLt; have := b.isLt; omega)
theorem vfmin (g : BitVec 4) (n : BitVec 1) (d a : BitVec 5) (b : BitVec 8) : Statement (.vfmin g n d a b) := fits rfl (by have := g.isLt; have := n.isLt; have := d.isLt; have := a.isLt; have := b.isLt; omega)
theorem vfmax (g : BitVec 4) (n : BitVec 1) (d a : BitVec 5) (b : BitVec 8) : Statement (.vfmax g n d a b) := fits rfl (by have := g.isLt; have := n.isLt; have := d.isLt; have := a.isLt; have := b.isLt; omega)
theorem vfcpys (g : BitVec 4) (n : BitVec 1) (d a : BitVec 5) (b : BitVec 8) : Statement (.vfcpys g n d a b) := fits rfl (by have := g.isLt; have := n.isLt; have := d.isLt; have := a.isLt; have := b.isLt; omega)
theorem vhadd2 (g : BitVec 4) (n : BitVec 1) (d a : BitVec 5) (b : BitVec 8) : Statement (.vhadd2 g n d a b) := fits rfl (by have := g.isLt; have := n.isLt; have := d.isLt; have := a.isLt; have := b.isLt; omega)
theorem vhsub2 (g : BitVec 4) (n : BitVec 1) (d a : BitVec 5) (b : BitVec 8) : Statement (.vhsub2 g n d a b) := fits rfl (by have := g.isLt; have := n.isLt; have := d.isLt; have := a.isLt; have := b.isLt; omega)
theorem vhmul2 (g : BitVec 4) (n : BitVec 1) (d a : BitVec 5) (b : BitVec 8) : Statement (.vhmul2 g n d a b) := fits rfl (by have := g.isLt; have := n.isLt; have := d.isLt; have := a.isLt; have := b.isLt; omega)
theorem vhfma2 (g : BitVec 4) (n : BitVec 1) (d a : BitVec 5) (b : BitVec 8) : Statement (.vhfma2 g n d a b) := fits rfl (by have := g.isLt; have := n.isLt; have := d.isLt; have := a.isLt; have := b.isLt; omega)
theorem vhmin2 (g : BitVec 4) (n : BitVec 1) (d a : BitVec 5) (b : BitVec 8) : Statement (.vhmin2 g n d a b) := fits rfl (by have := g.isLt; have := n.isLt; have := d.isLt; have := a.isLt; have := b.isLt; omega)
theorem vhmax2 (g : BitVec 4) (n : BitVec 1) (d a : BitVec 5) (b : BitVec 8) : Statement (.vhmax2 g n d a b) := fits rfl (by have := g.isLt; have := n.isLt; have := d.isLt; have := a.isLt; have := b.isLt; omega)
theorem vcvtF32Si32 (g : BitVec 4) (n : BitVec 1) (d : BitVec 5) (r : BitVec 2) (b : BitVec 8) : Statement (.vcvtF32Si32 g n d r b) := fits rfl (by have := g.isLt; have := n.isLt; have := d.isLt; have := r.isLt; have := b.isLt; omega)
theorem vcvtF32Ui32 (g : BitVec 4) (n : BitVec 1) (d : BitVec 5) (r : BitVec 2) (b : BitVec 8) : Statement (.vcvtF32Ui32 g n d r b) := fits rfl (by have := g.isLt; have := n.isLt; have := d.isLt; have := r.isLt; have := b.isLt; omega)
theorem vcvtSi32F32 (g : BitVec 4) (n : BitVec 1) (d : BitVec 5) (r : BitVec 2) (b : BitVec 8) : Statement (.vcvtSi32F32 g n d r b) := fits rfl (by have := g.isLt; have := n.isLt; have := d.isLt; have := r.isLt; have := b.isLt; omega)
theorem vcvtUi32F32 (g : BitVec 4) (n : BitVec 1) (d : BitVec 5) (r : BitVec 2) (b : BitVec 8) : Statement (.vcvtUi32F32 g n d r b) := fits rfl (by have := g.isLt; have := n.isLt; have := d.isLt; have := r.isLt; have := b.isLt; omega)
theorem vfrint (g : BitVec 4) (n : BitVec 1) (d : BitVec 5) (r : BitVec 2) (b : BitVec 8) : Statement (.vfrint g n d r b) := fits rfl (by have := g.isLt; have := n.isLt; have := d.isLt; have := r.isLt; have := b.isLt; omega)
theorem vcvtF32Bf16 (g : BitVec 4) (n : BitVec 1) (d : BitVec 5) (p : BitVec 2) (b : BitVec 8) : Statement (.vcvtF32Bf16 g n d p b) := fits rfl (by have := g.isLt; have := n.isLt; have := d.isLt; have := p.isLt; have := b.isLt; omega)
theorem vcvtF32E4m3 (g : BitVec 4) (n : BitVec 1) (d : BitVec 5) (p : BitVec 2) (b : BitVec 8) : Statement (.vcvtF32E4m3 g n d p b) := fits rfl (by have := g.isLt; have := n.isLt; have := d.isLt; have := p.isLt; have := b.isLt; omega)
theorem vcvtF32E5m2 (g : BitVec 4) (n : BitVec 1) (d : BitVec 5) (p : BitVec 2) (b : BitVec 8) : Statement (.vcvtF32E5m2 g n d p b) := fits rfl (by have := g.isLt; have := n.isLt; have := d.isLt; have := p.isLt; have := b.isLt; omega)
theorem vcvtBf16F32 (g : BitVec 4) (n : BitVec 1) (d : BitVec 5) (p : BitVec 2) (b : BitVec 8) : Statement (.vcvtBf16F32 g n d p b) := fits rfl (by have := g.isLt; have := n.isLt; have := d.isLt; have := p.isLt; have := b.isLt; omega)
theorem vcvtE4m3F32 (g : BitVec 4) (n : BitVec 1) (d : BitVec 5) (p : BitVec 2) (b : BitVec 8) : Statement (.vcvtE4m3F32 g n d p b) := fits rfl (by have := g.isLt; have := n.isLt; have := d.isLt; have := p.isLt; have := b.isLt; omega)
theorem vcvtE5m2F32 (g : BitVec 4) (n : BitVec 1) (d : BitVec 5) (p : BitVec 2) (b : BitVec 8) : Statement (.vcvtE5m2F32 g n d p b) := fits rfl (by have := g.isLt; have := n.isLt; have := d.isLt; have := p.isLt; have := b.isLt; omega)
theorem vfclass (g : BitVec 4) (n : BitVec 1) (d : BitVec 5) (b : BitVec 8) : Statement (.vfclass g n d b) := fits rfl (by have := g.isLt; have := n.isLt; have := d.isLt; have := b.isLt; omega)
theorem vfgetexp (g : BitVec 4) (n : BitVec 1) (d : BitVec 5) (b : BitVec 8) : Statement (.vfgetexp g n d b) := fits rfl (by have := g.isLt; have := n.isLt; have := d.isLt; have := b.isLt; omega)
theorem vfscaleb (g : BitVec 4) (n : BitVec 1) (d : BitVec 5) (b : BitVec 8) : Statement (.vfscaleb g n d b) := fits rfl (by have := g.isLt; have := n.isLt; have := d.isLt; have := b.isLt; omega)
theorem vrcp (g : BitVec 4) (n : BitVec 1) (d : BitVec 5) (l : BitVec 4) (b : BitVec 8) : Statement (.vrcp g n d l b) := fits rfl (by have := g.isLt; have := n.isLt; have := d.isLt; have := l.isLt; have := b.isLt; omega)
theorem vrsq (g : BitVec 4) (n : BitVec 1) (d : BitVec 5) (l : BitVec 4) (b : BitVec 8) : Statement (.vrsq g n d l b) := fits rfl (by have := g.isLt; have := n.isLt; have := d.isLt; have := l.isLt; have := b.isLt; omega)
theorem vsqrt (g : BitVec 4) (n : BitVec 1) (d : BitVec 5) (l : BitVec 4) (b : BitVec 8) : Statement (.vsqrt g n d l b) := fits rfl (by have := g.isLt; have := n.isLt; have := d.isLt; have := l.isLt; have := b.isLt; omega)
theorem vexp2 (g : BitVec 4) (n : BitVec 1) (d : BitVec 5) (l : BitVec 4) (b : BitVec 8) : Statement (.vexp2 g n d l b) := fits rfl (by have := g.isLt; have := n.isLt; have := d.isLt; have := l.isLt; have := b.isLt; omega)
theorem vlog2 (g : BitVec 4) (n : BitVec 1) (d : BitVec 5) (l : BitVec 4) (b : BitVec 8) : Statement (.vlog2 g n d l b) := fits rfl (by have := g.isLt; have := n.isLt; have := d.isLt; have := l.isLt; have := b.isLt; omega)
theorem vsinpi (g : BitVec 4) (n : BitVec 1) (d : BitVec 5) (l : BitVec 4) (b : BitVec 8) : Statement (.vsinpi g n d l b) := fits rfl (by have := g.isLt; have := n.isLt; have := d.isLt; have := l.isLt; have := b.isLt; omega)
theorem vcospi (g : BitVec 4) (n : BitVec 1) (d : BitVec 5) (l : BitVec 4) (b : BitVec 8) : Statement (.vcospi g n d l b) := fits rfl (by have := g.isLt; have := n.isLt; have := d.isLt; have := l.isLt; have := b.isLt; omega)
theorem vtanh (g : BitVec 4) (n : BitVec 1) (d : BitVec 5) (l : BitVec 4) (b : BitVec 8) : Statement (.vtanh g n d l b) := fits rfl (by have := g.isLt; have := n.isLt; have := d.isLt; have := l.isLt; have := b.isLt; omega)
theorem vcmpI (g : BitVec 4) (n : BitVec 1) (p : BitVec 4) (a : BitVec 5) (b : BitVec 8) (c : BitVec 4) : Statement (.vcmpI g n p a b c) := fits rfl (by have := g.isLt; have := n.isLt; have := p.isLt; have := a.isLt; have := b.isLt; have := c.isLt; omega)
theorem vcmpF (g : BitVec 4) (n : BitVec 1) (p : BitVec 4) (a : BitVec 5) (b : BitVec 8) (c : BitVec 4) : Statement (.vcmpF g n p a b c) := fits rfl (by have := g.isLt; have := n.isLt; have := p.isLt; have := a.isLt; have := b.isLt; have := c.isLt; omega)
theorem pand (g : BitVec 4) (n : BitVec 1) (d a b : BitVec 4) : Statement (.pand g n d a b) := fits rfl (by have := g.isLt; have := n.isLt; have := d.isLt; have := a.isLt; have := b.isLt; omega)
theorem por (g : BitVec 4) (n : BitVec 1) (d a b : BitVec 4) : Statement (.por g n d a b) := fits rfl (by have := g.isLt; have := n.isLt; have := d.isLt; have := a.isLt; have := b.isLt; omega)
theorem pxor (g : BitVec 4) (n : BitVec 1) (d a b : BitVec 4) : Statement (.pxor g n d a b) := fits rfl (by have := g.isLt; have := n.isLt; have := d.isLt; have := a.isLt; have := b.isLt; omega)
theorem pandn (g : BitVec 4) (n : BitVec 1) (d a b : BitVec 4) : Statement (.pandn g n d a b) := fits rfl (by have := g.isLt; have := n.isLt; have := d.isLt; have := a.isLt; have := b.isLt; omega)
theorem pnot (g : BitVec 4) (n : BitVec 1) (d a : BitVec 4) : Statement (.pnot g n d a) := fits rfl (by have := g.isLt; have := n.isLt; have := d.isLt; have := a.isLt; omega)
theorem pmov (g : BitVec 4) (n : BitVec 1) (d a : BitVec 4) : Statement (.pmov g n d a) := fits rfl (by have := g.isLt; have := n.isLt; have := d.isLt; have := a.isLt; omega)
theorem pset (g : BitVec 4) (n : BitVec 1) (d : BitVec 4) : Statement (.pset g n d) := fits rfl (by have := g.isLt; have := n.isLt; have := d.isLt; omega)
theorem pclr (g : BitVec 4) (n : BitVec 1) (d : BitVec 4) : Statement (.pclr g n d) := fits rfl (by have := g.isLt; have := n.isLt; have := d.isLt; omega)
theorem vrank (g : BitVec 4) (n : BitVec 1) (a : BitVec 4) (v : BitVec 5) : Statement (.vrank g n a v) := fits rfl (by have := g.isLt; have := n.isLt; have := a.isLt; have := v.isLt; omega)
theorem shflIdx (g : BitVec 4) (n : BitVec 1) (d a : BitVec 5) (b : BitVec 8) (m : BitVec 3) : Statement (.shflIdx g n d a b m) := fits rfl (by have := g.isLt; have := n.isLt; have := d.isLt; have := a.isLt; have := b.isLt; have := m.isLt; omega)
theorem shflXor (g : BitVec 4) (n : BitVec 1) (d a : BitVec 5) (b : BitVec 8) (m : BitVec 3) : Statement (.shflXor g n d a b m) := fits rfl (by have := g.isLt; have := n.isLt; have := d.isLt; have := a.isLt; have := b.isLt; have := m.isLt; omega)
theorem shflUp (g : BitVec 4) (n : BitVec 1) (d a : BitVec 5) (b : BitVec 8) (m : BitVec 3) : Statement (.shflUp g n d a b m) := fits rfl (by have := g.isLt; have := n.isLt; have := d.isLt; have := a.isLt; have := b.isLt; have := m.isLt; omega)
theorem shflDn (g : BitVec 4) (n : BitVec 1) (d a : BitVec 5) (b : BitVec 8) (m : BitVec 3) : Statement (.shflDn g n d a b m) := fits rfl (by have := g.isLt; have := n.isLt; have := d.isLt; have := a.isLt; have := b.isLt; have := m.isLt; omega)
theorem sadd (g : BitVec 4) (n : BitVec 1) (s b : BitVec 8) : Statement (.sadd g n s b) := fits rfl (by have := g.isLt; have := n.isLt; have := s.isLt; have := b.isLt; omega)
theorem ssub (g : BitVec 4) (n : BitVec 1) (s b : BitVec 8) : Statement (.ssub g n s b) := fits rfl (by have := g.isLt; have := n.isLt; have := s.isLt; have := b.isLt; omega)
theorem ssubr (g : BitVec 4) (n : BitVec 1) (s b : BitVec 8) : Statement (.ssubr g n s b) := fits rfl (by have := g.isLt; have := n.isLt; have := s.isLt; have := b.isLt; omega)
theorem smul (g : BitVec 4) (n : BitVec 1) (s b : BitVec 8) : Statement (.smul g n s b) := fits rfl (by have := g.isLt; have := n.isLt; have := s.isLt; have := b.isLt; omega)
theorem smulhS (g : BitVec 4) (n : BitVec 1) (s b : BitVec 8) : Statement (.smulhS g n s b) := fits rfl (by have := g.isLt; have := n.isLt; have := s.isLt; have := b.isLt; omega)
theorem smulhU (g : BitVec 4) (n : BitVec 1) (s b : BitVec 8) : Statement (.smulhU g n s b) := fits rfl (by have := g.isLt; have := n.isLt; have := s.isLt; have := b.isLt; omega)
theorem sdivS (g : BitVec 4) (n : BitVec 1) (s b : BitVec 8) : Statement (.sdivS g n s b) := fits rfl (by have := g.isLt; have := n.isLt; have := s.isLt; have := b.isLt; omega)
theorem sdivU (g : BitVec 4) (n : BitVec 1) (s b : BitVec 8) : Statement (.sdivU g n s b) := fits rfl (by have := g.isLt; have := n.isLt; have := s.isLt; have := b.isLt; omega)
theorem sremS (g : BitVec 4) (n : BitVec 1) (s b : BitVec 8) : Statement (.sremS g n s b) := fits rfl (by have := g.isLt; have := n.isLt; have := s.isLt; have := b.isLt; omega)
theorem sremU (g : BitVec 4) (n : BitVec 1) (s b : BitVec 8) : Statement (.sremU g n s b) := fits rfl (by have := g.isLt; have := n.isLt; have := s.isLt; have := b.isLt; omega)
theorem sand (g : BitVec 4) (n : BitVec 1) (s b : BitVec 8) : Statement (.sand g n s b) := fits rfl (by have := g.isLt; have := n.isLt; have := s.isLt; have := b.isLt; omega)
theorem sor (g : BitVec 4) (n : BitVec 1) (s b : BitVec 8) : Statement (.sor g n s b) := fits rfl (by have := g.isLt; have := n.isLt; have := s.isLt; have := b.isLt; omega)
theorem sxor (g : BitVec 4) (n : BitVec 1) (s b : BitVec 8) : Statement (.sxor g n s b) := fits rfl (by have := g.isLt; have := n.isLt; have := s.isLt; have := b.isLt; omega)
theorem sandn (g : BitVec 4) (n : BitVec 1) (s b : BitVec 8) : Statement (.sandn g n s b) := fits rfl (by have := g.isLt; have := n.isLt; have := s.isLt; have := b.isLt; omega)
theorem sshl (g : BitVec 4) (n : BitVec 1) (s b : BitVec 8) : Statement (.sshl g n s b) := fits rfl (by have := g.isLt; have := n.isLt; have := s.isLt; have := b.isLt; omega)
theorem sshrU (g : BitVec 4) (n : BitVec 1) (s b : BitVec 8) : Statement (.sshrU g n s b) := fits rfl (by have := g.isLt; have := n.isLt; have := s.isLt; have := b.isLt; omega)
theorem sshrS (g : BitVec 4) (n : BitVec 1) (s b : BitVec 8) : Statement (.sshrS g n s b) := fits rfl (by have := g.isLt; have := n.isLt; have := s.isLt; have := b.isLt; omega)
theorem sminS (g : BitVec 4) (n : BitVec 1) (s b : BitVec 8) : Statement (.sminS g n s b) := fits rfl (by have := g.isLt; have := n.isLt; have := s.isLt; have := b.isLt; omega)
theorem smaxS (g : BitVec 4) (n : BitVec 1) (s b : BitVec 8) : Statement (.smaxS g n s b) := fits rfl (by have := g.isLt; have := n.isLt; have := s.isLt; have := b.isLt; omega)
theorem sminU (g : BitVec 4) (n : BitVec 1) (s b : BitVec 8) : Statement (.sminU g n s b) := fits rfl (by have := g.isLt; have := n.isLt; have := s.isLt; have := b.isLt; omega)
theorem smaxU (g : BitVec 4) (n : BitVec 1) (s b : BitVec 8) : Statement (.smaxU g n s b) := fits rfl (by have := g.isLt; have := n.isLt; have := s.isLt; have := b.isLt; omega)
theorem smov (g : BitVec 4) (n : BitVec 1) (s b : BitVec 8) : Statement (.smov g n s b) := fits rfl (by have := g.isLt; have := n.isLt; have := s.isLt; have := b.isLt; omega)
theorem spopc (g : BitVec 4) (n : BitVec 1) (s b : BitVec 8) : Statement (.spopc g n s b) := fits rfl (by have := g.isLt; have := n.isLt; have := s.isLt; have := b.isLt; omega)
theorem sclz (g : BitVec 4) (n : BitVec 1) (s b : BitVec 8) : Statement (.sclz g n s b) := fits rfl (by have := g.isLt; have := n.isLt; have := s.isLt; have := b.isLt; omega)
theorem sseq (g : BitVec 4) (n : BitVec 1) (s b : BitVec 8) : Statement (.sseq g n s b) := fits rfl (by have := g.isLt; have := n.isLt; have := s.isLt; have := b.isLt; omega)
theorem ssne (g : BitVec 4) (n : BitVec 1) (s b : BitVec 8) : Statement (.ssne g n s b) := fits rfl (by have := g.isLt; have := n.isLt; have := s.isLt; have := b.isLt; omega)
theorem ssltS (g : BitVec 4) (n : BitVec 1) (s b : BitVec 8) : Statement (.ssltS g n s b) := fits rfl (by have := g.isLt; have := n.isLt; have := s.isLt; have := b.isLt; omega)
theorem ssltU (g : BitVec 4) (n : BitVec 1) (s b : BitVec 8) : Statement (.ssltU g n s b) := fits rfl (by have := g.isLt; have := n.isLt; have := s.isLt; have := b.isLt; omega)
theorem saddW (g : BitVec 4) (n : BitVec 1) (s b : BitVec 8) : Statement (.saddW g n s b) := fits rfl (by have := g.isLt; have := n.isLt; have := s.isLt; have := b.isLt; omega)
theorem ssubW (g : BitVec 4) (n : BitVec 1) (s b : BitVec 8) : Statement (.ssubW g n s b) := fits rfl (by have := g.isLt; have := n.isLt; have := s.isLt; have := b.isLt; omega)
theorem smovp (g : BitVec 4) (n : BitVec 1) (s b : BitVec 8) : Statement (.smovp g n s b) := fits rfl (by have := g.isLt; have := n.isLt; have := s.isLt; have := b.isLt; omega)
theorem pmovs (g : BitVec 4) (n : BitVec 1) (s b : BitVec 8) : Statement (.pmovs g n s b) := fits rfl (by have := g.isLt; have := n.isLt; have := s.isLt; have := b.isLt; omega)
theorem sfadd (g : BitVec 4) (n : BitVec 1) (s b : BitVec 8) : Statement (.sfadd g n s b) := fits rfl (by have := g.isLt; have := n.isLt; have := s.isLt; have := b.isLt; omega)
theorem sfsub (g : BitVec 4) (n : BitVec 1) (s b : BitVec 8) : Statement (.sfsub g n s b) := fits rfl (by have := g.isLt; have := n.isLt; have := s.isLt; have := b.isLt; omega)
theorem sfmul (g : BitVec 4) (n : BitVec 1) (s b : BitVec 8) : Statement (.sfmul g n s b) := fits rfl (by have := g.isLt; have := n.isLt; have := s.isLt; have := b.isLt; omega)
theorem sfdiv (g : BitVec 4) (n : BitVec 1) (s b : BitVec 8) : Statement (.sfdiv g n s b) := fits rfl (by have := g.isLt; have := n.isLt; have := s.isLt; have := b.isLt; omega)
theorem sfsqrt (g : BitVec 4) (n : BitVec 1) (s b : BitVec 8) : Statement (.sfsqrt g n s b) := fits rfl (by have := g.isLt; have := n.isLt; have := s.isLt; have := b.isLt; omega)
theorem sfrcp (g : BitVec 4) (n : BitVec 1) (s b : BitVec 8) : Statement (.sfrcp g n s b) := fits rfl (by have := g.isLt; have := n.isLt; have := s.isLt; have := b.isLt; omega)
theorem sfrsq (g : BitVec 4) (n : BitVec 1) (s b : BitVec 8) : Statement (.sfrsq g n s b) := fits rfl (by have := g.isLt; have := n.isLt; have := s.isLt; have := b.isLt; omega)
theorem sfmin (g : BitVec 4) (n : BitVec 1) (s b : BitVec 8) : Statement (.sfmin g n s b) := fits rfl (by have := g.isLt; have := n.isLt; have := s.isLt; have := b.isLt; omega)
theorem sfmax (g : BitVec 4) (n : BitVec 1) (s b : BitVec 8) : Statement (.sfmax g n s b) := fits rfl (by have := g.isLt; have := n.isLt; have := s.isLt; have := b.isLt; omega)
theorem scvtF32Si32 (g : BitVec 4) (n : BitVec 1) (s b : BitVec 8) : Statement (.scvtF32Si32 g n s b) := fits rfl (by have := g.isLt; have := n.isLt; have := s.isLt; have := b.isLt; omega)
theorem scvtF32Ui32 (g : BitVec 4) (n : BitVec 1) (s b : BitVec 8) : Statement (.scvtF32Ui32 g n s b) := fits rfl (by have := g.isLt; have := n.isLt; have := s.isLt; have := b.isLt; omega)
theorem scvtSi32F32 (g : BitVec 4) (n : BitVec 1) (s b : BitVec 8) : Statement (.scvtSi32F32 g n s b) := fits rfl (by have := g.isLt; have := n.isLt; have := s.isLt; have := b.isLt; omega)
theorem scvtUi32F32 (g : BitVec 4) (n : BitVec 1) (s b : BitVec 8) : Statement (.scvtUi32F32 g n s b) := fits rfl (by have := g.isLt; have := n.isLt; have := s.isLt; have := b.isLt; omega)
theorem scvtSi32F32Rn (g : BitVec 4) (n : BitVec 1) (s b : BitVec 8) : Statement (.scvtSi32F32Rn g n s b) := fits rfl (by have := g.isLt; have := n.isLt; have := s.isLt; have := b.isLt; omega)
theorem sflt (g : BitVec 4) (n : BitVec 1) (s b : BitVec 8) : Statement (.sflt g n s b) := fits rfl (by have := g.isLt; have := n.isLt; have := s.isLt; have := b.isLt; omega)
theorem sfle (g : BitVec 4) (n : BitVec 1) (s b : BitVec 8) : Statement (.sfle g n s b) := fits rfl (by have := g.isLt; have := n.isLt; have := s.isLt; have := b.isLt; omega)
theorem sfeq (g : BitVec 4) (n : BitVec 1) (s b : BitVec 8) : Statement (.sfeq g n s b) := fits rfl (by have := g.isLt; have := n.isLt; have := s.isLt; have := b.isLt; omega)
theorem smovi (g : BitVec 4) (n : BitVec 1) (s : BitVec 8) (i : BitVec 13) : Statement (.smovi g n s i) := fits rfl (by have := g.isLt; have := n.isLt; have := s.isLt; have := i.isLt; omega)
theorem saddi (g : BitVec 4) (n : BitVec 1) (s : BitVec 8) (i : BitVec 13) : Statement (.saddi g n s i) := fits rfl (by have := g.isLt; have := n.isLt; have := s.isLt; have := i.isLt; omega)
theorem srd (g : BitVec 4) (n : BitVec 1) (s r : BitVec 8) : Statement (.srd g n s r) := fits rfl (by have := g.isLt; have := n.isLt; have := s.isLt; have := r.isLt; omega)
theorem swr (g : BitVec 4) (n : BitVec 1) (s r : BitVec 8) : Statement (.swr g n s r) := fits rfl (by have := g.isLt; have := n.isLt; have := s.isLt; have := r.isLt; omega)
theorem agetb (g : BitVec 4) (n : BitVec 1) (s r : BitVec 8) : Statement (.agetb g n s r) := fits rfl (by have := g.isLt; have := n.isLt; have := s.isLt; have := r.isLt; omega)
theorem agets (g : BitVec 4) (n : BitVec 1) (s r : BitVec 8) : Statement (.agets g n s r) := fits rfl (by have := g.isLt; have := n.isLt; have := s.isLt; have := r.isLt; omega)
theorem agetw (g : BitVec 4) (n : BitVec 1) (s r : BitVec 8) : Statement (.agetw g n s r) := fits rfl (by have := g.isLt; have := n.isLt; have := s.isLt; have := r.isLt; omega)
theorem lds (g : BitVec 4) (n : BitVec 1) (s b : BitVec 8) : Statement (.lds g n s b) := fits rfl (by have := g.isLt; have := n.isLt; have := s.isLt; have := b.isLt; omega)
theorem ldsW (g : BitVec 4) (n : BitVec 1) (s b : BitVec 8) : Statement (.ldsW g n s b) := fits rfl (by have := g.isLt; have := n.isLt; have := s.isLt; have := b.isLt; omega)
theorem ldsQ (g : BitVec 4) (n : BitVec 1) (s b : BitVec 8) : Statement (.ldsQ g n s b) := fits rfl (by have := g.isLt; have := n.isLt; have := s.isLt; have := b.isLt; omega)
theorem ldsO (g : BitVec 4) (n : BitVec 1) (s b : BitVec 8) : Statement (.ldsO g n s b) := fits rfl (by have := g.isLt; have := n.isLt; have := s.isLt; have := b.isLt; omega)
theorem ldp (g : BitVec 4) (n : BitVec 1) (s : BitVec 8) (o : BitVec 5) (w : BitVec 3) : Statement (.ldp g n s o w) := fits rfl (by have := g.isLt; have := n.isLt; have := s.isLt; have := o.isLt; have := w.isLt; omega)
theorem ldls (g : BitVec 4) (n : BitVec 1) (s b : BitVec 8) : Statement (.ldls g n s b) := fits rfl (by have := g.isLt; have := n.isLt; have := s.isLt; have := b.isLt; omega)
theorem aadd (g : BitVec 4) (n : BitVec 1) (d a : BitVec 5) (b : BitVec 8) : Statement (.aadd g n d a b) := fits rfl (by have := g.isLt; have := n.isLt; have := d.isLt; have := a.isLt; have := b.isLt; omega)
theorem asub (g : BitVec 4) (n : BitVec 1) (d a : BitVec 5) (b : BitVec 8) : Statement (.asub g n d a b) := fits rfl (by have := g.isLt; have := n.isLt; have := d.isLt; have := a.isLt; have := b.isLt; omega)
theorem amul (g : BitVec 4) (n : BitVec 1) (d a : BitVec 5) (b : BitVec 8) : Statement (.amul g n d a b) := fits rfl (by have := g.isLt; have := n.isLt; have := d.isLt; have := a.isLt; have := b.isLt; omega)
theorem ashl (g : BitVec 4) (n : BitVec 1) (d a : BitVec 5) (b : BitVec 8) : Statement (.ashl g n d a b) := fits rfl (by have := g.isLt; have := n.isLt; have := d.isLt; have := a.isLt; have := b.isLt; omega)
theorem aset (g : BitVec 4) (n : BitVec 1) (d : BitVec 5) (b : BitVec 8) : Statement (.aset g n d b) := fits rfl (by have := g.isLt; have := n.isLt; have := d.isLt; have := b.isLt; omega)
theorem alane (g : BitVec 4) (n : BitVec 1) (d : BitVec 5) (b : BitVec 8) : Statement (.alane g n d b) := fits rfl (by have := g.isLt; have := n.isLt; have := d.isLt; have := b.isLt; omega)
theorem aneg (g : BitVec 4) (n : BitVec 1) (d a : BitVec 5) : Statement (.aneg g n d a) := fits rfl (by have := g.isLt; have := n.isLt; have := d.isLt; have := a.isLt; omega)
theorem amov (g : BitVec 4) (n : BitVec 1) (d : BitVec 5) (b : BitVec 8) : Statement (.amov g n d b) := fits rfl (by have := g.isLt; have := n.isLt; have := d.isLt; have := b.isLt; omega)
theorem acmp (g : BitVec 4) (n : BitVec 1) (p : BitVec 4) (a : BitVec 5) (b : BitVec 8) (c : BitVec 4) : Statement (.acmp g n p a b c) := fits rfl (by have := g.isLt; have := n.isLt; have := p.isLt; have := a.isLt; have := b.isLt; have := c.isLt; omega)
theorem bra (g : BitVec 4) (n : BitVec 1) (o : BitVec 21) : Statement (.bra g n o) := fits rfl (by have := g.isLt; have := n.isLt; have := o.isLt; omega)
theorem brz (g : BitVec 4) (n : BitVec 1) (s : BitVec 8) (o : BitVec 13) : Statement (.brz g n s o) := fits rfl (by have := g.isLt; have := n.isLt; have := s.isLt; have := o.isLt; omega)
theorem brnz (g : BitVec 4) (n : BitVec 1) (s : BitVec 8) (o : BitVec 13) : Statement (.brnz g n s o) := fits rfl (by have := g.isLt; have := n.isLt; have := s.isLt; have := o.isLt; omega)
theorem call (g : BitVec 4) (n : BitVec 1) (w : BitVec 2) (o : BitVec 19) : Statement (.call g n w o) := fits rfl (by have := g.isLt; have := n.isLt; have := w.isLt; have := o.isLt; omega)
theorem nop (g : BitVec 4) (n : BitVec 1) : Statement (.nop g n) := fits rfl (by have := g.isLt; have := n.isLt; omega)
theorem exit (g : BitVec 4) (n : BitVec 1) : Statement (.exit g n) := fits rfl (by have := g.isLt; have := n.isLt; omega)
theorem ret (g : BitVec 4) (n : BitVec 1) (b : BitVec 8) (w : BitVec 2) : Statement (.ret g n b w) := fits rfl (by have := g.isLt; have := n.isLt; have := b.isLt; have := w.isLt; omega)
theorem callr (g : BitVec 4) (n : BitVec 1) (b : BitVec 8) (w : BitVec 2) : Statement (.callr g n b w) := fits rfl (by have := g.isLt; have := n.isLt; have := b.isLt; have := w.isLt; omega)
theorem brx (g : BitVec 4) (n : BitVec 1) (b : BitVec 8) : Statement (.brx g n b) := fits rfl (by have := g.isLt; have := n.isLt; have := b.isLt; omega)
theorem yield (g : BitVec 4) (n : BitVec 1) : Statement (.yield g n) := fits rfl (by have := g.isLt; have := n.isLt; omega)
theorem loopx (g : BitVec 4) (n s : BitVec 1) : Statement (.loopx g n s) := fits rfl (by have := g.isLt; have := n.isLt; have := s.isLt; omega)
theorem wspill (g : BitVec 4) (n : BitVec 1) (x : BitVec 8) : Statement (.wspill g n x) := fits rfl (by have := g.isLt; have := n.isLt; have := x.isLt; omega)
theorem wfill (g : BitVec 4) (n : BitVec 1) (x : BitVec 8) : Statement (.wfill g n x) := fits rfl (by have := g.isLt; have := n.isLt; have := x.isLt; omega)
theorem bkpt (g : BitVec 4) (n : BitVec 1) (c : BitVec 8) : Statement (.bkpt g n c) := fits rfl (by have := g.isLt; have := n.isLt; have := c.isLt; omega)
theorem trap (g : BitVec 4) (n : BitVec 1) (c : BitVec 8) : Statement (.trap g n c) := fits rfl (by have := g.isLt; have := n.isLt; have := c.isLt; omega)
theorem rte (g : BitVec 4) (n : BitVec 1) : Statement (.rte g n) := fits rfl (by have := g.isLt; have := n.isLt; omega)
theorem svc (g : BitVec 4) (n : BitVec 1) (b x : BitVec 8) : Statement (.svc g n b x) := fits rfl (by have := g.isLt; have := n.isLt; have := b.isLt; have := x.isLt; omega)
theorem xpcr (g : BitVec 4) (n : BitVec 1) (b : BitVec 8) (l : BitVec 5) : Statement (.xpcr g n b l) := fits rfl (by have := g.isLt; have := n.isLt; have := b.isLt; have := l.isLt; omega)
theorem xpcw (g : BitVec 4) (n : BitVec 1) (b : BitVec 8) (l : BitVec 5) : Statement (.xpcw g n b l) := fits rfl (by have := g.isLt; have := n.isLt; have := b.isLt; have := l.isLt; omega)
theorem loop (g : BitVec 4) (n c : BitVec 1) (b : BitVec 8) (e : BitVec 12) : Statement (.loop g n c b e) := fits rfl (by have := g.isLt; have := n.isLt; have := c.isLt; have := b.isLt; have := e.isLt; omega)
theorem sfromv (g : BitVec 4) (n : BitVec 1) (d : BitVec 8) (a l : BitVec 5) : Statement (.sfromv g n d a l) := fits rfl (by have := g.isLt; have := n.isLt; have := d.isLt; have := a.isLt; have := l.isLt; omega)
theorem sfirst (g : BitVec 4) (n : BitVec 1) (d : BitVec 8) (a : BitVec 5) : Statement (.sfirst g n d a) := fits rfl (by have := g.isLt; have := n.isLt; have := d.isLt; have := a.isLt; omega)
theorem sunif (g : BitVec 4) (n : BitVec 1) (d : BitVec 8) (a : BitVec 5) : Statement (.sunif g n d a) := fits rfl (by have := g.isLt; have := n.isLt; have := d.isLt; have := a.isLt; omega)
theorem afromv (g : BitVec 4) (n : BitVec 1) (d : BitVec 8) (a : BitVec 5) : Statement (.afromv g n d a) := fits rfl (by have := g.isLt; have := n.isLt; have := d.isLt; have := a.isLt; omega)
theorem sredaddSi32 (g : BitVec 4) (n : BitVec 1) (d : BitVec 8) (a : BitVec 5) (m : BitVec 1) (p : BitVec 4) : Statement (.sredaddSi32 g n d a m p) := fits rfl (by have := g.isLt; have := n.isLt; have := d.isLt; have := a.isLt; have := m.isLt; have := p.isLt; omega)
theorem sredaddF32 (g : BitVec 4) (n : BitVec 1) (d : BitVec 8) (a : BitVec 5) (m : BitVec 1) (p : BitVec 4) : Statement (.sredaddF32 g n d a m p) := fits rfl (by have := g.isLt; have := n.isLt; have := d.isLt; have := a.isLt; have := m.isLt; have := p.isLt; omega)
theorem sredminSi32 (g : BitVec 4) (n : BitVec 1) (d : BitVec 8) (a : BitVec 5) (m : BitVec 1) (p : BitVec 4) : Statement (.sredminSi32 g n d a m p) := fits rfl (by have := g.isLt; have := n.isLt; have := d.isLt; have := a.isLt; have := m.isLt; have := p.isLt; omega)
theorem sredmaxSi32 (g : BitVec 4) (n : BitVec 1) (d : BitVec 8) (a : BitVec 5) (m : BitVec 1) (p : BitVec 4) : Statement (.sredmaxSi32 g n d a m p) := fits rfl (by have := g.isLt; have := n.isLt; have := d.isLt; have := a.isLt; have := m.isLt; have := p.isLt; omega)
theorem ldg (g : BitVec 4) (n : BitVec 1) (d : BitVec 5) (o : BitVec 8) (b : BitVec 3) (f : BitVec 1) (l : BitVec 4) : Statement (.ldg g n d o b f l) := fits rfl (by have := g.isLt; have := n.isLt; have := d.isLt; have := o.isLt; have := b.isLt; have := f.isLt; have := l.isLt; omega)
theorem ldgW (g : BitVec 4) (n : BitVec 1) (d : BitVec 5) (o : BitVec 8) (b : BitVec 3) (f : BitVec 1) (l : BitVec 4) : Statement (.ldgW g n d o b f l) := fits rfl (by have := g.isLt; have := n.isLt; have := d.isLt; have := o.isLt; have := b.isLt; have := f.isLt; have := l.isLt; omega)
theorem ldgQ (g : BitVec 4) (n : BitVec 1) (d : BitVec 5) (o : BitVec 8) (b : BitVec 3) (f : BitVec 1) (l : BitVec 4) : Statement (.ldgQ g n d o b f l) := fits rfl (by have := g.isLt; have := n.isLt; have := d.isLt; have := o.isLt; have := b.isLt; have := f.isLt; have := l.isLt; omega)
theorem stg (g : BitVec 4) (n : BitVec 1) (d : BitVec 5) (o : BitVec 8) (b : BitVec 3) (k : BitVec 1) (c : BitVec 4) : Statement (.stg g n d o b k c) := fits rfl (by have := g.isLt; have := n.isLt; have := d.isLt; have := o.isLt; have := b.isLt; have := k.isLt; have := c.isLt; omega)
theorem stgW (g : BitVec 4) (n : BitVec 1) (d : BitVec 5) (o : BitVec 8) (b : BitVec 3) (k : BitVec 1) (c : BitVec 4) : Statement (.stgW g n d o b k c) := fits rfl (by have := g.isLt; have := n.isLt; have := d.isLt; have := o.isLt; have := b.isLt; have := k.isLt; have := c.isLt; omega)
theorem stgQ (g : BitVec 4) (n : BitVec 1) (d : BitVec 5) (o : BitVec 8) (b : BitVec 3) (k : BitVec 1) (c : BitVec 4) : Statement (.stgQ g n d o b k c) := fits rfl (by have := g.isLt; have := n.isLt; have := d.isLt; have := o.isLt; have := b.isLt; have := k.isLt; have := c.isLt; omega)
theorem ldl (g : BitVec 4) (n : BitVec 1) (d : BitVec 5) (o : BitVec 8) (b : BitVec 3) (l : BitVec 4) : Statement (.ldl g n d o b l) := fits rfl (by have := g.isLt; have := n.isLt; have := d.isLt; have := o.isLt; have := b.isLt; have := l.isLt; omega)
theorem ldlW (g : BitVec 4) (n : BitVec 1) (d : BitVec 5) (o : BitVec 8) (b : BitVec 3) (l : BitVec 4) : Statement (.ldlW g n d o b l) := fits rfl (by have := g.isLt; have := n.isLt; have := d.isLt; have := o.isLt; have := b.isLt; have := l.isLt; omega)
theorem ldlQ (g : BitVec 4) (n : BitVec 1) (d : BitVec 5) (o : BitVec 8) (b : BitVec 3) (l : BitVec 4) : Statement (.ldlQ g n d o b l) := fits rfl (by have := g.isLt; have := n.isLt; have := d.isLt; have := o.isLt; have := b.isLt; have := l.isLt; omega)
theorem stl (g : BitVec 4) (n : BitVec 1) (d : BitVec 5) (o : BitVec 8) (b : BitVec 3) (c : BitVec 4) : Statement (.stl g n d o b c) := fits rfl (by have := g.isLt; have := n.isLt; have := d.isLt; have := o.isLt; have := b.isLt; have := c.isLt; omega)
theorem stlW (g : BitVec 4) (n : BitVec 1) (d : BitVec 5) (o : BitVec 8) (b : BitVec 3) (c : BitVec 4) : Statement (.stlW g n d o b c) := fits rfl (by have := g.isLt; have := n.isLt; have := d.isLt; have := o.isLt; have := b.isLt; have := c.isLt; omega)
theorem stlQ (g : BitVec 4) (n : BitVec 1) (d : BitVec 5) (o : BitVec 8) (b : BitVec 3) (c : BitVec 4) : Statement (.stlQ g n d o b c) := fits rfl (by have := g.isLt; have := n.isLt; have := d.isLt; have := o.isLt; have := b.isLt; have := c.isLt; omega)
theorem ldgU8 (g : BitVec 4) (n : BitVec 1) (d : BitVec 5) (o : BitVec 8) (b : BitVec 3) (f : BitVec 1) : Statement (.ldgU8 g n d o b f) := fits rfl (by have := g.isLt; have := n.isLt; have := d.isLt; have := o.isLt; have := b.isLt; have := f.isLt; omega)
theorem ldgS8 (g : BitVec 4) (n : BitVec 1) (d : BitVec 5) (o : BitVec 8) (b : BitVec 3) (f : BitVec 1) : Statement (.ldgS8 g n d o b f) := fits rfl (by have := g.isLt; have := n.isLt; have := d.isLt; have := o.isLt; have := b.isLt; have := f.isLt; omega)
theorem ldgU16 (g : BitVec 4) (n : BitVec 1) (d : BitVec 5) (o : BitVec 8) (b : BitVec 3) (f : BitVec 1) : Statement (.ldgU16 g n d o b f) := fits rfl (by have := g.isLt; have := n.isLt; have := d.isLt; have := o.isLt; have := b.isLt; have := f.isLt; omega)
theorem ldgS16 (g : BitVec 4) (n : BitVec 1) (d : BitVec 5) (o : BitVec 8) (b : BitVec 3) (f : BitVec 1) : Statement (.ldgS16 g n d o b f) := fits rfl (by have := g.isLt; have := n.isLt; have := d.isLt; have := o.isLt; have := b.isLt; have := f.isLt; omega)
theorem stgB8 (g : BitVec 4) (n : BitVec 1) (d : BitVec 5) (o : BitVec 8) (b : BitVec 3) (k : BitVec 1) : Statement (.stgB8 g n d o b k) := fits rfl (by have := g.isLt; have := n.isLt; have := d.isLt; have := o.isLt; have := b.isLt; have := k.isLt; omega)
theorem stgB16 (g : BitVec 4) (n : BitVec 1) (d : BitVec 5) (o : BitVec 8) (b : BitVec 3) (k : BitVec 1) : Statement (.stgB16 g n d o b k) := fits rfl (by have := g.isLt; have := n.isLt; have := d.isLt; have := o.isLt; have := b.isLt; have := k.isLt; omega)
theorem ldlU8 (g : BitVec 4) (n : BitVec 1) (d : BitVec 5) (o : BitVec 8) (b : BitVec 3) : Statement (.ldlU8 g n d o b) := fits rfl (by have := g.isLt; have := n.isLt; have := d.isLt; have := o.isLt; have := b.isLt; omega)
theorem ldlS8 (g : BitVec 4) (n : BitVec 1) (d : BitVec 5) (o : BitVec 8) (b : BitVec 3) : Statement (.ldlS8 g n d o b) := fits rfl (by have := g.isLt; have := n.isLt; have := d.isLt; have := o.isLt; have := b.isLt; omega)
theorem ldlU16 (g : BitVec 4) (n : BitVec 1) (d : BitVec 5) (o : BitVec 8) (b : BitVec 3) : Statement (.ldlU16 g n d o b) := fits rfl (by have := g.isLt; have := n.isLt; have := d.isLt; have := o.isLt; have := b.isLt; omega)
theorem ldlS16 (g : BitVec 4) (n : BitVec 1) (d : BitVec 5) (o : BitVec 8) (b : BitVec 3) : Statement (.ldlS16 g n d o b) := fits rfl (by have := g.isLt; have := n.isLt; have := d.isLt; have := o.isLt; have := b.isLt; omega)
theorem stlB8 (g : BitVec 4) (n : BitVec 1) (d : BitVec 5) (o : BitVec 8) (b : BitVec 3) : Statement (.stlB8 g n d o b) := fits rfl (by have := g.isLt; have := n.isLt; have := d.isLt; have := o.isLt; have := b.isLt; omega)
theorem stlB16 (g : BitVec 4) (n : BitVec 1) (d : BitVec 5) (o : BitVec 8) (b : BitVec 3) : Statement (.stlB16 g n d o b) := fits rfl (by have := g.isLt; have := n.isLt; have := d.isLt; have := o.isLt; have := b.isLt; omega)
theorem pfg (g : BitVec 4) (n : BitVec 1) (o : BitVec 8) (b : BitVec 3) (f : BitVec 1) : Statement (.pfg g n o b f) := fits rfl (by have := g.isLt; have := n.isLt; have := o.isLt; have := b.isLt; have := f.isLt; omega)
theorem atomg (g : BitVec 4) (n : BitVec 1) (d v : BitVec 5) (b : BitVec 3) (o : BitVec 4) (s r : BitVec 2) : Statement (.atomg g n d v b o s r) := fits rfl (by have := g.isLt; have := n.isLt; have := d.isLt; have := v.isLt; have := b.isLt; have := o.isLt; have := s.isLt; have := r.isLt; omega)
theorem atoml (g : BitVec 4) (n : BitVec 1) (d v : BitVec 5) (b : BitVec 3) (o : BitVec 4) (s r : BitVec 2) : Statement (.atoml g n d v b o s r) := fits rfl (by have := g.isLt; have := n.isLt; have := d.isLt; have := v.isLt; have := b.isLt; have := o.isLt; have := s.isLt; have := r.isLt; omega)
theorem atoms (g : BitVec 4) (n : BitVec 1) (s b : BitVec 8) (o : BitVec 4) (a : BitVec 1) : Statement (.atoms g n s b o a) := fits rfl (by have := g.isLt; have := n.isLt; have := s.isLt; have := b.isLt; have := o.isLt; have := a.isLt; omega)
theorem fence (g : BitVec 4) (n : BitVec 1) (s : BitVec 3) : Statement (.fence g n s) := fits rfl (by have := g.isLt; have := n.isLt; have := s.isLt; omega)
theorem rel (g : BitVec 4) (n : BitVec 1) (s : BitVec 3) : Statement (.rel g n s) := fits rfl (by have := g.isLt; have := n.isLt; have := s.isLt; omega)
theorem acq (g : BitVec 4) (n : BitVec 1) (s : BitVec 3) : Statement (.acq g n s) := fits rfl (by have := g.isLt; have := n.isLt; have := s.isLt; omega)
theorem acqRmt (g : BitVec 4) (n : BitVec 1) (b : BitVec 8) : Statement (.acqRmt g n b) := fits rfl (by have := g.isLt; have := n.isLt; have := b.isLt; omega)
theorem wdrain (g : BitVec 4) (n : BitVec 1) : Statement (.wdrain g n) := fits rfl (by have := g.isLt; have := n.isLt; omega)
theorem l1wb (g : BitVec 4) (n : BitVec 1) : Statement (.l1wb g n) := fits rfl (by have := g.isLt; have := n.isLt; omega)
theorem l1inv (g : BitVec 4) (n : BitVec 1) : Statement (.l1inv g n) := fits rfl (by have := g.isLt; have := n.isLt; omega)
theorem leaseSet (g : BitVec 4) (n : BitVec 1) (b : BitVec 8) : Statement (.leaseSet g n b) := fits rfl (by have := g.isLt; have := n.isLt; have := b.isLt; omega)
theorem leaseMeas (g : BitVec 4) (n : BitVec 1) : Statement (.leaseMeas g n) := fits rfl (by have := g.isLt; have := n.isLt; omega)
theorem leaseGet (g : BitVec 4) (n : BitVec 1) (b : BitVec 8) : Statement (.leaseGet g n b) := fits rfl (by have := g.isLt; have := n.isLt; have := b.isLt; omega)
theorem barv (g : BitVec 4) (n : BitVec 1) (q b : BitVec 8) : Statement (.barv g n q b) := fits rfl (by have := g.isLt; have := n.isLt; have := q.isLt; have := b.isLt; omega)
theorem bwait (g : BitVec 4) (n : BitVec 1) (q b : BitVec 8) : Statement (.bwait g n q b) := fits rfl (by have := g.isLt; have := n.isLt; have := q.isLt; have := b.isLt; omega)
theorem bsync (g : BitVec 4) (n : BitVec 1) (q : BitVec 8) : Statement (.bsync g n q) := fits rfl (by have := g.isLt; have := n.isLt; have := q.isLt; omega)
theorem barvn (g : BitVec 4) (n : BitVec 1) (q : BitVec 8) : Statement (.barvn g n q) := fits rfl (by have := g.isLt; have := n.isLt; have := q.isLt; omega)
theorem btest (g : BitVec 4) (n : BitVec 1) (q b : BitVec 8) : Statement (.btest g n q b) := fits rfl (by have := g.isLt; have := n.isLt; have := q.isLt; have := b.isLt; omega)
theorem gmask (g : BitVec 4) (n : BitVec 1) (q b : BitVec 8) : Statement (.gmask g n q b) := fits rfl (by have := g.isLt; have := n.isLt; have := q.isLt; have := b.isLt; omega)
theorem gqry (g : BitVec 4) (n : BitVec 1) (q b : BitVec 8) : Statement (.gqry g n q b) := fits rfl (by have := g.isLt; have := n.isLt; have := q.isLt; have := b.isLt; omega)
theorem gsave (g : BitVec 4) (n : BitVec 1) (q b : BitVec 8) : Statement (.gsave g n q b) := fits rfl (by have := g.isLt; have := n.isLt; have := q.isLt; have := b.isLt; omega)
theorem gload (g : BitVec 4) (n : BitVec 1) (q b : BitVec 8) : Statement (.gload g n q b) := fits rfl (by have := g.isLt; have := n.isLt; have := q.isLt; have := b.isLt; omega)
theorem mma (g : BitVec 4) (n : BitVec 1) (t : BitVec 3) (f : BitVec 2) (v : BitVec 5) (a : BitVec 3) (y : BitVec 4) (z : BitVec 1) (s : BitVec 3) : Statement (.mma g n t f v a y z s) := fits rfl (by have := g.isLt; have := n.isLt; have := t.isLt; have := f.isLt; have := v.isLt; have := a.isLt; have := y.isLt; have := z.isLt; have := s.isLt; omega)
theorem mzero (g : BitVec 4) (n : BitVec 1) (t : BitVec 3) : Statement (.mzero g n t) := fits rfl (by have := g.isLt; have := n.isLt; have := t.isLt; omega)
theorem mldt (g : BitVec 4) (n : BitVec 1) (t d : BitVec 3) (f : BitVec 2) : Statement (.mldt g n t d f) := fits rfl (by have := g.isLt; have := n.isLt; have := t.isLt; have := d.isLt; have := f.isLt; omega)
theorem mstt (g : BitVec 4) (n : BitVec 1) (t d : BitVec 3) (f : BitVec 2) : Statement (.mstt g n t d f) := fits rfl (by have := g.isLt; have := n.isLt; have := t.isLt; have := d.isLt; have := f.isLt; omega)
theorem mrowv (g : BitVec 4) (n : BitVec 1) (v : BitVec 5) (t : BitVec 3) : Statement (.mrowv g n v t) := fits rfl (by have := g.isLt; have := n.isLt; have := v.isLt; have := t.isLt; omega)
theorem mwait (g : BitVec 4) (n : BitVec 1) : Statement (.mwait g n) := fits rfl (by have := g.isLt; have := n.isLt; omega)
theorem mfence (g : BitVec 4) (n : BitVec 1) : Statement (.mfence g n) := fits rfl (by have := g.isLt; have := n.isLt; omega)
theorem mdesc (g : BitVec 4) (n : BitVec 1) (d : BitVec 3) (b : BitVec 8) : Statement (.mdesc g n d b) := fits rfl (by have := g.isLt; have := n.isLt; have := d.isLt; have := b.isLt; omega)
theorem mdescGet (g : BitVec 4) (n : BitVec 1) (d : BitVec 3) (b : BitVec 8) : Statement (.mdescGet g n d b) := fits rfl (by have := g.isLt; have := n.isLt; have := d.isLt; have := b.isLt; omega)
theorem cpyLin (g : BitVec 4) (n : BitVec 1) (t : BitVec 6) (b : BitVec 8) : Statement (.cpyLin g n t b) := fits rfl (by have := g.isLt; have := n.isLt; have := t.isLt; have := b.isLt; omega)
theorem cpyLinw (g : BitVec 4) (n : BitVec 1) (t : BitVec 6) (b : BitVec 8) : Statement (.cpyLinw g n t b) := fits rfl (by have := g.isLt; have := n.isLt; have := t.isLt; have := b.isLt; omega)
theorem cpyT2d (g : BitVec 4) (n : BitVec 1) (t : BitVec 6) (b : BitVec 8) : Statement (.cpyT2d g n t b) := fits rfl (by have := g.isLt; have := n.isLt; have := t.isLt; have := b.isLt; omega)
theorem cpyT2dw (g : BitVec 4) (n : BitVec 1) (t : BitVec 6) (b : BitVec 8) : Statement (.cpyT2dw g n t b) := fits rfl (by have := g.isLt; have := n.isLt; have := t.isLt; have := b.isLt; omega)
theorem cpyXpnd (g : BitVec 4) (n : BitVec 1) (t : BitVec 6) (b : BitVec 8) : Statement (.cpyXpnd g n t b) := fits rfl (by have := g.isLt; have := n.isLt; have := t.isLt; have := b.isLt; omega)
theorem cpyGath (g : BitVec 4) (n : BitVec 1) (t : BitVec 6) (b : BitVec 8) : Statement (.cpyGath g n t b) := fits rfl (by have := g.isLt; have := n.isLt; have := t.isLt; have := b.isLt; omega)
theorem cpyScat (g : BitVec 4) (n : BitVec 1) (t : BitVec 6) (b : BitVec 8) : Statement (.cpyScat g n t b) := fits rfl (by have := g.isLt; have := n.isLt; have := t.isLt; have := b.isLt; omega)
theorem cpyL2l (g : BitVec 4) (n : BitVec 1) (t : BitVec 6) (b : BitVec 8) : Statement (.cpyL2l g n t b) := fits rfl (by have := g.isLt; have := n.isLt; have := t.isLt; have := b.isLt; omega)
theorem cpyFill (g : BitVec 4) (n : BitVec 1) (t : BitVec 6) (b : BitVec 8) : Statement (.cpyFill g n t b) := fits rfl (by have := g.isLt; have := n.isLt; have := t.isLt; have := b.isLt; omega)
theorem twaitany (g : BitVec 4) (n : BitVec 1) (s b : BitVec 8) : Statement (.twaitany g n s b) := fits rfl (by have := g.isLt; have := n.isLt; have := s.isLt; have := b.isLt; omega)
theorem twaitall (g : BitVec 4) (n : BitVec 1) (s b : BitVec 8) : Statement (.twaitall g n s b) := fits rfl (by have := g.isLt; have := n.isLt; have := s.isLt; have := b.isLt; omega)
theorem tfind (g : BitVec 4) (n : BitVec 1) (s b : BitVec 8) : Statement (.tfind g n s b) := fits rfl (by have := g.isLt; have := n.isLt; have := s.isLt; have := b.isLt; omega)
theorem tclr (g : BitVec 4) (n : BitVec 1) (b : BitVec 8) : Statement (.tclr g n b) := fits rfl (by have := g.isLt; have := n.isLt; have := b.isLt; omega)
theorem tstat (g : BitVec 4) (n : BitVec 1) (s b : BitVec 8) : Statement (.tstat g n s b) := fits rfl (by have := g.isLt; have := n.isLt; have := s.isLt; have := b.isLt; omega)
theorem rput (g : BitVec 4) (n : BitVec 1) (r : BitVec 4) (s : BitVec 8) : Statement (.rput g n r s) := fits rfl (by have := g.isLt; have := n.isLt; have := r.isLt; have := s.isLt; omega)
theorem rget (g : BitVec 4) (n : BitVec 1) (r : BitVec 4) (s : BitVec 8) : Statement (.rget g n r s) := fits rfl (by have := g.isLt; have := n.isLt; have := r.isLt; have := s.isLt; omega)
theorem rputNb (g : BitVec 4) (n : BitVec 1) (r : BitVec 4) (s : BitVec 8) (p : BitVec 4) : Statement (.rputNb g n r s p) := fits rfl (by have := g.isLt; have := n.isLt; have := r.isLt; have := s.isLt; have := p.isLt; omega)
theorem rgetNb (g : BitVec 4) (n : BitVec 1) (r : BitVec 4) (s : BitVec 8) (p : BitVec 4) : Statement (.rgetNb g n r s p) := fits rfl (by have := g.isLt; have := n.isLt; have := r.isLt; have := s.isLt; have := p.isLt; omega)
theorem rclose (g : BitVec 4) (n : BitVec 1) (r : BitVec 4) : Statement (.rclose g n r) := fits rfl (by have := g.isLt; have := n.isLt; have := r.isLt; omega)
theorem rstat (g : BitVec 4) (n : BitVec 1) (r : BitVec 4) (s : BitVec 8) : Statement (.rstat g n r s) := fits rfl (by have := g.isLt; have := n.isLt; have := r.isLt; have := s.isLt; omega)
theorem hgive (g : BitVec 4) (n : BitVec 1) (b x : BitVec 8) : Statement (.hgive g n b x) := fits rfl (by have := g.isLt; have := n.isLt; have := b.isLt; have := x.isLt; omega)
theorem hrecv (g : BitVec 4) (n : BitVec 1) (b x : BitVec 8) : Statement (.hrecv g n b x) := fits rfl (by have := g.isLt; have := n.isLt; have := b.isLt; have := x.isLt; omega)
theorem hqry (g : BitVec 4) (n : BitVec 1) (b : BitVec 8) : Statement (.hqry g n b) := fits rfl (by have := g.isLt; have := n.isLt; have := b.isLt; omega)
theorem hdrop (g : BitVec 4) (n : BitVec 1) (b : BitVec 8) : Statement (.hdrop g n b) := fits rfl (by have := g.isLt; have := n.isLt; have := b.isLt; omega)
theorem klaunch (g : BitVec 4) (n : BitVec 1) (b : BitVec 8) : Statement (.klaunch g n b) := fits rfl (by have := g.isLt; have := n.isLt; have := b.isLt; omega)
theorem kwait (g : BitVec 4) (n : BitVec 1) (b : BitVec 8) : Statement (.kwait g n b) := fits rfl (by have := g.isLt; have := n.isLt; have := b.isLt; omega)
theorem kquota (g : BitVec 4) (n : BitVec 1) (b : BitVec 8) : Statement (.kquota g n b) := fits rfl (by have := g.isLt; have := n.isLt; have := b.isLt; omega)
theorem crs (g : BitVec 4) (n : BitVec 1) (t : BitVec 6) (b : BitVec 8) (c : BitVec 1) (y : BitVec 2) : Statement (.crs g n t b c y) := fits rfl (by have := g.isLt; have := n.isLt; have := t.isLt; have := b.isLt; have := c.isLt; have := y.isLt; omega)
theorem cag (g : BitVec 4) (n : BitVec 1) (t : BitVec 6) (b : BitVec 8) (c : BitVec 1) (y : BitVec 2) : Statement (.cag g n t b c y) := fits rfl (by have := g.isLt; have := n.isLt; have := t.isLt; have := b.isLt; have := c.isLt; have := y.isLt; omega)
theorem car (g : BitVec 4) (n : BitVec 1) (t : BitVec 6) (b : BitVec 8) (c : BitVec 1) (y : BitVec 2) : Statement (.car g n t b c y) := fits rfl (by have := g.isLt; have := n.isLt; have := t.isLt; have := b.isLt; have := c.isLt; have := y.isLt; omega)
theorem mkdown (g : BitVec 4) (n : BitVec 1) (m : BitVec 2) (b : BitVec 8) : Statement (.mkdown g n m b) := fits rfl (by have := g.isLt; have := n.isLt; have := m.isLt; have := b.isLt; omega)
theorem mkget (g : BitVec 4) (n : BitVec 1) (b : BitVec 8) : Statement (.mkget g n b) := fits rfl (by have := g.isLt; have := n.isLt; have := b.isLt; omega)
theorem trmark (g : BitVec 4) (n : BitVec 1) (b : BitVec 8) : Statement (.trmark g n b) := fits rfl (by have := g.isLt; have := n.isLt; have := b.isLt; omega)
theorem clkrd (g : BitVec 4) (n : BitVec 1) (b : BitVec 8) : Statement (.clkrd g n b) := fits rfl (by have := g.isLt; have := n.isLt; have := b.isLt; omega)
theorem ximm (p : BitVec 19) : Statement (.ximm p) := fits rfl (by have := p.isLt; omega)
theorem rep (b a d : BitVec 1) (s : BitVec 2) (c : BitVec 6) : Statement (.rep b a d s c) := fits rfl (by have := b.isLt; have := a.isLt; have := d.isLt; have := s.isLt; have := c.isLt; omega)
theorem la (l : BitVec 4) : Statement (.la l) := fits rfl (by have := l.isLt; omega)
theorem quantumExpiry (sid : Nat) : Statement (.quantumExpiry sid) := none_fits rfl
theorem starvationLimit (core quad : Nat) : Statement (.starvationLimit core quad) := none_fits rfl
theorem greedyLimit (core quad : Nat) : Statement (.greedyLimit core quad) := none_fits rfl
theorem admissionPass (core : Nat) : Statement (.admissionPass core) := none_fits rfl
theorem ageBoundExpiry (sid : Nat) : Statement (.ageBoundExpiry sid) := none_fits rfl
theorem footprintWindow (sid lines : Nat) : Statement (.footprintWindow sid lines) := none_fits rfl
theorem kernelDispatch (kid : Nat) : Statement (.kernelDispatch kid) := none_fits rfl
theorem kernelRunning (kid : Nat) : Statement (.kernelRunning kid) := none_fits rfl
theorem tuftPlacement (kid : Nat) : Statement (.tuftPlacement kid) := none_fits rfl
theorem tuftComplete (tid : Nat) : Statement (.tuftComplete tid) := none_fits rfl
theorem completionSignal (kid : Nat) : Statement (.completionSignal kid) := none_fits rfl
theorem runmaxExpiry (tid : Nat) : Statement (.runmaxExpiry tid) := none_fits rfl
theorem tuftSuspend (tid : Nat) : Statement (.tuftSuspend tid) := none_fits rfl
theorem forcedSuspension (tid : Nat) : Statement (.forcedSuspension tid) := none_fits rfl
theorem tuftReload (tid : Nat) : Statement (.tuftReload tid) := none_fits rfl
theorem tuftAbort (tid : Nat) : Statement (.tuftAbort tid) := none_fits rfl
theorem storeBufferSend (sid : Nat) : Statement (.storeBufferSend sid) := none_fits rfl
theorem writePerform (mid : Nat) : Statement (.writePerform mid) := none_fits rfl
theorem writeAck (mid : Nat) : Statement (.writeAck mid) := none_fits rfl
theorem loadReturn (sid pid : Nat) (lanes : BitVec 32) : Statement (.loadReturn sid pid lanes) := none_fits rfl
theorem atomicReply (mid : Nat) : Statement (.atomicReply mid) := none_fits rfl
theorem walk (core ctx : Nat) (va : BitVec 64) : Statement (.walk core ctx va) := none_fits rfl
theorem walkWake (slice : Nat) : Statement (.walkWake slice) := none_fits rfl
theorem shootdownGo (slice : Nat) : Statement (.shootdownGo slice) := none_fits rfl
theorem shootdownComplete (part : Nat) : Statement (.shootdownComplete part) := none_fits rfl
theorem matrixOpComplete (sid : Nat) : Statement (.matrixOpComplete sid) := none_fits rfl
theorem copyStart (core : Nat) : Statement (.copyStart core) := none_fits rfl
theorem copyComplete (core cmd : Nat) : Statement (.copyComplete core cmd) := none_fits rfl
theorem collectiveJoin (part group : Nat) : Statement (.collectiveJoin part group) := none_fits rfl
theorem collectiveComplete (part group : Nat) : Statement (.collectiveComplete part group) := none_fits rfl
theorem serviceReply (sid : Nat) (failed : Bool) : Statement (.serviceReply sid failed) := none_fits rfl
theorem replyResume (slice token : Nat) : Statement (.replyResume slice token) := none_fits rfl
theorem replyAbandon (slice token : Nat) : Statement (.replyAbandon slice token) := none_fits rfl
theorem replyDroplanes (slice token : Nat) : Statement (.replyDroplanes slice token) := none_fits rfl
theorem replyDiscard (slice token : Nat) : Statement (.replyDiscard slice token) := none_fits rfl
theorem queueRegister (slice entry : Nat) : Statement (.queueRegister slice entry) := none_fits rfl
theorem queueDestroy (slice entry : Nat) : Statement (.queueDestroy slice entry) := none_fits rfl
theorem queueWake (slice entry : Nat) : Statement (.queueWake slice entry) := none_fits rfl
theorem packetFetch (slice entry : Nat) : Statement (.packetFetch slice entry) := none_fits rfl
theorem packetKernel (slice entry : Nat) : Statement (.packetKernel slice entry) := none_fits rfl
theorem packetWaitall (slice entry : Nat) : Statement (.packetWaitall slice entry) := none_fits rfl
theorem packetWaitany (slice entry : Nat) : Statement (.packetWaitany slice entry) := none_fits rfl
theorem packetSignal (slice entry : Nat) : Statement (.packetSignal slice entry) := none_fits rfl
theorem packetHold (slice entry : Nat) : Statement (.packetHold slice entry) := none_fits rfl
theorem packetRelease (slice entry : Nat) : Statement (.packetRelease slice entry) := none_fits rfl
theorem packetNop (slice entry : Nat) : Statement (.packetNop slice entry) := none_fits rfl
theorem waitReevaluate (slice entry : Nat) : Statement (.waitReevaluate slice entry) := none_fits rfl
theorem partitionForm (req : FormRequest) : Statement (.partitionForm req) := none_fits rfl
theorem partitionReady (part : Nat) : Statement (.partitionReady part) := none_fits rfl
theorem bootFailure (part : Nat) : Statement (.bootFailure part) := none_fits rfl
theorem partAdd (part slice : Nat) : Statement (.partAdd part slice) := none_fits rfl
theorem partRemove (part slice drainMax : Nat) : Statement (.partRemove part slice drainMax) := none_fits rfl
theorem drainmaxExpiry (part : Nat) : Statement (.drainmaxExpiry part) := none_fits rfl
theorem partLend (part slice borrower deadline : Nat) : Statement (.partLend part slice borrower deadline) := none_fits rfl
theorem partRecall (part slice : Nat) : Statement (.partRecall part slice) := none_fits rfl
theorem recallDeadline (slice : Nat) : Statement (.recallDeadline slice) := none_fits rfl
theorem recallWriteOut (slice : Nat) : Statement (.recallWriteOut slice) := none_fits rfl
theorem partHalt (part : Nat) : Statement (.partHalt part) := none_fits rfl
theorem partResume (part : Nat) : Statement (.partResume part) := none_fits rfl
theorem partDissolve (part : Nat) : Statement (.partDissolve part) := none_fits rfl
theorem evidence (part package out nonce : Nat) : Statement (.evidence part package out nonce) := none_fits rfl
theorem certs (part package out len : Nat) : Statement (.certs part package out len) := none_fits rfl
theorem extend (part slot digestAt : Nat) : Statement (.extend part slot digestAt) := none_fits rfl
theorem ctxCreate (part ctx : Nat) : Statement (.ctxCreate part ctx) := none_fits rfl
theorem ctxActivate (part ctx : Nat) : Statement (.ctxActivate part ctx) := none_fits rfl
theorem ctxSuspend (part ctx : Nat) (save : Bool) : Statement (.ctxSuspend part ctx save) := none_fits rfl
theorem ctxResume (part ctx : Nat) : Statement (.ctxResume part ctx) := none_fits rfl
theorem ctxFault (part ctx : Nat) : Statement (.ctxFault part ctx) := none_fits rfl
theorem ctxDestroy (part ctx : Nat) : Statement (.ctxDestroy part ctx) := none_fits rfl
theorem keyLoad (slice : Nat) (cmd : KeyCommand) : Statement (.keyLoad slice cmd) := none_fits rfl
theorem keyLoadw (slice : Nat) (cmd : KeyCommand) : Statement (.keyLoadw slice cmd) := none_fits rfl
theorem keyErase (slice : Nat) (cmd : KeyCommand) : Statement (.keyErase slice cmd) := none_fits rfl
theorem correctableError (slice : Nat) : Statement (.correctableError slice) := none_fits rfl
theorem uncorrectableError (site : ErrorSite) : Statement (.uncorrectableError site) := none_fits rfl
theorem sliceLost (slice : Nat) : Statement (.sliceLost slice) := none_fits rfl
theorem portEnable (slice : Nat) : Statement (.portEnable slice) := none_fits rfl
theorem portDisable (slice : Nat) : Statement (.portDisable slice) := none_fits rfl
theorem portFence (slice : Nat) : Statement (.portFence slice) := none_fits rfl
theorem portUnfence (slice : Nat) : Statement (.portUnfence slice) := none_fits rfl
theorem trainingDone (slice txUp rxUp : Nat) : Statement (.trainingDone slice txUp rxUp) := none_fits rfl
theorem trainingFailed (slice : Nat) : Statement (.trainingFailed slice) := none_fits rfl
theorem keyingDone (slice : Nat) : Statement (.keyingDone slice) := none_fits rfl
theorem wavelengthLoss (slice txUp rxUp : Nat) : Statement (.wavelengthLoss slice txUp rxUp) := none_fits rfl
theorem retrainingRestored (slice : Nat) : Statement (.retrainingRestored slice) := none_fits rfl
theorem rekey (slice : Nat) : Statement (.rekey slice) := none_fits rfl
theorem packetReceive (slice : Nat) (pkt : LinkPacket) : Statement (.packetReceive slice pkt) := none_fits rfl
theorem retransmitTimeout (mid : Nat) : Statement (.retransmitTimeout mid) := none_fits rfl
theorem lctlWrite (slice : Nat) (v : BitVec 32) : Statement (.lctlWrite slice v) := none_fits rfl
theorem getVersion (package : Nat) : Statement (.getVersion package) := none_fits rfl
theorem getCapabilities (package : Nat) : Statement (.getCapabilities package) := none_fits rfl
theorem negotiateAlgorithms (offer : AlgorithmOffer) : Statement (.negotiateAlgorithms offer) := none_fits rfl
theorem getDigests (package : Nat) : Statement (.getDigests package) := none_fits rfl
theorem getCertificate (package slot offset len : Nat) : Statement (.getCertificate package slot offset len) := none_fits rfl
theorem challenge (package : Nat) (nonce : List (BitVec 8)) : Statement (.challenge package nonce) := none_fits rfl
theorem getMeasurements (package index : Nat) (nonce : List (BitVec 8)) : Statement (.getMeasurements package index nonce) := none_fits rfl
theorem spdmUnsupported (package code : Nat) : Statement (.spdmUnsupported package code) := none_fits rfl
theorem firmwareStage (package slot : Nat) (image : List (BitVec 8)) : Statement (.firmwareStage package slot image) := none_fits rfl
theorem activationStart (package : Nat) : Statement (.activationStart package) := none_fits rfl
theorem activationCommit (package : Nat) : Statement (.activationCommit package) := none_fits rfl
theorem activationRollback (package : Nat) : Statement (.activationRollback package) := none_fits rfl
theorem mgmtOtherMessage (package code : Nat) : Statement (.mgmtOtherMessage package code) := none_fits rfl
theorem packageReset (package : Nat) : Statement (.packageReset package) := none_fits rfl
theorem pwrctlWrite (slice island : Nat) (v : BitVec 32) : Statement (.pwrctlWrite slice island v) := none_fits rfl
theorem thermThrottle (slice island : Nat) (on : Bool) (fclk : Nat) : Statement (.thermThrottle slice island on fclk) := none_fits rfl
theorem powerWindow (slice island watts fclk : Nat) : Statement (.powerWindow slice island watts fclk) := none_fits rfl
theorem trctlWrite (slice : Nat) (v : BitVec 32) : Statement (.trctlWrite slice v) := none_fits rfl
theorem teaselDrain (slice : Nat) : Statement (.teaselDrain slice) := none_fits rfl
theorem lschedWrite (core : Nat) (v : BitVec 32) : Statement (.lschedWrite core v) := none_fits rfl
theorem urgentWrite (slice : Nat) (v : BitVec 32) : Statement (.urgentWrite slice v) := none_fits rfl
theorem frameOwnerWrite (slice frame : Nat) (v : BitVec 32) : Statement (.frameOwnerWrite slice frame v) := none_fits rfl
theorem controlRegWrite (slice offset width value : Nat) : Statement (.controlRegWrite slice offset width value) := none_fits rfl
theorem unassignedEncoding (w : BitVec 32) : Statement (.unassignedEncoding w) := none_fits rfl
theorem longLatencyResult (sid pid : Nat) : Statement (.longLatencyResult sid pid) := none_fits rfl
theorem serviceCoreAccess (acc : ServiceAccess) : Statement (.serviceCoreAccess acc) := none_fits rfl
theorem partitionKernelFetch (part : Nat) (image args : List (BitVec 8)) : Statement (.partitionKernelFetch part image args) := none_fits rfl
theorem cpuTrayRegister (source part ctx : Nat) : Statement (.cpuTrayRegister source part ctx) := none_fits rfl

end Sys2Proof.Laws.Encoding
end

