-- ==== Sys2Proof/Tests/Slice0.lean ====
section
/-!
SUPPORT. The author's own tests: ill-formed terms that WellFormed refuses, words of the spec's encoding tables and listings that decode
to their instructions, states and operands that meet the hypotheses of every statement, and single steps on worked examples of
the spec.
-/
open Sys2Proof Sys2Proof.Machine
namespace Sys2Proof.Tests

/-! ## Terms that are not well formed -/

/-- A guard of 12 to 14, and a sensed guard 15 (R83). -/
theorem ill_guard : (Instr.vadd 12 0 1 2 3).wf = false ∧ (Instr.exit 14 0).wf = false ∧ (Instr.vadd 15 1 1 2 3).wf = false := by decide

/-- A predicate that is not there (R85). -/
theorem ill_predicate : (Instr.pclr 15 0 12).wf = false ∧ (Instr.pand 15 0 0 12 1).wf = false ∧ (Instr.vrank 15 0 12 1).wf = false ∧
    (Instr.smovp 15 0 64 12).wf = false ∧ (Instr.pmovs 15 0 12 64).wf = false ∧ (Instr.rputNb 15 0 0 64 12).wf = false ∧
    (Instr.sredaddSi32 15 0 64 1 1 12).wf = false ∧ (Instr.sredaddSi32 15 0 64 1 0 1).wf = false := by decide

/-- Compare codes, conversion parts, scopes, cache hints and matrix types beyond the last (R88, R116, R119, R134, R177). -/
theorem ill_codes : (Instr.vcmpI 15 0 0 1 2 12).wf = false ∧ (Instr.vcmpF 15 0 0 1 2 8).wf = false ∧ (Instr.acmp 15 0 0 1 32 10).wf = false ∧
    (Instr.vcvtF32Bf16 15 0 1 2 3).wf = false ∧ (Instr.vcvtBf16F32 15 0 1 2 3).wf = false ∧ (Instr.fence 15 0 5).wf = false ∧
    (Instr.stg 15 0 1 2 0 0 3).wf = false ∧ (Instr.stl 15 0 1 2 0 3).wf = false ∧ (Instr.atoml 15 0 1 2 0 0 2 0).wf = false ∧
    (Instr.atoml 15 0 1 2 0 12 0 0).wf = false ∧ (Instr.atoms 15 0 64 66 14 0).wf = false ∧ (Instr.mma 15 0 0 0 0 0 9 0 0).wf = false ∧
    (Instr.mma 15 0 0 0 0 0 0 0 2).wf = false ∧ (Instr.crs 15 0 0 72 0 2).wf = false ∧ (Instr.cag 15 0 0 72 1 0).wf = false := by decide

/-- Operand bytes that name another file (R85). -/
theorem ill_files : (Instr.sadd 15 0 63 64).wf = false ∧ (Instr.sadd 15 0 64 63).wf = false ∧ (Instr.aadd 15 0 0 0 31).wf = false ∧
    (Instr.amul 15 0 0 0 63).wf = false ∧ (Instr.amov 15 0 0 64).wf = false ∧ (Instr.agetb 15 0 64 64).wf = false ∧
    (Instr.afromv 15 0 31 0).wf = false ∧ (Instr.brz 15 0 63 0).wf = false ∧ (Instr.loop 15 0 0 63 1).wf = false ∧ (Instr.sfirst 15 0 63 0).wf = false := by decide

/-- Registers that do not begin a pair, a quad or an octet (R85, R88, R165). -/
theorem ill_alignment : (Instr.saddW 15 0 65 66).wf = false ∧ (Instr.saddW 15 0 64 67).wf = false ∧ (Instr.aset 15 0 0 65).wf = false ∧
    (Instr.ldgW 15 0 1 0 0 0 0).wf = false ∧ (Instr.ldgQ 15 0 2 0 0 0 0).wf = false ∧ (Instr.stlQ 15 0 2 0 0 0).wf = false ∧
    (Instr.ldsQ 15 0 66 64).wf = false ∧ (Instr.ldsO 15 0 68 64).wf = false ∧ (Instr.cpyLin 15 0 0 66).wf = false ∧ (Instr.cpyT2d 15 0 0 68).wf = false ∧
    (Instr.mrowv 15 0 4 0).wf = false ∧ (Instr.klaunch 15 0 66).wf = false ∧ (Instr.atomg 15 0 1 2 0 10 0 0).wf = false ∧
    (Instr.atoms 15 0 65 66 15 0).wf = false ∧ (Instr.mma 15 0 0 0 4 0 2 0 0).wf = false ∧ (Instr.mma 15 0 0 0 0 1 6 0 1).wf = false := by decide

/-- Special registers that are not there, that SWR may not write, wide ones in an odd register (R47, R131). -/
theorem ill_special : (Instr.srd 15 0 64 7).wf = false ∧ (Instr.srd 15 0 65 0x0C).wf = false ∧ (Instr.swr 15 0 64 0).wf = false ∧
    (Instr.swr 15 0 65 0x1A).wf = false := by decide

/-- An empty loop body, moves of no register and of 225 (R141, R148). -/
theorem ill_counts : (Instr.loop 15 0 0 64 0).wf = false ∧ (Instr.wspill 15 0 0).wf = false ∧ (Instr.wfill 15 0 225).wf = false := by decide

/-! ## Words of the encoding tables -/

/-- Each instruction of major 0x01: its code and fields as the spec's encoding table places them. -/
theorem decode_major_01 : [0x0564C970, 0x0564C971, 0x0564C972, 0x0564C973, 0x0564C974, 0x0564C975, 0x0564C976, 0x0564C977].map decodeNat =
    [some (.vadd 5 1 4 25 46),
     some (.vsub 5 1 4 25 46),
     some (.vsubr 5 1 4 25 46),
     some (.vminS 5 1 4 25 46),
     some (.vmaxS 5 1 4 25 46),
     some (.vminU 5 1 4 25 46),
     some (.vmaxU 5 1 4 25 46),
     some (.vadifS 5 1 4 25 46)] := by rfl

/-- Each instruction of major 0x02: its code and fields as the spec's encoding table places them. -/
theorem decode_major_02 : [0x0964C970, 0x0964C971, 0x0964C972, 0x0964C973, 0x0964C974, 0x0964C975, 0x0964C976, 0x0964C977].map decodeNat =
    [some (.vand 5 1 4 25 46),
     some (.vor 5 1 4 25 46),
     some (.vxor 5 1 4 25 46),
     some (.vandn 5 1 4 25 46),
     some (.vshl 5 1 4 25 46),
     some (.vshrU 5 1 4 25 46),
     some (.vshrS 5 1 4 25 46),
     some (.vrotl 5 1 4 25 46)] := by rfl

/-- Each instruction of major 0x03: its code and fields as the spec's encoding table places them. -/
theorem decode_major_03 : [0x0D64C970, 0x0D64C971, 0x0D64C972, 0x0D64C973, 0x0D64C974, 0x0D64C975, 0x0D64C976, 0x0D64C977].map decodeNat =
    [some (.vmul 5 1 4 25 46),
     some (.vmulhS 5 1 4 25 46),
     some (.vmulhU 5 1 4 25 46),
     some (.vmad 5 1 4 25 46),
     some (.vaddsS 5 1 4 25 46),
     some (.vsubsS 5 1 4 25 46),
     some (.vaddsU 5 1 4 25 46),
     some (.vsubsU 5 1 4 25 46)] := by rfl

/-- Each instruction of major 0x04: its code and fields as the spec's encoding table places them. -/
theorem decode_major_04 : [0x116407C8, 0x116407C9, 0x116407CA, 0x1164C973, 0x1164C974, 0x1164C975, 0x1164C976, 0x116407CF].map decodeNat =
    [some (.vpopc 5 1 4 249),
     some (.vclz 5 1 4 249),
     some (.vbrev 5 1 4 249),
     some (.vbfeU 5 1 4 25 46),
     some (.vbfeS 5 1 4 25 46),
     some (.vbfi 5 1 4 25 46),
     some (.vpermb 5 1 4 25 46),
     some (.vmov 5 1 4 249)] := by rfl

/-- Each instruction of major 0x05: its code and fields as the spec's encoding table places them. -/
theorem decode_major_05 : [0x1564C970, 0x1564C971, 0x1564C972, 0x1564C973, 0x1564C974, 0x1564C975, 0x1564C976, 0x1564C977].map decodeNat =
    [some (.vfadd 5 1 4 25 46),
     some (.vfsub 5 1 4 25 46),
     some (.vfmul 5 1 4 25 46),
     some (.vfma 5 1 4 25 46),
     some (.vfnma 5 1 4 25 46),
     some (.vfmin 5 1 4 25 46),
     some (.vfmax 5 1 4 25 46),
     some (.vfcpys 5 1 4 25 46)] := by rfl

/-- Each instruction of major 0x06: its code and fields as the spec's encoding table places them. -/
theorem decode_major_06 : [0x1964C970, 0x1964C971, 0x1964C972, 0x1964C973, 0x1964C974, 0x1964C975].map decodeNat =
    [some (.vhadd2 5 1 4 25 46),
     some (.vhsub2 5 1 4 25 46),
     some (.vhmul2 5 1 4 25 46),
     some (.vhfma2 5 1 4 25 46),
     some (.vhmin2 5 1 4 25 46),
     some (.vhmax2 5 1 4 25 46)] := by rfl

/-- Each instruction of major 0x07: its code and fields as the spec's encoding table places them. -/
theorem decode_major_07 : [0x1D640970, 0x1D642970, 0x1D644970, 0x1D646970, 0x1D648970, 0x1D644171, 0x1D644971, 0x1D645171, 0x1D644172, 0x1D644972, 0x1D645172, 0x1D6407CB, 0x1D640FCB, 0x1D6417CB].map decodeNat =
    [some (.vcvtF32Si32 5 1 4 1 46),
     some (.vcvtF32Ui32 5 1 4 1 46),
     some (.vcvtSi32F32 5 1 4 1 46),
     some (.vcvtUi32F32 5 1 4 1 46),
     some (.vfrint 5 1 4 1 46),
     some (.vcvtF32Bf16 5 1 4 1 46),
     some (.vcvtF32E4m3 5 1 4 1 46),
     some (.vcvtF32E5m2 5 1 4 1 46),
     some (.vcvtBf16F32 5 1 4 1 46),
     some (.vcvtE4m3F32 5 1 4 1 46),
     some (.vcvtE5m2F32 5 1 4 1 46),
     some (.vfclass 5 1 4 249),
     some (.vfgetexp 5 1 4 249),
     some (.vfscaleb 5 1 4 249)] := by rfl

/-- Each instruction of major 0x08: its code and fields as the spec's encoding table places them. -/
theorem decode_major_08 : [0x21649170, 0x21649171, 0x21649172, 0x21649173, 0x21649174, 0x21649175, 0x21649176, 0x21649177].map decodeNat =
    [some (.vrcp 5 1 4 9 46),
     some (.vrsq 5 1 4 9 46),
     some (.vsqrt 5 1 4 9 46),
     some (.vexp2 5 1 4 9 46),
     some (.vlog2 5 1 4 9 46),
     some (.vsinpi 5 1 4 9 46),
     some (.vcospi 5 1 4 9 46),
     some (.vtanh 5 1 4 9 46)] := by rfl

/-- Each instruction of major 0x09: its code and fields as the spec's encoding table places them. -/
theorem decode_major_09 : [0x256992E3].map decodeNat =
    [some (.vcmpI 5 1 4 25 46 3)] := by rfl

/-- Each instruction of major 0x0A: its code and fields as the spec's encoding table places them. -/
theorem decode_major_0A : [0x296992E3].map decodeNat =
    [some (.vcmpF 5 1 4 25 46 3)] := by rfl

/-- Each instruction of major 0x0B: its code and fields as the spec's encoding table places them. -/
theorem decode_major_0B : [0x2D693C00, 0x2D693C20, 0x2D693C40, 0x2D693C60, 0x2D692080, 0x2D6920A0, 0x2D6800C0, 0x2D6800E0, 0x2D608119].map decodeNat =
    [some (.pand 5 1 4 9 14),
     some (.por 5 1 4 9 14),
     some (.pxor 5 1 4 9 14),
     some (.pandn 5 1 4 9 14),
     some (.pnot 5 1 4 9),
     some (.pmov 5 1 4 9),
     some (.pset 5 1 4),
     some (.pclr 5 1 4),
     some (.vrank 5 1 4 25)] := by rfl

/-- Each instruction of major 0x0C: its code and fields as the spec's encoding table places them. -/
theorem decode_major_0C : [0x3164C973].map decodeNat =
    [some (.shflIdx 5 1 4 25 46 3)] := by rfl

/-- Each instruction of major 0x0D: its code and fields as the spec's encoding table places them. -/
theorem decode_major_0D : [0x3564C973].map decodeNat =
    [some (.shflXor 5 1 4 25 46 3)] := by rfl

/-- Each instruction of major 0x0E: its code and fields as the spec's encoding table places them. -/
theorem decode_major_0E : [0x3964C973].map decodeNat =
    [some (.shflUp 5 1 4 25 46 3)] := by rfl

/-- Each instruction of major 0x0F: its code and fields as the spec's encoding table places them. -/
theorem decode_major_0F : [0x3D64C973].map decodeNat =
    [some (.shflDn 5 1 4 25 46 3)] := by rfl

/-- Each instruction of major 0x10: its code and fields as the spec's encoding table places them. -/
theorem decode_major_10 : [0x41789F20, 0x41789F21, 0x41789F22, 0x41789F23, 0x41789F24, 0x41789F25, 0x41789F26, 0x41789F27, 0x41789F28, 0x41789F29, 0x41789F2A, 0x41789F2B, 0x41789F2C, 0x41789F2D, 0x41789F2E, 0x41789F2F, 0x41789F30, 0x41789F31, 0x41789F32, 0x41789F33, 0x41789F34, 0x41789F35, 0x41789F36, 0x41789F37, 0x41789F38, 0x41789F39, 0x41789F3A, 0x41789F3B, 0x41789F3C, 0x41789F3D, 0x41789F3E, 0x41789F3F].map decodeNat =
    [some (.sadd 5 1 196 249),
     some (.ssub 5 1 196 249),
     some (.ssubr 5 1 196 249),
     some (.smul 5 1 196 249),
     some (.smulhS 5 1 196 249),
     some (.smulhU 5 1 196 249),
     some (.sdivS 5 1 196 249),
     some (.sdivU 5 1 196 249),
     some (.sremS 5 1 196 249),
     some (.sremU 5 1 196 249),
     some (.sand 5 1 196 249),
     some (.sor 5 1 196 249),
     some (.sxor 5 1 196 249),
     some (.sandn 5 1 196 249),
     some (.sshl 5 1 196 249),
     some (.sshrU 5 1 196 249),
     some (.sshrS 5 1 196 249),
     some (.sminS 5 1 196 249),
     some (.smaxS 5 1 196 249),
     some (.sminU 5 1 196 249),
     some (.smaxU 5 1 196 249),
     some (.smov 5 1 196 249),
     some (.spopc 5 1 196 249),
     some (.sclz 5 1 196 249),
     some (.sseq 5 1 196 249),
     some (.ssne 5 1 196 249),
     some (.ssltS 5 1 196 249),
     some (.ssltU 5 1 196 249),
     some (.saddW 5 1 196 249),
     some (.ssubW 5 1 196 249),
     some (.smovp 5 1 196 249),
     some (.pmovs 5 1 196 249)] := by rfl

/-- Each instruction of major 0x11: its code and fields as the spec's encoding table places them. -/
theorem decode_major_11 : [0x45789F20, 0x45789F21, 0x45789F22, 0x45789F23, 0x45789F24, 0x45789F25, 0x45789F26, 0x45789F27, 0x45789F28, 0x45789F29, 0x45789F2A, 0x45789F2B, 0x45789F2C, 0x45789F2D, 0x45789F2E, 0x45789F2F, 0x45789F30].map decodeNat =
    [some (.sfadd 5 1 196 249),
     some (.sfsub 5 1 196 249),
     some (.sfmul 5 1 196 249),
     some (.sfdiv 5 1 196 249),
     some (.sfsqrt 5 1 196 249),
     some (.sfrcp 5 1 196 249),
     some (.sfrsq 5 1 196 249),
     some (.sfmin 5 1 196 249),
     some (.sfmax 5 1 196 249),
     some (.scvtF32Si32 5 1 196 249),
     some (.scvtF32Ui32 5 1 196 249),
     some (.scvtSi32F32 5 1 196 249),
     some (.scvtUi32F32 5 1 196 249),
     some (.scvtSi32F32Rn 5 1 196 249),
     some (.sflt 5 1 196 249),
     some (.sfle 5 1 196 249),
     some (.sfeq 5 1 196 249)] := by rfl

/-- Each instruction of major 0x12: its code and fields as the spec's encoding table places them. -/
theorem decode_major_12 : [0x497880F9].map decodeNat =
    [some (.smovi 5 1 196 249)] := by rfl

/-- Each instruction of major 0x13: its code and fields as the spec's encoding table places them. -/
theorem decode_major_13 : [0x4D7880F9].map decodeNat =
    [some (.saddi 5 1 196 249)] := by rfl

/-- Each instruction of major 0x14: its code and fields as the spec's encoding table places them. -/
theorem decode_major_14 : [0x51789F20, 0x51789F21, 0x51789F22, 0x51789F23, 0x51789F24].map decodeNat =
    [some (.srd 5 1 196 249),
     some (.swr 5 1 196 249),
     some (.agetb 5 1 196 249),
     some (.agets 5 1 196 249),
     some (.agetw 5 1 196 249)] := by rfl

/-- Each instruction of major 0x15: its code and fields as the spec's encoding table places them. -/
theorem decode_major_15 : [0x55789F20, 0x55789F21, 0x55789F22, 0x55789F23, 0x557899C4, 0x55789F25].map decodeNat =
    [some (.lds 5 1 196 249),
     some (.ldsW 5 1 196 249),
     some (.ldsQ 5 1 196 249),
     some (.ldsO 5 1 196 249),
     some (.ldp 5 1 196 25 6),
     some (.ldls 5 1 196 249)] := by rfl

/-- Each instruction of major 0x16: its code and fields as the spec's encoding table places them. -/
theorem decode_major_16 : [0x5964C970, 0x5964C971, 0x5964C972, 0x5964C973, 0x596407CC, 0x596407CD, 0x5964C806, 0x596407CF].map decodeNat =
    [some (.aadd 5 1 4 25 46),
     some (.asub 5 1 4 25 46),
     some (.amul 5 1 4 25 46),
     some (.ashl 5 1 4 25 46),
     some (.aset 5 1 4 249),
     some (.alane 5 1 4 249),
     some (.aneg 5 1 4 25),
     some (.amov 5 1 4 249)] := by rfl

/-- Each instruction of major 0x17: its code and fields as the spec's encoding table places them. -/
theorem decode_major_17 : [0x5D6992E3].map decodeNat =
    [some (.acmp 5 1 4 25 46 3)] := by rfl

/-- Each instruction of major 0x18: its code and fields as the spec's encoding table places them. -/
theorem decode_major_18 : [0x616000C4].map decodeNat =
    [some (.bra 5 1 196)] := by rfl

/-- Each instruction of major 0x19: its code and fields as the spec's encoding table places them. -/
theorem decode_major_19 : [0x657880F9].map decodeNat =
    [some (.brz 5 1 196 249)] := by rfl

/-- Each instruction of major 0x1A: its code and fields as the spec's encoding table places them. -/
theorem decode_major_1A : [0x697880F9].map decodeNat =
    [some (.brnz 5 1 196 249)] := by rfl

/-- Each instruction of major 0x1B: its code and fields as the spec's encoding table places them. -/
theorem decode_major_1B : [0x6D6800F9].map decodeNat =
    [some (.call 5 1 1 249)] := by rfl

/-- Each instruction of major 0x1C: its code and fields as the spec's encoding table places them. -/
theorem decode_major_1C : [0x71600000, 0x71610000, 0x7162C401, 0x7163C401, 0x7164C400, 0x71650000, 0x71660001, 0x716700C4, 0x716800C4, 0x716900C4, 0x716A00C4, 0x716B0000, 0x716CC4F9, 0x716DC419, 0x716EC419].map decodeNat =
    [some (.nop 5 1),
     some (.exit 5 1),
     some (.ret 5 1 196 1),
     some (.callr 5 1 196 1),
     some (.brx 5 1 196),
     some (.yield 5 1),
     some (.loopx 5 1 1),
     some (.wspill 5 1 196),
     some (.wfill 5 1 196),
     some (.bkpt 5 1 196),
     some (.trap 5 1 196),
     some (.rte 5 1),
     some (.svc 5 1 196 249),
     some (.xpcr 5 1 196 25),
     some (.xpcw 5 1 196 25)] := by rfl

/-- Each instruction of major 0x1D: its code and fields as the spec's encoding table places them. -/
theorem decode_major_1D : [0x757F912E].map decodeNat =
    [some (.loop 5 1 1 249 302)] := by rfl

/-- Each instruction of major 0x1E: its code and fields as the spec's encoding table places them. -/
theorem decode_major_1E : [0x79789970, 0x79789901, 0x79789902, 0x79789903, 0x7978999C, 0x7978999D, 0x7978999E, 0x7978999F].map decodeNat =
    [some (.sfromv 5 1 196 25 14),
     some (.sfirst 5 1 196 25),
     some (.sunif 5 1 196 25),
     some (.afromv 5 1 196 25),
     some (.sredaddSi32 5 1 196 25 1 3),
     some (.sredaddF32 5 1 196 25 1 3),
     some (.sredminSi32 5 1 196 25 1 3),
     some (.sredmaxSi32 5 1 196 25 1 3)] := by rfl

/-- Each instruction of major 0x20: its code and fields as the spec's encoding table places them. -/
theorem decode_major_20 : [0x8164F9D8].map decodeNat =
    [some (.ldg 5 1 4 249 6 1 8)] := by rfl

/-- Each instruction of major 0x21: its code and fields as the spec's encoding table places them. -/
theorem decode_major_21 : [0x8564F9D8].map decodeNat =
    [some (.ldgW 5 1 4 249 6 1 8)] := by rfl

/-- Each instruction of major 0x22: its code and fields as the spec's encoding table places them. -/
theorem decode_major_22 : [0x8964F9D8].map decodeNat =
    [some (.ldgQ 5 1 4 249 6 1 8)] := by rfl

/-- Each instruction of major 0x23: its code and fields as the spec's encoding table places them. -/
theorem decode_major_23 : [0x8D64F9D8].map decodeNat =
    [some (.stg 5 1 4 249 6 1 8)] := by rfl

/-- Each instruction of major 0x24: its code and fields as the spec's encoding table places them. -/
theorem decode_major_24 : [0x9164F9D8].map decodeNat =
    [some (.stgW 5 1 4 249 6 1 8)] := by rfl

/-- Each instruction of major 0x25: its code and fields as the spec's encoding table places them. -/
theorem decode_major_25 : [0x9564F9D8].map decodeNat =
    [some (.stgQ 5 1 4 249 6 1 8)] := by rfl

/-- Each instruction of major 0x26: its code and fields as the spec's encoding table places them. -/
theorem decode_major_26 : [0x9964F9C3].map decodeNat =
    [some (.ldl 5 1 4 249 6 3)] := by rfl

/-- Each instruction of major 0x27: its code and fields as the spec's encoding table places them. -/
theorem decode_major_27 : [0x9D64F9C3].map decodeNat =
    [some (.ldlW 5 1 4 249 6 3)] := by rfl

/-- Each instruction of major 0x28: its code and fields as the spec's encoding table places them. -/
theorem decode_major_28 : [0xA164F9C3].map decodeNat =
    [some (.ldlQ 5 1 4 249 6 3)] := by rfl

/-- Each instruction of major 0x29: its code and fields as the spec's encoding table places them. -/
theorem decode_major_29 : [0xA564F9C3].map decodeNat =
    [some (.stl 5 1 4 249 6 3)] := by rfl

/-- Each instruction of major 0x2A: its code and fields as the spec's encoding table places them. -/
theorem decode_major_2A : [0xA964F9C3].map decodeNat =
    [some (.stlW 5 1 4 249 6 3)] := by rfl

/-- Each instruction of major 0x2B: its code and fields as the spec's encoding table places them. -/
theorem decode_major_2B : [0xAD64F9C3].map decodeNat =
    [some (.stlQ 5 1 4 249 6 3)] := by rfl

/-- Each instruction of major 0x2C: its code and fields as the spec's encoding table places them. -/
theorem decode_major_2C : [0xB164F9D0, 0xB164F9D1, 0xB164F9D2, 0xB164F9D3, 0xB164F9D4, 0xB164F9D5, 0xB164F9C6, 0xB164F9C7, 0xB164F9C8, 0xB164F9C9, 0xB164F9CA, 0xB164F9CB, 0xB160C43C].map decodeNat =
    [some (.ldgU8 5 1 4 249 6 1),
     some (.ldgS8 5 1 4 249 6 1),
     some (.ldgU16 5 1 4 249 6 1),
     some (.ldgS16 5 1 4 249 6 1),
     some (.stgB8 5 1 4 249 6 1),
     some (.stgB16 5 1 4 249 6 1),
     some (.ldlU8 5 1 4 249 6),
     some (.ldlS8 5 1 4 249 6),
     some (.ldlU16 5 1 4 249 6),
     some (.ldlS16 5 1 4 249 6),
     some (.stlB8 5 1 4 249 6),
     some (.stlB16 5 1 4 249 6),
     some (.pfg 5 1 196 1 1)] := by rfl

/-- Each instruction of major 0x2D: its code and fields as the spec's encoding table places them. -/
theorem decode_major_2D : [0xB564CE35].map decodeNat =
    [some (.atomg 5 1 4 25 6 3 1 1)] := by rfl

/-- Each instruction of major 0x2E: its code and fields as the spec's encoding table places them. -/
theorem decode_major_2E : [0xB964CE35].map decodeNat =
    [some (.atoml 5 1 4 25 6 3 1 1)] := by rfl

/-- Each instruction of major 0x2F: its code and fields as the spec's encoding table places them. -/
theorem decode_major_2F : [0xBD789F3D].map decodeNat =
    [some (.atoms 5 1 196 249 14 1)] := by rfl

/-- Each instruction of major 0x30: its code and fields as the spec's encoding table places them. -/
theorem decode_major_30 : [0xC1608000, 0xC1618000, 0xC1628000, 0xC1631880, 0xC1640000, 0xC1650000, 0xC1660000, 0xC1671880, 0xC1680000, 0xC1691880].map decodeNat =
    [some (.fence 5 1 4),
     some (.rel 5 1 4),
     some (.acq 5 1 4),
     some (.acqRmt 5 1 196),
     some (.wdrain 5 1),
     some (.l1wb 5 1),
     some (.l1inv 5 1),
     some (.leaseSet 5 1 196),
     some (.leaseMeas 5 1),
     some (.leaseGet 5 1 196)] := by rfl

/-- Each instruction of major 0x31: its code and fields as the spec's encoding table places them. -/
theorem decode_major_31 : [0xC57880F9, 0xC57881F9, 0xC5788200, 0xC5788300, 0xC57884F9].map decodeNat =
    [some (.barv 5 1 196 249),
     some (.bwait 5 1 196 249),
     some (.bsync 5 1 196),
     some (.barvn 5 1 196),
     some (.btest 5 1 196 249)] := by rfl

/-- Each instruction of major 0x32: its code and fields as the spec's encoding table places them. -/
theorem decode_major_32 : [0xC97880F9, 0xC97881F9, 0xC97882F9, 0xC97883F9].map decodeNat =
    [some (.gmask 5 1 196 249),
     some (.gqry 5 1 196 249),
     some (.gsave 5 1 196 249),
     some (.gload 5 1 196 249)] := by rfl

/-- Each instruction of major 0x34: its code and fields as the spec's encoding table places them. -/
theorem decode_major_34 : [0xD171738A].map decodeNat =
    [some (.mma 5 1 4 1 14 3 8 1 2)] := by rfl

/-- Each instruction of major 0x35: its code and fields as the spec's encoding table places them. -/
theorem decode_major_35 : [0xD5608000, 0xD5618600, 0xD5628600, 0xD5632100, 0xD5640000, 0xD5650000, 0xD5669F20, 0xD5669F30].map decodeNat =
    [some (.mzero 5 1 4),
     some (.mldt 5 1 4 1 2),
     some (.mstt 5 1 4 1 2),
     some (.mrowv 5 1 4 1),
     some (.mwait 5 1),
     some (.mfence 5 1),
     some (.mdesc 5 1 4 249),
     some (.mdescGet 5 1 4 249)] := by rfl

/-- Each instruction of major 0x38: its code and fields as the spec's encoding table places them. -/
theorem decode_major_38 : [0xE16207C8, 0xE1620FC8, 0xE16217C8, 0xE1621FC8, 0xE16227C8, 0xE1622FC8, 0xE16237C8, 0xE1623FC8, 0xE16247C8].map decodeNat =
    [some (.cpyLin 5 1 4 249),
     some (.cpyLinw 5 1 4 249),
     some (.cpyT2d 5 1 4 249),
     some (.cpyT2dw 5 1 4 249),
     some (.cpyXpnd 5 1 4 249),
     some (.cpyGath 5 1 4 249),
     some (.cpyScat 5 1 4 249),
     some (.cpyL2l 5 1 4 249),
     some (.cpyFill 5 1 4 249)] := by rfl

/-- Each instruction of major 0x39: its code and fields as the spec's encoding table places them. -/
theorem decode_major_39 : [0xE5789F20, 0xE5789F21, 0xE5789F22, 0xE5601883, 0xE5789F24].map decodeNat =
    [some (.twaitany 5 1 196 249),
     some (.twaitall 5 1 196 249),
     some (.tfind 5 1 196 249),
     some (.tclr 5 1 196),
     some (.tstat 5 1 196 249)] := by rfl

/-- Each instruction of major 0x3A: its code and fields as the spec's encoding table places them. -/
theorem decode_major_3A : [0xE9680F90, 0xE9681F90, 0xE9682F9E, 0xE9683F9E, 0xE9684000, 0xE9685F90].map decodeNat =
    [some (.rput 5 1 4 249),
     some (.rget 5 1 4 249),
     some (.rputNb 5 1 4 249 14),
     some (.rgetNb 5 1 4 249 14),
     some (.rclose 5 1 4),
     some (.rstat 5 1 4 249)] := by rfl

/-- Each instruction of major 0x3B: its code and fields as the spec's encoding table places them. -/
theorem decode_major_3B : [0xED60C4F9, 0xED61C4F9, 0xED62C400, 0xED63C400].map decodeNat =
    [some (.hgive 5 1 196 249),
     some (.hrecv 5 1 196 249),
     some (.hqry 5 1 196),
     some (.hdrop 5 1 196)] := by rfl

/-- Each instruction of major 0x3C: its code and fields as the spec's encoding table places them. -/
theorem decode_major_3C : [0xF1601880, 0xF1611880, 0xF1621880].map decodeNat =
    [some (.klaunch 5 1 196),
     some (.kwait 5 1 196),
     some (.kquota 5 1 196)] := by rfl

/-- Each instruction of major 0x3D: its code and fields as the spec's encoding table places them. -/
theorem decode_major_3D : [0xF56207CF, 0xF5620FCF, 0xF56217CF].map decodeNat =
    [some (.crs 5 1 4 249 1 3),
     some (.cag 5 1 4 249 1 3),
     some (.car 5 1 4 249 1 3)] := by rfl

/-- Each instruction of major 0x3E: its code and fields as the spec's encoding table places them. -/
theorem decode_major_3E : [0xF9603F20, 0xF9611880, 0xF9621880, 0xF9631880].map decodeNat =
    [some (.mkdown 5 1 1 249),
     some (.mkget 5 1 196),
     some (.trmark 5 1 196),
     some (.clkrd 5 1 196)] := by rfl

/-- Each instruction of major 0x3F: its code and fields as the spec's encoding table places them. -/
theorem decode_major_3F : [0xFFC0005A, 0xFFC8076E, 0xFFD0000A].map decodeNat =
    [some (.ximm 90),
     some (.rep 1 1 1 1 46),
     some (.la 10)] := by rfl

/-- Words of the spec's listings decode to what stands beside them. -/
theorem decode_listed : [0x4BCD0004, 0x04E11340, 0x619FFFF9, 0x60600002, 0x83C42353, 0x8FC10210, 0x93D89EE0, 0xB7C11008, 0xBBC620A0, 0x57D80004, 0xFBC00040,
      0xFFC8011F, 0xFFC091A2, 0x4BC95678, 0xFFC80703, 0x17C84080, 0xFFC00040].map decodeNat =
    [some (.smovi 15 0 104 4), some (.vadd 3 1 1 2 104), some (.bra 6 0 (-7)), some (.bra 1 1 2), some (.ldg 15 0 4 35 2 1 3), some (.stg 15 0 1 2 0 1 0),
     some (.stgW 15 0 24 158 7 0 0), some (.atomg 15 0 1 2 0 0 2 0), some (.atoml 15 0 6 4 0 10 0 0), some (.ldp 15 0 192 0 0), some (.mkdown 15 0 0 2),
     some (.rep 0 0 1 0 31), some (.ximm 0x91A2), some (.smovi 15 0 74 0x1678), some (.rep 1 1 1 0 3), some (.vfadd 15 0 8 8 16), some (.ximm 64)] := by rfl

/-- Reserved majors, unassigned functions, and a must-be-zero bit decode to nothing (R83, R86). -/
theorem decode_reserved : [0x00000000, 0x7FC00000, 0xCFC00000, 0xFFD80000, 0x73C10001].map decodeNat = [none, none, none, none, none] := by rfl

/-! ## States and operands that meet the hypotheses of the statements -/

/-- An issue slot of sheaf 0: all lanes at the first address of its code, no prefix. -/
def tSlot : Slot := slotFor 0 probeCode 0xFFFFFFFF Hints.none

/-- After reset, with one tuft of one sheaf placed, which issues. -/
def tState : State := { State.reset.withFetchWord 32 0 with slot := tSlot }

/-- That state with its sheaf changed. -/
def tWith (f : Sheaf → Sheaf) : State := tState.setSheaf 0 (f probeSheaf)

theorem ready_tState : Ready tState probeSheaf := by constructor <;> rfl

/-- The hypotheses of UnassignedWordsTrap, for every word. -/
theorem met_unassigned : Ready tState probeSheaf := ready_tState

/-- What a statement about register results assumes of an instruction, checked. -/
def meets (table : Instr → Option SheafRule) (s : State) (sh : Sheaf) (fits acts : Bool) (i : Instr) : Bool :=
  match table i with
  | some r => i.wf && s.slot.ximm.isNone && s.slot.la.isNone && (!r.wide || (s.slot.lanes == sh.live && guardUniform (s.here sh r.g.toNat r.n.toNat))) &&
      (!r.float || sh.role != .stage) && ((r.slot s sh).acting != 0) == acts && (!acts || r.fits sh (r.slot s sh).acting == fits)
  | none => false

/-- The hypotheses of Rules, and of RuleTraps, met together. -/
def Met (table : Instr → Option SheafRule) (s : State) (sh : Sheaf) (fits acts : Bool) (i : Instr) : Prop :=
  ∃ r, table i = some r ∧ i.wf = true ∧ Prefixed i s ∧ (r.wide = true → Wide s sh r.g.toNat r.n.toNat) ∧ (r.float = true → sh.role ≠ .stage) ∧
    ((r.slot s sh).acting ≠ 0 ↔ acts = true) ∧ (acts = true → r.fits sh (r.slot s sh).acting = fits)

theorem met_of_meets {table : Instr → Option SheafRule} {s : State} {sh : Sheaf} {fits acts : Bool} {i : Instr} (h : meets table s sh fits acts i = true) :
    Met table s sh fits acts i := by
  unfold meets at h
  split at h
  · rename_i r hr
    simp only [Bool.and_eq_true, Bool.or_eq_true, Bool.not_eq_true', beq_iff_eq, Option.isNone_iff_eq_none, bne_iff_ne] at h
    obtain ⟨⟨⟨⟨⟨⟨h1, h2⟩, h3⟩, h4⟩, h5⟩, h6⟩, h7⟩ := h
    refine ⟨r, hr, h1, ⟨Or.inl h2, Or.inl h3⟩, fun hw => ?_, fun hf => ?_, ?_, fun ha => ?_⟩
    · rcases h4 with h4 | h4
      · simp [hw] at h4
      · exact ⟨h4.1, h4.2⟩
    · rcases h5 with h5 | h5
      · simp [hf] at h5
      · exact h5
    · rw [← h6]; simp
    · rcases h7 with h7 | h7
      · simp [ha] at h7
      · exact h7
  · simp at h

theorem met_all {table : Instr → Option SheafRule} {s : State} {sh : Sheaf} {fits acts : Bool} {is : List Instr}
    (h : is.all (meets table s sh fits acts) = true) : ∀ i ∈ is, Met table s sh fits acts i :=
  fun i hi => met_of_meets (List.all_eq_true.mp h i hi)

/-- One word of each of the uniform instructions, its guard always true. -/
def allUniform : List Instr :=
    [Instr.sadd, .ssub, .ssubr, .smul, .smulhS, .smulhU, .sand, .sor, .sxor, .sandn, .sshl, .sshrU, .sshrS, .sminS, .smaxS, .sminU, .smaxU, .smov, .spopc, .sclz, .sseq, .ssne, .ssltS, .ssltU, .saddW, .ssubW].map (fun f => f 15 0 64 72) ++
    [Instr.smovp 15 0 64 3] ++
    [Instr.pmovs 15 0 3 72] ++
    [Instr.smovi, .saddi].map (fun f => f 15 0 64 1) ++
    [Instr.agetb, .agets, .agetw].map (fun f => f 15 0 64 33)

/-- One word of each of the uniform float instructions, its guard always true. -/
def allUniformFloat : List Instr :=
    [Instr.sfadd, .sfsub, .sfmul, .sfrcp, .sfrsq, .sfmin, .sfmax, .scvtF32Si32, .scvtF32Ui32, .scvtSi32F32, .scvtUi32F32, .scvtSi32F32Rn, .sflt, .sfle, .sfeq].map (fun f => f 15 0 64 72)

/-- One word of each of the predicate instructions, its guard always true. -/
def allPredicate : List Instr :=
    [Instr.vcmpI, .vcmpF].map (fun f => f 15 0 1 2 3 3) ++
    [Instr.acmp 15 0 1 2 33 3] ++
    [Instr.pand, .por, .pxor, .pandn].map (fun f => f 15 0 1 2 3) ++
    [Instr.pnot, .pmov].map (fun f => f 15 0 1 2) ++
    [Instr.pset, .pclr].map (fun f => f 15 0 1)

/-- One word of each of the affine instructions, its guard always true. -/
def allAffine : List Instr :=
    [Instr.aadd 15 0 1 2 33] ++
    [Instr.asub, .amul, .ashl].map (fun f => f 15 0 1 2 72) ++
    [Instr.aset, .alane].map (fun f => f 15 0 1 72) ++
    [Instr.aneg 15 0 1 2] ++
    [Instr.amov 15 0 1 33]

/-- One word of each of the demotion instructions, its guard always true. -/
def allDemotion : List Instr :=
    [Instr.sfromv 15 0 64 2 14] ++
    [Instr.sfirst, .sunif].map (fun f => f 15 0 64 2) ++
    [Instr.sredaddSi32, .sredaddF32, .sredminSi32, .sredmaxSi32].map (fun f => f 15 0 64 2 1 3)

/-- One word of each of the late instructions, its guard always true. -/
def allLate : List Instr :=
    [Instr.sdivS, .sdivU, .sremS, .sremU, .sfdiv, .sfsqrt].map (fun f => f 15 0 64 72) ++
    [Instr.vrcp, .vrsq, .vsqrt, .vexp2, .vlog2, .vsinpi, .vcospi, .vtanh].map (fun f => f 15 0 1 2 3)

/-- One word of each of the shuffle instructions, its guard always true. -/
def allShuffle : List Instr :=
    [Instr.shflIdx, .shflXor, .shflUp, .shflDn].map (fun f => f 15 0 1 2 3 7)

/-- One word of each of the varying instructions, its guard always true. -/
def allVarying : List Instr :=
    [Instr.vadd, .vsub, .vsubr, .vminS, .vmaxS, .vminU, .vmaxU, .vadifS, .vand, .vor, .vxor, .vandn, .vshl, .vshrU, .vshrS, .vrotl, .vmul, .vmulhS, .vmulhU, .vmad, .vaddsS, .vsubsS, .vaddsU, .vsubsU, .vbfeU, .vbfeS, .vbfi, .vpermb, .vfadd, .vfsub, .vfmul, .vfma, .vfnma, .vfmin, .vfmax, .vfcpys, .vhadd2, .vhsub2, .vhmul2, .vhfma2, .vhmin2, .vhmax2].map (fun f => f 15 0 1 2 3) ++
    [Instr.vpopc, .vclz, .vbrev, .vmov, .vfclass, .vfgetexp, .vfscaleb].map (fun f => f 15 0 1 3) ++
    [Instr.vcvtF32Si32, .vcvtF32Ui32, .vcvtSi32F32, .vcvtUi32F32, .vfrint, .vcvtF32Bf16, .vcvtF32E4m3, .vcvtF32E5m2, .vcvtBf16F32, .vcvtE4m3F32, .vcvtE5m2F32].map (fun f => f 15 0 1 1 3) ++
    [Instr.vrank 15 0 2 25]

/-- One word of each of the control instructions, its guard always true. -/
def allControl : List Instr :=
    [Instr.bra 15 0 2] ++
    [Instr.brz, .brnz].map (fun f => f 15 0 64 2) ++
    [Instr.brx 15 0 72] ++
    [Instr.call 15 0 1 2] ++
    [Instr.callr, .ret].map (fun f => f 15 0 72 0) ++
    [Instr.loop 15 0 1 72 302] ++
    [Instr.loopx 15 0 1] ++
    [Instr.nop 15 0] ++
    [Instr.xpcr, .xpcw].map (fun f => f 15 0 72 25)

theorem met_uniform : ∀ i ∈ allUniform, Met uniformRule tState probeSheaf true true i := met_all rfl
theorem met_uniform_float : ∀ i ∈ allUniformFloat, Met uniformFloatRule tState probeSheaf true true i := met_all rfl
theorem met_predicate : ∀ i ∈ allPredicate, Met predRule tState probeSheaf true true i := met_all rfl
theorem met_affine : ∀ i ∈ allAffine, Met affineRule tState probeSheaf true true i := met_all rfl
theorem met_demotion : ∀ i ∈ allDemotion, Met demoteRule tState probeSheaf true true i := met_all rfl
theorem met_late : ∀ i ∈ allLate, Met lateRule tState probeSheaf true true i := met_all rfl
theorem met_shuffle : ∀ i ∈ allShuffle, Met shuffleRule tState probeSheaf true true i := met_all rfl

/-- No lane acts under a guard of zeros. -/
theorem met_idle : (∀ i ∈ [Instr.sadd 0 0 64 65], Met uniformRule tState probeSheaf true false i) ∧
    (∀ i ∈ [Instr.sfadd 11 0 64 65], Met uniformFloatRule tState probeSheaf true false i) ∧
    (∀ i ∈ [Instr.pset 0 0 11], Met predRule tState probeSheaf true false i) ∧ (∀ i ∈ [Instr.aneg 0 0 31 31], Met affineRule tState probeSheaf true false i) ∧
    (∀ i ∈ [Instr.sfirst 0 0 255 31], Met demoteRule tState probeSheaf true false i) ∧ (∀ i ∈ [Instr.vrcp 0 0 31 15 255], Met lateRule tState probeSheaf true false i) ∧
    (∀ i ∈ [Instr.shflUp 0 0 31 31 255 7], Met shuffleRule tState probeSheaf true false i) :=
  ⟨met_all rfl, met_all rfl, met_all rfl, met_all rfl, met_all rfl, met_all rfl, met_all rfl⟩

/-- A sheaf under MODE.AFAULT whose s0, s1 give an affine value that wraps in lane 1, whose v2 differs between lanes. -/
def tWraps (sh : Sheaf) : Sheaf :=
  let x := sh.writePair 0 0x000000017FFFFFFF 0
  { x.writeV 2 1 (fun _ => 1) 0 with mode := modeOf }
where
  /-- MODE with AFAULT alone (R48). -/
  modeOf : Word := 2

theorem ready_tWraps : Ready (tWith tWraps) (tWraps probeSheaf) := by constructor <;> rfl
theorem afault_tWraps : modeAfault (tWraps probeSheaf).mode = true := by rfl

/-- Operands on which ASET and AMOV trap AWRAP and SUNIF traps DEMOTE; a shuffle without members. -/
theorem met_traps : (∀ i ∈ [Instr.aset 15 0 0 64, .aset 15 0 31 64], Met affineRule (tWith tWraps) (tWraps probeSheaf) false true i) ∧
    (∀ i ∈ [Instr.sunif 15 0 64 2], Met demoteRule (tWith tWraps) (tWraps probeSheaf) false true i) ∧
    (∀ i ∈ [Instr.shflUp 15 0 0 1 2 0], Met shuffleRule tState probeSheaf false true i) := ⟨met_all rfl, met_all rfl, met_all rfl⟩

/-! ### Varying results -/

/-- The hypotheses of VaryingResults. -/
def MetLane (i : Instr) : Prop :=
  ∃ r, laneRule i = some r ∧ i.wf = true ∧ Prefixed i tState ∧ (r.float = true → probeSheaf.role ≠ .stage) ∧ (tState.here probeSheaf r.g r.n).acting ≠ 0

theorem met_varying : ∀ i ∈ allVarying, MetLane i := by
  have h : ∀ i : Instr, (match laneRule i with
      | some r => i.wf && ((tState.here probeSheaf r.g r.n).acting != 0)
      | none => false) = true → MetLane i := by
    intro i h
    split at h
    · rename_i r hr
      simp only [Bool.and_eq_true, bne_iff_ne] at h
      exact ⟨r, hr, h.1, ⟨Or.inl rfl, Or.inl rfl⟩, fun _ => by decide, h.2⟩
    · simp at h
  have k : allVarying.all (fun i => match laneRule i with
      | some r => i.wf && ((tState.here probeSheaf r.g r.n).acting != 0)
      | none => false) = true := by rfl
  exact fun i hi => h i (List.all_eq_true.mp k i hi)

/-! ### AFROMV, repeats, loop-backs, words without an instruction -/

/-- A sheaf whose v1 holds its lane numbers, whose v3 holds 0, 1, 3 in lanes 0, 1, 2. -/
def tLanes (sh : Sheaf) : Sheaf :=
  (sh.writeV 1 0xFFFFFFFF (fun l => BitVec.ofNat 32 l) 0).writeV 3 0xFFFFFFFF (fun l => if l = 2 then 3 else BitVec.ofNat 32 l) 0

theorem ready_tLanes : Ready (tWith tLanes) (tLanes probeSheaf) := by constructor <;> rfl
theorem wide_tLanes : Wide (tWith tLanes) (tLanes probeSheaf) 15 0 := ⟨rfl, rfl⟩

theorem met_afromv : (Instr.afromv 15 0 32 1).wf = true ∧ (Instr.afromv 15 0 63 1).wf = true ∧ Prefixed (.afromv 15 0 32 1) (tWith tLanes) :=
  ⟨rfl, rfl, Or.inl rfl, Or.inl rfl⟩

/-- Clauses of AFROMV: stride 1 is chosen of v1; no stride fits v3; no lane acts under a guard of zeros. -/
theorem met_afromv_stride : StrideChosen ((tLanes probeSheaf).readV 1) 0xFFFFFFFF 1 := by
  refine (if_neg (by decide)).mpr ⟨by unfold StrideFits; decide, fun y hy => ?_⟩
  have h1 := hy 1 (by decide) (by decide)
  have hy1 : y = 1 := by
    have e0 : (tLanes probeSheaf).readV 1 (lowestLane 0xFFFFFFFF) = 0 := by rfl
    have e1 : (tLanes probeSheaf).readV 1 1 = 1 := by rfl
    have e : BitVec.ofNat 32 (1 - lowestLane 0xFFFFFFFF) = 1 := by rfl
    rw [e0, e1, e] at h1
    simpa using h1
  subst hy1
  exact ⟨le_refl _, fun _ => Or.inl rfl⟩

theorem met_afromv_none : 2 ≤ (lanesOf 0xFFFFFFFF).length ∧ ∀ x, ¬ StrideFits ((tLanes probeSheaf).readV 3) 0xFFFFFFFF x := by
  refine ⟨by decide, fun x h => ?_⟩
  have h1 := h 1 (by decide) (by decide)
  have h2 := h 2 (by decide) (by decide)
  have e0 : (tLanes probeSheaf).readV 3 (lowestLane 0xFFFFFFFF) = 0 := by rfl
  have e1 : (tLanes probeSheaf).readV 3 1 = 1 := by rfl
  have e2 : (tLanes probeSheaf).readV 3 2 = 3 := by rfl
  rw [e0, e1] at h1
  rw [e0, e2] at h2
  have e : BitVec.ofNat 32 (1 - lowestLane 0xFFFFFFFF) = 1 := by rfl
  rw [e] at h1
  have hx : x = 1 := by simpa using h1
  subst hx
  exact absurd h2 (by decide)

theorem met_afromv_idle : ((tWith tLanes).here (tLanes probeSheaf) 0 0).acting = 0 := by rfl

/-- A state whose issue slot holds a REP payload. -/
def tRep (p : BitVec 19) (f : Sheaf → Sheaf) : State := { tWith f with slot := { tSlot with rep := some p } }

theorem standing_tRep (p : BitVec 19) : Standing (tRep p id) probeSheaf := by constructor <;> rfl

/-- A repeat of a varying instruction, all of whose lanes act. -/
theorem runs_lane {s0 s : State} {start k : Nat} {i : Instr} {r : LaneRule} {sh : Sheaf} (hr : repeatRule i = some r.once) (hw : i.wf = true)
    (hs : s.sheaf? s0.slot.sid = some sh) (hi : sh.issuing = true) (hf : sh.role ≠ .stage)
    (hu : s.forceResults s0.slot.sid (fun p => (p.window == 0 || decide (start ≤ p.id)) && p.meets []) = s)
    (ha : sh.acting r.once.g.toNat r.once.n.toNat s0.slot.lanes ≠ 0) :
    RunsRepeat s0 start k i s (r.once.after s { s0.slot with index := k, acting := sh.acting r.once.g.toNat r.once.n.toNat s0.slot.lanes } sh) := by
  refine ⟨r.once, sh, sh, hr, hw, hs, hi, fun _ => hf, ?_⟩
  refine ⟨fun h => (nomatch h : False).elim, ?_⟩
  have hu' : s.forceResults s0.slot.sid (fun p => (p.window == 0 || decide (start ≤ p.id)) && p.meets (r.once.needs.map sh.nameOf)) = s := hu
  simp only [hu']
  exact ⟨hs, hi, Or.inr ⟨ha, trivial, trivial⟩⟩

/-- A REP of two instructions that steps v(d), v(a) and b by one stands before VADD v0, v1, v2: both repeats run; before VADD v31, v1, v2 the
second leaves its file. -/
theorem met_repeats :
    let s := tRep 0x701 id
    ∃ at_ bt t y u z, RepeatForm (.vadd 15 0 0 1 2) at_ true true ∧ RepeatForm (.vadd 15 0 31 1 2) bt true true ∧ s.slot.rep = some 0x701 ∧
      Prefixed (.vadd 15 0 0 1 2) s ∧ s.groupStart probeSheaf ≤ s.nextId ∧
      RunsTo s (s.groupStart probeSheaf) (atRepeat at_ 0x701) 0 2 t ∧ t.sheaf? s.slot.sid = some y ∧ y.issuing = true ∧
      RunsTo s (s.groupStart probeSheaf) (atRepeat bt 0x701) 0 1 u ∧ u.sheaf? s.slot.sid = some z ∧ z.issuing = true ∧
      ∀ j, atRepeat bt 0x701 1 = some j → j.wf = false :=
  ⟨_, _, _, _, _, _, .vv (mk := Instr.vadd) (by simp [repeatVv]) 15 0 0 1 2, .vv (mk := Instr.vadd) (by simp [repeatVv]) 15 0 31 1 2, rfl,
    ⟨Or.inl rfl, Or.inl rfl⟩, Nat.le_refl _,
    .more (.more .none rfl (runs_lane rfl rfl rfl rfl (by decide) rfl (by decide))) rfl (runs_lane rfl rfl rfl rfl (by decide) rfl (by decide)), rfl, rfl,
    .more .none rfl (runs_lane rfl rfl rfl rfl (by decide) rfl (by decide)), rfl, rfl, fun _ h => nomatch h⟩

/-- What is left of a group that a fault has cut: its last repeat. -/
theorem met_repeats_rest : Standing (tRep 0x701 (fun sh => { sh with reprem := 1 })) { probeSheaf with reprem := 1 } ∧
    repeatsToRun 0x701 1 = 1 ∧ repeatsToRun 0x701 0 = 2 ∧ repeatsToRun 0x701 3 = 2 := ⟨by constructor <;> rfl, rfl, rfl, rfl⟩

/-- An instruction that no list of R94 holds. -/
theorem no_repeat {i : Instr} (h1 : ∀ mk ∈ repeatVv, ∀ g n d a b, mk g n d a b ≠ i) (h2 : ∀ mk ∈ repeatVu, ∀ g n d b, mk g n d b ≠ i)
    (h3 : ∀ mk ∈ repeatUr, ∀ g n d b, mk g n d b ≠ i) (h4 : ∀ mk ∈ repeatAf, ∀ g n d a b, mk g n d a b ≠ i)
    (h5 : ∀ mk ∈ repeatAu, ∀ g n d b, mk g n d b ≠ i) (h6 : ∀ x y, ∀ mk ∈ repeatGlobal x y, ∀ g n d o b, mk g n d o b ≠ i)
    (h7 : ∀ y, ∀ mk ∈ repeatLocal y, ∀ g n d o b, mk g n d o b ≠ i)
    (h8 : ∀ g n d a b f, Instr.smovp g n d b ≠ i ∧ Instr.pmovs g n d b ≠ i ∧ Instr.aneg g n a (d.setWidth 5) ≠ i ∧ Instr.pfg g n b (d.setWidth 3) f ≠ i)
    {at_ : Int → Int → Int → Option Instr} {sa sb : Bool} : ¬ RepeatForm i at_ sa sb := by
  intro h
  generalize hi : i = j at h
  cases h with
  | vv h g n d a b => exact h1 _ h g n d a b hi.symm
  | vu h g n d b => exact h2 _ h g n d b hi.symm
  | ur h g n d b => exact h3 _ h g n d b hi.symm
  | smovp g n d b => exact (h8 g n d 0 b 0).1 hi.symm
  | pmovs g n d b => exact (h8 g n d 0 b 0).2.1 hi.symm
  | af h g n d a b => exact h4 _ h g n d a b hi.symm
  | au h g n d b => exact h5 _ h g n d b hi.symm
  | aneg g n d a => subst hi; exact (h8 g n (a.setWidth 8) d 0 0).2.2.1 (by simp)
  | glob k l h g n d o b => exact h6 k l _ h g n d o b hi.symm
  | pfg g n o b f => subst hi; exact (h8 g n (b.setWidth 8) 0 o f).2.2.2 (by simp)
  | loc l h g n d o b => exact h7 l _ h g n d o b hi.symm

/-- REP before instructions of other formats. -/
theorem met_repeats_elsewhere : ∀ i ∈ [Instr.exit 15 0, .mwait 15 0, .atomg 15 0 1 7 0 0 2 0], encodeNat i ≠ none ∧ hintRule i = none ∧
    ∀ at_ sa sb, ¬ RepeatForm i at_ sa sb := by
  simp only [List.forall_mem_cons, List.not_mem_nil, false_imp_iff, implies_true, and_true]
  refine ⟨⟨by decide, rfl, fun _ _ _ => ?_⟩, ⟨by decide, rfl, fun _ _ _ => ?_⟩, ⟨by decide, rfl, fun _ _ _ => ?_⟩⟩ <;>
    apply no_repeat <;> simp [repeatVv, repeatVu, repeatUr, repeatAf, repeatAu, repeatGlobal, repeatLocal]

/-- A step bit for a field that the format does not have: SA before LDG. -/
theorem met_repeats_step : (0x200 : BitVec 19).getLsbD 9 = true ∧ ∃ at_, RepeatForm (.ldg 15 0 1 7 0 0 0) at_ false true :=
  ⟨rfl, _, .glob (mk := fun g n d o b => Instr.ldg g n d o b 0 0) 0 0 (by simp [repeatGlobal]) 15 0 1 7 0⟩

/-- A sheaf that stands at the end of its armed slot 1. -/
def tLoop (sh : Sheaf) : Sheaf := { sh with loop1 := { lc := 2, ls := 0x0FFF0, le := probeCode, mark := 0 } }

theorem met_loops : AtEnd (tWith tLoop) (tLoop probeSheaf) := by constructor <;> rfl

/-- An instruction of registers at the end of the body, acting and idle. -/
theorem met_loops_registers : (∃ r, registerRule (.sadd 15 0 64 65) = some r ∧ guardUniform (r.slot (tWith tLoop) (tLoop probeSheaf)) = true ∧
      (r.slot (tWith tLoop) (tLoop probeSheaf)).acting ≠ 0 ∧ r.fits (tLoop probeSheaf) (r.slot (tWith tLoop) (tLoop probeSheaf)).acting = true) ∧
    (∃ r, registerRule (.sadd 0 0 64 65) = some r ∧ (r.slot (tWith tLoop) (tLoop probeSheaf)).acting = 0) :=
  ⟨⟨_, rfl, rfl, by decide, rfl⟩, _, rfl, rfl⟩

/-- What a split sheaf is allowed at the end of a body, and what stands there that may not. -/
theorem met_loops_split : Allowed (.vadd 15 0 1 2 3) ((tWith tLoop).begun (tLoop probeSheaf)) (tLoop probeSheaf).begun ∧
    Allowed (.mwait 15 0) ((tWith (fun sh => { tLoop sh with role := .matrix })).begun { tLoop probeSheaf with role := .matrix })
      { tLoop probeSheaf with role := .matrix } ∧ (tLoop probeSheaf).atLoopEnd probeCode = true ∧ (1 : Mask) ≠ (tLoop probeSheaf).live ∧
    (∃ w, encodeNat (.exit 15 0) = some w ∧ w / 2 ^ 26 = 0x1C) ∧ (∃ legal add, hintRule (.la 15) = some (legal, add)) := by
  refine ⟨⟨fun _ _ h => (nomatch h), ?_⟩, ⟨?_, ?_⟩, rfl, by decide, ⟨_, rfl, rfl⟩, _, _, rfl⟩
  · simp only [List.forall_mem_cons, List.not_mem_nil, false_imp_iff, implies_true, and_true]
    refine ⟨?_, ?_, ?_, ?_, ?_, ?_, ?_, ?_, ?_, ?_⟩ <;> exact fun _ h => nomatch h
  · intro c legal h
    cases h
    rfl
  · simp only [List.forall_mem_cons, List.not_mem_nil, false_imp_iff, implies_true, and_true]
    refine ⟨?_, ?_, ?_, ?_, ?_, ?_, ?_, ?_, ?_, ?_⟩ <;> intro r h <;> cases h <;> trivial

/-! ### Control -/

/-- A sheaf that may call and return, and that may issue a handler's instructions. -/
def tCtl (sh : Sheaf) : Sheaf :=
  { sh with vstack := 56, wbase := 8, state := .trapped,
            handler := some { xpc := List.replicate 32 0, loop0 := LoopSlot.zero, loop1 := LoopSlot.zero, round := Round.none, reprem := 0, tcause := 0, tinfo := 0, second := none } }

theorem ready_tCtl : Ready (tWith tCtl) (tCtl probeSheaf) := by constructor <;> rfl

/-- What ControlFlow assumes of an instruction, and whether it traps, checked. -/
def meetsFlow (s : State) (sh : Sheaf) (traps : Bool) (i : Instr) : Bool :=
  match flowRule i with
  | some r => i.wf && s.slot.ximm.isNone && s.slot.la.isNone && (!r.wide || (s.slot.lanes == sh.live && guardUniform (s.here sh r.g.toNat r.n.toNat))) &&
      (!r.handler || sh.handler.isSome) && ((s.here sh r.g.toNat r.n.toNat).acting != 0) && ((r.trap (s.here sh r.g.toNat r.n.toNat) sh).isSome == traps)
  | none => false

/-- The hypotheses of ControlFlow. -/
def MetFlow (s : State) (sh : Sheaf) (traps : Bool) (i : Instr) : Prop :=
  ∃ r, flowRule i = some r ∧ i.wf = true ∧ Prefixed i s ∧ (r.wide = true → Wide s sh r.g.toNat r.n.toNat) ∧ (r.handler = true → sh.handler.isSome = true) ∧
    (s.here sh r.g.toNat r.n.toNat).acting ≠ 0 ∧ (r.trap (s.here sh r.g.toNat r.n.toNat) sh).isSome = traps

theorem metFlow_of {s : State} {sh : Sheaf} {traps : Bool} {is : List Instr} (h : is.all (meetsFlow s sh traps) = true) : ∀ i ∈ is, MetFlow s sh traps i := by
  intro i hi
  have h := List.all_eq_true.mp h i hi
  unfold meetsFlow at h
  split at h
  · rename_i r hr
    simp only [Bool.and_eq_true, Bool.or_eq_true, Bool.not_eq_true', beq_iff_eq, Option.isNone_iff_eq_none, bne_iff_ne] at h
    obtain ⟨⟨⟨⟨⟨⟨h1, h2⟩, h3⟩, h4⟩, h5⟩, h6⟩, h7⟩ := h
    refine ⟨r, hr, h1, ⟨Or.inl h2, Or.inl h3⟩, fun hw => ?_, fun hf => ?_, h6, h7⟩
    · rcases h4 with h4 | h4
      · simp [hw] at h4
      · exact ⟨h4.1, h4.2⟩
    · rcases h5 with h5 | h5
      · simp [hf] at h5
      · exact h5
  · simp at h

theorem met_control : ∀ i ∈ allControl, MetFlow (tWith tCtl) (tCtl probeSheaf) false i := metFlow_of rfl

/-- Calls and returns that leave their window, and a branch whose target is odd. -/
theorem met_control_traps : ∀ i ∈ [Instr.call 15 0 2 2, .callr 15 0 72 2, .ret 15 0 72 1], MetFlow (tWith tCtl) (tCtl probeSheaf) true i := metFlow_of rfl

theorem met_control_target : ∀ i ∈ [Instr.ret 15 0 72 0, .callr 15 0 72 0],
    MetFlow (tWith (fun sh => tCtl (sh.writePair 8 2 0))) (tCtl (probeSheaf.writePair 8 2 0)) true i := metFlow_of rfl

/-! ### Memory -/

/-- The tuft of the tests: 4 KB of local store, four tags, a ring of two tokens, a group of its one sheaf. -/
def tTuft : Tuft :=
  { probeTuft with
    lsize := 4096, tags := List.replicate 4 Tag.zero,
    rings := [{ cons := 15, prod := 15, slots := 1, tokens := [], poisoned := false }],
    groups := [{ number := 0, members := 1, quartet := false, poison := false, phase := 0, arrived := 0 }] }

/-- The kernel of the tests: a window of 64 bytes. -/
def tKernel : Kernel := { probeKernel with windows := [(0x10000, 64)] }

/-- The sheaf of the tests: s0 and s1, and the base registers of global accesses, name its page. -/
def tSheaf : Sheaf := (probeSheaf.writePair 0 0x10100 0).writePair 128 0x10400 0

/-- The machine with that tuft, its sheaf changed. -/
def tRich (f : Sheaf → Sheaf) : State := (((tState.setTuft 0 tTuft).setKernel 0 tKernel).setSheaf 0 (f tSheaf))

theorem ready_tRich : Ready (tRich id) tSheaf := by constructor <;> rfl

/-- What a statement about the machine assumes of an instruction, checked, but for its own condition. -/
def meetsMachine (s : State) (sh : Sheaf) (i : Instr) (r : MachineRule) : Bool :=
  i.wf && s.slot.ximm.isNone && s.slot.la.isNone && (!r.wide || (s.slot.lanes == sh.live && guardUniform (s.here sh r.g.toNat r.n.toNat))) &&
    r.role.issues sh.role && ((s.here sh r.g.toNat r.n.toNat).acting != 0)

/-- The hypotheses of MachineRules. -/
def MetMachine (table : Instr → Option MachineRule) (s : State) (sh : Sheaf) (i : Instr) : Prop :=
  ∃ r, table i = some r ∧ i.wf = true ∧ Prefixed i s ∧ (r.wide = true → Wide s sh r.g.toNat r.n.toNat) ∧ r.role.issues sh.role = true ∧
    r.legal s.slot ∧ (s.here sh r.g.toNat r.n.toNat).acting ≠ 0 ∧ r.goes (s.begun sh) (s.here sh r.g.toNat r.n.toNat) sh.begun

theorem metMachine_of {table : Instr → Option MachineRule} {s : State} {sh : Sheaf} {i : Instr} {r : MachineRule} (h : table i = some r)
    (k : meetsMachine s sh i r = true) (g : r.goes (s.begun sh) (s.here sh r.g.toNat r.n.toNat) sh.begun)
    (l : r.legal s.slot := by trivial) : MetMachine table s sh i := by
  unfold meetsMachine at k
  simp only [Bool.and_eq_true, Bool.or_eq_true, Bool.not_eq_true', beq_iff_eq, Option.isNone_iff_eq_none, bne_iff_ne] at k
  obtain ⟨⟨⟨⟨⟨h1, h2⟩, h3⟩, h4⟩, h5⟩, h6⟩ := k
  refine ⟨r, h, h1, ⟨Or.inl h2, Or.inl h3⟩, fun hw => ?_, h5, l, h6, g⟩
  rcases h4 with h4 | h4
  · simp [hw] at h4
  · exact ⟨h4.1, h4.2⟩

/-- Checks that let an access go. -/
def goesOn : Checked → Bool
  | .go _ _ => true
  | .stop _ => false

theorem goes_of {c : Checked} (h : goesOn c = true) : ∃ xs t, c = .go xs t := by
  cases c with
  | go xs t => exact ⟨xs, t, rfl⟩
  | stop a => simp [goesOn] at h

/-- Checks that let a local access go. -/
def goesOnLocal : CheckedLocal → Bool
  | .go _ _ => true
  | .stop _ => false

theorem goesLocal_of {c : CheckedLocal} (h : goesOnLocal c = true) : ∃ xs t, c = .go xs t := by
  cases c with
  | go xs t => exact ⟨xs, t, rfl⟩
  | stop a => simp [goesOnLocal] at h

theorem met_global : (∀ i ∈ [Instr.ldg 15 0 1 7 0 0 0, .ldgW 15 0 2 7 0 0 0, .ldgQ 15 0 4 7 0 1 15, .ldgU8 15 0 1 7 0 0, .ldgS8 15 0 1 7 0 0,
    .ldgU16 15 0 1 7 0 0, .ldgS16 15 0 1 7 0 0, .stg 15 0 1 7 0 0 0, .stgW 15 0 2 7 0 1 2, .stgQ 15 0 4 7 0 0 1, .stgB8 15 0 1 7 0 0,
    .stgB16 15 0 1 7 0 1, .pfg 15 0 7 0 0], MetMachine globalRule (tRich id) tSheaf i) := by
  simp only [List.forall_mem_cons, List.not_mem_nil, false_imp_iff, implies_true, and_true]
  refine ⟨?_, ?_, ?_, ?_, ?_, ?_, ?_, ?_, ?_, ?_, ?_, ?_, metMachine_of rfl rfl trivial⟩ <;> exact metMachine_of rfl rfl (goes_of rfl)

theorem met_local : (∀ i ∈ [Instr.ldl 15 0 1 7 0 0, .ldlW 15 0 2 7 0 0, .ldlQ 15 0 4 7 0 15, .ldlU8 15 0 1 7 0, .ldlS8 15 0 1 7 0,
    .ldlU16 15 0 1 7 0, .ldlS16 15 0 1 7 0, .stl 15 0 1 7 0 0, .stlW 15 0 2 7 0 2, .stlQ 15 0 4 7 0 1, .stlB8 15 0 1 7 0,
    .stlB16 15 0 1 7 0], MetMachine localRule (tRich id) tSheaf i) := by
  simp only [List.forall_mem_cons, List.not_mem_nil, false_imp_iff, implies_true, and_true]
  refine ⟨?_, ?_, ?_, ?_, ?_, ?_, ?_, ?_, ?_, ?_, ?_, ?_⟩ <;> exact metMachine_of rfl rfl (goesLocal_of rfl)

theorem met_words : (∀ i ∈ [Instr.lds 15 0 66 64, .ldsW 15 0 66 64, .ldsQ 15 0 68 64, .ldsO 15 0 72 64], MetMachine wordsRule (tRich id) tSheaf i) ∧
    (∀ i ∈ [Instr.ldp 15 0 66 0 0, .ldp 15 0 66 7 0], MetMachine wordsRule (tRich id) tSheaf i) ∧ MetMachine wordsRule (tRich id) tSheaf (.ldls 15 0 66 66) := by
  refine ⟨?_, ?_, metMachine_of rfl rfl ?_⟩
  · simp only [List.forall_mem_cons, List.not_mem_nil, false_imp_iff, implies_true, and_true]
    refine ⟨?_, ?_, ?_, ?_⟩ <;> exact metMachine_of rfl rfl ⟨trivial, rfl⟩
  · simp only [List.forall_mem_cons, List.not_mem_nil, false_imp_iff, implies_true, and_true]
    refine ⟨?_, ?_⟩ <;> exact metMachine_of rfl rfl ⟨⟨0x10000, 64, rfl, by decide⟩, rfl⟩ ⟨by decide, by decide⟩
  · exact ⟨_, _, rfl⟩

/-- Loads and stores at the end of the body. -/
theorem met_loops_memory : AtEnd (tRich tLoop) (tLoop tSheaf) ∧ MetMachine globalRule (tRich tLoop) (tLoop tSheaf) (.pfg 15 0 7 0 0) ∧
    MetMachine localRule (tRich tLoop) (tLoop tSheaf) (.ldl 15 0 1 7 0 0) ∧ MetMachine wordsRule (tRich tLoop) (tLoop tSheaf) (.lds 15 0 66 64) ∧
    ∃ r y, localRule (.stl 15 0 1 7 0 0) = some r ∧
      ((r.after ((tRich tLoop).begun (tLoop tSheaf)) ((tRich tLoop).here (tLoop tSheaf) 15 0) (tLoop tSheaf).begun).notes 0
        (r.writes.map (tLoop tSheaf).phys)).sheaf? 0 = some y ∧ y.over = false :=
  ⟨by constructor <;> rfl, metMachine_of rfl rfl trivial, metMachine_of rfl rfl (goesLocal_of rfl), metMachine_of rfl rfl ⟨trivial, rfl⟩, _, _, rfl, rfl, rfl⟩

/-! ### Instructions that wait, trap or reach what a tuft shares -/

/-- What ActRules assumes of an instruction, but for its own condition, checked; the outcome is spoken of. -/
def meetsAct (s : State) (sh : Sheaf) (i : Instr) (r : ActRule) : Bool :=
  i.wf && s.slot.ximm.isNone && s.slot.la.isNone &&
    (!r.wide || (s.slot.lanes == sh.live && (r.lone || guardUniform (s.here sh r.g.toNat r.n.toNat)))) && r.role.issues sh.role &&
    ((s.here sh r.g.toNat r.n.toNat).acting != 0) && (r.outcome (s.begun sh) (s.here sh r.g.toNat r.n.toNat) sh.begun).isSome

/-- The hypotheses of ActRules. -/
def MetAct (table : Instr → Option ActRule) (s : State) (sh : Sheaf) (i : Instr) : Prop :=
  ∃ r a, table i = some r ∧ i.wf = true ∧ Prefixed i s ∧
    (r.wide = true → s.slot.lanes = sh.live ∧ (r.lone = true ∨ guardUniform (s.here sh r.g.toNat r.n.toNat) = true)) ∧ r.role.issues sh.role = true ∧
    r.legal (s.begun sh) sh.begun ∧ (s.here sh r.g.toNat r.n.toNat).acting ≠ 0 ∧
    r.outcome (s.begun sh) (s.here sh r.g.toNat r.n.toNat) sh.begun = some a

theorem metAct_of {table : Instr → Option ActRule} {s : State} {sh : Sheaf} {i : Instr} {r : ActRule} (h : table i = some r)
    (k : meetsAct s sh i r = true) (g : r.legal (s.begun sh) sh.begun) : MetAct table s sh i := by
  unfold meetsAct at k
  simp only [Bool.and_eq_true, Bool.or_eq_true, Bool.not_eq_true', beq_iff_eq, Option.isNone_iff_eq_none, bne_iff_ne, Option.isSome_iff_exists] at k
  obtain ⟨⟨⟨⟨⟨⟨h1, h2⟩, h3⟩, h4⟩, h5⟩, h6⟩, a, h7⟩ := k
  refine ⟨r, a, h, h1, ⟨Or.inl h2, Or.inl h3⟩, fun hw => ?_, h5, g, h6, h7⟩
  rcases h4 with h4 | h4
  · simp [hw] at h4
  · exact h4

theorem met_atomic : ∀ i ∈ [Instr.atomg 15 0 1 7 0 0 2 0, .atomg 15 0 2 7 0 15 0 0, .atomg 15 0 1 7 0 12 2 3, .atoml 15 0 1 7 0 0 0 0, .atoml 15 0 2 7 0 10 1 3,
    .atoms 15 0 66 64 0 0, .atoms 15 0 66 64 0 1], MetAct atomicRule (tRich id) tSheaf i := by
  simp only [List.forall_mem_cons, List.not_mem_nil, false_imp_iff, implies_true, and_true]
  refine ⟨?_, ?_, ?_, ?_, ?_, ?_, ?_⟩ <;> exact metAct_of rfl rfl trivial

/-- A sheaf with a send of the SLICE class still out. -/
def tOut (sh : Sheaf) : Sheaf := { sh with cntSlice := 1 }

theorem met_fences : (∀ i ∈ [Instr.fence 15 0 0, .fence 15 0 4, .rel 15 0 3, .wdrain 15 0, .acq 15 0 4, .l1wb 15 0, .l1inv 15 0, .leaseSet 15 0 66,
      .leaseMeas 15 0, .leaseGet 15 0 66], MetAct fenceRule (tRich id) tSheaf i) ∧
    ∀ i ∈ [Instr.fence 15 0 2, .rel 15 0 2, .wdrain 15 0], ∃ g n scope begins y, fenceWaits i = some (g, n, scope, begins) ∧
      (begins ((tRich tOut).begun (tOut tSheaf)) 0).sheaf? 0 = some y ∧ y.over = false ∧ y.cntSlice ≠ 0 ∧ 2 ≤ scope := by
  simp only [List.forall_mem_cons, List.not_mem_nil, false_imp_iff, implies_true, and_true]
  refine ⟨⟨?_, ?_, ?_, ?_, ?_, ?_, ?_, ?_, ?_, ?_⟩, ⟨?_, ?_, ?_⟩⟩ <;>
    first | exact metAct_of rfl rfl trivial | exact ⟨_, _, _, _, _, rfl, rfl, rfl, by decide, by decide⟩

/-- One number of each special register that SRD reads and SWR writes, the pair s0, s1 holding an address that all of them take. -/
theorem met_special : (∀ i ∈ [0x00, 0x01, 0x02, 0x03, 0x04, 0x05, 0x06, 0x08, 0x09, 0x0A, 0x0C, 0x10, 0x11, 0x12, 0x13, 0x18, 0x19, 0x1A, 0x1B, 0x1C, 0x1D, 0x1E,
      0x20, 0x21, 0x24, 0x25, 0x26].map (fun n => Instr.srd 15 0 64 n), MetAct specialRule (tRich id) tSheaf i) ∧
    (∀ i ∈ [0x10, 0x12, 0x18, 0x19, 0x1A, 0x1B, 0x1C, 0x1D, 0x1E, 0x24, 0x25].map (fun n => Instr.swr 15 0 64 n),
      MetAct specialRule (tRich tCtl) (tCtl tSheaf) i) := by
  simp only [List.map_cons, List.map_nil, List.forall_mem_cons, List.not_mem_nil, false_imp_iff, implies_true, and_true]
  refine ⟨⟨?_, ?_, ?_, ?_, ?_, ?_, ?_, ?_, ?_, ?_, ?_, ?_, ?_, ?_, ?_, ?_, ?_, ?_, ?_, ?_, ?_, ?_, ?_, ?_, ?_, ?_, ?_⟩,
    ?_, ?_, ?_, ?_, ?_, ?_, ?_, ?_, ?_, ?_, ?_⟩ <;> first | exact metAct_of rfl rfl trivial | exact metAct_of rfl rfl (fun _ => rfl)

theorem ready_tRich_tCtl : Ready (tRich tCtl) (tCtl tSheaf) := by constructor <;> rfl

theorem met_handler : (∀ i ∈ [Instr.exit 15 0, .yield 15 0, .bkpt 15 0 255, .trap 15 0 0, .acqRmt 15 0 66], MetAct handlerRule (tRich id) tSheaf i) ∧
    MetAct handlerRule (tRich id) tSheaf (.svc 15 0 64 255) ∧
    (∀ i ∈ [Instr.rte 15 0, .wspill 15 0 8, .wspill 15 0 224, .wfill 15 0 8, .wfill 15 0 1], MetAct handlerRule (tRich tCtl) (tCtl tSheaf) i) := by
  simp only [List.forall_mem_cons, List.not_mem_nil, false_imp_iff, implies_true, and_true]
  refine ⟨⟨?_, ?_, ?_, ?_, ?_⟩, metAct_of rfl rfl rfl, ⟨?_, ?_, ?_, ?_, ?_⟩⟩ <;>
    first | exact metAct_of rfl rfl trivial | exact metAct_of rfl rfl (rfl : (tCtl tSheaf).handler.isSome = true)

theorem met_barrier : (∀ i ∈ [Instr.barv 15 0 0 66, .bsync 15 0 0, .barvn 15 0 0, .bwait 15 0 0 66, .btest 15 0 0 66, .gmask 15 0 0 66, .gqry 15 0 0 66,
      .barv 15 0 1 66], MetAct barrierRule (tRich id) tSheaf i) ∧
    (∀ i ∈ [Instr.gsave 15 0 0 66, .gload 15 0 0 66], MetAct barrierRule (tRich tCtl) (tCtl tSheaf) i) := by
  simp only [List.forall_mem_cons, List.not_mem_nil, false_imp_iff, implies_true, and_true]
  refine ⟨⟨?_, ?_, ?_, ?_, ?_, ?_, ?_, ?_⟩, ?_, ?_⟩ <;>
    first | exact metAct_of rfl rfl trivial | exact metAct_of rfl rfl (rfl : (tCtl tSheaf).handler.isSome = true)

/-- A MATRIX sheaf with eight tiles, whose tuft has a quartet. -/
def tMatrix (sh : Sheaf) : Sheaf := { sh with role := .matrix }

/-- The machine with that sheaf. -/
def tTiles : State := (tRich tMatrix).setKernel 0 { tKernel with desc := { tKernel.desc with geom := 0x00080000, modew := 0 } }

theorem ready_tTiles : Ready tTiles (tMatrix tSheaf) := by constructor <;> rfl

theorem met_commands : (∀ i ∈ [Instr.cpyLin, .cpyLinw, .cpyXpnd, .cpyL2l, .cpyFill].map (fun f => f 15 0 3 64), MetAct commandRule (tRich id) tSheaf i) ∧
    (∀ i ∈ [Instr.cpyT2d, .cpyT2dw, .cpyGath, .cpyScat].map (fun f => f 15 0 0 72), MetAct commandRule (tRich id) tSheaf i) ∧
    (∀ i ∈ [Instr.crs 15 0 0 72 3 1, .cag 15 0 0 72 0 1, .car 15 0 3 72 0 0], MetAct commandRule (tRich id) tSheaf i) := by
  simp only [List.map_cons, List.map_nil, List.forall_mem_cons, List.not_mem_nil, false_imp_iff, implies_true, and_true]
  refine ⟨⟨?_, ?_, ?_, ?_, ?_⟩, ⟨?_, ?_, ?_, ?_⟩, ?_, ?_, ?_⟩ <;> exact metAct_of rfl rfl ⟨_, rfl, by decide⟩

theorem met_tags : ∀ i ∈ [Instr.twaitany 15 0 66 68, .twaitall 15 0 66 68, .tfind 15 0 66 68, .tclr 15 0 68, .tstat 15 0 66 68],
    MetAct tagRule (tRich id) tSheaf i := by
  simp only [List.forall_mem_cons, List.not_mem_nil, false_imp_iff, implies_true, and_true]
  refine ⟨?_, ?_, ?_, ?_, ?_⟩ <;> exact metAct_of rfl rfl trivial

theorem met_rings : ∀ i ∈ [Instr.rput 15 0 0 66, .rget 15 0 0 66, .rputNb 15 0 0 66 0, .rgetNb 15 0 0 66 11, .rclose 15 0 0, .rstat 15 0 0 66],
    MetAct ringRule (tRich id) tSheaf i := by
  simp only [List.forall_mem_cons, List.not_mem_nil, false_imp_iff, implies_true, and_true]
  refine ⟨?_, ?_, ?_, ?_, ?_, ?_⟩ <;> exact metAct_of rfl rfl ⟨_, rfl, by decide⟩

theorem met_handles : ∀ i ∈ [Instr.hgive 15 0 66 1, .hrecv 15 0 66 1, .hqry 15 0 66, .hdrop 15 0 66], MetAct handleRule (tRich id) tSheaf i := by
  simp only [List.forall_mem_cons, List.not_mem_nil, false_imp_iff, implies_true, and_true]
  refine ⟨?_, ?_, ?_, ?_⟩ <;> exact metAct_of rfl rfl trivial

theorem met_children : ∀ i ∈ [Instr.klaunch 15 0 64, .kwait 15 0 66, .kquota 15 0 66], MetAct childRule (tRich id) tSheaf i := by
  simp only [List.forall_mem_cons, List.not_mem_nil, false_imp_iff, implies_true, and_true]
  refine ⟨?_, ?_, ?_⟩ <;> exact metAct_of rfl rfl trivial

theorem met_marks : ∀ i ∈ [Instr.mkdown 15 0 0 0, .mkget 15 0 66, .trmark 15 0 66, .clkrd 15 0 66], MetAct markRule (tRich id) tSheaf i := by
  simp only [List.forall_mem_cons, List.not_mem_nil, false_imp_iff, implies_true, and_true]
  refine ⟨?_, ?_, ?_, ?_⟩ <;> exact metAct_of rfl rfl trivial

theorem met_matrix : ∀ i ∈ [Instr.mma 15 0 0 0 0 0 0 0 0, .mma 15 0 0 1 0 0 0 0 0, .mzero 15 0 0, .mldt 15 0 0 0 0, .mstt 15 0 0 0 0, .mrowv 15 0 0 0, .mwait 15 0,
    .mfence 15 0, .mdesc 15 0 0 66, .mdescGet 15 0 7 66], MetAct matrixRule tTiles (tMatrix tSheaf) i := by
  simp only [List.forall_mem_cons, List.not_mem_nil, false_imp_iff, implies_true, and_true]
  refine ⟨?_, ?_, ?_, ?_, ?_, ?_, ?_, ?_, ?_, ?_⟩ <;>
    first | exact metAct_of rfl rfl trivial | exact metAct_of rfl rfl ⟨by decide, by decide⟩ | exact metAct_of rfl rfl (by decide)

/-- MODE with MSTRICT alone (R48). -/
def tStrict (sh : Sheaf) : Sheaf := { tMatrix sh with mode := 4 }

/-- A descriptor of one row at byte 0. -/
def tRow (x : Nat) (sh : Sheaf) : Sheaf := sh.writeD 0 (BitVec.ofNat 64 (x + 2 ^ 43)) 0

/-- A pending operation. -/
def tOp (k : MatKind) (regs : List Nat) : MatOp :=
  { id := 4, kind := k, acting := 1, desc := BitVec.ofNat 64 (2 ^ 43), aElems := [], bElems := [], bRegs := regs, mark := 0, done := false }

/-- That machine with its sheaf changed, in tiles. -/
def tTilesWith (f : Sheaf → Sheaf) : State := (tTiles.setSheaf 0 (f tSheaf))

/-- Bytes that are not there, a line with another swizzle, a B register written since the last MFENCE. -/
theorem met_matrix_traps : MetAct matrixRule (tTilesWith (fun sh => tRow 0x1000 (tStrict sh))) (tRow 0x1000 (tStrict tSheaf)) (.mldt 15 0 0 0 0) ∧
    MetAct matrixRule (tTilesWith (fun sh => tRow (2 ^ 40) (tStrict sh))) (tRow (2 ^ 40) (tStrict tSheaf)) (.mldt 15 0 0 0 0) ∧
    MetAct matrixRule (tTilesWith (fun sh => { tStrict sh with bWrites := [0] })) { tStrict tSheaf with bWrites := [0] } (.mma 15 0 0 0 0 0 0 0 0) :=
  ⟨metAct_of rfl rfl (by decide), metAct_of rfl rfl (by decide), metAct_of rfl rfl ⟨by decide, by decide⟩⟩

/-- An instruction that meets each row of R195. -/
theorem met_hazards :
    let sh1 : Sheaf := { tStrict tSheaf with bWrites := [0] }
    let sh2 (m : MatOp) : Sheaf := { tStrict tSheaf with mops := [m] }
    Standing (tTilesWith (fun _ => sh1)) sh1 ∧ Standing (tTilesWith (fun _ => sh2 (tOp (.mzero 0) [0]))) (sh2 (tOp (.mzero 0) [0])) ∧
    modeMstrict sh1.mode = true ∧
    (matrixView (.mma 15 0 0 0 0 0 0 0 0) ((tTilesWith (fun _ => sh1)).here sh1 15 0) sh1).bind (fun v => v.row sh1) = some 1 ∧
    (matrixView (.mrowv 15 0 0 0) ((tTilesWith (fun _ => sh1)).here sh1 15 0) sh1).bind (fun v => v.row (sh2 (tOp (.mzero 1) [0]))) = some 2 ∧
    (matrixView (.mrowv 15 0 0 0) ((tTilesWith (fun _ => sh1)).here sh1 15 0) sh1).bind (fun v => v.row (sh2 (tOp (.mzero 0) [31]))) = some 3 ∧
    (matrixView (.mma 15 0 0 0 0 0 0 0 0) ((tTilesWith (fun _ => sh1)).here sh1 15 0) sh1).bind (fun v => v.row (sh2 (tOp (.mrowv [0] 1) []))) = some 4 :=
  ⟨by constructor <;> rfl, by constructor <;> rfl, rfl, rfl, rfl, rfl, rfl⟩

/-- A varying destination that is a B register of a pending MMA, and one that a pending MROWV writes; a local load of a byte that a pending MSTT
stores. -/
theorem met_hazards_others : (tStrict tSheaf).phys 1 ∈ (tOp (.mzero 0) [1]).bRegs ∧ (tStrict tSheaf).phys 1 ∈ (tOp (.mrowv [1] 0) []).kind.rowRegs ∧
    (let sh : Sheaf := { tStrict tSheaf with mops := [tOp (.mstt 0 0) []] }
     let s := tTilesWith (fun _ => sh)
     ∃ x p, localAccess (.ldl 15 0 2 7 0 0) = some (15, 0, 0, 7, 4, false) ∧ x ∈ sh.begun.localAccesses (s.here sh 15 0) 7 ∧
      (s.begun sh).localAddr? sh.tid sh.core (sh.readU 160) x.2 4 = some p ∧ p.tid = sh.tid ∧ p.off + 0 ∈ (tOp (.mstt 0 0) []).writesBytes ∧
      (∀ y ∈ sh.begun.localAccesses (s.here sh 15 0) 7, (localWord (sh.readU 160) y.2).toNat % 4 = 0 ∧
        ((s.begun sh).localAddr? sh.tid sh.core (sh.readU 160) y.2 4).isSome = true)) := by
  refine ⟨by decide, by decide, (0, 0), { tid := 0, off := 0 }, rfl, by decide, rfl, rfl, by decide, ?_⟩
  decide

/-- MWAIT and MFENCE with work pending. -/
theorem met_matrix_waits : ∀ sh ∈ [{ tMatrix tSheaf with mops := [{ tOp (.mzero 0) [] with done := true }] }, { tMatrix tSheaf with mops := [tOp (.mzero 0) []] }],
    Standing (tTilesWith (fun _ => sh)) sh ∧ ((tTilesWith (fun _ => sh)).here sh 15 0).acting ≠ 0 := by
  simp only [List.forall_mem_cons, List.not_mem_nil, false_imp_iff, implies_true, and_true]
  exact ⟨⟨by constructor <;> rfl, by decide⟩, by constructor <;> rfl, by decide⟩

/-! ### Instructions that are not allowed -/

/-- Instructions that are not well-formed, each with an encoding: guards, registers of another file, odd pairs, codes, special registers. -/
theorem met_ill : ∀ i ∈ [Instr.nop 12 0, .nop 15 1, .exit 14 0, .saddW 15 0 65 66, .sadd 15 0 63 64, .srd 15 0 64 7, .srd 15 0 65 0x0C, .swr 15 0 64 0,
    .pclr 15 0 12, .vcmpI 15 0 0 1 2 12, .loop 15 0 0 64 0, .wspill 15 0 0, .mma 15 0 0 0 0 0 9 0 0],
    i.wf = false ∧ encodeNat i ≠ none ∧ hintRule i = none := by
  simp only [List.forall_mem_cons, List.not_mem_nil, false_imp_iff, implies_true, and_true]
  refine ⟨?_, ?_, ?_, ?_, ?_, ?_, ?_, ?_, ?_, ?_, ?_, ?_, ?_⟩ <;> exact ⟨by decide, by decide, rfl⟩

/-- What IllegalTraps assumes of an instruction. -/
def MetIllegal (table : Instr → Option ActRule) (s : State) (sh : Sheaf) (i : Instr) : Prop :=
  ∃ r, table i = some r ∧ i.wf = true ∧ s.sheaf? s.slot.sid = some sh ∧ sh.issuing = true ∧ s.slot.rep = none ∧ ¬ r.legal (s.begun sh) sh.begun

theorem metIllegal_of {table : Instr → Option ActRule} {s : State} {sh : Sheaf} {i : Instr} {r : ActRule} (h : table i = some r)
    (k : (i.wf && sh.issuing && s.slot.rep.isNone) = true) (hs : s.sheaf? s.slot.sid = some sh) (g : ¬ r.legal (s.begun sh) sh.begun) :
    MetIllegal table s sh i := by
  simp only [Bool.and_eq_true, Option.isNone_iff_eq_none] at k
  exact ⟨r, h, k.1.1, hs, k.1.2, k.2, g⟩

/-- A handler's instructions outside it, SVC within it; tiles, tags and rings that the tuft does not hold. -/
theorem met_illegal : (∀ i ∈ [Instr.rte 15 0, .wspill 15 0 8, .wfill 15 0 8], MetIllegal handlerRule tState probeSheaf i) ∧
    MetIllegal handlerRule (tWith tCtl) (tCtl probeSheaf) (.svc 15 0 64 255) ∧
    (∀ i ∈ [Instr.swr 15 0 64 0x1E, .swr 15 0 64 0x24, .swr 15 0 64 0x25], MetIllegal specialRule tState probeSheaf i) ∧
    (∀ i ∈ [Instr.gsave 15 0 0 66, .gload 15 0 0 66], MetIllegal barrierRule tState probeSheaf i) ∧
    (∀ i ∈ [Instr.mzero 15 0 7, .mma 15 0 0 0 0 6 6 0 1], MetIllegal matrixRule tState probeSheaf i) ∧
    (∀ i ∈ [Instr.cpyLin 15 0 4 64, .car 15 0 63 72 0 0], MetIllegal commandRule (tRich id) tSheaf i) ∧
    (∀ i ∈ [Instr.rput 15 0 1 66, .rstat 15 0 1 66], MetIllegal ringRule (tRich id) tSheaf i) ∧
    (∀ i ∈ [Instr.xpcr 15 0 66 0, .xpcw 15 0 66 0], ∃ r, flowRule i = some r ∧ r.handler = true) := by
  simp only [List.forall_mem_cons, List.not_mem_nil, false_imp_iff, implies_true, and_true]
  refine ⟨⟨?_, ?_, ?_⟩, ?_, ⟨?_, ?_, ?_⟩, ⟨?_, ?_⟩, ⟨?_, ?_⟩, ⟨?_, ?_⟩, ⟨?_, ?_⟩, ⟨_, rfl, rfl⟩, ⟨_, rfl, rfl⟩⟩
  all_goals refine metIllegal_of rfl rfl rfl ?_
  all_goals exact fun h => nomatch h

/-! ### Encoding, fetch, step, frames -/

/-- Both directions of the encoding meet at one word. -/
theorem met_encoding : (Instr.exit 15 0).wf = true ∧ encodeNat (.exit 15 0) = some 0x73C10000 ∧ 0x73C10000 < 2 ^ 32 ∧
    decodeNat 0x73C10000 = some (.exit 15 0) := ⟨rfl, rfl, by decide, rfl⟩

/-- What StepRunsTheFetchedInstruction assumes, met by a word placed where the next step fetches: one that decodes, one that does not. -/
theorem met_step : ∀ w ∈ [0x73C10000, 0x00000000],
    let s := State.reset.withFetchWord 32 w
    s.agenda = [] ∧ s.pinned = some 0 ∧ ∃ sid chosen, ({ s with pinned := none } : State).chosen? 0 0 = some (sid, chosen) ∧
      ∃ sh, (({ s with pinned := none } : State).chargeSlot 0 0 sid).sheaf? sid = some sh ∧ ∃ c, sh.choose sid = some c ∧
        ∃ s2, ((({ s with pinned := none } : State).chargeSlot 0 0 sid).setSheaf sid c.sheaf).fetchWord c.sheaf c.slot.addr =
          (.word (BitVec.ofNat 32 w), s2) := by
  intro w hw
  simp only [List.mem_cons, List.not_mem_nil, or_false] at hw
  rcases hw with rfl | rfl <;> exact ⟨rfl, rfl, _, _, rfl, _, rfl, _, rfl, _, rfl⟩

theorem met_step_agenda : ∃ s : State, s.agenda = [.nop 15 0] := ⟨{ State.reset with agenda := [.nop 15 0] }, rfl⟩

/-- What FetchTakesFourBytes assumes: a page that is there, and an address that is not canonical. -/
theorem met_fetch : canonical probeCode = true ∧ canonical 0x0200000000000000 = false ∧ ∃ t s1,
    tState.xlateTuft probeSheaf.tid probeSheaf.core probeCode false = (.ok t, s1) ∧ t.x = true ∧
      (∀ k, tState.kernelOf? probeSheaf = some k → k.inImage probeCode = true) ∧ s1.reachable (sliceOf probeSheaf.core) t.paddr = true ∧
      s1.homeRefusal (s1.partOf probeSheaf) (s1.ctxOf probeSheaf) t.paddr t.kh (s1.keySlot (s1.partOf probeSheaf) t.kh).key = none ∧
      s1.poisoned t.paddr 4 = false := by
  refine ⟨rfl, rfl, _, _, rfl, rfl, fun k hk => ?_, rfl, rfl, rfl⟩
  have e : tState.kernelOf? probeSheaf = some probeKernel := by rfl
  rw [e] at hk
  cases hk
  rfl

theorem met_invariant : State.reset.Inv ∧ step State.reset = .next State.reset := ⟨rfl, rfl⟩

theorem met_written : (([(0, 1), (31, 2), (32, 3)] : Map Byte).map Prod.fst).Nodup := by decide

theorem met_local_frame : localStore (.stl 15 0 1 7 0 0) = some (15, 0, 4, 0, 7) ∧ (tRich id).waiting = [] ∧
    ((tRich id).here tSheaf 15 0).acting ≠ 0 ∧ MetMachine localRule (tRich id) tSheaf (.stl 15 0 1 7 0 0) :=
  ⟨rfl, rfl, by decide, metMachine_of rfl rfl (goesLocal_of rfl)⟩

theorem met_register_frame : tState.waiting = [] ∧ ∃ r, registerRule (.sadd 15 0 64 65) = some r ∧ r.wide = true ∧ (r.slot tState probeSheaf).acting ≠ 0 ∧
    r.fits probeSheaf (r.slot tState probeSheaf).acting = true ∧ Wide tState probeSheaf r.g.toNat r.n.toNat :=
  ⟨rfl, _, rfl, rfl, by decide, rfl, ⟨rfl, rfl⟩⟩

/-! ### Traps at issue, hints -/

/-- A hint is legal behind nothing, and out of order behind itself. -/
theorem met_hints : (∀ i ∈ [Instr.ximm 0x7FFFF, .rep 1 1 1 3 63, .la 15], ∃ legal add, hintRule i = some (legal, add) ∧ legal probeSheaf.hints ∧
      ¬ legal { Hints.none with lanes := 1, ximm := some 0, rep := some 0, la := some 0 }) ∧
    Ready (tWith (fun sh => { sh with hints := { Hints.none with lanes := 0xFFFFFFFF, ximm := some 0, rep := some 0, la := some 0 } }))
      { probeSheaf with hints := { Hints.none with lanes := 0xFFFFFFFF, ximm := some 0, rep := some 0, la := some 0 } } := by
  refine ⟨?_, by constructor <;> rfl⟩
  simp only [List.forall_mem_cons, List.not_mem_nil, false_imp_iff, implies_true, and_true]
  exact ⟨⟨_, _, rfl, ⟨rfl, rfl⟩, fun h => nomatch h.1⟩, ⟨_, _, rfl, ⟨rfl, rfl, rfl⟩, fun h => nomatch h.1⟩, ⟨_, _, rfl, rfl, fun h => nomatch h⟩⟩

/-- An XIMM, or an LA, before an instruction that it is not for. -/
theorem met_prefixes : encodeNat (.vadd 15 0 1 2 3) ≠ none ∧ hintRule (.vadd 15 0 1 2 3) = none ∧
    ¬ Prefixed (.vadd 15 0 1 2 3) { tState with slot := { tState.slot with ximm := some 0 } } ∧
    ¬ Prefixed (.vadd 15 0 1 2 3) { tState with slot := { tState.slot with la := some 0 } } :=
  ⟨by decide, rfl, fun h => by rcases h.ximm with h | h <;> exact absurd h (by decide), fun h => by rcases h.la with h | h <;> exact absurd h (by decide)⟩

/-- An instruction of each class that a role does not issue, with a role that does not issue it. -/
theorem met_roles : ∀ e ∈ [(Instr.vfadd 15 0 1 2 3, Role.stage, RoleClass.varyingFloat), (.vcmpF 15 0 0 1 2 0, .stage, .varyingFloat), (.vtanh 15 0 0 0 1, .stage, .special),
    (.sredaddF32 15 0 64 0 0 0, .stage, .varyingFloat), (.mwait 15 0, .general, .matrix), (.mzero 15 0 0, .vector, .matrix)],
    ∃ legal, roleBound e.1 = some (e.2.2, legal) ∧ e.1.wf = true ∧ e.2.2.issues e.2.1 = false := by
  simp only [List.forall_mem_cons, List.not_mem_nil, false_imp_iff, implies_true, and_true]
  refine ⟨⟨_, rfl, rfl, rfl⟩, ⟨_, rfl, rfl, rfl⟩, ⟨_, rfl, rfl, rfl⟩, ⟨_, rfl, rfl, rfl⟩, ⟨_, rfl, rfl, rfl⟩, ⟨_, rfl, rfl, rfl⟩⟩

theorem ready_role : ∀ r : Role, Ready (tWith (fun sh => { sh with role := r })) { probeSheaf with role := r } := by
  intro r; cases r <;> constructor <;> rfl

theorem met_roles_copy : ∃ legal, roleBound (.cpyLin 15 0 3 64) = some (RoleClass.copy, legal) ∧ RoleClass.copy.issues .matrix = false ∧
    legal ((tRich tMatrix).begun (tMatrix tSheaf)) (tMatrix tSheaf).begun := ⟨_, rfl, rfl, _, rfl, by decide⟩

/-- An issuing set that is a part of the live set, and a guard of two values. -/
theorem met_split : (∃ r, wideRule (.sadd 15 0 64 65) = some r ∧ ({ tState with slot := { tState.slot with lanes := 1 } } : State).slot.lanes ≠ probeSheaf.live) ∧
    (∃ r, wideRule (.sadd 0 0 64 65) = some r ∧ guardUniform ((tWith (fun sh => sh.writePAll 0 1 0)).here (probeSheaf.writePAll 0 1 0) 0 0) = false) ∧
    Ready { tState with slot := { tState.slot with lanes := 1 } } probeSheaf ∧
    Ready (tWith (fun sh => sh.writePAll 0 1 0)) (probeSheaf.writePAll 0 1 0) :=
  ⟨⟨_, rfl, by decide⟩, ⟨_, rfl, rfl⟩, by constructor <;> rfl, by constructor <;> rfl⟩

/-- A kernel with a trap entry. -/
def tTraps : State := tState.setKernel 0 { probeKernel with desc := { probeKernel.desc with trapent := 0x10100 } }

theorem met_trap_entry : tTraps.sheaf? tTraps.slot.sid = some probeSheaf ∧ probeSheaf.handler = none ∧ tTraps.trapEntryOf probeSheaf ≠ 0 :=
  ⟨rfl, rfl, by decide⟩

theorem met_double_trap : probeSheaf.state ≠ .exited ∧ probeSheaf.state ≠ .faulted ∧ tState.trapEntryOf probeSheaf = 0 ∧
    (tWith tCtl).sheaf? 0 = some (tCtl probeSheaf) ∧ (tCtl probeSheaf).handler.isSome = true := ⟨by decide, by decide, rfl, rfl, rfl⟩

/-! ### Rules of the spec, whole -/

theorem met_aget : guardOk 15 0 = true ∧ isU 64 = true ∧ isU 255 = true ∧ isA 32 = true ∧ isA 63 = true ∧ isA 31 = false ∧ isA 64 = false ∧
    Wide tState probeSheaf 15 0 ∧ (tState.here probeSheaf 15 0).acting ≠ 0 := ⟨rfl, rfl, rfl, rfl, rfl, rfl, rfl, ⟨rfl, rfl⟩, by decide⟩

theorem met_kquota : (Instr.kquota 15 0 254).wf = true ∧ (Instr.kquota 15 0 64).wf = true ∧ Wide (tRich id) tSheaf 15 0 ∧
    min ((tRich id).ctx ((tRich id).partOf tSheaf) ((tRich id).ctxOf tSheaf)).qchild 65536 -
      ((tRich id).ctx ((tRich id).partOf tSheaf) ((tRich id).ctxOf tSheaf)).children.length < 2 ^ 16 := ⟨rfl, rfl, ⟨rfl, rfl⟩, by decide⟩

set_option maxRecDepth 20000 in
/-- Clauses of the sums and extremes: opposite ones, NaNs, two numbers in order. -/
theorem met_floats : fp32.decode 0x3F800000 = .fin false 8388608 (-23) ∧ fp32.decode 0xBF800000 = .fin true 8388608 (-23) ∧
    (fp32.decode 0x7FC00000).isNan = true ∧ (fp32.decode 0).isNan = false ∧ (bf16.decode 0x7FFF).isNan = true ∧ 0xFFFFFFFF < 2 * fp32.signBit ∧
    0xFFFF < 2 * bf16.signBit := ⟨rfl, rfl, rfl, rfl, rfl, by decide, by decide⟩

/-- Clauses of LDP: an offset below zero, one that is no multiple of 8, no window, the last eight bytes of a window, one beyond. -/
theorem met_ldp : evenU 66 = true ∧ evenU 254 = true ∧
    (8 * (0 : BitVec 5).toNat : Int) + offsetOf { tSlot with ximm := some (-8) } < 0 ∧
    ((8 * (0 : BitVec 5).toNat : Int) + offsetOf { tSlot with ximm := some 4 }) % 8 ≠ 0 ∧
    ((tRich id).begun tSheaf).windowOf tSheaf.begun 1 = none ∧ ((tRich id).begun tSheaf).windowOf tSheaf.begun 0 = some (0x10000, 64) ∧
    (8 * (7 : BitVec 5).toNat : Int) + offsetOf tSlot + 8 ≤ 64 ∧ (64 : Int) < 8 * (8 : BitVec 5).toNat + offsetOf tSlot + 8 ∧
    MetMachine wordsRule (tRich id) tSheaf (.ldp 15 0 66 7 0) :=
  ⟨rfl, rfl, by decide, by decide, rfl, rfl, by decide, by decide,
    metMachine_of rfl rfl ⟨⟨0x10000, 64, rfl, by decide⟩, rfl⟩ ⟨by decide, by decide⟩⟩

/-! ### Happenings -/

set_option maxRecDepth 50000

/-- A table speaks of each happening of a list in a state. -/
def speaks (table : Instr → Option Happening) (es : List (Instr × State)) : Bool := es.all (fun e => ((table e.1).bind (fun f => f e.2)).isSome)

theorem met_of_speaks {table : Instr → Option Happening} {es : List (Instr × State)} (h : speaks table es = true) :
    ∀ e ∈ es, ∃ f t, table e.1 = some f ∧ f e.2 = some t := by
  intro e he
  obtain ⟨t, ht⟩ := Option.isSome_iff_exists.mp (List.all_eq_true.mp h e he)
  obtain ⟨f, hf, hft⟩ := Option.bind_eq_some_iff.mp ht
  exact ⟨f, t, hf, hft⟩

/-- The machine with a context that has quotas and a page table: its one big page begins at address 0. -/
def tPaged : State :=
  (((tRich id).modCtx 0 0 (fun c => { c with root := 0x14000, qtuft := 64, qkern := 8, qchild := 8 })).putClear 0x14000 (leBytes 8 0x18001)).putClear 0x18000
    (leBytes 8 0x1C001) |>.putClear 0x1C000 (leBytes 8 0x33)

theorem met_scheduler : speaks scheduleHappening
    [(.quantumExpiry 0, tWith (fun sh => { sh with quantum := 0, round := { Round.none with active := true, groups := [1] } })),
     (.starvationLimit 0 0, tState), (.greedyLimit 0 0, tState.modQuad 0 0 (fun q => { q with yield := true })),
     (.greedyLimit 0 0, tState.modQuad 0 0 (fun q => { q with run := 33 })), (.admissionPass 0, tState),
     (.ageBoundExpiry 0, tWith (fun sh => { sh with state := .parked })),
     (.footprintWindow 0 5, tWith (fun sh => { sh with lease := { sh.lease with memInstrs := 1024 } })), (.lschedWrite 0 0x08200040, tState)] = true := by rfl

theorem met_tufts : speaks tuftHappening
    [(.kernelDispatch 0, tPaged.modKernel 0 (fun k => { k with state := .queued })), (.kernelDispatch 0, tPaged.modKernel 0 (fun k => { k with state := .dispatching })),
     (.kernelRunning 0, tPaged.modKernel 0 (fun k => { k with state := .dispatching, stage := 5 })),
     (.tuftPlacement 0, ({ tPaged with tufts := [], sheaves := [] } : State).modKernel 0 (fun k =>
       { k with state := .running, next := 0, desc := { k.desc with nstk := 1, geom := 0x2000 } })),
     (.tuftComplete 0, tPaged.modSheaf 0 (fun sh => { sh with state := .exited })),
     (.completionSignal 0, tPaged.modKernel 0 (fun k => { k with state := .complete, sigaddr := 0 })),
     (.runmaxExpiry 0, tPaged.modKernel 0 (fun k => { k with desc := { k.desc with runmax := 1 } })),
     (.tuftSuspend 0, (tPaged.setTuft 0 { tTuft with leaving := true }).modSheaf 0 (fun sh => { sh with state := .waiting, wait := some { kind := .service 1, slot := tSlot } })),
     (.forcedSuspension 0, tPaged.setTuft 0 { tTuft with forced := true }),
     (.tuftReload 0, (tPaged.setTuft 0 { tTuft with state := .suspended, image := some 0 }).modSheaf 0 (fun sh => { sh with state := .suspended })),
     (.tuftAbort 0, tPaged.setTuft 0 { tTuft with state := .aborted })] = true := by rfl

/-- A store of one byte on its way. -/
def tMsg : Msg :=
  { id := 9, sid := 0, core := 0, part := 0, ctx := 0, kid := some 0, paddr := 0x10400, bytes := [(0, 7)], key := 0, kh := 0, cls := .slice, kind := .write,
    performed := false, result := 0, tries := 0, due := [] }

/-- A result in flight. -/
def tPending (k : PendKind) : Pending :=
  { id := 5, addr := probeCode, varying := true, regs := [1], lanes := 1, whole := false, window := 0, kind := k,
    source := [{ lane := 0, paddr := 0x10400, kh := 0, key := 0, grain := 0, fresh := false }], data := [(0, [7])], bound := false, mark := 0 }

theorem met_flight : speaks flightHappening
    [(.storeBufferSend 0, tPaged.modSheaf 0 (fun sh => { sh with buf := [{ line := 0x208, bytes := [(0, 7)], key := 0, kh := 0, grain := 0, hidden := [] }] })),
     (.writePerform 9, { tPaged with msgs := [tMsg] }), (.writeAck 9, { tPaged with msgs := [{ tMsg with performed := true }] }),
     (.atomicReply 9, { tPaged with msgs := [{ tMsg with performed := true, kind := .atomic 0 4 1 0 5 0 }] }),
     (.loadReturn 0 5 1, tPaged.modSheaf 0 (fun sh => { sh with pend := [tPending (.load 4 .none)] })),
     (.longLatencyResult 0 5, tPaged.modSheaf 0 (fun sh => { sh with pend := [tPending .value] })),
     (.matrixOpComplete 0, tPaged.modSheaf 0 (fun sh => { sh with mops :=
       [{ id := 4, kind := .mzero 0, acting := 1, desc := 0, aElems := [], bElems := [], bRegs := [], mark := 0, done := false }] }))] = true := by rfl

/-- What the clauses of FlightLands assume: an entry to send, a write and an atomic to perform and to answer, a load and a value to come in, a
matrix operation alone. -/
theorem met_lands :
    (∃ sh e rest, (tPaged.modSheaf 0 (fun sh => { sh with buf := [{ line := 0x208, bytes := [(0, 7)], key := 0, kh := 0, grain := 0, hidden := [] }] })).sheaf? 0 = some sh ∧
      sh.buf = e :: rest) ∧
    (let s : State := { tPaged with msgs := [tMsg] }
     s.msg? 9 = some tMsg ∧ s.performBefore 0 (lineOf 0x10400) (fun y => y.id == 9) = s ∧ s.carried tMsg = true ∧ s.homeRefusal 0 0 0x10400 0 0 = none ∧
      s.poisoned 0x10400 4 = false) ∧
    (let m : Msg := { tMsg with performed := true, kind := .atomic 0 4 1 0 5 0 }
     let p : Pending := { tPending .atomic with data := [] }
     let s : State := { tPaged.modSheaf 0 (fun sh => { sh with pend := [p] }) with msgs := [m] }
     s.msg? 9 = some m ∧ s.carried m = true ∧ (∃ sh, s.sheaf? 0 = some sh ∧ sh.pend? 5 = some p) ∧ p.regs.Nodup ∧ p.data.all (fun e => e.1 != 0) = true) ∧
    (let s := tPaged.modSheaf 0 (fun sh => { sh with pend := [tPending (.load 4 .none)] })
     ∃ sh x q, s.sheaf? 0 = some sh ∧ sh.pend? 5 = some (tPending (.load 4 .none)) ∧ s.stuckResult 0 sh (tPending (.load 4 .none)) = false ∧
      (s.bindLoad 0 (tPending (.load 4 .none))).sheaf? 0 = some x ∧ x.pend? 5 = some q ∧ q.regs.Nodup) ∧
    (∃ sh, (tPaged.modSheaf 0 (fun sh => { sh with pend := [tPending .value] })).sheaf? 0 = some sh ∧ sh.pend? 5 = some (tPending .value)) ∧
    (∃ sh op t, (tPaged.modSheaf 0 (fun sh => { sh with mops :=
      [{ id := 4, kind := .mzero 0, acting := 1, desc := 0, aElems := [], bElems := [], bRegs := [], mark := 0, done := false }] })).sheaf? 0 = some sh ∧
      sh.mops = [op] ∧ op.done = false ∧ tPaged.tuft? sh.tid = some t ∧ t.sheaves = [0]) :=
  ⟨⟨_, _, _, rfl, rfl⟩, ⟨rfl, rfl, rfl, rfl, rfl⟩, ⟨rfl, rfl, ⟨_, rfl, rfl⟩, by decide, rfl⟩, ⟨_, _, _, rfl, rfl, rfl, rfl, rfl, by decide⟩, ⟨_, rfl, rfl⟩,
    ⟨_, _, _, rfl, rfl, rfl, rfl, rfl⟩⟩

/-- A copy command. -/
def tCopy : CopyCmd :=
  { id := 3, tid := 0, sid := 0, tag := 0, kind := .fill, words := [0, 0, 0, 0], lstride := none, mark := 0, after := [], started := false, token := none,
    failed := none, skipped := [] }

/-- A collective of one slice. -/
def tColl : CollCmd :=
  { id := 3, sid := 0, tid := 0, tag := 0, kind := 1, x := 0, words := List.replicate 8 0, mark := 0, ranks := [0], group := 0, seq := 0, after := [], joined := false,
    failed := none, token := none, skipped := [], tries := 0 }

theorem met_engines : speaks engineHappening
    [(.walk 0 0 0x10000, tPaged), (.walkWake 0, tPaged),
     (.shootdownGo 0, tPaged.modSlice 0 (fun x => { x with walker := { x.walker with go := 1 } })),
     (.shootdownGo 0, tPaged.modSlice 0 (fun x => { x with walker := { x.walker with go := 1, cmd := leBytes 4 0xFFFFFFFF ++ leBytes 4 1 ++ List.replicate 24 0 } })),
     (.shootdownComplete 0, tPaged.modPart 0 (fun p => { p with shoots := [{ number := 1, ctx := none, page := 1, pages := some 1 }] })),
     (.copyStart 0, tPaged.modCore 0 (fun x => { x with copies := [tCopy] })),
     (.copyComplete 0 3, tPaged.modCore 0 (fun x => { x with copies := [{ tCopy with started := true }] })),
     (.collectiveJoin 0 0, tPaged.modSlice 0 (fun x => { x with colls := [tColl] })),
     (.collectiveComplete 0 0, tPaged.modSlice 0 (fun x => { x with colls := [{ tColl with joined := true }] }))] = true := by rfl

/-- A record that waits for a reply. -/
def tToken : Token := { use := .sheaf 0, pending := true, tid := some 0, kid := some 0, lanes := 1, code := 1 }

/-- A sheaf that waits for the reply to it. -/
def tAwaits : State :=
  (tPaged.modPart 0 (fun p => { p with tokens := p.tokens.put 1 tToken })).modSheaf 0 (fun sh =>
    { sh with state := .waiting, wait := some { kind := .reply 1, slot := tSlot } })

theorem met_replies : speaks replyHappenings
    [(.replyResume 0 1, tAwaits), (.replyAbandon 0 1, tAwaits), (.replyDroplanes 0 1, tAwaits), (.replyDiscard 0 1, tAwaits), (.replyResume 0 2, tAwaits),
     (.serviceReply 0 false, tPaged.modSheaf 0 (fun sh => { sh with state := .waiting, wait := some { kind := .service 1, slot := tSlot } })),
     (.serviceReply 0 true, tPaged.modSheaf 0 (fun sh => { sh with state := .waiting, wait := some { kind := .service 1, slot := tSlot } }))] = true := by rfl

theorem met_replies_waits : tAwaits.awaits 1 tToken = true := by rfl

/-- A queue of one packet, of some type. -/
def tQueue (bs : List Byte) (f : QueueEntry → QueueEntry) : State :=
  let packet : Packet := { index := 0, bytes := bs ++ List.replicate (64 - bs.length) 0 }
  tPaged.modQueue 0 2 (fun q => f
    { q with
      hdr := 0x10800, ring := 0x11000, recbase := 0x12000, nrec := 1, log2n := 6, state := 1, wridx := 1, rdidx := 1, head := some packet })

theorem met_queues : speaks queueHappening
    [(.queueRegister 0 2, tQueue [] (fun q => { q with head := none, state := 0, cmd := 1 })), (.queueRegister 0 2, tQueue [] (fun q => { q with cmd := 1 })),
     (.queueDestroy 0 2, tQueue [7] (fun q => { q with cmd := 2 })), (.queueWake 0 2, tQueue [] (fun q => { q with head := none })),
     (.packetFetch 0 2, tQueue [] (fun q => { q with head := none, rdidx := 0 })), (.packetKernel 0 2, tQueue [1] id),
     (.packetWaitall 0 2, tQueue [2, 0, 1] id), (.packetWaitany 0 2, tQueue [3, 0, 1] id), (.packetSignal 0 2, tQueue [4, 0, 0, 0, 0, 0, 0, 0, 0, 8, 1] id),
     (.packetHold 0 2, tQueue [5] id), (.packetRelease 0 2, tQueue [6, 0, 0, 0, 63] id), (.packetNop 0 2, tQueue [7] id),
     (.waitReevaluate 0 2, tQueue [2, 0, 1] id), (.waitReevaluate 0 2, tQueue [3, 0, 1] id)] = true := by rfl

/-- The machine with package 1 brought up. -/
def tUp : State := tPaged.modPackage 0 (fun k => { k with step := 5 })

/-- Partition 0 in a state. -/
def tPart (x : PartState) : State := tUp.modPart 0 (fun p => { p with state := x })

theorem met_partitions : speaks partHappening
    [(.partitionForm { part := 1, slices := [1], memBase := [(0, 0x2000000000)], routes := [], ports := [], bootConfig := [] }, tUp),
     (.partitionKernelFetch 0 [1] [2], tPart .booting), (.partitionReady 0, tPart .booting), (.bootFailure 0, tPart .booting), (.partAdd 0 1, tPart .running),
     (.partRemove 0 0 1000, tPart .running), (.drainmaxExpiry 0, (tPart .resizing).modPart 0 (fun p => { p with request := some (.remove 0) })),
     (.partLend 0 0 1 10, tPart .running), (.partRecall 0 0, tPart .running), (.recallDeadline 0, tUp.modSlice 0 (fun x => { x with recalled := true })),
     (.recallWriteOut 0, (tPart .recalling).modPart 0 (fun p => { p with request := some (.recall 0) })), (.partHalt 0, tPart .running), (.partResume 0, tPart .halted), (.partDissolve 0, tPart .halted),
     (.correctableError 0, tUp), (.uncorrectableError (.sector 0x10400), tUp), (.uncorrectableError (.tuft 0), tUp), (.sliceLost 0, tUp), (.packageReset 0, tUp)] =
    true := by rfl

/-- A context of partition 0 in a state. -/
def tCtx (x : CtxState) : State := tUp.modCtx 0 0 (fun c => { c with state := x })

/-- A sound key command. -/
def tKeys : KeyCommand :=
  { kh := 1, reserved := true, control := 0, digest := List.replicate 64 0, key := List.replicate 32 1 ++ List.replicate 32 2 }

theorem met_contexts : speaks ctxHappening
    [(.ctxCreate 0 1, tUp), (.ctxCreate 0 0, tCtx .destroyed), (.ctxActivate 0 0, tCtx .created), (.ctxSuspend 0 0 true, tCtx .active), (.ctxSuspend 0 0 false, tCtx .active),
     (.ctxResume 0 0, tCtx .suspended), (.ctxFault 0 0, tCtx .active), (.ctxDestroy 0 0, tCtx .faulted), (.ctxDestroy 0 0xFFFF, tUp), (.keyLoad 0 tKeys, tUp),
     (.keyLoadw 0 tKeys, tUp), (.keyErase 0 tKeys, tUp)] = true := by rfl

theorem met_trust : speaks trustHappening
    [(.evidence 0 0 0x10400 0x10440, tPart .running), (.certs 0 0 0x10400 65536, tPart .halted), (.extend 0 11 0x10400, tPart .running), (.getVersion 0, tUp),
     (.getCapabilities 0, tUp), (.negotiateAlgorithms { package := 0, sign := 0x800, hash := 0x20 }, tUp), (.getDigests 0, tUp), (.getCertificate 0 1 0 16, tUp), (.challenge 0 [], tUp),
     (.challenge 0 (List.replicate 32 0), tUp), (.getMeasurements 0 0 (List.replicate 32 0), tUp), (.spdmUnsupported 0 0xE5, tUp), (.mgmtOtherMessage 0 9, tUp),
     (.mgmtOtherMessage 0 0x103, tUp), (.mgmtOtherMessage 0 0x200, tPart .halted), (.mgmtOtherMessage 0 0x201, tUp),
     (.firmwareStage 0 3 [1], tUp), (.activationStart 0, tUp), (.activationCommit 0, tUp.modPackage 0 (fun k => { k with snapshot := some k.ms })),
     (.activationRollback 0, tUp.modPackage 0 (fun k => { k with snapshot := some k.ms }))] = true := by rfl

/-- The port of slice 0 in a state. -/
def tPort (f : Port → Port) : State := tUp.modSlice 0 (fun x => { x with port := f x.port })

/-- A packet of another slice. -/
def tPacket : LinkPacket :=
  { source := 0x400, route := 3, number := 1, tag := 0, op := .write, paddr := 0x10400, bytes := [(0, 7)], kh := 0, auth := [] }

/-- A machine whose port of slice 0 carries packets on route 3 from a slice of its own partition. -/
def tLinked : State := (tPort (fun p => { p with state := .up })).modPart 0 (fun p => { p with routes := [3], slices := [0, 1] })

/-- That packet as its source seals it (R345). -/
def tSigned : LinkPacket := sealPacket tPacket (sourceKey (tLinked.slice 0).port.secret (tLinked.epochOf 0 0x400) 0x400) (sourceId 0)

/-- The port takes the signed packet. -/
theorem met_takes : tLinked.takes 0 tSigned = true := by
  have h : tLinked.authentic 0 tSigned = true := beq_iff_eq.mpr rfl
  obtain ⟨p, hp, hr, hs⟩ : ∃ p, (tLinked.slice 0).owner.bind tLinked.part? = some p ∧ p.routes = [3] ∧ p.slices = [0, 1] := ⟨_, rfl, rfl, rfl⟩
  unfold State.takes
  simp only [hp, h, hr, hs]
  rfl

theorem met_ports : speaks portHappening
    [(.portEnable 0, tUp), (.portDisable 0, tPort (fun p => { p with state := .failed })), (.portFence 0, tPort (fun p => { p with state := .up })),
     (.portUnfence 0, tPort (fun p => { p with state := .fenced, secret := [1] })), (.portUnfence 0, tUp), (.trainingDone 0 32 1, tPort (fun p => { p with state := .training })),
     (.trainingFailed 0, tPort (fun p => { p with state := .training, fails := 2 })), (.keyingDone 0, tPort (fun p => { p with state := .keying, txUp := 32, rxUp := 32 })),
     (.wavelengthLoss 0 0 32, tPort (fun p => { p with state := .up, txUp := 32, rxUp := 32 })),
     (.wavelengthLoss 0 32 31, tPort (fun p => { p with state := .up, txUp := 32, rxUp := 32 })),
     (.retrainingRestored 0, tPort (fun p => { p with state := .degraded })), (.rekey 0, tPort (fun p => { p with state := .up, number := 2 ^ 63 })),
     (.lctlWrite 0 0x00240032, tUp), (.packetReceive 0 tPacket, tLinked), (.packetReceive 0 tSigned, tLinked), (.retransmitTimeout 9, { tUp with msgs := [tMsg] }),
     (.retransmitTimeout 9, { tUp with msgs := [{ tMsg with paddr := 2 ^ 42 + 0x10400, tries := 2 }] }), (.cpuTrayRegister 5 0 0, tUp)] = true := by rfl

theorem met_control_space : speaks controlHappening
    [(.pwrctlWrite 0 0 1, tUp), (.pwrctlWrite 0 1 0x10000002, tUp), (.thermThrottle 0 0 true 1000, tUp), (.powerWindow 0 0 100 2000, tUp), (.trctlWrite 0 2, tUp),
     (.teaselDrain 0, (tUp.modPackage 0 (fun k => { k with clk := 5 })).modSlice 0 (fun x => { x with teasel :=
       { x.teasel with ctl := 0x2, held := [{ time := 4, cls := 0, sealed := false, core := 0, slot := 0, ctx := 0, payload := 0 }] } })),
     (.urgentWrite 0 192, tUp), (.frameOwnerWrite 0 1 0x80000000, tUp), (.controlRegWrite 0 0x00F00000 4 1, tUp),
     (.serviceCoreAccess { slice := 0, paddr := 0x10400, kh := 0, len := 1, data := some [1] }, tUp),
     (.serviceCoreAccess { slice := 0, paddr := 2 ^ 42 + 0x10400, kh := 0, len := 1, data := none }, tUp),
     (.serviceCoreAccess { slice := 0, paddr := 3 * 2 ^ 40 + 0x00F00000, kh := 0, len := 8, data := none }, tUp)] = true := by rfl

theorem met_hole : (tUp.slice ({ slice := 0, paddr := 2 ^ 40, kh := 0, len := 1, data := none } : ServiceAccess).slice).owner = some 0 ∧ 2 ^ 40 ≤ 2 ^ 40 % 2 ^ 42 ∧
    (3 * 2 ^ 40 - 1) % 2 ^ 42 < 3 * 2 ^ 40 := ⟨rfl, by decide, by decide⟩

/-! ## Single steps -/

/-- The sheaf after one instruction. -/
def after (s : State) (i : Instr) : Option Sheaf :=
  match exec i s with
  | .next t => t.sheaf? 0
  | _ => none

/-- Lane 5 of v1 after an instruction of a sheaf whose v1, v2 and v3 hold three words in every lane. -/
def laneAfter (x a b : Word) (i : Instr) : Option Word :=
  let f : Sheaf → Sheaf := fun sh => ((sh.writeV 1 0xFFFFFFFF (fun _ => x) 0).writeV 2 0xFFFFFFFF (fun _ => a) 0).writeV 3 0xFFFFFFFF (fun _ => b) 0
  (after (tWith f) i).map (fun sh => sh.readV 1 5)

/-- The worked examples of R113, R115 and R117, and wrapping (R111). -/
theorem test_varying : laneAfter 0 0x0000F000 0x0000040C (.vbfeS 15 0 1 2 3) = some 0xFFFFFFFF ∧
    laneAfter 0x12345678 0x5 0x00000F1E (.vbfi 15 0 1 2 3) = some 0x52345678 ∧ laneAfter 0 0x0A0B0C0D 0x00000123 (.vpermb 15 0 1 2 3) = some 0x0D0C0B0A ∧
    laneAfter 0 0x00000080 0x00008888 (.vpermb 15 0 1 2 3) = some 0xFFFFFFFF ∧ laneAfter 0 0x7F7F3F80 0x7F7F3F80 (.vhadd2 15 0 1 2 3) = some 0x7F804000 ∧
    laneAfter 0x3FC00000 0 0xFFFFFF6B (.vfscaleb 15 0 1 3) = some 2 ∧ laneAfter 0 0xFFFFFFFF 2 (.vadd 15 0 1 2 3) = some 1 ∧
    laneAfter 0 1 32 (.vshl 15 0 1 2 3) = some 0 := ⟨rfl, rfl, rfl, rfl, rfl, rfl, rfl, rfl⟩

/-- VHADD2 of the worked example raises OF and NX; a guard of zeros leaves the register (R105, R115). -/
theorem test_varying_flags : ((after (tWith (fun sh => sh.writeV 2 0xFFFFFFFF (fun _ => 0x7F7F3F80) 0)) (.vhadd2 15 0 1 2 2)).map (fun sh => sh.status)) =
      some (flagOF ||| flagNX) ∧ laneAfter 9 1 1 (.vadd 0 0 1 2 3) = some 9 := ⟨rfl, rfl⟩

/-- The worked example of SMOVI behind XIMM (R93), a 64-bit sum that carries (R128). -/
theorem test_uniform : (after { tState with slot := { tSlot with ximm := some 0x91A2 } } (.smovi 15 0 74 0x1678)).map (fun sh => sh.readU 10) = some 0x12345678 ∧
    (after (tWith (fun sh => (sh.writePair 0 0x00000001FFFFFFFF 0).writePair 2 1 0)) (.saddW 15 0 64 66)).map (fun sh => sh.readPair 0) =
      some 0x0000000200000000 := ⟨rfl, rfl⟩

/-- The worked examples of R136: 100 - 3l in all lanes; 0 and 0xFFFFFFFE in lanes 0 and 2 alone. -/
theorem test_afromv : (after (tWith (fun sh => sh.writeV 1 0xFFFFFFFF (fun l => 100 - 3 * BitVec.ofNat 32 l) 0)) (.afromv 15 0 32 1)).map
      (fun sh => ((sh.readA 0).base, (sh.readA 0).stride, sh.status)) = some (100, 0xFFFFFFFD, 0) ∧
    (after { tWith (fun sh => { sh.writeV 1 4 (fun _ => 0xFFFFFFFE) 0 with exited := 0xFFFFFFFA }) with slot := { tSlot with lanes := 5 } }
      (.afromv 15 0 32 1)).map (fun sh => (sh.readA 0).stride) = some 0xFFFFFFFF := ⟨rfl, rfl⟩

/-- BRA goes to its own address plus four times its offset (R137); EXIT ends the lanes (R139). -/
theorem test_control : (after tState (.bra 15 0 (-7))).map (fun sh => sh.pc 31) = some (probeCode - 28) ∧
    (after tState (.exit 15 0)).map (fun sh => (sh.live, sh.state)) = some (0, .exited) := ⟨rfl, rfl⟩

end Sys2Proof.Tests
end

/-! PROOFS. The fetch (R5, R83, R84, R155): what its translation, its home and the bytes at the physical address make of it. -/
section
namespace Sys2Proof.Machine

/-- R5: four bytes of memory as one number, the first the least significant. -/
theorem viewNat_four (s : State) (key a : Nat) :
    s.viewNat key a 4 = (s.viewByte key a).toNat + 2 ^ 8 * (s.viewByte key (a + 1)).toNat +
      2 ^ 16 * (s.viewByte key (a + 2)).toNat + 2 ^ 24 * (s.viewByte key (a + 3)).toNat := by
  have bytes : s.viewBytes key a 4 = [s.viewByte key a, s.viewByte key (a + 1), s.viewByte key (a + 2), s.viewByte key (a + 3)] := rfl
  rw [State.viewNat, bytes]
  simp only [leNat]
  omega

/-- R84, R155: a fetch from an address that is not canonical ends before translation. -/
theorem fetchWord_of_not_canonical {a : Addr} (h : canonical a = false) (s : State) (sh : Sheaf) :
    s.fetchWord sh a = (.fault (SysFault.replayable fProt rCanon a 0 0), s) := by
  simp [State.fetchWord, h]

/-- R155, R319: from a canonical address that translates to an executable page, inside a bound kernel's image, the fetch goes on to
the home of the physical address. -/
theorem fetchWord_of_executable {s s1 : State} {sh : Sheaf} {a : Addr} {t : Trans} (hcanon : canonical a = true)
    (hxlate : s.xlateTuft sh.tid sh.core a false = (.ok t, s1)) (hx : t.x = true)
    (himage : ∀ k, s.kernelOf? sh = some k → k.inImage a = true) : s.fetchWord sh a = (s1.fetchAt sh t, s1) := by
  cases hk : s.kernelOf? sh with
  | none => simp [State.fetchWord, hcanon, hxlate, hx, hk]
  | some k =>
    have hinside : k.inImage a = true := himage k hk
    simp [State.fetchWord, hcanon, hxlate, hx, hk, hinside]

/-- R291, R318, R338: a home that is reached, grants the access and holds no poison there gives the word that stands there. -/
theorem fetchAt_of_granted {s : State} {sh : Sheaf} {t : Trans} (hreach : s.reachable (sliceOf sh.core) t.paddr = true)
    (hgrant : s.homeRefusal (s.partOf sh) (s.ctxOf sh) t.paddr t.kh (s.keySlot (s.partOf sh) t.kh).key = none)
    (hclean : s.poisoned t.paddr 4 = false) :
    s.fetchAt sh t = .word (BitVec.ofNat 32 (s.viewNat (s.keySlot (s.partOf sh) t.kh).key t.paddr 4)) := by
  simp [State.fetchAt, hreach, hgrant, hclean]

end Sys2Proof.Machine

open Sys2Proof Sys2Proof.Machine

/-- Settles O2: past translation and its home, a fetch is `viewNat` of four bytes; a non-canonical address never gets there. -/
theorem fetchTakesFourBytes : Obligations.FetchTakesFourBytes := by
  intro s s1 sh a t
  constructor
  · intro hcanon hxlate hx himage hreach hgrant hclean
    rw [fetchWord_of_executable hcanon hxlate hx himage, fetchAt_of_granted hreach hgrant hclean, viewNat_four]
    rfl
  · intro hcanon
    exact fetchWord_of_not_canonical hcanon s sh

end

/-! PROOFS. Control flow (R137 to R143, R147): each instruction issues with a body that its rule describes. -/
section
namespace Sys2Proof.Machine

/-- A rule of control flow without a target says that the lanes advance; one with a target, where they go. -/
theorem FlowSays.cases {i : Instr} {r : FlowRule} {s : State} {sh : Sheaf} (h : FlowSays i r s sh) :
    let slot := s.here sh r.g.toNat r.n.toNat
    (slot.acting = 0 → Ends i s s sh sh) ∧
    (slot.acting ≠ 0 →
      (∀ t, r.trap slot sh = some t → exec i s = .next (((s.begun sh).trap slot t).settle)) ∧
      (r.trap slot sh = none →
        (r.target slot sh = none → Ends i s s sh (r.effect slot sh.begun)) ∧
        (∀ a, r.target slot sh = some a → Goes i s s sh (r.effect slot sh.begun) slot.acting a))) := by
  obtain ⟨hidle, hacts⟩ := h
  refine ⟨hidle, fun ha => ?_⟩
  have hacts := hacts ha
  refine ⟨fun t ht => ?_, fun ht => ⟨fun hn => ?_, fun a hs => ?_⟩⟩
  · rw [ht] at hacts
    exact hacts
  · rw [ht, hn] at hacts
    obtain ⟨sh', hex, hstill, hpc⟩ := hacts
    refine ⟨sh', hex, hstill, fun l hl => ?_⟩
    have hno : hasLane (0 : Mask) l = false := by simp [hasLane]
    have hpc := hpc l hl
    simpa only [Option.isSome_none, Bool.false_eq_true, if_false, hno] using hpc
  · rw [ht, hs] at hacts
    exact hacts

/-- Nothing may be attached to a control instruction (R127). -/
theorem control_prefixes {f : Form} {i : Instr} {s : State} (h : Prefixed i s) (hrep : s.slot.rep = none)
    (hx : takesXimm i = false) (hl : takesLa i = false) : f.prefixesOk s.slot = true := by
  have hximm : s.slot.ximm = none := by simpa [hx] using h.ximm
  have hla : s.slot.la = none := by simpa [hl] using h.la
  simp [Form.prefixesOk, hrep, hximm, hla]

/-! The issue of an instruction without REP leaves what its body reads (R95). -/

@[simp] theorem Sheaf.begun_readU (sh : Sheaf) : sh.begun.readU = sh.readU := rfl
@[simp] theorem Sheaf.begun_readPair (sh : Sheaf) : sh.begun.readPair = sh.readPair := rfl
@[simp] theorem Sheaf.begun_ureg (sh : Sheaf) : sh.begun.ureg = sh.ureg := rfl
@[simp] theorem Sheaf.begun_wbase (sh : Sheaf) : sh.begun.wbase = sh.wbase := rfl
@[simp] theorem Sheaf.begun_wrbase (sh : Sheaf) : sh.begun.wrbase = sh.wrbase := rfl
@[simp] theorem Sheaf.begun_vstack (sh : Sheaf) : sh.begun.vstack = sh.vstack := rfl
@[simp] theorem Sheaf.begun_handler (sh : Sheaf) : sh.begun.handler = sh.handler := rfl
@[simp] theorem Sheaf.begun_loop0 (sh : Sheaf) : sh.begun.loop0 = sh.loop0 := rfl
@[simp] theorem Sheaf.begun_loop1 (sh : Sheaf) : sh.begun.loop1 = sh.loop1 := rfl

theorem readPairB_eq (sh : Sheaf) (b : Nat) : sh.readPairB b = sh.readPair (b - 64) := rfl
theorem readUB_eq (sh : Sheaf) (b : Nat) : sh.readUB b = sh.readU (b - 64) := rfl
theorem writePairB_eq (sh : Sheaf) (b : Nat) (v : BitVec 64) (m : Mark) : sh.writePairB b v m = sh.writePair (b - 64) v m := rfl

/-- Armed loops end where they did, if the loop slots are as they were. -/
theorem Sheaf.atLoopEnd_congr {x y : Sheaf} {a : Addr} (h0 : x.loop0 = y.loop0) (h1 : x.loop1 = y.loop1) : x.atLoopEnd a = y.atLoopEnd a := by
  simp only [Sheaf.atLoopEnd, h0, h1]

/-- The live lanes are those that have neither exited nor faulted (R18). -/
theorem Sheaf.live_congr {x y : Sheaf} (he : x.exited = y.exited) (hf : x.faulted = y.faulted) : x.live = y.live := by
  simp only [Sheaf.live, he, hf]

theorem Sheaf.over_congr {x y : Sheaf} (h : x.state = y.state) : x.over = y.over := by simp only [Sheaf.over, h]

/-- R88: the codes of a slide. -/
theorem slideOf_eq (w : BitVec 2) : slideOf w = slide w := by revert w; decide

/-- The trap of a bad target (R331). -/
theorem badTarget_of_bad {slot : Slot} {register : Bool} {a : Addr} (h : targetOk a = false) :
    badTarget slot register a = some (badTransfer slot register a) := by
  rw [targetOk_eq] at h
  cases register <;> simp [badTarget, badTransfer, h, illegalTarget, illegalWord]

theorem badTarget_of_ok {slot : Slot} {register : Bool} {a : Addr} (h : targetOk a = true) : badTarget slot register a = none := by
  rw [targetOk_eq] at h
  simp [badTarget, h]

/-- The trap of a call or a return whose target is sound is that of its window, and leaves REPREM at zero. -/
theorem reprem_of_window {slot : Slot} {register : Bool} {a : Addr} {c : Prop} [Decidable c] {cause : Nat} {v : BitVec 64} {t : TrapInfo}
    (h : (match badTarget slot register a with
      | some t => some t
      | none => if c then none else some (TrapInfo.at cause 0 0 v)) = some t) : t.reprem = 0 := by
  cases hb : badTarget slot register a with
  | some u =>
    rw [hb] at h
    cases h
    exact badTarget_reprem hb
  | none =>
    rw [hb] at h
    by_cases hc : c
    · simp [hc] at h
    · simp only [hc, if_false, Option.some.injEq] at h
      subst h
      rfl

/-- R39, R138: a call judges its target, then its window; then it writes the link and slides. -/
theorem call_meets {g : BitVec 4} {n : BitVec 1} {w : BitVec 2} {s : State} {sh : Sheaf} {uses also : List Nat} (register : Bool)
    {target : Slot → Sheaf → Addr} {op : Slot → Op} (hr : Ready s sh)
    (htarget : target (s.here sh g.toNat n.toNat) sh.begun = target (s.here sh g.toNat n.toNat) sh)
    (hop : op (s.here sh g.toNat n.toNat) =
      { ok := true, uses := uses, also := also, writes := [],
        body := fun slot sh s => callAct slot sh s (slideOf w) register (target slot sh) }) :
    FlowMeets (.call g n w register target) formCtWide op s sh := by
  refine ⟨fun _ => rfl, rfl, rfl, ?_, fun _ => ?_, ?_, fun _ => ?_, ?_, ?_, ?_, ?_, fun _ h => reprem_of_window h⟩
  · simp only [FlowRule.call, hop]
  · simp only [FlowRule.call, hop]
  · simp only [FlowRule.call, hop]
  · simp only [FlowRule.call, hop, callAct, htarget, slideOf_eq, Sheaf.begun_wbase, Sheaf.begun_wrbase, Sheaf.begun_vstack]
    cases hok : targetOk (target (s.here sh g.toNat n.toNat) sh)
    · simp [badTarget_of_bad hok]
    · rw [badTarget_of_ok hok]
      by_cases hfull : sh.wrbase + sh.vstack < sh.wbase + slide w + 32
      · simp [hfull, Nat.not_le.mpr hfull]
      · have hroom : sh.wbase + slide w + 32 ≤ sh.wrbase + sh.vstack := Nat.not_lt.mp hfull
        simp only [hfull, hroom, if_true, if_false, Bool.not_true, Bool.false_eq_true, State.here_sid, State.begun, State.setSheaf_setSheaf]
        rfl
  · refine Eq.trans ?_ hr.noend
    simp only [FlowRule.call, Sheaf.atLoopEnd, Sheaf.writePair_loop0, Sheaf.writePair_loop1, Sheaf.begun_loop0, Sheaf.begun_loop1]
  · simp only [FlowRule.call, Sheaf.live, Sheaf.writePair_exited, Sheaf.writePair_faulted]
    rfl
  · simp only [FlowRule.call, Sheaf.writePair_pcv, Sheaf.begun_pcv]
  · simp only [FlowRule.call, Sheaf.over, Sheaf.writePair_state]
    rfl

/-- An instruction issues with a body that its rule of control flow describes, and nothing may be attached to it. -/
structure Controls (i : Instr) (r : FlowRule) (f : Form) (op : Slot → Op) (s : State) (sh : Sheaf) : Prop where
  runs   : exec i s = issued f r.g r.n op s
  guard  : guardOk r.g.toNat r.n.toNat = true
  noXimm : takesXimm i = false
  noLa   : takesLa i = false
  meets  : FlowMeets r f op s sh

/-- R138: only a return that slides is a sheaf-wide write. -/
theorem slides_iff (w : BitVec 2) : (slideOf w != 0) = (w != 3) := by revert w; decide

/-- R39, R138: a return judges its target, then its window; then it slides back. -/
theorem ret_controls {g : BitVec 4} {n : BitVec 1} {b : BitVec 8} {w : BitVec 2} {s : State} {sh : Sheaf} {r : FlowRule} (hr : Ready s sh)
    (hg : guardOk g.toNat n.toNat = true) (hb : evenU b.toNat = true) (hrule : flowRule (.ret g n b w) = some r) :
    ∃ f op, Controls (.ret g n b w) r f op s sh := by
  cases hrule
  refine ⟨_, _, rfl, hg, rfl, rfl, fun hf => (slides_iff w).symm.trans hf, rfl, rfl, hb, fun _ => rfl, rfl, fun _ => ?_, hr.noend, rfl, rfl, rfl,
    fun _ h => reprem_of_window h⟩
  simp only [retAct, slideOf_eq, readPairB_eq, Sheaf.begun_wbase, Sheaf.begun_wrbase, Sheaf.begun_readPair]
  cases hok : targetOk (sh.readPair (b.toNat - 64))
  · simp [badTarget_of_bad hok, badTransfer]
  · rw [badTarget_of_ok hok]
    by_cases hlow : sh.wbase < sh.wrbase + slide w
    · simp [hlow, Nat.not_le.mpr hlow]
    · have hroom : sh.wrbase + slide w ≤ sh.wbase := Nat.not_lt.mp hlow
      simp only [hlow, hroom, if_true, if_false, Bool.not_true, Bool.false_eq_true, State.here_sid, State.begun, State.setSheaf_setSheaf]

/-- R140: a loop's body holds an instruction, so its end is not the LOOP itself. -/
theorem ahead_ne (slot : Slot) {e : BitVec 12} (he : e ≠ 0) : ahead slot e.toNat ≠ slot.addr := by
  intro h
  have hpos : e.toNat ≠ 0 := fun h0 => he (BitVec.eq_of_toNat_eq (by simpa using h0))
  have hlt := e.isLt
  have hzero : BitVec.ofInt 64 (4 * (e.toNat : Int)) = 0#64 := by
    have hsum : slot.addr + BitVec.ofInt 64 (4 * (e.toNat : Int)) = slot.addr + 0#64 := by rw [BitVec.add_zero]; exact h
    exact (BitVec.add_right_inj _).mp hsum
  have hnat := congrArg BitVec.toNat hzero
  simp only [BitVec.toNat_ofInt, BitVec.toNat_ofNat] at hnat
  omega

/-- A slot that LOOP has set does not end at the LOOP (R140, R141). -/
theorem loop_set_noend {slot : Slot} {lc : Word} {ls : Addr} {m : Mark} {e : BitVec 12} (he : e ≠ 0) :
    ({ lc := lc, ls := ls, le := ahead slot e.toNat, mark := m } : LoopSlot).endsAt slot.addr = false := by
  simp [LoopSlot.endsAt, ahead_ne slot he]

/-- A bit names slot 0 or slot 1. -/
theorem bit_toNat_zero (c : BitVec 1) : c.toNat = 0 ↔ c = 0 := by revert c; decide

/-- The sheaf with the loop slot of a bit replaced (R140). -/
def Sheaf.setLoop (sh : Sheaf) (c : BitVec 1) (x : LoopSlot) : Sheaf := if c = 0 then { sh with loop0 := x } else { sh with loop1 := x }

theorem Sheaf.setLoop_live (sh : Sheaf) (c : BitVec 1) (x : LoopSlot) : (sh.setLoop c x).live = sh.live := by
  unfold Sheaf.setLoop; split <;> rfl

theorem Sheaf.setLoop_pcv (sh : Sheaf) (c : BitVec 1) (x : LoopSlot) : (sh.setLoop c x).pcv = sh.pcv := by
  unfold Sheaf.setLoop; split <;> rfl

theorem Sheaf.setLoop_over (sh : Sheaf) (c : BitVec 1) (x : LoopSlot) : (sh.setLoop c x).over = sh.over := by
  unfold Sheaf.setLoop; split <;> rfl

/-- A slot that does not end at an address arms no loop end there. -/
theorem Sheaf.setLoop_noend {sh : Sheaf} {a : Addr} (h : sh.atLoopEnd a = false) (c : BitVec 1) {x : LoopSlot} (hx : x.endsAt a = false) :
    (sh.setLoop c x).atLoopEnd a = false := by
  obtain ⟨h0, h1⟩ : sh.loop0.endsAt a = false ∧ sh.loop1.endsAt a = false := by simpa [Sheaf.atLoopEnd] using h
  unfold Sheaf.setLoop
  split
  · simp only [Sheaf.atLoopEnd, hx, h1, Bool.or_false]
  · simp only [Sheaf.atLoopEnd, hx, h0, Bool.or_false]

/-- LOOP (R140). -/
theorem loop_controls {g : BitVec 4} {n c : BitVec 1} {b : BitVec 8} {e : BitVec 12} {s : State} {sh : Sheaf} {r : FlowRule} (hr : Ready s sh)
    (hg : guardOk g.toNat n.toNat = true) (hb : isU b.toNat = true) (he : e ≠ 0) (hrule : flowRule (.loop g n c b e) = some r) :
    ∃ f op, Controls (.loop g n c b e) r f op s sh := by
  cases hrule
  have hmark := operandMark_uniform sh.begun (b := b.toNat) (by simp [isU] at hb; exact hb.1)
  have he0 : e.toNat ≠ 0 := fun h => he (BitVec.eq_of_toNat_eq (by simpa using h))
  refine ⟨_, _, rfl, hg, rfl, rfl, fun _ => rfl, rfl, rfl, ?_, fun _ => rfl, rfl, fun _ => ?_,
    Sheaf.setLoop_noend (sh := sh.begun) hr.noend c ?_, Sheaf.setLoop_live sh.begun c _, Sheaf.setLoop_pcv sh.begun c _,
    Sheaf.setLoop_over sh.begun c _, fun _ h => nomatch h⟩
  · simp only [loopOp, hb, Bool.true_and, bne_iff_ne, ne_eq, he0, not_false_eq_true]
  · simp only [loopOp, readUB_eq, hmark, relative_eq, addrAdd_four, beq_iff_eq, bit_toNat_zero, State.here_sid, State.begun,
      State.setSheaf_setSheaf, Sheaf.begun_readU, Sheaf.begun_ureg]
    by_cases hz : sh.readU (b.toNat - 64) = 0 <;> simp only [hz, if_true, if_false]
  · rw [← State.here_addr s sh g.toNat n.toNat]
    exact loop_set_noend he

/-- LOOPX (R143): a slot of count zero ends nowhere. -/
theorem loopx_controls {g : BitVec 4} {n c : BitVec 1} {s : State} {sh : Sheaf} {r : FlowRule} (hr : Ready s sh)
    (hg : guardOk g.toNat n.toNat = true) (hrule : flowRule (.loopx g n c) = some r) : ∃ f op, Controls (.loopx g n c) r f op s sh := by
  cases hrule
  have hset : (if c = 0 then { sh.begun with loop0 := { sh.begun.loop0 with lc := 0 } } else { sh.begun with loop1 := { sh.begun.loop1 with lc := 0 } }) =
      sh.begun.setLoop c { (if c = 0 then sh.begun.loop0 else sh.begun.loop1) with lc := 0 } := by
    unfold Sheaf.setLoop
    by_cases hc : c = 0 <;> simp only [hc, if_true, if_false]
  refine ⟨_, _, rfl, hg, rfl, rfl, fun _ => rfl, rfl, rfl, rfl, fun _ => rfl, rfl, fun _ => ?_,
    (congrArg (fun x => Sheaf.atLoopEnd x s.slot.addr) hset).trans (Sheaf.setLoop_noend (sh := sh.begun) hr.noend c rfl),
    (congrArg Sheaf.live hset).trans (Sheaf.setLoop_live ..), (congrArg Sheaf.pcv hset).trans (Sheaf.setLoop_pcv ..),
    (congrArg Sheaf.over hset).trans (Sheaf.setLoop_over ..), fun _ h => nomatch h⟩
  simp only [bareOp, Act.ofSheaf, beq_iff_eq, State.here_sid, State.begun, State.setSheaf_setSheaf]

/-- NOP (R139). -/
theorem nop_controls {g : BitVec 4} {n : BitVec 1} {s : State} {sh : Sheaf} {r : FlowRule} (hr : Ready s sh)
    (hg : guardOk g.toNat n.toNat = true) (hrule : flowRule (.nop g n) = some r) : ∃ f op, Controls (.nop g n) r f op s sh := by
  cases hrule
  exact ⟨_, _, rfl, hg, rfl, rfl, fun h => (by cases h), rfl, rfl, rfl, fun _ => rfl, rfl, fun _ => rfl, hr.noend, rfl, rfl, rfl, fun _ h => nomatch h⟩

/-- XPCR (R147): in a handler the pair takes the saved PC. -/
theorem xpcr_controls {g : BitVec 4} {n : BitVec 1} {b : BitVec 8} {l : BitVec 5} {s : State} {sh : Sheaf} {r : FlowRule} (hr : Ready s sh)
    (hg : guardOk g.toNat n.toNat = true) (hb : evenU b.toNat = true) (hh : sh.handler.isSome = true) (hrule : flowRule (.xpcr g n b l) = some r) :
    ∃ f op, Controls (.xpcr g n b l) r f op s sh := by
  cases hrule
  obtain ⟨h, hh⟩ := Option.isSome_iff_exists.mp hh
  refine ⟨_, _, rfl, hg, rfl, rfl, fun _ => rfl, rfl, rfl, hb, fun _ => ?_, rfl, fun _ => ?_, ?_, ?_, ?_, ?_, fun _ h => nomatch h⟩
  · simp only [inHandler, Sheaf.begun_handler, hh, Option.isSome_some]
  · simp only [Sheaf.begun_handler, hh, Act.ofSheaf, writePairB_eq, State.here_sid, State.begun, State.setSheaf_setSheaf]
  · simp only [Sheaf.begun_handler, hh]
    refine Eq.trans ?_ hr.noend
    simp only [Sheaf.atLoopEnd, Sheaf.writePair_loop0, Sheaf.writePair_loop1, Sheaf.begun_loop0, Sheaf.begun_loop1]
  · simp only [Sheaf.begun_handler, hh, Sheaf.live, Sheaf.writePair_exited, Sheaf.writePair_faulted]
    rfl
  · simp only [Sheaf.begun_handler, hh, Sheaf.writePair_pcv, Sheaf.begun_pcv]
  · simp only [Sheaf.begun_handler, hh, Sheaf.over, Sheaf.writePair_state]
    rfl

/-- XPCW (R147): in a handler the saved PC of a live lane takes the pair, where R84 accepts it. -/
theorem xpcw_controls {g : BitVec 4} {n : BitVec 1} {b : BitVec 8} {l : BitVec 5} {s : State} {sh : Sheaf} {r : FlowRule} (hr : Ready s sh)
    (hg : guardOk g.toNat n.toNat = true) (hb : evenU b.toNat = true) (hh : sh.handler.isSome = true) (hrule : flowRule (.xpcw g n b l) = some r) :
    ∃ f op, Controls (.xpcw g n b l) r f op s sh := by
  cases hrule
  obtain ⟨h, hh⟩ := Option.isSome_iff_exists.mp hh
  refine ⟨_, _, rfl, hg, rfl, rfl, fun _ => rfl, rfl, rfl, hb, fun _ => ?_, rfl, fun _ => ?_, ?_, ?_, ?_, ?_, fun t ht => ?_⟩
  · simp only [inHandler, Sheaf.begun_handler, hh, Option.isSome_some]
  · simp only [Sheaf.begun_handler, hh, Act.ofSheaf, readPairB_eq, Sheaf.begun_readPair, Sheaf.begun_live, State.here_sid, State.begun,
      State.setSheaf_setSheaf, beq_iff_eq]
    cases hl : hasLane sh.live l.toNat
    · simp [illegalWord]
    · cases hok : targetOk (sh.readPair (b.toNat - 64))
      · simp [badTarget_of_bad hok, badTransfer]
      · simp [badTarget_of_ok hok]
  · simp only [Sheaf.begun_handler, hh]
    exact hr.noend
  · simp only [Sheaf.begun_handler, hh]
    rfl
  · simp only [Sheaf.begun_handler, hh]
    rfl
  · simp only [Sheaf.begun_handler, hh]
    rfl
  · simp only at ht
    split at ht
    · exact badTarget_reprem ht
    · cases ht
      rfl

/-- Every instruction of the table issues with a body that its rule describes. -/
theorem flow_controls {i : Instr} {r : FlowRule} {s : State} {sh : Sheaf} (hrule : flowRule i = some r) (hwf : i.wf = true) (hr : Ready s sh)
    (hh : r.handler = true → sh.handler.isSome = true) : ∃ f op, Controls i r f op s sh := by
  have hrule' := hrule
  unfold flowRule at hrule
  split at hrule
  case h_1 g n o =>
    cases hrule
    exact ⟨_, _, rfl, hwf, rfl, rfl, branch_meets hr false _ _ rfl rfl rfl⟩
  case h_2 g n x o =>
    cases hrule
    obtain ⟨hg, hx⟩ := Bool.and_eq_true_iff.mp hwf
    exact ⟨_, _, rfl, hg, rfl, rfl, branch_meets hr false _ _ rfl rfl (by rw [branchOp, hx]; rfl)⟩
  case h_3 g n x o =>
    cases hrule
    obtain ⟨hg, hx⟩ := Bool.and_eq_true_iff.mp hwf
    exact ⟨_, _, rfl, hg, rfl, rfl, branch_meets hr false _ _ rfl rfl (by rw [branchOp, hx]; rfl)⟩
  case h_4 g n b =>
    cases hrule
    obtain ⟨hg, hb⟩ := Bool.and_eq_true_iff.mp hwf
    exact ⟨_, _, rfl, hg, rfl, rfl, branch_meets hr true _ _ rfl rfl (by rw [hb]; rfl)⟩
  case h_5 g n w o =>
    cases hrule
    exact ⟨_, _, rfl, hwf, rfl, rfl, call_meets false hr rfl rfl⟩
  case h_6 g n b w =>
    cases hrule
    obtain ⟨hg, hb⟩ := Bool.and_eq_true_iff.mp hwf
    exact ⟨_, _, rfl, hg, rfl, rfl, call_meets true hr rfl (by rw [hb]; rfl)⟩
  case h_7 g n b w =>
    obtain ⟨hg, hb⟩ := Bool.and_eq_true_iff.mp hwf
    exact ret_controls hr hg hb hrule'
  case h_8 g n c b e =>
    simp only [Instr.wf, Bool.and_eq_true, bne_iff_ne] at hwf
    obtain ⟨⟨hg, hb⟩, he⟩ := hwf
    exact loop_controls hr hg hb he hrule'
  case h_9 g n c => exact loopx_controls hr hwf hrule'
  case h_10 g n => exact nop_controls hr hwf hrule'
  case h_11 g n b l =>
    obtain ⟨hg, hb⟩ := Bool.and_eq_true_iff.mp hwf
    cases hrule
    exact xpcr_controls hr hg hb (hh rfl) hrule'
  case h_12 g n b l =>
    obtain ⟨hg, hb⟩ := Bool.and_eq_true_iff.mp hwf
    cases hrule
    exact xpcw_controls hr hg hb (hh rfl) hrule'
  case h_13 => cases hrule

end Sys2Proof.Machine

open Sys2Proof Sys2Proof.Machine

/-- Settles O22: each control instruction's body meets its rule, and a body that meets a rule of control flow does what the rule says. -/
theorem controlFlow : Obligations.ControlFlow := by
  intro i r s sh hrule hwf hr hpx hw hh
  obtain ⟨f, op, hc⟩ := flow_controls hrule hwf hr hh
  exact (flow_of_meets hc.runs hr (control_prefixes hpx hr.norep hc.noXimm hc.noLa) hc.guard hw hh hc.meets).cases

end

/-! PROOFS. Instructions that end otherwise than in a write of their sheaf: the trap that a check of R86 raises at issue, and from bodies
to the tables of act rules. -/
section
namespace Sys2Proof.Machine

/-! ## Traps at issue (R86) -/

/-- Two slots hold the same instruction of the same lanes; the repeat and the acting lanes may differ. -/
structure Slot.Same (a b : Slot) : Prop where
  sid   : a.sid = b.sid
  addr  : a.addr = b.addr
  group : a.group = b.group
  lanes : a.lanes = b.lanes
  word  : a.word = b.word

theorem Slot.atRepeat_same (slot : Slot) (sh : Sheaf) (g n k : Nat) : (slot.atRepeat sh g n k).Same slot := by
  constructor <;> simp only [Slot.atRepeat]

/-! What a trap at an instruction makes of the machine depends neither on the repeat nor on the guard (R328, R330, R333). -/

theorem State.endSheaf_congr {a b : Slot} (h : a.Same b) (s : State) (sid : Nat) (f : SysFault) : s.endSheaf sid a f = s.endSheaf sid b f := by
  simp only [State.endSheaf, State.postSheafFault, h.group, h.word]

theorem State.doubleTrap_congr {a b : Slot} (h : a.Same b) (s : State) (sid c : Nat) : s.doubleTrap sid a c = s.doubleTrap sid b c := by
  simp only [State.doubleTrap, State.endSheaf_congr h]

theorem Sheaf.enterTrap_congr {a b : Slot} (h : a.Same b) (x : Sheaf) (t : TrapInfo) (entry : Addr) : x.enterTrap a t entry = x.enterTrap b t entry := by
  simp only [Sheaf.enterTrap, h.lanes, h.addr, h.group]

theorem TrapInfo.named_congr {a b : Slot} (h : a.Same b) {t : TrapInfo} (ht : t.after = false) : t.named a = t.named b := by
  simp only [TrapInfo.named, ht, h.lanes, Bool.false_eq_true, if_false]

theorem State.trap_congr {a b : Slot} (h : a.Same b) (s : State) {t : TrapInfo} (ht : t.after = false) : s.trap a t = s.trap b t := by
  simp only [State.trap, h.sid, TrapInfo.named_congr h ht, State.endSheaf_congr h, State.doubleTrap_congr h, Sheaf.enterTrap_congr h]

/-- The first check that fails at the issue of an instruction without REP raises its trap, and nothing else happens. -/
theorem issue_raises {f : Form} {g n : Nat} {op : Slot → Op} {s : State} {sh : Sheaf} {t : TrapInfo} (hthere : s.sheaf? s.slot.sid = some sh)
    (hissuing : sh.issuing = true) (hnorep : s.slot.rep = none) (hafter : t.after = false) (hreprem : t.reprem = 0)
    (ht : firstTrap f { op (s.here sh g n) with ok := (op (s.here sh g n)).ok && guardOk g n } (s.here sh g n) sh.begun (s.begun sh) (s.began sh) = some t) :
    issue f g n op s = ((s.begun sh).trap s.slot t).settle := by
  have hmod : s.modSheaf s.slot.sid (fun sh => { sh with reprem := 0, began := none }) = s.begun sh := by
    simp only [State.modSheaf, hthere, State.begun, Sheaf.begun]
  have hbegun : (s.begun sh).sheaf? s.slot.sid = some sh.begun := by simp [State.begun]
  have hissuing' : sh.begun.issuing = true := hissuing
  have hone : repeatsLeft s.slot sh.reprem = 1 := by simp [repeatsLeft, hnorep]
  have hfirst : firstRepeat s.slot sh.reprem = 0 := by simp [firstRepeat, hnorep]
  have hact : issueRepeat f { op (s.here sh g n) with ok := (op (s.here sh g n)).ok && guardOk g n } (s.here sh g n) (s.began sh) (s.begun sh) =
      .trap t (s.begun sh) := by
    simp only [issueRepeat, State.here_sid, hbegun, hissuing', Bool.not_true, Bool.false_eq_true, if_false, ht]
  have hleft : (s.here sh g n).left = 0 := by simp [Slot.left, hnorep]
  have hinfo : ({ t with reprem := 0 } : TrapInfo) = t := by rw [← hreprem]
  have hrun : runRepeats f g n op s.slot (s.began sh) 1 0 (s.begun sh) = (s.begun sh).trap s.slot t := by
    rw [runRepeats_one hbegun, State.atRepeat_zero, hact, endAct, hleft, hinfo, ← State.atRepeat_zero, State.trap_congr (Slot.atRepeat_same ..) _ hafter]
  simp only [issue, hthere, hnorep, Option.isNone_none, if_true, hmod, hone, hfirst]
  exact congrArg State.settle hrun

/-- R86 steps 1 and 2: an instruction whose sheaf or tuft does not allow it raises ILLEGAL, whatever else holds. -/
theorem raises_illegal {i : Instr} {f : Form} {g : BitVec 4} {n : BitVec 1} {op : Slot → Op} {s : State} {sh : Sheaf} (hx : exec i s = issued f g n op s)
    (hthere : s.sheaf? s.slot.sid = some sh) (hissuing : sh.issuing = true) (hnorep : s.slot.rep = none)
    (hl : (op (s.here sh g.toNat n.toNat)).legal sh.begun (s.begun sh) = false) :
    Raises i s sh (TrapInfo.at cIllegal 0 0 (s.slot.word.setWidth 64)) := by
  have ht : firstTrap f { op (s.here sh g.toNat n.toNat) with ok := (op (s.here sh g.toNat n.toNat)).ok && guardOk g.toNat n.toNat }
      (s.here sh g.toNat n.toNat) sh.begun (s.begun sh) (s.began sh) = some (TrapInfo.at cIllegal 0 0 (s.slot.word.setWidth 64)) := by
    simp only [firstTrap, hl, Bool.not_false, Bool.or_true, Bool.true_or, if_true, illegalWord, State.here_word]
  unfold Raises
  rw [hx]
  exact congrArg Host.Outcome.next (issue_raises hthere hissuing hnorep rfl rfl ht)

/-- R31, R86 step 3: a legal instruction of a class that the role does not issue raises ROLE, whatever its guard. -/
theorem raises_role {i : Instr} {f : Form} {g : BitVec 4} {n : BitVec 1} {op : Slot → Op} {s : State} {sh : Sheaf} (hx : exec i s = issued f g n op s)
    (hr : Ready s sh) (hpx : f.prefixesOk s.slot = true) (hg : guardOk g.toNat n.toNat = true) (hok : (op (s.here sh g.toNat n.toNat)).ok = true)
    (hl : (op (s.here sh g.toNat n.toNat)).legal sh.begun (s.begun sh) = true) (hrole : f.role.issues sh.role = false) :
    Raises i s sh (TrapInfo.at cRole 0 0 (s.slot.word.setWidth 64)) := by
  have hpx' : f.prefixesOk (s.here sh g.toNat n.toNat) = true := by rw [here_prefixesOk]; exact hpx
  have hend : sh.begun.atLoopEnd (s.here sh g.toNat n.toNat).addr = false := by rw [State.here_addr]; exact hr.noend
  have hrole' : f.role.issues sh.begun.role = false := hrole
  have ht : firstTrap f { op (s.here sh g.toNat n.toNat) with ok := (op (s.here sh g.toNat n.toNat)).ok && guardOk g.toNat n.toNat }
      (s.here sh g.toNat n.toNat) sh.begun (s.begun sh) (s.began sh) = some (TrapInfo.at cRole 0 0 (s.slot.word.setWidth 64)) := by
    simp only [firstTrap, hok, hg, hl, hpx', hend, hrole', Bool.and_self, Bool.not_true, Bool.false_and, Bool.or_false, Bool.false_eq_true, if_false,
      Bool.not_false, if_true, trapWord, State.here_word]
  unfold Raises
  rw [hx]
  exact congrArg Host.Outcome.next (issue_raises hr.there hr.issuing hr.norep rfl rfl ht)

/-! ## Tables of act rules -/

/-- An instruction issues with a body that ends as its act rule says. -/
structure Acts (i : Instr) (r : ActRule) (f : Form) (op : Slot → Op) (s : State) (sh : Sheaf) : Prop where
  runs  : exec i s = issued f r.g r.n op s
  guard : guardOk r.g.toNat r.n.toNat = true
  ximm  : takesXimm i = f.ximm
  la    : takesLa i = f.la
  ends  : EndsIn r f op s sh

/-- A table whose instructions issue with such bodies holds. -/
theorem actRules_of_acts {table : Instr → Option ActRule}
    (h : ∀ (i : Instr) (r : ActRule) (s : State) (sh : Sheaf), table i = some r → i.wf = true → Ready s sh → r.legal (s.begun sh) sh.begun →
      ∃ f op, Acts i r f op s sh) : ActRules table := by
  intro i r s sh hrule hwf hr hpx hwide hrole hlegal
  obtain ⟨f, op, ha⟩ := h i r s sh hrule hwf hr hlegal
  exact act_of_body ha.runs hr (prefixes_ok hpx hr.norep ha.ximm ha.la) ha.guard hrole hwide ha.ends

/-- An instruction issues with a body that is illegal where its rule says so. -/
structure Forbids (i : Instr) (r : ActRule) (f : Form) (op : Slot → Op) (s : State) (sh : Sheaf) : Prop where
  runs  : exec i s = issued f r.g r.n op s
  legal : ¬ r.legal (s.begun sh) sh.begun → (op (s.here sh r.g.toNat r.n.toNat)).legal sh.begun (s.begun sh) = false

/-- A table whose instructions issue with such bodies raises ILLEGAL as it says. -/
theorem illegalTraps_of_forbids {table : Instr → Option ActRule}
    (h : ∀ (i : Instr) (r : ActRule) (s : State) (sh : Sheaf), table i = some r → ∃ f op, Forbids i r f op s sh) : IllegalTraps table := by
  intro i r s sh hrule _ hthere hissuing hnorep hlegal
  obtain ⟨f, op, hf⟩ := h i r s sh hrule
  exact raises_illegal hf.runs hthere hissuing hnorep (hf.legal hlegal)

end Sys2Proof.Machine
end

/-! PROOFS. Special registers (R47, R131): what the machine reads and writes is what the table of R47 says. -/
section
namespace Sys2Proof.Machine

/-- R145: the loop slot that a number addresses. -/
theorem loopSlot_zero (sh : Sheaf) : sh.loopSlot 0 = sh.loopNamed false := by
  unfold Sheaf.loopSlot Sheaf.loopNamed; cases sh.handler <;> rfl

theorem loopSlot_one (sh : Sheaf) : sh.loopSlot 1 = sh.loopNamed true := by
  unfold Sheaf.loopSlot Sheaf.loopNamed; cases sh.handler <;> rfl

/-- A value of 64 bits, narrowed to the word that the table gives (R47). -/
theorem narrow_ofNat (k : Nat) : (BitVec.ofNat 64 k).setWidth 32 = BitVec.ofNat 32 (k % 2 ^ 32) := by
  apply BitVec.eq_of_toNat_eq
  simp only [BitVec.toNat_setWidth, BitVec.toNat_ofNat]
  omega

theorem narrow_word (w : Word) : (w.setWidth 64).setWidth 32 = BitVec.ofNat 32 (w.toNat % 2 ^ 32) := by
  apply BitVec.eq_of_toNat_eq
  simp only [BitVec.toNat_setWidth, BitVec.toNat_ofNat]
  omega

/-- What the special register of a number reads as, in the width that the table gives it. -/
def Shows (s : State) (sh : Sheaf) (n : Nat) (v : Bool × Nat) : Prop :=
  srWide n = v.1 ∧ if v.1 then s.special sh n = BitVec.ofNat 64 v.2 else (s.special sh n).setWidth 32 = BitVec.ofNat 32 v.2

/-- R47: the registers that depend on the kernel: the coordinates of the tuft and the extents of its grid. -/
theorem shows_grid {s : State} {sh : Sheaf} {k : Kernel} (hk : s.kernelOf? sh = some k) :
    let index := match s.tuft? sh.tid with | some t => t.index | none => 0
    Shows s sh 0x01 (false, index % k.nx % 2 ^ 32) ∧ Shows s sh 0x02 (false, index / k.nx % k.ny % 2 ^ 32) ∧
    Shows s sh 0x03 (false, index / (k.nx * k.ny) % 2 ^ 32) ∧ Shows s sh 0x04 (false, k.nx % 2 ^ 32) ∧
    Shows s sh 0x05 (false, k.ny % 2 ^ 32) ∧ Shows s sh 0x06 (false, k.nz % 2 ^ 32) := by
  obtain ⟨t, ht, _⟩ := Option.bind_eq_some_iff.mp hk
  refine ⟨⟨rfl, ?_⟩, ⟨rfl, ?_⟩, ⟨rfl, ?_⟩, ⟨rfl, ?_⟩, ⟨rfl, ?_⟩, ⟨rfl, ?_⟩⟩
  all_goals simp only [State.special, hk, ht, Kernel.coord, Option.elim_some, Bool.false_eq_true, if_false, narrow_ofNat, Nat.div_div_eq_div_mul]

/-- R47, R145: the registers of a handler. -/
theorem shows_handler {s : State} {sh : Sheaf} (hrep : sh.reprem = 0) :
    Shows s sh 0x1E (false, (match sh.handler with | some h => h.reprem | none => 0) % 2 ^ 32) ∧
    Shows s sh 0x20 (false, (match sh.handler with | some h => h.tcause.toNat | none => 0) % 2 ^ 32) ∧
    Shows s sh 0x21 (true, match sh.handler with | some h => h.tinfo.toNat | none => 0) := by
  refine ⟨⟨rfl, ?_⟩, ⟨rfl, ?_⟩, ⟨rfl, ?_⟩⟩
  · cases hh : sh.handler <;> simp only [State.special, hh, hrep, Bool.false_eq_true, if_false, narrow_ofNat]
  · cases hh : sh.handler <;> simp only [State.special, hh, Bool.false_eq_true, if_false, narrow_word]
    rfl
  · cases hh : sh.handler <;> simp [State.special, hh]

/-- R47: every special register reads as the table says. -/
theorem shows_specialValue {s : State} {sh : Sheaf} {n : Nat} {v : Bool × Nat} (hrep : sh.reprem = 0) (h : specialValue s sh n = some v) :
    Shows s sh n v := by
  unfold specialValue at h
  simp only at h
  split at h <;> cases h
  case h_2 hk =>
    obtain ⟨h, -⟩ := shows_grid hk
    exact h
  case h_3 hk =>
    obtain ⟨-, h, -⟩ := shows_grid hk
    exact h
  case h_4 hk =>
    obtain ⟨-, -, h, -⟩ := shows_grid hk
    exact h
  case h_5 hk =>
    obtain ⟨-, -, -, h, -⟩ := shows_grid hk
    exact h
  case h_6 hk =>
    obtain ⟨-, -, -, -, h, -⟩ := shows_grid hk
    exact h
  case h_7 hk =>
    obtain ⟨-, -, -, -, -, h⟩ := shows_grid hk
    exact h
  case h_21 =>
    obtain ⟨h, -⟩ := shows_handler (s := s) hrep
    exact h
  case h_22 =>
    obtain ⟨-, h, -⟩ := shows_handler (s := s) hrep
    exact h
  case h_23 =>
    obtain ⟨-, -, h⟩ := shows_handler (s := s) hrep
    exact h
  all_goals
    refine ⟨rfl, ?_⟩
    simp only [State.special, loopSlot_zero, loopSlot_one, Bool.false_eq_true, if_false, if_true, narrow_ofNat, narrow_word, BitVec.ofNat_toNat,
      BitVec.setWidth_eq]
  all_goals rfl

/-- SRD (R131): the register, or the pair, takes the value in its width. -/
theorem writeWide_of_shows {s : State} {sh x : Sheaf} {n : Nat} {v : Bool × Nat} (h : Shows s x n v) (d : BitVec 8) :
    sh.writeWide (uIndex d.toNat) (srWide n) (s.special x n) 0 = sh.takeSpecial d v := by
  obtain ⟨hwide, hval⟩ := h
  unfold Sheaf.writeWide Sheaf.takeSpecial
  rw [hwide]
  split
  · next hv => rw [if_pos hv] at hval; rw [hval]; rfl
  · next hv => rw [if_neg hv] at hval; rw [hval]; rfl

/-- SRD (R47, R131): what the rule says of it is what its body does. -/
theorem srd_body {s : State} {slot : Slot} {sh : Sheaf} {d r : BitVec 8} {a : Act} (hrep : sh.reprem = 0)
    (h : srdOutcome d r s slot sh = some a) : (srdOp d.toNat r.toNat slot).body slot sh s = a := by
  unfold srdOutcome at h
  split at h
  · next hclk =>
    cases h
    simp only [srdOp, State.readSpecial, hclk, beq_self_eq_true, if_true]
    rfl
  · next hclk =>
    obtain ⟨v, hv, rfl⟩ := Option.map_eq_some_iff.mp h
    have hne : (r.toNat == 0x0C) = false := beq_eq_false_iff_ne.mpr hclk
    simp only [srdOp, State.readSpecial, hne, Bool.false_eq_true, if_false, writeWide_of_shows (shows_specialValue hrep hv) d]
    rfl

/-- R145: a loop slot that SWR addresses. -/
theorem modLoopSlot_zero (sh : Sheaf) {mark : Mark} {F f : LoopSlot → LoopSlot} (hF : ∀ x, F x = { f x with mark := maxMark x.mark mark }) :
    sh.modLoopSlot 0 F = sh.setLoopNamed false mark f := by
  obtain rfl := funext hF
  unfold Sheaf.modLoopSlot Sheaf.setLoopNamed Sheaf.loopNamed; cases sh.handler <;> rfl

theorem modLoopSlot_one (sh : Sheaf) {mark : Mark} {F f : LoopSlot → LoopSlot} (hF : ∀ x, F x = { f x with mark := maxMark x.mark mark }) :
    sh.modLoopSlot 1 F = sh.setLoopNamed true mark f := by
  obtain rfl := funext hF
  unfold Sheaf.modLoopSlot Sheaf.setLoopNamed Sheaf.loopNamed; cases sh.handler <;> rfl

/-- SWR (R22, R38, R47, R48): the machine accepts the values that the table accepts, and writes what the table says. -/
theorem writeSpecial_of_specialWrite {sh : Sheaf} {n : Nat} {w : Word} {v : Addr} {mark wmark : Mark} {x : Bool × Sheaf}
    (h : specialWrite sh n w v mark wmark = some x) :
    sh.writeSpecial n (if srWide n then v else w.setWidth 64) (if srWide n then wmark else mark) = if x.1 then some x.2 else none := by
  have hw : (w.setWidth 64).setWidth 32 = w := by simp
  have hnarrow : ∀ n ∈ [0x10, 0x12, 0x18, 0x19, 0x1E, 0x24, 0x25], srWide n = false := by decide
  have hwide : ∀ n ∈ [0x1A, 0x1B, 0x1C, 0x1D], srWide n = true := by decide
  simp only [List.forall_mem_cons, List.not_mem_nil, false_imp_iff, implies_true, and_true] at hnarrow hwide
  unfold specialWrite at h
  split at h
  case h_1 =>
    cases h
    simp [Sheaf.writeSpecial, hnarrow, hw, statusLegal]
  case h_2 =>
    cases h
    simp [Sheaf.writeSpecial, hnarrow, hw, fairqLegal]
  case h_3 =>
    cases h
    simp only [Sheaf.writeSpecial, hnarrow, hw, if_true, if_false, Bool.false_eq_true]
    exact congrArg some (modLoopSlot_zero sh (fun _ => rfl))
  case h_4 =>
    cases h
    simp only [Sheaf.writeSpecial, hnarrow, hw, if_true, if_false, Bool.false_eq_true]
    exact congrArg some (modLoopSlot_one sh (fun _ => rfl))
  case h_5 | h_6 =>
    cases h
    simp only [Sheaf.writeSpecial, hwide, targetOk_eq, if_true]
    exact congrArg (fun y => if reachableTarget v then some y else none) (modLoopSlot_zero sh (fun _ => rfl))
  case h_7 | h_8 =>
    cases h
    simp only [Sheaf.writeSpecial, hwide, targetOk_eq, if_true]
    exact congrArg (fun y => if reachableTarget v then some y else none) (modLoopSlot_one sh (fun _ => rfl))
  case h_9 =>
    obtain ⟨y, hy, rfl⟩ := Option.map_eq_some_iff.mp h
    simp [Sheaf.writeSpecial, hnarrow, hw, hy]
  case h_10 | h_11 =>
    obtain ⟨y, _, rfl⟩ := Option.map_eq_some_iff.mp h
    simp [Sheaf.writeSpecial, hnarrow, hw, windowOk]
  case h_12 => cases h

/-- SWR (R131): what the rule says of it is what its body does. -/
theorem swr_body {s : State} {slot : Slot} {sh : Sheaf} {d r : BitVec 8} {a : Act} (h : swrOutcome d r s slot sh = some a) :
    (swrOp d.toNat r.toNat slot).body slot sh s = a := by
  obtain ⟨x, hx, rfl⟩ := Option.map_eq_some_iff.mp h
  have hwrite := writeSpecial_of_specialWrite hx
  have hval : (if srWide r.toNat then sh.readPair (d.toNat - 64) else (sh.readU (d.toNat - 64)).setWidth 64) =
      if srWide r.toNat then sh.readPairB d.toNat else (sh.readUB d.toNat).setWidth 64 := rfl
  rw [hval] at hwrite
  have hbody : (swrOp d.toNat r.toNat slot).body slot sh s = match (if x.1 then some x.2 else none) with
      | some y => Act.ofSheaf slot s y
      | none => Act.trap (illegalWord slot) s := by rw [← hwrite]; rfl
  rw [hbody]
  cases x.1 <;> rfl

/-- SRD and SWR issue with the bodies that the table describes (R131). -/
theorem special_acts {i : Instr} {r : ActRule} {s : State} {sh : Sheaf} (hrule : specialRule i = some r) (hwf : i.wf = true)
    (hlegal : r.legal (s.begun sh) sh.begun) : ∃ f op, Acts i r f op s sh := by
  unfold specialRule at hrule
  split at hrule <;> cases hrule
  case h_1 g n d r =>
    obtain ⟨hg, hok⟩ := Bool.and_eq_true_iff.mp hwf
    exact ⟨_, _, rfl, hg, rfl, rfl, fun _ => rfl, rfl, rfl, rfl, hok, rfl, rfl, fun _ h => srd_body rfl h⟩
  case h_2 g n d r =>
    obtain ⟨hg, hok⟩ := Bool.and_eq_true_iff.mp hwf
    refine ⟨_, _, rfl, hg, rfl, rfl, fun _ => rfl, rfl, rfl, rfl, hok, ?_, rfl, fun _ h => swr_body h⟩
    simpa [swrOp, srHandler, imp_iff_not_or] using hlegal

/-- Only SWR has registers that are illegal somewhere: those of a handler (R86, R131). -/
theorem special_forbids {i : Instr} {r : ActRule} (s : State) (sh : Sheaf) (hrule : specialRule i = some r) : ∃ f op, Forbids i r f op s sh := by
  unfold specialRule at hrule
  split at hrule <;> cases hrule
  case h_1 g n d r => exact ⟨_, _, rfl, fun h => absurd trivial h⟩
  case h_2 g n d r =>
    refine ⟨_, _, rfl, fun h => ?_⟩
    simpa [swrOp, srHandler, or_iff_not_imp_left] using h

end Sys2Proof.Machine

open Sys2Proof Sys2Proof.Machine

/-- Settles O30: SRD and SWR end as the table of R47 says; outside a handler SWR of the handler's registers fails the first check of R86. -/
theorem specialRegisters : Obligations.SpecialRegisters :=
  ⟨actRules_of_acts fun _ _ _ _ hrule hwf _ hlegal => special_acts hrule hwf hlegal,
   illegalTraps_of_forbids fun _ _ s sh hrule => special_forbids s sh hrule⟩

end

/-! PROOFS. Fences, drains, cache maintenance and leases (R171, R245), and their waits (R33). -/
section
namespace Sys2Proof.Machine

/-! ## Waits (R33) -/

/-- A comparison of shares changes tufts and no sheaf (R247). -/
theorem State.compareShare_sheaf? (s : State) (sid x : Nat) : (s.compareShare sid).sheaf? x = s.sheaf? x := by
  unfold State.compareShare
  cases s.sheaf? sid with
  | none => rfl
  | some sh =>
    simp only
    cases s.kernelOf? sh with
    | none => rfl
    | some k => rfl

/-- A sheaf that has not ended begins to wait at its first attached hint (R33, R95). -/
theorem State.beginWait_sheaf? {s : State} {slot : Slot} {y : Sheaf} (h : s.sheaf? slot.sid = some y) (ho : y.over = false) (k : WaitKind) :
    (s.beginWait slot k).sheaf? slot.sid = some (y.waitIn slot k) := by
  simp only [State.beginWait, State.compareShare_sheaf?, State.modSheaf, h, ho, Bool.false_eq_true, if_false, State.setSheaf_sheaf?]

theorem State.stopAt_sheaf? {s : State} {slot : Slot} {y : Sheaf} (h : s.sheaf? slot.sid = some y) (start : Nat) :
    (s.stopAt slot start).sheaf? slot.sid = some { y with reprem := slot.left, began := if slot.index == 0 then none else some start } := by
  simp only [State.stopAt, State.modSheaf, h, State.setSheaf_sheaf?]

/-- The lanes of a sheaf that waits stand at its first attached hint (R95). -/
theorem Sheaf.waitIn_pc (y : Sheaf) (slot : Slot) (k : WaitKind) {l : Nat} (hl : l < 32) :
    (y.waitIn slot k).pc l = if hasLane (slot.lanes &&& y.live) l then slot.group else y.pc l :=
  (congrArg (fun xs => List.getD xs l 0) (show (y.waitIn slot k).pcv = (y.setPcs (slot.lanes &&& y.live) (fun _ => slot.group)).pcv from rfl)).trans
    (Sheaf.setPcs_pc y _ _ hl)

/-- An instruction whose body ends in a wait begins it. -/
theorem waits_of_wait {i : Instr} {s t : State} {sh : Sheaf} {g n : Nat} {k : WaitKind}
    (hx : exec i s = .next (endAct (s.here sh g n) (s.began sh) (.wait k t)).settle) : Waits i s t sh g n k := by
  refine ⟨hx, fun y hy ho => ?_⟩
  have hsid : (s.here sh g n).sid = s.slot.sid := State.here_sid ..
  have hstop := State.stopAt_sheaf? (s := t) (slot := s.here sh g n) (by rw [hsid]; exact hy) (s.began sh)
  have hwait := State.beginWait_sheaf? hstop ((Sheaf.over_congr rfl).trans ho) k
  rw [hsid] at hwait
  refine ⟨_, hwait, rfl, rfl, fun l hl => ?_⟩
  rw [Sheaf.waitIn_pc _ _ _ hl, State.here_lanes, State.here_group]
  rfl

/-! ## Fences (R171, R245) -/

theorem relAct_eq (slot : Slot) (scope : Nat) (s : State) (go : State → Act) : relAct slot scope s go = releasing s slot scope go := rfl

theorem acqAct_eq (slot : Slot) (scope : Nat) (s : State) : acqAct slot scope s = acquiring s slot scope := rfl

/-- Fences, cache maintenance and leases issue with the bodies that the table describes. -/
theorem fence_acts {i : Instr} {r : ActRule} (s : State) (sh : Sheaf) (hrule : fenceRule i = some r) (hwf : i.wf = true) :
    ∃ f op, Acts i r f op s sh := by
  unfold fenceRule at hrule
  split at hrule <;> cases hrule
  case h_1 | h_2 | h_3 =>
    obtain ⟨hg, hok⟩ := Bool.and_eq_true_iff.mp hwf
    refine ⟨_, _, rfl, hg, rfl, rfl, fun h => (by cases h), rfl, rfl, rfl, hok, rfl, rfl, fun _ h => ?_⟩
    cases h
    rfl
  case h_4 | h_5 | h_6 =>
    refine ⟨_, _, rfl, hwf, rfl, rfl, fun h => (by cases h), rfl, rfl, rfl, rfl, rfl, rfl, fun _ h => ?_⟩
    cases h
    rfl
  case h_7 | h_9 =>
    obtain ⟨hg, hok⟩ := Bool.and_eq_true_iff.mp hwf
    refine ⟨_, _, rfl, hg, rfl, rfl, fun _ => rfl, rfl, rfl, rfl, hok, rfl, rfl, fun _ h => ?_⟩
    cases h
    rfl
  case h_8 =>
    refine ⟨_, _, rfl, hwf, rfl, rfl, fun _ => rfl, rfl, rfl, rfl, rfl, rfl, rfl, fun _ h => ?_⟩
    cases h
    rfl

theorem fence_rules : ActRules fenceRule := actRules_of_acts fun _ _ s sh hrule hwf _ _ => fence_acts s sh hrule hwf

/-! ## The wait for counters (R171) -/

/-- A counter of a scope that is not zero holds a release at that scope. -/
theorem countersZero_false {y : Sheaf} {scope : Nat}
    (h : (y.cntSlice ≠ 0 ∧ 2 ≤ scope) ∨ (y.cntPart ≠ 0 ∧ 3 ≤ scope) ∨ (y.cntSys ≠ 0 ∧ 4 ≤ scope)) : y.countersZero scope = false := by
  rcases h with ⟨hne, hs⟩ | ⟨hne, hs⟩ | ⟨hne, hs⟩
  · simp [Sheaf.countersZero, hne, Nat.not_lt.mpr hs]
  · simp [Sheaf.countersZero, hne, Nat.not_lt.mpr hs]
  · simp [Sheaf.countersZero, hne, Nat.not_lt.mpr hs]

theorem released_eq {t : State} {sid : Nat} {y : Sheaf} (hy : t.sheaf? sid = some y) (scope : Nat) : t.released sid scope = y.countersZero scope := by
  simp only [State.released, hy]

/-- A release whose counters are not zero, what it has to send having been sent, waits for them. -/
theorem releasing_waits {s : State} {slot : Slot} {scope : Nat} {y : Sheaf} (go : State → Act)
    (hy : (s.releaseStart slot.sid scope).sheaf? slot.sid = some y) (ho : y.over = false) (hc : y.countersZero scope = false) :
    releasing s slot scope go = .wait (.counters scope) (s.releaseStart slot.sid scope) := by
  simp only [releasing, State.ended, released_eq hy, hy, ho, hc, Bool.false_eq_true, if_false]

/-- The rule of an instruction that waits for counters ends in the wait for them. -/
theorem fence_outcome_waits {i : Instr} {g : BitVec 4} {n : BitVec 1} {scope : Nat} {begins : State → Nat → State} {s : State} {slot : Slot} {y : Sheaf}
    (hwaits : fenceWaits i = some (g, n, scope, begins)) (hy : (begins s slot.sid).sheaf? slot.sid = some y) (ho : y.over = false)
    (hc : y.countersZero scope = false) :
    ∃ r, fenceRule i = some r ∧ r.g = g ∧ r.n = n ∧ r.wide = false ∧ r.role = .other ∧ r.writes = [] ∧ (∀ s sh, r.legal s sh) ∧
      ∀ sh, r.outcome s slot sh = some (.wait (.counters scope) (begins s slot.sid)) := by
  unfold fenceWaits at hwaits
  split at hwaits <;> cases hwaits
  case h_1 | h_2 => exact ⟨_, rfl, rfl, rfl, rfl, rfl, rfl, fun _ _ => trivial, fun _ => congrArg some (releasing_waits _ hy ho hc)⟩
  case h_3 =>
    refine ⟨_, rfl, rfl, rfl, rfl, rfl, rfl, fun _ _ => trivial, fun _ => ?_⟩
    simp only [released_eq hy, hc, Bool.false_eq_true, if_false]

/-- While a counter of its scope is not zero, a fence, a release or a drain waits (R171). -/
theorem releasesWait : ReleasesWait := by
  intro i g n scope begins s t sh y hwaits hwf hr hpx hact ht hy ho hcount
  subst ht
  have hsid : (s.here sh g.toNat n.toNat).sid = s.slot.sid := State.here_sid ..
  obtain ⟨r, hrule, rfl, rfl, hwide, hrole, hwrites, hlegal, hout⟩ :=
    fence_outcome_waits (slot := s.here sh g.toNat n.toNat) hwaits (by rw [hsid]; exact hy) ho (countersZero_false hcount)
  have hruns := (fence_rules i r s sh hrule hwf hr hpx (fun h => by rw [hwide] at h; cases h) (by rw [hrole]; rfl) (hlegal ..)).2 _ (Or.inl hact) (hout _)
  have hnoted : ∀ a, r.noted s.slot.sid sh a = a := fun a => by simp only [ActRule.noted, hwrites, if_true]
  rw [hnoted, hsid] at hruns
  exact waits_of_wait hruns

end Sys2Proof.Machine

open Sys2Proof Sys2Proof.Machine

/-- Settles O29: each body ends as the table says; where a counter of the scope is left, what it ends in is the wait for it. -/
theorem fencesAndLeases : Obligations.FencesAndLeases := ⟨fence_rules, releasesWait⟩

end

/-! PROOFS. The instructions of a handler (R144 to R149): a WFILL that writes a B register of a MATRIX sheaf under MSTRICT. -/
section
namespace Sys2Proof.Machine

/-- What a handler of one frame has saved. -/
def fillSaved : Saved :=
  { xpc := List.replicate 32 probeCode, loop0 := LoopSlot.zero, loop1 := LoopSlot.zero, round := Round.none, reprem := 0, tcause := 0, tinfo := 0,
    second := none }

/-- A MATRIX sheaf under MSTRICT in a handler, one of whose 56 registers lies in its spill area (R38, R40). -/
def fillSheaf : Sheaf :=
  { probeSheaf with
    role := .matrix, mode := 4, state := .trapped, handler := some fillSaved, vstack := 56, wbase := 1, wrbase := 1, lstk := 0x10400 }

/-- The machine with that sheaf in its issue slot, its kernel giving each sheaf a spill area of one register. -/
def fillState : State :=
  (({ State.reset.withFetchWord 32 0 with slot := slotFor 0 probeCode 0xFFFFFFFF Hints.none }).setKernel 0
    { probeKernel with desc := { probeKernel.desc with lstksheaf := 128 } }).setSheaf 0 fillSheaf

/-- The registers that sheaf 0 remembers as written since its last MFENCE (R195 row 1), in the state that an outcome goes on to. -/
def rememberedWrites (o : Host.Outcome State Fault Refusal) : Option (List Nat) :=
  match o with
  | .next t => (t.sheaf? 0).map Sheaf.bWrites
  | _ => none

/-- The machine remembers the register that the WFILL has written. -/
theorem wfill_remembers : rememberedWrites (exec (.wfill 15 0 1) fillState) = some [0] := rfl

/-- The table of handler instructions goes on to a state that does not remember it. -/
theorem wfillOutcome_forgets : ∃ a, wfillOutcome 1 (fillState.begun fillSheaf) (fillState.here fillSheaf 15 0) fillSheaf.begun = some a ∧
    rememberedWrites (.next (endAct (fillState.here fillSheaf 15 0) (fillState.began fillSheaf) a).settle) = some [] := ⟨_, rfl, rfl⟩

theorem fillState_ready : Ready fillState fillSheaf := by constructor <;> rfl

end Sys2Proof.Machine

open Sys2Proof Sys2Proof.Machine

/-- Refutes O31: WFILL 1 in `fillState`, a MATRIX sheaf under MSTRICT, is remembered as a write of register 0 (R195 row 1); the table's outcome
for WFILL notes no write, its `writes` being empty. -/
theorem not_handlerInstructions : ¬ Obligations.HandlerInstructions := by
  unfold Obligations.HandlerInstructions
  rintro ⟨hacts, -, -⟩
  obtain ⟨a, hout, hforgets⟩ := wfillOutcome_forgets
  have hprefixed : Prefixed (.wfill 15 0 1) fillState := ⟨Or.inl rfl, Or.inl rfl⟩
  have hrun : exec (.wfill 15 0 1) fillState = .next (endAct (fillState.here fillSheaf 15 0) (fillState.began fillSheaf) a).settle :=
    (hacts (.wfill 15 0 1) _ fillState fillSheaf rfl rfl fillState_ready hprefixed (fun _ => ⟨rfl, Or.inr rfl⟩) rfl rfl).2 a (Or.inl (by decide)) hout
  have hsame : some [0] = some [] := by rw [← wfill_remembers, hrun, hforgets]
  exact absurd hsame (by decide)

end

/-! PROOFS. The classes of R31: what an instruction of the matrix, copy, varying floating-point or special class issues as. -/
section
namespace Sys2Proof.Machine

/-- An instruction issues in a form of a class, with an operation that its well-formedness makes legal, in a sheaf and tuft that it names. -/
structure Classed (i : Instr) (c : RoleClass) (legal : State → Sheaf → Prop) (f : Form) (g : BitVec 4) (n : BitVec 1) (op : Slot → Op) : Prop where
  runs  : ∀ s, exec i s = issued f g n op s
  role  : f.role = c
  ximm  : takesXimm i = f.ximm
  la    : takesLa i = f.la
  guard : guardOk g.toNat n.toNat = true
  ok    : ∀ slot : Slot, slot.steps = (0, 0, 0) → (op slot).ok = true
  legal : ∀ (slot : Slot) (s : State) (sh : Sheaf), legal s sh → (op slot).legal sh s = true

/-- A form and an operation make an instruction one of a class. -/
def ClassedAs (i : Instr) (c : RoleClass) (legal : State → Sheaf → Prop) : Prop := ∃ f g n op, Classed i c legal f g n op

/-- R31: a classed instruction raises ROLE in a sheaf whose role does not issue its class. -/
theorem ClassedAs.raises_role {i : Instr} {c : RoleClass} {legal : State → Sheaf → Prop} {s : State} {sh : Sheaf} (h : ClassedAs i c legal)
    (hr : Ready s sh) (hpx : Prefixed i s) (hl : legal (s.begun sh) sh.begun) (hc : c.issues sh.role = false) :
    Raises i s sh (TrapInfo.at cRole 0 0 (s.slot.word.setWidth 64)) := by
  obtain ⟨f, g, n, op, h⟩ := h
  exact Machine.raises_role (h.runs s) hr (prefixes_ok hpx hr.norep h.ximm h.la) h.guard (h.ok _ (here_steps hr ..)) (h.legal _ _ _ hl)
    (by rw [h.role]; exact hc)

/-! ## Varying floating point (R114 to R117, R119, R135) -/

/-- An instruction of the VV format (R110, R114, R115): its fields name registers, whatever they hold. -/
theorem classed_vv {i : Instr} {readsD : Bool} {F : Word → Word → Word → Word × Word} {g : BitVec 4} {n : BitVec 1} {d a : BitVec 5} {b : BitVec 8}
    (hruns : ∀ s, exec i s = issued formFloat g n (vvOp readsD F d.toNat a.toNat b.toNat) s) (hximm : takesXimm i = false) (hla : takesLa i = false)
    (hg : guardOk g.toNat n.toNat = true) : ClassedAs i .varyingFloat (fun _ _ => True) := by
  refine ⟨_, _, _, _, hruns, rfl, hximm, hla, hg, fun slot h => ?_, fun _ _ _ _ => rfl⟩
  simp [vvOp, h, stepV, stepB, isV, d.isLt, a.isLt, b.isLt]

/-- An instruction of major 0x07 or 0x0A (R110, R116, R117), its operation legal. -/
theorem classed_convert {i : Instr} {op : Slot → Op} {g : BitVec 4} {n : BitVec 1} (hruns : ∀ s, exec i s = issued formConvert g n op s)
    (hximm : takesXimm i = false) (hla : takesLa i = false) (hg : guardOk g.toNat n.toNat = true) (hok : ∀ slot, (op slot).ok = true)
    (hlegal : ∀ slot sh s, (op slot).legal sh s = true) : ClassedAs i .varyingFloat (fun _ _ => True) :=
  ⟨_, _, _, _, hruns, rfl, hximm, hla, hg, fun slot _ => hok slot, fun slot s sh _ => hlegal slot sh s⟩

theorem laneRule_classed {i : Instr} {r : LaneRule} (h : laneRule i = some r) (hf : r.float = true) (hwf : i.wf = true) :
    ClassedAs i .varyingFloat (fun _ _ => True) := by
  unfold laneRule at h
  split at h <;> cases h
  case h_29 | h_30 | h_31 | h_32 | h_33 | h_34 | h_35 | h_36 | h_37 | h_38 | h_39 | h_40 | h_41 | h_42 =>
    exact classed_vv (fun _ => rfl) rfl rfl hwf
  case h_52 | h_55 =>
    obtain ⟨hg, hok⟩ := Bool.and_eq_true_iff.mp hwf
    exact classed_convert (fun _ => rfl) rfl rfl hg (fun _ => hok) (fun _ _ _ => rfl)
  case h_47 | h_48 | h_49 | h_50 | h_51 | h_53 | h_54 | h_56 | h_57 | h_58 | h_59 | h_60 =>
    exact classed_convert (fun _ => rfl) rfl rfl hwf (fun _ => rfl) (fun _ _ _ => rfl)
  all_goals cases hf

theorem predRule_classed {i : Instr} {r : SheafRule} (h : predRule i = some r) (hf : r.float = true) (hwf : i.wf = true) :
    ClassedAs i .varyingFloat (fun _ _ => True) := by
  unfold predRule at h
  split at h <;> cases h
  case h_2 =>
    obtain ⟨hgp, hc⟩ := Bool.and_eq_true_iff.mp hwf
    obtain ⟨hg, hp⟩ := Bool.and_eq_true_iff.mp hgp
    exact classed_convert (fun _ => rfl) rfl rfl hg (fun _ => Bool.and_eq_true_iff.mpr ⟨hc, hp⟩) (fun _ _ _ => rfl)
  all_goals cases hf

theorem demoteRule_classed {i : Instr} {r : SheafRule} (h : demoteRule i = some r) (hf : r.float = true) (hwf : i.wf = true) :
    ClassedAs i .varyingFloat (fun _ _ => True) := by
  unfold demoteRule at h
  split at h <;> cases h
  case h_5 =>
    obtain ⟨hgd, hm⟩ := Bool.and_eq_true_iff.mp hwf
    obtain ⟨hg, hd⟩ := Bool.and_eq_true_iff.mp hgd
    exact ⟨_, _, _, _, fun _ => rfl, rfl, rfl, rfl, hg, fun _ _ => Bool.and_eq_true_iff.mpr ⟨hd, hm⟩, fun _ _ _ _ => rfl⟩
  all_goals cases hf

/-! ## Special functions (R118) -/

theorem lateRule_classed {i : Instr} {r : SheafRule} (h : lateRule i = some r) (hf : r.float = true) (hwf : i.wf = true) :
    ClassedAs i .special (fun _ _ => True) := by
  unfold lateRule at h
  split at h <;> cases h
  case h_7 | h_8 | h_9 | h_10 | h_11 | h_12 | h_13 | h_14 =>
    exact ⟨_, _, _, _, fun _ => rfl, rfl, rfl, rfl, hwf, fun _ _ => rfl, fun _ _ _ _ => rfl⟩
  all_goals cases hf

/-! ## Matrix functions (R177 to R195) -/

theorem tilesLegal_one {s : State} {sh : Sheaf} {m : Nat} (h : m < s.tilesOf sh) : tilesLegal [m] sh s = true := by
  simpa [tilesLegal] using h

theorem tilesLegal_mma {s : State} {sh : Sheaf} {t a x : BitVec 3} (ht : t.toNat < s.tilesOf sh) (ha : x = 1 → a.toNat + 1 < s.tilesOf sh) :
    tilesLegal (t.toNat :: (if x.toNat == 1 then [a.toNat, a.toNat + 1] else [])) sh s = true := by
  by_cases hx : x = 1
  · subst hx
    have := ha rfl
    have hlow : a.toNat < s.tilesOf sh := by omega
    simp [tilesLegal, ht, this, hlow]
  · have hx' : x.toNat ≠ 1 := fun h => hx (BitVec.eq_of_toNat_eq h)
    simp [tilesLegal, ht, hx']

theorem matrixRule_classed {i : Instr} {r : ActRule} (h : matrixRule i = some r) (hwf : i.wf = true) : ClassedAs i .matrix r.legal := by
  unfold matrixRule at h
  split at h <;> cases h
  case h_1 g n t f v a y z x =>
    obtain ⟨hg, hok⟩ := Bool.and_eq_true_iff.mp hwf
    refine ⟨_, _, _, _, fun _ => rfl, ?_, ?_, ?_, hg, fun _ _ => hok, fun _ _ _ hl => tilesLegal_mma hl.1 hl.2⟩
    all_goals cases f == 0 <;> rfl
  case h_2 | h_3 | h_4 =>
    exact ⟨_, _, _, _, fun _ => rfl, rfl, rfl, rfl, hwf, fun _ _ => rfl, fun _ _ _ hl => tilesLegal_one hl⟩
  case h_5 =>
    obtain ⟨hg, hok⟩ := Bool.and_eq_true_iff.mp hwf
    exact ⟨_, _, _, _, fun _ => rfl, rfl, rfl, rfl, hg, fun _ _ => hok, fun _ _ _ hl => tilesLegal_one hl⟩
  case h_6 | h_7 => exact ⟨_, _, _, _, fun _ => rfl, rfl, rfl, rfl, hwf, fun _ _ => rfl, fun _ _ _ _ => rfl⟩
  case h_8 | h_9 =>
    obtain ⟨hg, hok⟩ := Bool.and_eq_true_iff.mp hwf
    exact ⟨_, _, _, _, fun _ => rfl, rfl, rfl, rfl, hg, fun _ _ => hok, fun _ _ _ _ => rfl⟩

/-! ## Commands (R197, R348) -/

theorem tagLegal_of_ofTag {tag : Nat} {s : State} {sh : Sheaf} (h : ofTag tag s sh) : tagLegal tag sh s = true := by
  obtain ⟨t, ht, hlt⟩ := h
  simp [tagLegal, ht, hlt]

theorem collOp_ok {kind tag b c y : Nat} {slot : Slot} (hb : octU b = true) (hy : decide (y < 2) = true) (hc : (!(kind == 1 && c == 1)) = true) :
    (collOp kind tag b c y slot).ok = true := by
  simp only [collOp, hb, hy, hc, Bool.and_self]

/-- A copy or a collective, its operation well formed. -/
theorem classed_command {i : Instr} {kind : CopyKind} {op : Slot → Op} {g : BitVec 4} {n : BitVec 1} {tag : BitVec 6}
    (hruns : ∀ s, exec i s = issued (formCopy kind) g n op s) (hximm : takesXimm i = (kind == .xpnd)) (hla : takesLa i = false)
    (hg : guardOk g.toNat n.toNat = true) (hok : ∀ slot, (op slot).ok = true) (hlegal : ∀ slot, (op slot).legal = tagLegal tag.toNat) :
    ClassedAs i .copy (ofTag tag.toNat) :=
  ⟨_, _, _, _, hruns, rfl, hximm, hla, hg, fun slot _ => hok slot, fun slot _ _ hl => by rw [hlegal slot]; exact tagLegal_of_ofTag hl⟩

theorem commandRule_classed {i : Instr} {r : ActRule} (h : commandRule i = some r) (hwf : i.wf = true) : ClassedAs i .copy r.legal := by
  unfold commandRule at h
  split at h <;> cases h
  case h_1 | h_2 | h_3 | h_4 | h_5 | h_6 | h_7 | h_8 | h_9 =>
    obtain ⟨hg, hok⟩ := Bool.and_eq_true_iff.mp hwf
    exact classed_command (fun _ => rfl) rfl rfl hg (fun _ => hok) (fun _ => rfl)
  case h_10 g n t b c y =>
    obtain ⟨hgb, hy⟩ := Bool.and_eq_true_iff.mp hwf
    obtain ⟨hg, hb⟩ := Bool.and_eq_true_iff.mp hgb
    exact classed_command (fun _ => rfl) rfl rfl hg (fun _ => collOp_ok hb hy rfl) (fun _ => rfl)
  case h_11 g n t b c y =>
    obtain ⟨hgby, hc⟩ := Bool.and_eq_true_iff.mp hwf
    obtain ⟨hgb, hy⟩ := Bool.and_eq_true_iff.mp hgby
    obtain ⟨hg, hb⟩ := Bool.and_eq_true_iff.mp hgb
    have hrank : (!((1 : Nat) == 1 && c.toNat == 1)) = true := by rw [eq_of_beq hc]; rfl
    exact classed_command (fun _ => rfl) rfl rfl hg (fun _ => collOp_ok hb hy hrank) (fun _ => rfl)
  case h_12 g n t b c y =>
    obtain ⟨hgb, hy⟩ := Bool.and_eq_true_iff.mp hwf
    obtain ⟨hg, hb⟩ := Bool.and_eq_true_iff.mp hgb
    exact classed_command (fun _ => rfl) rfl rfl hg (fun _ => collOp_ok hb hy rfl) (fun _ => rfl)

/-! ## The classes -/

theorem roleBound_classed {i : Instr} {c : RoleClass} {legal : State → Sheaf → Prop} (h : roleBound i = some (c, legal)) (hwf : i.wf = true) :
    ClassedAs i c legal := by
  unfold roleBound at h
  split at h
  case h_1 hrule =>
    obtain ⟨hf, h⟩ := Option.ite_none_right_eq_some.mp h
    cases h
    exact laneRule_classed hrule hf hwf
  case h_2 hrule _ =>
    obtain ⟨hf, h⟩ := Option.ite_none_right_eq_some.mp h
    cases h
    exact predRule_classed hrule hf hwf
  case h_3 hrule _ _ =>
    obtain ⟨hf, h⟩ := Option.ite_none_right_eq_some.mp h
    cases h
    exact lateRule_classed hrule hf hwf
  case h_4 hrule _ _ _ =>
    obtain ⟨hf, h⟩ := Option.ite_none_right_eq_some.mp h
    cases h
    exact demoteRule_classed hrule hf hwf
  case h_5 hrule _ _ _ _ =>
    cases h
    exact matrixRule_classed hrule hwf
  case h_6 hrule _ _ _ _ _ =>
    cases h
    exact commandRule_classed hrule hwf
  case h_7 => cases h

end Sys2Proof.Machine

open Sys2Proof Sys2Proof.Machine

/-- Settles O42: an instruction with a class issues in a form of that class, and the class is judged before the guard. -/
theorem wrongRolesTrap : Obligations.WrongRolesTrap := by
  unfold Obligations.WrongRolesTrap
  intro i c legal s sh hclass hwf hr hpx hlegal hrole
  exact (roleBound_classed hclass hwf).raises_role hr hpx hlegal hrole

end

/-! PROOFS. The happenings of the scheduler (R24, R241 to R246): each makes the state that the table of happenings says. -/
section
namespace Sys2Proof.Machine

/-- A happening that is due has its condition and makes its state. -/
theorem due_eq_some {c : Prop} [Decidable c] {t u : State} : due c t = some u ↔ c ∧ t = u := by
  unfold due; split <;> simp [*]

theorem State.modSheaf_of_sheaf? {s : State} {sid : Nat} {sh : Sheaf} (h : s.sheaf? sid = some sh) (f : Sheaf → Sheaf) :
    s.modSheaf sid f = s.setSheaf sid (f sh) := by
  unfold State.modSheaf; rw [h]

/-! ## Turns (R24, R246) -/

theorem Sheaf.nextTurn_eq_turnOver (sh : Sheaf) : sh.nextTurn = sh.turnOver := by
  unfold Sheaf.nextTurn Sheaf.turnOver
  simp only [beq_iff_eq]

theorem execQuantumExpiry_of_due {s : State} {sid : Nat} {sh : Sheaf} (h : s.sheaf? sid = some sh) (ha : sh.round.active = true)
    (hc : sh.quantum ≤ sh.round.count) : execQuantumExpiry sid s = .next (s.setSheaf sid sh.turnOver) := by
  have hexpire : sh.expireTurn = sh.turnOver := by
    simp only [Sheaf.expireTurn, ha, hc, decide_true, Bool.and_self, if_true, Sheaf.nextTurn_eq_turnOver]
  rw [execQuantumExpiry, State.modSheaf_of_sheaf? h, hexpire]

theorem execStarvationLimit_of_oldest {s : State} {core quad : Nat} {e : Nat × Sheaf}
    (h : oldest? ((s.ready core quad).filter (fun e => decide (512 ≤ e.2.starve))) = some e) :
    execStarvationLimit core quad s = .next (s.withQuad core quad { last := some e.1, run := 0, yield := false }) := by
  simp only [execStarvationLimit, h, State.withQuad]

theorem Quad.goesOn_eq_false {q : Quad} (h : 32 < q.run ∨ q.yield = true) : q.goesOn = false := by
  rcases h with h | h
  · simp [Quad.goesOn, h]
  · simp [Quad.goesOn, h]

theorem execGreedyLimit_of_due {s : State} {core quad : Nat} (h : 32 < (s.quad core quad).run ∨ (s.quad core quad).yield = true) :
    execGreedyLimit core quad s = .next (s.withQuad core quad { last := none, run := 0, yield := false }) := by
  simp only [execGreedyLimit, Quad.goesOn_eq_false h, State.withQuad, Bool.false_eq_true, if_false]

/-! ## Admission (R243) -/

theorem State.letIn_of_sheaf? {s : State} {sid : Nat} {sh : Sheaf} (h : s.sheaf? sid = some sh) (kept : Bool) : s.letIn sid kept = s.admits sid sh kept := by
  simp only [State.letIn, h, State.admits, beq_iff_eq]

theorem execAgeBoundExpiry_of_due {s : State} {sid : Nat} {sh : Sheaf} (h : s.sheaf? sid = some sh) (hp : sh.state = .parked)
    (hf : sid ∈ (s.frontSheaves sh.core).map Prod.fst) : execAgeBoundExpiry sid s = .next (s.admits sid sh true).settle := by
  have hany : (s.frontSheaves sh.core).any (fun e => e.1 == sid) = true := by
    obtain ⟨e, he, heq⟩ := List.mem_map.mp hf
    exact List.any_eq_true.mpr ⟨e, he, beq_iff_eq.mpr heq⟩
  simp only [execAgeBoundExpiry, h, hp, hany, beq_self_eq_true, Bool.and_self, if_true, State.letIn_of_sheaf? h]

/-! ## The sketch (R242) -/

/-- R242: within 12.5 % of the distinct lines, below as above. -/
theorem Lease.sketch_eq_sketched (x : Lease) (estimate : Nat) : x.sketch estimate = sketched x.lines.length estimate := by
  have hbelow : 8 * x.lines.length ≤ 8 * estimate + x.lines.length ↔ x.lines.length - x.lines.length / 8 ≤ estimate := by omega
  simp only [Lease.sketch, sketched, Bool.and_eq_true, decide_eq_true_eq, hbelow]

theorem Lease.endWindow_eq (x : Lease) (estimate : Nat) : x.endWindow estimate =
    { x with d := sketched x.lines.length estimate, vg := x.vg / 2, memInstrs := x.memInstrs - 1024, lines := x.after, after := [],
             lease := if x.measured then min 255 ((sketched x.lines.length estimate + 31) / 32 + x.vg / 2) else x.lease } := by
  unfold Lease.endWindow Lease.follow
  rw [Lease.sketch_eq_sketched]
  cases hm : x.measured <;> rfl

theorem execFootprintWindow_of_due {s : State} {sid : Nat} {sh : Sheaf} (lines : Nat) (h : s.sheaf? sid = some sh) (hm : 1024 ≤ sh.lease.memInstrs) :
    execFootprintWindow sid lines s = .next (s.setSheaf sid { sh with lease := sh.lease.endWindow lines }) := by
  have hlt : ¬ sh.lease.memInstrs < 1024 := Nat.not_lt.mpr hm
  rw [execFootprintWindow, State.endWindow, State.modSheaf_of_sheaf? h, if_neg hlt]

/-! ## LSCHED (R241) -/

theorem lschedLegal_iff (v : Word) : lschedLegal v = true ↔
    field v.toNat 28 4 = 0 ∧ field v.toNat 16 4 = 0 ∧ field v.toNat 24 4 ≤ 12 ∧ field v.toNat 0 16 ≠ 0 := by
  simp only [lschedLegal, Bool.and_eq_true, beq_iff_eq, bne_iff_ne, decide_eq_true_eq, and_assoc]

theorem State.holdsTuft_eq_false_iff (s : State) (core : Nat) :
    s.holdsTuft core = false ↔ ∀ e ∈ s.tufts, (e.2.core == core && e.2.resident) = false := by
  simp only [State.holdsTuft, List.any_eq_false, Bool.not_eq_true]

theorem State.writeLsched_eq (s : State) (core : Nat) (v : Word) : s.writeLsched core v =
    if field v.toNat 28 4 = 0 ∧ field v.toNat 16 4 = 0 ∧ field v.toNat 24 4 ≤ 12 ∧ field v.toNat 0 16 ≠ 0 ∧
        (field v.toNat 24 4 = field (s.core core).lsched.toNat 24 4 ∨ ∀ e ∈ s.tufts, (e.2.core == core && e.2.resident) = false)
    then s.modCore core (fun k => { k with lsched := v }) else s.refuse (sliceOf core) (0x10000 * (core % 192)) := by
  simp only [State.writeLsched, Bool.and_eq_true, Bool.or_eq_true, Bool.not_eq_true', lschedLegal_iff, beq_iff_eq, State.holdsTuft_eq_false_iff, and_assoc]
  rfl

end Sys2Proof.Machine

open Sys2Proof Sys2Proof.Machine

/-- Settles O46, happening by happening. -/
theorem schedulerHappenings : Obligations.SchedulerHappenings := by
  unfold Obligations.SchedulerHappenings
  intro i f s t hi hf
  unfold scheduleHappening at hi
  split at hi <;> cases hi
  case h_1 sid =>
    obtain ⟨sh, hsh, hf⟩ := Option.bind_eq_some_iff.mp hf
    obtain ⟨⟨ha, hc⟩, rfl⟩ := due_eq_some.mp hf
    exact execQuantumExpiry_of_due hsh ha hc
  case h_2 core q =>
    obtain ⟨e, he, rfl⟩ := Option.map_eq_some_iff.mp hf
    exact execStarvationLimit_of_oldest he
  case h_3 core q =>
    obtain ⟨hq, rfl⟩ := due_eq_some.mp hf
    exact execGreedyLimit_of_due hq
  case h_4 core =>
    exact congrArg Host.Outcome.next (Option.some.inj hf)
  case h_5 sid =>
    obtain ⟨sh, hsh, hf⟩ := Option.bind_eq_some_iff.mp hf
    obtain ⟨⟨hp, hfront⟩, rfl⟩ := due_eq_some.mp hf
    exact execAgeBoundExpiry_of_due hsh hp hfront
  case h_6 sid lines =>
    obtain ⟨sh, hsh, hf⟩ := Option.bind_eq_some_iff.mp hf
    obtain ⟨hm, rfl⟩ := due_eq_some.mp hf
    exact (execFootprintWindow_of_due lines hsh hm).trans (by rw [Lease.endWindow_eq])
  case h_7 core v =>
    exact congrArg Host.Outcome.next ((State.writeLsched_eq s core v).trans (Option.some.inj hf))

end

/-! PROOFS. The happenings of kernels and tufts (R233 to R240, R247, R248, R262, R293): each makes the state that the table of happenings says. -/
section
namespace Sys2Proof.Machine

/-! ## Dispatch and the residency pass (R233, R234, R287) -/

theorem State.beginDispatch_of_queued {s : State} {kid : Nat} {k : Kernel} (h : s.kernel? kid = some k) (hq : k.state = .queued)
    (hc : s.ctxActive k.part k.ctx = true) : s.beginDispatch kid = s.noteKernel kid (fun k =>
      { k with state := .dispatching, list := (s.placeList k.part).map (fun sl => (sl, (s.slice sl).reserved)), resolved := [] }) := by
  simp only [State.beginDispatch, h, hq, hc, beq_self_eq_true, Bool.and_self, if_true]

theorem State.beginDispatch_of_dispatching {s : State} {kid : Nat} {k : Kernel} (h : s.kernel? kid = some k) (hd : k.state = .dispatching) :
    s.beginDispatch kid = s := by
  have hq : (KernelState.dispatching == KernelState.queued) = false := rfl
  simp only [State.beginDispatch, h, hd, hq, Bool.false_and, Bool.false_eq_true, if_false]

/-- A kernel whose residency pass is due (R287). -/
structure PassDue (s : State) (k : Kernel) : Prop where
  state    : k.state = .dispatching
  stage    : k.stage = 5
  prefault : k.prefault = none
  access   : k.access = none
  near     : s.farHeld k.slice k.far = false

theorem PassDue.runs {s : State} {k : Kernel} (h : PassDue s k) :
    (k.state != .dispatching || k.stage != 5 || k.prefault.isSome || k.access.isSome || s.farHeld k.slice k.far) = false := by
  obtain ⟨hs, hg, hp, ha, hf⟩ := h
  simp only [hs, hg, hp, ha, hf, bne_self_eq_false, Option.isSome_none, Bool.or_self]

section Pass

variable {s t : State} {kid : Nat} {k : Kernel} (h : s.kernel? kid = some k) (hd : PassDue s k)
include h hd

theorem State.residencyPass_done {b : Built} (hp : s.passRanges kid k k.ranges { extents := [], grows := false } = (.done b, t)) :
    let u := t.noteKernel kid (fun k => { k with state := .running, extents := b.extents.reverse, far := none })
    s.residencyPass kid =
      if k.next = k.nx * k.ny * k.nz then ((u.endHead kid).noteKernel kid (fun k => { k with state := .draining })).judgeKernel kid else u := by
  simp only [State.residencyPass, h, hd.runs, hp, Bool.false_eq_true, if_false, beq_iff_eq]

theorem State.residencyPass_hold (hp : s.passRanges kid k k.ranges { extents := [], grows := false } = (.hold, t)) : s.residencyPass kid = t := by
  simp only [State.residencyPass, h, hd.runs, hp, Bool.false_eq_true, if_false]

theorem State.residencyPass_far {page pa : Nat} (hp : s.passRanges kid k k.ranges { extents := [], grows := false } = (.far page pa, t)) :
    s.residencyPass kid = t.holdFarKernel kid pa (some page) := by
  simp only [State.residencyPass, h, hd.runs, hp, Bool.false_eq_true, if_false]

theorem State.residencyPass_refused (hp : s.passRanges kid k k.ranges { extents := [], grows := false } = (.refused, t)) :
    s.residencyPass kid = t.endKernel kid .faulted 13 := by
  simp only [State.residencyPass, h, hd.runs, hp, Bool.false_eq_true, if_false, State.refuseKernel]

theorem State.residencyPass_prefault {page : Nat} {f : SysFault}
    (hp : s.passRanges kid k k.ranges { extents := [], grows := false } = (.prefault page f, t)) :
    let r := t.postSliceFault k.slice k.part f (.prefault kid page) k.ctx (some kid) (kernelField k) none
    s.residencyPass kid = r.2.modKernel kid (fun k => { k with prefault := some r.1 }) := by
  simp only [State.residencyPass, h, hd.runs, hp, Bool.false_eq_true, if_false]

end Pass

/-! ## Placement (R238) -/

theorem State.mayPlace_of_placing {s : State} {k : Kernel} (h : placing s k = true)
    (hq : s.chargedTufts k.part k.ctx < (s.ctx k.part k.ctx).qtuft) : s.mayPlace k = true := by
  have hp : ((k.state == .running || k.state == .draining) && !k.preempt && s.ctxActive k.part k.ctx) = true := h
  simp only [State.mayPlace, hp, hq, decide_true, Bool.and_self]

theorem execTuftPlacement_of_due {s t : State} {kid : Nat} (h : placeHappening kid s = some t) : execTuftPlacement kid s = .next t := by
  obtain ⟨k, hk, h⟩ := Option.bind_eq_some_iff.mp h
  obtain ⟨⟨hp, hr, hq⟩, h⟩ := Option.ite_none_right_eq_some.mp h
  split at h
  next old index frame hn hf =>
    obtain ⟨core, hc, rfl⟩ := Option.map_eq_some_iff.mp h
    simp only [execTuftPlacement, State.placeNext, hk, State.mayPlace_of_placing hp hq, hr, hn, hf, hc, Bool.not_true, Bool.or_self, Bool.false_eq_true,
      if_false]
    rfl
  next => cases h

/-! ## Completion and the signal (R34, R262) -/

/-- A tuft that may leave (R34): its sheaves have all exited, its commands are done. -/
theorem State.completeTuft_of_ended {s : State} {tid : Nat} {t : Tuft} (ht : s.tuft? tid = some t)
    (he : (t.state == .resident && !t.parked && (s.sheavesOf t).all (fun x => x.2.state == .exited) && !s.hasCommands tid t.core) = true) :
    let u := s.forEach t.sheaves (fun s sid => s.sendBuffer sid)
    s.completeTuft tid = if (u.sheavesOf t).all (fun x => x.2.drained) then ((u.removeTuft tid).noteKernel t.kid (fun k => k)).judgeKernel t.kid else u := by
  simp only [Bool.and_eq_true, beq_iff_eq, Bool.not_eq_true'] at he
  obtain ⟨⟨⟨hr, hp⟩, hx⟩, hc⟩ := he
  simp only [State.completeTuft, ht, hr, hp, hx, hc, bne_self_eq_false, Bool.not_true, Bool.or_self, Bool.false_eq_true, if_false, Bool.not_eq_true']
  cases ((s.forEach t.sheaves (fun s sid => s.sendBuffer sid)).sheavesOf t).all (fun x => x.2.drained) <;> rfl

theorem execTuftComplete_of_due {s t : State} {tid : Nat} (h : completeHappening tid s = some t) : execTuftComplete tid s = .next t := by
  obtain ⟨x, hx, h⟩ := Option.bind_eq_some_iff.mp h
  simp only at h
  split at h
  next hleaves =>
    obtain ⟨hended, hdrained⟩ := Bool.and_eq_true_iff.mp hleaves
    rw [execTuftComplete, State.completeTuft_of_ended hx hended, if_pos hdrained]
    exact congrArg Host.Outcome.next (Option.some.inj h)
  next hleaves =>
    obtain ⟨hended, h⟩ := Option.ite_none_right_eq_some.mp h
    have hdrained : ¬ ((s.forEach x.sheaves (fun s sid => s.sendBuffer sid)).sheavesOf x).all (fun x => x.2.drained) = true :=
      fun hd => hleaves (Bool.and_eq_true_iff.mpr ⟨hended, hd⟩)
    rw [execTuftComplete, State.completeTuft_of_ended hx hended, if_neg hdrained]
    exact congrArg Host.Outcome.next (Option.some.inj h)

theorem execCompletionSignal_of_due {s : State} {kid : Nat} {k : Kernel} (h : s.kernel? kid = some k) (he : k.ended = true) (hr : k.recordDue = false)
    (ha : (s.queue k.slice k.entry).access = none) (hs : k.signalled = true ∨ k.noSignal = true) (hw : s.writeRecordOf kid = s) :
    execCompletionSignal kid s = .next ((s.modKernel kid (fun k => { k with signalled := true })).judgeQueue k.slice k.entry).settle := by
  have hs' : (k.signalled || k.noSignal) = true := by simpa using hs
  simp only [execCompletionSignal, State.signalKernel, hw, h, he, hr, ha, hs', Bool.not_true, Option.isSome_none, Bool.or_self, Bool.false_eq_true, if_false,
    if_true]

/-! ## RUNMAX (R240) -/

theorem execRunmaxExpiry_of_due {s : State} {tid : Nat} {t : Tuft} {k : Kernel} (ht : s.tuft? tid = some t) (hk : s.kernel? t.kid = some k)
    (hr : t.state = .resident) (hp : t.parked = false) (hm : 0 < k.desc.runmax) : execRunmaxExpiry tid s = .next (s.faultTuft tid 11 0 0).settle := by
  simp only [execRunmaxExpiry, ht, hk, hr, hp, hm, beq_self_eq_true, Bool.not_false, decide_true, Bool.and_self, if_true, fRunmax]

/-! ## Suspension and reload (R247, R248) -/

theorem execTuftSuspend_of_due {s : State} {tid : Nat} {t v : Tuft} {k : Kernel} (ht : s.tuft? tid = some t) (hk : s.kernel? t.kid = some k)
    (hv : (s.quiesce tid).tuft? tid = some v) (he : s.eligible tid t = true) (hl : t.leaving = true ∨ (s.inKwait t = true ∧ s.childStarved k = true))
    (he' : (s.quiesce tid).eligible tid v = true) (hc : (s.quiesce tid).hasCommands tid v.core = false) (hs : (s.quiesce tid).stuckTuft tid = false) :
    execTuftSuspend tid s = .next (((s.quiesce tid).saveTuft tid false).judgeKernel t.kid).settle := by
  have hsuspends : s.suspends tid t k = true := by simpa [State.suspends, he] using hl
  simp only [execTuftSuspend, State.suspendTuft, ht, hk, hsuspends, hv, he', hc, hs, Bool.not_true, Bool.not_false, Bool.and_self, Bool.false_eq_true,
    if_false, if_true]

theorem execForcedSuspension_of_due {s : State} {tid : Nat} {t v : Tuft} (ht : s.tuft? tid = some t) (hr : t.state = .resident) (hp : t.parked = false)
    (hf : t.forced = true) (hb : (s.sheavesOf t).all (fun x => x.2.atBoundary) = true) (hv : (s.quiesce tid).tuft? tid = some v)
    (hc : (s.quiesce tid).hasCommands tid v.core = false) (hs : (s.quiesce tid).stuckTuft tid = false) :
    execForcedSuspension tid s = .next (((s.quiesce tid).saveTuft tid true).judgeKernel t.kid).settle := by
  simp only [execForcedSuspension, State.forceSuspend, ht, hr, hp, hf, hb, hv, hc, hs, bne_self_eq_false, Bool.not_true, Bool.or_self,
    Bool.false_eq_true, if_false]

theorem execTuftReload_of_due {s : State} {tid core : Nat} {t : Tuft} {k : Kernel} {image : Nat} (ht : s.tuft? tid = some t)
    (hk : s.kernel? t.kid = some k) (hi : t.image = some image) (hr : s.reloadable t = true) (hp : placing s k = true)
    (hc : s.reloadCore? k t.index = some core) : execTuftReload tid s = .next (if s.saveIntact t k image then s.placeAgain tid t k core
      else (s.postSliceFault k.slice k.part (SysFault.ending 15 0 (k.desc.saveArea t.frame).1.toNat) .info k.ctx (some t.kid) (kernelField k)
        (some tid)).2.modTuft tid (fun t => { t with image := none })).settle := by
  simp only [placing, Bool.and_eq_true, Bool.or_eq_true, beq_iff_eq, Bool.not_eq_true'] at hp
  obtain ⟨⟨hstate, hpre⟩, hctx⟩ := hp
  have hruns : (k.state != .running && k.state != .draining) = false := by rcases hstate with h | h <;> rw [h] <;> rfl
  simp only [execTuftReload, State.reloadTuft, ht, hk, hi, hr, hruns, hpre, hctx, hc, Bool.not_true, Bool.or_self, Bool.false_eq_true, if_false, fSaveCorrupt]

/-! ## The abort of RESTART mode (R293) -/

theorem execTuftAbort_of_due {s : State} {tid : Nat} {t : Tuft} (ht : s.tuft? tid = some t) (ha : t.state = .aborted)
    (hb : (s.sheavesOf t).all (fun x => x.2.atBoundary) = true) (hc : ((s.dropColls tid false).abortCommands tid t.core).hasCommands tid t.core = false) :
    execTuftAbort tid s = .next ((((((s.dropColls tid false).abortCommands tid t.core).removeTuft tid).setTuft tid (freed t)).noteKernel t.kid
      (fun k => k)).judgeKernel t.kid).settle := by
  simp only [execTuftAbort, State.abortTuft, ht, ha, hb, hc, bne_self_eq_false, Bool.not_true, Bool.or_self, Bool.false_eq_true, if_false, freed]

end Sys2Proof.Machine

open Sys2Proof Sys2Proof.Machine

/-- Settles O47, happening by happening. -/
theorem tuftHappenings : Obligations.TuftHappenings := by
  unfold Obligations.TuftHappenings
  intro i f s t hi hf
  unfold tuftHappening at hi
  split at hi <;> cases hi
  case h_1 kid =>
    obtain ⟨k, hk, hf⟩ := Option.bind_eq_some_iff.mp hf
    simp only at hf
    split at hf
    next hq =>
      have hbegin := State.beginDispatch_of_queued hk hq.1 hq.2
      exact congrArg Host.Outcome.next (by rw [hbegin]; exact Option.some.inj hf)
    next =>
      obtain ⟨hd, rfl⟩ := due_eq_some.mp hf
      have hbegin := State.beginDispatch_of_dispatching hk hd
      exact congrArg Host.Outcome.next (by rw [hbegin])
  case h_2 kid =>
    obtain ⟨k, hk, hf⟩ := Option.bind_eq_some_iff.mp hf
    obtain ⟨⟨hs, hg, hp, ha, hfar⟩, hf⟩ := Option.ite_none_right_eq_some.mp hf
    have hd : PassDue s k := ⟨hs, hg, hp, ha, hfar⟩
    have hpass : (s.residencyPass kid).settle = t := by
      split at hf
      next hp => rw [State.residencyPass_done hk hd hp]; exact Option.some.inj hf
      next hp => rw [State.residencyPass_hold hk hd hp]; exact Option.some.inj hf
      next hp => rw [State.residencyPass_far hk hd hp]; exact Option.some.inj hf
      next hp => rw [State.residencyPass_refused hk hd hp]; exact Option.some.inj hf
      next hp => rw [State.residencyPass_prefault hk hd hp]; exact Option.some.inj hf
    exact congrArg Host.Outcome.next hpass
  case h_3 kid => exact execTuftPlacement_of_due hf
  case h_4 tid => exact execTuftComplete_of_due hf
  case h_5 kid =>
    obtain ⟨k, hk, hf⟩ := Option.bind_eq_some_iff.mp hf
    obtain ⟨⟨he, hr, ha, hs, hw⟩, rfl⟩ := due_eq_some.mp hf
    exact execCompletionSignal_of_due hk he hr ha hs hw
  case h_6 tid =>
    obtain ⟨x, hx, hf⟩ := Option.bind_eq_some_iff.mp hf
    obtain ⟨k, hk, hf⟩ := Option.bind_eq_some_iff.mp hf
    obtain ⟨⟨hr, hp, hm⟩, rfl⟩ := due_eq_some.mp hf
    exact execRunmaxExpiry_of_due hx hk hr hp hm
  case h_7 tid =>
    obtain ⟨x, hx, hf⟩ := Option.bind_eq_some_iff.mp hf
    obtain ⟨k, hk, hf⟩ := Option.bind_eq_some_iff.mp hf
    simp only at hf
    split at hf
    next v hv =>
      obtain ⟨⟨he, hl, he', hc, hs⟩, rfl⟩ := due_eq_some.mp hf
      exact execTuftSuspend_of_due hx hk hv he hl he' hc hs
    next => cases hf
  case h_8 tid =>
    obtain ⟨x, hx, hf⟩ := Option.bind_eq_some_iff.mp hf
    simp only at hf
    split at hf
    next v hv =>
      obtain ⟨⟨hr, hp, hforced, hb, hc, hs⟩, rfl⟩ := due_eq_some.mp hf
      exact execForcedSuspension_of_due hx hr hp hforced hb hv hc hs
    next => cases hf
  case h_9 tid =>
    obtain ⟨x, hx, hf⟩ := Option.bind_eq_some_iff.mp hf
    obtain ⟨k, hk, hf⟩ := Option.bind_eq_some_iff.mp hf
    obtain ⟨image, hi, hf⟩ := Option.bind_eq_some_iff.mp hf
    obtain ⟨⟨hr, hp⟩, hf⟩ := Option.ite_none_right_eq_some.mp hf
    obtain ⟨core, hc, rfl⟩ := Option.map_eq_some_iff.mp hf
    exact execTuftReload_of_due hx hk hi hr hp hc
  case h_10 tid =>
    obtain ⟨x, hx, hf⟩ := Option.bind_eq_some_iff.mp hf
    obtain ⟨⟨ha, hb, hc⟩, rfl⟩ := due_eq_some.mp hf
    exact execTuftAbort_of_due hx ha hb hc

end

/-! PROOFS. The step runs the fetched instruction (R83, R86): a sheaf whose lease's window has its 1,024 memory instructions (R242). -/
section
namespace Sys2Proof.Machine

/-- A sheaf whose lease's window has its 1,024 memory instructions and has not ended yet. -/
def windowSheaf : Sheaf := { probeSheaf with lease := { probeSheaf.lease with memInstrs := 1024 } }

/-- The machine that fetches a NOP next, in the issue slot of that sheaf. -/
def windowState : State := (State.reset.withFetchWord 32 0x73C00000).setSheaf 0 windowSheaf

/-- That machine, its settled turn taken and sheaf 0 charged for the issue slot. -/
def windowCharged : State := ({ windowState with pinned := none } : State).chargeSlot 0 0 0

/-- The memory instructions in the window of sheaf 0, in the state that an outcome goes on to. -/
def windowCount (o : Host.Outcome State Fault Refusal) : Option Nat :=
  match o with
  | .next t => (t.sheaf? 0).map (fun sh => sh.lease.memInstrs)
  | _ => none

/-- The step ends the window before the sheaf issues (R242). -/
theorem step_endsWindow : windowCount (step windowState) = some 0 := rfl

/-- The NOP in the issue slot of the charged sheaf leaves the window open. -/
theorem nop_leavesWindow : ∃ sid chosen sh c s2,
    ({ windowState with pinned := none } : State).chosen? 0 0 = some (sid, chosen) ∧
    ({ windowState with pinned := none } : State).chargeSlot 0 0 sid = windowCharged ∧ windowCharged.sheaf? sid = some sh ∧ sh.choose sid = some c ∧
    (windowCharged.setSheaf sid c.sheaf).fetchWord c.sheaf c.slot.addr = (.word 0x73C00000#32, s2) ∧ decode 0x73C00000#32 = some (.nop 15 0) ∧
    windowCount (exec (.nop 15 0) { s2.sampleIssue 0 0 c.sheaf c.slot.addr with slot := { c.slot with word := 0x73C00000#32 } }) = some 1024 :=
  ⟨_, _, _, _, _, rfl, rfl, rfl, rfl, rfl, rfl, rfl⟩

end Sys2Proof.Machine

open Sys2Proof Sys2Proof.Machine

/-- Refutes O1: in `windowState` the step ends the window of the chosen sheaf's lease after it has charged the slot (R242); the state that the
statement gives to exec leaves the 1,024 memory instructions in the window. -/
theorem not_stepRunsTheFetchedInstruction : ¬ Obligations.StepRunsTheFetchedInstruction := by
  unfold Obligations.StepRunsTheFetchedInstruction
  rintro ⟨-, hfetch⟩
  obtain ⟨sid, chosen, sh, c, s2, hchosen, hcharge, hsheaf, hchoose, hword, hdecode, hcount⟩ := nop_leavesWindow
  have hstep := (hfetch windowState windowCharged s2 0 sid chosen sh c _ rfl rfl hchosen hcharge hsheaf hchoose hword).1 _ hdecode
  have hsame : some 0 = some 1024 := by rw [← step_endsWindow, hstep]; exact hcount
  exact absurd hsame (by decide)

end

/-! PROOFS. Results that return later (R60, R98, R118, R127): each division, square root and special function leaves its result in flight. -/
section
namespace Sys2Proof.Machine

/-! ## Tables of sheaf rules -/

/-- An instruction issues with a body that meets its sheaf rule, in a sheaf whose role may issue it. -/
structure SheafActs (i : Instr) (r : SheafRule) (f : Form) (op : Slot → Op) (s : State) (sh : Sheaf) : Prop where
  runs    : exec i s = issued f r.g r.n op s
  guard   : guardOk r.g.toNat r.n.toNat = true
  ximm    : takesXimm i = f.ximm
  la      : takesLa i = f.la
  role    : f.role.issues sh.role = true
  guarded : f.always = false
  meets   : Meets r f op s sh

/-- A table whose instructions issue with such bodies holds. -/
theorem rules_of_sheafActs {table : Instr → Option SheafRule}
    (h : ∀ (i : Instr) (r : SheafRule) (s : State) (sh : Sheaf), table i = some r → i.wf = true → Ready s sh → (r.float = true → sh.role ≠ .stage) →
      ∃ f op, SheafActs i r f op s sh) : Rules table := by
  intro i r s sh hrule hwf hr hpx hwide hrole
  obtain ⟨f, op, ha⟩ := h i r s sh hrule hwf hr hrole
  exact rule_of_meets ha.runs hr (prefixes_ok hpx hr.norep ha.ximm ha.la) ha.guard ha.role ha.guarded hwide ha.meets

/-! ## The late results (R118, R127) -/

/-- A UR instruction with a lookahead (R127), its function that of the table. -/
theorem lateU_acts {i : Instr} {readsD : Bool} {F F' : Word → Word → Word × Word} {g : BitVec 4} {n : BitVec 1} {d b : BitVec 8} {s : State} {sh : Sheaf}
    (hruns : exec i s = issued formUrLong g n (urLongOp readsD F d.toNat b.toNat) s) (hximm : takesXimm i = false) (hla : takesLa i = true)
    (hwf : (guardOk g.toNat n.toNat && okUR d.toNat b.toNat) = true) (hF : ∀ x y, F x y = F' x y) (hr : Ready s sh) :
    ∃ f op, SheafActs i (.lateU readsD g n d b F') f op s sh := by
  obtain ⟨hg, hok⟩ := Bool.and_eq_true_iff.mp hwf
  exact ⟨_, _, hruns, hg, hximm, hla, rfl, rfl, lateU_meets readsD hok hF hr⟩

/-- A special function (R118): its word gives the window, and a sheaf of any role but STAGE issues it (R31). -/
theorem lateV_acts {i : Instr} {F : Nat → Res} {g : BitVec 4} {n : BitVec 1} {d : BitVec 5} {w : BitVec 4} {b : BitVec 8} {s : State} {sh : Sheaf}
    (hruns : exec i s = issued formSpecial g n (vsOp F d.toNat w.toNat b.toNat) s) (hximm : takesXimm i = false) (hla : takesLa i = false)
    (hg : guardOk g.toNat n.toNat = true) (hrole : sh.role ≠ .stage) : ∃ f op, SheafActs i (.lateV g n d w b F) f op s sh :=
  ⟨_, _, hruns, hg, hximm, hla, bne_iff_ne.mpr hrole, rfl, vs_meets⟩

theorem lateRule_acts {i : Instr} {r : SheafRule} {s : State} {sh : Sheaf} (hrule : lateRule i = some r) (hwf : i.wf = true) (hr : Ready s sh)
    (hrole : r.float = true → sh.role ≠ .stage) : ∃ f op, SheafActs i r f op s sh := by
  unfold lateRule at hrule
  split at hrule <;> cases hrule
  case h_1 => exact lateU_acts rfl rfl rfl hwf (fun x y => congrArg (·, 0) (aluDivS_eq x y)) hr
  case h_2 => exact lateU_acts rfl rfl rfl hwf (fun x y => congrArg (·, 0) (aluDivU_eq x y)) hr
  case h_3 => exact lateU_acts rfl rfl rfl hwf (fun x y => congrArg (·, 0) (aluRemS_eq x y)) hr
  case h_4 => exact lateU_acts rfl rfl rfl hwf (fun x y => congrArg (·, 0) (aluRemU_eq x y)) hr
  case h_5 | h_6 => exact lateU_acts rfl rfl rfl hwf (fun _ _ => rfl) hr
  case h_7 | h_8 | h_9 | h_10 | h_11 | h_12 | h_13 | h_14 => exact lateV_acts rfl rfl rfl hwf (hrole rfl)

end Sys2Proof.Machine

open Sys2Proof Sys2Proof.Machine

/-- Settles O20: each instruction of the table issues with the body of its shape, a UR result or a special function, and that body meets its
rule. -/
theorem lateResults : Obligations.LateResults :=
  rules_of_sheafActs fun _ _ _ _ hrule hwf hr hrole => lateRule_acts hrule hwf hr hrole

end

/-! PROOFS. Sums of zero, NaN operands, minimum and maximum (R64, R65), for every layout where its fields do not matter. -/
section
namespace Sys2Proof.Machine

/-! ## What a datum is worth (R61) -/

/-- Whether bits carry the sign. -/
def Fmt.negative (f : Fmt) (bits : Nat) : Bool := bits / f.signBit % 2 == 1

/-- The magnitude that bits below the sign give a finite datum, counted in the layout's least subnormal. -/
def Fmt.units (f : Fmt) (mag : Nat) : Nat :=
  if mag / 2 ^ f.fbits = 0 then mag % 2 ^ f.fbits else (2 ^ f.fbits + mag % 2 ^ f.fbits) * 2 ^ (mag / 2 ^ f.fbits - 1)

/-- The least subnormal of a layout. -/
def Fmt.unit (f : Fmt) : Rat := 2 ^ (1 - (f.bias : Int) - f.fbits)

/-- Finite bits decode to their sign and the number of their units. -/
theorem decode_fin {f : Fmt} {bits m : Nat} {n : Bool} {e : Int} (h : f.decode bits = .fin n m e) :
    n = f.negative bits ∧ (m : Rat) * 2 ^ e = f.units (bits % f.signBit) * f.unit := by
  have h2 : (2 : Rat) ≠ 0 := two_ne_zero
  unfold Fmt.decode at h
  dsimp only at h
  split at h
  · split at h <;> cases h
  split at h
  · cases h
  split at h
  case isTrue hex =>
    cases h
    exact ⟨rfl, by rw [Fmt.units, if_pos (eq_of_beq hex), Fmt.unit]⟩
  case isFalse hex =>
    have hpos : bits % f.signBit / 2 ^ f.fbits ≠ 0 := fun h0 => hex (beq_iff_eq.mpr h0)
    cases h
    refine ⟨rfl, ?_⟩
    obtain ⟨k, hk⟩ := Nat.exists_eq_succ_of_ne_zero hpos
    rw [Fmt.units, if_neg hpos, Fmt.unit, hk, Nat.cast_mul, mul_assoc, Nat.cast_pow 2, Nat.cast_ofNat, ← zpow_natCast, ← zpow_add₀ h2]
    congr 2
    omega

/-- The units of a magnitude stay below those of the next exponent. -/
theorem units_lt (f : Fmt) (mag : Nat) : f.units mag < 2 ^ f.fbits * 2 ^ (mag / 2 ^ f.fbits) := by
  have hfr : mag % 2 ^ f.fbits < 2 ^ f.fbits := Nat.mod_lt _ (by positivity)
  unfold Fmt.units
  split
  case isTrue h => simpa [h] using hfr
  case isFalse h =>
    obtain ⟨k, hk⟩ := Nat.exists_eq_succ_of_ne_zero h
    rw [hk, Nat.succ_sub_one, pow_succ', ← mul_assoc]
    exact Nat.mul_lt_mul_of_pos_right (by omega) (by positivity)

/-- More magnitude bits, more units: first by the exponent, then by the fraction. -/
theorem units_mono (f : Fmt) : Monotone f.units := by
  intro x y hxy
  rcases (Nat.div_le_div_right (c := 2 ^ f.fbits) hxy).lt_or_eq with hex | hex
  · calc f.units x ≤ 2 ^ f.fbits * 2 ^ (x / 2 ^ f.fbits) := (units_lt f x).le
      _ ≤ (2 ^ f.fbits + y % 2 ^ f.fbits) * 2 ^ (y / 2 ^ f.fbits - 1) :=
        Nat.mul_le_mul (Nat.le_add_right ..) (Nat.pow_le_pow_right two_pos (Nat.le_sub_one_of_lt hex))
      _ = f.units y := (if_neg (Nat.ne_zero_of_lt hex)).symm
  · have hfr : x % 2 ^ f.fbits ≤ y % 2 ^ f.fbits := by
      have hx := Nat.div_add_mod x (2 ^ f.fbits)
      have hy := Nat.div_add_mod y (2 ^ f.fbits)
      rw [hex] at hx
      omega
    unfold Fmt.units
    rw [hex]
    split
    · exact hfr
    · exact Nat.mul_le_mul_right _ (Nat.add_le_add_left hfr _)

/-! ## Sums and products (R64) -/

/-- A magnitude as a multiple of a power of two that is not above its own. -/
theorem magnitude_scaled (m : Nat) {e k : Int} (h : k ≤ e) : (m : Rat) * 2 ^ e = (m * 2 ^ (e - k).toNat : Nat) * 2 ^ k := by
  have h2 : (2 : Rat) ≠ 0 := two_ne_zero
  rw [Nat.cast_mul, Nat.cast_pow, Nat.cast_ofNat, mul_assoc, ← zpow_natCast, ← zpow_add₀ h2]
  congr 2
  omega

/-- Equal magnitudes of opposite sign sum to zero exactly. -/
theorem exactSum_opposite (n : Bool) {m m' : Nat} {e e' : Int} (h : (m : Rat) * 2 ^ e = (m' : Rat) * 2 ^ e') :
    (exactSum n m e (!n) m' e').1 = 0 := by
  have hk : (2 : Rat) ^ min e e' ≠ 0 := zpow_ne_zero _ two_ne_zero
  rw [magnitude_scaled m (min_le_left e e'), magnitude_scaled m' (min_le_right e e')] at h
  have hsame : m * 2 ^ (e - min e e').toNat = m' * 2 ^ (e' - min e e').toNat := by exact_mod_cast mul_right_cancel₀ hk h
  unfold exactSum
  simp only [hsame]
  cases n <;> simp

theorem add_opposite {f : Fmt} {a b m m' : Nat} {n : Bool} {e e' : Int} (ha : f.decode a = .fin n m e) (hb : f.decode b = .fin (!n) m' e')
    (h : (m : Rat) * 2 ^ e = (m' : Rat) * 2 ^ e') : f.add a b = (0, 0) := by
  simp [Fmt.add, ha, hb, Fmt.addNum, exactSum_opposite n h, Fmt.signed]

theorem isNan_iff {x : Num} : x.isNan = true ↔ x = .nan := by
  cases x <;> simp [Num.isNan]

theorem addNum_nan {f : Fmt} {x y : Num} (h : x = .nan ∨ y = .nan) : f.addNum x y = f.quiet := by
  rcases h with rfl | rfl
  · rfl
  · cases x <;> rfl

theorem mulNum_nan {x y : Num} (h : x = .nan ∨ y = .nan) : mulNum x y = some .nan := by
  rcases h with rfl | rfl
  · rfl
  · cases x <;> rfl

theorem add_mul_nan {f : Fmt} {a b : Nat} (h : (f.decode a).isNan = true ∨ (f.decode b).isNan = true) :
    f.add a b = (f.nanBits, 0) ∧ f.mul a b = (f.nanBits, 0) := by
  rw [isNan_iff, isNan_iff] at h
  exact ⟨addNum_nan h, by rw [Fmt.mul, mulNum_nan h]; rfl⟩

/-! ## Minimum and maximum (R65) -/

theorem minMax_one_nan {f : Fmt} {a b : Nat} (wantMax : Bool) (ha : (f.decode a).isNan = true) (hb : (f.decode b).isNan = false) :
    f.minMax wantMax a b = (b, 0) ∧ f.minMax wantMax b a = (b, 0) := by
  constructor <;> simp only [Fmt.minMax, ha, hb]

theorem minMax_both_nan {f : Fmt} {a b : Nat} (wantMax : Bool) (ha : (f.decode a).isNan = true) (hb : (f.decode b).isNan = true) :
    f.minMax wantMax a b = (f.nanBits, 0) := by
  simp only [Fmt.minMax, ha, hb, Fmt.quiet]

theorem minMax_numbers {f : Fmt} {a b : Nat} (wantMax : Bool) (ha : (f.decode a).isNan = false) (hb : (f.decode b).isNan = false) :
    f.minMax wantMax a b =
      (if wantMax then (if f.orderKey a < f.orderKey b then b else a) else if f.orderKey b < f.orderKey a then b else a, 0) := by
  cases wantMax <;> simp only [Fmt.minMax, ha, hb] <;> rfl

theorem orderKey_eq (f : Fmt) (bits : Nat) :
    f.orderKey bits = if f.negative bits then -((bits % f.signBit : Nat) : Int) - 1 else (bits % f.signBit : Nat) := rfl

/-- Bits of a layout are told apart by their key. -/
theorem orderKey_injective {f : Fmt} {a b : Nat} (ha : a < 2 * f.signBit) (hb : b < 2 * f.signBit) (h : f.orderKey a = f.orderKey b) : a = b := by
  have hda : a / f.signBit < 2 := Nat.div_lt_of_lt_mul (by rwa [mul_comm])
  have hdb : b / f.signBit < 2 := Nat.div_lt_of_lt_mul (by rwa [mul_comm])
  have hsign : a / f.signBit = b / f.signBit ∧ a % f.signBit = b % f.signBit := by
    simp only [orderKey_eq, Fmt.negative, Nat.mod_eq_of_lt hda, Nat.mod_eq_of_lt hdb, beq_iff_eq] at h
    generalize a / f.signBit = sa at *
    generalize b / f.signBit = sb at *
    split at h <;> split at h <;> omega
  rw [← Nat.div_add_mod a f.signBit, ← Nat.div_add_mod b f.signBit, hsign.1, hsign.2]

theorem minMax_comm {f : Fmt} {a b : Nat} (wantMax : Bool) (ha : a < 2 * f.signBit) (hb : b < 2 * f.signBit) (hna : (f.decode a).isNan = false)
    (hnb : (f.decode b).isNan = false) : f.minMax wantMax a b = f.minMax wantMax b a := by
  rw [minMax_numbers _ hna hnb, minMax_numbers _ hnb hna]
  rcases lt_trichotomy (f.orderKey a) (f.orderKey b) with h | h | h
  · simp [h, h.not_gt]
  · rw [orderKey_injective ha hb h]
  · simp [h, h.not_gt]

/-- The value of a finite datum. -/
def finiteValue (n : Bool) (m : Nat) (e : Int) : Rat := if n then -((m : Rat) * 2 ^ e) else (m : Rat) * 2 ^ e

/-- Finite data in the order of their values have keys in that order. -/
theorem orderKey_lt {f : Fmt} {a b m m' : Nat} {n n' : Bool} {e e' : Int} (ha : f.decode a = .fin n m e) (hb : f.decode b = .fin n' m' e')
    (h : finiteValue n m e < finiteValue n' m' e') : f.orderKey a < f.orderKey b := by
  obtain ⟨hna, hva⟩ := decode_fin ha
  obtain ⟨hnb, hvb⟩ := decode_fin hb
  have hunit : 0 < f.unit := zpow_pos two_pos _
  have hmag : ∀ x y, (f.units x : Rat) * f.unit < f.units y * f.unit → x < y := fun x y hxy =>
    (units_mono f).reflect_lt (by exact_mod_cast lt_of_mul_lt_mul_right hxy hunit.le)
  have hnonneg : ∀ x, 0 ≤ (f.units x : Rat) * f.unit := fun x => mul_nonneg (Nat.cast_nonneg _) hunit.le
  rw [finiteValue, finiteValue, hva, hvb] at h
  rw [orderKey_eq, orderKey_eq, ← hna, ← hnb]
  cases n <;> cases n' <;> simp only [Bool.false_eq_true, if_true, if_false] at h ⊢
  case false.false => exact Int.ofNat_lt.mpr (hmag _ _ h)
  case false.true => linarith [hnonneg (a % f.signBit), hnonneg (b % f.signBit)]
  case true.false => omega
  case true.true =>
    have := hmag _ _ (neg_lt_neg_iff.mp h)
    omega

theorem minMax_ordered {f : Fmt} {a b m m' : Nat} {n n' : Bool} {e e' : Int} (ha : f.decode a = .fin n m e) (hb : f.decode b = .fin n' m' e')
    (h : finiteValue n m e < finiteValue n' m' e') : f.minMax false a b = (a, 0) ∧ f.minMax true a b = (b, 0) := by
  have hkey := orderKey_lt ha hb h
  have hna : (f.decode a).isNan = false := by rw [ha]; rfl
  have hnb : (f.decode b).isNan = false := by rw [hb]; rfl
  rw [minMax_numbers _ hna hnb, minMax_numbers _ hna hnb]
  simp [hkey, hkey.not_gt]

/-! ## Zeros (R64, R65) -/

/-- The zeros of FP32 and BF16: -0 plus -0, and the extremes of +0 and -0. -/
theorem signed_zeros : ∀ f ∈ [fp32, bf16], f.add f.signBit f.signBit = (f.signBit, 0) ∧ f.minMax false 0 f.signBit = (f.signBit, 0) ∧
    f.minMax true 0 f.signBit = (0, 0) := by
  decide

end Sys2Proof.Machine

open Sys2Proof Sys2Proof.Machine

/-- Settles O59: the exact sum of opposites is 0 and its sign is not that of both; NaN data are told first; the key that orders data follows
their values and tells all bits apart. -/
theorem zerosAndNansInSumsAndExtremes : Obligations.ZerosAndNansInSumsAndExtremes := by
  unfold Obligations.ZerosAndNansInSumsAndExtremes
  intro f hf a b ha hb
  obtain ⟨hsum, hmin, hmax⟩ := signed_zeros f hf
  exact ⟨fun _ _ _ _ _ => add_opposite, hsum, add_mul_nan, minMax_one_nan, minMax_both_nan, fun wantMax => minMax_comm wantMax ha hb,
    fun _ _ _ _ _ _ => minMax_ordered, hmin, hmax⟩

end

/-! PROOFS. What the decoder and the encoder do to a word, and which instructions and happenings go on. -/
section
namespace Sys2Proof.Machine

/-- The outcome that goes on to a next state. -/
def GoesOn (o : Host.Outcome State Fault Refusal) : Prop := ∃ t, o = .next t

theorem goesOn_next (t : State) : GoesOn (.next t) := ⟨t, rfl⟩

theorem goesOn_ite {c : Prop} [Decidable c] {o p : Host.Outcome State Fault Refusal} (ho : GoesOn o) (hp : GoesOn p) : GoesOn (if c then o else p) := by
  split <;> assumption

theorem execRunmaxExpiry_goesOn (tid : Nat) (s : State) : GoesOn (execRunmaxExpiry tid s) := by
  unfold execRunmaxExpiry
  split
  · exact goesOn_next _
  · exact goesOn_ite (goesOn_next _) (goesOn_next _)

theorem execLoadReturn_goesOn (sid pid : Nat) (lanes : BitVec 32) (s : State) : GoesOn (execLoadReturn sid pid lanes s) := by
  unfold execLoadReturn
  split
  · exact goesOn_next _
  · split <;> exact goesOn_next _

theorem execLongLatencyResult_goesOn (sid pid : Nat) (s : State) : GoesOn (execLongLatencyResult sid pid s) := by
  unfold execLongLatencyResult
  split
  · exact goesOn_next _
  · split <;> exact goesOn_next _

theorem execUncorrectableError_goesOn (site : ErrorSite) (s : State) : GoesOn (execUncorrectableError site s) := by
  cases site with
  | tuft tid =>
    simp only [execUncorrectableError]
    split
    · exact goesOn_ite (goesOn_next _) (goesOn_next _)
    · exact goesOn_next _
  | _ => exact goesOn_next _

theorem execCpuTrayRegister_goesOn (source part ctx : Nat) (s : State) : GoesOn (execCpuTrayRegister source part ctx s) := by
  unfold execCpuTrayRegister
  split
  · exact goesOn_ite (goesOn_next _) (goesOn_next _)
  · exact goesOn_next _

theorem execGetMeasurements_goesOn (pkg index : Nat) (nonce : List (BitVec 8)) (s : State) : GoesOn (execGetMeasurements pkg index nonce s) := by
  unfold execGetMeasurements
  split
  · exact goesOn_next _
  · exact goesOn_ite (goesOn_next _) (goesOn_ite (goesOn_next _) (goesOn_next _))

theorem execStarvationLimit_goesOn (core quad : Nat) (s : State) : GoesOn (execStarvationLimit core quad s) := by
  unfold execStarvationLimit
  split <;> exact goesOn_next _

theorem execAgeBoundExpiry_goesOn (sid : Nat) (s : State) : GoesOn (execAgeBoundExpiry sid s) := by
  unfold execAgeBoundExpiry
  split
  · exact goesOn_next _
  · exact goesOn_ite (goesOn_next _) (goesOn_next _)

theorem issued_goesOn (f : Form) (g : BitVec 4) (n : BitVec 1) (op : Slot → Op) (s : State) : GoesOn (issued f g n op s) := ⟨_, rfl⟩

/-- R302: a service core's access goes on, or stops with the address that nothing is mapped at (log entry 52). -/
theorem execServiceCoreAccess_goesOn (acc : ServiceAccess) (s : State) :
    GoesOn (execServiceCoreAccess acc s) ∨ execServiceCoreAccess acc s = .fault (.noSuchAddress acc.paddr) := by
  unfold execServiceCoreAccess
  split
  · exact .inl (goesOn_next _)
  · by_cases h : 2 ^ 40 ≤ acc.paddr % 2 ^ 42 ∧ (acc.paddr % 2 ^ 42 < 0x30000000000 ∨ 0x30800000000 ≤ acc.paddr % 2 ^ 42)
    · exact .inr (if_pos h)
    · simp only [if_neg h]
      exact .inl (goesOn_ite (goesOn_next _) (goesOn_ite (goesOn_next _) (goesOn_next _)))

/-- Every instruction and happening but a service core's access goes on. -/
theorem exec_goesOn (i : Instr) (s : State) (hi : ∀ acc, i ≠ .serviceCoreAccess acc) : GoesOn (exec i s) := by
  cases i with
  | serviceCoreAccess acc => exact absurd rfl (hi acc)
  | runmaxExpiry tid => exact execRunmaxExpiry_goesOn tid s
  | loadReturn sid pid lanes => exact execLoadReturn_goesOn sid pid lanes s
  | longLatencyResult sid pid => exact execLongLatencyResult_goesOn sid pid s
  | uncorrectableError site => exact execUncorrectableError_goesOn site s
  | cpuTrayRegister source part ctx => exact execCpuTrayRegister_goesOn source part ctx s
  | getMeasurements package index nonce => exact execGetMeasurements_goesOn package index nonce s
  | starvationLimit core quad => exact execStarvationLimit_goesOn core quad s
  | ageBoundExpiry sid => exact execAgeBoundExpiry_goesOn sid s
  | unassignedEncoding w => exact goesOn_ite (goesOn_next _) (issued_goesOn _ _ _ _ _)
  | greedyLimit | rekey | waitReevaluate | getCertificate | challenge | firmwareStage | activationCommit | activationRollback =>
    exact goesOn_ite (goesOn_next _) (goesOn_next _)
  | mgmtOtherMessage | activationStart => exact goesOn_ite (goesOn_next _) (goesOn_ite (goesOn_next _) (goesOn_next _))
  | _ => exact goesOn_next _

end Sys2Proof.Machine
open Sys2Proof Sys2Proof.Machine

/-- Settles O3: the decoder is evaluated on each of the listed words. -/
theorem listedWordsDecode : Obligations.ListedWordsDecode :=
  ⟨rfl, rfl, rfl, rfl, rfl, rfl, rfl, rfl, rfl, rfl, rfl, rfl, rfl, rfl, rfl, rfl, rfl, rfl, rfl⟩

/-- Settles O9: but for a service core's access, each arm of `exec` answers a next state. -/
theorem everyInstructionGoesOn : Obligations.EveryInstructionGoesOn := by
  intro i s
  by_cases hi : ∃ acc, i = .serviceCoreAccess acc
  · obtain ⟨acc, rfl⟩ := hi
    exact (execServiceCoreAccess_goesOn acc s).imp_right fun h => ⟨acc, rfl, h⟩
  · exact .inl (exec_goesOn i s fun acc h => hi ⟨acc, h⟩)
end

/-!
PROOFS. The decoder and the encoder undo each other. Every instruction has a layout: the fields of its operands, each its lowest bit and its
width. Its word is a constant C, the word with every operand 0, and each operand at its place. The proofs are by induction over the fields; what
is left for each instruction is that the encoder adds these fields up and that the decoder looks at the constant's bits only.
-/
section
namespace Sys2Proof.Machine

/-! ## Layouts -/

/-- The value x at bit lo. -/
def atBit (x : Nat) : Nat → Nat
  | 0 => x
  | lo + 1 => x * 2 ^ (lo + 1)

/-- What builds an instruction from operands in the fields of a layout. -/
@[reducible] def Build : List (Nat × Nat) → Type
  | [] => Instr
  | (_, k) :: F => BitVec k → Build F

/-- The instruction with the operands that stand in the fields of w. -/
def readFields (w : Nat) : (F : List (Nat × Nat)) → Build F → Instr
  | [], i => i
  | (lo, k) :: F, mk => readFields w F (mk (bits w lo k))

/-- C with the fields of w added, each at its place. -/
def addFields (w : Nat) : List (Nat × Nat) → Nat → Nat
  | [], C => C
  | (lo, k) :: F, C => addFields w F (C + atBit (bits w lo k).toNat lo)

/-- C with any operands added, each at its place, decodes to the instruction with these operands. -/
def Decodes : (F : List (Nat × Nat)) → Nat → Build F → Prop
  | [], C, i => decodeNat C = some i
  | (lo, k) :: F, C, mk => ∀ x : BitVec k, Decodes F (C + atBit x.toNat lo) (mk x)

/-- Bit j is in no field. -/
def outside (F : List (Nat × Nat)) (j : Nat) : Bool := F.all fun f => decide (j < f.1 ∨ f.1 + f.2 ≤ j)

/-- The fields do not meet, and C is 0 in them. -/
def fieldsOk (C : Nat) : List (Nat × Nat) → Bool
  | [] => true
  | (lo, k) :: F => decide (C / 2 ^ lo % 2 ^ k = 0) && (List.range k).all (fun j => outside F (lo + j)) && fieldsOk C F

/-- Two words are the same outside the fields. -/
def SameCode (F : List (Nat × Nat)) (C w : Nat) : Prop := ∀ j, outside F j = true → w.testBit j = C.testBit j

theorem atBit_eq (x lo : Nat) : atBit x lo = x * 2 ^ lo := by cases lo <;> simp [atBit]

theorem outside_cons {lo k j : Nat} {F : List (Nat × Nat)} : outside ((lo, k) :: F) j = true ↔ (j < lo ∨ lo + k ≤ j) ∧ outside F j = true := by
  simp [outside]

theorem testBit_field (w lo k j : Nat) : (w / 2 ^ lo % 2 ^ k).testBit j = (decide (j < k) && w.testBit (lo + j)) := by
  rw [Nat.testBit_mod_two_pow, Nat.testBit_div_two_pow, Nat.add_comm]

theorem field_eq_iff {w v lo k : Nat} : w / 2 ^ lo % 2 ^ k = v / 2 ^ lo % 2 ^ k ↔ ∀ j, j < k → w.testBit (lo + j) = v.testBit (lo + j) := by
  constructor
  · intro h j hj
    have hb := congrArg (Nat.testBit · j) h
    simpa only [testBit_field, hj, decide_true, Bool.true_and] using hb
  · intro h
    refine Nat.eq_of_testBit_eq fun j => ?_
    rw [testBit_field, testBit_field]
    by_cases hj : j < k
    · rw [h j hj]
    · simp only [hj, decide_false, Bool.false_and]

/-- A value put into a field that holds 0 stands there, and every other bit stays. -/
theorem testBit_add_atBit {C lo k x : Nat} (hx : x < 2 ^ k) (h0 : C / 2 ^ lo % 2 ^ k = 0) (j : Nat) :
    (C + atBit x lo).testBit j = if j < lo ∨ lo + k ≤ j then C.testBit j else x.testBit (j - lo) := by
  have hC : C = 2 ^ lo * (2 ^ k * (C / 2 ^ (lo + k))) + C % 2 ^ lo := by
    have hq := Nat.div_add_mod (C / 2 ^ lo) (2 ^ k)
    rw [h0, Nat.add_zero, Nat.div_div_eq_div_mul, ← Nat.pow_add] at hq
    rw [hq, Nat.div_add_mod]
  have hsum : C + atBit x lo = 2 ^ lo * (2 ^ k * (C / 2 ^ (lo + k)) + x) + C % 2 ^ lo := by
    rw [atBit_eq]
    conv_lhs => rw [hC]
    ring
  have hlow := Nat.mod_lt C (Nat.two_pow_pos lo)
  rw [hsum, Nat.testBit_two_pow_mul_add _ hlow, Nat.testBit_two_pow_mul_add _ hx]
  conv_rhs => rw [hC, Nat.testBit_two_pow_mul_add _ hlow, Nat.testBit_two_pow_mul]
  grind

theorem sameCode_nil {C w : Nat} (h : SameCode [] C w) : w = C := Nat.eq_of_testBit_eq fun j => h j rfl

theorem SameCode.code {F : List (Nat × Nat)} {C w : Nat} (h : SameCode F C w) (lo k m : Nat) (hm : 2 ^ k = m)
    (hk : (List.range k).all (fun j => outside F (lo + j)) = true) : w / 2 ^ lo % m = C / 2 ^ lo % m :=
  hm ▸ field_eq_iff.mpr fun j hj => h _ (List.all_eq_true.mp hk j (List.mem_range.mpr hj))

theorem SameCode.major {F : List (Nat × Nat)} {C w : Nat} (h : SameCode F C w) (hk : (List.range 6).all (fun j => outside F (26 + j)) = true) :
    w / 2 ^ 26 % 64 = C / 2 ^ 26 % 64 :=
  h.code 26 6 64 rfl hk

theorem SameCode.fixed {F : List (Nat × Nat)} {C w : Nat} (h : SameCode F C w) (lo k : Nat)
    (hk : (List.range k).all (fun j => outside F (lo + j)) = true) : fixedField w lo k = fixedField C lo k := by
  funext v
  rw [fixedField, h.code lo k _ rfl hk, fixedField]

theorem testBit_bits (w lo k j : Nat) : (bits w lo k).toNat.testBit j = (decide (j < k) && w.testBit (lo + j)) := by
  rw [bits, BitVec.toNat_ofNat, testBit_field]

theorem bits_eq_of_testBit {w lo k : Nat} {x : BitVec k} (h : ∀ j, j < k → w.testBit (lo + j) = x.toNat.testBit j) : bits w lo k = x := by
  refine BitVec.eq_of_toNat_eq (Nat.eq_of_testBit_eq fun j => ?_)
  rw [testBit_bits]
  by_cases hj : j < k
  · simp only [hj, decide_true, Bool.true_and, h]
  · simp only [hj, decide_false, Bool.false_and, Nat.testBit_lt_two_pow (x.isLt.trans_le (Nat.pow_le_pow_right Nat.two_pos (not_lt.mp hj)))]

/-- Only what stands in the fields matters to whether they hold 0. -/
theorem fieldsOk_congr {F : List (Nat × Nat)} {C D : Nat} (h : ∀ j, outside F j = false → D.testBit j = C.testBit j) (hok : fieldsOk C F = true) :
    fieldsOk D F = true := by
  induction F with
  | nil => rfl
  | cons f F ih =>
    obtain ⟨lo, k⟩ := f
    simp only [fieldsOk, Bool.and_eq_true, decide_eq_true_eq] at hok ⊢
    obtain ⟨⟨h0, hdis⟩, hF⟩ := hok
    refine ⟨⟨?_, hdis⟩, ih (fun j hj => h j ?_) hF⟩
    · rw [← h0, field_eq_iff]
      refine fun j hj => h _ ?_
      rw [Bool.eq_false_iff, Ne, outside_cons]
      omega
    · rw [Bool.eq_false_iff, Ne, outside_cons]
      simp [hj]

/-- Adding an operand in its field leaves the other fields as they are. -/
theorem fieldsOk_add {lo k C x : Nat} {F : List (Nat × Nat)} (hx : x < 2 ^ k) (hok : fieldsOk C ((lo, k) :: F) = true) :
    fieldsOk (C + atBit x lo) F = true := by
  simp only [fieldsOk, Bool.and_eq_true, decide_eq_true_eq, List.all_eq_true, List.mem_range] at hok
  obtain ⟨⟨h0, hdis⟩, hF⟩ := hok
  refine fieldsOk_congr (fun j hj => ?_) hF
  rw [testBit_add_atBit hx h0, if_pos]
  by_contra hin
  have := hdis (j - lo) (by omega)
  rw [show lo + (j - lo) = j by omega, hj] at this
  cases this

theorem fieldsOk_cons {lo k C : Nat} {F : List (Nat × Nat)} (hok : fieldsOk C ((lo, k) :: F) = true) :
    C / 2 ^ lo % 2 ^ k = 0 ∧ ∀ j, j < k → outside F (lo + j) = true := by
  simp only [fieldsOk, Bool.and_eq_true, decide_eq_true_eq, List.all_eq_true, List.mem_range] at hok
  exact hok.1

/-- Where the decoder reads an instruction from every word with its code, it gives the word of that instruction back. -/
theorem decodes_of_code (F : List (Nat × Nat)) {C : Nat} {mk : Build F} (hok : fieldsOk C F = true)
    (hD : ∀ w, SameCode F C w → decodeNat w = some (readFields w F mk)) : Decodes F C mk := by
  induction F generalizing C with
  | nil => exact hD C fun _ _ => rfl
  | cons f F ih =>
    obtain ⟨lo, k⟩ := f
    intro x
    obtain ⟨h0, hdis⟩ := fieldsOk_cons hok
    have hbit := testBit_add_atBit x.isLt h0
    refine ih (fieldsOk_add x.isLt hok) fun w hw => ?_
    have hx : bits w lo k = x := bits_eq_of_testBit fun j hj => by
      rw [hw _ (hdis j hj), hbit, if_neg (by omega), Nat.add_sub_cancel_left]
    have hsame : SameCode ((lo, k) :: F) C w := fun j hj => by
      obtain ⟨hin, hout⟩ := outside_cons.mp hj
      rw [hw j hout, hbit, if_pos hin]
    rw [hD w hsame, readFields, hx]

/-- A word is its code and its fields. -/
theorem addFields_eq (F : List (Nat × Nat)) {C w : Nat} (hok : fieldsOk C F = true) (hw : SameCode F C w) : addFields w F C = w := by
  induction F generalizing C with
  | nil => exact (sameCode_nil hw).symm
  | cons f F ih =>
    obtain ⟨lo, k⟩ := f
    obtain ⟨h0, -⟩ := fieldsOk_cons hok
    refine ih (fieldsOk_add (bits w lo k).isLt hok) fun j hj => ?_
    rw [testBit_add_atBit (bits w lo k).isLt h0, testBit_bits]
    split
    next hin => exact hw j (outside_cons.mpr ⟨hin, hj⟩)
    next hin => rw [decide_eq_true (by omega), Bool.true_and, show lo + (j - lo) = j by omega]

/-- The codes of w are those of C. -/
def CodesAre (C w : Nat) : List (Nat × Nat) → Prop
  | [] => True
  | (lo, k) :: G => w / 2 ^ lo % 2 ^ k = C / 2 ^ lo % 2 ^ k ∧ CodesAre C w G

/-- Every bit of a word is in a field or in a code. -/
def covers (F G : List (Nat × Nat)) : Bool := (List.range 32).all fun j => outside F j != true || outside G j != true

theorem CodesAre.testBit {C w : Nat} {G : List (Nat × Nat)} (h : CodesAre C w G) {j : Nat} (hj : outside G j = false) :
    w.testBit j = C.testBit j := by
  induction G with
  | nil => cases hj
  | cons f G ih =>
    obtain ⟨lo, k⟩ := f
    by_cases hin : j < lo ∨ lo + k ≤ j
    · refine ih h.2 ?_
      rw [Bool.eq_false_iff, Ne, outside_cons] at hj
      simpa [hin] using hj
    · simpa [show lo + (j - lo) = j by omega] using field_eq_iff.mp h.1 (j - lo) (by omega)

theorem sameCode_of_codes {F G : List (Nat × Nat)} {C w : Nat} (hcov : covers F G = true) (hC : C < 2 ^ 32) (hw : w < 2 ^ 32) (h : CodesAre C w G) :
    SameCode F C w := by
  intro j hj
  by_cases hlt : j < 32
  · refine h.testBit ?_
    simpa [hj] using List.all_eq_true.mp hcov j (List.mem_range.mpr hlt)
  · have hpow : 2 ^ 32 ≤ 2 ^ j := Nat.pow_le_pow_right Nat.two_pos (not_lt.mp hlt)
    rw [Nat.testBit_lt_two_pow (hw.trans_le hpow), Nat.testBit_lt_two_pow (hC.trans_le hpow)]

/-- The encoder gives w for what a decoder answers, where it answers an instruction. -/
def Rereads (w : Nat) (o : Option Instr) : Prop := ∀ i, o = some i → encodeNat i = some w

theorem rereads_none (w : Nat) : Rereads w none := nofun

/-- An instruction of the layout F, read from a word with its codes G. -/
theorem rereads_some (F G : List (Nat × Nat)) {C w : Nat} {i : Instr} (hi : encodeNat i = some (addFields w F C)) (hw : w < 2 ^ 32)
    (hok : (fieldsOk C F && covers F G && decide (C < 2 ^ 32)) = true) (hG : CodesAre C w G) : Rereads w (some i) := by
  intro j hj
  cases hj
  simp only [Bool.and_eq_true, decide_eq_true_eq] at hok
  obtain ⟨⟨hF, hcov⟩, hC⟩ := hok
  rw [hi, addFields_eq F hF (sameCode_of_codes hcov hC hw hG)]

theorem rereads_fixed {w lo k v : Nat} {o p : Option Instr} (ho : w / 2 ^ lo % 2 ^ k = v → Rereads w o) (hp : Rereads w p) :
    Rereads w (if fixedField w lo k v then o else p) := by
  split
  next h => exact ho (eq_of_beq h)
  next => exact hp

theorem rereads_fixed_and {w lo k v lo' k' v' : Nat} {o p : Option Instr}
    (ho : w / 2 ^ lo % 2 ^ k = v → w / 2 ^ lo' % 2 ^ k' = v' → Rereads w o) (hp : Rereads w p) :
    Rereads w (if fixedField w lo k v && fixedField w lo' k' v' then o else p) := by
  split
  next h =>
    obtain ⟨h1, h2⟩ := Bool.and_eq_true_iff.mp h
    exact ho (eq_of_beq h1) (eq_of_beq h2)
  next => exact hp


/-! ## The instructions -/

/-- The word of an encoded instruction decodes to it. -/
theorem decodeNat_encodeNat (i : Instr) (w : Nat) (hi : encodeNat i = some w) : decodeNat w = some i := by
  cases i with
  | vadd | vsub | vsubr | vminS | vmaxS | vminU | vmaxU | vadifS =>
    cases hi
    exact decodes_of_code [(22, 4), (21, 1), (16, 5), (11, 5), (3, 8)] rfl
      (fun w h => by rw [decodeNat, h.major rfl, decodeLow, h.major rfl, decodeMaj01, h.code 0 3 8 rfl rfl]; rfl) _ _ _ _ _
  | vand | vor | vxor | vandn | vshl | vshrU | vshrS | vrotl =>
    cases hi
    exact decodes_of_code [(22, 4), (21, 1), (16, 5), (11, 5), (3, 8)] rfl
      (fun w h => by rw [decodeNat, h.major rfl, decodeLow, h.major rfl, decodeMaj02, h.code 0 3 8 rfl rfl]; rfl) _ _ _ _ _
  | vmul | vmulhS | vmulhU | vmad | vaddsS | vsubsS | vaddsU | vsubsU =>
    cases hi
    exact decodes_of_code [(22, 4), (21, 1), (16, 5), (11, 5), (3, 8)] rfl
      (fun w h => by rw [decodeNat, h.major rfl, decodeLow, h.major rfl, decodeMaj03, h.code 0 3 8 rfl rfl]; rfl) _ _ _ _ _
  | vpopc | vclz | vbrev | vmov =>
    cases hi
    exact decodes_of_code [(22, 4), (21, 1), (16, 5), (3, 8)] rfl
      (fun w h => by rw [decodeNat, h.major rfl, decodeLow, h.major rfl, decodeMaj04, h.code 0 3 8 rfl rfl, h.fixed 11 5 rfl]; rfl) _ _ _ _
  | vbfeU | vbfeS | vbfi | vpermb =>
    cases hi
    exact decodes_of_code [(22, 4), (21, 1), (16, 5), (11, 5), (3, 8)] rfl
      (fun w h => by rw [decodeNat, h.major rfl, decodeLow, h.major rfl, decodeMaj04, h.code 0 3 8 rfl rfl]; rfl) _ _ _ _ _
  | vfadd | vfsub | vfmul | vfma | vfnma | vfmin | vfmax | vfcpys =>
    cases hi
    exact decodes_of_code [(22, 4), (21, 1), (16, 5), (11, 5), (3, 8)] rfl
      (fun w h => by rw [decodeNat, h.major rfl, decodeLow, h.major rfl, decodeMaj05, h.code 0 3 8 rfl rfl]; rfl) _ _ _ _ _
  | vhadd2 | vhsub2 | vhmul2 | vhfma2 | vhmin2 | vhmax2 =>
    cases hi
    exact decodes_of_code [(22, 4), (21, 1), (16, 5), (11, 5), (3, 8)] rfl
      (fun w h => by rw [decodeNat, h.major rfl, decodeLow, h.major rfl, decodeMaj06, h.code 0 3 8 rfl rfl]; rfl) _ _ _ _ _
  | vcvtF32Si32 | vcvtF32Ui32 | vcvtSi32F32 | vcvtUi32F32 | vfrint =>
    cases hi
    exact decodes_of_code [(22, 4), (21, 1), (16, 5), (11, 2), (3, 8)] rfl
      (fun w h => by rw [decodeNat, h.major rfl, decodeLow, h.major rfl, decodeMaj07, h.code 0 3 8 rfl rfl, h.fixed 13 3 rfl]; rfl) _ _ _ _ _
  | vcvtF32Bf16 | vcvtF32E4m3 | vcvtF32E5m2 | vcvtBf16F32 | vcvtE4m3F32 | vcvtE5m2F32 =>
    cases hi
    exact decodes_of_code [(22, 4), (21, 1), (16, 5), (14, 2), (3, 8)] rfl
      (fun w h => by rw [decodeNat, h.major rfl, decodeLow, h.major rfl, decodeMaj07, h.code 0 3 8 rfl rfl, h.fixed 11 3 rfl]; rfl) _ _ _ _ _
  | vfclass | vfgetexp | vfscaleb =>
    cases hi
    exact decodes_of_code [(22, 4), (21, 1), (16, 5), (3, 8)] rfl
      (fun w h => by rw [decodeNat, h.major rfl, decodeLow, h.major rfl, decodeMaj07, h.code 0 3 8 rfl rfl, h.fixed 11 5 rfl]; rfl) _ _ _ _
  | vrcp | vrsq | vsqrt | vexp2 | vlog2 | vsinpi | vcospi | vtanh =>
    cases hi
    exact decodes_of_code [(22, 4), (21, 1), (16, 5), (12, 4), (3, 8)] rfl
      (fun w h => by rw [decodeNat, h.major rfl, decodeLow, h.major rfl, decodeMaj08, h.code 0 3 8 rfl rfl, h.fixed 11 1 rfl]; rfl) _ _ _ _ _
  | vcmpI =>
    cases hi
    exact decodes_of_code [(22, 4), (21, 1), (17, 4), (12, 5), (4, 8), (0, 4)] rfl
      (fun w h => by rw [decodeNat, h.major rfl, decodeLow, h.major rfl, decodeMaj09]; rfl) _ _ _ _ _ _
  | vcmpF =>
    cases hi
    exact decodes_of_code [(22, 4), (21, 1), (17, 4), (12, 5), (4, 8), (0, 4)] rfl
      (fun w h => by rw [decodeNat, h.major rfl, decodeLow, h.major rfl, decodeMaj0A]; rfl) _ _ _ _ _ _
  | pand | por | pxor | pandn =>
    cases hi
    exact decodes_of_code [(22, 4), (21, 1), (17, 4), (13, 4), (9, 4)] rfl
      (fun w h => by rw [decodeNat, h.major rfl, decodeLow, h.major rfl, decodeMaj0B, h.code 5 4 16 rfl rfl, h.fixed 0 5 rfl]; rfl) _ _ _ _ _
  | pnot | pmov =>
    cases hi
    exact decodes_of_code [(22, 4), (21, 1), (17, 4), (13, 4)] rfl
      (fun w h => by rw [decodeNat, h.major rfl, decodeLow, h.major rfl, decodeMaj0B, h.code 5 4 16 rfl rfl, h.fixed 9 4 rfl, h.fixed 0 5 rfl]; rfl) _ _ _ _
  | pset | pclr =>
    cases hi
    exact decodes_of_code [(22, 4), (21, 1), (17, 4)] rfl
      (fun w h => by rw [decodeNat, h.major rfl, decodeLow, h.major rfl, decodeMaj0B, h.code 5 4 16 rfl rfl, h.fixed 9 8 rfl, h.fixed 0 5 rfl]; rfl) _ _ _
  | vrank =>
    cases hi
    exact decodes_of_code [(22, 4), (21, 1), (13, 4), (0, 5)] rfl
      (fun w h => by rw [decodeNat, h.major rfl, decodeLow, h.major rfl, decodeMaj0B, h.code 5 4 16 rfl rfl, h.fixed 17 4 rfl, h.fixed 9 4 rfl]; rfl) _ _ _ _
  | shflIdx =>
    cases hi
    exact decodes_of_code [(22, 4), (21, 1), (16, 5), (11, 5), (3, 8), (0, 3)] rfl
      (fun w h => by rw [decodeNat, h.major rfl, decodeLow, h.major rfl, decodeMaj0C]; rfl) _ _ _ _ _ _
  | shflXor =>
    cases hi
    exact decodes_of_code [(22, 4), (21, 1), (16, 5), (11, 5), (3, 8), (0, 3)] rfl
      (fun w h => by rw [decodeNat, h.major rfl, decodeLow, h.major rfl, decodeMaj0D]; rfl) _ _ _ _ _ _
  | shflUp =>
    cases hi
    exact decodes_of_code [(22, 4), (21, 1), (16, 5), (11, 5), (3, 8), (0, 3)] rfl
      (fun w h => by rw [decodeNat, h.major rfl, decodeLow, h.major rfl, decodeMaj0E]; rfl) _ _ _ _ _ _
  | shflDn =>
    cases hi
    exact decodes_of_code [(22, 4), (21, 1), (16, 5), (11, 5), (3, 8), (0, 3)] rfl
      (fun w h => by rw [decodeNat, h.major rfl, decodeLow, h.major rfl, decodeMaj0F]; rfl) _ _ _ _ _ _
  | sadd | ssub | ssubr | smul | smulhS | smulhU | sdivS | sdivU | sremS | sremU | sand | sor | sxor | sandn | sshl | sshrU | sshrS | sminS | smaxS |
    sminU | smaxU | smov | spopc | sclz | sseq | ssne | ssltS | ssltU | saddW | ssubW | smovp | pmovs =>
    cases hi
    exact decodes_of_code [(22, 4), (21, 1), (13, 8), (5, 8)] rfl
      (fun w h => by rw [decodeNat, h.major rfl, decodeLow, h.major rfl, decodeMaj10, h.code 0 5 32 rfl rfl]; rfl) _ _ _ _
  | sfadd | sfsub | sfmul | sfdiv | sfsqrt | sfrcp | sfrsq | sfmin | sfmax | scvtF32Si32 | scvtF32Ui32 | scvtSi32F32 | scvtUi32F32 | scvtSi32F32Rn |
    sflt | sfle | sfeq =>
    cases hi
    exact decodes_of_code [(22, 4), (21, 1), (13, 8), (5, 8)] rfl
      (fun w h => by rw [decodeNat, h.major rfl, decodeLow, h.major rfl, decodeMaj11, h.code 0 5 32 rfl rfl]; rfl) _ _ _ _
  | smovi =>
    cases hi
    exact decodes_of_code [(22, 4), (21, 1), (13, 8), (0, 13)] rfl
      (fun w h => by rw [decodeNat, h.major rfl, decodeLow, h.major rfl, decodeMaj12]; rfl) _ _ _ _
  | saddi =>
    cases hi
    exact decodes_of_code [(22, 4), (21, 1), (13, 8), (0, 13)] rfl
      (fun w h => by rw [decodeNat, h.major rfl, decodeLow, h.major rfl, decodeMaj13]; rfl) _ _ _ _
  | srd | swr | agetb | agets | agetw =>
    cases hi
    exact decodes_of_code [(22, 4), (21, 1), (13, 8), (5, 8)] rfl
      (fun w h => by rw [decodeNat, h.major rfl, decodeLow, h.major rfl, decodeMaj14, h.code 0 5 32 rfl rfl]; rfl) _ _ _ _
  | lds | ldsW | ldsQ | ldsO | ldls =>
    cases hi
    exact decodes_of_code [(22, 4), (21, 1), (13, 8), (5, 8)] rfl
      (fun w h => by rw [decodeNat, h.major rfl, decodeLow, h.major rfl, decodeMaj15, h.code 0 5 32 rfl rfl]; rfl) _ _ _ _
  | ldp =>
    cases hi
    exact decodes_of_code [(22, 4), (21, 1), (13, 8), (8, 5), (5, 3)] rfl
      (fun w h => by rw [decodeNat, h.major rfl, decodeLow, h.major rfl, decodeMaj15, h.code 0 5 32 rfl rfl]; rfl) _ _ _ _ _
  | aadd | asub | amul | ashl =>
    cases hi
    exact decodes_of_code [(22, 4), (21, 1), (16, 5), (11, 5), (3, 8)] rfl
      (fun w h => by rw [decodeNat, h.major rfl, decodeLow, h.major rfl, decodeMaj16, h.code 0 3 8 rfl rfl]; rfl) _ _ _ _ _
  | aset | alane | amov =>
    cases hi
    exact decodes_of_code [(22, 4), (21, 1), (16, 5), (3, 8)] rfl
      (fun w h => by rw [decodeNat, h.major rfl, decodeLow, h.major rfl, decodeMaj16, h.code 0 3 8 rfl rfl, h.fixed 11 5 rfl]; rfl) _ _ _ _
  | aneg =>
    cases hi
    exact decodes_of_code [(22, 4), (21, 1), (16, 5), (11, 5)] rfl
      (fun w h => by rw [decodeNat, h.major rfl, decodeLow, h.major rfl, decodeMaj16, h.code 0 3 8 rfl rfl, h.fixed 3 8 rfl]; rfl) _ _ _ _
  | acmp =>
    cases hi
    exact decodes_of_code [(22, 4), (21, 1), (17, 4), (12, 5), (4, 8), (0, 4)] rfl
      (fun w h => by rw [decodeNat, h.major rfl, decodeLow, h.major rfl, decodeMaj17]; rfl) _ _ _ _ _ _
  | bra =>
    cases hi
    exact decodes_of_code [(22, 4), (21, 1), (0, 21)] rfl
      (fun w h => by rw [decodeNat, h.major rfl, decodeLow, h.major rfl, decodeMaj18]; rfl) _ _ _
  | brz =>
    cases hi
    exact decodes_of_code [(22, 4), (21, 1), (13, 8), (0, 13)] rfl
      (fun w h => by rw [decodeNat, h.major rfl, decodeLow, h.major rfl, decodeMaj19]; rfl) _ _ _ _
  | brnz =>
    cases hi
    exact decodes_of_code [(22, 4), (21, 1), (13, 8), (0, 13)] rfl
      (fun w h => by rw [decodeNat, h.major rfl, decodeLow, h.major rfl, decodeMaj1A]; rfl) _ _ _ _
  | call =>
    cases hi
    exact decodes_of_code [(22, 4), (21, 1), (19, 2), (0, 19)] rfl
      (fun w h => by rw [decodeNat, h.major rfl, decodeLow, h.major rfl, decodeMaj1B]; rfl) _ _ _ _
  | nop | exit | yield | rte =>
    cases hi
    exact decodes_of_code [(22, 4), (21, 1)] rfl
      (fun w h => by rw [decodeNat, h.major rfl, decodeLow, h.major rfl, decodeMaj1C, h.code 16 5 32 rfl rfl, h.fixed 0 16 rfl]; rfl) _ _
  | ret | callr =>
    cases hi
    exact decodes_of_code [(22, 4), (21, 1), (8, 8), (0, 2)] rfl
      (fun w h => by rw [decodeNat, h.major rfl, decodeLow, h.major rfl, decodeMaj1C, h.code 16 5 32 rfl rfl, h.fixed 2 6 rfl]; rfl) _ _ _ _
  | brx =>
    cases hi
    exact decodes_of_code [(22, 4), (21, 1), (8, 8)] rfl
      (fun w h => by rw [decodeNat, h.major rfl, decodeLow, h.major rfl, decodeMaj1C, h.code 16 5 32 rfl rfl, h.fixed 0 8 rfl]; rfl) _ _ _
  | loopx =>
    cases hi
    exact decodes_of_code [(22, 4), (21, 1), (0, 1)] rfl
      (fun w h => by rw [decodeNat, h.major rfl, decodeLow, h.major rfl, decodeMaj1C, h.code 16 5 32 rfl rfl, h.fixed 1 15 rfl]; rfl) _ _ _
  | wspill | wfill | bkpt | trap =>
    cases hi
    exact decodes_of_code [(22, 4), (21, 1), (0, 8)] rfl
      (fun w h => by rw [decodeNat, h.major rfl, decodeLow, h.major rfl, decodeMaj1C, h.code 16 5 32 rfl rfl, h.fixed 8 8 rfl]; rfl) _ _ _
  | svc =>
    cases hi
    exact decodes_of_code [(22, 4), (21, 1), (8, 8), (0, 8)] rfl
      (fun w h => by rw [decodeNat, h.major rfl, decodeLow, h.major rfl, decodeMaj1C, h.code 16 5 32 rfl rfl]; rfl) _ _ _ _
  | xpcr | xpcw =>
    cases hi
    exact decodes_of_code [(22, 4), (21, 1), (8, 8), (0, 5)] rfl
      (fun w h => by rw [decodeNat, h.major rfl, decodeLow, h.major rfl, decodeMaj1C, h.code 16 5 32 rfl rfl, h.fixed 5 3 rfl]; rfl) _ _ _ _
  | loop =>
    cases hi
    exact decodes_of_code [(22, 4), (21, 1), (20, 1), (12, 8), (0, 12)] rfl
      (fun w h => by rw [decodeNat, h.major rfl, decodeLow, h.major rfl, decodeMaj1D]; rfl) _ _ _ _ _
  | sfromv =>
    cases hi
    exact decodes_of_code [(22, 4), (21, 1), (13, 8), (8, 5), (3, 5)] rfl
      (fun w h => by rw [decodeNat, h.major rfl, decodeLow, h.major rfl, decodeMaj1E, h.code 0 3 8 rfl rfl]; rfl) _ _ _ _ _
  | sfirst | sunif | afromv =>
    cases hi
    exact decodes_of_code [(22, 4), (21, 1), (13, 8), (8, 5)] rfl
      (fun w h => by rw [decodeNat, h.major rfl, decodeLow, h.major rfl, decodeMaj1E, h.code 0 3 8 rfl rfl, h.fixed 3 5 rfl]; rfl) _ _ _ _
  | sredaddSi32 | sredaddF32 | sredminSi32 | sredmaxSi32 =>
    cases hi
    exact decodes_of_code [(22, 4), (21, 1), (13, 8), (8, 5), (7, 1), (3, 4)] rfl
      (fun w h => by rw [decodeNat, h.major rfl, decodeLow, h.major rfl, decodeMaj1E, h.code 0 3 8 rfl rfl]; rfl) _ _ _ _ _ _
  | ldg =>
    cases hi
    exact decodes_of_code [(22, 4), (21, 1), (16, 5), (8, 8), (5, 3), (4, 1), (0, 4)] rfl
      (fun w h => by rw [decodeNat, h.major rfl, decodeLow, h.major rfl, decodeMaj20]; rfl) _ _ _ _ _ _ _
  | ldgW =>
    cases hi
    exact decodes_of_code [(22, 4), (21, 1), (16, 5), (8, 8), (5, 3), (4, 1), (0, 4)] rfl
      (fun w h => by rw [decodeNat, h.major rfl, decodeLow, h.major rfl, decodeMaj21]; rfl) _ _ _ _ _ _ _
  | ldgQ =>
    cases hi
    exact decodes_of_code [(22, 4), (21, 1), (16, 5), (8, 8), (5, 3), (4, 1), (0, 4)] rfl
      (fun w h => by rw [decodeNat, h.major rfl, decodeLow, h.major rfl, decodeMaj22]; rfl) _ _ _ _ _ _ _
  | stg =>
    cases hi
    exact decodes_of_code [(22, 4), (21, 1), (16, 5), (8, 8), (5, 3), (4, 1), (0, 4)] rfl
      (fun w h => by rw [decodeNat, h.major rfl, decodeLow, h.major rfl, decodeMaj23]; rfl) _ _ _ _ _ _ _
  | stgW =>
    cases hi
    exact decodes_of_code [(22, 4), (21, 1), (16, 5), (8, 8), (5, 3), (4, 1), (0, 4)] rfl
      (fun w h => by rw [decodeNat, h.major rfl, decodeLow, h.major rfl, decodeMaj24]; rfl) _ _ _ _ _ _ _
  | stgQ =>
    cases hi
    exact decodes_of_code [(22, 4), (21, 1), (16, 5), (8, 8), (5, 3), (4, 1), (0, 4)] rfl
      (fun w h => by rw [decodeNat, h.major rfl, decodeLow, h.major rfl, decodeMaj25]; rfl) _ _ _ _ _ _ _
  | ldl =>
    cases hi
    exact decodes_of_code [(22, 4), (21, 1), (16, 5), (8, 8), (5, 3), (0, 4)] rfl
      (fun w h => by rw [decodeNat, h.major rfl, decodeLow, h.major rfl, decodeMaj26, h.fixed 4 1 rfl]; rfl) _ _ _ _ _ _
  | ldlW =>
    cases hi
    exact decodes_of_code [(22, 4), (21, 1), (16, 5), (8, 8), (5, 3), (0, 4)] rfl
      (fun w h => by rw [decodeNat, h.major rfl, decodeLow, h.major rfl, decodeMaj27, h.fixed 4 1 rfl]; rfl) _ _ _ _ _ _
  | ldlQ =>
    cases hi
    exact decodes_of_code [(22, 4), (21, 1), (16, 5), (8, 8), (5, 3), (0, 4)] rfl
      (fun w h => by rw [decodeNat, h.major rfl, decodeLow, h.major rfl, decodeMaj28, h.fixed 4 1 rfl]; rfl) _ _ _ _ _ _
  | stl =>
    cases hi
    exact decodes_of_code [(22, 4), (21, 1), (16, 5), (8, 8), (5, 3), (0, 4)] rfl
      (fun w h => by rw [decodeNat, h.major rfl, decodeLow, h.major rfl, decodeMaj29, h.fixed 4 1 rfl]; rfl) _ _ _ _ _ _
  | stlW =>
    cases hi
    exact decodes_of_code [(22, 4), (21, 1), (16, 5), (8, 8), (5, 3), (0, 4)] rfl
      (fun w h => by rw [decodeNat, h.major rfl, decodeLow, h.major rfl, decodeMaj2A, h.fixed 4 1 rfl]; rfl) _ _ _ _ _ _
  | stlQ =>
    cases hi
    exact decodes_of_code [(22, 4), (21, 1), (16, 5), (8, 8), (5, 3), (0, 4)] rfl
      (fun w h => by rw [decodeNat, h.major rfl, decodeLow, h.major rfl, decodeMaj2B, h.fixed 4 1 rfl]; rfl) _ _ _ _ _ _
  | ldgU8 | ldgS8 | ldgU16 | ldgS16 | stgB8 | stgB16 =>
    cases hi
    exact decodes_of_code [(22, 4), (21, 1), (16, 5), (8, 8), (5, 3), (4, 1)] rfl
      (fun w h => by rw [decodeNat, h.major rfl, decodeLow, h.major rfl, decodeMaj2C, h.code 0 4 16 rfl rfl]; rfl) _ _ _ _ _ _
  | ldlU8 | ldlS8 | ldlU16 | ldlS16 | stlB8 | stlB16 =>
    cases hi
    exact decodes_of_code [(22, 4), (21, 1), (16, 5), (8, 8), (5, 3)] rfl
      (fun w h => by rw [decodeNat, h.major rfl, decodeLow, h.major rfl, decodeMaj2C, h.code 0 4 16 rfl rfl, h.fixed 4 1 rfl]; rfl) _ _ _ _ _
  | pfg =>
    cases hi
    exact decodes_of_code [(22, 4), (21, 1), (8, 8), (5, 3), (4, 1)] rfl
      (fun w h => by rw [decodeNat, h.major rfl, decodeLow, h.major rfl, decodeMaj2C, h.code 0 4 16 rfl rfl, h.fixed 16 5 rfl]; rfl) _ _ _ _ _
  | atomg =>
    cases hi
    exact decodes_of_code [(22, 4), (21, 1), (16, 5), (11, 5), (8, 3), (4, 4), (2, 2), (0, 2)] rfl
      (fun w h => by rw [decodeNat, h.major rfl, decodeLow, h.major rfl, decodeMaj2D]; rfl) _ _ _ _ _ _ _ _
  | atoml =>
    cases hi
    exact decodes_of_code [(22, 4), (21, 1), (16, 5), (11, 5), (8, 3), (4, 4), (2, 2), (0, 2)] rfl
      (fun w h => by rw [decodeNat, h.major rfl, decodeLow, h.major rfl, decodeMaj2E]; rfl) _ _ _ _ _ _ _ _
  | atoms =>
    cases hi
    exact decodes_of_code [(22, 4), (21, 1), (13, 8), (5, 8), (1, 4), (0, 1)] rfl
      (fun w h => by rw [decodeNat, h.major rfl, decodeLow, h.major rfl, decodeMaj2F]; rfl) _ _ _ _ _ _
  | fence | rel | acq =>
    cases hi
    exact decodes_of_code [(22, 4), (21, 1), (13, 3)] rfl
      (fun w h => by rw [decodeNat, h.major rfl, decodeLow, h.major rfl, decodeMaj30, h.code 16 5 32 rfl rfl, h.fixed 0 13 rfl]; rfl) _ _ _
  | acqRmt | leaseSet | leaseGet =>
    cases hi
    exact decodes_of_code [(22, 4), (21, 1), (5, 8)] rfl
      (fun w h => by rw [decodeNat, h.major rfl, decodeLow, h.major rfl, decodeMaj30, h.code 16 5 32 rfl rfl, h.fixed 13 3 rfl, h.fixed 0 5 rfl]; rfl) _ _ _
  | wdrain | l1wb | l1inv | leaseMeas =>
    cases hi
    exact decodes_of_code [(22, 4), (21, 1)] rfl
      (fun w h => by rw [decodeNat, h.major rfl, decodeLow, h.major rfl, decodeMaj30, h.code 16 5 32 rfl rfl, h.fixed 0 16 rfl]; rfl) _ _
  | barv | bwait | btest =>
    cases hi
    exact decodes_of_code [(22, 4), (21, 1), (13, 8), (0, 8)] rfl
      (fun w h => by rw [decodeNat, h.major rfl, decodeLow, h.major rfl, decodeMaj31, h.code 8 5 32 rfl rfl]; rfl) _ _ _ _
  | bsync | barvn =>
    cases hi
    exact decodes_of_code [(22, 4), (21, 1), (13, 8)] rfl
      (fun w h => by rw [decodeNat, h.major rfl, decodeLow, h.major rfl, decodeMaj31, h.code 8 5 32 rfl rfl, h.fixed 0 8 rfl]; rfl) _ _ _
  | gmask | gqry | gsave | gload =>
    cases hi
    exact decodes_of_code [(22, 4), (21, 1), (13, 8), (0, 8)] rfl
      (fun w h => by rw [decodeNat, h.major rfl, decodeLow, h.major rfl, decodeMaj32, h.code 8 5 32 rfl rfl]; rfl) _ _ _ _
  | mma =>
    cases hi
    exact decodes_of_code [(22, 4), (21, 1), (18, 3), (16, 2), (11, 5), (8, 3), (4, 4), (3, 1), (0, 3)] rfl
      (fun w h => by rw [decodeNat, h.major rfl, decodeLow, h.major rfl, decodeMaj34]; rfl) _ _ _ _ _ _ _ _ _
  | mzero =>
    cases hi
    exact decodes_of_code [(22, 4), (21, 1), (13, 3)] rfl
      (fun w h => by rw [decodeNat, h.major rfl, decodeLow, h.major rfl, decodeMaj35, h.code 16 5 32 rfl rfl, h.fixed 0 13 rfl]; rfl) _ _ _
  | mldt | mstt =>
    cases hi
    exact decodes_of_code [(22, 4), (21, 1), (13, 3), (10, 3), (8, 2)] rfl
      (fun w h => by rw [decodeNat, h.major rfl, decodeLow, h.major rfl, decodeMaj35, h.code 16 5 32 rfl rfl, h.fixed 0 8 rfl]; rfl) _ _ _ _ _
  | mrowv =>
    cases hi
    exact decodes_of_code [(22, 4), (21, 1), (11, 5), (8, 3)] rfl
      (fun w h => by rw [decodeNat, h.major rfl, decodeLow, h.major rfl, decodeMaj35, h.code 16 5 32 rfl rfl, h.fixed 0 8 rfl]; rfl) _ _ _ _
  | mwait | mfence =>
    cases hi
    exact decodes_of_code [(22, 4), (21, 1)] rfl
      (fun w h => by rw [decodeNat, h.major rfl, decodeLow, h.major rfl, decodeMaj35, h.code 16 5 32 rfl rfl, h.fixed 0 16 rfl]; rfl) _ _
  | mdesc | mdescGet =>
    cases hi
    exact decodes_of_code [(22, 4), (21, 1), (13, 3), (5, 8)] rfl
      (fun w h => by rw [decodeNat, h.major rfl, decodeLow, h.major rfl, decodeMaj35, h.code 16 5 32 rfl rfl, h.fixed 0 5 rfl]; rfl) _ _ _ _
  | cpyLin | cpyLinw | cpyT2d | cpyT2dw | cpyXpnd | cpyGath | cpyScat | cpyL2l | cpyFill =>
    cases hi
    exact decodes_of_code [(22, 4), (21, 1), (15, 6), (3, 8)] rfl
      (fun w h => by rw [decodeNat, h.major rfl, decodeMaj38, h.code 11 4 16 rfl rfl, h.fixed 0 3 rfl]; rfl) _ _ _ _
  | twaitany | twaitall | tfind | tstat =>
    cases hi
    exact decodes_of_code [(22, 4), (21, 1), (13, 8), (5, 8)] rfl
      (fun w h => by rw [decodeNat, h.major rfl, decodeMaj39, h.code 0 5 32 rfl rfl]; rfl) _ _ _ _
  | tclr =>
    cases hi
    exact decodes_of_code [(22, 4), (21, 1), (5, 8)] rfl
      (fun w h => by rw [decodeNat, h.major rfl, decodeMaj39, h.code 0 5 32 rfl rfl, h.fixed 13 8 rfl]; rfl) _ _ _
  | rput | rget | rstat =>
    cases hi
    exact decodes_of_code [(22, 4), (21, 1), (17, 4), (4, 8)] rfl
      (fun w h => by rw [decodeNat, h.major rfl, decodeMaj3A, h.code 12 5 32 rfl rfl, h.fixed 0 4 rfl]; rfl) _ _ _ _
  | rputNb | rgetNb =>
    cases hi
    exact decodes_of_code [(22, 4), (21, 1), (17, 4), (4, 8), (0, 4)] rfl
      (fun w h => by rw [decodeNat, h.major rfl, decodeMaj3A, h.code 12 5 32 rfl rfl]; rfl) _ _ _ _ _
  | rclose =>
    cases hi
    exact decodes_of_code [(22, 4), (21, 1), (17, 4)] rfl
      (fun w h => by rw [decodeNat, h.major rfl, decodeMaj3A, h.code 12 5 32 rfl rfl, h.fixed 0 12 rfl]; rfl) _ _ _
  | hgive | hrecv =>
    cases hi
    exact decodes_of_code [(22, 4), (21, 1), (8, 8), (0, 8)] rfl
      (fun w h => by rw [decodeNat, h.major rfl, decodeMaj3B, h.code 16 5 32 rfl rfl]; rfl) _ _ _ _
  | hqry | hdrop =>
    cases hi
    exact decodes_of_code [(22, 4), (21, 1), (8, 8)] rfl
      (fun w h => by rw [decodeNat, h.major rfl, decodeMaj3B, h.code 16 5 32 rfl rfl, h.fixed 0 8 rfl]; rfl) _ _ _
  | klaunch | kwait | kquota =>
    cases hi
    exact decodes_of_code [(22, 4), (21, 1), (5, 8)] rfl
      (fun w h => by rw [decodeNat, h.major rfl, decodeMaj3C, h.code 16 5 32 rfl rfl, h.fixed 13 3 rfl, h.fixed 0 5 rfl]; rfl) _ _ _
  | crs | cag | car =>
    cases hi
    exact decodes_of_code [(22, 4), (21, 1), (15, 6), (3, 8), (2, 1), (0, 2)] rfl
      (fun w h => by rw [decodeNat, h.major rfl, decodeMaj3D, h.code 11 4 16 rfl rfl]; rfl) _ _ _ _ _ _
  | mkdown =>
    cases hi
    exact decodes_of_code [(22, 4), (21, 1), (13, 2), (5, 8)] rfl
      (fun w h => by rw [decodeNat, h.major rfl, decodeMaj3E, h.code 16 5 32 rfl rfl, h.fixed 15 1 rfl, h.fixed 0 5 rfl]; rfl) _ _ _ _
  | mkget | trmark | clkrd =>
    cases hi
    exact decodes_of_code [(22, 4), (21, 1), (5, 8)] rfl
      (fun w h => by rw [decodeNat, h.major rfl, decodeMaj3E, h.code 16 5 32 rfl rfl, h.fixed 13 3 rfl, h.fixed 0 5 rfl]; rfl) _ _ _
  | ximm =>
    cases hi
    exact decodes_of_code [(0, 19)] rfl
      (fun w h => by rw [decodeNat, h.major rfl, decodeMaj3F, h.code 19 2 4 rfl rfl, h.fixed 21 5 rfl]; rfl) _
  | rep =>
    cases hi
    exact decodes_of_code [(10, 1), (9, 1), (8, 1), (6, 2), (0, 6)] rfl
      (fun w h => by rw [decodeNat, h.major rfl, decodeMaj3F, h.code 19 2 4 rfl rfl, h.fixed 21 5 rfl, h.fixed 11 8 rfl]; rfl) _ _ _ _ _
  | la =>
    cases hi
    exact decodes_of_code [(0, 4)] rfl
      (fun w h => by rw [decodeNat, h.major rfl, decodeMaj3F, h.code 19 2 4 rfl rfl, h.fixed 21 5 rfl, h.fixed 4 15 rfl]; rfl) _
  | _ => cases hi

theorem rereads_decodeMaj01 {w : Nat} (hw : w < 2 ^ 32) (hM : w / 2 ^ 26 % 64 = 1) : Rereads w (decodeMaj01 w) := by
  unfold decodeMaj01
  split
  case h_1 hc | h_2 hc | h_3 hc | h_4 hc | h_5 hc | h_6 hc | h_7 hc | h_8 hc =>
    exact rereads_some [(22, 4), (21, 1), (16, 5), (11, 5), (3, 8)] [(26, 6), (0, 3)] rfl hw rfl ⟨hM, hc, trivial⟩
  next => exact rereads_none w

theorem rereads_decodeMaj02 {w : Nat} (hw : w < 2 ^ 32) (hM : w / 2 ^ 26 % 64 = 2) : Rereads w (decodeMaj02 w) := by
  unfold decodeMaj02
  split
  case h_1 hc | h_2 hc | h_3 hc | h_4 hc | h_5 hc | h_6 hc | h_7 hc | h_8 hc =>
    exact rereads_some [(22, 4), (21, 1), (16, 5), (11, 5), (3, 8)] [(26, 6), (0, 3)] rfl hw rfl ⟨hM, hc, trivial⟩
  next => exact rereads_none w

theorem rereads_decodeMaj03 {w : Nat} (hw : w < 2 ^ 32) (hM : w / 2 ^ 26 % 64 = 3) : Rereads w (decodeMaj03 w) := by
  unfold decodeMaj03
  split
  case h_1 hc | h_2 hc | h_3 hc | h_4 hc | h_5 hc | h_6 hc | h_7 hc | h_8 hc =>
    exact rereads_some [(22, 4), (21, 1), (16, 5), (11, 5), (3, 8)] [(26, 6), (0, 3)] rfl hw rfl ⟨hM, hc, trivial⟩
  next => exact rereads_none w

theorem rereads_decodeMaj04 {w : Nat} (hw : w < 2 ^ 32) (hM : w / 2 ^ 26 % 64 = 4) : Rereads w (decodeMaj04 w) := by
  unfold decodeMaj04
  split
  case h_1 hc | h_2 hc | h_3 hc | h_8 hc =>
    exact rereads_fixed (fun hz => rereads_some [(22, 4), (21, 1), (16, 5), (3, 8)] [(26, 6), (0, 3), (11, 5)] rfl hw rfl ⟨hM, hc, hz, trivial⟩) (rereads_none w)
  case h_4 hc | h_5 hc | h_6 hc | h_7 hc =>
    exact rereads_some [(22, 4), (21, 1), (16, 5), (11, 5), (3, 8)] [(26, 6), (0, 3)] rfl hw rfl ⟨hM, hc, trivial⟩
  next => exact rereads_none w

theorem rereads_decodeMaj05 {w : Nat} (hw : w < 2 ^ 32) (hM : w / 2 ^ 26 % 64 = 5) : Rereads w (decodeMaj05 w) := by
  unfold decodeMaj05
  split
  case h_1 hc | h_2 hc | h_3 hc | h_4 hc | h_5 hc | h_6 hc | h_7 hc | h_8 hc =>
    exact rereads_some [(22, 4), (21, 1), (16, 5), (11, 5), (3, 8)] [(26, 6), (0, 3)] rfl hw rfl ⟨hM, hc, trivial⟩
  next => exact rereads_none w

theorem rereads_decodeMaj06 {w : Nat} (hw : w < 2 ^ 32) (hM : w / 2 ^ 26 % 64 = 6) : Rereads w (decodeMaj06 w) := by
  unfold decodeMaj06
  split
  case h_1 hc | h_2 hc | h_3 hc | h_4 hc | h_5 hc | h_6 hc =>
    exact rereads_some [(22, 4), (21, 1), (16, 5), (11, 5), (3, 8)] [(26, 6), (0, 3)] rfl hw rfl ⟨hM, hc, trivial⟩
  next => exact rereads_none w

theorem rereads_decodeMaj07 {w : Nat} (hw : w < 2 ^ 32) (hM : w / 2 ^ 26 % 64 = 7) : Rereads w (decodeMaj07 w) := by
  unfold decodeMaj07
  split
  case h_1 hc =>
    refine rereads_fixed (fun hz => rereads_some [(22, 4), (21, 1), (16, 5), (11, 2), (3, 8)] [(26, 6), (0, 3), (13, 3)] rfl hw rfl ⟨hM, hc, hz, trivial⟩) ?_
    refine rereads_fixed (fun hz => rereads_some [(22, 4), (21, 1), (16, 5), (11, 2), (3, 8)] [(26, 6), (0, 3), (13, 3)] rfl hw rfl ⟨hM, hc, hz, trivial⟩) ?_
    refine rereads_fixed (fun hz => rereads_some [(22, 4), (21, 1), (16, 5), (11, 2), (3, 8)] [(26, 6), (0, 3), (13, 3)] rfl hw rfl ⟨hM, hc, hz, trivial⟩) ?_
    refine rereads_fixed (fun hz => rereads_some [(22, 4), (21, 1), (16, 5), (11, 2), (3, 8)] [(26, 6), (0, 3), (13, 3)] rfl hw rfl ⟨hM, hc, hz, trivial⟩) ?_
    exact rereads_fixed (fun hz => rereads_some [(22, 4), (21, 1), (16, 5), (11, 2), (3, 8)] [(26, 6), (0, 3), (13, 3)] rfl hw rfl ⟨hM, hc, hz, trivial⟩) (rereads_none w)
  case h_2 hc | h_3 hc =>
    refine rereads_fixed (fun hz => rereads_some [(22, 4), (21, 1), (16, 5), (14, 2), (3, 8)] [(26, 6), (0, 3), (11, 3)] rfl hw rfl ⟨hM, hc, hz, trivial⟩) ?_
    refine rereads_fixed (fun hz => rereads_some [(22, 4), (21, 1), (16, 5), (14, 2), (3, 8)] [(26, 6), (0, 3), (11, 3)] rfl hw rfl ⟨hM, hc, hz, trivial⟩) ?_
    exact rereads_fixed (fun hz => rereads_some [(22, 4), (21, 1), (16, 5), (14, 2), (3, 8)] [(26, 6), (0, 3), (11, 3)] rfl hw rfl ⟨hM, hc, hz, trivial⟩) (rereads_none w)
  case h_4 hc =>
    refine rereads_fixed (fun hz => rereads_some [(22, 4), (21, 1), (16, 5), (3, 8)] [(26, 6), (0, 3), (11, 5)] rfl hw rfl ⟨hM, hc, hz, trivial⟩) ?_
    refine rereads_fixed (fun hz => rereads_some [(22, 4), (21, 1), (16, 5), (3, 8)] [(26, 6), (0, 3), (11, 5)] rfl hw rfl ⟨hM, hc, hz, trivial⟩) ?_
    exact rereads_fixed (fun hz => rereads_some [(22, 4), (21, 1), (16, 5), (3, 8)] [(26, 6), (0, 3), (11, 5)] rfl hw rfl ⟨hM, hc, hz, trivial⟩) (rereads_none w)
  next => exact rereads_none w

theorem rereads_decodeMaj08 {w : Nat} (hw : w < 2 ^ 32) (hM : w / 2 ^ 26 % 64 = 8) : Rereads w (decodeMaj08 w) := by
  unfold decodeMaj08
  split
  case h_1 hc | h_2 hc | h_3 hc | h_4 hc | h_5 hc | h_6 hc | h_7 hc | h_8 hc =>
    exact rereads_fixed (fun hz => rereads_some [(22, 4), (21, 1), (16, 5), (12, 4), (3, 8)] [(26, 6), (0, 3), (11, 1)] rfl hw rfl ⟨hM, hc, hz, trivial⟩) (rereads_none w)
  next => exact rereads_none w

theorem rereads_decodeMaj09 {w : Nat} (hw : w < 2 ^ 32) (hM : w / 2 ^ 26 % 64 = 9) : Rereads w (decodeMaj09 w) := by
  unfold decodeMaj09
  exact rereads_some [(22, 4), (21, 1), (17, 4), (12, 5), (4, 8), (0, 4)] [(26, 6)] rfl hw rfl ⟨hM, trivial⟩

theorem rereads_decodeMaj0A {w : Nat} (hw : w < 2 ^ 32) (hM : w / 2 ^ 26 % 64 = 10) : Rereads w (decodeMaj0A w) := by
  unfold decodeMaj0A
  exact rereads_some [(22, 4), (21, 1), (17, 4), (12, 5), (4, 8), (0, 4)] [(26, 6)] rfl hw rfl ⟨hM, trivial⟩

theorem rereads_decodeMaj0B {w : Nat} (hw : w < 2 ^ 32) (hM : w / 2 ^ 26 % 64 = 11) : Rereads w (decodeMaj0B w) := by
  unfold decodeMaj0B
  split
  case h_1 hc | h_2 hc | h_3 hc | h_4 hc =>
    exact rereads_fixed (fun hz => rereads_some [(22, 4), (21, 1), (17, 4), (13, 4), (9, 4)] [(26, 6), (5, 4), (0, 5)] rfl hw rfl ⟨hM, hc, hz, trivial⟩) (rereads_none w)
  case h_5 hc | h_6 hc =>
    exact rereads_fixed_and (fun hz hz' => rereads_some [(22, 4), (21, 1), (17, 4), (13, 4)] [(26, 6), (5, 4), (9, 4), (0, 5)] rfl hw rfl ⟨hM, hc, hz, hz', trivial⟩) (rereads_none w)
  case h_7 hc | h_8 hc =>
    exact rereads_fixed_and (fun hz hz' => rereads_some [(22, 4), (21, 1), (17, 4)] [(26, 6), (5, 4), (9, 8), (0, 5)] rfl hw rfl ⟨hM, hc, hz, hz', trivial⟩) (rereads_none w)
  case h_9 hc =>
    exact rereads_fixed_and (fun hz hz' => rereads_some [(22, 4), (21, 1), (13, 4), (0, 5)] [(26, 6), (5, 4), (17, 4), (9, 4)] rfl hw rfl ⟨hM, hc, hz, hz', trivial⟩) (rereads_none w)
  next => exact rereads_none w

theorem rereads_decodeMaj0C {w : Nat} (hw : w < 2 ^ 32) (hM : w / 2 ^ 26 % 64 = 12) : Rereads w (decodeMaj0C w) := by
  unfold decodeMaj0C
  exact rereads_some [(22, 4), (21, 1), (16, 5), (11, 5), (3, 8), (0, 3)] [(26, 6)] rfl hw rfl ⟨hM, trivial⟩

theorem rereads_decodeMaj0D {w : Nat} (hw : w < 2 ^ 32) (hM : w / 2 ^ 26 % 64 = 13) : Rereads w (decodeMaj0D w) := by
  unfold decodeMaj0D
  exact rereads_some [(22, 4), (21, 1), (16, 5), (11, 5), (3, 8), (0, 3)] [(26, 6)] rfl hw rfl ⟨hM, trivial⟩

theorem rereads_decodeMaj0E {w : Nat} (hw : w < 2 ^ 32) (hM : w / 2 ^ 26 % 64 = 14) : Rereads w (decodeMaj0E w) := by
  unfold decodeMaj0E
  exact rereads_some [(22, 4), (21, 1), (16, 5), (11, 5), (3, 8), (0, 3)] [(26, 6)] rfl hw rfl ⟨hM, trivial⟩

theorem rereads_decodeMaj0F {w : Nat} (hw : w < 2 ^ 32) (hM : w / 2 ^ 26 % 64 = 15) : Rereads w (decodeMaj0F w) := by
  unfold decodeMaj0F
  exact rereads_some [(22, 4), (21, 1), (16, 5), (11, 5), (3, 8), (0, 3)] [(26, 6)] rfl hw rfl ⟨hM, trivial⟩

theorem rereads_decodeMaj10 {w : Nat} (hw : w < 2 ^ 32) (hM : w / 2 ^ 26 % 64 = 16) : Rereads w (decodeMaj10 w) := by
  unfold decodeMaj10
  split
  case h_1 hc | h_2 hc | h_3 hc | h_4 hc | h_5 hc | h_6 hc | h_7 hc | h_8 hc | h_9 hc | h_10 hc | h_11 hc | h_12 hc | h_13 hc | h_14 hc | h_15 hc |
    h_16 hc | h_17 hc | h_18 hc | h_19 hc | h_20 hc | h_21 hc | h_22 hc | h_23 hc | h_24 hc | h_25 hc | h_26 hc | h_27 hc | h_28 hc | h_29 hc | h_30
    hc | h_31 hc | h_32 hc =>
    exact rereads_some [(22, 4), (21, 1), (13, 8), (5, 8)] [(26, 6), (0, 5)] rfl hw rfl ⟨hM, hc, trivial⟩
  next => exact rereads_none w

theorem rereads_decodeMaj11 {w : Nat} (hw : w < 2 ^ 32) (hM : w / 2 ^ 26 % 64 = 17) : Rereads w (decodeMaj11 w) := by
  unfold decodeMaj11
  split
  case h_1 hc | h_2 hc | h_3 hc | h_4 hc | h_5 hc | h_6 hc | h_7 hc | h_8 hc | h_9 hc | h_10 hc | h_11 hc | h_12 hc | h_13 hc | h_14 hc | h_15 hc |
    h_16 hc | h_17 hc =>
    exact rereads_some [(22, 4), (21, 1), (13, 8), (5, 8)] [(26, 6), (0, 5)] rfl hw rfl ⟨hM, hc, trivial⟩
  next => exact rereads_none w

theorem rereads_decodeMaj12 {w : Nat} (hw : w < 2 ^ 32) (hM : w / 2 ^ 26 % 64 = 18) : Rereads w (decodeMaj12 w) := by
  unfold decodeMaj12
  exact rereads_some [(22, 4), (21, 1), (13, 8), (0, 13)] [(26, 6)] rfl hw rfl ⟨hM, trivial⟩

theorem rereads_decodeMaj13 {w : Nat} (hw : w < 2 ^ 32) (hM : w / 2 ^ 26 % 64 = 19) : Rereads w (decodeMaj13 w) := by
  unfold decodeMaj13
  exact rereads_some [(22, 4), (21, 1), (13, 8), (0, 13)] [(26, 6)] rfl hw rfl ⟨hM, trivial⟩

theorem rereads_decodeMaj14 {w : Nat} (hw : w < 2 ^ 32) (hM : w / 2 ^ 26 % 64 = 20) : Rereads w (decodeMaj14 w) := by
  unfold decodeMaj14
  split
  case h_1 hc | h_2 hc | h_3 hc | h_4 hc | h_5 hc =>
    exact rereads_some [(22, 4), (21, 1), (13, 8), (5, 8)] [(26, 6), (0, 5)] rfl hw rfl ⟨hM, hc, trivial⟩
  next => exact rereads_none w

theorem rereads_decodeMaj15 {w : Nat} (hw : w < 2 ^ 32) (hM : w / 2 ^ 26 % 64 = 21) : Rereads w (decodeMaj15 w) := by
  unfold decodeMaj15
  split
  case h_1 hc | h_2 hc | h_3 hc | h_4 hc | h_6 hc =>
    exact rereads_some [(22, 4), (21, 1), (13, 8), (5, 8)] [(26, 6), (0, 5)] rfl hw rfl ⟨hM, hc, trivial⟩
  case h_5 hc =>
    exact rereads_some [(22, 4), (21, 1), (13, 8), (8, 5), (5, 3)] [(26, 6), (0, 5)] rfl hw rfl ⟨hM, hc, trivial⟩
  next => exact rereads_none w

theorem rereads_decodeMaj16 {w : Nat} (hw : w < 2 ^ 32) (hM : w / 2 ^ 26 % 64 = 22) : Rereads w (decodeMaj16 w) := by
  unfold decodeMaj16
  split
  case h_1 hc | h_2 hc | h_3 hc | h_4 hc =>
    exact rereads_some [(22, 4), (21, 1), (16, 5), (11, 5), (3, 8)] [(26, 6), (0, 3)] rfl hw rfl ⟨hM, hc, trivial⟩
  case h_5 hc | h_6 hc | h_8 hc =>
    exact rereads_fixed (fun hz => rereads_some [(22, 4), (21, 1), (16, 5), (3, 8)] [(26, 6), (0, 3), (11, 5)] rfl hw rfl ⟨hM, hc, hz, trivial⟩) (rereads_none w)
  case h_7 hc =>
    exact rereads_fixed (fun hz => rereads_some [(22, 4), (21, 1), (16, 5), (11, 5)] [(26, 6), (0, 3), (3, 8)] rfl hw rfl ⟨hM, hc, hz, trivial⟩) (rereads_none w)
  next => exact rereads_none w

theorem rereads_decodeMaj17 {w : Nat} (hw : w < 2 ^ 32) (hM : w / 2 ^ 26 % 64 = 23) : Rereads w (decodeMaj17 w) := by
  unfold decodeMaj17
  exact rereads_some [(22, 4), (21, 1), (17, 4), (12, 5), (4, 8), (0, 4)] [(26, 6)] rfl hw rfl ⟨hM, trivial⟩

theorem rereads_decodeMaj18 {w : Nat} (hw : w < 2 ^ 32) (hM : w / 2 ^ 26 % 64 = 24) : Rereads w (decodeMaj18 w) := by
  unfold decodeMaj18
  exact rereads_some [(22, 4), (21, 1), (0, 21)] [(26, 6)] rfl hw rfl ⟨hM, trivial⟩

theorem rereads_decodeMaj19 {w : Nat} (hw : w < 2 ^ 32) (hM : w / 2 ^ 26 % 64 = 25) : Rereads w (decodeMaj19 w) := by
  unfold decodeMaj19
  exact rereads_some [(22, 4), (21, 1), (13, 8), (0, 13)] [(26, 6)] rfl hw rfl ⟨hM, trivial⟩

theorem rereads_decodeMaj1A {w : Nat} (hw : w < 2 ^ 32) (hM : w / 2 ^ 26 % 64 = 26) : Rereads w (decodeMaj1A w) := by
  unfold decodeMaj1A
  exact rereads_some [(22, 4), (21, 1), (13, 8), (0, 13)] [(26, 6)] rfl hw rfl ⟨hM, trivial⟩

theorem rereads_decodeMaj1B {w : Nat} (hw : w < 2 ^ 32) (hM : w / 2 ^ 26 % 64 = 27) : Rereads w (decodeMaj1B w) := by
  unfold decodeMaj1B
  exact rereads_some [(22, 4), (21, 1), (19, 2), (0, 19)] [(26, 6)] rfl hw rfl ⟨hM, trivial⟩

theorem rereads_decodeMaj1C {w : Nat} (hw : w < 2 ^ 32) (hM : w / 2 ^ 26 % 64 = 28) : Rereads w (decodeMaj1C w) := by
  unfold decodeMaj1C
  split
  case h_1 hc | h_2 hc | h_6 hc | h_12 hc =>
    exact rereads_fixed (fun hz => rereads_some [(22, 4), (21, 1)] [(26, 6), (16, 5), (0, 16)] rfl hw rfl ⟨hM, hc, hz, trivial⟩) (rereads_none w)
  case h_3 hc | h_4 hc =>
    exact rereads_fixed (fun hz => rereads_some [(22, 4), (21, 1), (8, 8), (0, 2)] [(26, 6), (16, 5), (2, 6)] rfl hw rfl ⟨hM, hc, hz, trivial⟩) (rereads_none w)
  case h_5 hc =>
    exact rereads_fixed (fun hz => rereads_some [(22, 4), (21, 1), (8, 8)] [(26, 6), (16, 5), (0, 8)] rfl hw rfl ⟨hM, hc, hz, trivial⟩) (rereads_none w)
  case h_7 hc =>
    exact rereads_fixed (fun hz => rereads_some [(22, 4), (21, 1), (0, 1)] [(26, 6), (16, 5), (1, 15)] rfl hw rfl ⟨hM, hc, hz, trivial⟩) (rereads_none w)
  case h_8 hc | h_9 hc | h_10 hc | h_11 hc =>
    exact rereads_fixed (fun hz => rereads_some [(22, 4), (21, 1), (0, 8)] [(26, 6), (16, 5), (8, 8)] rfl hw rfl ⟨hM, hc, hz, trivial⟩) (rereads_none w)
  case h_13 hc =>
    exact rereads_some [(22, 4), (21, 1), (8, 8), (0, 8)] [(26, 6), (16, 5)] rfl hw rfl ⟨hM, hc, trivial⟩
  case h_14 hc | h_15 hc =>
    exact rereads_fixed (fun hz => rereads_some [(22, 4), (21, 1), (8, 8), (0, 5)] [(26, 6), (16, 5), (5, 3)] rfl hw rfl ⟨hM, hc, hz, trivial⟩) (rereads_none w)
  next => exact rereads_none w

theorem rereads_decodeMaj1D {w : Nat} (hw : w < 2 ^ 32) (hM : w / 2 ^ 26 % 64 = 29) : Rereads w (decodeMaj1D w) := by
  unfold decodeMaj1D
  exact rereads_some [(22, 4), (21, 1), (20, 1), (12, 8), (0, 12)] [(26, 6)] rfl hw rfl ⟨hM, trivial⟩

theorem rereads_decodeMaj1E {w : Nat} (hw : w < 2 ^ 32) (hM : w / 2 ^ 26 % 64 = 30) : Rereads w (decodeMaj1E w) := by
  unfold decodeMaj1E
  split
  case h_1 hc =>
    exact rereads_some [(22, 4), (21, 1), (13, 8), (8, 5), (3, 5)] [(26, 6), (0, 3)] rfl hw rfl ⟨hM, hc, trivial⟩
  case h_2 hc | h_3 hc | h_4 hc =>
    exact rereads_fixed (fun hz => rereads_some [(22, 4), (21, 1), (13, 8), (8, 5)] [(26, 6), (0, 3), (3, 5)] rfl hw rfl ⟨hM, hc, hz, trivial⟩) (rereads_none w)
  case h_5 hc | h_6 hc | h_7 hc | h_8 hc =>
    exact rereads_some [(22, 4), (21, 1), (13, 8), (8, 5), (7, 1), (3, 4)] [(26, 6), (0, 3)] rfl hw rfl ⟨hM, hc, trivial⟩
  next => exact rereads_none w

theorem rereads_decodeMaj20 {w : Nat} (hw : w < 2 ^ 32) (hM : w / 2 ^ 26 % 64 = 32) : Rereads w (decodeMaj20 w) := by
  unfold decodeMaj20
  exact rereads_some [(22, 4), (21, 1), (16, 5), (8, 8), (5, 3), (4, 1), (0, 4)] [(26, 6)] rfl hw rfl ⟨hM, trivial⟩

theorem rereads_decodeMaj21 {w : Nat} (hw : w < 2 ^ 32) (hM : w / 2 ^ 26 % 64 = 33) : Rereads w (decodeMaj21 w) := by
  unfold decodeMaj21
  exact rereads_some [(22, 4), (21, 1), (16, 5), (8, 8), (5, 3), (4, 1), (0, 4)] [(26, 6)] rfl hw rfl ⟨hM, trivial⟩

theorem rereads_decodeMaj22 {w : Nat} (hw : w < 2 ^ 32) (hM : w / 2 ^ 26 % 64 = 34) : Rereads w (decodeMaj22 w) := by
  unfold decodeMaj22
  exact rereads_some [(22, 4), (21, 1), (16, 5), (8, 8), (5, 3), (4, 1), (0, 4)] [(26, 6)] rfl hw rfl ⟨hM, trivial⟩

theorem rereads_decodeMaj23 {w : Nat} (hw : w < 2 ^ 32) (hM : w / 2 ^ 26 % 64 = 35) : Rereads w (decodeMaj23 w) := by
  unfold decodeMaj23
  exact rereads_some [(22, 4), (21, 1), (16, 5), (8, 8), (5, 3), (4, 1), (0, 4)] [(26, 6)] rfl hw rfl ⟨hM, trivial⟩

theorem rereads_decodeMaj24 {w : Nat} (hw : w < 2 ^ 32) (hM : w / 2 ^ 26 % 64 = 36) : Rereads w (decodeMaj24 w) := by
  unfold decodeMaj24
  exact rereads_some [(22, 4), (21, 1), (16, 5), (8, 8), (5, 3), (4, 1), (0, 4)] [(26, 6)] rfl hw rfl ⟨hM, trivial⟩

theorem rereads_decodeMaj25 {w : Nat} (hw : w < 2 ^ 32) (hM : w / 2 ^ 26 % 64 = 37) : Rereads w (decodeMaj25 w) := by
  unfold decodeMaj25
  exact rereads_some [(22, 4), (21, 1), (16, 5), (8, 8), (5, 3), (4, 1), (0, 4)] [(26, 6)] rfl hw rfl ⟨hM, trivial⟩

theorem rereads_decodeMaj26 {w : Nat} (hw : w < 2 ^ 32) (hM : w / 2 ^ 26 % 64 = 38) : Rereads w (decodeMaj26 w) := by
  unfold decodeMaj26
  exact rereads_fixed (fun hz => rereads_some [(22, 4), (21, 1), (16, 5), (8, 8), (5, 3), (0, 4)] [(26, 6), (4, 1)] rfl hw rfl ⟨hM, hz, trivial⟩) (rereads_none w)

theorem rereads_decodeMaj27 {w : Nat} (hw : w < 2 ^ 32) (hM : w / 2 ^ 26 % 64 = 39) : Rereads w (decodeMaj27 w) := by
  unfold decodeMaj27
  exact rereads_fixed (fun hz => rereads_some [(22, 4), (21, 1), (16, 5), (8, 8), (5, 3), (0, 4)] [(26, 6), (4, 1)] rfl hw rfl ⟨hM, hz, trivial⟩) (rereads_none w)

theorem rereads_decodeMaj28 {w : Nat} (hw : w < 2 ^ 32) (hM : w / 2 ^ 26 % 64 = 40) : Rereads w (decodeMaj28 w) := by
  unfold decodeMaj28
  exact rereads_fixed (fun hz => rereads_some [(22, 4), (21, 1), (16, 5), (8, 8), (5, 3), (0, 4)] [(26, 6), (4, 1)] rfl hw rfl ⟨hM, hz, trivial⟩) (rereads_none w)

theorem rereads_decodeMaj29 {w : Nat} (hw : w < 2 ^ 32) (hM : w / 2 ^ 26 % 64 = 41) : Rereads w (decodeMaj29 w) := by
  unfold decodeMaj29
  exact rereads_fixed (fun hz => rereads_some [(22, 4), (21, 1), (16, 5), (8, 8), (5, 3), (0, 4)] [(26, 6), (4, 1)] rfl hw rfl ⟨hM, hz, trivial⟩) (rereads_none w)

theorem rereads_decodeMaj2A {w : Nat} (hw : w < 2 ^ 32) (hM : w / 2 ^ 26 % 64 = 42) : Rereads w (decodeMaj2A w) := by
  unfold decodeMaj2A
  exact rereads_fixed (fun hz => rereads_some [(22, 4), (21, 1), (16, 5), (8, 8), (5, 3), (0, 4)] [(26, 6), (4, 1)] rfl hw rfl ⟨hM, hz, trivial⟩) (rereads_none w)

theorem rereads_decodeMaj2B {w : Nat} (hw : w < 2 ^ 32) (hM : w / 2 ^ 26 % 64 = 43) : Rereads w (decodeMaj2B w) := by
  unfold decodeMaj2B
  exact rereads_fixed (fun hz => rereads_some [(22, 4), (21, 1), (16, 5), (8, 8), (5, 3), (0, 4)] [(26, 6), (4, 1)] rfl hw rfl ⟨hM, hz, trivial⟩) (rereads_none w)

theorem rereads_decodeMaj2C {w : Nat} (hw : w < 2 ^ 32) (hM : w / 2 ^ 26 % 64 = 44) : Rereads w (decodeMaj2C w) := by
  unfold decodeMaj2C
  split
  case h_1 hc | h_2 hc | h_3 hc | h_4 hc | h_5 hc | h_6 hc =>
    exact rereads_some [(22, 4), (21, 1), (16, 5), (8, 8), (5, 3), (4, 1)] [(26, 6), (0, 4)] rfl hw rfl ⟨hM, hc, trivial⟩
  case h_7 hc | h_8 hc | h_9 hc | h_10 hc | h_11 hc | h_12 hc =>
    exact rereads_fixed (fun hz => rereads_some [(22, 4), (21, 1), (16, 5), (8, 8), (5, 3)] [(26, 6), (0, 4), (4, 1)] rfl hw rfl ⟨hM, hc, hz, trivial⟩) (rereads_none w)
  case h_13 hc =>
    exact rereads_fixed (fun hz => rereads_some [(22, 4), (21, 1), (8, 8), (5, 3), (4, 1)] [(26, 6), (0, 4), (16, 5)] rfl hw rfl ⟨hM, hc, hz, trivial⟩) (rereads_none w)
  next => exact rereads_none w

theorem rereads_decodeMaj2D {w : Nat} (hw : w < 2 ^ 32) (hM : w / 2 ^ 26 % 64 = 45) : Rereads w (decodeMaj2D w) := by
  unfold decodeMaj2D
  exact rereads_some [(22, 4), (21, 1), (16, 5), (11, 5), (8, 3), (4, 4), (2, 2), (0, 2)] [(26, 6)] rfl hw rfl ⟨hM, trivial⟩

theorem rereads_decodeMaj2E {w : Nat} (hw : w < 2 ^ 32) (hM : w / 2 ^ 26 % 64 = 46) : Rereads w (decodeMaj2E w) := by
  unfold decodeMaj2E
  exact rereads_some [(22, 4), (21, 1), (16, 5), (11, 5), (8, 3), (4, 4), (2, 2), (0, 2)] [(26, 6)] rfl hw rfl ⟨hM, trivial⟩

theorem rereads_decodeMaj2F {w : Nat} (hw : w < 2 ^ 32) (hM : w / 2 ^ 26 % 64 = 47) : Rereads w (decodeMaj2F w) := by
  unfold decodeMaj2F
  exact rereads_some [(22, 4), (21, 1), (13, 8), (5, 8), (1, 4), (0, 1)] [(26, 6)] rfl hw rfl ⟨hM, trivial⟩

theorem rereads_decodeMaj30 {w : Nat} (hw : w < 2 ^ 32) (hM : w / 2 ^ 26 % 64 = 48) : Rereads w (decodeMaj30 w) := by
  unfold decodeMaj30
  split
  case h_1 hc | h_2 hc | h_3 hc =>
    exact rereads_fixed (fun hz => rereads_some [(22, 4), (21, 1), (13, 3)] [(26, 6), (16, 5), (0, 13)] rfl hw rfl ⟨hM, hc, hz, trivial⟩) (rereads_none w)
  case h_4 hc | h_8 hc | h_10 hc =>
    exact rereads_fixed_and (fun hz hz' => rereads_some [(22, 4), (21, 1), (5, 8)] [(26, 6), (16, 5), (13, 3), (0, 5)] rfl hw rfl ⟨hM, hc, hz, hz', trivial⟩) (rereads_none w)
  case h_5 hc | h_6 hc | h_7 hc | h_9 hc =>
    exact rereads_fixed (fun hz => rereads_some [(22, 4), (21, 1)] [(26, 6), (16, 5), (0, 16)] rfl hw rfl ⟨hM, hc, hz, trivial⟩) (rereads_none w)
  next => exact rereads_none w

theorem rereads_decodeMaj31 {w : Nat} (hw : w < 2 ^ 32) (hM : w / 2 ^ 26 % 64 = 49) : Rereads w (decodeMaj31 w) := by
  unfold decodeMaj31
  split
  case h_1 hc | h_2 hc | h_5 hc =>
    exact rereads_some [(22, 4), (21, 1), (13, 8), (0, 8)] [(26, 6), (8, 5)] rfl hw rfl ⟨hM, hc, trivial⟩
  case h_3 hc | h_4 hc =>
    exact rereads_fixed (fun hz => rereads_some [(22, 4), (21, 1), (13, 8)] [(26, 6), (8, 5), (0, 8)] rfl hw rfl ⟨hM, hc, hz, trivial⟩) (rereads_none w)
  next => exact rereads_none w

theorem rereads_decodeMaj32 {w : Nat} (hw : w < 2 ^ 32) (hM : w / 2 ^ 26 % 64 = 50) : Rereads w (decodeMaj32 w) := by
  unfold decodeMaj32
  split
  case h_1 hc | h_2 hc | h_3 hc | h_4 hc =>
    exact rereads_some [(22, 4), (21, 1), (13, 8), (0, 8)] [(26, 6), (8, 5)] rfl hw rfl ⟨hM, hc, trivial⟩
  next => exact rereads_none w

theorem rereads_decodeMaj34 {w : Nat} (hw : w < 2 ^ 32) (hM : w / 2 ^ 26 % 64 = 52) : Rereads w (decodeMaj34 w) := by
  unfold decodeMaj34
  exact rereads_some [(22, 4), (21, 1), (18, 3), (16, 2), (11, 5), (8, 3), (4, 4), (3, 1), (0, 3)] [(26, 6)] rfl hw rfl ⟨hM, trivial⟩

theorem rereads_decodeMaj35 {w : Nat} (hw : w < 2 ^ 32) (hM : w / 2 ^ 26 % 64 = 53) : Rereads w (decodeMaj35 w) := by
  unfold decodeMaj35
  split
  case h_1 hc =>
    exact rereads_fixed (fun hz => rereads_some [(22, 4), (21, 1), (13, 3)] [(26, 6), (16, 5), (0, 13)] rfl hw rfl ⟨hM, hc, hz, trivial⟩) (rereads_none w)
  case h_2 hc | h_3 hc =>
    exact rereads_fixed (fun hz => rereads_some [(22, 4), (21, 1), (13, 3), (10, 3), (8, 2)] [(26, 6), (16, 5), (0, 8)] rfl hw rfl ⟨hM, hc, hz, trivial⟩) (rereads_none w)
  case h_4 hc =>
    exact rereads_fixed (fun hz => rereads_some [(22, 4), (21, 1), (11, 5), (8, 3)] [(26, 6), (16, 5), (0, 8)] rfl hw rfl ⟨hM, hc, hz, trivial⟩) (rereads_none w)
  case h_5 hc | h_6 hc =>
    exact rereads_fixed (fun hz => rereads_some [(22, 4), (21, 1)] [(26, 6), (16, 5), (0, 16)] rfl hw rfl ⟨hM, hc, hz, trivial⟩) (rereads_none w)
  case h_7 hc =>
    refine rereads_fixed (fun hz => rereads_some [(22, 4), (21, 1), (13, 3), (5, 8)] [(26, 6), (16, 5), (0, 5)] rfl hw rfl ⟨hM, hc, hz, trivial⟩) ?_
    exact rereads_fixed (fun hz => rereads_some [(22, 4), (21, 1), (13, 3), (5, 8)] [(26, 6), (16, 5), (0, 5)] rfl hw rfl ⟨hM, hc, hz, trivial⟩) (rereads_none w)
  next => exact rereads_none w

theorem rereads_decodeMaj38 {w : Nat} (hw : w < 2 ^ 32) (hM : w / 2 ^ 26 % 64 = 56) : Rereads w (decodeMaj38 w) := by
  unfold decodeMaj38
  split
  case h_1 hc | h_2 hc | h_3 hc | h_4 hc | h_5 hc | h_6 hc | h_7 hc | h_8 hc | h_9 hc =>
    exact rereads_fixed (fun hz => rereads_some [(22, 4), (21, 1), (15, 6), (3, 8)] [(26, 6), (11, 4), (0, 3)] rfl hw rfl ⟨hM, hc, hz, trivial⟩) (rereads_none w)
  next => exact rereads_none w

theorem rereads_decodeMaj39 {w : Nat} (hw : w < 2 ^ 32) (hM : w / 2 ^ 26 % 64 = 57) : Rereads w (decodeMaj39 w) := by
  unfold decodeMaj39
  split
  case h_1 hc | h_2 hc | h_3 hc | h_5 hc =>
    exact rereads_some [(22, 4), (21, 1), (13, 8), (5, 8)] [(26, 6), (0, 5)] rfl hw rfl ⟨hM, hc, trivial⟩
  case h_4 hc =>
    exact rereads_fixed (fun hz => rereads_some [(22, 4), (21, 1), (5, 8)] [(26, 6), (0, 5), (13, 8)] rfl hw rfl ⟨hM, hc, hz, trivial⟩) (rereads_none w)
  next => exact rereads_none w

theorem rereads_decodeMaj3A {w : Nat} (hw : w < 2 ^ 32) (hM : w / 2 ^ 26 % 64 = 58) : Rereads w (decodeMaj3A w) := by
  unfold decodeMaj3A
  split
  case h_1 hc | h_2 hc | h_6 hc =>
    exact rereads_fixed (fun hz => rereads_some [(22, 4), (21, 1), (17, 4), (4, 8)] [(26, 6), (12, 5), (0, 4)] rfl hw rfl ⟨hM, hc, hz, trivial⟩) (rereads_none w)
  case h_3 hc | h_4 hc =>
    exact rereads_some [(22, 4), (21, 1), (17, 4), (4, 8), (0, 4)] [(26, 6), (12, 5)] rfl hw rfl ⟨hM, hc, trivial⟩
  case h_5 hc =>
    exact rereads_fixed (fun hz => rereads_some [(22, 4), (21, 1), (17, 4)] [(26, 6), (12, 5), (0, 12)] rfl hw rfl ⟨hM, hc, hz, trivial⟩) (rereads_none w)
  next => exact rereads_none w

theorem rereads_decodeMaj3B {w : Nat} (hw : w < 2 ^ 32) (hM : w / 2 ^ 26 % 64 = 59) : Rereads w (decodeMaj3B w) := by
  unfold decodeMaj3B
  split
  case h_1 hc | h_2 hc =>
    exact rereads_some [(22, 4), (21, 1), (8, 8), (0, 8)] [(26, 6), (16, 5)] rfl hw rfl ⟨hM, hc, trivial⟩
  case h_3 hc | h_4 hc =>
    exact rereads_fixed (fun hz => rereads_some [(22, 4), (21, 1), (8, 8)] [(26, 6), (16, 5), (0, 8)] rfl hw rfl ⟨hM, hc, hz, trivial⟩) (rereads_none w)
  next => exact rereads_none w

theorem rereads_decodeMaj3C {w : Nat} (hw : w < 2 ^ 32) (hM : w / 2 ^ 26 % 64 = 60) : Rereads w (decodeMaj3C w) := by
  unfold decodeMaj3C
  split
  case h_1 hc | h_2 hc | h_3 hc =>
    exact rereads_fixed_and (fun hz hz' => rereads_some [(22, 4), (21, 1), (5, 8)] [(26, 6), (16, 5), (13, 3), (0, 5)] rfl hw rfl ⟨hM, hc, hz, hz', trivial⟩) (rereads_none w)
  next => exact rereads_none w

theorem rereads_decodeMaj3D {w : Nat} (hw : w < 2 ^ 32) (hM : w / 2 ^ 26 % 64 = 61) : Rereads w (decodeMaj3D w) := by
  unfold decodeMaj3D
  split
  case h_1 hc | h_2 hc | h_3 hc =>
    exact rereads_some [(22, 4), (21, 1), (15, 6), (3, 8), (2, 1), (0, 2)] [(26, 6), (11, 4)] rfl hw rfl ⟨hM, hc, trivial⟩
  next => exact rereads_none w

theorem rereads_decodeMaj3E {w : Nat} (hw : w < 2 ^ 32) (hM : w / 2 ^ 26 % 64 = 62) : Rereads w (decodeMaj3E w) := by
  unfold decodeMaj3E
  split
  case h_1 hc =>
    exact rereads_fixed_and (fun hz hz' => rereads_some [(22, 4), (21, 1), (13, 2), (5, 8)] [(26, 6), (16, 5), (15, 1), (0, 5)] rfl hw rfl ⟨hM, hc, hz, hz', trivial⟩) (rereads_none w)
  case h_2 hc | h_3 hc | h_4 hc =>
    exact rereads_fixed_and (fun hz hz' => rereads_some [(22, 4), (21, 1), (5, 8)] [(26, 6), (16, 5), (13, 3), (0, 5)] rfl hw rfl ⟨hM, hc, hz, hz', trivial⟩) (rereads_none w)
  next => exact rereads_none w

theorem rereads_decodeMaj3F {w : Nat} (hw : w < 2 ^ 32) (hM : w / 2 ^ 26 % 64 = 63) : Rereads w (decodeMaj3F w) := by
  unfold decodeMaj3F
  split
  case h_1 hc =>
    exact rereads_fixed (fun hz => rereads_some [(0, 19)] [(26, 6), (19, 2), (21, 5)] rfl hw rfl ⟨hM, hc, hz, trivial⟩) (rereads_none w)
  case h_2 hc =>
    exact rereads_fixed_and (fun hz hz' => rereads_some [(10, 1), (9, 1), (8, 1), (6, 2), (0, 6)] [(26, 6), (19, 2), (21, 5), (11, 8)] rfl hw rfl ⟨hM, hc, hz, hz', trivial⟩) (rereads_none w)
  case h_3 hc =>
    exact rereads_fixed_and (fun hz hz' => rereads_some [(0, 4)] [(26, 6), (19, 2), (21, 5), (4, 15)] rfl hw rfl ⟨hM, hc, hz, hz', trivial⟩) (rereads_none w)
  next => exact rereads_none w

/-- The instruction that a word decodes to is encoded by that word. -/
theorem rereads_decodeNat {w : Nat} (hw : w < 2 ^ 32) : Rereads w (decodeNat w) := by
  unfold decodeNat
  split
  next hM => exact rereads_decodeMaj38 hw hM
  next hM => exact rereads_decodeMaj39 hw hM
  next hM => exact rereads_decodeMaj3A hw hM
  next hM => exact rereads_decodeMaj3B hw hM
  next hM => exact rereads_decodeMaj3C hw hM
  next hM => exact rereads_decodeMaj3D hw hM
  next hM => exact rereads_decodeMaj3E hw hM
  next hM => exact rereads_decodeMaj3F hw hM
  unfold decodeLow
  split
  next hM => exact rereads_decodeMaj01 hw hM
  next hM => exact rereads_decodeMaj02 hw hM
  next hM => exact rereads_decodeMaj03 hw hM
  next hM => exact rereads_decodeMaj04 hw hM
  next hM => exact rereads_decodeMaj05 hw hM
  next hM => exact rereads_decodeMaj06 hw hM
  next hM => exact rereads_decodeMaj07 hw hM
  next hM => exact rereads_decodeMaj08 hw hM
  next hM => exact rereads_decodeMaj09 hw hM
  next hM => exact rereads_decodeMaj0A hw hM
  next hM => exact rereads_decodeMaj0B hw hM
  next hM => exact rereads_decodeMaj0C hw hM
  next hM => exact rereads_decodeMaj0D hw hM
  next hM => exact rereads_decodeMaj0E hw hM
  next hM => exact rereads_decodeMaj0F hw hM
  next hM => exact rereads_decodeMaj10 hw hM
  next hM => exact rereads_decodeMaj11 hw hM
  next hM => exact rereads_decodeMaj12 hw hM
  next hM => exact rereads_decodeMaj13 hw hM
  next hM => exact rereads_decodeMaj14 hw hM
  next hM => exact rereads_decodeMaj15 hw hM
  next hM => exact rereads_decodeMaj16 hw hM
  next hM => exact rereads_decodeMaj17 hw hM
  next hM => exact rereads_decodeMaj18 hw hM
  next hM => exact rereads_decodeMaj19 hw hM
  next hM => exact rereads_decodeMaj1A hw hM
  next hM => exact rereads_decodeMaj1B hw hM
  next hM => exact rereads_decodeMaj1C hw hM
  next hM => exact rereads_decodeMaj1D hw hM
  next hM => exact rereads_decodeMaj1E hw hM
  next hM => exact rereads_decodeMaj20 hw hM
  next hM => exact rereads_decodeMaj21 hw hM
  next hM => exact rereads_decodeMaj22 hw hM
  next hM => exact rereads_decodeMaj23 hw hM
  next hM => exact rereads_decodeMaj24 hw hM
  next hM => exact rereads_decodeMaj25 hw hM
  next hM => exact rereads_decodeMaj26 hw hM
  next hM => exact rereads_decodeMaj27 hw hM
  next hM => exact rereads_decodeMaj28 hw hM
  next hM => exact rereads_decodeMaj29 hw hM
  next hM => exact rereads_decodeMaj2A hw hM
  next hM => exact rereads_decodeMaj2B hw hM
  next hM => exact rereads_decodeMaj2C hw hM
  next hM => exact rereads_decodeMaj2D hw hM
  next hM => exact rereads_decodeMaj2E hw hM
  next hM => exact rereads_decodeMaj2F hw hM
  next hM => exact rereads_decodeMaj30 hw hM
  next hM => exact rereads_decodeMaj31 hw hM
  next hM => exact rereads_decodeMaj32 hw hM
  next hM => exact rereads_decodeMaj34 hw hM
  next hM => exact rereads_decodeMaj35 hw hM
  next => exact rereads_none w

end Sys2Proof.Machine
open Sys2Proof Sys2Proof.Machine

/-- Settles O4: the word of an instruction has the code of its constant, and the operands in its fields. -/
theorem decodeInvertsEncode : Obligations.DecodeInvertsEncode := fun i w _ hi => decodeNat_encodeNat i w hi

/-- Settles O5: a word is its code and the operands in its fields. -/
theorem encodeInvertsDecode : Obligations.EncodeInvertsDecode := fun _ i hw h => rereads_decodeNat hw i h
end

/-! PROOFS. What every encoded instruction has in common at issue (R86, R92, R93, R96), and what a hint does. -/
section
namespace Sys2Proof.Machine

/-! ## Prefixes -/

/-- An instruction that is no hint issues in a form, which says whether XIMM and LA may stand before it. -/
structure IssuesAs (i : Instr) (f : Form) (g : BitVec 4) (n : BitVec 1) (op : Slot → Op) : Prop where
  runs : ∀ s, exec i s = issued f g n op s
  ximm : takesXimm i = f.ximm
  la   : takesLa i = f.la

/-- Every encoded instruction that is no hint issues, with prefixes as R93 and R96 give them. -/
theorem issuesAs_of_encoded {i : Instr} (hi : encodeNat i ≠ none) (hh : hintRule i = none) : ∃ f g n op, IssuesAs i f g n op := by
  cases i with
  | ximm | rep | la => cases hh
  | mma g n t f => exact ⟨_, _, _, _, fun _ => rfl, by split <;> rfl, by split <;> rfl⟩
  | vadd | vsub | vsubr | vminS | vmaxS | vminU | vmaxU | vadifS | vand | vor | vxor | vandn | vshl | vshrU | vshrS | vrotl | vmul | vmulhS | vmulhU |
    vmad | vaddsS | vsubsS | vaddsU | vsubsU | vpopc | vclz | vbrev | vbfeU | vbfeS | vbfi | vpermb | vmov | vfadd | vfsub | vfmul | vfma | vfnma |
    vfmin | vfmax | vfcpys | vhadd2 | vhsub2 | vhmul2 | vhfma2 | vhmin2 | vhmax2 | vcvtF32Si32 | vcvtF32Ui32 | vcvtSi32F32 | vcvtUi32F32 | vfrint |
    vcvtF32Bf16 | vcvtF32E4m3 | vcvtF32E5m2 | vcvtBf16F32 | vcvtE4m3F32 | vcvtE5m2F32 | vfclass | vfgetexp | vfscaleb | vrcp | vrsq | vsqrt | vexp2 |
    vlog2 | vsinpi | vcospi | vtanh | vcmpI | vcmpF | pand | por | pxor | pandn | pnot | pmov | pset | pclr | vrank | shflIdx | shflXor | shflUp |
    shflDn | sadd | ssub | ssubr | smul | smulhS | smulhU | sdivS | sdivU | sremS | sremU | sand | sor | sxor | sandn | sshl | sshrU | sshrS | sminS |
    smaxS | sminU | smaxU | smov | spopc | sclz | sseq | ssne | ssltS | ssltU | saddW | ssubW | smovp | pmovs | sfadd | sfsub | sfmul | sfdiv | sfsqrt
    | sfrcp | sfrsq | sfmin | sfmax | scvtF32Si32 | scvtF32Ui32 | scvtSi32F32 | scvtUi32F32 | scvtSi32F32Rn | sflt | sfle | sfeq | smovi | saddi | srd
    | swr | agetb | agets | agetw | lds | ldsW | ldsQ | ldsO | ldp | ldls | aadd | asub | amul | ashl | aset | alane | aneg | amov | acmp | bra | brz
    | brnz | call | nop | exit | ret | callr | brx | yield | loopx | wspill | wfill | bkpt | trap | rte | svc | xpcr | xpcw | loop | sfromv | sfirst |
    sunif | afromv | sredaddSi32 | sredaddF32 | sredminSi32 | sredmaxSi32 | ldg | ldgW | ldgQ | stg | stgW | stgQ | ldl | ldlW | ldlQ | stl | stlW |
    stlQ | ldgU8 | ldgS8 | ldgU16 | ldgS16 | stgB8 | stgB16 | ldlU8 | ldlS8 | ldlU16 | ldlS16 | stlB8 | stlB16 | pfg | atomg | atoml | atoms | fence |
    rel | acq | acqRmt | wdrain | l1wb | l1inv | leaseSet | leaseMeas | leaseGet | barv | bwait | bsync | barvn | btest | gmask | gqry | gsave | gload
    | mzero | mldt | mstt | mrowv | mwait | mfence | mdesc | mdescGet | cpyLin | cpyLinw | cpyT2d | cpyT2dw | cpyXpnd | cpyGath | cpyScat | cpyL2l |
    cpyFill | twaitany | twaitall | tfind | tclr | tstat | rput | rget | rputNb | rgetNb | rclose | rstat | hgive | hrecv | hqry | hdrop | klaunch |
    kwait | kquota | crs | cag | car | mkdown | mkget | trmark | clkrd =>
    exact ⟨_, _, _, _, fun _ => rfl, rfl, rfl⟩
  | _ => exact absurd rfl hi

/-- A hint attached that the form does not allow (R92, R93, R96). -/
theorem prefixesOk_false {i : Instr} {f : Form} {s : State} (hx : takesXimm i = f.ximm) (hl : takesLa i = f.la) (h : ¬ Prefixed i s) :
    f.prefixesOk s.slot = false := by
  rw [Bool.eq_false_iff]
  intro hok
  simp only [Form.prefixesOk, Bool.and_eq_true, Bool.or_eq_true, Option.isNone_iff_eq_none] at hok
  obtain ⟨⟨-, hximm⟩, hla⟩ := hok
  exact h ⟨hx ▸ hximm, hl ▸ hla⟩

/-- R86 step 2: an instruction behind a hint that it does not allow raises ILLEGAL, whatever else holds. -/
theorem raises_illegal_prefix {i : Instr} {f : Form} {g : BitVec 4} {n : BitVec 1} {op : Slot → Op} {s : State} {sh : Sheaf}
    (hx : exec i s = issued f g n op s) (hthere : s.sheaf? s.slot.sid = some sh) (hissuing : sh.issuing = true) (hnorep : s.slot.rep = none)
    (hpx : f.prefixesOk s.slot = false) : Raises i s sh (TrapInfo.at cIllegal 0 0 (s.slot.word.setWidth 64)) := by
  have ht : firstTrap f { op (s.here sh g.toNat n.toNat) with ok := (op (s.here sh g.toNat n.toNat)).ok && guardOk g.toNat n.toNat }
      (s.here sh g.toNat n.toNat) sh.begun (s.begun sh) (s.began sh) = some (TrapInfo.at cIllegal 0 0 (s.slot.word.setWidth 64)) := by
    simp only [firstTrap, here_prefixesOk, hpx, Bool.not_false, Bool.or_true, Bool.true_or, if_true, illegalWord, State.here_word]
  unfold Raises
  rw [hx]
  exact congrArg Host.Outcome.next (issue_raises hthere hissuing hnorep rfl rfl ht)

/-! ## Hints (R92) -/

theorem Sheaf.advance_pc (sh : Sheaf) (slot : Slot) {l : Nat} (h : l < 32) :
    (sh.advance slot 0 (fun _ => 0)).pc l = if hasLane (slot.lanes &&& sh.live) l then addrAdd slot.addr 4 else sh.pc l := by
  rw [Sheaf.advance, Sheaf.setPcs_pc _ _ _ h]
  simp [hasLane]

theorem repPayload_eq (b a d : BitVec 1) (st : BitVec 2) (c : BitVec 6) :
    repPayload b a d st c = BitVec.ofNat 19 (c.toNat + 2 ^ 6 * st.toNat + 2 ^ 8 * d.toNat + 2 ^ 9 * a.toNat + 2 ^ 10 * b.toNat) := by
  simp only [repPayload, Nat.mul_comm]

theorem laPayload_eq (l : BitVec 4) : l.setWidth 19 = BitVec.ofNat 19 l.toNat := by
  apply BitVec.eq_of_toNat_eq
  simp

/-- A hint issues: the prefixes it may stand behind, as the model tests them, and what it adds. -/
theorem hint_runs {i : Instr} {legal : Hints → Prop} {add : Hints → Hints} (h : hintRule i = some (legal, add)) :
    ∃ ok : Hints → Bool, (∀ s, exec i s = .next (issueHint ok add s).settle) ∧ ∀ x, ok x = true ↔ legal x := by
  unfold hintRule at h
  split at h <;> cases h
  case h_1 p => exact ⟨_, fun _ => rfl, fun x => by simp⟩
  case h_2 b a d st c =>
    rw [← repPayload_eq]
    exact ⟨_, fun _ => rfl, fun x => by simp [and_assoc]⟩
  case h_3 l =>
    rw [← laPayload_eq]
    exact ⟨_, fun _ => rfl, fun x => by simp⟩

/-- The sheaf after a hint that goes on: its lanes have advanced, and the prefixes stand for them. -/
def Sheaf.hinted (sh : Sheaf) (slot : Slot) (add : Hints → Hints) : Sheaf :=
  { (sh.advance slot 0 (fun _ => 0)) with
    hints := add (if sh.hints.lanes = 0 then { Hints.none with lanes := slot.lanes, first := slot.addr } else sh.hints) }

/-- A legal hint stands for the lanes that issued it. -/
theorem issueHint_attaches {ok : Hints → Bool} {s : State} {sh : Sheaf} (add : Hints → Hints) (hr : Ready s sh) (hok : ok sh.hints = true) :
    issueHint ok add s = s.setSheaf s.slot.sid (sh.hinted s.slot add) := by
  simp only [issueHint, hr.there, hok, hr.noend, Bool.not_true, Bool.or_self, Bool.false_eq_true, if_false, beq_iff_eq, Sheaf.hinted]

/-- A hint out of order raises ILLEGAL at itself. -/
theorem issueHint_traps {ok : Hints → Bool} {s : State} {sh : Sheaf} (add : Hints → Hints) (hr : Ready s sh) (hok : ok sh.hints = false) :
    issueHint ok add s = s.trap { s.slot with group := s.slot.addr } { TrapInfo.at cIllegal 0 0 (s.slot.word.setWidth 64) with reprem := sh.reprem } := by
  simp only [issueHint, hr.there, hok, Bool.not_false, Bool.true_or, if_true, illegalWord]

/-! ## A stray word of the hints' major -/

/-- A word of major 0x3F to which no instruction is assigned. -/
def strayWord : Word := 0xFFFFFFFF

/-- A sheaf whose lanes have issued an XIMM and stand behind it. -/
def prefixedSheaf : Sheaf :=
  { probeSheaf with
    pcv := List.replicate 32 (probeCode + 4), hints := { Hints.none with ximm := some 0, lanes := 0xFFFFFFFF, first := probeCode } }

/-- The machine with that sheaf in its issue slot; its kernel has a trap entry. -/
def strayState : State :=
  (({ State.reset.withFetchWord 32 0 with slot := slotFor 0 (probeCode + 4) 0xFFFFFFFF prefixedSheaf.hints }).setKernel 0
    { probeKernel with desc := { probeKernel.desc with trapent := 0x20000 } }).setSheaf 0 prefixedSheaf

/-- Where lane 0 of sheaf 0 resumes after its trap, in the state that an outcome goes on to. -/
def resumesAt (o : Host.Outcome State Fault Refusal) : Option Addr :=
  match o with
  | .next t => (t.sheaf? 0).bind fun x => x.handler.bind fun h => h.xpc.head?
  | _ => none

theorem strayState_ready : Ready strayState prefixedSheaf := by constructor <;> rfl

/-- A stray word of major 0x3F raises ILLEGAL at itself (R92). -/
theorem strayWord_resumes : resumesAt (exec (.unassignedEncoding strayWord) strayState) = some (probeCode + 4) := rfl

/-- The statement has the trap at the XIMM before it. -/
theorem unassignedSays_resumes : resumesAt (.next ((((strayState.holding strayWord).begun prefixedSheaf).trap
    ((strayState.holding strayWord).here prefixedSheaf 15 0) (TrapInfo.at cIllegal 0 0 (strayWord.setWidth 64))).settle)) = some probeCode := rfl

/-! ## LANE of PARAM_UNBOUND -/

/-- The machine with a sheaf whose kernel has a trap entry. -/
def unboundState : State :=
  (State.reset.withFetchWord 32 0).setKernel 0 { probeKernel with desc := { probeKernel.desc with trapent := 0x20000 } }

/-- An issue slot in which only lane 1 issues. -/
def laneOneSlot : Slot := slotFor 0 probeCode 2 Hints.none

/-- PARAM_UNBOUND, its cause naming no lane. -/
def unboundTrap : TrapInfo := TrapInfo.at cParamUnbound 0 0 0

/-- LANE of the trap that sheaf 0 has entered (R330). -/
def laneEntered (s : State) : Option Nat := (s.sheaf? 0).bind fun x => x.handler.map fun h => field h.tcause.toNat 8 5

/-- The machine names the lowest issuing lane. -/
theorem unboundTrap_lane : laneEntered (unboundState.trap laneOneSlot unboundTrap) = some 1 := rfl

/-- The statement has lane 0, PARAM_UNBOUND being a cause of the whole sheaf there. -/
theorem unboundTrap_laneNamed : laneNamed unboundTrap laneOneSlot = 0 := rfl

end Sys2Proof.Machine
open Sys2Proof Sys2Proof.Machine

/-- Settles O41: the form of every encoded instruction allows the prefixes that R93 and R96 give it and no others. -/
theorem prefixesOutsideTheirTargetsTrap : Obligations.PrefixesOutsideTheirTargetsTrap := by
  intro i w s sh hi hh hthere hissuing hnorep hpx
  obtain ⟨f, g, n, op, ha⟩ := issuesAs_of_encoded (by rw [hi]; exact Option.some_ne_none w) hh
  exact raises_illegal_prefix (ha.runs s) hthere hissuing hnorep (prefixesOk_false ha.ximm ha.la hpx)

/-- Settles O40: a hint tests the prefixes that its rule names, and adds its own to them or traps. -/
theorem hintsAttachAsStated : Obligations.HintsAttachAsStated := by
  intro i legal add s sh hrule hr
  obtain ⟨ok, hruns, hok⟩ := hint_runs hrule
  constructor
  · intro hl
    refine ⟨sh.hinted s.slot add, ?_, fun l h => Sheaf.advance_pc sh s.slot h, rfl, rfl⟩
    rw [hruns, issueHint_attaches add hr ((hok _).mpr hl)]
  · intro hl
    rw [hruns, issueHint_traps add hr (Bool.eq_false_iff.mpr fun h => hl ((hok _).mp h))]

/-- Refutes O6: in `strayState`, behind an XIMM, a word of major 0x3F without an instruction raises ILLEGAL at itself, as R92 has it, and not at
the XIMM where the statement has the lanes resume. -/
theorem not_unassignedWordsTrap : ¬ Obligations.UnassignedWordsTrap := by
  unfold Obligations.UnassignedWordsTrap
  rintro ⟨hsays, -⟩
  have hruns : exec (.unassignedEncoding strayWord) strayState = _ := hsays strayWord strayState prefixedSheaf strayState_ready
  have hsame : some (probeCode + 4) = some probeCode := by rw [← strayWord_resumes, hruns, unassignedSays_resumes]
  exact absurd hsame (by decide)

/-- Refutes O44: where lane 1 alone issues, PARAM_UNBOUND names it in LANE; the statement counts cause 17 among those of the whole sheaf, with LANE
0. -/
theorem not_trapsEnterTheHandler : ¬ Obligations.TrapsEnterTheHandler := by
  unfold Obligations.TrapsEnterTheHandler
  intro h
  obtain ⟨sh', hsheaf, hentered, -⟩ := h unboundState laneOneSlot unboundTrap probeSheaf rfl rfl (by decide)
  obtain ⟨x, hx, -, -, -, -, -, -, htcause⟩ := hentered.saved
  obtain ⟨-, hlane, -, -⟩ := htcause (by decide) (by decide) (by decide)
  have hsheaf' : (unboundState.trap laneOneSlot unboundTrap).sheaf? 0 = some sh' := hsheaf
  have hmodel := unboundTrap_lane
  rw [laneEntered, hsheaf', Option.bind_some, hx, Option.map_some, hlane, unboundTrap_laneNamed] at hmodel
  exact absurd hmodel (by decide)
end

/-! PROOFS. Copies and collectives (R197, R201, R348, R349), and stage rings (R209 to R212). -/
section
namespace Sys2Proof.Machine

/-! ## Tags (R206, R207) -/

theorem Tag.onIssue_eq (x : Tag) : x.onIssue = x.entered := by
  unfold Tag.onIssue Tag.entered
  by_cases h : x.count = 0
  · simp [h, Tag.zero]
  · simp [h]

theorem tagLegal_false {tag : Nat} {s : State} {sh : Sheaf} (h : ¬ ofTag tag s sh) : tagLegal tag sh s = false := by
  cases ht : s.tuft? sh.tid with
  | none => simp [tagLegal, ht]
  | some t =>
    have hlt : ¬ tag < t.tags.length := fun hlt => h ⟨t, ht, hlt⟩
    simp [tagLegal, ht, hlt]

/-! ## Descriptor registers (R197) -/

theorem map_readU_span (sh : Sheaf) (b : BitVec 8) (k : Nat) : (span (uIndex b.toNat) k).map sh.readU = sh.wordsFrom b k := by
  simp only [span, uIndex, List.map_map, Sheaf.wordsFrom, Function.comp_def]

theorem marks_span (sh : Sheaf) (b : BitVec 8) (k : Nat) : marks ((span (uIndex b.toNat) k).map (fun r => (sh.ureg r).mark)) = sh.marksFrom b k := by
  simp only [span, uIndex, List.map_map, Sheaf.marksFrom, Function.comp_def]

/-! ## Copies (R197, R201) -/

/-- CPY: what the rule says of it is what its body does. -/
theorem cpyAct_of_outcome {kind : CopyKind} {tag : BitVec 6} {b : BitVec 8} {s : State} {slot : Slot} {sh : Sheaf} {a : Act}
    (h : cpyOutcome kind kind.regs tag b s slot sh = some a) : cpyAct kind tag.toNat b.toNat slot sh s = a := by
  obtain ⟨t, ht, rfl⟩ := Option.map_eq_some_iff.mp h
  simp only [cpyAct, ht, Tuft.tag, map_readU_span, marks_span, funext Tag.onIssue_eq, State.sliceSends, Bool.or_eq_true, decide_eq_true_eq]

/-- A copy issues with the body that the table describes. -/
theorem copy_acts {i : Instr} {kind : CopyKind} {k : Nat} {g : BitVec 4} {n : BitVec 1} {tag : BitVec 6} {b : BitVec 8} {s : State} {sh : Sheaf}
    (hruns : exec i s = issued (formCopy kind) g n (cpyOp kind tag.toNat b.toNat) s) (hk : k = kind.regs) (hg : guardOk g.toNat n.toNat = true)
    (hximm : takesXimm i = (kind == .xpnd)) (hla : takesLa i = false) (hok : ∀ slot, (cpyOp kind tag.toNat b.toNat slot).ok = true)
    (hlegal : ofTag tag.toNat (s.begun sh) sh.begun) : ∃ f op, Acts i (.copy g n kind k tag b) f op s sh := by
  subst hk
  exact ⟨_, _, hruns, hg, hximm, hla, fun h => (by cases h), rfl, rfl, rfl, hok _, tagLegal_of_ofTag hlegal, rfl, fun _ h => cpyAct_of_outcome h⟩

/-! ## Collectives (R348, R349) -/

/-- CRS, CAG, CAR: what the rule says of them is what their body does. -/
theorem collAct_of_outcome {kind x : Nat} {tag : BitVec 6} {b : BitVec 8} {s : State} {slot : Slot} {sh : Sheaf} {a : Act}
    (h : collOutcome kind x tag b s slot sh = some a) : collAct kind tag.toNat b.toNat x slot sh s = a := by
  obtain ⟨t, ht, rfl⟩ := Option.map_eq_some_iff.mp h
  simp only [collAct, ht, Tuft.tag, map_readU_span, marks_span, funext Tag.onIssue_eq, State.partSends, Slice.collRoom, Bool.or_eq_true,
    Bool.not_eq_true', decide_eq_true_eq, decide_eq_false_iff_not, Nat.not_lt]
  split
  · rfl
  · split
    · rfl
    · split
      · next hdesc => rw [Bool.eq_false_iff] at hdesc; rw [if_neg hdesc]; rfl
      · next hdesc => rw [Bool.not_eq_false] at hdesc; rw [if_pos hdesc]

/-- A collective issues with the body that the table describes. -/
theorem coll_acts {i : Instr} {kind : Nat} {g : BitVec 4} {n : BitVec 1} {tag : BitVec 6} {b : BitVec 8} {c : BitVec 1} {y : BitVec 2} {s : State} {sh : Sheaf}
    (hruns : exec i s = issued (formCopy .lin) g n (collOp kind tag.toNat b.toNat c.toNat y.toNat) s) (hg : guardOk g.toNat n.toNat = true)
    (hximm : takesXimm i = false) (hla : takesLa i = false) (hok : ∀ slot, (collOp kind tag.toNat b.toNat c.toNat y.toNat slot).ok = true)
    (hlegal : ofTag tag.toNat (s.begun sh) sh.begun) :
    ∃ f op, Acts i { g := g, n := n, role := .copy, legal := ofTag tag.toNat, outcome := collOutcome kind (4 * c.toNat + y.toNat) tag b } f op s sh :=
  ⟨_, _, hruns, hg, hximm, hla, fun h => (by cases h), rfl, rfl, rfl, hok _, tagLegal_of_ofTag hlegal, rfl, fun _ h => collAct_of_outcome h⟩

theorem command_acts {i : Instr} {r : ActRule} {s : State} {sh : Sheaf} (hrule : commandRule i = some r) (hwf : i.wf = true)
    (hlegal : r.legal (s.begun sh) sh.begun) : ∃ f op, Acts i r f op s sh := by
  unfold commandRule at hrule
  split at hrule <;> cases hrule
  case h_1 | h_2 | h_3 | h_4 | h_5 | h_6 | h_7 | h_8 | h_9 =>
    obtain ⟨hg, hok⟩ := Bool.and_eq_true_iff.mp hwf
    exact copy_acts rfl rfl hg rfl rfl (fun _ => hok) hlegal
  case h_10 g n t b c y | h_12 g n t b c y =>
    obtain ⟨hgb, hy⟩ := Bool.and_eq_true_iff.mp hwf
    obtain ⟨hg, hb⟩ := Bool.and_eq_true_iff.mp hgb
    exact coll_acts rfl hg rfl rfl (fun _ => collOp_ok hb hy rfl) hlegal
  case h_11 g n t b c y =>
    obtain ⟨hgby, hc⟩ := Bool.and_eq_true_iff.mp hwf
    obtain ⟨hgb, hy⟩ := Bool.and_eq_true_iff.mp hgby
    obtain ⟨hg, hb⟩ := Bool.and_eq_true_iff.mp hgb
    have hrank : (!((1 : Nat) == 1 && c.toNat == 1)) = true := by rw [eq_of_beq hc]; rfl
    exact coll_acts rfl hg rfl rfl (fun _ => collOp_ok hb hy hrank) hlegal

/-- A tag beyond the tuft's allotment is illegal (R206). -/
theorem command_forbids {i : Instr} {r : ActRule} (s : State) (sh : Sheaf) (hrule : commandRule i = some r) : ∃ f op, Forbids i r f op s sh := by
  unfold commandRule at hrule
  split at hrule <;> cases hrule
  all_goals exact ⟨_, _, rfl, tagLegal_false⟩

/-! ## Rings (R209, R210) -/

theorem ringLegal_of_ofRing {r : BitVec 4} {s : State} {sh : Sheaf} (h : ofRing r s sh) : ringLegal r.toNat sh s = true := by
  obtain ⟨t, ht, hlt⟩ := h
  simp [ringLegal, ht, hlt]

theorem ringLegal_false {r : BitVec 4} {s : State} {sh : Sheaf} (h : ¬ ofRing r s sh) : ringLegal r.toNat sh s = false := by
  cases ht : s.tuft? sh.tid with
  | none => simp [ringLegal, ht]
  | some t =>
    have hlt : ¬ r.toNat < t.rings.length := fun hlt => h ⟨t, ht, hlt⟩
    simp [ringLegal, ht, hlt]

/-- A ring of the sheaf's tuft. -/
structure RingAt (s : State) (sh : Sheaf) (r : Nat) (t : Tuft) (y : Ring) : Prop where
  tuft : s.tuft? sh.tid = some t
  ring : t.rings[r]? = some y

theorem ringAt_of_withRing {s : State} {sh : Sheaf} {r : BitVec 4} {f : Tuft → Ring → Act} {a : Act} (h : withRing s sh r f = some a) :
    ∃ t y, RingAt s sh r.toNat t y ∧ f t y = a := by
  obtain ⟨t, ht, h⟩ := Option.bind_eq_some_iff.mp h
  obtain ⟨y, hy, h⟩ := Option.map_eq_some_iff.mp h
  exact ⟨t, y, ⟨ht, hy⟩, h⟩

theorem RingAt.ringOf? {s : State} {sh : Sheaf} {r : Nat} {t : Tuft} {y : Ring} (h : RingAt s sh r t y) : s.ringOf? sh r = some y := by
  simp only [State.ringOf?, h.tuft, Option.bind_some, h.ring]

/-- What a put meets (R210). -/
theorem putMeets_eq {s : State} {sh : Sheaf} {r : Nat} {t : Tuft} {y : Ring} (h : RingAt s sh r t y) (poison closed full go : Act) :
    putMeets s sh t r y poison closed full go =
      match s.putOutcome sh r with | .poison => poison | .closed => closed | .wait => full | .go => go := by
  simp only [putMeets, State.putOutcome, h.tuft, h.ring, Nat.succ_le_iff]
  cases y.poisoned
  · cases (sh.closed.contains r || s.ringClosed t r y || !s.ringHeard t y)
    · by_cases hfull : y.slots < y.tokens.length <;> simp [hfull]
    · simp
  · simp

/-- What a get meets (R210). -/
theorem getMeets_eq {s : State} {sh : Sheaf} {r : Nat} {t : Tuft} {y : Ring} (h : RingAt s sh r t y) (poison closed empty : Act)
    {go : Word → Mark → Act} {take : Act} (hgo : ∀ x rest, y.tokens = x :: rest → go x.1 x.2 = take) :
    getMeets s t r y poison closed empty go =
      match s.getOutcome sh r with | .poison => poison | .closed => closed | .wait => empty | .go => take := by
  simp only [getMeets, State.getOutcome, h.tuft, h.ring]
  cases y.poisoned
  · cases htokens : y.tokens with
    | nil => cases s.ringClosed t r y <;> simp
    | cons x rest => simp [hgo x rest htokens]
  · simp

/-- A ring instruction of a role set (R211). -/
theorem ringOp_body {ok : Bool} {r : Nat} {uses : List Nat} {roles : Ring → Option (BitVec 4)} {body : Slot → Sheaf → Ring → State → Act}
    {s : State} {slot slot' : Slot} {sh : Sheaf} {t : Tuft} {y : Ring} {set : BitVec 4} {a : Act} (h : RingAt s sh r t y) (hroles : roles y = some set)
    (hbody : body slot sh y s = a) : (ringOp ok r uses roles body slot').body slot sh s = inRole slot s set sh a := by
  simp only [ringOp, h.ringOf?, hroles, hbody]
  rfl

/-! ## Tokens (R211, R212) -/

/-- A sheaf that issues, with nothing in flight. -/
structure Idle (s : State) (sid : Nat) (sh : Sheaf) : Prop where
  there   : s.sheaf? sid = some sh
  issuing : sh.issuing = true
  nopend  : sh.pend = []
  nomops  : sh.mops = []

theorem idle_of_ready {s : State} {sh : Sheaf} (hr : Ready s sh) (g n : Nat) : Idle (s.begun sh) (s.here sh g n).sid sh.begun :=
  ⟨by rw [State.here_sid, State.begun, State.setSheaf_sheaf?], hr.issuing, hr.nopend, hr.nomops⟩

theorem drainLocal_idle {s : State} {sid : Nat} {sh : Sheaf} (h : Idle s sid sh) : s.drainLocal sid = s := by
  simp [State.drainLocal, h.there, h.nomops]

/-- A CORE-scope release of a sheaf with nothing in flight sends nothing (R171). -/
theorem releaseStart_idle {s : State} {sid : Nat} {sh : Sheaf} (h : Idle s sid sh) : s.releaseStart sid 1 = s := by
  simp only [State.releaseStart, drainLocal_idle h, State.forceResults_none h.there h.nopend]
  rfl

theorem ended_idle {s : State} {sid : Nat} {sh : Sheaf} (h : Idle s sid sh) : s.ended sid = false := by
  simp only [State.ended, h.there, Sheaf.over_of_issuing h.issuing]

/-- A put that succeeds (R211, R212). -/
theorem putNow_idle {s : State} {slot : Slot} {sh : Sheaf} (h : Idle s slot.sid sh) (r : BitVec 4) {x : BitVec 8} (hx : isU x.toNat = true)
    (after : State → State) : s.putNow slot.sid r.toNat x.toNat after = tokenIn s slot sh r x after := by
  have hx : 64 ≤ x.toNat := by simp only [isU, Bool.and_eq_true, decide_eq_true_eq] at hx; omega
  simp only [State.putNow, tokenIn, releaseStart_idle h, ended_idle h, Bool.false_eq_true, if_false, State.putToken, h.there, readUB_eq,
    operandMark_uniform sh hx]

/-- What a ring becomes depends on what it holds alone. -/
theorem modRing_congr {s : State} {sh : Sheaf} {r : Nat} {t : Tuft} {y : Ring} (h : RingAt s sh r t y) {f g : Ring → Ring} (hfg : f y = g y) :
    s.modRing sh.tid r f = s.modRing sh.tid r g := by
  simp only [State.modRing, State.modTuft, h.tuft]
  congr 2
  refine List.map_congr_left fun e he => ?_
  obtain ⟨k, hk, rfl⟩ := List.mem_iff_getElem.mp he
  simp only [List.getElem_zip, List.getElem_range]
  by_cases hr : k = r
  · obtain ⟨hlt, hget⟩ := List.getElem?_eq_some_iff.mp h.ring
    subst hr
    simp only [hget, hfg]
  · simp [hr]

/-- A get that succeeds (R211, R212). -/
theorem getToken_idle {s : State} {slot : Slot} {sh : Sheaf} {r : BitVec 4} {t : Tuft} {ring : Ring} (h : Idle s slot.sid sh)
    (hring : RingAt s sh r.toNat t ring) (b : BitVec 8) {x : Word × Mark} {rest : List (Word × Mark)} (htokens : ring.tokens = x :: rest) :
    s.getToken slot.sid r.toNat b.toNat ring = tokenOut s slot sh r b x.1 x.2 := by
  have hdrop := modRing_congr hring (f := fun y => { y with tokens := rest }) (g := fun y => { y with tokens := y.tokens.drop 1 }) (by simp [htokens])
  simp only [State.getToken, tokenOut, htokens, h.there, hdrop]
  rfl

/-! ## Ring instructions (R211) -/

/-- A put: what its body does with what it meets is what the rule says (R210). -/
theorem put_body {ok : Bool} {uses : List Nat} {s : State} {slot slot' : Slot} {sh : Sheaf} {r : BitVec 4} {x : BitVec 8} {full a : Act}
    {after : State → State} (h : Idle s slot.sid sh) (hx : isU x.toNat = true)
    (ha : withRing s sh r (fun t y => inRole slot s y.prod sh (
      putMeets s sh t r.toNat y (ringStop cRingPoison r s) (ringStop cRingClosed r s) full (tokenIn s slot sh r x after))) = some a)
    {body : Slot → Sheaf → Ring → State → Act}
    (hbody : ∀ y, body slot sh y s = match s.putOutcome sh r.toNat with
      | .poison => .trap (ringTrap cRingPoison r.toNat) s
      | .closed => .trap (ringTrap cRingClosed r.toNat) s
      | .wait => full
      | .go => s.putNow slot.sid r.toNat x.toNat after) :
    (ringOp ok r.toNat uses (fun y => some y.prod) body slot').body slot sh s = a := by
  obtain ⟨t, y, hring, rfl⟩ := ringAt_of_withRing ha
  refine ringOp_body hring rfl ?_
  rw [hbody, putNow_idle h r hx, putMeets_eq hring]
  rfl

/-- A get: what its body does with what it meets is what the rule says (R210). -/
theorem get_body {ok : Bool} {uses : List Nat} {s : State} {slot slot' : Slot} {sh : Sheaf} {r : BitVec 4} {x : BitVec 8} {closed empty a : Act}
    {after : State → State} (h : Idle s slot.sid sh)
    (ha : withRing s sh r (fun t y => inRole slot s y.cons sh (
      getMeets s t r.toNat y (ringStop cRingPoison r s) closed empty (fun w m => .next (after (tokenOut s slot sh r x w m))))) = some a)
    {body : Slot → Sheaf → Ring → State → Act}
    (hbody : ∀ y, body slot sh y s = match s.getOutcome sh r.toNat with
      | .poison => .trap (ringTrap cRingPoison r.toNat) s
      | .closed => closed
      | .wait => empty
      | .go => .next (after (s.getToken slot.sid r.toNat x.toNat y))) :
    (ringOp ok r.toNat uses (fun y => some y.cons) body slot').body slot sh s = a := by
  obtain ⟨t, y, hring, rfl⟩ := ringAt_of_withRing ha
  refine ringOp_body hring rfl ?_
  rw [hbody, getMeets_eq hring _ _ _ (take := .next (after (s.getToken slot.sid r.toNat x.toNat y)))
    fun e rest he => by rw [getToken_idle h hring x he]]
  rfl

/-- The word of RSTAT (R211). -/
theorem ringWord_eq {s : State} {sh : Sheaf} {r : Nat} {t : Tuft} {y : Ring} (h : RingAt s sh r t y) :
    s.ringWord sh r y = BitVec.ofNat 32 (y.tokens.length % 128 + y.slots % 64 * 2 ^ 8 +
      (if s.ringClosed t r y = true ∧ y.poisoned = false then 2 ^ 14 else 0) + (if y.poisoned then 2 ^ 15 else 0)) := by
  simp only [State.ringWord, h.tuft, Bool.and_eq_true, Bool.not_eq_true']

theorem ring_acts {i : Instr} {r : ActRule} {s : State} {sh : Sheaf} (hrule : ringRule i = some r) (hwf : i.wf = true) (hr : Ready s sh)
    (hlegal : r.legal (s.begun sh) sh.begun) : ∃ f op, Acts i r f op s sh := by
  unfold ringRule at hrule
  split at hrule <;> cases hrule
  case h_1 g n r x =>
    obtain ⟨hg, hx⟩ := Bool.and_eq_true_iff.mp hwf
    exact ⟨_, _, rfl, hg, rfl, rfl, fun _ => rfl, rfl, rfl, rfl, hx, ringLegal_of_ofRing hlegal, rfl,
      fun _ h => put_body (idle_of_ready hr ..) hx h fun _ => rfl⟩
  case h_2 g n r x =>
    obtain ⟨hg, hx⟩ := Bool.and_eq_true_iff.mp hwf
    exact ⟨_, _, rfl, hg, rfl, rfl, fun _ => rfl, rfl, rfl, rfl, hx, ringLegal_of_ofRing hlegal, rfl,
      fun _ h => get_body (after := id) (idle_of_ready hr ..) h fun _ => rfl⟩
  case h_3 g n r x p =>
    obtain ⟨hgx, hp⟩ := Bool.and_eq_true_iff.mp hwf
    obtain ⟨hg, hx⟩ := Bool.and_eq_true_iff.mp hgx
    exact ⟨_, _, rfl, hg, rfl, rfl, fun _ => rfl, rfl, rfl, rfl, Bool.and_eq_true_iff.mpr ⟨hx, hp⟩, ringLegal_of_ofRing hlegal, rfl,
      fun _ h => put_body (idle_of_ready hr ..) hx h fun _ => rfl⟩
  case h_4 g n r x p =>
    obtain ⟨hgx, hp⟩ := Bool.and_eq_true_iff.mp hwf
    obtain ⟨hg, hx⟩ := Bool.and_eq_true_iff.mp hgx
    exact ⟨_, _, rfl, hg, rfl, rfl, fun _ => rfl, rfl, rfl, rfl, Bool.and_eq_true_iff.mpr ⟨hx, hp⟩, ringLegal_of_ofRing hlegal, rfl,
      fun _ h => get_body (after := fun t => t.answered _ p true) (idle_of_ready hr ..) h fun _ => rfl⟩
  case h_5 g n r =>
    refine ⟨_, _, rfl, hwf, rfl, rfl, fun _ => rfl, rfl, rfl, rfl, rfl, ringLegal_of_ofRing hlegal, rfl, fun _ h => ?_⟩
    obtain ⟨t, y, hring, rfl⟩ := ringAt_of_withRing h
    exact ringOp_body hring rfl rfl
  case h_6 g n r x =>
    obtain ⟨hg, hx⟩ := Bool.and_eq_true_iff.mp hwf
    refine ⟨_, _, rfl, hg, rfl, rfl, fun _ => rfl, rfl, rfl, rfl, hx, ringLegal_of_ofRing hlegal, rfl, fun _ h => ?_⟩
    obtain ⟨t, y, hring, rfl⟩ := ringAt_of_withRing h
    simp only [ringOp, hring.ringOf?, ringWord_eq hring]
    rfl

/-- A ring that the tuft does not declare is illegal (R209). -/
theorem ring_forbids {i : Instr} {r : ActRule} (s : State) (sh : Sheaf) (hrule : ringRule i = some r) : ∃ f op, Forbids i r f op s sh := by
  unfold ringRule at hrule
  split at hrule <;> cases hrule
  all_goals exact ⟨_, _, rfl, ringLegal_false⟩

end Sys2Proof.Machine
open Sys2Proof Sys2Proof.Machine

/-- Settles O34: every copy and collective issues with the body that its table describes, and forbids a tag beyond the tuft's allotment. -/
theorem commands : Obligations.Commands :=
  ⟨actRules_of_acts fun _ _ _ _ hrule hwf _ hlegal => command_acts hrule hwf hlegal,
   illegalTraps_of_forbids fun _ _ s sh hrule => command_forbids s sh hrule⟩

/-- Settles O36: every ring instruction issues with the body that its table describes, nothing being in flight before a put's release, and forbids
a ring that the tuft does not declare. -/
theorem ringInstructions : Obligations.RingInstructions :=
  ⟨actRules_of_acts fun _ _ _ _ hrule hwf hr hlegal => ring_acts hrule hwf hr hlegal,
   illegalTraps_of_forbids fun _ _ s sh hrule => ring_forbids s sh hrule⟩
end

/-! PROOFS. What is in flight (R98, R157, R158, R166, R170, R193, R221): the happenings, and what each leaves. -/
section
namespace Sys2Proof.Machine

/-! ## Stores that leave (R158, R170) -/

theorem sendOldest_eq {s : State} {sid : Nat} {sh : Sheaf} {e : BufEntry} {rest : List BufEntry} (hs : s.sheaf? sid = some sh) (hb : sh.buf = e :: rest) :
    s.sendOldest sid = s.sendEntry sid e := by
  simp only [State.sendOldest, hs, Option.map_some, hb]

theorem happens_storeBufferSend {sid : Nat} {f : Happening} {s t : State} (hf : flightHappening (.storeBufferSend sid) = some f) (ht : f s = some t) :
    exec (.storeBufferSend sid) s = .next t := by
  cases hf
  obtain ⟨sh, hs, ht⟩ := Option.bind_eq_some_iff.mp ht
  split at ht <;> cases ht
  next e rest hb => exact congrArg Host.Outcome.next (sendOldest_eq hs hb)

@[simp] theorem State.forEach_nil {α : Type} (s : State) (f : State → α → State) : s.forEach [] f = s := rfl
@[simp] theorem State.forEach_cons {α : Type} (s : State) (x : α) (xs : List α) (f : State → α → State) :
    s.forEach (x :: xs) f = (f s x).forEach xs f := rfl

/-- A request that leaves its port changes slices alone. -/
theorem State.emit_eq (s : State) (slice dest : Nat) (pkt : LinkPacket) : ∃ xs, s.emit slice dest pkt = { s with slices := xs } := by
  unfold State.emit
  split
  · exact ⟨_, rfl⟩
  · exact ⟨_, rfl⟩

theorem State.ask_eq (s : State) (slice : Nat) (pkt : LinkPacket) : ∃ xs, s.ask slice pkt = { s with slices := xs } := by
  unfold State.ask
  split
  · exact State.emit_eq ..
  · exact ⟨_, rfl⟩

theorem State.depart_eq (s : State) (m : Msg) : ∃ xs, s.depart m = { s with slices := xs } := by
  unfold State.depart
  split
  · exact State.ask_eq ..
  · exact ⟨_, rfl⟩

/-- The send of some bytes of an entry, under a name. -/
def State.leavingMsg (s : State) (sid : Nat) (sh : Sheaf) (id : Nat) (u : BufEntry × Map Byte) : Msg :=
  { id := id, sid := sid, kid := (s.tuft? sh.tid).map Tuft.kid, core := sh.core, part := s.partOf sh, ctx := s.ctxOf sh, paddr := u.1.line * 128,
    bytes := u.2, key := u.1.key, kh := u.1.kh, cls := s.homeClass (s.partOf sh) (sliceOf sh.core) (u.1.line * 128), kind := .write,
    performed := false, result := 0, tries := 0, due := u.1.hidden.filter (fun j => (u.2.find? j).isSome) }

/-- The state with one more send of a sheaf, which counts it (R170). -/
def State.withSend (s : State) (sid : Nat) (sh : Sheaf) (u : BufEntry × Map Byte) : State :=
  { s.setSheaf sid (sh.addCounter (s.homeClass (s.partOf sh) (sliceOf sh.core) (u.1.line * 128)) true) with
    msgs := s.msgs ++ [s.leavingMsg sid sh s.nextId u], nextId := s.nextId + 1 }

/-- A send leaves, and its request may leave a port. -/
theorem State.send_eq {s : State} {sid : Nat} {sh : Sheaf} (h : s.sheaf? sid = some sh) (e : BufEntry) (m : Map Byte) :
    ∃ ys, s.send sid (e.line * 128) m e.kh e.key .write (e.hidden.filter (fun i => (m.find? i).isSome)) =
      { s.withSend sid sh (e, m) with slices := ys } := by
  obtain ⟨ys, hys⟩ := State.depart_eq (s.withSend sid sh (e, m)) (s.leavingMsg sid sh s.nextId (e, m))
  refine ⟨ys, ?_⟩
  simp only [State.send, State.sendFor, h]
  exact hys

/-- Some bytes of a sheaf's buffer have been sent, one stretch after the other; what its buffer still holds. -/
structure Sent (s : State) (sid : Nat) (sh : Sheaf) (xs : List (BufEntry × Map Byte)) (left : List BufEntry) (t : State) (sh' : Sheaf) : Prop where
  mem      : t.mem = s.mem
  tufts    : t.tufts = s.tufts
  kernels  : t.kernels = s.kernels
  parts    : t.parts = s.parts
  there    : t.sheaf? sid = some sh'
  core     : sh'.core = sh.core
  tid      : sh'.tid = sh.tid
  buf      : sh'.buf = left
  msgs     : t.msgs = s.msgs ++ xs.mapIdx (fun i u => s.leavingMsg sid sh (s.nextId + i) u)
  nextId   : t.nextId = s.nextId + xs.length
  cntSlice : sh'.cntSlice = sh.cntSlice + s.ofClass sh xs .slice
  cntPart  : sh'.cntPart = sh.cntPart + s.ofClass sh xs .part
  cntSys   : sh'.cntSys = sh.cntSys + s.ofClass sh xs .sys

theorem sent_none {s : State} {sid : Nat} {sh : Sheaf} (h : s.sheaf? sid = some sh) : Sent s sid sh [] sh.buf s sh :=
  ⟨rfl, rfl, rfl, rfl, h, rfl, rfl, rfl, by simp, rfl, rfl, rfl, rfl⟩

/-- Where a sheaf and the sends of it belong depends on tufts, kernels and partitions. -/
theorem Sent.leavingMsg {s t : State} {sid : Nat} {sh sh' : Sheaf} {xs : List (BufEntry × Map Byte)} {left : List BufEntry}
    (h : Sent s sid sh xs left t sh') (id : Nat) (u : BufEntry × Map Byte) : t.leavingMsg sid sh' id u = s.leavingMsg sid sh id u := by
  simp only [State.leavingMsg, State.partOf, State.ctxOf, State.kernelOf?, State.tuft?, State.kernel?, State.homeClass, State.part?, h.tufts, h.kernels,
    h.parts, h.core, h.tid]

theorem ofClass_append (s : State) (sh : Sheaf) (xs : List (BufEntry × Map Byte)) (u : BufEntry × Map Byte) (c : HomeClass) :
    s.ofClass sh (xs ++ [u]) c = s.ofClass sh xs c + if s.homeClass (s.partOf sh) (sliceOf sh.core) (u.1.line * 128) == c then 1 else 0 := by
  simp only [State.ofClass, List.filter_append, List.length_append]
  split
  · next hc => simp [hc]
  · next hc => simp [hc]

theorem Sheaf.addCounter_core (sh : Sheaf) (c : HomeClass) (up : Bool) : (sh.addCounter c up).core = sh.core := by cases c <;> rfl
theorem Sheaf.addCounter_tid (sh : Sheaf) (c : HomeClass) (up : Bool) : (sh.addCounter c up).tid = sh.tid := by cases c <;> rfl
theorem Sheaf.addCounter_buf (sh : Sheaf) (c : HomeClass) (up : Bool) : (sh.addCounter c up).buf = sh.buf := by cases c <;> rfl

theorem Sheaf.addCounter_up (sh : Sheaf) (c : HomeClass) :
    (sh.addCounter c true).cntSlice = sh.cntSlice + (if c == .slice then 1 else 0) ∧
    (sh.addCounter c true).cntPart = sh.cntPart + (if c == .part then 1 else 0) ∧
    (sh.addCounter c true).cntSys = sh.cntSys + (if c == .sys then 1 else 0) := by
  cases c <;> exact ⟨rfl, rfl, rfl⟩

/-- One more stretch is sent. -/
theorem Sent.send {s t : State} {sid : Nat} {sh sh' : Sheaf} {xs : List (BufEntry × Map Byte)} {left : List BufEntry} (h : Sent s sid sh xs left t sh')
    (e : BufEntry) (m : Map Byte) :
    ∃ x, Sent s sid sh (xs ++ [(e, m)]) left (t.send sid (e.line * 128) m e.kh e.key .write (e.hidden.filter (fun i => (m.find? i).isSome))) x := by
  have hcls : t.homeClass (t.partOf sh') (sliceOf sh'.core) (e.line * 128) = s.homeClass (s.partOf sh) (sliceOf sh.core) (e.line * 128) :=
    congrArg Msg.cls (h.leavingMsg 0 (e, m))
  obtain ⟨ys, hys⟩ := State.send_eq h.there e m
  rw [hys, State.withSend, h.leavingMsg, hcls]
  obtain ⟨hslice, hpart, hsys⟩ := Sheaf.addCounter_up sh' (s.homeClass (s.partOf sh) (sliceOf sh.core) (e.line * 128))
  refine ⟨_, h.mem, h.tufts, h.kernels, h.parts, State.setSheaf_sheaf? .., ?_, ?_, ?_, ?_, ?_, ?_, ?_, ?_⟩
  · exact (Sheaf.addCounter_core ..).trans h.core
  · exact (Sheaf.addCounter_tid ..).trans h.tid
  · exact (Sheaf.addCounter_buf ..).trans h.buf
  · simp only [h.msgs, h.nextId, List.mapIdx_append, List.mapIdx_cons, List.mapIdx_nil, Nat.zero_add, List.append_assoc]
  · simp only [h.nextId, List.length_append, List.length_cons, List.length_nil, Nat.zero_add, Nat.add_assoc]
  · rw [hslice, h.cntSlice, ofClass_append, Nat.add_assoc]
  · rw [hpart, h.cntPart, ofClass_append, Nat.add_assoc]
  · rw [hsys, h.cntSys, ofClass_append, Nat.add_assoc]

/-- The stretches of an entry are sent. -/
theorem Sent.units {s t : State} {sid : Nat} {sh sh' : Sheaf} {xs : List (BufEntry × Map Byte)} {left : List BufEntry} (h : Sent s sid sh xs left t sh')
    (e : BufEntry) (ms : List (Map Byte)) :
    ∃ x, Sent s sid sh (xs ++ ms.map (fun m => (e, m))) left
      (t.forEach ms (fun s m => s.send sid (e.line * 128) m e.kh e.key .write (e.hidden.filter (fun i => (m.find? i).isSome)))) x := by
  induction ms generalizing t sh' xs with
  | nil => exact ⟨sh', by simpa using h⟩
  | cons m ms ih =>
    obtain ⟨y, hy⟩ := h.send e m
    obtain ⟨x, hx⟩ := ih hy
    exact ⟨x, by simpa using hx⟩

/-- An entry stands for one line under one key. -/
def BufEntry.sameLine (x e : BufEntry) : Bool := x.line == e.line && x.key == e.key

/-- An entry leaves the buffer and is sent. -/
theorem Sent.sendOne {s t : State} {sid : Nat} {sh sh' : Sheaf} {xs : List (BufEntry × Map Byte)} {left : List BufEntry} (h : Sent s sid sh xs left t sh')
    (e : BufEntry) :
    ∃ x, Sent s sid sh (xs ++ e.units.map (fun m => (e, m))) (left.filter (fun x => !x.sameLine e)) (t.sendOne sid e) x := by
  have hout : Sent s sid sh xs (left.filter (fun x => !x.sameLine e))
      (t.modSheaf sid (fun sh => { sh with buf := sh.buf.filter (fun x => !(x.line == e.line && x.key == e.key)) }))
      { sh' with buf := sh'.buf.filter (fun x => !(x.line == e.line && x.key == e.key)) } := by
    rw [State.modSheaf_of_sheaf? h.there]
    exact ⟨h.mem, h.tufts, h.kernels, h.parts, State.setSheaf_sheaf? .., h.core, h.tid, by rw [h.buf]; rfl, h.msgs, h.nextId, h.cntSlice, h.cntPart,
      h.cntSys⟩
  exact hout.units e e.units

/-- Entries leave the buffer and are sent, one after the other. -/
theorem Sent.entries {s t : State} {sid : Nat} {sh sh' : Sheaf} {xs : List (BufEntry × Map Byte)} {left : List BufEntry} (h : Sent s sid sh xs left t sh')
    (es : List BufEntry) :
    ∃ x, Sent s sid sh (xs ++ es.flatMap (fun e => e.units.map (fun m => (e, m)))) (left.filter (fun x => es.all (fun e => !x.sameLine e)))
      (t.forEach es (fun s e => s.sendOne sid e)) x := by
  induction es generalizing t sh' xs left with
  | nil => exact ⟨sh', by simpa using h⟩
  | cons e es ih =>
    obtain ⟨y, hy⟩ := h.sendOne e
    obtain ⟨x, hx⟩ := ih hy
    exact ⟨x, by simpa [List.filter_filter, Bool.and_comm] using hx⟩

/-- R158, R170: the oldest entry of a buffer leaves it with its grain unit. -/
theorem storesLeave : StoresLeave := by
  intro s sid sh e rest hs hb
  obtain ⟨sh', h⟩ := (sent_none hs).entries (sh.buf.filter e.sameUnit)
  refine ⟨s.forEach (sh.buf.filter e.sameUnit) (fun s x => s.sendOne sid x), sh', ?_, h.mem, h.there, h.buf, h.msgs, h.cntSlice, h.cntPart, h.cntSys⟩
  show Host.Outcome.next (s.sendOldest sid) = _
  rw [sendOldest_eq hs hb]
  simp only [State.sendEntry, hs]

/-! ## Sends that perform, and their answers (R166, R170, R221) -/

theorem performNumber_eq {s : State} {mid : Nat} {m x : Msg} (hm : s.msg? mid = some m)
    (hx : (s.performBefore m.core (lineOf m.paddr) (fun y => y.id == mid)).msg? mid = some x) :
    s.performNumber mid = (s.performBefore m.core (lineOf m.paddr) (fun y => y.id == mid)).performMsg x := by
  simp only [State.performNumber, hm, State.performId, hx]

theorem happens_writePerform {mid : Nat} {f : Happening} {s t : State} (hf : flightHappening (.writePerform mid) = some f) (ht : f s = some t) :
    exec (.writePerform mid) s = .next t := by
  cases hf
  obtain ⟨m, hm, ht⟩ := Option.bind_eq_some_iff.mp ht
  obtain ⟨x, hx, rfl⟩ := Option.map_eq_some_iff.mp ht
  exact congrArg (fun u : State => Host.Outcome.next u.settle) (performNumber_eq hm hx)

/-- The number under which a message stands is its own. -/
theorem msg?_id {s : State} {mid : Nat} {m : Msg} (hm : s.msg? mid = some m) : m.id = mid := by
  simpa using List.find?_some hm

/-- A write that has performed is acknowledged where its answer can come. -/
theorem answerMsg_write {s : State} {mid : Nat} {m : Msg} (hm : s.msg? mid = some m) (hk : m.kind = .write) (hp : m.performed = true)
    (hc : s.carried m = true) : s.answerMsg mid false = s.ackMsg m := by
  simp only [State.answerMsg, hm, hp, hc, hk, State.replyMsg, Bool.and_self, beq_self_eq_true, if_true]

/-- An atomic that has performed is answered where its reply can come. -/
theorem answerMsg_atomic {s : State} {mid : Nat} {m : Msg} (hm : s.msg? mid = some m) (hk : m.kind ≠ .write) (hp : m.performed = true)
    (hc : s.carried m = true) : s.answerMsg mid true = s.replyMsg m := by
  cases hkind : m.kind with
  | write => exact absurd hkind hk
  | atomic => simp only [State.answerMsg, hm, hp, hc, hkind, Bool.and_self, beq_self_eq_true, if_true]

theorem happens_writeAck {mid : Nat} {f : Happening} {s t : State} (hf : flightHappening (.writeAck mid) = some f) (ht : f s = some t) :
    exec (.writeAck mid) s = .next t := by
  cases hf
  obtain ⟨m, hm, ht⟩ := Option.bind_eq_some_iff.mp ht
  obtain ⟨⟨hk, hp, hc⟩, rfl⟩ := due_eq_some.mp ht
  exact congrArg (fun u : State => Host.Outcome.next u.settle) (answerMsg_write hm hk hp hc)

theorem happens_atomicReply {mid : Nat} {f : Happening} {s t : State} (hf : flightHappening (.atomicReply mid) = some f) (ht : f s = some t) :
    exec (.atomicReply mid) s = .next t := by
  cases hf
  obtain ⟨m, hm, ht⟩ := Option.bind_eq_some_iff.mp ht
  obtain ⟨⟨hk, hp, hc⟩, rfl⟩ := due_eq_some.mp ht
  exact congrArg (fun u : State => Host.Outcome.next u.settle) (answerMsg_atomic hm hk hp hc)

/-! ## The operations of R165 -/

theorem pickSigned_min (x w : Word) : pickSigned false x w = if w.toInt < x.toInt then w else x := by
  unfold pickSigned
  rcases Int.lt_trichotomy x.toInt w.toInt with h | h | h
  · simp [h, Int.not_lt.mpr (Int.le_of_lt h)]
  · simp [BitVec.eq_of_toInt_eq h]
  · simp [h, Int.not_lt.mpr (Int.le_of_lt h)]

theorem pickSigned_max (x w : Word) : pickSigned true x w = if x.toInt < w.toInt then w else x := by simp only [pickSigned, if_true]

theorem pickUnsigned_min (x w : Word) : pickUnsigned false x w = if w.toNat < x.toNat then w else x := by
  unfold pickUnsigned
  rcases Nat.lt_trichotomy x.toNat w.toNat with h | h | h
  · simp [h, Nat.not_lt.mpr (Nat.le_of_lt h)]
  · simp [BitVec.eq_of_toNat_eq h]
  · simp [h, Nat.not_lt.mpr (Nat.le_of_lt h)]

theorem pickUnsigned_max (x w : Word) : pickUnsigned true x w = if x.toNat < w.toNat then w else x := by simp only [pickUnsigned, if_true]

/-- What an atomic leaves and what its lane receives. -/
theorem atomOp_eq (op old d d2 : Nat) : atomOp op old d d2 = atomResult op old d d2 := by
  unfold atomOp
  split
  case h_3 => simp only [atomResult, pickSigned_min]
  case h_4 => simp only [atomResult, pickSigned_max]
  case h_5 => simp only [atomResult, pickUnsigned_min]
  case h_6 => simp only [atomResult, pickUnsigned_max]
  case h_11 => simp only [atomResult, beq_iff_eq]
  case h_16 => unfold atomResult; split <;> simp_all
  all_goals rfl

/-- The words that a lane receives. -/
theorem atomWords_eq (op v : Nat) : atomWords op v = atomReceives op v := by simp only [atomWords, atomReceives, beq_iff_eq]

/-! ## Results that come in (R98, R157) -/

theorem returnLoad_eq {s : State} {sid pid : Nat} {lanes : Mask} {sh x : Sheaf} {p q : Pending} (hs : s.sheaf? sid = some sh)
    (hp : sh.pend? pid = some p) (hstuck : s.stuckResult sid sh p = false) (hx : (s.bindLoad sid p).sheaf? sid = some x) (hq : x.pend? pid = some q) :
    s.returnLoad sid pid lanes = (s.bindLoad sid p).modSheaf sid (fun sh => sh.deliver q lanes) := by
  simp only [State.returnLoad, hs, hp, Option.bind_some, Option.filter, hstuck, Bool.not_false, if_true, hx, hq]

theorem exec_loadReturn {s : State} {sid pid size : Nat} {conv : Widen} {lanes : Mask} {sh x : Sheaf} {p q : Pending} (hs : s.sheaf? sid = some sh)
    (hp : sh.pend? pid = some p) (hk : p.kind = .load size conv) (hstuck : s.stuckResult sid sh p = false)
    (hx : (s.bindLoad sid p).sheaf? sid = some x) (hq : x.pend? pid = some q) :
    exec (.loadReturn sid pid lanes) s = .next ((s.bindLoad sid p).modSheaf sid (fun sh => sh.deliver q lanes)).settle := by
  show execLoadReturn sid pid lanes s = _
  simp only [execLoadReturn, hs, hp, Option.bind_some, hk, returnLoad_eq hs hp hstuck hx hq]

theorem happens_loadReturn {sid pid : Nat} {lanes : Mask} {f : Happening} {s t : State} (hf : flightHappening (.loadReturn sid pid lanes) = some f)
    (ht : f s = some t) : exec (.loadReturn sid pid lanes) s = .next t := by
  cases hf
  obtain ⟨sh, hs, ht⟩ := Option.bind_eq_some_iff.mp ht
  obtain ⟨p, hp, ht⟩ := Option.bind_eq_some_iff.mp ht
  split at ht
  · next size conv hk =>
    split at ht
    · cases ht
    · next hstuck =>
      obtain ⟨q, hq, rfl⟩ := Option.map_eq_some_iff.mp ht
      obtain ⟨x, hx, hq⟩ := Option.bind_eq_some_iff.mp hq
      exact exec_loadReturn hs hp hk (Bool.eq_false_iff.mpr hstuck) hx hq
  · cases ht

theorem exec_longLatencyResult {s : State} {sid pid : Nat} {sh : Sheaf} {p : Pending} (hs : s.sheaf? sid = some sh) (hp : sh.pend? pid = some p)
    (hk : p.kind = .value) :
    exec (.longLatencyResult sid pid) s =
      .next ((s.freeLanes p.lanes).2.modSheaf sid (fun x => x.deliver p (s.freeLanes p.lanes).1)).settle := by
  show execLongLatencyResult sid pid s = _
  simp only [execLongLatencyResult, hs, hp, Option.bind_some, hk]

theorem happens_longLatencyResult {sid pid : Nat} {f : Happening} {s t : State} (hf : flightHappening (.longLatencyResult sid pid) = some f)
    (ht : f s = some t) : exec (.longLatencyResult sid pid) s = .next t := by
  cases hf
  obtain ⟨sh, hs, ht⟩ := Option.bind_eq_some_iff.mp ht
  obtain ⟨p, hp, ht⟩ := Option.bind_eq_some_iff.mp ht
  obtain ⟨hk, rfl⟩ := due_eq_some.mp ht
  exact exec_longLatencyResult hs hp hk

/-! ## Matrix operations (R193) -/

theorem exec_matrixOpComplete {s : State} {sid : Nat} {sh : Sheaf} {op : MatOp} {t : Tuft} (hs : s.sheaf? sid = some sh)
    (hop : sh.mops.find? (fun m => !m.done) = some op) (ht : s.tuft? sh.tid = some t) :
    exec (.matrixOpComplete sid) s = .next (s.forEach t.sheaves (fun s x => s.runMatUpTo x op.id)).settle := by
  show execMatrixOpComplete sid s = _
  simp only [execMatrixOpComplete, State.completeMatOp, hs, hop, ht]

theorem happens_matrixOpComplete {sid : Nat} {f : Happening} {s t : State} (hf : flightHappening (.matrixOpComplete sid) = some f) (ht : f s = some t) :
    exec (.matrixOpComplete sid) s = .next t := by
  cases hf
  obtain ⟨sh, hs, ht⟩ := Option.bind_eq_some_iff.mp ht
  obtain ⟨op, hop, ht⟩ := Option.bind_eq_some_iff.mp ht
  obtain ⟨tuft, htuft, rfl⟩ := Option.map_eq_some_iff.mp ht
  exact exec_matrixOpComplete hs hop htuft

/-- Every happening of the table does what the table says. -/
theorem flight_happens : Happens flightHappening := by
  intro i f s t hf ht
  have hf' := hf
  unfold flightHappening at hf'
  split at hf' <;> cases hf'
  · exact happens_storeBufferSend hf ht
  · exact happens_writePerform hf ht
  · exact happens_writeAck hf ht
  · exact happens_atomicReply hf ht
  · exact happens_loadReturn hf ht
  · exact happens_longLatencyResult hf ht
  · exact happens_matrixOpComplete hf ht

/-! ## What a performed send has done -/

theorem sendsPerform : SendsPerform := by
  intro s t u mid m x hm ht hx hperf hcarried hu hrefusal
  subst ht hu
  have hrun : exec (.writePerform mid) s = .next
      ((((s.performBefore m.core (lineOf m.paddr) (fun y => y.id == mid)).depart x).performAt x).giveAnswer x).settle := by
    have hgo : (x.performed || !(s.performBefore m.core (lineOf m.paddr) (fun y => y.id == mid)).carried x) = false := by simp [hperf, hcarried]
    show Host.Outcome.next ((s.performNumber mid).settle) = _
    rw [performNumber_eq hm hx, State.performMsg, hgo]
    rfl
  constructor
  · intro hk
    rw [hrun]
    simp only [State.performAt, hrefusal, hk]
  · intro op width d d2 pid lane hk hpoison
    rw [hrun]
    simp only [State.performAt, hrefusal, hk, hpoison, Bool.false_eq_true, if_false, State.atomicAtHome, atomOp_eq, atomWrites, bne_iff_ne, ne_eq, ite_not]

/-- R170: a write's acknowledgement. -/
theorem writesAreAcknowledged : WritesAreAcknowledged := by
  intro s mid m hm hk hp hc
  show Host.Outcome.next ((s.answerMsg mid false).settle) = _
  rw [answerMsg_write hm hk hp hc, State.ackMsg, msg?_id hm]

/-! ## Answers to atomics (R166, R170) -/

/-- A run over a list that keeps a part of a sheaf at each place keeps it. -/
theorem Sheaf.foldl_keeps {α β : Type} (P : Sheaf → β) (f : Sheaf → α → Sheaf) (hf : ∀ x a, P (f x a) = P x) (xs : List α) (sh : Sheaf) :
    P (xs.foldl f sh) = P sh := by
  induction xs generalizing sh with
  | nil => rfl
  | cons a xs ih => exact (ih _).trans (hf _ _)

/-- A delivery keeps what writes of registers and the list of results leave. -/
theorem Sheaf.deliver_keeps {β : Type} (P : Sheaf → β) (hphys : ∀ sh r lanes whole f mark, P (Sheaf.writePhys sh r lanes whole f mark) = P sh)
    (hu : ∀ sh r v mark, P (Sheaf.writeU sh r v mark) = P sh) (hpend : ∀ sh xs, P { sh with pend := xs } = P sh) (sh : Sheaf) (p : Pending)
    (lanes : Mask) : P (sh.deliver p lanes) = P sh := by
  have hwritten : ∀ whole : Bool, P (if p.lanes == 0 then sh else (List.range p.regs.length).foldl (fun sh i =>
      if p.varying then sh.writePhys (p.regs.getD i 0) (lanes &&& p.lanes) whole (fun l => p.wordOf l i) p.mark
      else sh.writeU (p.regs.getD i 0) (p.wordOf 0 i) p.mark) sh) = P sh := by
    intro whole
    split
    · rfl
    · refine Sheaf.foldl_keeps P _ (fun x i => ?_) _ _
      split
      · exact hphys ..
      · exact hu ..
  unfold Sheaf.deliver
  dsimp only
  split
  · exact (hpend _ _).trans (hwritten _)
  · exact (hpend _ _).trans (hwritten _)

@[simp] theorem Sheaf.deliver_cntSlice (sh : Sheaf) (p : Pending) (lanes : Mask) : (sh.deliver p lanes).cntSlice = sh.cntSlice :=
  Sheaf.deliver_keeps Sheaf.cntSlice (fun _ _ _ _ _ _ => rfl) (fun _ _ _ _ => rfl) (fun _ _ => rfl) sh p lanes

@[simp] theorem Sheaf.deliver_cntPart (sh : Sheaf) (p : Pending) (lanes : Mask) : (sh.deliver p lanes).cntPart = sh.cntPart :=
  Sheaf.deliver_keeps Sheaf.cntPart (fun _ _ _ _ _ _ => rfl) (fun _ _ _ _ => rfl) (fun _ _ => rfl) sh p lanes

@[simp] theorem Sheaf.deliver_cntSys (sh : Sheaf) (p : Pending) (lanes : Mask) : (sh.deliver p lanes).cntSys = sh.cntSys :=
  Sheaf.deliver_keeps Sheaf.cntSys (fun _ _ _ _ _ _ => rfl) (fun _ _ _ _ => rfl) (fun _ _ => rfl) sh p lanes

theorem Sheaf.addCounter_vregs (sh : Sheaf) (c : HomeClass) (up : Bool) : (sh.addCounter c up).vregs = sh.vregs := by cases c <;> rfl
theorem Sheaf.addCounter_pend (sh : Sheaf) (c : HomeClass) (up : Bool) : (sh.addCounter c up).pend = sh.pend := by cases c <;> rfl

/-- A result one of whose lanes has received its words. -/
def Pending.received (p : Pending) (lane : Nat) (ws : List Word) : Pending := { p with data := p.data ++ [(lane, ws)] }

/-- The words of a lane that has just received some. -/
theorem wordOf_received {p : Pending} {lane : Nat} (ws : List Word) (h : p.data.all (fun e => e.1 != lane) = true) (i : Nat) :
    (p.received lane ws).wordOf lane i = ws.getD i 0 := by
  have hnone : p.data.find? (fun e => e.1 == lane) = none := by
    rw [List.find?_eq_none]
    intro e he
    simpa using List.all_eq_true.mp h e he
  simp [Pending.received, Pending.wordOf, List.find?_append, hnone]

/-- Lanes that a mask of one lane has. -/
theorem hasLane_only {lane l : Nat} {m : Mask} (h : hasLane (maskOf (fun x => x == lane) &&& m) l = true) : l = lane := by
  have hl : hasLane (maskOf (fun x => x == lane)) l = true := by
    simp only [hasLane, BitVec.getLsbD_and, Bool.and_eq_true] at h ⊢
    exact h.1
  rw [hasLane_maskOf] at hl
  simpa using (Bool.and_eq_true_iff.mp hl).2

/-- One lane of a result that receives its words takes them (R166). -/
theorem Sheaf.took_received {sh x : Sheaf} {p : Pending} {lane : Nat} {ws : List Word} (hv : x.vregs = sh.vregs)
    (hn : p.regs.Nodup) (hdata : p.data.all (fun e => e.1 != lane) = true) (hlane : p.varying = false → lane = 0) :
    sh.took (x.deliver (p.received lane ws) (maskOf (fun l => l == lane))) p (maskOf (fun l => l == lane)) (fun _ i => ws.getD i 0) := by
  obtain ⟨hvec, huni, hpend⟩ := Sheaf.took_deliver x (p.received lane ws) (maskOf (fun l => l == lane)) hn
  refine ⟨fun hp i r hr l hl => ?_, fun hp hz i r hr => ?_, hpend⟩
  · refine (hvec hp i r hr l hl).trans ?_
    rw [hv]
    refine ite_congr rfl (fun hmask => ?_) (fun _ => rfl)
    rw [hasLane_only hmask, wordOf_received ws hdata]
  · obtain rfl := hlane hp
    exact (huni hp hz i r hr).trans (wordOf_received ws hdata i)

/-- R166, R170: an atomic's reply. -/
theorem atomicsAreAnswered : AtomicsAreAnswered := by
  intro s mid m op width d d2 pid lane sh p hm hk hp hc hs hpend hn hlane hdata huniform
  have hrun : exec (.atomicReply mid) s = .next (s.replyMsg m).settle :=
    congrArg (fun u : State => Host.Outcome.next u.settle) (answerMsg_atomic hm (by rw [hk]; exact MsgKind.noConfusion) hp hc)
  have hsheaf : ((s.bringDue m).ackMsg m).sheaf? m.sid = some (sh.addCounter m.cls false) := by
    have hsame : (s.bringDue m).sheaf? m.sid = some sh := hs
    show ((s.bringDue m).modSheaf m.sid (fun sh => sh.addCounter m.cls false)).sheaf? m.sid = _
    rw [State.modSheaf_of_sheaf? hsame, State.setSheaf_sheaf?]
  have hpend' : (sh.addCounter m.cls false).pend? pid = some p := by rw [Sheaf.pend?, Sheaf.addCounter_pend]; exact hpend
  have hreply : s.replyMsg m = ((s.bringDue m).ackMsg m).setSheaf m.sid
      (((sh.addCounter m.cls false).setPend (p.received lane (atomReceives op m.result))).deliver (p.received lane (atomReceives op m.result))
        (maskOf (fun l => l == lane))) := by
    simp only [State.replyMsg, hk]
    rw [State.modSheaf_of_sheaf? hsheaf]
    simp only [hpend', atomWords_eq]
    rfl
  refine ⟨_, ((sh.addCounter m.cls false).setPend (p.received lane (atomReceives op m.result))).deliver (p.received lane (atomReceives op m.result))
    (maskOf (fun l => l == lane)), hrun, ?_, ?_, Sheaf.took_received ?_ hn hdata huniform, ?_, ?_, ?_⟩
  · rw [hreply, ← msg?_id hm]
    rfl
  · rw [hreply, State.setSheaf_sheaf?]
  · exact Sheaf.addCounter_vregs ..
  · rw [Sheaf.deliver_cntSlice]; rfl
  · rw [Sheaf.deliver_cntPart]; rfl
  · rw [Sheaf.deliver_cntSys]; rfl

/-! ## Loads and computed results (R98, R157) -/

theorem loadsReturn : LoadsReturn := by
  intro s t sid pid size conv lanes sh x p q hs hp hk hstuck ht hx hq hn
  subst ht
  refine ⟨x.deliver q lanes, ?_, Sheaf.took_deliver x q lanes hn⟩
  rw [exec_loadReturn hs hp hk hstuck hx hq, State.modSheaf_of_sheaf? hx]

/-- The lanes in which a result returns are some of those that pend, one at least where some do. -/
theorem freeLanes_some (s : State) (lanes : Mask) : (s.freeLanes lanes).1 &&& lanes = (s.freeLanes lanes).1 ∧ (lanes ≠ 0 → (s.freeLanes lanes).1 ≠ 0) := by
  simp only [State.freeLanes]
  split
  · exact ⟨BitVec.and_self, id⟩
  · next h => exact ⟨by rw [BitVec.and_assoc, BitVec.and_self], fun _ => by simpa using h⟩

theorem resultsReturn : ResultsReturn := by
  intro s sid pid sh p hs hp hk hn
  have hsheaf : (s.freeLanes p.lanes).2.sheaf? sid = some sh := hs
  obtain ⟨hsub, hsome⟩ := freeLanes_some s p.lanes
  refine ⟨_, _, _, exec_longLatencyResult hs hp hk, ?_, hsub, hsome, Sheaf.took_deliver sh p _ hn⟩
  rw [State.modSheaf_of_sheaf? hsheaf, State.setSheaf_sheaf?]

/-! ## What a matrix operation leaves (R181, R187 to R190) -/

/-- Values put under the keys of a list, each a function of its key. -/
theorem Map.getD_foldl_put {α : Type} (g : Nat → α) (ks : List Nat) (m : Map α) (k : Nat) (d : α) :
    (ks.foldl (fun m k => m.put k (g k)) m).getD k d = if k ∈ ks then g k else m.getD k d := by
  induction ks generalizing m with
  | nil => simp
  | cons a ks ih =>
    rw [List.foldl_cons, ih, Map.getD_put]
    by_cases hk : k ∈ ks
    · simp [hk]
    · by_cases ha : k = a <;> simp [hk, ha]

/-- The cells of some rows of a tile, by number. -/
def rowCells (rows : List Nat) : List Nat := rows.flatMap (fun r => (List.range 16).map (fun j => 16 * r + j))

theorem mem_rowCells (rows : List Nat) {r j : Nat} (hj : j < 16) : 16 * r + j ∈ rowCells rows ↔ r ∈ rows := by
  simp only [rowCells, List.mem_flatMap, List.mem_map, List.mem_range]
  constructor
  · rintro ⟨r', hr', j', hj', he⟩
    have : r' = r := by omega
    exact this ▸ hr'
  · exact fun hr => ⟨r, hr, j, hj, rfl⟩

/-- Rows of a tile written, cell by cell. -/
theorem Tile.writeRows_at (t : Tile) (acting : Mask) (f : Nat → Nat → Nat) (mark : Mark) {r j : Nat} (hr : r < 16) (hj : j < 16) :
    (t.writeRows acting f mark).at r j = if hasLane acting r then f r j % 2 ^ 32 else t.at r j := by
  have hcells : (t.writeRows acting f mark).cells =
      (rowCells ((List.range 16).filter (hasLane acting))).foldl (fun m k => m.put k (BitVec.ofNat 32 (f (k / 16) (k % 16)))) t.cells := by
    simp only [Tile.writeRows, rowCells, List.foldl_flatMap, List.foldl_map]
    refine List.foldl_ext _ _ _ fun m r _ => List.foldl_ext _ _ _ fun m j hj => ?_
    have hj : j < 16 := List.mem_range.mp hj
    rw [show (16 * r + j) / 16 = r by omega, show (16 * r + j) % 16 = j by omega]
  have hmem : r ∈ (List.range 16).filter (hasLane acting) ↔ hasLane acting r = true := by simp [hr]
  rw [Tile.at, hcells, Map.getD_foldl_put]
  simp only [mem_rowCells _ hj, hmem]
  split
  · rw [show (16 * r + j) / 16 = r by omega, show (16 * r + j) % 16 = j by omega, BitVec.toNat_ofNat]
  · rfl

theorem Sheaf.writeTile_tile (sh : Sheaf) (m : Nat) (t : Tile) : (sh.writeTile m t).tile m = t := by
  simp only [Sheaf.tile, Sheaf.writeTile, Map.getD_put_self]

/-- What may change of an operation while it is pending (R194, R195). -/
theorem mixOperands_keeps (s : State) (sh : Sheaf) (op : MatOp) :
    (s.mixOperands sh op).kind = op.kind ∧ (s.mixOperands sh op).acting = op.acting ∧ (s.mixOperands sh op).id = op.id := by
  unfold State.mixOperands
  split
  · exact ⟨rfl, rfl, rfl⟩
  · split
    · next aTile _ => cases aTile <;> (dsimp only; split <;> exact ⟨rfl, rfl, rfl⟩)
    · dsimp only
      split <;> exact ⟨rfl, rfl, rfl⟩
    · exact ⟨rfl, rfl, rfl⟩

theorem mixOperands_mrowv (s : State) (sh : Sheaf) {op : MatOp} {regs : List Nat} {mt : Nat} (hk : op.kind = .mrowv regs mt) : s.mixOperands sh op = op := by
  unfold State.mixOperands
  rw [hk]
  split <;> rfl

/-- No later operation reads the tile of one that is alone. -/
theorem keepOld_alone {sh : Sheaf} {op : MatOp} (hm : sh.mops = [op]) (mt : Nat) : sh.keepOld mt op.id = sh := by
  have hmap : sh.mops.map (fun m => if decide (op.id < m.id) && !m.done && m.kind.reads? == some mt then { m with olds := m.olds ++ [sh.tile mt] } else m) =
      sh.mops := by simp [hm]
  unfold Sheaf.keepOld
  split
  · rfl
  · rw [hmap]

theorem rowsAct_of_hasLane {acting : Mask} {r : Nat} (hr : r < 16) (h : hasLane acting r = true) : rowsAct acting = true := by
  simp only [rowsAct, bne_iff_ne]
  intro hz
  have hbit := congrArg (fun m : Mask => m.getLsbD r) hz
  have hmask : (0xFFFF#32).getLsbD r = true := by
    have : ∀ r < 16, (0xFFFF#32).getLsbD r = true := by decide
    exact this r hr
  simp only [BitVec.getLsbD_and, hmask, Bool.and_true] at hbit
  rw [hasLane] at h
  simp [h] at hbit

/-- An operation that is alone has acted: its tile, where it updates one, and its registers, where it writes some. -/
structure ActedAlone (s : State) (sh : Sheaf) (op : MatOp) (sh' : Sheaf) : Prop where
  mops  : sh'.mops = sh.mops
  mma   : ∀ mt fuse typ z aTile, op.kind = .mma mt fuse typ z aTile → ∀ r j, r < 16 → j < 16 → (sh'.tile mt).at r j =
    if hasLane op.acting r then sh.mmaElement (s.mixOperands sh op) mt typ z aTile r j % 2 ^ 32 else (sh.tile mt).at r j
  mzero : ∀ mt, op.kind = .mzero mt → ∀ r j, r < 16 → j < 16 → (sh'.tile mt).at r j = if hasLane op.acting r then 0 else (sh.tile mt).at r j
  mldt  : ∀ mt fmt, op.kind = .mldt mt fmt → ∀ r j, r < 16 → j < 16 → (sh'.tile mt).at r j =
    if hasLane op.acting r then widenFmt fmt (((s.mixOperands sh op).aElems.getD r []).getD j 0) % 2 ^ 32 else (sh.tile mt).at r j
  mrowv : ∀ regs mt, op.kind = .mrowv regs mt → op.olds = [] → regs.Nodup → regs.length = 8 → ∀ i r, regs[i]? = some r → ∀ l, l < 32 →
    (sh'.vregs.getD r VReg.zero).lanes.getD l 0 =
      if hasLane op.acting l then BitVec.ofNat 32 ((sh.tile mt).at (l % 16) (i + 8 * (l / 16))) else (sh.vregs.getD r VReg.zero).lanes.getD l 0

/-- A tile that an operation writes, where some of its rows act. -/
theorem rows_written {sh : Sheaf} {acting : Mask} (mt : Nat) (f : Nat → Nat → Nat) (mark : Mark) {r j : Nat} (hr : r < 16) (hj : j < 16) :
    ((if rowsAct acting then sh.writeTile mt ((sh.tile mt).writeRows acting f mark) else sh).tile mt).at r j =
      if hasLane acting r then f r j % 2 ^ 32 else (sh.tile mt).at r j := by
  split
  · rw [Sheaf.writeTile_tile, Tile.writeRows_at _ _ _ _ hr hj]
  · next hno =>
    rw [if_neg fun h => hno (rowsAct_of_hasLane hr h)]

/-- Registers that an MROWV writes, lane by lane (R190). -/
theorem rowv_written {sh : Sheaf} {regs : List Nat} (acting : Mask) (whole : Bool) (tile : Tile) (hn : regs.Nodup) (hlen : regs.length = 8) {i r : Nat}
    (hr : regs[i]? = some r) {l : Nat} (hl : l < 32) :
    (((List.range 8).foldl (fun sh t => sh.writePhys (regs.getD t 0) acting whole (fun l => BitVec.ofNat 32 (tile.at (l % 16) (t + 8 * (l / 16))))
      tile.mark) sh).vregs.getD r VReg.zero).lanes.getD l 0 =
      if hasLane acting l then BitVec.ofNat 32 (tile.at (l % 16) (i + 8 * (l / 16))) else (sh.vregs.getD r VReg.zero).lanes.getD l 0 := by
  have hi : i < 8 := hlen ▸ (List.getElem?_eq_some_iff.mp hr).1
  exact (foldl_at (fun x r => (x.vregs.getD r VReg.zero).lanes.getD l 0)
    (fun sh t => sh.writePhys (regs.getD t 0) acting whole (fun l => BitVec.ofNat 32 (tile.at (l % 16) (t + 8 * (l / 16)))) tile.mark)
    (fun t _ old => if hasLane acting l then BitVec.ofNat 32 (tile.at (l % 16) (t + 8 * (l / 16))) else old) regs sh
    (fun x t y => Sheaf.writePhys_lane x _ _ _ _ _ y hl) hn 8 (Nat.le_of_eq hlen.symm)).1 i r hi hr

/-- A state that differs in what nothing settles. -/
theorem ite_free_sheaf? (s : State) (c : Bool) (n sid : Nat) : (if c then s else { s with freeCount := n }).sheaf? sid = s.sheaf? sid := by
  cases c <;> rfl

theorem ite_setSheaf {s : State} {sid : Nat} {sh : Sheaf} (hs : s.sheaf? sid = some sh) (c : Bool) (x : Sheaf) :
    (if !c then s else s.setSheaf sid x).sheaf? sid = some (if c then x else sh) := by
  cases c
  · exact hs
  · exact State.setSheaf_sheaf? ..

/-- An operation that is alone acts. -/
theorem runMatOp_alone {s : State} {sid : Nat} {sh : Sheaf} {op : MatOp} (hs : s.sheaf? sid = some sh) (hm : sh.mops = [op]) :
    ∃ sh', (s.runMatOp sid op).sheaf? sid = some sh' ∧ ActedAlone s sh op sh' := by
  obtain ⟨hkind, hacting, hid⟩ := mixOperands_keeps s sh op
  have hfree := ite_free_sheaf? s (s.mixOperands sh op == op && (s.mixOperands sh op).olds.isEmpty) (s.freeCount + 4096) sid
  rw [hs] at hfree
  have hold : ∀ mt, (if rowsAct op.acting then sh.keepOld mt op.id else sh) = sh := fun mt => by rw [keepOld_alone hm]; exact ite_self _
  have hmops : ∀ mt t, (if rowsAct op.acting then sh.writeTile mt t else sh).mops = sh.mops := fun mt t => by cases rowsAct op.acting <;> rfl
  cases hk : op.kind with
  | mma mt fuse typ z aTile =>
    simp only [State.runMatOp, hs, hkind, hacting, hid, hk, MatKind.updates?, hold]
    refine ⟨_, ite_setSheaf hfree _ _, hmops _ _, fun _ _ _ _ _ h => ?_, fun _ h => ?_, fun _ _ h => ?_, fun _ _ h => ?_⟩
    · cases hk.symm.trans h
      exact fun r j hr hj => rows_written mt _ _ hr hj
    all_goals cases hk.symm.trans h
  | mzero mt =>
    simp only [State.runMatOp, hs, hkind, hacting, hid, hk, MatKind.updates?, hold]
    refine ⟨_, ite_setSheaf hfree _ _, hmops _ _, fun _ _ _ _ _ h => ?_, fun _ h => ?_, fun _ _ h => ?_, fun _ _ h => ?_⟩
    case refine_2 =>
      cases hk.symm.trans h
      exact fun r j hr hj => rows_written mt (fun _ _ => 0) _ hr hj
    all_goals cases hk.symm.trans h
  | mldt mt fmt =>
    simp only [State.runMatOp, hs, hkind, hacting, hid, hk, MatKind.updates?, hold]
    refine ⟨_, ite_setSheaf hfree _ _, hmops _ _, fun _ _ _ _ _ h => ?_, fun _ h => ?_, fun _ _ h => ?_, fun _ _ h => ?_⟩
    case refine_3 =>
      cases hk.symm.trans h
      exact fun r j hr hj => rows_written mt _ _ hr hj
    all_goals cases hk.symm.trans h
  | mstt mt fmt =>
    simp only [State.runMatOp, hs, hkind, hacting, hk, MatKind.updates?]
    refine ⟨sh, ?_, rfl, fun _ _ _ _ _ h => ?_, fun _ h => ?_, fun _ _ h => ?_, fun _ _ h => ?_⟩
    · rw [State.writeLocal, State.sheaf?, State.modTuft_sheaves]
      exact hfree
    all_goals cases hk.symm.trans h
  | mrowv regs mt =>
    simp only [State.runMatOp, hs, hkind, hacting, hk, MatKind.updates?]
    refine ⟨_, State.setSheaf_sheaf? .., ?_, fun _ _ _ _ _ h => ?_, fun _ h => ?_, fun _ _ h => ?_, fun _ _ h => ?_⟩
    case refine_5 =>
      cases hk.symm.trans h
      intro holds hn hlen i r hr l hl
      have htile : s.mixTile (s.mixOperands sh op).olds (sh.tile mt) = sh.tile mt := by
        rw [mixOperands_mrowv s sh hk, holds]
        rfl
      rw [htile]
      exact rowv_written op.acting _ (sh.tile mt) hn hlen hr hl
    case refine_1 =>
      refine Sheaf.foldl_keeps Sheaf.mops _ ?_ _ _
      exact fun _ _ => rfl
    all_goals cases hk.symm.trans h

/-- The one operation of a sheaf acts, and is done. -/
theorem runMatUpTo_alone {s : State} {sid : Nat} {sh : Sheaf} {op : MatOp} (hs : s.sheaf? sid = some sh) (hm : sh.mops = [op]) (hd : op.done = false) :
    ∃ x, (s.runMatUpTo sid op.id).sheaf? sid = some { x with mops := [{ op with done := true }] } ∧ ActedAlone s sh op x := by
  obtain ⟨x, hx, ha⟩ := runMatOp_alone hs hm
  refine ⟨x, ?_, ha⟩
  have hrun : s.runMatUpTo sid op.id = (s.runMatOp sid op).modSheaf sid (fun sh =>
      { sh with mops := sh.mops.map (fun m => if m.id ≤ op.id then { m with done := true } else m) }) := by
    simp [State.runMatUpTo, hs, hm, hd]
  rw [hrun, State.modSheaf_of_sheaf? hx, State.setSheaf_sheaf?, ha.mops, hm]
  simp

/-- R193: a matrix operation completes. -/
theorem matrixOperationsComplete : MatrixOperationsComplete := by
  refine ⟨fun s sid sh op t hs hop ht => exec_matrixOpComplete hs hop ht, ?_⟩
  intro s sid sh op t hs hm hd ht hsheaves
  obtain ⟨x, hx, ha⟩ := runMatUpTo_alone hs hm hd
  have hop : sh.mops.find? (fun m => !m.done) = some op := by simp [hm, hd]
  have hrun := exec_matrixOpComplete hs hop ht
  rw [hsheaves] at hrun
  exact ⟨_, _, hrun, hx, rfl, fun mt fuse typ z aTile hk => ha.mma mt fuse typ z aTile hk, fun mt hk r j hr hj => ha.mzero mt hk r j hr hj,
    fun mt fmt hk => ha.mldt mt fmt hk, fun regs mt hk => ha.mrowv regs mt hk⟩

end Sys2Proof.Machine
open Sys2Proof Sys2Proof.Machine

/-- Settles O48: every happening of the table runs the model's function of that event; the seven parts of what lands are the lemmas above, each from
what its function does to one sheaf, message or operation. -/
theorem flightHappenings : Obligations.FlightHappenings :=
  ⟨flight_happens, storesLeave, sendsPerform, writesAreAcknowledged, atomicsAreAnswered, loadsReturn, resultsReturn, matrixOperationsComplete⟩
end

/-! PROOFS. Two sheaves under one name: a miss of the first that matches a victim tag of the second puts the second in its place (R244), and what a
repeat or a barrier goes on with is the second. -/
section
namespace Sys2Proof.Machine

/-! ## A load that is repeated (R94, R195) -/

/-- A MATRIX sheaf under MSTRICT, its base register naming its page. -/
def strictSheaf : Sheaf := { probeSheaf.writePair 128 0x10400 0 with role := .matrix, mode := 4 }

/-- Another one, with a measured lease (R242), whose window begins one register further on. -/
def shadowSheaf : Sheaf := { strictSheaf with wbase := 1, lease := { strictSheaf.lease with measured := true } }

/-- REP of three repeats that steps the destination by one. -/
def threeRepeats : BitVec 19 := 0x102

/-- The machine with the first sheaf in its issue slot behind that REP, the second one later under the same name, and the line of their page
among the victims of their slot. -/
def shadowState : State :=
  let s := ({ State.reset.withFetchWord 32 0 with slot := { slotFor 0 probeCode 1 Hints.none with rep := some threeRepeats } }).setSheaf 0 strictSheaf
  ({ s with sheaves := s.sheaves ++ [(0, shadowSheaf)] }).modCore 0 (fun k => { k with victims := [(lineOf 0x10400, 0)] })

/-- A load whose offset register is the destination of its first repeat, which the second one waits for. -/
def offsetLoad (d : BitVec 5) : Instr := .ldg 15 0 d 30 0 0 0

/-- That load as a repeat. -/
def offsetRule (d : BitVec 5) : RepeatRule := (MachineRule.load 15 0 4 1 .none (fun _ => 0) false d 0 30).once (repeatNeeds (offsetLoad d))

/-- Its slot at a repeat. -/
def offsetSlot (k : Nat) : Slot := { shadowState.slot with index := k, acting := 1 }

/-- The results that the load waits for have come in. -/
def loadForced (s : State) (d : BitVec 5) (sh : Sheaf) : State :=
  s.forceResults 0 (fun p => (p.window == 0 || decide (shadowState.groupStart strictSheaf ≤ p.id)) && p.meets ((offsetRule d).needs.map sh.nameOf))

/-- After the first repeat, and its sheaf. -/
def afterFirst : State := (offsetRule 30).after (loadForced shadowState 30 strictSheaf) (offsetSlot 0) strictSheaf
def firstSheaf : Sheaf := (afterFirst.sheaf? 0).getD strictSheaf

/-- As the second repeat has waited for the first, and the sheaf that it goes on with. -/
def beforeSecond : State := loadForced afterFirst 31 firstSheaf
def secondSheaf : Sheaf := (beforeSecond.sheaf? 0).getD strictSheaf

/-- After the second repeat, and its sheaf. -/
def afterSecond : State := (offsetRule 31).after beforeSecond (offsetSlot 1) secondSheaf
def lastSheaf : Sheaf := (afterSecond.sheaf? 0).getD strictSheaf

theorem shadowState_standing : Standing shadowState strictSheaf := by constructor <;> rfl

/-- Checks of a global access that let it go. -/
def Checked.goes : Checked → Bool
  | .go _ _ => true
  | .stop _ => false

theorem go_of_goes {c : Checked} (h : c.goes = true) : ∃ xs t, c = .go xs t := by
  cases c with
  | go xs t => exact ⟨xs, t, rfl⟩
  | stop a => cases h

theorem runsFirst : RunsRepeat shadowState (shadowState.groupStart strictSheaf) 0 (offsetLoad 30) shadowState afterFirst :=
  ⟨offsetRule 30, strictSheaf, strictSheaf, rfl, rfl, rfl, rfl, fun h => (by cases h), fun h => (by cases h), rfl, rfl,
    Or.inr ⟨by decide, go_of_goes rfl, rfl⟩⟩

theorem runsSecond : RunsRepeat shadowState (shadowState.groupStart strictSheaf) 1 (offsetLoad 31) afterFirst afterSecond :=
  ⟨offsetRule 31, firstSheaf, secondSheaf, rfl, rfl, rfl, rfl, fun h => (by cases h), fun h => (by cases h), rfl, rfl,
    Or.inr ⟨by decide, go_of_goes rfl, rfl⟩⟩

/-- The machine remembers the register of the first sheaf's window. -/
theorem offsetLoad_remembers : rememberedWrites (exec (offsetLoad 30) shadowState) = some [31] := rfl

/-- The state that the statement has it go on to remembers that of the second sheaf's window. -/
theorem afterSecond_remembers : rememberedWrites (.next ((afterSecond.trap { shadowState.slot with index := 2 }
    { TrapInfo.at cIllegal 0 0 (shadowState.slot.word.setWidth 64) with reprem := 1 }).settle)) = some [32] := rfl

/-! ## A barrier whose last member releases the others (R274, R278) -/

/-- A group of two sheaves, one of which has arrived. -/
def pairGroup : GroupEntry := { number := 0, members := 3, quartet := false, poison := false, phase := 0, arrived := 1 }

/-- The sheaf that has arrived and waits, in slot 1, a load of its page in flight. -/
def waitingMember : Sheaf :=
  { probeSheaf with
    idx := 1, slotNo := 1, state := .waiting, arr := [0], wait := some { kind := .barrier 0 0, slot := slotFor 1 probeCode 1 Hints.none },
    pend := [{
      id := 1, addr := probeCode, varying := true, regs := [0], lanes := 1, whole := false, window := 0, kind := .load 4 .none,
      source := [{ lane := 0, paddr := 0x10400, kh := 0, key := 0, grain := 0, fresh := false }], data := [], bound := false, mark := 0 }] }

/-- A sheaf of slot 1 with a measured lease that has FAULTED with a computed result in flight. -/
def faultedSheaf : Sheaf :=
  { probeSheaf with
    slotNo := 1, state := .faulted, faulted := 0xFFFFFFFF, lease := { probeSheaf.lease with measured := true },
    pend := [{
      id := 2, addr := probeCode, varying := true, regs := [0], lanes := 1, whole := false, window := 0, kind := .value, source := [],
      data := [(0, [0])], bound := true, mark := 0 }] }

/-- The machine with the arriving sheaf in its issue slot, the waiting one beside it, the faulted one later under the name of the first, and the line
of the page among the victims of slot 1. -/
def barrierState : State :=
  let s := ((({ State.reset.withFetchWord 32 0 with slot := slotFor 0 probeCode 0xFFFFFFFF Hints.none }).setTuft 0
    { probeTuft with sheaves := [0, 1], groups := [pairGroup] }).setSheaf 0 probeSheaf).setSheaf 1 waitingMember
  ({ s with sheaves := s.sheaves ++ [(0, faultedSheaf)] }).modCore 0 (fun k => { k with victims := [(lineOf 0x10400, 1)] })

theorem barrierState_ready : Ready barrierState probeSheaf := by constructor <;> rfl

/-- How many results of sheaf 0 are in flight, in the state that an outcome goes on to. -/
def inFlightOf0 (o : Host.Outcome State Fault Refusal) : Option Nat :=
  match o with
  | .next t => (t.sheaf? 0).map (fun x => x.pend.length)
  | _ => none

/-- The machine stops there, the sheaf being over. -/
theorem bsync_stops : inFlightOf0 (exec (.bsync 15 0 0) barrierState) = some 1 := rfl

/-- The rule of BSYNC. -/
def bsyncRule : ActRule :=
  { g := 15, n := 0, wide := true, outcome := fun s slot sh => ofGroup s slot sh 0 (fun _ e => arrival s slot sh 0 e (
      let t := if sh.arr.contains 0 then s else s.arriveNow slot.sid sh.tid 0
      if t.phaseOf sh.tid 0 = some e.phase then .wait (.barrier 0 e.phase) t else .next (t.acquire slot.sid 1))) }

/-- The rule goes on to an acquire, which brings the result in. -/
theorem bsyncRule_acquires : ∃ a, bsyncRule.outcome (barrierState.begun probeSheaf) (barrierState.here probeSheaf 15 0) probeSheaf.begun = some a ∧
    inFlightOf0 (.next (endAct (barrierState.here probeSheaf 15 0) (barrierState.began probeSheaf) a).settle) = some 0 := ⟨_, rfl, rfl⟩

end Sys2Proof.Machine
open Sys2Proof Sys2Proof.Machine

/-- Refutes O24: in `shadowState` the list of sheaves holds two under one name. Bringing in the first repeat's load takes a victim grant of the
second one, which stands in place of the first from then on; the second repeat is remembered as a write of register 31, as its window began, where
the statement has register 32, as the window of the sheaf that it goes on with. -/
theorem not_repeatsStepTheirFields : ¬ Obligations.RepeatsStepTheirFields := by
  unfold Obligations.RepeatsStepTheirFields
  rintro ⟨hruns, -⟩
  have hform := RepeatForm.glob (mk := fun g n d o b => Instr.ldg g n d o b 0 0) 0 0 (by simp [repeatGlobal]) 15 0 30 30 0
  obtain ⟨-, htraps⟩ := hruns _ _ _ _ threeRepeats shadowState strictSheaf hform shadowState_standing rfl ⟨Or.inl rfl, Or.inl rfl⟩ rfl rfl (by decide)
    (fun _ => rfl) (fun h => by cases h)
  have hrun := htraps 2 afterSecond lastSheaf (by decide) (by decide) (.more (.more .none rfl runsFirst) rfl runsSecond) rfl rfl (fun _ h => by cases h)
  have hsame : some [31] = some [32] := by
    rw [← offsetLoad_remembers, ← afterSecond_remembers]
    exact congrArg rememberedWrites hrun
  exact absurd hsame (by decide)

/-- Refutes O32: in `barrierState` the list of sheaves holds two under the name of the arriving one. Releasing the other member takes a victim grant of
the second, which has FAULTED and stands in place of the first from then on; BSYNC stops there, as its sheaf is over, where the table goes on to an
acquire, which brings in what that sheaf has in flight. -/
theorem not_barrierInstructions : ¬ Obligations.BarrierInstructions := by
  unfold Obligations.BarrierInstructions
  rintro ⟨hacts, -⟩
  obtain ⟨a, hout, hacquires⟩ := bsyncRule_acquires
  have hrun : exec (.bsync 15 0 0) barrierState = .next (endAct (barrierState.here probeSheaf 15 0) (barrierState.began probeSheaf) a).settle :=
    (hacts (.bsync 15 0 0) bsyncRule barrierState probeSheaf rfl rfl barrierState_ready ⟨Or.inl rfl, Or.inl rfl⟩ (fun _ => ⟨rfl, Or.inr rfl⟩) rfl
      trivial).2 a (Or.inl (by decide)) hout
  have hsame : some 1 = some 0 := by rw [← bsync_stops, hrun, hacquires]
  exact absurd hsame (by decide)
end

/-! PROOFS. Shuffles (R122, R123): what each of the four kinds leaves in flight, and what one without members does. -/
section
namespace Sys2Proof.Machine

section
variable {i : Instr} {r : SheafRule} {kind : Nat} {source : Int → Int → Int} {g : BitVec 4} {n : BitVec 1} {d a : BitVec 5} {b : BitVec 8} {m : BitVec 3}
  {s t : State} {sh x : Sheaf} {slot slot' : Slot}

/-- An instruction is the shuffle of a kind, whose lanes are those of a source function: its rule and its body have the same operands. -/
structure Shuffles (i : Instr) (r : SheafRule) (kind : Nat) (source : Int → Int → Int) (g : BitVec 4) (n : BitVec 1) (d a : BitVec 5) (b : BitVec 8)
    (m : BitVec 3) : Prop where
  rule    : r = .shuffle source g n d a b m
  runs    : ∀ s, exec i s = issued formShuffle g n (shuffleOp kind d.toNat a.toNat b.toNat m.toNat) s
  guard   : i.wf = guardOk g.toNat n.toNat
  ximm    : takesXimm i = false
  la      : takesLa i = true
  sources : ∀ l c : Nat, shuffleSource kind l c = source l c

theorem shuffleRule_shuffles (hrule : shuffleRule i = some r) : ∃ kind source g n d a b m, Shuffles i r kind source g n d a b m := by
  unfold shuffleRule at hrule
  split at hrule <;> cases hrule
  case h_1 => exact ⟨0, _, _, _, _, _, _, _, rfl, fun _ => rfl, rfl, rfl, rfl, fun _ _ => rfl⟩
  case h_2 => exact ⟨1, _, _, _, _, _, _, _, rfl, fun _ => rfl, rfl, rfl, rfl, fun _ _ => rfl⟩
  case h_3 => exact ⟨2, _, _, _, _, _, _, _, rfl, fun _ => rfl, rfl, rfl, rfl, fun _ _ => rfl⟩
  case h_4 => exact ⟨3, _, _, _, _, _, _, _, rfl, fun _ => rfl, rfl, rfl, rfl, fun _ _ => rfl⟩

theorem shuffleRule_acts (hrule : shuffleRule i = some r) (hwf : i.wf = true) : ∃ f op, SheafActs i r f op s sh := by
  obtain ⟨_, _, _, _, _, _, _, _, hsh⟩ := shuffleRule_shuffles hrule
  cases hsh.rule
  exact ⟨_, _, hsh.runs s, hsh.guard.symm.trans hwf, hsh.ximm, hsh.la, rfl, rfl, shuffle_meets hsh.sources⟩

/-! ## A shuffle without members -/

theorem windowOf_here (s : State) (sh : Sheaf) (g n : Nat) : windowOf (s.here sh g n) = windowOf s.slot := by
  simp only [windowOf, State.here_la]

theorem noMembers_of_not_fits {acting : Mask} (hfit : (SheafRule.shuffle source g n d a b m).fits sh acting = false) : sh.members m acting = 0 := by
  simpa [SheafRule.shuffle] using hfit

/-- A sheaf in which a lookahead window has begun for no lanes: what stands in flight holds no words (R99). -/
def Sheaf.windowed (sh : Sheaf) (slot : Slot) (id d : Nat) : Sheaf := sh.pendV { slot with acting := 0 } id d (windowOf slot) (fun _ => 0) 0

theorem Sheaf.windowed_eq (sh : Sheaf) (slot : Slot) (id d : Nat) (f : Nat → Word) :
    sh.pendV { slot with acting := 0 } id d (windowOf slot) f 0 = sh.windowed slot id d := by
  have hnone : lanesOf 0 = [] := by decide
  simp only [Sheaf.windowed, Sheaf.pendV, hnone, List.map_nil]

theorem Sheaf.windowed_still (sh : Sheaf) (slot : Slot) (id d : Nat) : (sh.windowed slot id d).still = sh.still := by
  simp [Sheaf.windowed, Sheaf.pendV, Sheaf.addPending, Sheaf.still]

/-- Without members and without a window a shuffle's body changes nothing (R122). -/
theorem shuffleOp_body_noWindow {d a b : Nat} (hk : sh.members m slot.acting = 0) (hw : windowOf slot = 0) :
    (shuffleOp kind d a b m.toNat slot').body slot sh s = .next s := by
  simp only [shuffleOp, members_eq, hk, lookahead_eq, hw, beq_self_eq_true, Bool.and_self, if_true]

/-- Without members a shuffle with an LA takes a name for its window, and begins it (R99). -/
theorem shuffleOp_body_window {d a b : Nat} (hk : sh.members m slot.acting = 0) (hw : windowOf slot ≠ 0) :
    (shuffleOp kind d a b m.toNat slot').body slot sh s =
      .next ({ s with nextId := s.nextId + 1 }.setSheaf slot.sid (sh.windowed slot s.nextId d)) := by
  simp only [shuffleOp, members_eq, hk, lookahead_eq, beq_self_eq_true, beq_eq_false_iff_ne.mpr hw, Bool.and_false, Bool.false_eq_true, if_false, if_true,
    Sheaf.windowed_eq]

/-- A shuffle whose body leaves a sheaf x that is still what its sheaf was ends so, in the body's state. -/
theorem Shuffles.ends_of_body (hsh : Shuffles i r kind source g n d a b m) (hwf : i.wf = true) (hr : Ready s sh) (hpx : Prefixed i s)
    (ha : (s.here sh g.toNat n.toNat).acting ≠ 0)
    (hbody : (shuffleOp kind d.toNat a.toNat b.toNat m.toNat (s.here sh g.toNat n.toNat)).body (s.here sh g.toNat n.toNat) sh.begun (s.begun sh) =
      .next (t.setSheaf s.slot.sid x))
    (he : x.atLoopEnd s.slot.addr = false) (hv : x.live = sh.live) (hp : x.pcv = sh.pcv) (ho : x.over = false) (hstill : x.still = sh.begun.still) :
    Ends i s t sh sh := by
  unfold Ends
  rw [hsh.runs]
  obtain ⟨sh', hrun, hsame, hpcs⟩ := sheaf_ends hr (prefixes_ok (f := formShuffle) hpx hr.norep hsh.ximm hsh.la) (hsh.guard.symm.trans hwf) rfl
    (fun h => by cases h) rfl rfl (Or.inl ha) hbody he hv hp ho
  exact ⟨sh', hrun, (hsame.trans hstill).trans (Sheaf.begun_still sh), hpcs⟩

/-- A shuffle without members leaves its sheaf as it was; it takes a name where it opens a window (R99, R122). -/
theorem Shuffles.ends_noMembers (hsh : Shuffles i r kind source g n d a b m) (hwf : i.wf = true) (hr : Ready s sh) (hpx : Prefixed i s)
    (ha : (r.slot s sh).acting ≠ 0) (hfit : r.fits sh (r.slot s sh).acting = false) :
    Ends i s (if windowOf s.slot = 0 then s else r.after s) sh sh := by
  cases hsh.rule
  have hover := Sheaf.over_of_issuing hr.issuing
  have hk : sh.begun.members m (s.here sh g.toNat n.toNat).acting = 0 := noMembers_of_not_fits (sh := sh) hfit
  rw [← windowOf_here s sh g.toNat n.toNat]
  split
  case isTrue hw => exact hsh.ends_of_body hwf hr hpx ha (shuffleOp_body_noWindow hk hw) hr.noend rfl rfl hover rfl
  case isFalse hw =>
    refine hsh.ends_of_body hwf hr hpx ha (x := sh.begun.windowed (s.here sh g.toNat n.toNat) s.nextId d.toNat)
      ((shuffleOp_body_window hk hw).trans ?_) hr.noend rfl rfl hover (Sheaf.windowed_still ..)
    simp only [State.here_sid, State.begun, State.setSheaf, Map.put_put]
    rfl

end

end Sys2Proof.Machine

open Sys2Proof Sys2Proof.Machine

/-- Settles O21: the four kinds issue with one body, which meets the rule of R122; without members that body does no more than open the window
of an LA. -/
theorem shuffleResults : Obligations.ShuffleResults := by
  refine ⟨rules_of_sheafActs fun _ _ _ _ hrule hwf _ _ => shuffleRule_acts hrule hwf, ?_⟩
  intro i r s sh hrule hwf hr hpx hacting hfit
  obtain ⟨_, _, _, _, _, _, _, _, hsh⟩ := shuffleRule_shuffles hrule
  exact hsh.ends_noMembers hwf hr hpx hacting hfit

end

/-! PROOFS. Instructions that write registers of their sheaf alone (R126, R158): how their sheaf ends, and that no wait ends with them. -/
section
namespace Sys2Proof.Machine

/-! ## The end of an instruction leaves its sheaf able to go on (R33) -/

theorem Sheaf.startRound_state (sh : Sheaf) : sh.startRound.state = sh.state := by
  simp only [Sheaf.startRound]; split <;> rfl

theorem Sheaf.nextTurn_state (sh : Sheaf) : sh.nextTurn.state = sh.state := by
  simp only [Sheaf.nextTurn]; split
  · exact sh.startRound_state
  · rfl

theorem Sheaf.afterIssue_state (sh : Sheaf) (m : Mask) : (sh.afterIssue m).state = sh.state := by
  simp only [Sheaf.afterIssue]; split
  · rfl
  · split
    · exact Sheaf.nextTurn_state _
    · simp only [Sheaf.expireTurn]; split
      · exact Sheaf.nextTurn_state _
      · rfl

theorem Sheaf.ended_state (sh : Sheaf) (slot : Slot) (taken : Mask) (target : Nat → Addr) (leaves : Bool) :
    (sh.ended slot taken target leaves).state = sh.goOn.state := by
  simp only [Sheaf.ended]; split <;> rfl

theorem Sheaf.finish_state {sh : Sheaf} {slot : Slot} (taken : Mask) (target : Nat → Addr) (leaves : Bool) (start : Nat)
    (h : sh.atLoopEnd slot.addr = false) : (sh.finish slot taken target leaves start).state = sh.goOn.state := by
  rw [← Sheaf.ended_state sh slot taken target leaves]
  rcases Sheaf.finish_cases taken target leaves start h with e | e | ⟨m, e⟩
  · rw [e]
  · rw [e]; rfl
  · rw [e, Sheaf.afterIssue_state]; rfl

/-- A sheaf that goes on does not wait (R33). -/
theorem Sheaf.goOn_state_ne_waiting (sh : Sheaf) : sh.goOn.state ≠ .waiting := by
  simp only [Sheaf.goOn]; split <;> decide

theorem State.ending_state_ne_waiting {s : State} {sh x : Sheaf} {g n : Nat} {writes : List Nat} (h : x.atLoopEnd s.slot.addr = false) :
    (s.ending sh x g n writes).state ≠ .waiting := by
  have hnoted : (x.noted (writes.map sh.phys)).atLoopEnd s.slot.addr = false := by simp only [Sheaf.noted]; split <;> exact h
  unfold State.ending
  split
  · rw [Sheaf.finish_state _ _ _ _ (by rw [State.here_addr]; exact h)]
    exact Sheaf.goOn_state_ne_waiting _
  · rw [Sheaf.finish_state _ _ _ _ (by rw [State.here_addr]; exact hnoted)]
    exact Sheaf.goOn_state_ne_waiting _

/-! ## Where no sheaf waits, no wait ends -/

theorem Map.eq_or_mem_of_mem_put {α : Type} {m : Map α} {k : Nat} {v : α} {e : Nat × α} (h : e ∈ Map.put m k v) : e = (k, v) ∨ e ∈ m := by
  induction m with
  | nil => exact Or.inl (List.mem_singleton.mp h)
  | cons x m ih =>
    obtain ⟨k', v'⟩ := x
    simp only [Map.put] at h
    split at h
    · exact (List.mem_cons.mp h).imp_right (List.mem_cons_of_mem _)
    · split at h
      · exact List.mem_cons.mp h
      · rcases List.mem_cons.mp h with h | h
        · exact Or.inr (h ▸ List.mem_cons_self)
        · exact (ih h).imp_right (List.mem_cons_of_mem _)

theorem State.waiting_eq_nil_iff {s : State} : s.waiting = [] ↔ ∀ e ∈ s.sheaves, s.waitsHere e.2 = false := by
  simp only [State.waiting, List.map_eq_nil_iff, List.filter_eq_nil_iff, Bool.not_eq_true]

theorem State.settle_of_waiting_eq_nil {s : State} (h : s.waiting = []) : s.settle = s := by
  have hpass : s.settlePass = s := by simp only [State.settlePass, h, State.forEach_nil]
  simp only [State.settle, h, List.length_nil, State.settleFrom, hpass, beq_self_eq_true, if_true]

/-- A sheaf that does not wait, put in place where none waits, leaves none waiting. -/
theorem State.setSheaf_waiting_eq_nil {s : State} (h : s.waiting = []) (sid : Nat) {x : Sheaf} (hx : x.state ≠ .waiting) :
    (s.setSheaf sid x).waiting = [] := by
  rw [State.waiting_eq_nil_iff] at h ⊢
  intro e he
  rcases Map.eq_or_mem_of_mem_put he with rfl | hm
  · simp only [State.waitsHere, beq_eq_false_iff_ne.mpr hx, Bool.false_and]
  · exact h e hm

/-! ## What an instruction of a sheaf rule makes of the machine -/

/-- A body that goes on with a sheaf x in a state t ends in t with that sheaf, its lanes advanced. -/
theorem issue_puts {f : Form} {g n : Nat} {op : Slot → Op} {s t : State} {sh x : Sheaf} (hr : Ready s sh) (hpx : f.prefixesOk s.slot = true)
    (hg : guardOk g n = true) (hrole : f.role.issues sh.role = true)
    (hw : f.wide = true → s.slot.lanes = sh.live ∧ (f.liveOnly = true ∨ guardUniform (s.here sh g n) = true))
    (hok : (op (s.here sh g n)).ok = true) (hl : (op (s.here sh g n)).legal sh.begun (s.begun sh) = true)
    (ha : (s.here sh g n).acting ≠ 0) (ho : x.over = false)
    (hb : (op (s.here sh g n)).body (s.here sh g n) sh.begun (s.begun sh) = .next (t.setSheaf s.slot.sid x)) :
    issue f g n op s = (t.setSheaf s.slot.sid (s.ending sh x g n (op (s.here sh g n)).writes)).settle := by
  have hacts : ((s.here sh g n).acting == 0 && !f.always) = false := by rw [beq_eq_false_iff_ne.mpr ha]; rfl
  have hphys : sh.begun.phys = sh.phys := rfl
  have hsid : s.slot.sid = (s.here sh g n).sid := (State.here_sid ..).symm
  rw [issue_ready hr hpx hg hrole hw hok hl]
  simp only [actOf, hacts, hb, Bool.false_eq_true, if_false, State.ending, hphys]
  split
  · rw [endAct, hsid, State.finish_here ho]
  · rw [State.here_sid, Act.noteWrites_next, endAct, hsid, State.finish_here ((Sheaf.noted_over _ _).trans ho)]

/-- An instruction of a sheaf rule, where no sheaf waits, makes a state that differs in its own sheaf, and in the counter of names if its
result is late. -/
theorem SheafActs.exec_eq {i : Instr} {r : SheafRule} {f : Form} {op : Slot → Op} {s : State} {sh : Sheaf} (ha : SheafActs i r f op s sh)
    (hr : Ready s sh) (hpx : Prefixed i s) (hw : r.wide = true → Wide s sh r.g.toNat r.n.toNat) (hacting : (r.slot s sh).acting ≠ 0)
    (hfit : r.fits sh (r.slot s sh).acting = true) (hwaiting : s.waiting = []) : ∃ sh', exec i s = .next ((r.after s).setSheaf s.slot.sid sh') := by
  have hm := ha.meets
  have hissue := issue_puts hr (prefixes_ok hpx hr.norep ha.ximm ha.la) ha.guard ha.role
    (fun h => ⟨(hw (hm.wide h)).converged, Or.inr (hw (hm.wide h)).uniform⟩) hm.ok hm.legal hacting
    (hm.stands.trans (Sheaf.over_of_issuing hr.issuing)) (hm.body hacting hfit)
  have hafter : (r.after s).waiting = [] := by unfold SheafRule.after; split <;> exact hwaiting
  have hsettled := State.settle_of_waiting_eq_nil
    (State.setSheaf_waiting_eq_nil hafter s.slot.sid (State.ending_state_ne_waiting (g := r.g.toNat) (n := r.n.toNat) (sh := sh)
      (writes := (op (s.here sh r.g.toNat r.n.toNat)).writes) (hm.loops.trans hr.noend)))
  exact ⟨_, ha.runs.trans (congrArg Host.Outcome.next (hissue.trans hsettled))⟩

/-- What such a state holds beside that sheaf is what the machine held. -/
theorem SheafRule.after_leaves (r : SheafRule) (s : State) (sid : Nat) (x : Sheaf) :
    (∀ key a, ((r.after s).setSheaf sid x).viewByte key a = s.viewByte key a) ∧ ∀ y, y ≠ sid → ((r.after s).setSheaf sid x).sheaf? y = s.sheaf? y := by
  have hview : ∀ key a, (r.after s).viewByte key a = s.viewByte key a := by unfold SheafRule.after; split <;> exact fun _ _ => rfl
  have hsheaf : ∀ y, (r.after s).sheaf? y = s.sheaf? y := by unfold SheafRule.after; split <;> exact fun _ => rfl
  exact ⟨hview, fun y hy => (State.setSheaf_sheaf?_ne _ x hy).trans (hsheaf y)⟩

end Sys2Proof.Machine
end

/-! PROOFS. Uniform, predicate, affine and demoting instructions (R128 to R135): each issues with a body that meets its rule. -/
section
namespace Sys2Proof.Machine

/-! ## Uniform integers (R128, R130, R132) -/

section
variable {i : Instr} {r : SheafRule} {g : BitVec 4} {n : BitVec 1} {d b : BitVec 8} {s : State} {sh : Sheaf}

/-- A UR instruction that completes at once (R127, R128), its function that of the table. -/
theorem ur_acts {readsD : Bool} {F F' : Word → Word → Word × Word} (hruns : exec i s = issued formUr g n (urOp readsD F d.toNat b.toNat) s)
    (hximm : takesXimm i = false) (hla : takesLa i = false) (hwf : (guardOk g.toNat n.toNat && okUR d.toNat b.toNat) = true)
    (hF : ∀ x y, F x y = F' x y) (hr : Ready s sh) : ∃ f op, SheafActs i (.ur readsD g n d b F') f op s sh := by
  obtain ⟨hg, hok⟩ := Bool.and_eq_true_iff.mp hwf
  exact ⟨_, _, hruns, hg, hximm, hla, rfl, rfl, ur_meets readsD hok hF hr⟩

/-- SADD.W and SSUB.W (R128). -/
theorem urWide_acts {F : BitVec 64 → BitVec 64 → BitVec 64} (hruns : exec i s = issued formUr g n (urWideOp F d.toNat b.toNat) s)
    (hximm : takesXimm i = false) (hla : takesLa i = false) (hwf : (guardOk g.toNat n.toNat && okURW d.toNat b.toNat) = true) (hr : Ready s sh) :
    ∃ f op, SheafActs i (.urWide g n d b F) f op s sh := by
  obtain ⟨hg, hok⟩ := Bool.and_eq_true_iff.mp hwf
  exact ⟨_, _, hruns, hg, hximm, hla, rfl, rfl, urWide_meets hok hr⟩

/-- A body that puts the sheaf of a plain rule in place meets it. -/
theorem plain_meets {f : Form} {op : Slot → Op} {effect : State → Slot → Sheaf → Sheaf}
    (hok : (op (s.here sh g.toNat n.toNat)).ok = true) (hl : (op (s.here sh g.toNat n.toNat)).legal = fun _ _ => true)
    (hb : (op (s.here sh g.toNat n.toNat)).body (s.here sh g.toNat n.toNat) sh.begun (s.begun sh) =
      Act.ofSheaf (s.here sh g.toNat n.toNat) (s.begun sh) (effect s (s.here sh g.toNat n.toNat) sh.begun))
    (hloops : (effect s (s.here sh g.toNat n.toNat) sh.begun).atLoopEnd s.slot.addr = sh.atLoopEnd s.slot.addr)
    (hlive : (effect s (s.here sh g.toNat n.toNat) sh.begun).live = sh.live) (hpcv : (effect s (s.here sh g.toNat n.toNat) sh.begun).pcv = sh.pcv)
    (hover : (effect s (s.here sh g.toNat n.toNat) sh.begun).over = sh.over) : Meets (.plain g n true effect) f op s sh := by
  refine ⟨fun _ => rfl, hok, ?_, ?_, hloops, hlive, hpcv, hover⟩
  · simp only [SheafRule.slot, SheafRule.plain, hl]
  · intro _ _
    refine hb.trans ?_
    simp only [SheafRule.slot, SheafRule.plain, Act.ofSheaf, State.here_sid, State.begun, State.setSheaf_setSheaf, SheafRule.after,
      Bool.false_eq_true, if_false]

theorem le_of_isU {b : Nat} (h : isU b = true) : 64 ≤ b := by
  simp only [isU, Bool.and_eq_true, decide_eq_true_eq] at h
  exact h.1

/-- SMOVI and SADDI (R130). -/
theorem uiOp_meets {readsD : Bool} {F : Word → Word → Word} {imm : BitVec 13} {mark : Sheaf → Mark} (hd : isU d.toNat = true)
    (hM : ∀ sh : Sheaf, (if readsD then sh.operandMark d.toNat else 0) = mark sh) :
    Meets (.plain g n true (fun _ slot sh => sh.writeU (d.toNat - 64) (F (sh.readU (d.toNat - 64)) (immediateWord slot imm)) (mark sh)))
      formUi (uiOp readsD F d.toNat imm) s sh := by
  refine plain_meets hd rfl ?_ rfl rfl rfl rfl
  simp only [uiOp, immediate_eq, hM]
  rfl

/-- sd takes a word of an affine register, with its mark (R132). -/
def SheafRule.aget (F : AReg → Word) (g : BitVec 4) (n : BitVec 1) (d a : BitVec 8) : SheafRule :=
  .plain g n true (fun _ _ sh => sh.writeU (d.toNat - 64) (F (sh.readA (a.toNat - 32))) (sh.readA (a.toNat - 32)).mark)

/-- AGETB, AGETS and AGETW (R132). -/
theorem aget_acts {a : BitVec 8} {F F' : AReg → Word} (hruns : exec i s = issued formSr g n (agetOp F d.toNat a.toNat) s)
    (hximm : takesXimm i = false) (hla : takesLa i = false) (hwf : (guardOk g.toNat n.toNat && isU d.toNat && isA a.toNat) = true)
    (hF : ∀ x, F x = F' x) : ∃ f op, SheafActs i (.aget F' g n d a) f op s sh := by
  have hF : F = F' := funext hF
  subst hF
  rw [Bool.and_assoc] at hwf
  obtain ⟨hg, hok⟩ := Bool.and_eq_true_iff.mp hwf
  exact ⟨_, _, hruns, hg, hximm, hla, rfl, rfl, plain_meets hok rfl rfl rfl rfl rfl rfl⟩

/-- SMOVP (R128). -/
theorem smovpOp_meets (hr : Ready s sh) (hok : okSmovp d.toNat b.toNat = true) :
    Meets (.plain g n true (fun _ _ sh => sh.writeU (d.toNat - 64) (sh.preg b.toNat).val (sh.preg b.toNat).mark)) formUr (smovpOp d.toNat b.toNat) s sh := by
  refine plain_meets ?_ rfl ?_ rfl rfl rfl rfl
  · simp only [smovpOp, here_steps hr, stepB_zero, stepP_zero, hok]
  · simp only [smovpOp, here_steps hr, stepB_zero, stepP_zero]
    rfl

/-- PMOVS (R128). -/
theorem pmovsOp_meets (hr : Ready s sh) (hok : okPmovs d.toNat b.toNat = true) :
    Meets (.plain g n true (fun _ _ sh => sh.writePAll d.toNat (sh.readU (b.toNat - 64)) (sh.ureg (b.toNat - 64)).mark)) formUr
      (pmovsOp d.toNat b.toNat) s sh := by
  have hb : 64 ≤ b.toNat := le_of_isU (Bool.and_eq_true_iff.mp hok).2
  refine plain_meets ?_ rfl ?_ rfl rfl rfl rfl
  · simp only [pmovsOp, here_steps hr, stepB_zero, stepP_zero, hok]
  · simp only [pmovsOp, here_steps hr, stepB_zero, stepP_zero, operandMark_uniform _ hb]
    rfl

/-- The model's truth value is the table's. -/
theorem truth_eq (c : Bool) {p : Prop} [Decidable p] (h : c = true ↔ p) : truth c = bitWord p := by
  unfold truth bitWord; by_cases hp : p <;> simp [hp, h]

/-- AGETW's word: the two bits are apart (R132). -/
theorem agetwWord_eq (x : AReg) : ((if x.ws then 1 else 0) ||| (if x.wu then 2 else 0) : Word) = bitWord (x.ws = true) + 2 * bitWord (x.wu = true) := by
  cases x.ws <;> cases x.wu <;> rfl

theorem uniformRule_acts (hrule : uniformRule i = some r) (hwf : i.wf = true) (hr : Ready s sh) : ∃ f op, SheafActs i r f op s sh := by
  unfold uniformRule at hrule
  split at hrule <;> cases hrule
  case h_1 | h_2 | h_3 | h_4 | h_7 | h_8 | h_9 | h_10 | h_14 | h_15 | h_16 | h_17 | h_18 =>
    exact ur_acts rfl rfl rfl hwf (fun _ _ => rfl) hr
  case h_5 => exact ur_acts rfl rfl rfl hwf (fun x y => congrArg (·, 0) (aluMulhS_eq x y)) hr
  case h_6 => exact ur_acts rfl rfl rfl hwf (fun x y => congrArg (·, 0) (aluMulhU_eq x y)) hr
  case h_11 => exact ur_acts rfl rfl rfl hwf (fun x y => congrArg (·, 0) (aluShl_eq x y)) hr
  case h_12 => exact ur_acts rfl rfl rfl hwf (fun x y => congrArg (·, 0) (aluShrU_eq x y)) hr
  case h_13 => exact ur_acts rfl rfl rfl hwf (fun x y => congrArg (·, 0) (aluShrS_eq x y)) hr
  case h_19 => exact ur_acts rfl rfl rfl hwf (fun _ y => congrArg (·, 0) (aluPopc_eq y)) hr
  case h_20 => exact ur_acts rfl rfl rfl hwf (fun _ y => congrArg (·, 0) (aluClz_eq y)) hr
  case h_21 => exact ur_acts rfl rfl rfl hwf (fun _ _ => congrArg (·, 0) (truth_eq _ beq_iff_eq)) hr
  case h_22 => exact ur_acts rfl rfl rfl hwf (fun _ _ => congrArg (·, 0) (truth_eq _ bne_iff_ne)) hr
  case h_23 | h_24 => exact ur_acts rfl rfl rfl hwf (fun _ _ => congrArg (·, 0) (truth_eq _ decide_eq_true_iff)) hr
  case h_25 | h_26 => exact urWide_acts rfl rfl rfl hwf hr
  case h_27 =>
    obtain ⟨hg, hok⟩ := Bool.and_eq_true_iff.mp hwf
    exact ⟨_, _, rfl, hg, rfl, rfl, rfl, rfl, smovpOp_meets hr hok⟩
  case h_28 =>
    obtain ⟨hg, hok⟩ := Bool.and_eq_true_iff.mp hwf
    exact ⟨_, _, rfl, hg, rfl, rfl, rfl, rfl, pmovsOp_meets hr hok⟩
  case h_29 =>
    obtain ⟨hg, hd⟩ := Bool.and_eq_true_iff.mp hwf
    exact ⟨_, _, rfl, hg, rfl, rfl, rfl, rfl, uiOp_meets (F := fun _ x => x) hd (fun _ => rfl)⟩
  case h_30 =>
    obtain ⟨hg, hd⟩ := Bool.and_eq_true_iff.mp hwf
    exact ⟨_, _, rfl, hg, rfl, rfl, rfl, rfl, uiOp_meets (F := fun d x => d + x) hd (fun sh => operandMark_uniform sh (le_of_isU hd))⟩
  case h_31 => exact aget_acts (F' := AReg.base) rfl rfl rfl hwf (fun _ => rfl)
  case h_32 => exact aget_acts (F' := AReg.stride) rfl rfl rfl hwf (fun _ => rfl)
  case h_33 => exact aget_acts (F' := fun x => bitWord (x.ws = true) + 2 * bitWord (x.wu = true)) rfl rfl rfl hwf agetwWord_eq

/-! ## Uniform floating point (R129) -/

theorem floatCond_lt (a b : Word) : floatCond 2 a b = compareWord true (· == .lt) a b := by
  unfold floatCond compareWord; cases fp32.compare a.toNat b.toNat <;> rfl

theorem floatCond_le (a b : Word) : floatCond 3 a b = compareWord true (· != .gt) a b := by
  unfold floatCond compareWord; cases fp32.compare a.toNat b.toNat <;> rfl

theorem floatCond_eq_zero (a b : Word) : floatCond 0 a b = compareWord false (· == .eq) a b := by
  unfold floatCond compareWord; cases fp32.compare a.toNat b.toNat <;> rfl

/-- The word of a compare is 1 or 0 (R129). -/
theorem truthOf_compare {x y : Bool × Word} (h : x = y) : (truth x.1, x.2) = (bitWord (y.1 = true), y.2) := by
  rw [h, truth_eq _ Iff.rfl]

theorem uniformFloatRule_acts (hrule : uniformFloatRule i = some r) (hwf : i.wf = true) (hr : Ready s sh) : ∃ f op, SheafActs i r f op s sh := by
  unfold uniformFloatRule at hrule
  split at hrule <;> cases hrule
  case h_1 | h_2 | h_3 | h_4 | h_5 | h_6 | h_7 | h_8 | h_9 | h_10 | h_11 | h_12 => exact ur_acts rfl rfl rfl hwf (fun _ _ => rfl) hr
  case h_13 => exact ur_acts rfl rfl rfl hwf (fun x y => truthOf_compare (floatCond_lt x y)) hr
  case h_14 => exact ur_acts rfl rfl rfl hwf (fun x y => truthOf_compare (floatCond_le x y)) hr
  case h_15 => exact ur_acts rfl rfl rfl hwf (fun x y => truthOf_compare (floatCond_eq_zero x y)) hr

/-! ## Predicates (R119, R120, R134) -/

/-- ACMP (R134): its compare raises no flags. -/
theorem acmp_meets {p c : BitVec 4} {a : BitVec 5} (hok : (predOk p.toNat && isAU b.toNat && decide (c.toNat < 10)) = true) :
    Meets (.toPred false g n p (fun sh => maxMark (sh.readA a.toNat).mark (sh.operandMark b.toNat))
      (fun sh l => (intTest c.toNat ((sh.readA a.toNat).base + BitVec.ofNat 32 l * (sh.readA a.toNat).stride) (sh.operand b.toNat l), 0)))
      Form.plain (acmpOp p.toNat a.toNat b.toNat c.toNat) s sh := by
  refine ⟨fun h => (by cases h), hok, rfl, ?_, rfl, rfl, rfl, rfl⟩
  intro _ _
  simp only [SheafRule.slot, SheafRule.toPred, SheafRule.plain, acmpOp, SheafRule.after, Act.ofSheaf, State.here_sid, State.begun,
    State.setSheaf_setSheaf, Bool.false_eq_true, if_false, raise_zero, intCond_eq, AReg.lane]

theorem marks_two (a b : Mark) : marks [a, b] = maxMark a b := by simp only [marks, List.foldl_cons, List.foldl_nil, maxMark_zero_left]

/-- A function of two predicates (R120). -/
theorem pp2_meets {d a b : BitVec 4} {F : Bool → Bool → Bool} {F' : Sheaf → Nat → Bool}
    (hok : (predOk d.toNat && predOk a.toNat && predOk b.toNat) = true) (hF : ∀ sh l, F (sh.predBit a l) (sh.predBit b l) = F' sh l) :
    Meets (.toPred false g n d (predMarks a b) (fun sh l => (F' sh l, 0))) formLogic (ppOp [a.toNat, b.toNat] (twoBits F) d.toNat) s sh := by
  refine pp_meets ?_ hF fun sh => marks_two _ _
  simpa only [List.all_cons, List.all_nil, Bool.and_true, Bool.and_assoc] using hok

/-- A function of one predicate (R120). -/
theorem pp1_meets {d a : BitVec 4} {F : List Bool → Bool} {F' : Sheaf → Nat → Bool} (hok : (predOk d.toNat && predOk a.toNat) = true)
    (hF : ∀ sh l, F [sh.predBit a l] = F' sh l) :
    Meets (.toPred false g n d (fun sh => (sh.preg a.toNat).mark) (fun sh l => (F' sh l, 0))) formLogic (ppOp [a.toNat] F d.toNat) s sh := by
  refine pp_meets ?_ hF fun sh => maxMark_zero_left _
  simpa only [List.all_cons, List.all_nil, Bool.and_true] using hok

theorem predRule_acts (hrule : predRule i = some r) (hwf : i.wf = true) (hrole : r.float = true → sh.role ≠ .stage) :
    ∃ f op, SheafActs i r f op s sh := by
  unfold predRule at hrule
  split at hrule <;> cases hrule
  case h_1 g n p a b c =>
    obtain ⟨hgp, hc⟩ := Bool.and_eq_true_iff.mp hwf
    obtain ⟨hg, hp⟩ := Bool.and_eq_true_iff.mp hgp
    exact ⟨_, _, rfl, hg, rfl, rfl, rfl, rfl, cmp_meets (F' := fun x y => (intTest c.toNat x y, 0)) (Bool.and_eq_true_iff.mpr ⟨hc, hp⟩)
      (fun x y => congrArg (·, 0) (intCond_eq _ x y)) rfl⟩
  case h_2 g n p a b c =>
    obtain ⟨hgp, hc⟩ := Bool.and_eq_true_iff.mp hwf
    obtain ⟨hg, hp⟩ := Bool.and_eq_true_iff.mp hgp
    exact ⟨_, _, rfl, hg, rfl, rfl, bne_iff_ne.mpr (hrole rfl), rfl, cmp_meets (F' := floatTest c.toNat) (Bool.and_eq_true_iff.mpr ⟨hc, hp⟩)
      (fun x y => floatCond_eq _ x y (of_decide_eq_true hc)) rfl⟩
  case h_3 =>
    obtain ⟨hg, hok⟩ := Bool.and_eq_true_iff.mp hwf
    exact ⟨_, _, rfl, hg, rfl, rfl, rfl, rfl, acmp_meets hok⟩
  case h_4 | h_5 | h_6 | h_7 =>
    simp only [Instr.wf, Bool.and_assoc] at hwf
    obtain ⟨hg, hok⟩ := Bool.and_eq_true_iff.mp hwf
    rw [← Bool.and_assoc] at hok
    exact ⟨_, _, rfl, hg, rfl, rfl, rfl, rfl, pp2_meets hok fun _ _ => rfl⟩
  case h_8 | h_9 =>
    simp only [Instr.wf, Bool.and_assoc] at hwf
    obtain ⟨hg, hok⟩ := Bool.and_eq_true_iff.mp hwf
    exact ⟨_, _, rfl, hg, rfl, rfl, rfl, rfl, pp1_meets hok fun _ _ => rfl⟩
  case h_10 | h_11 =>
    obtain ⟨hg, hok⟩ := Bool.and_eq_true_iff.mp hwf
    exact ⟨_, _, rfl, hg, rfl, rfl, rfl, rfl, pp_meets (by rw [hok]; rfl) (fun _ _ => rfl) (fun _ => rfl)⟩

/-! ## Affine registers (R133) -/

/-- An instruction of two affine sources (R133). -/
theorem af2_acts {i : Instr} {d a : BitVec 5} {bOk : Nat → Bool} {F F' : AReg → AReg → AffResult}
    (hruns : exec i s = issued formAf g n (afOp bOk F d.toNat a.toNat b.toNat) s) (hximm : takesXimm i = false) (hla : takesLa i = false)
    (hwf : (guardOk g.toNat n.toNat && bOk b.toNat) = true) (hau : bOk b.toNat = true → isAU b.toNat = true) (hF : ∀ x y, F x y = F' x y) (hr : Ready s sh) :
    ∃ f op, SheafActs i (.affine2 g n d a b F') f op s sh := by
  obtain ⟨hg, hb⟩ := Bool.and_eq_true_iff.mp hwf
  exact ⟨_, _, hruns, hg, hximm, hla, rfl, rfl, af2_meets hr hb (hau hb) hF⟩

theorem isAU_of_isU {b : Nat} (h : isU b = true) : isAU b = true := by simp only [isAU, h, Bool.or_true]

theorem affineRule_acts (hrule : affineRule i = some r) (hwf : i.wf = true) (hr : Ready s sh) : ∃ f op, SheafActs i r f op s sh := by
  unfold affineRule at hrule
  split at hrule <;> cases hrule
  case h_1 | h_2 => exact af2_acts rfl rfl rfl hwf id (fun _ _ => rfl) hr
  case h_3 => exact af2_acts rfl rfl rfl hwf isAU_of_isU (fun _ _ => rfl) hr
  case h_4 => exact af2_acts rfl rfl rfl hwf isAU_of_isU (fun _ _ => by simp only [Nat.cast_pow, Nat.cast_ofNat]) hr
  case h_5 =>
    obtain ⟨hg, hb⟩ := Bool.and_eq_true_iff.mp hwf
    exact ⟨_, _, rfl, hg, rfl, rfl, rfl, rfl, aff_meets hr hb (fun _ => rfl) rfl⟩
  case h_6 =>
    obtain ⟨hg, hb⟩ := Bool.and_eq_true_iff.mp hwf
    exact ⟨_, _, rfl, hg, rfl, rfl, rfl, rfl, aff_meets hr hb (fun sh => by rw [operandMark_uniform sh (le_of_isU hb)]; rfl) rfl⟩
  case h_7 => exact ⟨_, _, rfl, hwf, rfl, rfl, rfl, rfl, aneg_meets hr⟩
  case h_8 =>
    obtain ⟨hg, hb⟩ := Bool.and_eq_true_iff.mp hwf
    exact ⟨_, _, rfl, hg, rfl, rfl, rfl, rfl, aff_meets hr hb (fun _ => rfl) rfl⟩

end

section
variable {i : Instr} {r : SheafRule} {g : BitVec 4} {n : BitVec 1} {d : BitVec 8} {a : BitVec 5} {s : State} {sh : Sheaf}

/-! ## Demotions and reductions (R135) -/

/-- A demotion of the acting lanes, no member predicate named (R135). -/
theorem demote_acts {F : Sheaf → Mask → Option (Word × Word)} {F' : Sheaf → Mask → Word × Word}
    (hruns : exec i s = issued formDm g n (demoteOp F d.toNat a.toNat 0 0) s) (hximm : takesXimm i = false) (hla : takesLa i = false)
    (hwf : (guardOk g.toNat n.toNat && isU d.toNat) = true) (hF : ∀ (sh : Sheaf) (k : Mask), k ≠ 0 → F sh k = some (F' sh k)) :
    ∃ f op, SheafActs i (.demote false g n d (fun sh => (sh.vreg a.toNat).mark) F') f op s sh := by
  obtain ⟨hg, hd⟩ := Bool.and_eq_true_iff.mp hwf
  exact ⟨_, _, hruns, hg, hximm, hla, rfl, rfl, demote_meets (by rw [hd]; rfl) hF fun sh => marks_one sh a.toNat 0⟩

/-- A reduction of the members among the acting lanes (R135). -/
theorem reduce_acts {f : Form} {float : Bool} {m : BitVec 1} {p : BitVec 4} {F : Sheaf → Mask → Word × Word} {F' : Sheaf → Mask → Word × Word}
    (hruns : exec i s = issued f g n (demoteOp (fun sh k => some (F sh k)) d.toNat a.toNat m.toNat p.toNat) s)
    (hximm : takesXimm i = f.ximm) (hla : takesLa i = f.la) (hrole : f.role.issues sh.role = true) (hguarded : f.always = false)
    (hwf : (guardOk g.toNat n.toNat && isU d.toNat && okMember m.toNat p.toNat) = true)
    (hF : ∀ (sh : Sheaf) (k : Mask), F sh (sh.reduceSet m p k) = F' sh k) :
    ∃ f op, SheafActs i (.demote float g n d (reduceMark a m p) F') f op s sh := by
  rw [Bool.and_assoc] at hwf
  obtain ⟨hg, hok⟩ := Bool.and_eq_true_iff.mp hwf
  exact ⟨_, _, hruns, hg, hximm, hla, hrole, hguarded,
    demote_meets hok (fun sh k _ => by rw [reduceSet_eq, hF]) fun sh => reduceMark_eq sh a m p⟩

/-- Lanes hold one value where their elements do. -/
theorem elements_all_eq (sh : Sheaf) (a : BitVec 5) {k : Mask} (h : k ≠ 0) :
    (sh.elements a k).all (fun x => x == (sh.elements a k).headD 0) = (lanesOf k).all (fun l => sh.readV a.toNat l == sh.readV a.toNat (lowestLane k)) := by
  rw [elements_head sh a h, Sheaf.elements, List.all_map]
  rfl

/-- SUNIF (R135), where the acting lanes hold one value. -/
theorem sunif_acts (hrule : demoteRule (.sunif g n d a) = some r) (hwf : (guardOk g.toNat n.toNat && isU d.toNat) = true) :
    ∃ f op, SheafActs (.sunif g n d a) r f op s sh := by
  obtain ⟨hg, hd⟩ := Bool.and_eq_true_iff.mp hwf
  cases hrule
  refine ⟨_, _, rfl, hg, rfl, rfl, rfl, rfl, fun _ => rfl, by rw [demoteOp, hd]; rfl, rfl, ?_, rfl, rfl, rfl, rfl⟩
  intro hacting hfit
  have hacting : (s.here sh g.toNat n.toNat).acting ≠ 0 := hacting
  have hone : (lanesOf (s.here sh g.toNat n.toNat).acting).all (fun l => sh.begun.readV a.toNat l ==
      sh.begun.readV a.toNat (lowestLane (s.here sh g.toNat n.toNat).acting)) = true := (elements_all_eq sh a hacting).symm.trans hfit
  have hzero : ((0 : Nat) == 1) = false := rfl
  simp only [SheafRule.slot, SheafRule.demote, SheafRule.plain, demoteOp, hzero, Bool.false_eq_true, if_false, hone, if_true, marks_two,
    maxMark_zero_right, elements_head _ _ hacting, SheafRule.after, Act.ofSheaf, State.here_sid, State.begun, State.setSheaf_setSheaf, Sheaf.writeUB,
    uIndex]

theorem demoteRule_acts (hrule : demoteRule i = some r) (hwf : i.wf = true) (hrole : r.float = true → sh.role ≠ .stage) :
    ∃ f op, SheafActs i r f op s sh := by
  unfold demoteRule at hrule
  split at hrule <;> cases hrule
  case h_1 => exact demote_acts rfl rfl rfl hwf fun _ _ _ => rfl
  case h_2 => exact demote_acts rfl rfl rfl hwf fun sh k hk => by rw [elements_head sh _ hk]
  case h_3 => exact sunif_acts rfl hwf
  case h_4 => exact reduce_acts rfl rfl rfl rfl rfl hwf fun sh k => by rw [foldl_sum, Sheaf.elements]
  case h_5 => exact reduce_acts rfl rfl rfl (bne_iff_ne.mpr (hrole rfl)) rfl hwf fun sh k => by simp only [sumF32, List.isEmpty_iff]; rfl
  case h_6 => exact reduce_acts rfl rfl rfl rfl rfl hwf fun sh k => congrArg (·, 0) (foldl_min _ _ _)
  case h_7 => exact reduce_acts rfl rfl rfl rfl rfl hwf fun sh k => congrArg (·, 0) (foldl_max _ _ _)

/-! ## Every instruction that writes registers of its sheaf alone -/

theorem registerRule_acts (hrule : registerRule i = some r) (hwf : i.wf = true) (hr : Ready s sh) (hrole : r.float = true → sh.role ≠ .stage) :
    ∃ f op, SheafActs i r f op s sh := by
  simp only [registerRule, Option.orElse_eq_or, Option.or_eq_some_iff] at hrule
  rcases hrule with h | ⟨-, h | ⟨-, h | ⟨-, h | ⟨-, h | ⟨-, h | ⟨-, h⟩⟩⟩⟩⟩⟩
  · exact uniformRule_acts h hwf hr
  · exact uniformFloatRule_acts h hwf hr
  · exact predRule_acts h hwf hrole
  · exact affineRule_acts h hwf hr
  · exact demoteRule_acts h hwf hrole
  · exact lateRule_acts h hwf hr hrole
  · exact shuffleRule_acts h hwf

end

end Sys2Proof.Machine

open Sys2Proof Sys2Proof.Machine

/-- Settles O12: each instruction of the tables issues with a body that meets its rule; such a body makes a state with another sheaf in place, and
where no sheaf waits no wait ends after it. -/
theorem registerInstructionsLeaveTheRest : Obligations.RegisterInstructionsLeaveTheRest := by
  unfold Obligations.RegisterInstructionsLeaveTheRest
  intro i r s sh hrule hwf hr hpx hwaiting hwide hrole hacting hfit
  obtain ⟨f, op, ha⟩ := registerRule_acts hrule hwf hr hrole
  obtain ⟨sh', hexec⟩ := ha.exec_eq hr hpx hwide hacting hfit hwaiting
  obtain ⟨hview, hsheaf⟩ := r.after_leaves s s.slot.sid sh'
  exact ⟨_, sh', hexec, rfl, hview, hsheaf⟩
end

/-! PROOFS. AGETB, AGETS and AGETW (R132): their words, the fields they refuse, what they write. -/
section
namespace Sys2Proof.Machine

/-- R86 step 1: an instruction whose fields are not those of its registers raises ILLEGAL, whatever else holds. -/
theorem raises_illegal_fields {i : Instr} {f : Form} {g : BitVec 4} {n : BitVec 1} {op : Slot → Op} {s : State} {sh : Sheaf}
    (hx : exec i s = issued f g n op s) (hthere : s.sheaf? s.slot.sid = some sh) (hissuing : sh.issuing = true) (hnorep : s.slot.rep = none)
    (hok : (op (s.here sh g.toNat n.toNat)).ok = false) : Raises i s sh (TrapInfo.at cIllegal 0 0 (s.slot.word.setWidth 64)) := by
  have ht : firstTrap f { op (s.here sh g.toNat n.toNat) with ok := (op (s.here sh g.toNat n.toNat)).ok && guardOk g.toNat n.toNat }
      (s.here sh g.toNat n.toNat) sh.begun (s.begun sh) (s.began sh) = some (TrapInfo.at cIllegal 0 0 (s.slot.word.setWidth 64)) := by
    simp only [firstTrap, hok, Bool.false_and, Bool.not_false, Bool.true_or, if_true, illegalWord, State.here_word]
  unfold Raises
  rw [hx]
  exact congrArg Host.Outcome.next (issue_raises hthere hissuing hnorep rfl rfl ht)

/-- An instruction of a sheaf rule, where its lanes act and its values fit, ends as the rule says. -/
theorem SheafActs.ends {i : Instr} {r : SheafRule} {f : Form} {op : Slot → Op} {s : State} {sh : Sheaf} (ha : SheafActs i r f op s sh) (hr : Ready s sh)
    (hpx : Prefixed i s) (hw : r.wide = true → Wide s sh r.g.toNat r.n.toNat) (hacting : (r.slot s sh).acting ≠ 0)
    (hfit : r.fits sh (r.slot s sh).acting = true) : Ends i s (r.after s) sh (r.effect s (r.slot s sh) sh.begun) :=
  (rule_of_meets ha.runs hr (prefixes_ok hpx hr.norep ha.ximm ha.la) ha.guard ha.role ha.guarded hw ha.meets).2 hacting hfit

section
variable {i : Instr} {g : BitVec 4} {n : BitVec 1} {d a : BitVec 8} {F : AReg → Word} {s : State} {sh : Sheaf}

theorem raises_illegal_aget (hruns : exec i s = issued formSr g n (agetOp F d.toNat a.toNat) s) (hr : Ready s sh) (ha : isA a.toNat = false) :
    Raises i s sh (TrapInfo.at cIllegal 0 0 (s.slot.word.setWidth 64)) :=
  raises_illegal_fields hruns hr.there hr.issuing hr.norep (by rw [agetOp, ha, Bool.and_false])

/-- An AGET in a converged sheaf where lanes act (R132): sd takes the word with the mark of the affine register; the other uniform registers and
the affine registers stay. -/
theorem aget_writes {w : Word} (hruns : exec i s = issued formSr g n (agetOp F d.toNat a.toNat) s) (hximm : takesXimm i = false) (hla : takesLa i = false)
    (hwf : (guardOk g.toNat n.toNat && isU d.toNat && isA a.toNat) = true) (hr : Ready s sh) (hpx : Prefixed i s) (hw : Wide s sh g.toNat n.toNat)
    (hacting : (s.here sh g.toNat n.toNat).acting ≠ 0) (hword : F (sh.readA (a.toNat - 32)) = w) :
    ∃ sh', exec i s = .next (s.setSheaf s.slot.sid sh').settle ∧ sh'.readU (d.toNat - 64) = w ∧
      (sh'.ureg (d.toNat - 64)).mark = (sh.readA (a.toNat - 32)).mark ∧ (∀ j, j ≠ d.toNat - 64 → sh'.ureg j = sh.ureg j) ∧ sh'.aregs = sh.aregs ∧
      Advanced s sh sh' := by
  obtain ⟨f, op, hacts⟩ := aget_acts (sh := sh) hruns hximm hla hwf fun _ => rfl
  obtain ⟨sh', hexec, hstill, hadv⟩ := hacts.ends hr hpx (fun _ => hw) hacting rfl
  have hureg : ∀ j, sh'.ureg j = if j = d.toNat - 64 then { val := w, mark := (sh.readA (a.toNat - 32)).mark } else sh.ureg j := by
    intro j
    rw [Sheaf.ureg, Sheaf.still_uregs hstill, ← hword]
    exact Map.getD_put ..
  refine ⟨sh', hexec, ?_, ?_, fun j hj => (hureg j).trans (if_neg hj), (Sheaf.still_aregs hstill).trans rfl, hadv⟩
  · rw [Sheaf.readU, hureg, if_pos rfl]
  · rw [hureg, if_pos rfl]

end

theorem agetwWord_eq_ofNat (x : AReg) :
    ((if x.ws then 1 else 0) ||| (if x.wu then 2 else 0) : Word) = BitVec.ofNat 32 ((if x.ws then 1 else 0) + (if x.wu then 2 else 0)) := by
  cases x.ws <;> cases x.wu <;> rfl

end Sys2Proof.Machine

open Sys2Proof Sys2Proof.Machine

/-- Settles O57: the words are those of the encoder; each body refuses a field outside the affine file before all else, and meets the rule of R132
elsewhere. -/
theorem agetReadsAnAffineRegister : Obligations.AgetReadsAnAffineRegister := by
  unfold Obligations.AgetReadsAnAffineRegister
  intro g n d a s sh hg hd hr hximm hla
  refine ⟨decodeNat_encodeNat _ _ rfl, decodeNat_encodeNat _ _ rfl, decodeNat_encodeNat _ _ rfl, ?_, ?_⟩
  · intro ha i hi
    simp only [List.mem_cons, List.not_mem_nil, or_false] at hi
    rcases hi with rfl | rfl | rfl
    all_goals exact raises_illegal_aget rfl hr ha
  · intro ha hw hacting
    have hwf : (guardOk g.toNat n.toNat && isU d.toNat && isA a.toNat) = true := by rw [hg, hd, ha]; rfl
    exact ⟨aget_writes rfl rfl rfl hwf hr ⟨Or.inl hximm, Or.inl hla⟩ hw hacting rfl,
      aget_writes rfl rfl rfl hwf hr ⟨Or.inl hximm, Or.inl hla⟩ hw hacting rfl,
      aget_writes rfl rfl rfl hwf hr ⟨Or.inl hximm, Or.inl hla⟩ hw hacting (agetwWord_eq_ofNat _)⟩

end

/-! PROOFS. AFROMV (R136): the strides of two values, the one chosen of those that fit every lane, and the affine register formed of it. -/
section
namespace Sys2Proof.Machine

/-! ## Strides of two values (R136) -/

/-- The power of two in a distance of lanes. -/
def twosIn (d : Nat) : Nat := ([4, 3, 2, 1].find? (fun k => d % 2 ^ k == 0)).getD 0

/-- A distance of lanes is a power of two, of at most 16, times an odd number that Newton's steps invert. -/
theorem twosIn_inverse : ∀ d < 32, 0 < d → twosIn d ≤ 4 ∧ 2 ^ twosIn d * (d / 2 ^ twosIn d) = d ∧
    (d / 2 ^ twosIn d * (inverseOdd (BitVec.ofNat 32 (d / 2 ^ twosIn d))).toNat) % 2 ^ 32 = 1 := by decide

/-- A multiple of 2^k, modulo 2^32, is one of a number modulo 2^(32-k). -/
theorem scaled_modEq_iff {k m x w : Nat} (hk : k ≤ 32) : 2 ^ k * m * x ≡ 2 ^ k * w [MOD 2 ^ 32] ↔ m * x ≡ w [MOD 2 ^ (32 - k)] := by
  have hsplit : 2 ^ 32 = 2 ^ k * 2 ^ (32 - k) := by rw [← pow_add]; congr 1; omega
  rw [mul_assoc, hsplit]
  exact Nat.ModEq.mul_left_cancel_iff' (by positivity)

/-- Multiplying by an inverse undoes a product modulo n. -/
theorem mul_modEq_iff_of_inverse {n m i x w : Nat} (h : m * i ≡ 1 [MOD n]) : m * x ≡ w [MOD n] ↔ x ≡ i * w [MOD n] := by
  constructor
  · intro hx
    calc x = 1 * x := (one_mul x).symm
      _ ≡ m * i * x [MOD n] := (h.symm.mul_right x)
      _ = i * (m * x) := by ring
      _ ≡ i * w [MOD n] := hx.mul_left i
  · intro hx
    calc m * x ≡ m * (i * w) [MOD n] := hx.mul_left m
      _ = m * i * w := by ring
      _ ≡ 1 * w [MOD n] := h.mul_right w
      _ = w := one_mul w

/-- The numbers below 2^32 with a remainder modulo 2^(32-k). -/
theorem exists_step_iff {k r : Nat} (hk : k ≤ 32) (x : Word) :
    (∃ j < 2 ^ k, BitVec.ofNat 32 (r % 2 ^ (32 - k) + j * 2 ^ (32 - k)) = x) ↔ x.toNat ≡ r [MOD 2 ^ (32 - k)] := by
  have hsplit : 2 ^ 32 = 2 ^ (32 - k) * 2 ^ k := by rw [← pow_add]; congr 1; omega
  have hpos : 0 < 2 ^ (32 - k) := by positivity
  constructor
  · rintro ⟨j, hj, rfl⟩
    have hlt : r % 2 ^ (32 - k) + j * 2 ^ (32 - k) < 2 ^ 32 := by
      calc r % 2 ^ (32 - k) + j * 2 ^ (32 - k) < 2 ^ (32 - k) + j * 2 ^ (32 - k) := Nat.add_lt_add_right (Nat.mod_lt _ hpos) _
        _ = 2 ^ (32 - k) * (j + 1) := by ring
        _ ≤ 2 ^ (32 - k) * 2 ^ k := Nat.mul_le_mul_left _ hj
        _ = 2 ^ 32 := hsplit.symm
    rw [BitVec.toNat_ofNat, Nat.mod_eq_of_lt hlt]
    unfold Nat.ModEq
    rw [Nat.add_mul_mod_self_right, Nat.mod_mod]
  · intro hx
    refine ⟨x.toNat / 2 ^ (32 - k), Nat.div_lt_of_lt_mul (by rw [← hsplit]; exact x.isLt), ?_⟩
    rw [← hx, Nat.mod_add_div', BitVec.ofNat_toNat, BitVec.setWidth_eq]

theorem mul_eq_iff_modEq (d : Nat) (v x : Word) : BitVec.ofNat 32 d * x = v ↔ d * x.toNat ≡ v.toNat [MOD 2 ^ 32] := by
  rw [← BitVec.toNat_inj, BitVec.toNat_mul, BitVec.toNat_ofNat, Nat.mod_mul_mod]
  unfold Nat.ModEq
  rw [Nat.mod_eq_of_lt v.isLt]

/-- The least stride of those listed, of two values that have one. -/
theorem strides_first_eq (m : Nat) {k w : Nat} (hw : w < 2 ^ 32) :
    (inverseOdd (BitVec.ofNat 32 m) * BitVec.ofNat 32 w).toNat % 2 ^ (32 - k) = ((inverseOdd (BitVec.ofNat 32 m)).toNat * w) % 2 ^ (32 - k) := by
  rw [BitVec.toNat_mul, BitVec.toNat_ofNat, Nat.mod_eq_of_lt hw, Nat.mod_mod_of_dvd _ (pow_dvd_pow 2 (Nat.sub_le 32 k))]

/-- Every stride of two values at a distance of d lanes is listed, and no other (R136). -/
theorem mem_strides {d : Nat} (hd : 0 < d) (hlt : d < 32) (v x : Word) : x ∈ strides d v ↔ BitVec.ofNat 32 d * x = v := by
  obtain ⟨hk, hodd, hinv⟩ := twosIn_inverse d hlt hd
  have hk' : twosIn d ≤ 32 := hk.trans (by decide)
  have hlist : strides d v = if v.toNat % 2 ^ twosIn d != 0 then [] else (List.range (2 ^ twosIn d)).map (fun j => BitVec.ofNat 32
      ((inverseOdd (BitVec.ofNat 32 (d / 2 ^ twosIn d)) * BitVec.ofNat 32 (v.toNat / 2 ^ twosIn d)).toNat % 2 ^ (32 - twosIn d) +
        j * 2 ^ (32 - twosIn d))) := rfl
  rw [hlist, mul_eq_iff_modEq]
  generalize twosIn d = k at *
  by_cases hv : v.toNat % 2 ^ k = 0
  case neg =>
    rw [if_pos (bne_iff_ne.mpr hv)]
    refine ⟨fun h => absurd h List.not_mem_nil, fun h => absurd ?_ hv⟩
    have hmod : d * x.toNat ≡ v.toNat [MOD 2 ^ k] := h.of_dvd (pow_dvd_pow 2 hk')
    rw [← hmod, ← hodd, mul_assoc]
    exact Nat.mul_mod_right ..
  case pos =>
    have hw : v.toNat = 2 ^ k * (v.toNat / 2 ^ k) := (Nat.mul_div_cancel' (Nat.dvd_of_mod_eq_zero hv)).symm
    have hinv' : d / 2 ^ k * (inverseOdd (BitVec.ofNat 32 (d / 2 ^ k))).toNat ≡ 1 [MOD 2 ^ (32 - k)] :=
      Nat.ModEq.of_dvd (pow_dvd_pow 2 (Nat.sub_le 32 k)) hinv
    rw [if_neg (by rw [hv]; decide), strides_first_eq _ ((Nat.div_le_self ..).trans_lt v.isLt)]
    simp only [List.mem_map, List.mem_range]
    rw [exists_step_iff hk', ← mul_modEq_iff_of_inverse hinv', ← scaled_modEq_iff hk', hodd, ← hw]

/-! ## The stride that is chosen (R136) -/

/-- A stride is no worse than another: of smaller magnitude, or of the same and not below zero where they differ. -/
def NoWorse (x y : Word) : Prop := x.toInt.natAbs ≤ y.toInt.natAbs ∧ (x.toInt.natAbs = y.toInt.natAbs → x = y ∨ 0 ≤ x.toInt)

theorem NoWorse.refl (x : Word) : NoWorse x x := ⟨le_rfl, fun _ => Or.inl rfl⟩

theorem NoWorse.trans {x y z : Word} (hxy : NoWorse x y) (hyz : NoWorse y z) : NoWorse x z := by
  refine ⟨hxy.1.trans hyz.1, fun h => ?_⟩
  rcases hxy.2 (le_antisymm hxy.1 (by rw [h]; exact hyz.1)) with rfl | hx
  · exact hyz.2 h
  · exact Or.inr hx

/-- Two strides neither of which is worse are one. -/
theorem NoWorse.antisymm {x y : Word} (hxy : NoWorse x y) (hyx : NoWorse y x) : x = y := by
  have habs : x.toInt.natAbs = y.toInt.natAbs := le_antisymm hxy.1 hyx.1
  rcases hxy.2 habs with h | hx
  · exact h
  · rcases hyx.2 habs.symm with h | hy
    · exact h.symm
    · exact BitVec.eq_of_toInt_eq (by omega)

theorem betterStride_noWorse (x y : Word) : NoWorse (betterStride x y) x ∧ NoWorse (betterStride x y) y := by
  unfold betterStride
  split
  case isTrue h =>
    refine ⟨?_, NoWorse.refl y⟩
    simp only [Bool.or_eq_true, Bool.and_eq_true, decide_eq_true_eq, beq_iff_eq] at h
    rcases h with h | ⟨h, hy⟩
    · exact ⟨h.le, fun he => absurd he h.ne⟩
    · exact ⟨h.le, fun _ => Or.inr hy⟩
  case isFalse h =>
    refine ⟨NoWorse.refl x, ?_⟩
    simp only [Bool.or_eq_true, Bool.and_eq_true, decide_eq_true_eq, beq_iff_eq, not_or, not_and, not_lt, not_le] at h
    obtain ⟨hle, hneg⟩ := h
    refine ⟨hle, fun he => ?_⟩
    have hy := hneg he.symm
    by_cases hx : 0 ≤ x.toInt
    · exact Or.inr hx
    · exact Or.inl (BitVec.eq_of_toInt_eq (by omega))

/-- The best of some strides is one of them, and no worse than any. -/
theorem foldl_betterStride (xs : List Word) (x : Word) :
    xs.foldl betterStride x ∈ x :: xs ∧ ∀ y ∈ x :: xs, NoWorse (xs.foldl betterStride x) y := by
  induction xs generalizing x with
  | nil => exact ⟨List.mem_singleton_self x, fun y hy => by rw [List.mem_singleton.mp hy]; exact NoWorse.refl x⟩
  | cons z zs ih =>
    obtain ⟨hmem, hbest⟩ := ih (betterStride x z)
    obtain ⟨hx, hz⟩ := betterStride_noWorse x z
    have hhead := hbest _ List.mem_cons_self
    refine ⟨?_, fun y hy => ?_⟩
    · rcases List.mem_cons.mp hmem with h | h
      · rw [List.foldl_cons, h]
        unfold betterStride
        split
        · exact List.mem_cons_of_mem _ List.mem_cons_self
        · exact List.mem_cons_self
      · exact List.mem_cons_of_mem _ (List.mem_cons_of_mem _ h)
    · rcases List.mem_cons.mp hy with rfl | hy
      · exact hhead.trans hx
      · rcases List.mem_cons.mp hy with rfl | hy
        · exact hhead.trans hz
        · exact hbest y (List.mem_cons_of_mem _ hy)

/-! ## The lanes of a set -/

theorem mem_lanesOf {m : Mask} {l : Nat} : l ∈ lanesOf m ↔ l < 32 ∧ hasLane m l = true := by
  have hl : laneNumbers = List.range 32 := by decide
  rw [lanesOf, hl, List.mem_filter, List.mem_range]

theorem lanesOf_sorted (m : Mask) : (lanesOf m).Pairwise (· < ·) := by
  have hl : laneNumbers = List.range 32 := by decide
  rw [lanesOf, hl]
  exact List.pairwise_lt_range.filter _

/-- The strides that fit lanes from the first two on, of those listed for the two (R136). -/
def fittingStrides (va : Nat → Word) (l0 l1 : Nat) (rest : List Nat) : List Word :=
  (strides (l1 - l0) (va l1 - va l0)).filter (fun x => (l1 :: rest).all (fun l => va l0 + BitVec.ofNat 32 (l - l0) * x == va l))

/-- The strides that fit are those that present every lane's value (R136). -/
theorem mem_fittingStrides {va : Nat → Word} {lanes : Mask} {l0 l1 : Nat} {rest : List Nat} (h : lanesOf lanes = l0 :: l1 :: rest) (x : Word) :
    x ∈ fittingStrides va l0 l1 rest ↔ StrideFits va lanes x := by
  have hlow : lowestLane lanes = l0 := by rw [lowestLane, h]; rfl
  have hsorted := lanesOf_sorted lanes
  rw [h] at hsorted
  have h01 : l0 < l1 := List.rel_of_pairwise_cons hsorted List.mem_cons_self
  have h1 : l1 < 32 := (mem_lanesOf.mp (by rw [h]; exact List.mem_cons_of_mem _ List.mem_cons_self)).1
  have hfits : StrideFits va lanes x ↔ ∀ l ∈ l0 :: l1 :: rest, va l0 + BitVec.ofNat 32 (l - l0) * x = va l := by
    simp only [StrideFits, hlow, ← h, mem_lanesOf, and_imp]
  have hfirst : va l0 + BitVec.ofNat 32 (l0 - l0) * x = va l0 := by simp
  have htwo : BitVec.ofNat 32 (l1 - l0) * x = va l1 - va l0 ↔ va l0 + BitVec.ofNat 32 (l1 - l0) * x = va l1 := by
    rw [eq_sub_iff_add_eq, add_comm]
  rw [hfits, fittingStrides, List.mem_filter, mem_strides (by omega) (by omega), htwo]
  simp only [List.all_eq_true, beq_iff_eq, List.forall_mem_cons, hfirst, true_and, and_self_left]

/-! ## What AFROMV finds -/

section
variable {va : Nat → Word} {lanes : Mask} {l0 l1 : Nat} {rest : List Nat}

theorem affineOf_one (h : lanesOf lanes = [l0]) : affineOf va lanes = some (va l0, 0) := by simp only [affineOf, h]

theorem affineOf_of_fitting_nil (h : lanesOf lanes = l0 :: l1 :: rest) (hf : fittingStrides va l0 l1 rest = []) : affineOf va lanes = none := by
  unfold fittingStrides at hf
  simp only [affineOf, h, hf]

theorem affineOf_of_fitting_cons {x : Word} {xs : List Word} (h : lanesOf lanes = l0 :: l1 :: rest) (hf : fittingStrides va l0 l1 rest = x :: xs) :
    affineOf va lanes = some (va l0 - BitVec.ofNat 32 l0 * xs.foldl betterStride x, xs.foldl betterStride x) := by
  unfold fittingStrides at hf
  simp only [affineOf, h, hf]

/-- The stride that R136 chooses is the one found, with the base that presents the value of the lowest lane. -/
theorem affineOf_of_strideChosen {x : Word} (hlanes : lanes ≠ 0) (hx : StrideChosen va lanes x) :
    affineOf va lanes = some (va (lowestLane lanes) - BitVec.ofNat 32 (lowestLane lanes) * x, x) := by
  unfold StrideChosen at hx
  match h : lanesOf lanes with
  | [] => exact absurd h (lanesOf_ne_nil hlanes)
  | [l] =>
    have hlow : lowestLane lanes = l := by rw [lowestLane, h]; rfl
    rw [h] at hx
    have hzero : x = 0 := hx
    rw [affineOf_one h, hlow, hzero, mul_zero, sub_zero]
  | l0 :: l1 :: rest =>
    have hlow : lowestLane lanes = l0 := by rw [lowestLane, h]; rfl
    rw [if_neg (by rw [h]; simp)] at hx
    obtain ⟨hfits, hleast⟩ := hx
    match hf : fittingStrides va l0 l1 rest with
    | [] => exact absurd ((mem_fittingStrides h x).mpr hfits) (by rw [hf]; exact List.not_mem_nil)
    | y :: ys =>
      obtain ⟨hmem, hbest⟩ := foldl_betterStride ys y
      rw [← hf] at hmem hbest
      have hsame : ys.foldl betterStride y = x := (hbest x ((mem_fittingStrides h x).mpr hfits)).antisymm (hleast _ ((mem_fittingStrides h _).mp hmem))
      rw [affineOf_of_fitting_cons h hf, hlow, hsame]

/-- Where the values of two lanes or more lie on no stride, nothing is found (R136). -/
theorem affineOf_of_noStride (hlen : 2 ≤ (lanesOf lanes).length) (hnone : ∀ x, ¬ StrideFits va lanes x) : affineOf va lanes = none := by
  match h : lanesOf lanes with
  | [] | [_] => rw [h] at hlen; simp at hlen
  | l0 :: l1 :: rest =>
    exact affineOf_of_fitting_nil h (List.eq_nil_iff_forall_not_mem.mpr fun x hx => hnone x ((mem_fittingStrides h x).mp hx))

end

/-! ## AFROMV issues (R135, R136) -/

section
variable {g : BitVec 4} {n : BitVec 1} {d : BitVec 8} {a : BitVec 5} {s : State} {sh : Sheaf}

/-- AFROMV's body, where a stride is chosen for the acting lanes, writes the affine register of that stride. -/
theorem afromv_body {x : Word} (hacting : (s.here sh g.toNat n.toNat).acting ≠ 0)
    (hx : StrideChosen (sh.readV a.toNat) (s.here sh g.toNat n.toNat).acting x) :
    (afromvOp d.toNat a.toNat (s.here sh g.toNat n.toNat)).body (s.here sh g.toNat n.toNat) sh.begun (s.begun sh) =
      affineAct (s.here sh g.toNat n.toNat) sh.begun (s.begun sh) (d.toNat - 32)
        (afromvResult (sh.begun.readV a.toNat) (s.here sh g.toNat n.toNat).acting x) [] (sh.begun.vreg a.toNat).mark := by
  have hfound : affineOf (sh.begun.readV a.toNat) (s.here sh g.toNat n.toNat).acting = _ := affineOf_of_strideChosen hacting hx
  simp only [afromvOp, hfound]
  rfl

theorem afromv_meets {x : Word} (hd : isA d.toNat = true) (hacting : (s.here sh g.toNat n.toNat).acting ≠ 0)
    (hx : StrideChosen (sh.readV a.toNat) (s.here sh g.toNat n.toNat).acting x) :
    Meets (afromvRule g n d a (s.here sh g.toNat n.toNat).acting x) formDm (afromvOp d.toNat a.toNat) s sh :=
  affine_meets hd rfl (afromv_body hacting hx) rfl

/-- An affine result that wraps signed under AFAULT raises AWRAP (R42). -/
theorem affineAct_wraps {slot : Slot} {k : Nat} {x : AffResult} {srcs : List AReg} {mark : Mark} (h : (modeAfault sh.mode && x.leavesSigned) = true) :
    affineAct slot sh s k x srcs mark = .trap (trapWord slot cAwrap 0) s := by
  unfold affineAct Sheaf.writeA
  rw [wrapS_eq, h]
  rfl

/-- AFROMV raises a trap that its body raises. -/
theorem afromv_traps {cause : Nat} (hg : guardOk g.toNat n.toNat = true) (hd : isA d.toNat = true) (hr : Ready s sh) (hpx : Prefixed (.afromv g n d a) s)
    (hw : Wide s sh g.toNat n.toNat) (hacting : (s.here sh g.toNat n.toNat).acting ≠ 0)
    (hb : (afromvOp d.toNat a.toNat (s.here sh g.toNat n.toNat)).body (s.here sh g.toNat n.toNat) sh.begun (s.begun sh) =
      .trap (trapWord (s.here sh g.toNat n.toNat) cause 0) (s.begun sh)) :
    exec (.afromv g n d a) s = .next (((s.begun sh).trap (s.here sh g.toNat n.toNat) (trapWord s.slot cause 0)).settle) :=
by
  have hword : trapWord s.slot cause 0 = trapWord (s.here sh g.toNat n.toNat) cause 0 := by simp only [trapWord, State.here_word]
  have hok : (afromvOp d.toNat a.toNat (s.here sh g.toNat n.toNat)).ok = true := hd
  rw [hword]
  exact trap_ends (f := formDm) hr (prefixes_ok hpx hr.norep rfl rfl) hg rfl (fun _ => ⟨hw.converged, Or.inr hw.uniform⟩) hok rfl hacting rfl hb

end

end Sys2Proof.Machine

open Sys2Proof Sys2Proof.Machine

/-- Settles O19: the strides listed are the solutions of the first two values' equation; the best of those that fit is the one R136 chooses. -/
theorem afromvResults : Obligations.AfromvResults := by
  unfold Obligations.AfromvResults
  intro g n d a s sh hwf hr hpx hw
  obtain ⟨hg, hd⟩ := Bool.and_eq_true_iff.mp hwf
  have hpxf : formDm.prefixesOk s.slot = true := prefixes_ok hpx hr.norep rfl rfl
  refine ⟨fun hidle => ?_, fun x hacting hx => ?_, fun hlen hnone => ?_⟩
  · exact idle_ends (f := formDm) (op := afromvOp d.toNat a.toNat) hr hpxf hg rfl (fun _ => ⟨hw.converged, Or.inr hw.uniform⟩) hd rfl hidle rfl
  · split
    case isTrue hfit =>
      exact (rule_of_meets (r := afromvRule g n d a (s.here sh g.toNat n.toNat).acting x) rfl hr hpxf hg rfl rfl (fun _ => hw)
        (afromv_meets hd hacting hx)).2 hacting hfit
    case isFalse hfit =>
      have hwraps : (modeAfault sh.mode && (afromvResult (sh.readV a.toNat) (s.here sh g.toNat n.toNat).acting x).leavesSigned) = true := by
        simpa only [afromvRule, SheafRule.toAffine, Bool.not_eq_true', Bool.not_eq_false] using hfit
      exact afromv_traps hg hd hr hpx hw hacting ((afromv_body hacting hx).trans (affineAct_wraps (sh := sh.begun) hwraps))
  · have hacting : (s.here sh g.toNat n.toNat).acting ≠ 0 := by
      intro h0
      have hnil : lanesOf (0 : Mask) = [] := by decide
      rw [h0, hnil] at hlen
      exact absurd hlen (by decide)
    have hnothing : affineOf (sh.begun.readV a.toNat) (s.here sh g.toNat n.toNat).acting = none := affineOf_of_noStride hlen hnone
    exact afromv_traps hg hd hr hpx hw hacting (by simp only [afromvOp, hnothing])

end

/-! PROOFS. Replies to fault records and to services (R149, R292, R335): each makes the state that the table of happenings says. -/
section
namespace Sys2Proof.Machine

section
variable {s t : State} {slice token : Nat}

/-- A reply at the registration of a slice that a partition owns (R335). -/
theorem reply_of_happening {a : Reply} (h : replyHappening slice token a s = some t) : (s.reply slice token a).settle = t := by
  obtain ⟨part, ho, h⟩ := Option.bind_eq_some_iff.mp h
  obtain ⟨p, hp, h⟩ := Option.bind_eq_some_iff.mp h
  rw [← Option.some.inj h, State.reply, ho]
  simp only [hp, Option.bind_some]
  rfl

/-- A DISCARD at the registration of a slice that a partition owns (R335): it reaches the record's tuft, or its kernel where it names no tuft. -/
theorem replyDiscard_of_happening {f : Happening} (hf : Machine.replyHappenings (.replyDiscard slice token) = some f) (h : f s = some t) :
    (s.replyDiscard slice token).settle = t := by
  cases hf
  obtain ⟨part, ho, h⟩ := Option.bind_eq_some_iff.mp h
  obtain ⟨p, hp, h⟩ := Option.bind_eq_some_iff.mp h
  rw [← Option.some.inj h]
  refine congrArg State.settle ?_
  simp only [State.replyDiscard, ho, hp, Option.bind_some]
  cases p.tokens.find? token with
  | none => rfl
  | some x =>
    obtain ⟨_, _, tid, kid, _, _⟩ := x
    cases tid with
    | some tid => rfl
    | none =>
      cases kid with
      | none => rfl
      | some kid =>
        simp only [Option.bind_some, Option.getD_some]
        cases s.kernel? kid <;> rfl

end

/-- The reply to a sheaf in SVC (R149): where it is WAITING in the front plane the service ends, else the wait keeps the reply (R248). -/
theorem State.serviceReply_eq {s : State} {sid n : Nat} {sh : Sheaf} {w : Wait} (failed : Bool) (hs : s.sheaf? sid = some sh) (hw : sh.wait = some w)
    (hk : w.kind = .service n) : s.serviceReply sid failed =
    if sh.state = .waiting ∧ (s.tuft? sh.tid).all (fun t => !t.parked) then
      (if failed then s.endSheaf sid w.slot (SysFault.ending 14 sh.live n) else (s.acquire sid 3).complete sid)
    else s.setSheaf sid { sh with wait := some { w with done := some (if failed then 1 else 0) } } := by
  have hwaits : s.waitsHere sh = true ↔ sh.state = .waiting ∧ (s.tuft? sh.tid).all (fun t => !t.parked) := by
    unfold State.waitsHere
    cases s.tuft? sh.tid <;> simp
  have hend : s.serviceEnd sid failed =
      if failed then s.endSheaf sid w.slot (SysFault.ending 14 sh.live n) else (s.acquire sid 3).complete sid := by
    simp only [State.serviceEnd, hs, Option.bind_some, hw, hk, fSvc]
  simp only [State.serviceReply, hs, Option.bind_some, hw, Option.map_some, hk, hwaits, hend]

end Sys2Proof.Machine

open Sys2Proof Sys2Proof.Machine

/-- Settles O50, happening by happening. -/
theorem replyHappenings : Obligations.ReplyHappenings := by
  unfold Obligations.ReplyHappenings
  intro i f s t hi hf
  unfold Machine.replyHappenings at hi
  split at hi <;> cases hi
  case h_1 | h_2 | h_3 => exact congrArg Host.Outcome.next (reply_of_happening hf)
  case h_4 => exact congrArg Host.Outcome.next (replyDiscard_of_happening rfl hf)
  case h_5 sid failed =>
    obtain ⟨sh, hs, hf⟩ := Option.bind_eq_some_iff.mp hf
    obtain ⟨w, hw, hf⟩ := Option.bind_eq_some_iff.mp hf
    split at hf
    next n hk => exact congrArg Host.Outcome.next ((congrArg State.settle (State.serviceReply_eq failed hs hw hk)).trans (Option.some.inj hf))
    next => cases hf

end

/-! PROOFS. Memory under keys (R158, R302, R368): what a byte reads as after one byte is written, and after many. -/
section
namespace Sys2Proof.Machine

theorem Map.getD_drop {α : Type} (m : Map α) (k j : Nat) (d : α) : Map.getD (Map.drop m k) j d = if j = k then d else Map.getD m j d := by
  unfold Map.getD
  split
  · next h => rw [h, Map.find?_drop_self, Option.getD_none]
  · next h => rw [Map.find?_drop_ne m h]

/-- Consecutive bytes written into memory are read where they were written. -/
theorem memGet_foldl_memPut (m : List Host.Cell) (base k : Nat) (f : Nat → Byte) (a : Nat) :
    memGet ((List.range k).foldl (fun m i => memPut m (base + i) (f i)) m) a = if base ≤ a ∧ a < base + k then f (a - base) else memGet m a := by
  induction k with
  | zero => rw [if_neg (by omega)]; rfl
  | succ k ih =>
    rw [List.range_succ, List.foldl_append, List.foldl_cons, List.foldl_nil, memGet_memPut, ih]
    by_cases h : a = base + k
    · rw [if_pos h, if_pos (by omega), h, Nat.add_sub_cancel_left]
    · rw [if_neg h]
      exact if_congr (by omega) rfl rfl

/-! ## One byte (R368) -/

/-- A byte reads as its sector's key and bytes say. -/
theorem State.viewByte_congr {s t : State} {a : Nat} (hkey : t.keyOf.getD (a / 32) 0 = s.keyOf.getD (a / 32) 0)
    (hmem : ∀ c, c / 32 = a / 32 → memGet t.mem c = memGet s.mem c) (key : Nat) : t.viewByte key a = s.viewByte key a := by
  have hsector : (List.range 32).map (fun i => memGet t.mem (32 * (a / 32) + i)) = (List.range 32).map (fun i => memGet s.mem (32 * (a / 32) + i)) :=
    List.map_congr_left fun i hi => hmem _ (by have := List.mem_range.mp hi; omega)
  simp only [State.viewByte, State.viewSector, State.cipherSector, hkey, hsector, hmem a rfl]

/-- A sector whose key a write takes has that key; every other sector keeps its own. -/
theorem State.rekeySector_key (s : State) (key n j : Nat) :
    (s.rekeySector key n).keyOf.getD j 0 = if j = n then key else s.keyOf.getD j 0 := by
  unfold State.rekeySector
  by_cases hsame : s.keyOf.getD n 0 = key
  · rw [if_pos (beq_iff_eq.mpr hsame)]
    split
    · next h => rw [h, hsame]
    · rfl
  · rw [if_neg (by simpa using hsame)]
    by_cases hclear : key = 0
    · simp only [hclear, beq_self_eq_true, if_true, Map.getD_drop]
    · simp only [beq_eq_false_iff_ne.mpr hclear, Bool.false_eq_true, if_false, Map.getD_put]

/-- R368: a sector that takes a write's key reads under that key as before. -/
theorem State.rekeySector_memGet (s : State) (key n a : Nat) :
    memGet (s.rekeySector key n).mem a = if a / 32 = n then s.viewByte key a else memGet s.mem a := by
  unfold State.rekeySector
  by_cases hsame : s.keyOf.getD n 0 = key
  · rw [if_pos (beq_iff_eq.mpr hsame)]
    split
    · next h => rw [State.viewByte, h, if_pos (beq_iff_eq.mpr hsame)]
    · rfl
  · rw [if_neg (by simpa using hsame)]
    simp only [memGet_foldl_memPut]
    refine if_ctx_congr (by omega) (fun h => ?_) (fun _ => rfl)
    rw [State.viewByte, h, if_neg (by simpa using hsame)]
    congr 1
    omega

theorem State.putByte_key (s : State) (key a : Nat) (b : Byte) (j : Nat) :
    (s.putByte key a b).keyOf.getD j 0 = if j = a / 32 then key else s.keyOf.getD j 0 := s.rekeySector_key key (a / 32) j

theorem State.putByte_memGet (s : State) (key a : Nat) (b : Byte) (c : Nat) :
    memGet (s.putByte key a b).mem c = if c = a then b else if c / 32 = a / 32 then s.viewByte key c else memGet s.mem c := by
  rw [← s.rekeySector_memGet key (a / 32) c]
  exact memGet_memPut _ _ _ _

/-- A byte of a sector that was not written reads as before, under any key. -/
theorem State.viewByte_putByte_of_ne (s : State) (key a : Nat) (b : Byte) {c : Nat} (h : c / 32 ≠ a / 32) (k : Nat) :
    (s.putByte key a b).viewByte k c = s.viewByte k c := by
  refine State.viewByte_congr ?_ (fun d hd => ?_) k
  · rw [State.putByte_key, if_neg h]
  · rw [State.putByte_memGet, if_neg (by rintro rfl; exact h hd.symm), if_neg (by rwa [hd])]

/-- Under the key of a write of one byte, that byte is read, and every other as before. -/
theorem State.viewByte_putByte (s : State) (key a : Nat) (b : Byte) (c : Nat) :
    (s.putByte key a b).viewByte key c = if c = a then b else s.viewByte key c := by
  by_cases hsector : c / 32 = a / 32
  · rw [State.viewByte, State.putByte_key, if_pos hsector, if_pos (beq_self_eq_true key), State.putByte_memGet, if_pos hsector]
  · rw [State.viewByte_putByte_of_ne s key a b hsector key, if_neg (by rintro rfl; exact hsector rfl)]

/-! ## Many bytes (R158) -/

/-- Bytes written one after another, each at its distance from a physical address. -/
def State.putEach (s : State) (key paddr : Nat) (bytes : Map Byte) : State := s.forEach bytes (fun s e => s.putByte key (paddr + e.1) e.2)

@[simp] theorem State.putEach_nil (s : State) (key paddr : Nat) : s.putEach key paddr [] = s := rfl

@[simp] theorem State.putEach_cons (s : State) (key paddr : Nat) (e : Nat × Byte) (bytes : Map Byte) :
    s.putEach key paddr (e :: bytes) = (s.putByte key (paddr + e.1) e.2).putEach key paddr bytes := rfl

/-- What goes of poison and what stands in the slice caches changes no byte (R289, R338). -/
theorem State.viewByte_putBytes (s : State) (key paddr : Nat) (bytes : Map Byte) (k a : Nat) :
    (s.putBytes key paddr bytes).viewByte k a = (s.putEach key paddr bytes).viewByte k a := by
  refine State.viewByte_congr ?_ (fun c _ => ?_) k
  · show ((s.putEach key paddr bytes).clearPoison bytes paddr).keyOf.getD _ 0 = _
    unfold State.clearPoison
    split <;> rfl
  · rw [State.putBytes, State.cacheWrite_mem, State.clearPoison_mem]
    rfl

theorem State.viewByte_putEach_of_sector (key paddr k : Nat) {bytes : Map Byte} {a : Nat} (h : ∀ e ∈ bytes, a / 32 ≠ (paddr + e.1) / 32) (s : State) :
    (s.putEach key paddr bytes).viewByte k a = s.viewByte k a := by
  induction bytes generalizing s with
  | nil => rfl
  | cons e bytes ih =>
    obtain ⟨he, hrest⟩ := List.forall_mem_cons.mp h
    rw [State.putEach_cons, ih hrest, State.viewByte_putByte_of_ne _ _ _ _ he]

theorem State.viewByte_putEach_of_ne (key paddr : Nat) {bytes : Map Byte} {a : Nat} (h : ∀ e ∈ bytes, a ≠ paddr + e.1) (s : State) :
    (s.putEach key paddr bytes).viewByte key a = s.viewByte key a := by
  induction bytes generalizing s with
  | nil => rfl
  | cons e bytes ih =>
    obtain ⟨he, hrest⟩ := List.forall_mem_cons.mp h
    rw [State.putEach_cons, ih hrest, State.viewByte_putByte, if_neg he]

theorem State.viewByte_putEach_of_mem (key paddr : Nat) {bytes : Map Byte} (hdistinct : (bytes.map Prod.fst).Nodup) {e : Nat × Byte} (he : e ∈ bytes)
    (s : State) :
    (s.putEach key paddr bytes).viewByte key (paddr + e.1) = e.2 := by
  induction bytes generalizing s with
  | nil => exact absurd he List.not_mem_nil
  | cons x bytes ih =>
    obtain ⟨hx, hrest⟩ := List.nodup_cons.mp hdistinct
    rw [State.putEach_cons]
    rcases List.mem_cons.mp he with rfl | he
    · have hlater : ∀ y ∈ bytes, paddr + e.1 ≠ paddr + y.1 := fun y hy h => hx (List.mem_map.mpr ⟨y, hy, by omega⟩)
      rw [State.viewByte_putEach_of_ne key paddr hlater, State.viewByte_putByte, if_pos rfl]
    · exact ih hrest he _

end Sys2Proof.Machine

open Sys2Proof Sys2Proof.Machine

/-- Settles O10, by induction on the bytes: each is written alone, and a sector that takes a write's key reads under it as before. -/
theorem writtenBytesAreRead : Obligations.WrittenBytesAreRead := by
  intro s key paddr bytes hdistinct
  refine ⟨fun e he => ?_, fun a ha => ?_, fun k a ha => ?_⟩
  · rw [State.viewByte_putBytes, State.viewByte_putEach_of_mem key paddr hdistinct he]
  · rw [State.viewByte_putBytes, State.viewByte_putEach_of_ne key paddr ha]
  · rw [State.viewByte_putBytes, State.viewByte_putEach_of_sector key paddr k ha]

end

/-! PROOFS. Loads and stores of global and local memory (R153 to R161): each issues with a body that its rule describes. -/
section
namespace Sys2Proof.Machine

/-! ## From bodies to tables of machine rules -/

/-- An instruction issues with a body that does what its machine rule says. -/
structure Serves (i : Instr) (r : MachineRule) (f : Form) (op : Slot → Op) (s : State) (sh : Sheaf) : Prop where
  runs  : exec i s = issued f r.g r.n op s
  guard : guardOk r.g.toNat r.n.toNat = true
  ximm  : takesXimm i = f.ximm
  la    : takesLa i = f.la
  does  : Does r f op s sh

/-- A table whose instructions issue with such bodies holds. -/
theorem machineRules_of_serves {table : Instr → Option MachineRule}
    (h : ∀ (i : Instr) (r : MachineRule) (s : State) (sh : Sheaf), table i = some r → i.wf = true → Ready s sh → r.legal s.slot →
      ∃ f op, Serves i r f op s sh) : MachineRules table := by
  intro i r s sh hrule hwf hr hpx hwide hrole hlegal
  obtain ⟨f, op, hs⟩ := h i r s sh hrule hwf hr hlegal
  exact holds_of_body hs.runs hr (prefixes_ok hpx hr.norep hs.ximm hs.la) hs.guard hrole hwide hs.does

/-! ## Addresses (R153, R154) -/

theorem globalAccesses_eq (sh : Sheaf) (slot : Slot) (base : BitVec 3) (off : BitVec 8) :
    (lanesOf slot.acting).map (fun l => (l, sh.globalAddr slot base.toNat off.toNat l)) = sh.globalAccesses slot base off := rfl

theorem localDists_eq (sh : Sheaf) (slot : Slot) (off : BitVec 8) : sh.localDists slot off.toNat = sh.localAccesses slot off := rfl

theorem dataMark_eq (sh : Sheaf) (d : BitVec 5) (k : Nat) : sh.dataMark d.toNat k = sh.laneMark d k := rfl

/-- Every register number of one word is aligned (R85). -/
theorem alignV_one (d : BitVec 5) : alignV 1 d.toNat = true := by rw [alignV, isV_toNat, Nat.mod_one]; rfl

theorem off_lt (off : BitVec 8) : decide (off.toNat < 256) = true := decide_eq_true off.isLt

section
variable {s : State} {sh : Sheaf} {g : BitVec 4} {n : BitVec 1} {d : BitVec 5} {off : BitVec 8} {base : BitVec 3}

/-! ## Global loads, stores and prefetches (R156 to R158, R160, R161) -/

theorem load_does {size k : Nat} {w : Widen} {window : Slot → Nat} {fresh la : Bool} (hr : Ready s sh) (hk : alignV k d.toNat = true) :
    Does (.load g n size k w window fresh d base off) { formMe with la := la } (loadGlobal size k w fresh window d.toNat base.toNat off.toNat) s sh where
  wide h := by cases h
  role := rfl
  always := rfl
  ok := by simp only [MachineRule.load, loadGlobal, here_steps hr, stepV_zero, stepB_zero, hk, off_lt, Bool.and_self]
  legal := rfl
  writes := by simp only [MachineRule.load, loadGlobal, here_steps hr, stepV_zero]; rfl
  body := by
    rintro ⟨xs, t, hgo⟩
    simp only [MachineRule.load] at hgo
    simp only [MachineRule.load, loadGlobal, here_steps hr, stepV_zero, stepB_zero, globalAccesses_eq, hgo]
    rfl

theorem store_does {size k hint : Nat} {strong : Bool} (hr : Ready s sh) (hk : alignV k d.toNat = true) (hhint : cacheOk hint = true) :
    Does (.store g n size k strong hint d base off) formMe (storeGlobal size k strong hint d.toNat base.toNat off.toNat) s sh where
  wide h := by cases h
  role := rfl
  always := rfl
  ok := by simp only [MachineRule.store, storeGlobal, here_steps hr, stepV_zero, stepB_zero, hk, hhint, off_lt, Bool.and_self]
  legal := rfl
  writes := rfl
  body := by
    rintro ⟨xs, t, hgo⟩
    simp only [MachineRule.store] at hgo
    simp only [MachineRule.store, storeGlobal, here_steps hr, stepV_zero, stepB_zero, globalAccesses_eq, dataMark_eq, hgo]
    rfl

theorem prefetch_body (sh : Sheaf) (slot : Slot) (s : State) (fresh : Bool) :
    s.forEach (lanesOf slot.acting) (fun s l => s.prefetch slot.sid fresh (sh.globalAddr slot base.toNat off.toNat l)) =
      s.forEach (sh.globalAccesses slot base off) (fun s a => s.prefetch slot.sid fresh a.2) := by
  rw [← globalAccesses_eq, State.forEach, State.forEach, List.foldl_map]

theorem globalRule_serves {i : Instr} {r : MachineRule} (hrule : globalRule i = some r) (hwf : i.wf = true) (hr : Ready s sh) :
    ∃ f op, Serves i r f op s sh := by
  unfold globalRule at hrule
  split at hrule <;> cases hrule
  case h_1 => exact ⟨_, _, rfl, hwf, rfl, rfl, load_does hr (alignV_one _)⟩
  case h_2 | h_3 =>
    obtain ⟨hg, hk⟩ := Bool.and_eq_true_iff.mp hwf
    exact ⟨_, _, rfl, hg, rfl, rfl, load_does hr hk⟩
  case h_4 | h_5 | h_6 | h_7 => exact ⟨_, _, rfl, hwf, rfl, rfl, load_does hr (alignV_one _)⟩
  case h_8 =>
    obtain ⟨hg, hhint⟩ := Bool.and_eq_true_iff.mp hwf
    exact ⟨_, _, rfl, hg, rfl, rfl, store_does hr (alignV_one _) hhint⟩
  case h_9 | h_10 =>
    obtain ⟨hgk, hhint⟩ := Bool.and_eq_true_iff.mp hwf
    obtain ⟨hg, hk⟩ := Bool.and_eq_true_iff.mp hgk
    exact ⟨_, _, rfl, hg, rfl, rfl, store_does hr hk hhint⟩
  case h_11 | h_12 => exact ⟨_, _, rfl, hwf, rfl, rfl, store_does hr (alignV_one _) rfl⟩
  case h_13 g n off base fresh =>
    refine ⟨_, _, rfl, hwf, rfl, rfl, nofun, rfl, rfl, ?_, rfl, rfl, fun _ => ?_⟩
    · simp only [prefetchOp, here_steps hr, stepV_zero, stepB_zero, off_lt, beq_self_eq_true, Bool.and_self]
    · simp only [prefetchOp, here_steps hr, stepB_zero, prefetch_body]

/-! ## Local loads and stores (R154, R159, R160) -/

theorem loadLocal_does {size k : Nat} {w : Widen} {window : Slot → Nat} {la : Bool} (hr : Ready s sh) (hk : alignV k d.toNat = true) :
    Does (.loadLocal g n size k w window d base off) { formMe with la := la } (loadLocal size k w window d.toNat base.toNat off.toNat) s sh where
  wide h := by cases h
  role := rfl
  always := rfl
  ok := by simp only [MachineRule.loadLocal, loadLocal, here_steps hr, stepV_zero, stepB_zero, hk, off_lt, Bool.and_self]
  legal := rfl
  writes := by simp only [MachineRule.loadLocal, loadLocal, here_steps hr, stepV_zero]; rfl
  body := by
    rintro ⟨xs, t, hgo⟩
    simp only [MachineRule.loadLocal] at hgo
    simp only [MachineRule.loadLocal, loadLocal, here_steps hr, stepV_zero, stepB_zero, localDists_eq, hgo]
    rfl

theorem storeLocal_does {size k hint : Nat} (hr : Ready s sh) (hk : alignV k d.toNat = true) (hhint : cacheOk hint = true) :
    Does (.storeLocal g n size k d base off) formMe (storeLocalOp size k hint d.toNat base.toNat off.toNat) s sh where
  wide h := by cases h
  role := rfl
  always := rfl
  ok := by simp only [MachineRule.storeLocal, storeLocalOp, here_steps hr, stepV_zero, stepB_zero, hk, hhint, off_lt, Bool.and_self]
  legal := rfl
  writes := rfl
  body := by
    rintro ⟨xs, t, hgo⟩
    simp only [MachineRule.storeLocal] at hgo
    simp only [MachineRule.storeLocal, storeLocalOp, here_steps hr, stepV_zero, stepB_zero, localDists_eq, hgo]
    rfl

theorem localRule_serves {i : Instr} {r : MachineRule} (hrule : localRule i = some r) (hwf : i.wf = true) (hr : Ready s sh) :
    ∃ f op, Serves i r f op s sh := by
  unfold localRule at hrule
  split at hrule <;> cases hrule
  case h_1 => exact ⟨_, _, rfl, hwf, rfl, rfl, loadLocal_does hr (alignV_one _)⟩
  case h_2 | h_3 =>
    obtain ⟨hg, hk⟩ := Bool.and_eq_true_iff.mp hwf
    exact ⟨_, _, rfl, hg, rfl, rfl, loadLocal_does hr hk⟩
  case h_4 | h_5 | h_6 | h_7 => exact ⟨_, _, rfl, hwf, rfl, rfl, loadLocal_does hr (alignV_one _)⟩
  case h_8 =>
    obtain ⟨hg, hhint⟩ := Bool.and_eq_true_iff.mp hwf
    exact ⟨_, _, rfl, hg, rfl, rfl, storeLocal_does hr (alignV_one _) hhint⟩
  case h_9 | h_10 =>
    obtain ⟨hgk, hhint⟩ := Bool.and_eq_true_iff.mp hwf
    obtain ⟨hg, hk⟩ := Bool.and_eq_true_iff.mp hgk
    exact ⟨_, _, rfl, hg, rfl, rfl, storeLocal_does hr hk hhint⟩
  case h_11 | h_12 => exact ⟨_, _, rfl, hwf, rfl, rfl, storeLocal_does hr (alignV_one _) rfl⟩

end

end Sys2Proof.Machine

open Sys2Proof Sys2Proof.Machine

/-- Settles O25: each body forms the addresses of R153 and does what its rule says where the checks pass. -/
theorem globalAccesses : Obligations.GlobalAccesses := machineRules_of_serves fun _ _ _ _ hrule hwf hr _ => globalRule_serves hrule hwf hr

/-- Settles O26: each body forms the distances of R154 and does what its rule says where the checks pass. -/
theorem localAccesses : Obligations.LocalAccesses := machineRules_of_serves fun _ _ _ _ hrule hwf hr _ => localRule_serves hrule hwf hr

end

/-! PROOFS. What a local store leaves (R154, R159): bytes that no lane covers, memory, and every sheaf but its own. -/
section
namespace Sys2Proof.Machine

/-! ## Bytes put into an allotment -/

theorem Map.mem_of_mem_foldl_put {α : Type} {xs m : Map α} {e : Nat × α} (h : e ∈ xs.foldl (fun m x => Map.put m x.1 x.2) m) : e ∈ xs ∨ e ∈ m := by
  induction xs generalizing m with
  | nil => exact Or.inr h
  | cons x xs ih =>
    rcases ih h with h | h
    · exact Or.inl (List.mem_cons_of_mem _ h)
    · rcases Map.eq_or_mem_of_mem_put h with rfl | h
      · exact Or.inl List.mem_cons_self
      · exact Or.inr h

theorem Map.getD_foldl_put_of_ne {α : Type} {xs : Map α} {k : Nat} (h : ∀ x ∈ xs, x.1 ≠ k) (m : Map α) (d : α) :
    Map.getD (xs.foldl (fun m x => Map.put m x.1 x.2) m) k d = Map.getD m k d := by
  induction xs generalizing m with
  | nil => rfl
  | cons x xs ih =>
    obtain ⟨hx, hrest⟩ := List.forall_mem_cons.mp h
    rw [List.foldl_cons, ih hrest, Map.getD_put, if_neg (Ne.symm hx)]

theorem Tuft.writeLocal_lbyte_of_ne {bytes : Map Byte} {off : Nat} (h : ∀ e ∈ bytes, e.1 ≠ off) (t : Tuft) (mark : Mark) (tag : Nat) :
    (t.writeLocal bytes mark tag).lbyte off = t.lbyte off :=
  Map.getD_foldl_put_of_ne (fun e he => h e ((Map.mem_of_mem_foldl_put he).resolve_right List.not_mem_nil)) t.lbytes 0

/-! ## A tuft that is changed -/

theorem State.modTuft_tuft? (s : State) (tid : Nat) (f : Tuft → Tuft) (k : Nat) :
    (s.modTuft tid f).tuft? k = if k = tid then (s.tuft? tid).map f else s.tuft? k := by
  unfold State.modTuft
  cases h : s.tuft? tid with
  | none =>
    by_cases hk : k = tid
    · rw [if_pos hk, hk]
      exact h
    · rw [if_neg hk]
  | some t => exact Map.find?_put ..

theorem State.localByte_eq (s : State) (p : Place) : s.localByte p = ((s.tuft? p.tid).map (fun t => t.lbyte p.off)).getD 0 := by
  unfold State.localByte State.localBytes
  cases s.tuft? p.tid <;> rfl

theorem State.writeLocal_localByte {tid : Nat} {bytes : Map Byte} {p : Place} (h : tid = p.tid → ∀ e ∈ bytes, e.1 ≠ p.off) (s : State) (mark : Mark)
    (tag : Nat) : (s.writeLocal tid bytes mark tag).localByte p = s.localByte p := by
  rw [State.localByte_eq, State.localByte_eq, State.writeLocal, State.modTuft_tuft?]
  by_cases htid : p.tid = tid
  · rw [if_pos htid, ← htid, Option.map_map]
    cases s.tuft? p.tid with
    | none => rfl
    | some t => exact Tuft.writeLocal_lbyte_of_ne (h htid.symm) t mark tag
  · rw [if_neg htid]

/-! ## What writes into local stores leave of the machine -/

/-- Two machines differ in their tufts' local stores at most. -/
structure SameButLocal (s t : State) : Prop where
  sheaves : t.sheaves = s.sheaves
  waits   : ∀ x, t.waitsHere x = s.waitsHere x
  mem     : t.mem = s.mem
  keyOf   : t.keyOf = s.keyOf

theorem SameButLocal.refl (s : State) : SameButLocal s s := ⟨rfl, fun _ => rfl, rfl, rfl⟩

theorem SameButLocal.trans {s t u : State} (h : SameButLocal s t) (h' : SameButLocal t u) : SameButLocal s u :=
  ⟨h'.sheaves.trans h.sheaves, fun x => (h'.waits x).trans (h.waits x), h'.mem.trans h.mem, h'.keyOf.trans h.keyOf⟩

theorem SameButLocal.viewByte {s t : State} (h : SameButLocal s t) (key a : Nat) : t.viewByte key a = s.viewByte key a :=
  State.viewByte_congr (by rw [h.keyOf]) (fun _ _ => by rw [h.mem]) key

theorem SameButLocal.waiting_eq_nil {s t : State} (h : SameButLocal s t) (hs : s.waiting = []) : t.waiting = [] := by
  rw [State.waiting_eq_nil_iff] at hs ⊢
  rw [h.sheaves]
  exact fun e he => (h.waits e.2).trans (hs e he)

theorem State.writeLocal_sameButLocal (s : State) (tid : Nat) (bytes : Map Byte) (mark : Mark) (tag : Nat) :
    SameButLocal s (s.writeLocal tid bytes mark tag) := by
  refine ⟨State.modTuft_sheaves .., fun x => ?_, State.modTuft_mem .., State.modTuft_keyOf ..⟩
  simp only [State.waitsHere, State.writeLocal, State.modTuft_tuft?]
  by_cases htid : x.tid = tid
  · rw [if_pos htid, htid]
    cases s.tuft? tid <;> rfl
  · rw [if_neg htid]

theorem State.storeLocal_sameButLocal (s : State) (xs : List (Nat × Place)) (bytes : Nat → List Byte) (mark : Mark) :
    SameButLocal s (s.storeLocal xs bytes mark) :=
  State.forEach_keeps (SameButLocal s) _ _ (fun t tid h => h.trans (t.writeLocal_sameButLocal tid _ mark 0)) (SameButLocal.refl s)

theorem mem_spread {off : Nat} {bs : List Byte} {e : Nat × Byte} (h : e ∈ spread off bs) : off ≤ e.1 ∧ e.1 < off + bs.length := by
  obtain ⟨i, hi, rfl⟩ := List.mem_map.mp h
  have := List.mem_range.mp hi
  exact ⟨Nat.le_add_right off i, by simp only; omega⟩

/-- A place that no lane's bytes cover reads as before. -/
theorem State.storeLocal_localByte {xs : List (Nat × Place)} {bytes : Nat → List Byte} {size : Nat} {p : Place} (hlen : ∀ l, (bytes l).length ≤ size)
    (h : ¬ covered xs size p) (s : State) (mark : Mark) : (s.storeLocal xs bytes mark).localByte p = s.localByte p := by
  refine State.forEach_keeps (fun t => t.localByte p = s.localByte p) _ _ (fun t tid ht => ?_) rfl
  refine (State.writeLocal_localByte (fun htid e he heq => h ?_) t mark 0).trans ht
  obtain ⟨x, hx, hin⟩ := List.mem_flatMap.mp he
  obtain ⟨hmem, hsame⟩ := List.mem_filter.mp hx
  obtain ⟨hlo, hhi⟩ := mem_spread hin
  exact ⟨x, hmem, (beq_iff_eq.mp hsame).trans htid, heq ▸ hlo, by have := hlen x.1; omega⟩

/-! ## A local store issues -/

/-- With no matrix operation in flight the checks of a local access change nothing (R155, R195). -/
theorem checkLocal_state {s u : State} {slot : Slot} {sh : Sheaf} {la : Word} {dists : List (Nat × Int)} {width : Nat} {store : Bool}
    {xs : List (Nat × Place)} (hm : sh.mops = []) (h : s.checkLocal slot sh la dists width store = .go xs u) : u = s := by
  have hhazard : ∀ offs, sh.localHazard offs store = false := fun offs => by rw [Sheaf.localHazard, hm, List.any_nil]
  simp only [State.checkLocal, hhazard, Bool.false_eq_true, if_false] at h
  split at h
  · cases h
  · split at h <;> cases h
    rfl

theorem Sheaf.laneBytes_length (sh : Sheaf) (d : BitVec 5) (k size l : Nat) : (sh.laneBytes d k size l).length ≤ size := List.length_take_le ..

theorem localStore_rule {i : Instr} {g : BitVec 4} {n : BitVec 1} {size : Nat} {base : BitVec 3} {off : BitVec 8}
    (h : localStore i = some (g, n, size, base, off)) : ∃ k d, localRule i = some (.storeLocal g n size k d base off) := by
  unfold localStore at h
  split at h <;> cases h
  all_goals exact ⟨_, _, rfl⟩

theorem Sheaf.noteStored_cases (sh : Sheaf) (offs : List Nat) : ∃ xs, sh.noteStored offs = { sh with aWrites := xs } := by
  unfold Sheaf.noteStored
  split
  · exact ⟨_, rfl⟩
  · exact ⟨sh.aWrites, rfl⟩

/-- An instruction that notes what its sheaf stored ends in a machine that differs in that sheaf, where none waits (R23, R33). -/
theorem over_noteStored {s w : State} {sh : Sheaf} (hr : Ready s sh) (g n : Nat) (offs : Sheaf → List Nat)
    (hsheaf : w.sheaf? s.slot.sid = some sh.begun) (hwaiting : w.waiting = []) :
    ∃ y, (s.over (w.modSheaf s.slot.sid (fun x => x.noteStored (offs x))) sh g n).settle = w.setSheaf s.slot.sid y := by
  obtain ⟨writes, hnoted⟩ := sh.begun.noteStored_cases (offs sh.begun)
  have hover : (sh.begun.noteStored (offs sh.begun)).over = false := by
    rw [hnoted]
    exact Sheaf.over_of_issuing hr.issuing
  have hend : (sh.begun.noteStored (offs sh.begun)).atLoopEnd (s.here sh g n).addr = false := by
    rw [hnoted, State.here_addr]
    exact hr.noend
  refine ⟨(sh.begun.noteStored (offs sh.begun)).finish (s.here sh g n) 0 (fun _ => 0) false (s.began sh), ?_⟩
  rw [State.over, State.modSheaf_of_sheaf? hsheaf, ← State.here_sid s sh g n, State.finish_here hover]
  refine State.settle_of_waiting_eq_nil (State.setSheaf_waiting_eq_nil hwaiting _ ?_)
  rw [Sheaf.finish_state _ _ _ _ hend]
  exact Sheaf.goOn_state_ne_waiting _

theorem begun_waiting_eq_nil {s : State} {sh : Sheaf} (hr : Ready s sh) (h : s.waiting = []) : (s.begun sh).waiting = [] := by
  refine State.setSheaf_waiting_eq_nil h _ fun hwaits => ?_
  have hissuing : sh.issuing = true := hr.issuing
  rw [Sheaf.issuing, show sh.state = .waiting from hwaits] at hissuing
  cases hissuing

/-- A local store whose checks pass, where no sheaf waits: its bytes stand in the local stores, and its sheaf has gone on. -/
theorem storeLocal_exec {i : Instr} {s u : State} {sh : Sheaf} {g : BitVec 4} {n : BitVec 1} {size k : Nat} {d : BitVec 5} {base : BitVec 3}
    {off : BitVec 8} {xs : List (Nat × Place)} (hrule : localRule i = some (.storeLocal g n size k d base off)) (hwf : i.wf = true) (hr : Ready s sh)
    (hpx : Prefixed i s) (hwaiting : s.waiting = []) (hacting : (s.here sh g.toNat n.toNat).acting ≠ 0)
    (hgo : (s.begun sh).checkLocal (s.here sh g.toNat n.toNat) sh.begun (sh.readU (160 + base.toNat))
      (sh.begun.localAccesses (s.here sh g.toNat n.toNat) off) size true = .go xs u) :
    ∃ mark y, exec i s = .next (((s.begun sh).storeLocal xs (fun l => sh.begun.laneBytes d k size l) mark).setSheaf s.slot.sid y) := by
  obtain rfl : u = s.begun sh := checkLocal_state hr.nomops hgo
  have hexec := (localAccesses i _ s sh hrule hwf hr hpx nofun rfl trivial).2 hacting ⟨xs, _, hgo⟩
  simp only [MachineRule.storeLocal, Sheaf.begun_readU, hgo, List.map_nil, State.notes, if_true, State.here_sid] at hexec
  have hsame := (s.begun sh).storeLocal_sameButLocal xs (fun l => sh.begun.laneBytes d k size l)
    (maxMark (sh.begun.laneMark d k) (maxMark (sh.begun.ureg (160 + base.toNat)).mark (sh.begun.operandMark off.toNat)))
  have hsheaf := (congrArg (fun m => Map.find? m s.slot.sid) hsame.sheaves).trans (State.setSheaf_sheaf? s s.slot.sid sh.begun)
  obtain ⟨y, hy⟩ := over_noteStored hr g.toNat n.toNat
    (fun x => xs.flatMap (fun e => if e.2.tid == x.tid then (List.range size).map (fun i => e.2.off + i) else [])) hsheaf
    (hsame.waiting_eq_nil (begun_waiting_eq_nil hr hwaiting))
  exact ⟨_, y, hexec.trans (congrArg Host.Outcome.next hy)⟩

end Sys2Proof.Machine

open Sys2Proof Sys2Proof.Machine

/-- Settles O11: the store's writes reach its lanes' places alone, and where no sheaf waits nothing follows but the end of the instruction. -/
theorem localStoresChangeTheirBytes : Obligations.LocalStoresChangeTheirBytes := by
  intro i s t u sh g n size base off xs hstore hwf hr hpx hwaiting hacting hgo hexec
  obtain ⟨k, d, hrule⟩ := localStore_rule hstore
  obtain ⟨mark, y, hnext⟩ := storeLocal_exec hrule hwf hr hpx hwaiting hacting hgo
  obtain rfl := Host.Outcome.next.inj (hexec.symm.trans hnext)
  refine ⟨fun p hp => ?_, fun key a => ?_⟩
  · exact State.storeLocal_localByte (sh.begun.laneBytes_length d k size) hp (s.begun sh) mark
  · exact ((s.begun sh).storeLocal_sameButLocal xs _ mark).viewByte key a

end

/-! PROOFS. LDP (R163): its word, the offsets it refuses, what it does with a window that is not bound, beyond a bound one, and inside it. -/
section
namespace Sys2Proof.Machine

section
variable {s : State} {sh : Sheaf} {g : BitVec 4} {n : BitVec 1} {d : BitVec 8} {o : BitVec 5} {w : BitVec 3}

/-! ## The body (R163) -/

/-- A sheaf whose LDP goes beyond its window: its pair is zero with mark OPEN, and PWOOB is set (R163). -/
def Sheaf.beyondWindow (sh : Sheaf) (i : Nat) : Sheaf := (sh.writePair i 0 0).raise flagPWOOB

theorem Sheaf.beyondWindow_atLoopEnd (sh : Sheaf) (i : Nat) (a : Addr) : (sh.beyondWindow i).atLoopEnd a = sh.atLoopEnd a := by
  simp only [Sheaf.beyondWindow, Sheaf.atLoopEnd, Sheaf.raise_loop0, Sheaf.raise_loop1, Sheaf.writePair_loop0, Sheaf.writePair_loop1]

theorem Sheaf.beyondWindow_live (sh : Sheaf) (i : Nat) : (sh.beyondWindow i).live = sh.live := by
  simp only [Sheaf.beyondWindow, Sheaf.live, Sheaf.raise_exited, Sheaf.raise_faulted, Sheaf.writePair_exited, Sheaf.writePair_faulted]

theorem Sheaf.beyondWindow_pcv (sh : Sheaf) (i : Nat) : (sh.beyondWindow i).pcv = sh.pcv := by
  simp only [Sheaf.beyondWindow, Sheaf.raise_pcv, Sheaf.writePair_pcv]

theorem Sheaf.beyondWindow_over (sh : Sheaf) (i : Nat) : (sh.beyondWindow i).over = sh.over := by
  simp only [Sheaf.beyondWindow, Sheaf.over, Sheaf.raise_state, Sheaf.writePair_state]

theorem Sheaf.beyondWindow_status (sh : Sheaf) (i : Nat) : (sh.beyondWindow i).status = sh.status ||| flagPWOOB := by
  simp only [Sheaf.beyondWindow, Sheaf.raise_status, Sheaf.writePair_status]

theorem Sheaf.beyondWindow_vregs (sh : Sheaf) (i : Nat) : (sh.beyondWindow i).vregs = sh.vregs := by
  simp only [Sheaf.beyondWindow, Sheaf.raise_vregs, Sheaf.writePair_vregs]

theorem Sheaf.beyondWindow_ureg (sh : Sheaf) (i j : Nat) :
    (sh.beyondWindow i).ureg j = if j = i ∨ j = i + 1 then { val := 0, mark := 0 } else sh.ureg j := by
  simp only [Sheaf.beyondWindow, Sheaf.ureg, Sheaf.raise_uregs, Sheaf.writePair, Sheaf.writeU, Map.getD_put]
  by_cases hlow : j = i
  · rw [if_pos (Or.inl hlow), if_pos hlow]
    exact ite_self _
  · by_cases hhigh : j = i + 1
    · rw [if_pos (Or.inr hhigh), if_pos hhigh]
      rfl
    · rw [if_neg hhigh, if_neg hlow, if_neg (not_or.mpr ⟨hlow, hhigh⟩)]

theorem ldpOp_ok_iff (hd : evenU d.toNat = true) (slot : Slot) :
    (ldpOp d.toNat o.toNat w.toNat slot).ok = true ↔ 0 ≤ slot.ldpOffset o.toNat ∧ slot.ldpOffset o.toNat % 8 = 0 := by
  simp only [ldpOp, hd, Bool.true_and, Bool.and_eq_true, decide_eq_true_eq, beq_iff_eq]

theorem ldpOp_body_unbound {slot : Slot} {d o w : Nat} (hwindow : s.windowOf sh w = none) :
    (ldpOp d o w slot).body slot sh s = .trap (TrapInfo.at cParamUnbound 0 0 (BitVec.ofNat 64 w)) s := by
  simp only [ldpOp, hwindow]

theorem ldpOp_body_beyond {slot : Slot} {d o w size : Nat} {base : Addr} (hwindow : s.windowOf sh w = some (base, size))
    (hbeyond : (size : Int) < slot.ldpOffset o + 8) :
    (ldpOp d o w slot).body slot sh s = .next (s.setSheaf slot.sid (sh.beyondWindow (d - 64))) := by
  simp only [ldpOp, hwindow, if_pos hbeyond, writePairB_eq, Act.ofSheaf, Sheaf.beyondWindow]

theorem ldpOp_body_inside {slot : Slot} {d o w size sid : Nat} {lanes : Mask} {base : Addr} {x : Reached} {xs : List Reached}
    {u v : State} {bs : List Byte} (hsid : slot.sid = sid) (hlanes : slot.lanes = lanes) (hwindow : s.windowOf sh w = some (base, size))
    (hinside : slot.ldpOffset o + 8 ≤ size)
    (hgo : s.checkGlobal sh [(lowestLane lanes, base + BitVec.ofInt 64 (slot.ldpOffset o))] 8 false 0 = .go (x :: xs) u)
    (hfetch : ((u.setSheaf sid (sh.countMem (touchedLines (x :: xs)))).forceResults sid (fun p => p.reads x.trans.paddr 8)).fetchData
      sid (x.src false) 8 = (.ok bs, v)) :
    (ldpOp d o w slot).body slot sh s = .next (v.modSheaf sid (fun y => y.writeUs (d - 64)
      ((List.range (bs.length / 4)).map (fun k => BitVec.ofNat 32 (natAt bs (4 * k) 4))) (v.reachedMark (v.partOf sh) (x :: xs)))) := by
  subst hsid hlanes
  have hnot : ¬ (size : Int) < slot.ldpOffset o + 8 := by omega
  simp only [ldpOp, hwindow, if_neg hnot, State.loadNow, addrAdd, hgo, hfetch]
  rfl

/-! ## What its issue comes to -/

/-- An instruction that names no varying destination and whose body goes on ends where its lanes stand at the next one. -/
theorem issue_over {f : Form} {g n : Nat} {op : Slot → Op} {t : State} (hr : Ready s sh) (hpx : f.prefixesOk s.slot = true) (hg : guardOk g n = true)
    (hrole : f.role.issues sh.role = true)
    (hw : f.wide = true → s.slot.lanes = sh.live ∧ (f.liveOnly = true ∨ guardUniform (s.here sh g n) = true))
    (hok : (op (s.here sh g n)).ok = true) (hl : (op (s.here sh g n)).legal sh.begun (s.begun sh) = true) (ha : (s.here sh g n).acting ≠ 0)
    (hwrites : (op (s.here sh g n)).writes = [])
    (hb : (op (s.here sh g n)).body (s.here sh g n) sh.begun (s.begun sh) = .next t) : issue f g n op s = (s.over t sh g n).settle := by
  have hacts : ((s.here sh g n).acting == 0 && !f.always) = false := by rw [beq_eq_false_iff_ne.mpr ha]; rfl
  rw [issue_ready hr hpx hg hrole hw hok hl]
  simp only [actOf, hacts, hwrites, hb, List.isEmpty_nil, Bool.false_eq_true, if_false, if_true, endAct, State.over]

/-- R163: beyond its window an LDP clears its pair, with mark OPEN, and sets PWOOB. -/
theorem ldp_beyond {size : Nat} {base : Addr} (hr : Ready s sh) (hw : Wide s sh g.toNat n.toNat) (hprefixes : formLs.prefixesOk s.slot = true)
    (hg : guardOk g.toNat n.toNat = true) (hd : evenU d.toNat = true)
    (hok : (ldpOp d.toNat o.toNat w.toNat (s.here sh g.toNat n.toNat)).ok = true) (hacting : (s.here sh g.toNat n.toNat).acting ≠ 0)
    (hwindow : (s.begun sh).windowOf sh.begun w.toNat = some (base, size))
    (hbeyond : (size : Int) < (s.here sh g.toNat n.toNat).ldpOffset o.toNat + 8) :
    ∃ sh', exec (.ldp g n d o w) s = .next (s.setSheaf s.slot.sid sh').settle ∧ sh'.status = sh.status ||| flagPWOOB ∧
      (∀ j, sh'.ureg j = if j = d.toNat - 64 ∨ j = d.toNat - 63 then { val := 0, mark := 0 } else sh.ureg j) ∧ sh'.vregs = sh.vregs ∧
      Advanced s sh sh' := by
  have hnext : d.toNat - 64 + 1 = d.toNat - 63 := by
    have := le_of_isU (Bool.and_eq_true_iff.mp hd).1
    omega
  have hbody := ldpOp_body_beyond (sh := sh.begun) (d := d.toNat) hwindow hbeyond
  rw [State.here_sid, State.begun, State.setSheaf_setSheaf] at hbody
  obtain ⟨sh', hexec, hstill, hadv⟩ := sheaf_ends hr hprefixes hg rfl (fun _ => ⟨hw.converged, Or.inr hw.uniform⟩) hok rfl (Or.inl hacting) hbody
    ((Sheaf.beyondWindow_atLoopEnd ..).trans hr.noend) (Sheaf.beyondWindow_live ..) (Sheaf.beyondWindow_pcv ..)
    ((Sheaf.beyondWindow_over ..).trans (Sheaf.over_of_issuing hr.issuing))
  refine ⟨sh', hexec, (Sheaf.still_status hstill).trans (Sheaf.beyondWindow_status ..), fun j => ?_,
    (Sheaf.still_vregs hstill).trans (Sheaf.beyondWindow_vregs ..), hadv⟩
  rw [Sheaf.ureg, Sheaf.still_uregs hstill, ← hnext]
  exact Sheaf.beyondWindow_ureg ..

end

end Sys2Proof.Machine

open Sys2Proof Sys2Proof.Machine

/-- Settles O60: the fields are judged before all else (R86); each clause past them is a case of the body. -/
theorem ldpReadsWindows : Obligations.LdpReadsWindows := by
  intro g n d o w s sh hg hd hr hla i slot t
  have ht : t = slot.ldpOffset o.toNat := rfl
  clear_value t
  subst ht
  have hpx : Prefixed i s := ⟨Or.inr rfl, Or.inl hla⟩
  have hprefixes : formLs.prefixesOk s.slot = true := prefixes_ok hpx hr.norep rfl rfl
  refine ⟨decodeNat_encodeNat _ _ rfl, fun hbad => ?_, fun hpos height hw hacting => ?_⟩
  · refine raises_illegal_fields rfl hr.there hr.issuing hr.norep (Bool.eq_false_iff.mpr fun hok => ?_)
    obtain ⟨hpos, height⟩ := (ldpOp_ok_iff hd _).mp hok
    exact hbad.elim (fun h => absurd hpos (not_le.mpr h)) (fun h => h height)
  · have hok : (ldpOp d.toNat o.toNat w.toNat slot).ok = true := (ldpOp_ok_iff hd slot).mpr ⟨hpos, height⟩
    have hwide : formLs.wide = true → s.slot.lanes = sh.live ∧ (formLs.liveOnly = true ∨ guardUniform slot = true) :=
      fun _ => ⟨hw.converged, Or.inr hw.uniform⟩
    refine ⟨fun hwindow => ?_, fun base size hwindow => ⟨fun hbeyond => ?_, fun hinside x xs u bs v hgo hfetch => ?_⟩⟩
    · exact trap_ends hr hprefixes hg rfl hwide hok rfl hacting rfl (ldpOp_body_unbound hwindow)
    · exact ldp_beyond hr hw hprefixes hg hd hok hacting hwindow hbeyond
    · have hbody := ldpOp_body_inside (d := d.toNat) (State.here_sid ..) (State.here_lanes ..) hwindow hinside hgo hfetch
      exact congrArg Host.Outcome.next (issue_over hr hprefixes hg rfl hwide hok rfl hacting rfl hbody)

end

/-! PROOFS. LDS where two sheaves stand under one name (R55, R162): the fill's victim grant (R244) puts the second in place of the first. -/
section
namespace Sys2Proof.Machine

/-- A sheaf whose pair s128 names its page, in the clear. -/
def openBase : Sheaf := probeSheaf.writePair 128 0x10400 0

/-- Another one, with a measured lease (R242), whose pair has a mark. -/
def markedBase : Sheaf := { probeSheaf.writePair 128 0x10400 2 with lease := { probeSheaf.lease with measured := true } }

/-- The machine with the first sheaf in its issue slot, the second one later under the same name, and the line of their page among the victims of
their slot. -/
def twiceNamed : State :=
  let s := ({ State.reset.withFetchWord 32 0 with slot := slotFor 0 probeCode 0xFFFFFFFF Hints.none }).setSheaf 0 openBase
  ({ s with sheaves := s.sheaves ++ [(0, markedBase)] }).modCore 0 (fun k => { k with victims := [(lineOf 0x10400, 0)] })

/-- LDS to s0 from the address in s128. -/
def baseLoad : Instr := .lds 15 0 64 192

/-- Its rule. -/
def baseRule : MachineRule :=
  .loadWords 15 0 1 0 (fun _ sh slot => sh.readPair 128 + BitVec.ofInt 64 (offsetOf slot)) (fun sh => sh.pairMark 128) (fun _ _ _ => True)

theorem twiceNamed_ready : Ready twiceNamed openBase := by constructor <;> rfl

/-- The mark of s0 in sheaf 0, in the state that an outcome goes on to. -/
def markLoaded (o : Host.Outcome State Fault Refusal) : Option Mark :=
  match o with
  | .next t => (t.sheaf? 0).map (fun x => (x.ureg 0).mark)
  | _ => none

/-- The machine takes the mark of the pair from the second sheaf. -/
theorem baseLoad_mark : markLoaded (exec baseLoad twiceNamed) = some 2 := rfl

/-- The rule takes it from the first. -/
theorem baseRule_mark : baseRule.goes (twiceNamed.begun openBase) (twiceNamed.here openBase 15 0) openBase.begun ∧
    markLoaded (.next (twiceNamed.over (baseRule.after (twiceNamed.begun openBase) (twiceNamed.here openBase 15 0) openBase.begun) openBase 15 0).settle) =
      some 0 := ⟨⟨trivial, rfl⟩, rfl⟩

end Sys2Proof.Machine

open Sys2Proof Sys2Proof.Machine

/-- Refutes O27: in `twiceNamed` the list of sheaves holds two under one name. The miss of LDS takes a victim grant of the second one, which stands in
place of the first from then on; the word loaded takes the mark of the second one's address pair, where the table has that of the first. -/
theorem not_sheafLoads : ¬ Obligations.SheafLoads := by
  intro hrules
  obtain ⟨hgoes, hmark⟩ := baseRule_mark
  have hrun := (hrules baseLoad baseRule twiceNamed openBase rfl rfl twiceNamed_ready ⟨Or.inl rfl, Or.inl rfl⟩ (fun _ => ⟨rfl, rfl⟩) rfl trivial).2
    (by decide) hgoes
  have hsame : (some 2 : Option Mark) = some 0 := by
    rw [← baseLoad_mark, ← hmark]
    exact congrArg markLoaded hrun
  exact absurd hsame (by decide)

end


/-! PROOFS. The issue of an instruction in a sheaf that has results in flight or matrix operations pending (R98, R99, R195): where nothing of that
hinders it, its body is what it ends in. -/
section
namespace Sys2Proof.Machine

/-- The checks of R86 pass: fields and prefixes are legal, the sheaf and its tuft allow the instruction, no armed loop ends there, the role issues
it, and a sheaf-wide write has its conditions (R50, R51). -/
structure PassesChecks (f : Form) (op : Op) (slot : Slot) (sh : Sheaf) (s : State) : Prop where
  ok       : op.ok = true
  legal    : op.legal sh s = true
  prefixes : f.prefixesOk slot = true
  noend    : sh.atLoopEnd slot.addr = false
  role     : f.role.issues sh.role = true
  wide     : f.wide = true → slot.lanes = sh.live ∧ (f.liveOnly = true ∨ guardUniform slot = true)

/-- The issue itself judges rows 2 and 4 of R195: under MSTRICT, but for a matrix instruction that acts (R184). -/
def judgesRegisters (f : Form) (slot : Slot) (sh : Sheaf) : Bool :=
  modeMstrict sh.mode && (f.role != .matrix || (slot.acting == 0 && !f.always))

/-- The registers that an instruction names, as operations and results in flight number them. -/
def Op.names (op : Op) (sh : Sheaf) : List Nat := (op.uses ++ op.named).map sh.physName

/-- Nothing pending traps or delays an instruction at its issue: no hazard of R195 rows 2 and 4 that is judged there or waited for, no result in
flight to a register that it names or uses (R98, R99). -/
structure Unhindered (f : Form) (op : Op) (slot : Slot) (sh : Sheaf) : Prop where
  hazard  : judgesRegisters f slot sh = true → sh.regHazard? (op.names sh) (op.writes.map sh.phys) = none
  promise : ∀ p ∈ sh.pend, p.meets (op.names sh) = false
  flight  : ∀ p ∈ sh.pend, p.meets ((op.uses ++ op.also).map sh.physName) = false
  drain   : modeMstrict sh.mode = false → sh.regHazard? (op.uses.map sh.physName) (op.writes.map sh.phys) = none

theorem Sheaf.regHazard?_nil (sh : Sheaf) : sh.regHazard? [] [] = none := by simp [Sheaf.regHazard?]

theorem Pending.meets_nil (p : Pending) : p.meets [] = false := by simp [Pending.meets]

/-- Under MSTRICT with nothing in flight only a judged register hazard hinders. -/
theorem unhindered_of_mstrict {f : Form} {op : Op} {slot : Slot} {sh : Sheaf} (hpend : sh.pend = []) (hstrict : modeMstrict sh.mode = true)
    (hhazard : judgesRegisters f slot sh = true → sh.regHazard? (op.names sh) (op.writes.map sh.phys) = none) : Unhindered f op slot sh where
  hazard := hhazard
  promise := by simp [hpend]
  flight := by simp [hpend]
  drain h := by rw [hstrict] at h; cases h

/-- An operation that names, uses and writes no register is never hindered. -/
theorem unhindered_of_bare (f : Form) {op : Op} (slot : Slot) (sh : Sheaf) (huses : op.uses = []) (hnamed : op.named = []) (halso : op.also = [])
    (hwrites : op.writes = []) : Unhindered f op slot sh where
  hazard _ := by simp only [Op.names, huses, hnamed, hwrites, List.append_nil, List.map_nil, Sheaf.regHazard?_nil]
  promise p _ := by simp only [Op.names, huses, hnamed, List.append_nil, List.map_nil, Pending.meets_nil]
  flight p _ := by simp only [huses, halso, List.append_nil, List.map_nil, Pending.meets_nil]
  drain _ := by simp only [huses, hwrites, List.map_nil, Sheaf.regHazard?_nil]

section
variable {f : Form} {op : Op} {slot : Slot} {sh : Sheaf} {s : State}

theorem PassesChecks.not_split (h : PassesChecks f op slot sh s) : (f.wide && !(slot.lanes == sh.live)) = false := by
  cases hw : f.wide
  · rfl
  · simp [(h.wide hw).1]

theorem PassesChecks.not_divergent (h : PassesChecks f op slot sh s) : (f.wide && !f.liveOnly && !guardUniform slot) = false := by
  cases hw : f.wide
  · rfl
  · rcases (h.wide hw).2 with h | h <;> simp [h]

theorem PassesChecks.firstTrap_none (h : PassesChecks f op slot sh s) (hfree : Unhindered f op slot sh) (start : Nat) :
    firstTrap f op slot sh s start = none := by
  have hregs : (if judgesRegisters f slot sh then sh.regHazard? (op.names sh) (op.writes.map sh.phys) else none) = none := by
    split
    · next hj => exact hfree.hazard hj
    · rfl
  have hpromise : sh.brokenPromise? start (op.names sh) = none := by
    refine List.find?_eq_none.mpr fun p hp => ?_
    rw [hfree.promise p hp, Bool.and_false]
    exact Bool.false_ne_true
  unfold judgesRegisters Op.names at hregs
  unfold Op.names at hpromise
  simp only [firstTrap, h.ok, h.legal, h.prefixes, h.noend, h.role, h.not_split, h.not_divergent, hregs, hpromise, Bool.not_true, Bool.or_false,
    Bool.false_and, Bool.false_eq_true, if_false, ite_self]

/-- Rows 2 and 4 of R195 trap at issue once the checks of R86 have passed. -/
theorem PassesChecks.firstTrap_hazard (h : PassesChecks f op slot sh s) (hj : judgesRegisters f slot sh = true) {row : Nat}
    (hrow : sh.regHazard? (op.names sh) (op.writes.map sh.phys) = some row) (start : Nat) :
    firstTrap f op slot sh s start = some (TrapInfo.at cMhazard row 0 (slot.word.setWidth 64)) := by
  unfold judgesRegisters at hj
  unfold Op.names at hrow
  simp only [firstTrap, h.ok, h.legal, h.prefixes, h.noend, h.role, h.not_split, h.not_divergent, hj, hrow, Bool.not_true, Bool.or_false,
    Bool.false_and, Bool.false_eq_true, if_false, if_true]

/-- One repeat that nothing hinders: its body's outcome. -/
theorem issueRepeat_unhindered {start : Nat} (hthere : s.sheaf? slot.sid = some sh) (hissuing : sh.issuing = true) (h : PassesChecks f op slot sh s)
    (hfree : Unhindered f op slot sh) : issueRepeat f op slot start s = actOf f op slot sh s := by
  have hdrain : s.replayMatrix slot.sid sh op = s := by
    cases hm : modeMstrict sh.mode
    · simp [State.replayMatrix, hfree.drain hm]
    · simp [State.replayMatrix, hm]
  have hlock : s.interlock slot.sid start ((op.uses ++ op.also).map sh.physName) = s := by
    have hnone : sh.pend.filter (fun p => (p.window == 0 || decide (start ≤ p.id)) && p.meets ((op.uses ++ op.also).map sh.physName)) = [] := by
      refine List.filter_eq_nil_iff.mpr fun p hp => ?_
      rw [hfree.flight p hp, Bool.and_false]
      exact Bool.false_ne_true
    simp only [State.interlock, State.forceResults, hthere, hnone]
    rfl
  simp only [issueRepeat, hthere, hissuing, h.firstTrap_none hfree, hdrain, hlock]
  rfl

end

section
variable {f : Form} {g n : Nat} {op : Slot → Op} {s : State} {sh : Sheaf}

/-- The checks of an instruction of a standing sheaf, what is attached to it being allowed. -/
theorem Standing.passesChecks {i : Instr} (hst : Standing s sh) (hnorep : s.slot.rep = none) (hpx : Prefixed i s) (hximm : takesXimm i = f.ximm)
    (hla : takesLa i = f.la) (hok : (op (s.here sh g n)).ok = true) (hlegal : (op (s.here sh g n)).legal sh.begun (s.begun sh) = true)
    (hrole : f.role.issues sh.role = true)
    (hwide : f.wide = true → s.slot.lanes = sh.live ∧ (f.liveOnly = true ∨ guardUniform (s.here sh g n) = true)) :
    PassesChecks f (op (s.here sh g n)) (s.here sh g n) sh.begun (s.begun sh) where
  ok := hok
  legal := hlegal
  prefixes := by rw [here_prefixesOk]; exact prefixes_ok hpx hnorep hximm hla
  noend := by rw [State.here_addr]; exact hst.noend
  role := hrole
  wide h := by rw [State.here_lanes]; exact hwide h

/-- The checks do not depend on how the guard's legality is noted. -/
theorem PassesChecks.guarded {op : Op} {slot : Slot} (h : PassesChecks f op slot sh s) (hg : guardOk g n = true) :
    PassesChecks f { op with ok := op.ok && guardOk g n } slot sh s :=
  ⟨by simp only [h.ok, hg, Bool.and_self], h.legal, h.prefixes, h.noend, h.role, h.wide⟩

/-- An instruction without REP issues in a standing sheaf where nothing hinders it: its body's outcome, then the end of waits. -/
theorem issue_unhindered (hst : Standing s sh) (hnorep : s.slot.rep = none) (hg : guardOk g n = true)
    (h : PassesChecks f (op (s.here sh g n)) (s.here sh g n) sh.begun (s.begun sh))
    (hfree : Unhindered f (op (s.here sh g n)) (s.here sh g n) sh.begun) :
    issue f g n op s =
      (endAct (s.here sh g n) (s.began sh) (actOf f (op (s.here sh g n)) (s.here sh g n) sh.begun (s.begun sh))).settle := by
  have hmod : s.modSheaf s.slot.sid (fun sh => { sh with reprem := 0, began := none }) = s.begun sh := by
    simp only [State.modSheaf, hst.there, State.begun, Sheaf.begun]
  have hthere : (s.begun sh).sheaf? s.slot.sid = some sh.begun := by simp [State.begun]
  have hone : repeatsLeft s.slot sh.reprem = 1 := by simp [repeatsLeft, hnorep]
  have hfirst : firstRepeat s.slot sh.reprem = 0 := by simp [firstRepeat, hnorep]
  have hrun := issueRepeat_unhindered (s := s.begun sh) (sh := sh.begun) (slot := s.here sh g n) (start := s.began sh)
    (by simpa using hthere) hst.issuing
    (h.guarded hg) ⟨hfree.hazard, hfree.promise, hfree.flight, hfree.drain⟩
  simp only [issue, hst.there, hnorep, Option.isNone_none, if_true, hmod, hone, hfirst]
  rw [runRepeats_one hthere, State.atRepeat_zero]
  exact congrArg (fun a => (endAct (s.here sh g n) (s.began sh) a).settle) (hrun.trans (actOf_ok ..))

theorem not_idle {slot : Slot} (hact : slot.acting ≠ 0 ∨ f.always = true) : (slot.acting == 0 && !f.always) = false := by
  rcases hact with h | h
  · rw [beq_eq_false_iff_ne.mpr h]; rfl
  · rw [h]; simp

/-- A body that acts and goes on or waits, writing no varying register, is what the instruction ends in. -/
theorem actOf_body {op : Op} {slot : Slot} (hact : slot.acting ≠ 0 ∨ f.always = true) (hwrites : op.writes = []) :
    actOf f op slot sh s = op.body slot sh s := by
  simp only [actOf, not_idle hact, hwrites, List.isEmpty_nil, Bool.false_eq_true, if_false, if_true]

/-- A body that acts and traps leaves nothing but the trap. -/
theorem actOf_trap {op : Op} {slot : Slot} {t : TrapInfo} (hact : slot.acting ≠ 0 ∨ f.always = true) (hbody : op.body slot sh s = .trap t s) :
    actOf f op slot sh s = .trap t s := by
  simp only [actOf, not_idle hact, hbody, Act.noteWrites, Bool.false_eq_true, if_false, ite_self]

/-- An unhindered instruction whose body traps raises that trap, naming the lanes that act. -/
theorem issue_traps {t : TrapInfo} (hst : Standing s sh) (hnorep : s.slot.rep = none) (hg : guardOk g n = true)
    (h : PassesChecks f (op (s.here sh g n)) (s.here sh g n) sh.begun (s.begun sh))
    (hfree : Unhindered f (op (s.here sh g n)) (s.here sh g n) sh.begun)
    (hact : (s.here sh g n).acting ≠ 0 ∨ f.always = true) (hreprem : t.reprem = 0)
    (hbody : (op (s.here sh g n)).body (s.here sh g n) sh.begun (s.begun sh) = .trap t (s.begun sh)) :
    issue f g n op s = ((s.begun sh).trap (s.here sh g n) t).settle := by
  have hleft : (s.here sh g n).left = 0 := by simp [Slot.left, hnorep]
  have hinfo : ({ t with reprem := 0 } : TrapInfo) = t := by rw [← hreprem]
  rw [issue_unhindered hst hnorep hg h hfree, actOf_trap hact hbody, endAct, hleft, hinfo]

end

end Sys2Proof.Machine
end

/-! PROOFS. The matrix functions (R177 to R191): the checks of R184, what enters a sheaf's matrix order, and row by row what a matrix instruction
meets there. -/
section
namespace Sys2Proof.Machine

/-! ## What a matrix instruction meets before its effect (R184) -/

section
variable {s : State} {slot : Slot} {sh : Sheaf}

/-- The trap of R184 comes before the effect. -/
theorem matrixMeets_eq (there : List Nat) (checked : Option (List Nat × Nat)) (row : Option Nat) (go : Act) :
    matrixMeets s slot sh there checked row go = (s.matrixTrap? slot sh there checked row).elim go (fun t => .trap t s) := by
  unfold matrixMeets State.matrixTrap?
  cases s.absentByte? sh.tid there with
  | some o => rfl
  | none =>
    cases hm : modeMstrict sh.mode with
    | false => rfl
    | true =>
      simp only [Bool.not_true, Bool.true_eq_false, Bool.false_eq_true, if_false]
      cases checked with
      | none => cases row <;> rfl
      | some c =>
        cases ht : s.tuft? sh.tid with
        | none => cases row <;> rfl
        | some t => cases hb : t.badSwizzle? c.1 c.2 <;> cases row <;> simp [hb]

/-- Where its bytes are there and their swizzle is right, a matrix instruction traps under MSTRICT in the row that it meets. -/
theorem matrixTrap?_hazard {t : Tuft} {there : List Nat} {checked : Option (List Nat × Nat)} {k : Nat} (hstrict : modeMstrict sh.mode = true)
    (htuft : s.tuft? sh.tid = some t) (hthere : s.absentByte? sh.tid there = none)
    (hchecked : ∀ c, checked = some c → t.badSwizzle? c.1 c.2 = none) :
    s.matrixTrap? slot sh there checked (some k) = some (TrapInfo.at cMhazard k 0 (slot.word.setWidth 64)) := by
  unfold State.matrixTrap?
  cases checked with
  | none => simp [hthere, hstrict]
  | some c => simp [hthere, hstrict, htuft, hchecked c rfl]

/-- With nothing pending the only row of R195 left is the first. -/
theorem matrixHazard?_idle (hm : sh.mops = []) (named writes regs bytes : List Nat) (tile : Option (Nat × List Nat)) :
    sh.matrixHazard? named writes regs bytes tile = writtenSince sh regs bytes := by
  simp [Sheaf.matrixHazard?, writtenSince, hm]

/-- The lowest row of a view is the one that the machine finds from the view's parts. -/
theorem MatrixView.row_eq (v : MatrixView) (sh : Sheaf) : v.row sh = sh.matrixHazard? v.names v.writes v.regs v.bytes (some (v.tile, v.rows)) := by
  simp only [MatrixView.row, Sheaf.matrixHazard?, Option.any_some]

theorem absentByte?_nil (s : State) (tid : Nat) : s.absentByte? tid [] = none := by
  unfold State.absentByte?
  cases s.tuft? tid <;> rfl

/-- No row acts exactly where no lane among the first 16 does. -/
theorem not_rowsAct_iff (acting : Mask) : (!rowsAct acting) = true ↔ acting &&& 0xFFFF#32 = 0 := by simp [rowsAct]

end

/-! ## What enters a sheaf's matrix order (R177 to R191) -/

theorem MmaFields.aBytes_eq (m : MmaFields) (d : BitVec 64) :
    m.aBytes d = if m.asrc = 0 then descBytes d (descStored d (fuseM m.fuse)) 32 (typBytes (m.typ / 3)) else [] := by
  simp only [MmaFields.aBytes, beq_iff_eq]

theorem destRegsFrom_eq (b k : Nat) : mmaOutcome.destRegsFrom b k = span b k := rfl

theorem queued_eq (s : State) (slot : Slot) (sh : Sheaf) (op : MatOp) :
    queued s slot sh op = .next ((s.setSheaf slot.sid (sh.addMatOp op)).fresh).2 := rfl

/-- MMA issues sheaf-wide, whatever its guard, where it is fused (R182). -/
theorem formMma_eq (f : BitVec 2) :
    (if f == 0 then formMatrix else formFused) = { formMatrix with wide := f != 0, liveOnly := f != 0, always := f != 0 } := by
  simp only [bne]
  cases f == 0 <;> rfl

theorem descLegal_iff (v : BitVec 64) : descLegal v = true ↔ v.toNat < 2 ^ 50 ∧ field v.toNat 24 16 % 16 = 0 ∧ field v.toNat 0 24 % 16 = 0 := by
  simp only [descLegal, descStride, descLaddr, Bool.and_eq_true, beq_iff_eq, Nat.div_eq_zero_iff, and_assoc]
  omega

/-- An MWAIT of a sheaf without operations covers none. -/
theorem Sheaf.coverMops_idle {sh : Sheaf} (h : sh.mops = []) : sh.coverMops = sh := by
  have hkept : sh.bWrites.filter (fun _ => true) = sh.bWrites := List.filter_true _
  simp only [Sheaf.coverMops, h, List.any_nil, Bool.not_false, hkept]
  rw [← h]

section
variable {s : State} {slot slot' : Slot} {sh : Sheaf}

theorem whereRows_some {a b : Act} (h : whereRows slot s (some a) = some b) : (if !rowsAct slot.acting then .next s else a) = b := by
  simp only [not_rowsAct_iff]
  unfold whereRows at h
  split at h
  · next hrows => rw [if_pos hrows]; exact Option.some.inj h
  · next hrows => rw [if_neg hrows]; exact Option.some.inj h

theorem writtenSince_nil (sh : Sheaf) : writtenSince sh [] [] = none := rfl

/-- Without lines to check and without a hazard only HANDLE is left (R189, R190). -/
theorem matrixTrap?_unchecked (there : List Nat) :
    s.matrixTrap? slot sh there none none = (s.absentByte? sh.tid there).map (fun o => TrapInfo.at cHandle 0 0 (BitVec.ofNat 64 o)) := by
  unfold State.matrixTrap?
  cases s.absentByte? sh.tid there with
  | some o => rfl
  | none => simp

/-- Nothing is in flight that a REPLAY would wait for. -/
theorem replayMma_idle (h : Idle s slot.sid sh) (regs : List Nat) : s.replayMma slot sh regs = s := by
  simp only [State.replayMma, h.nomops, List.any_nil, Bool.false_eq_true, if_false, State.forceResults_none h.there h.nopend, ite_self]

/-- The checks of R184, then a fused arrival or an operation of this sheaf alone (R177 to R183). -/
theorem mmaOp_body_idle {m : MmaFields} {a : Act} (h : Idle s slot.sid sh) (hout : mmaOutcome m s slot sh = some a) :
    (mmaOp m slot').body slot sh s = a := by
  obtain ⟨t, ht, rfl⟩ := Option.map_eq_some_iff.mp hout
  simp only [matrixMeets_eq, mmaOp, MmaFields.aBytes_eq, destRegsFrom_eq, beq_iff_eq, bne_iff_ne, matrixHazard?_idle h.nomops, replayMma_idle h, h.there,
    ht, not_rowsAct_iff, queued_eq, Sheaf.quadrant]
  cases s.matrixTrap? slot sh _ _ _ <;> rfl

end

section
variable {g : BitVec 4} {n : BitVec 1} {s : State} {sh : Sheaf} {r : ActRule}

theorem mma_acts {t : BitVec 3} {f : BitVec 2} {v : BitVec 5} {a : BitVec 3} {y : BitVec 4} {z : BitVec 1} {x : BitVec 3}
    (hrule : matrixRule (.mma g n t f v a y z x) = some r) (hwf : (Instr.mma g n t f v a y z x).wf = true)
    (hr : Ready s sh)
    (hlegal : r.legal (s.begun sh) sh.begun) : ∃ f' op, Acts (.mma g n t f v a y z x) r f' op s sh := by
  cases hrule
  obtain ⟨hg, hok⟩ := Bool.and_eq_true_iff.mp hwf
  refine ⟨{ formMatrix with wide := f != 0, liveOnly := f != 0, always := f != 0 }, _, ?_, hg, rfl, rfl, id, rfl, rfl, rfl, hok,
    tilesLegal_mma hlegal.1 hlegal.2, rfl, fun _ h => mmaOp_body_idle (idle_of_ready hr ..) h⟩
  rw [← formMma_eq]
  rfl

theorem mldt_acts {t d : BitVec 3} {f : BitVec 2} (hrule : matrixRule (.mldt g n t d f) = some r) (hg : guardOk g.toNat n.toNat = true)
    (hr : Ready s sh)
    (hlegal : r.legal (s.begun sh) sh.begun) : ∃ f' op, Acts (.mldt g n t d f) r f' op s sh := by
  cases hrule
  refine ⟨_, _, rfl, hg, rfl, rfl, nofun, rfl, rfl, rfl, rfl, tilesLegal_one hlegal, rfl, fun _ h => ?_⟩
  obtain ⟨u, hu, rfl⟩ := Option.map_eq_some_iff.mp h
  simp only [matrixMeets_eq, mldtOp, hu, matrixHazard?_idle (sh := sh.begun) hr.nomops, actingRows, not_rowsAct_iff, queued_eq]
  cases (s.begun sh).matrixTrap? _ sh.begun _ _ _ <;> rfl

theorem mstt_acts {t d : BitVec 3} {f : BitVec 2} (hrule : matrixRule (.mstt g n t d f) = some r) (hg : guardOk g.toNat n.toNat = true)
    (hr : Ready s sh)
    (hlegal : r.legal (s.begun sh) sh.begun) : ∃ f' op, Acts (.mstt g n t d f) r f' op s sh := by
  cases hrule
  refine ⟨_, _, rfl, hg, rfl, rfl, nofun, rfl, rfl, rfl, rfl, tilesLegal_one hlegal, rfl, fun _ h => ?_⟩
  simp only [msttOp, matrixHazard?_idle (sh := sh.begun) hr.nomops, writtenSince_nil, matrixTrap?_unchecked, actingRows]
  simp only at h
  cases habsent : (s.begun sh).absentByte? sh.begun.tid (descBytes (sh.begun.dreg d.toNat).val
      ((descStored (sh.begun.dreg d.toNat).val 16).filter (hasLane (s.here sh g.toNat n.toNat).acting)) 16 (fmtBytes f.toNat)) with
  | some o =>
    rw [habsent] at h
    exact whereRows_some h
  | none =>
    rw [habsent] at h
    exact whereRows_some h

theorem mrowv_acts {v : BitVec 5} {t : BitVec 3} (hrule : matrixRule (.mrowv g n v t) = some r) (hwf : (Instr.mrowv g n v t).wf = true)
    (hr : Ready s sh)
    (hlegal : r.legal (s.begun sh) sh.begun) : ∃ f' op, Acts (.mrowv g n v t) r f' op s sh := by
  cases hrule
  obtain ⟨hg, hok⟩ := Bool.and_eq_true_iff.mp hwf
  refine ⟨_, _, rfl, hg, rfl, rfl, nofun, rfl, rfl, rfl, hok, tilesLegal_one hlegal, rfl, fun _ h => ?_⟩
  obtain ⟨u, hu, rfl⟩ := Option.map_eq_some_iff.mp h
  simp only [mrowvOp, matrixHazard?_idle (sh := sh.begun) hr.nomops, writtenSince_nil, matrixTrap?_unchecked, absentByte?_nil, Option.map_none]
  rfl

/-- Matrix functions issue with the bodies that the table describes. -/
theorem matrix_acts {i : Instr} (hrule : matrixRule i = some r) (hwf : i.wf = true)
    (hr : Ready s sh)
    (hlegal : r.legal (s.begun sh) sh.begun) : ∃ f op, Acts i r f op s sh := by
  have htable := hrule
  unfold matrixRule at hrule
  split at hrule
  case h_1 => exact mma_acts htable hwf hr hlegal
  case h_2 =>
    cases hrule
    exact ⟨_, _, rfl, hwf, rfl, rfl, nofun, rfl, rfl, rfl, rfl, tilesLegal_one hlegal, rfl, fun _ h => whereRows_some h⟩
  case h_3 => exact mldt_acts htable hwf hr hlegal
  case h_4 => exact mstt_acts htable hwf hr hlegal
  case h_5 => exact mrowv_acts htable hwf hr hlegal
  case h_6 =>
    cases hrule
    refine ⟨_, _, rfl, hwf, rfl, rfl, nofun, rfl, rfl, rfl, rfl, rfl, rfl, fun _ h => ?_⟩
    cases h
    have hmops : sh.begun.mops = [] := hr.nomops
    simp only [bareOp, hmops, List.all_nil, if_true, Sheaf.coverMops_idle hmops]
    rfl
  case h_7 =>
    cases hrule
    refine ⟨_, _, rfl, hwf, rfl, rfl, nofun, rfl, rfl, rfl, rfl, rfl, rfl, fun _ h => ?_⟩
    cases h
    have hpend : sh.begun.pend = [] := hr.nopend
    simp only [bareOp, hpend, List.all_nil, if_true]
    rfl
  case h_8 g n d b =>
    cases hrule
    obtain ⟨hg, hok⟩ := Bool.and_eq_true_iff.mp hwf
    refine ⟨_, _, rfl, hg, rfl, rfl, fun _ => rfl, rfl, rfl, rfl, hok, rfl, rfl, fun _ h => ?_⟩
    cases h
    simp only [descLegal_iff]
    rfl
  case h_9 =>
    cases hrule
    obtain ⟨hg, hok⟩ := Bool.and_eq_true_iff.mp hwf
    refine ⟨_, _, rfl, hg, rfl, rfl, fun _ => rfl, rfl, rfl, rfl, hok, rfl, rfl, fun _ h => ?_⟩
    cases h
    rfl
  case h_10 => cases hrule

theorem tilesLegal_one_false {m : Nat} (h : ¬ m < s.tilesOf sh) : tilesLegal [m] sh s = false := by simpa [tilesLegal] using h

theorem tilesLegal_mma_false {t a x : BitVec 3} (h : ¬ (t.toNat < s.tilesOf sh ∧ (x = 1 → a.toNat + 1 < s.tilesOf sh))) :
    tilesLegal (t.toNat :: (if x.toNat == 1 then [a.toNat, a.toNat + 1] else [])) sh s = false := by
  by_cases ht : t.toNat < s.tilesOf sh
  · by_cases hx : x = 1
    · subst hx
      have ha : ¬ a.toNat + 1 < s.tilesOf sh := fun ha => h ⟨ht, fun _ => ha⟩
      simp [tilesLegal, ha]
    · exact absurd ⟨ht, fun hx' => absurd hx' hx⟩ h
  · simp [tilesLegal, ht]

/-- A tile beyond the tuft's allotment is illegal (R45, R177). -/
theorem matrix_forbids {i : Instr} (s : State) (sh : Sheaf) (hrule : matrixRule i = some r) : ∃ f op, Forbids i r f op s sh := by
  unfold matrixRule at hrule
  split at hrule <;> cases hrule
  case h_1 => exact ⟨_, _, rfl, tilesLegal_mma_false⟩
  case h_2 | h_3 | h_4 | h_5 => exact ⟨_, _, rfl, tilesLegal_one_false⟩
  case h_6 | h_7 | h_8 | h_9 => exact ⟨_, _, rfl, fun h => absurd trivial h⟩

end

/-! ## Hazards of matrix instructions (R184, R195) -/

/-- An operation that updates a tile meets no row where none is read. -/
theorem matrixHazard?_noRows (sh : Sheaf) (named writes regs bytes : List Nat) (tile : Nat) :
    sh.matrixHazard? named writes regs bytes (some (tile, [])) = sh.matrixHazard? named writes regs bytes none := by
  simp [Sheaf.matrixHazard?, MatOp.updatesRow]

theorem span_map_phys (sh : Sheaf) (b k : Nat) : (span b k).map sh.phys = (List.range k).map (fun i => sh.phys (b + i)) := List.map_map

section
variable {s : State} {slot slot' : Slot} {sh : Sheaf} {t : TrapInfo}

theorem mmaOp_body_trap {m : MmaFields}
    (h : s.matrixTrap? slot sh (m.aBytes (sh.dreg m.ad).val)
      (if m.asrc == 0 then some (m.aBytes (sh.dreg m.ad).val, descSpan (sh.dreg m.ad).val) else none)
      (sh.matrixHazard? ((span m.vb (bCount (m.typ % 3))).map sh.phys) [] ((span m.vb (bCount (m.typ % 3))).map sh.phys)
        (m.aBytes (sh.dreg m.ad).val) none) =
        some t) : (mmaOp m slot').body slot sh s = .trap t s := by
  simp only [mmaOp, h]

theorem mldtOp_body_trap {mt dd fmt : Nat}
    (h : s.matrixTrap? slot sh (descBytes (sh.dreg dd).val (actingRows (sh.dreg dd).val slot.acting) 16 (fmtBytes fmt))
      (some (descBytes (sh.dreg dd).val (descStored (sh.dreg dd).val 16) 16 (fmtBytes fmt), descSpan (sh.dreg dd).val))
      (sh.matrixHazard? [] [] [] (descBytes (sh.dreg dd).val (actingRows (sh.dreg dd).val slot.acting) 16 (fmtBytes fmt)) none) = some t) :
    (mldtOp mt dd fmt slot').body slot sh s = .trap t s := by
  simp only [mldtOp, h]

theorem msttOp_body_trap {mt dd fmt : Nat} (hrows : slot.acting &&& 0xFFFF#32 ≠ 0)
    (h : s.matrixTrap? slot sh (descBytes (sh.dreg dd).val (actingRows (sh.dreg dd).val slot.acting) 16 (fmtBytes fmt)) none
      (sh.matrixHazard? [] [] [] [] (some (mt, actingRows (sh.dreg dd).val slot.acting))) = some t) :
    (msttOp mt dd fmt slot').body slot sh s = .trap t s := by
  simp only [msttOp, not_rowsAct_iff, if_neg hrows, h]

theorem mrowvOp_body_trap {vd mt : Nat}
    (h : s.matrixTrap? slot sh [] none
      (sh.matrixHazard? ((span vd 8).map sh.phys) ((span vd 8).map sh.phys) [] [] (some (mt, laneRows slot.acting))) = some t) :
    (mrowvOp vd mt slot').body slot sh s = .trap t s := by
  simp only [mrowvOp, h]

end

/-- A matrix instruction issues with a body that traps where its view does. -/
structure Views (i : Instr) (r : ActRule) (v : MatrixView) (f : Form) (op : Slot → Op) (s : State) (sh : Sheaf) : Prop where
  runs   : exec i s = issued f r.g r.n op s
  guard  : guardOk r.g.toNat r.n.toNat = true
  ximm   : takesXimm i = f.ximm
  la     : takesLa i = f.la
  role   : f.role = .matrix
  wide   : f.wide = true → r.wide = true ∧ f.liveOnly = true
  always : f.always = r.lone
  ok     : (op (s.here sh r.g.toNat r.n.toNat)).ok = true
  legal  : r.legal (s.begun sh) sh.begun → (op (s.here sh r.g.toNat r.n.toNat)).legal sh.begun (s.begun sh) = true
  traps  : ∀ t, (s.begun sh).matrixTrap? (s.here sh r.g.toNat r.n.toNat) sh.begun v.there v.checked (v.row sh) = some t →
    (op (s.here sh r.g.toNat r.n.toNat)).body (s.here sh r.g.toNat r.n.toNat) sh.begun (s.begun sh) = .trap t (s.begun sh)

section
variable {g : BitVec 4} {n : BitVec 1} {s : State} {sh : Sheaf} {r : ActRule} {w : MatrixView}

theorem mma_views {t : BitVec 3} {f : BitVec 2} {v : BitVec 5} {a : BitVec 3} {y : BitVec 4} {z : BitVec 1} {x : BitVec 3}
    (hrule : matrixRule (.mma g n t f v a y z x) = some r) (hwf : (Instr.mma g n t f v a y z x).wf = true)
    (hview : matrixView (.mma g n t f v a y z x) (s.here sh r.g.toNat r.n.toNat) sh = some w) :
    ∃ f' op, Views (.mma g n t f v a y z x) r w f' op s sh := by
  cases hrule
  cases hview
  obtain ⟨hg, hok⟩ := Bool.and_eq_true_iff.mp hwf
  refine ⟨{ formMatrix with wide := f != 0, liveOnly := f != 0, always := f != 0 },
    mmaOp { mt := t.toNat, fuse := f.toNat, vb := v.toNat, ad := a.toNat, typ := y.toNat, z := z == 1, asrc := x.toNat }, ?_, hg, rfl, rfl, rfl,
    fun h => ⟨h, h⟩, rfl, hok, fun hl => tilesLegal_mma hl.1 hl.2, fun t h => ?_⟩
  · rw [← formMma_eq]
    rfl
  · rw [MatrixView.row_eq, matrixHazard?_noRows] at h
    refine mmaOp_body_trap ?_
    have hx : x.toNat = 0 ↔ x = 0 := BitVec.toNat_inj (y := 0)
    simp only [span_map_phys, MmaFields.aBytes_eq, beq_iff_eq, hx]
    exact h

theorem mldt_views {t d : BitVec 3} {f : BitVec 2} (hrule : matrixRule (.mldt g n t d f) = some r) (hg : guardOk g.toNat n.toNat = true)
    (hview : matrixView (.mldt g n t d f) (s.here sh r.g.toNat r.n.toNat) sh = some w) : ∃ f' op, Views (.mldt g n t d f) r w f' op s sh := by
  cases hrule
  cases hview
  refine ⟨_, _, rfl, hg, rfl, rfl, rfl, nofun, rfl, rfl, tilesLegal_one, fun t h => ?_⟩
  rw [MatrixView.row_eq, matrixHazard?_noRows] at h
  exact mldtOp_body_trap h

theorem mstt_views {t d : BitVec 3} {f : BitVec 2} (hrule : matrixRule (.mstt g n t d f) = some r) (hg : guardOk g.toNat n.toNat = true)
    (hview : matrixView (.mstt g n t d f) (s.here sh r.g.toNat r.n.toNat) sh = some w) : ∃ f' op, Views (.mstt g n t d f) r w f' op s sh := by
  cases hrule
  simp only [matrixView] at hview
  split at hview
  · cases hview
  · next hrows =>
    cases hview
    refine ⟨_, _, rfl, hg, rfl, rfl, rfl, nofun, rfl, rfl, tilesLegal_one, fun t h => ?_⟩
    rw [MatrixView.row_eq] at h
    exact msttOp_body_trap hrows h

theorem mrowv_views {v : BitVec 5} {t : BitVec 3} (hrule : matrixRule (.mrowv g n v t) = some r) (hwf : (Instr.mrowv g n v t).wf = true)
    (hview : matrixView (.mrowv g n v t) (s.here sh r.g.toNat r.n.toNat) sh = some w) : ∃ f' op, Views (.mrowv g n v t) r w f' op s sh := by
  cases hrule
  cases hview
  obtain ⟨hg, hok⟩ := Bool.and_eq_true_iff.mp hwf
  refine ⟨_, _, rfl, hg, rfl, rfl, rfl, nofun, rfl, hok, tilesLegal_one, fun t h => ?_⟩
  rw [MatrixView.row_eq] at h
  exact mrowvOp_body_trap h

theorem matrix_views {i : Instr} (hrule : matrixRule i = some r) (hwf : i.wf = true)
    (hview : matrixView i (s.here sh r.g.toNat r.n.toNat) sh = some w) : ∃ f op, Views i r w f op s sh := by
  have htable := hrule
  unfold matrixRule at hrule
  split at hrule
  case h_1 => exact mma_views htable hwf hview
  case h_3 => exact mldt_views htable hwf hview
  case h_4 => exact mstt_views htable hwf hview
  case h_5 => exact mrowv_views htable hwf hview
  case h_2 | h_6 | h_7 | h_8 | h_9 => cases hview
  case h_10 => cases hrule

end

/-- R184, R195: under MSTRICT a matrix instruction raises the lowest row that it meets, after HANDLE and SWIZZLE. -/
theorem matrixHazards : MatrixHazards := by
  intro i r v k s sh t hrule hwf hst hnorep hpend hpx hconverged hrole hlegal hstrict htuft slot hact hview hthere hchecked hrow
  obtain ⟨f, op, hv⟩ := matrix_views hrule hwf hview
  have htuft' : (s.begun sh).tuft? sh.begun.tid = some t := htuft
  have hact' : (s.here sh r.g.toNat r.n.toNat).acting ≠ 0 ∨ f.always = true := by rw [hv.always]; exact hact
  have hchecks := hst.passesChecks hnorep hpx hv.ximm hv.la hv.ok (hv.legal hlegal) (by rw [hv.role, hrole]; rfl)
    (fun h => ⟨hconverged (hv.wide h).1, Or.inl (hv.wide h).2⟩)
  have hnotJudged : judgesRegisters f (s.here sh r.g.toNat r.n.toNat) sh.begun = false := by
    rw [judgesRegisters, not_idle hact', hv.role]
    simp
  have hfree : Unhindered f (op (s.here sh r.g.toNat r.n.toNat)) (s.here sh r.g.toNat r.n.toNat) sh.begun :=
    unhindered_of_mstrict hpend hstrict (fun h => by rw [hnotJudged] at h; cases h)
  have htrap : (s.begun sh).matrixTrap? slot sh.begun v.there v.checked (v.row sh) =
      some (TrapInfo.at cMhazard k 0 (s.slot.word.setWidth 64)) := by
    rw [hrow, matrixTrap?_hazard (sh := sh.begun) hstrict htuft' hthere hchecked, State.here_word]
  rw [hv.runs]
  exact congrArg Host.Outcome.next (issue_traps hst hnorep hv.guard hchecks hfree hact' rfl (hv.traps _ htrap))

end Sys2Proof.Machine
end

/-! PROOFS. What other instructions meet of a sheaf's pending matrix operations (R192, R193, R195): varying instructions, local loads and stores,
MWAIT and MFENCE. -/
section
namespace Sys2Proof.Machine

/-! ## Hazards of the varying instructions (R195 rows 2 and 4) -/

/-- An operation that, where no field is stepped, is legal, names v(d) and writes it alone. -/
structure WritesOnly (d : Nat) (op : Slot → Op) : Prop where
  dest   : d < 32
  ok     : ∀ slot : Slot, slot.steps = (0, 0, 0) → (op slot).ok = true
  legal  : ∀ (slot : Slot) (sh : Sheaf) (s : State), (op slot).legal sh s = true
  uses   : ∀ slot : Slot, slot.steps = (0, 0, 0) → d ∈ (op slot).uses
  writes : ∀ slot : Slot, slot.steps = (0, 0, 0) → (op slot).writes = [d]

/-- A varying instruction issues in a form without prefixes, not sheaf-wide, its class that of its rule, with an operation that writes its
destination alone. -/
structure WritesLane (i : Instr) (r : LaneRule) (f : Form) (g : BitVec 4) (n : BitVec 1) (op : Slot → Op) : Prop where
  runs  : ∀ s, exec i s = issued f g n op s
  guard : guardOk g.toNat n.toNat = true
  ximm  : takesXimm i = f.ximm
  la    : takesLa i = f.la
  role  : f.role = if r.float then .varyingFloat else .other
  wide  : f.wide = false
  dest  : WritesOnly r.d op

section
variable {d a : BitVec 5} {b : BitVec 8}

theorem vvOp_writesOnly (readsD : Bool) (F : Word → Word → Word → Word × Word) : WritesOnly d.toNat (vvOp readsD F d.toNat a.toNat b.toNat) where
  dest := d.isLt
  ok slot h := by simp only [vvOp, h, stepV_zero, stepB_zero, isV_toNat, Bool.true_and, decide_eq_true_eq]; exact b.isLt
  legal _ _ _ := rfl
  uses slot h := by simp [vvOp, h]
  writes slot h := by simp only [vvOp, h, stepV_zero]

theorem vuOp_writesOnly (F : Word → Word) : WritesOnly d.toNat (vuOp F d.toNat b.toNat) where
  dest := d.isLt
  ok slot h := by simp only [vuOp, h, stepV_zero, stepB_zero, isV_toNat, beq_self_eq_true, Bool.true_and, decide_eq_true_eq]; exact b.isLt
  legal _ _ _ := rfl
  uses slot h := by simp [vuOp, h]
  writes slot h := by simp only [vuOp, h, stepV_zero]

theorem vcOp_writesOnly (readsD : Bool) (F : Word → Word → Word × Word) : WritesOnly d.toNat (vcOp readsD F d.toNat b.toNat) where
  dest := d.isLt
  ok _ _ := rfl
  legal _ _ _ := rfl
  uses _ _ := List.mem_cons_self
  writes _ _ := rfl

theorem halfOp_writesOnly {d p : Nat} {op : Slot → Op} (hp : decide (p < 2) = true) (h : WritesOnly d op) : WritesOnly d (halfOp p op) where
  dest := h.dest
  ok slot hs := by simp only [halfOp, h.ok slot hs, hp, Bool.and_self]
  legal := h.legal
  uses := h.uses
  writes := h.writes

theorem rankOp_writesOnly {p : BitVec 4} (hp : predOk p.toNat = true) : WritesOnly d.toNat (rankOp p.toNat d.toNat) where
  dest := d.isLt
  ok _ _ := hp
  legal _ _ _ := rfl
  uses _ _ := List.mem_cons_self
  writes _ _ := rfl

end

/-- Every varying instruction of the table issues so. -/
theorem laneRule_writesLane {i : Instr} {r : LaneRule} (hrule : laneRule i = some r) (hwf : i.wf = true) : ∃ f g n op, WritesLane i r f g n op := by
  unfold laneRule at hrule
  split at hrule <;> cases hrule
  case h_43 | h_44 | h_45 | h_46 => exact ⟨_, _, _, _, fun _ => rfl, hwf, rfl, rfl, rfl, rfl, vuOp_writesOnly _⟩
  case h_52 | h_55 =>
    obtain ⟨hg, hp⟩ := Bool.and_eq_true_iff.mp hwf
    exact ⟨_, _, _, _, fun _ => rfl, hg, rfl, rfl, rfl, rfl, halfOp_writesOnly hp (vcOp_writesOnly _ _)⟩
  case h_47 | h_48 | h_49 | h_50 | h_51 | h_53 | h_54 | h_56 | h_57 | h_58 | h_59 | h_60 =>
    exact ⟨_, _, _, _, fun _ => rfl, hwf, rfl, rfl, rfl, rfl, vcOp_writesOnly _ _⟩
  case h_61 =>
    obtain ⟨hg, hp⟩ := Bool.and_eq_true_iff.mp hwf
    exact ⟨_, _, _, _, fun _ => rfl, hg, rfl, rfl, rfl, rfl, rankOp_writesOnly hp⟩
  all_goals exact ⟨_, _, _, _, fun _ => rfl, hwf, rfl, rfl, rfl, rfl, vvOp_writesOnly _ _⟩

/-- Row 2: a written register is a B register of a pending operation. -/
theorem regHazard?_row2 {sh : Sheaf} {names writes : List Nat} {p : Nat} (hp : p ∈ writes) (h : ∃ m ∈ sh.mops, p ∈ m.bRegs) :
    sh.regHazard? names writes = some 2 := by
  obtain ⟨m, hm, hreg⟩ := h
  have hmeets : sh.mops.any (fun m => m.bRegs.any writes.contains) = true :=
    List.any_eq_true.mpr ⟨m, hm, List.any_eq_true.mpr ⟨p, hreg, List.contains_iff_mem.mpr hp⟩⟩
  simp only [Sheaf.regHazard?, hmeets, if_true]

/-- No written register is a B register of a pending operation. -/
theorem not_writesB {sh : Sheaf} {writes : List Nat} (h : ∀ m ∈ sh.mops, ∀ p ∈ writes, p ∉ m.bRegs) :
    sh.mops.any (fun m => m.bRegs.any writes.contains) = false := by
  refine List.any_eq_false.mpr fun m hm hany => ?_
  obtain ⟨p, hreg, hp⟩ := List.any_eq_true.mp hany
  exact h m hm p (List.contains_iff_mem.mp hp) hreg

/-- Row 4: a named register is one that a pending MROWV writes, where no written one meets row 2. -/
theorem regHazard?_row4 {sh : Sheaf} {names writes : List Nat} {p : Nat} (hp : p ∈ names) (hb : ∀ m ∈ sh.mops, ∀ p ∈ writes, p ∉ m.bRegs)
    (h : ∃ m ∈ sh.mops, p ∈ m.kind.rowRegs) : sh.regHazard? names writes = some 4 := by
  obtain ⟨m, hm, hreg⟩ := h
  have hmeets : sh.mops.any (fun m => m.kind.rowRegs.any names.contains) = true :=
    List.any_eq_true.mpr ⟨m, hm, List.any_eq_true.mpr ⟨p, hreg, List.contains_iff_mem.mpr hp⟩⟩
  simp only [Sheaf.regHazard?, not_writesB hb, hmeets, Bool.false_eq_true, if_false, if_true]

/-- Neither row where no written register is a B register and no named one is a row's. -/
theorem regHazard?_none_of {sh : Sheaf} {names writes : List Nat} (hb : ∀ m ∈ sh.mops, ∀ p ∈ writes, p ∉ m.bRegs)
    (hrow : ∀ m ∈ sh.mops, ∀ p ∈ names, p ∉ m.kind.rowRegs) : sh.regHazard? names writes = none := by
  have hmeets : sh.mops.any (fun m => m.kind.rowRegs.any names.contains) = false := by
    refine List.any_eq_false.mpr fun m hm hany => ?_
    obtain ⟨p, hreg, hp⟩ := List.any_eq_true.mp hany
    exact hrow m hm p (List.contains_iff_mem.mp hp) hreg
  simp only [Sheaf.regHazard?, not_writesB hb, hmeets, Bool.false_eq_true, if_false]

/-- A varying instruction raises, under MSTRICT, the row of R195 that its registers meet, whatever its guard. -/
theorem WritesLane.raises {i : Instr} {r : LaneRule} {f : Form} {g : BitVec 4} {n : BitVec 1} {op : Slot → Op} {s : State} {sh : Sheaf} {row : Nat}
    (h : WritesLane i r f g n op) (hst : Standing s sh) (hnorep : s.slot.rep = none) (hpx : Prefixed i s)
    (hfloat : r.float = true → sh.role ≠ .stage) (hstrict : modeMstrict sh.mode = true)
    (hrow : ∀ names, sh.phys r.d ∈ names → sh.regHazard? names [sh.phys r.d] = some row) :
    Raises i s sh (TrapInfo.at cMhazard row 0 (s.slot.word.setWidth 64)) := by
  have hsteps : (s.here sh g.toNat n.toNat).steps = (0, 0, 0) := Slot.steps_none (by rw [State.here_rep, hnorep])
  have hclass : f.role ≠ .matrix := by rw [h.role]; cases r.float <;> nofun
  have hissues : f.role.issues sh.role = true := by
    rw [h.role]
    cases hf : r.float
    · rfl
    · exact bne_iff_ne.mpr (hfloat hf)
  have hchecks := hst.passesChecks hnorep hpx h.ximm h.la (h.dest.ok _ hsteps) (h.dest.legal ..) hissues
    (fun hw => by rw [h.wide] at hw; cases hw)
  have hjudged : judgesRegisters f (s.here sh g.toNat n.toNat) sh.begun = true := by
    rw [judgesRegisters, Sheaf.begun_mode, hstrict, bne_iff_ne.mpr hclass]; rfl
  have hnamed : sh.phys r.d ∈ (op (s.here sh g.toNat n.toNat)).names sh.begun :=
    List.mem_map.mpr ⟨r.d, List.mem_append_left _ (h.dest.uses _ hsteps), if_pos h.dest.dest⟩
  have hhazard : sh.begun.regHazard? ((op (s.here sh g.toNat n.toNat)).names sh.begun) ((op (s.here sh g.toNat n.toNat)).writes.map sh.begun.phys) =
      some row := by
    rw [h.dest.writes _ hsteps]
    exact hrow _ hnamed
  have htrap := (hchecks.guarded h.guard).firstTrap_hazard hjudged hhazard (s.began sh)
  rw [State.here_word] at htrap
  unfold Raises
  rw [h.runs]
  exact congrArg Host.Outcome.next (issue_raises hst.there hst.issuing hnorep rfl rfl htrap)

/-- R195 rows 2 and 4: a varying destination that a pending operation reads or writes. -/
theorem laneHazards : LaneHazards := by
  intro i r s sh hrule hwf hst hnorep hpx hfloat hstrict
  obtain ⟨f, g, n, op, h⟩ := laneRule_writesLane hrule hwf
  constructor
  · intro hb
    exact h.raises hst hnorep hpx hfloat hstrict fun _ _ => regHazard?_row2 List.mem_cons_self hb
  · intro hb hrow
    refine h.raises hst hnorep hpx hfloat hstrict fun _ hnamed => regHazard?_row4 hnamed (fun m hm p hp => ?_) hrow
    rw [List.mem_singleton.mp hp]
    exact hb m hm

/-! ## Hazards of local loads and stores (R195 row 5) -/

section
variable {s : State} {slot : Slot} {sh : Sheaf} {la : Word} {dists : List (Nat × Int)} {size : Nat} {store : Bool}

theorem mem_ownBytes {x : Nat × Int} {p : Place} {k : Nat} (hx : x ∈ dists) (hp : s.localAddr? sh.tid sh.core la x.2 size = some p)
    (hown : p.tid = sh.tid) (hk : k < size) : p.off + k ∈ s.ownBytes sh la dists size := by
  refine List.mem_flatMap.mpr ⟨x, hx, ?_⟩
  simp only [hp, hown, beq_self_eq_true, if_true]
  exact List.mem_map.mpr ⟨k, List.mem_range.mpr hk, rfl⟩

theorem localHazard_of_mem {offs : List Nat} {m : MatOp} {o : Nat} (hm : m ∈ sh.mops) (ho : o ∈ offs)
    (h : o ∈ m.writesBytes ∨ (store = true ∧ o ∈ m.readsBytes)) : sh.localHazard offs store = true := by
  have hcontains : offs.contains o = true := List.contains_iff_mem.mpr ho
  refine List.any_eq_true.mpr ⟨m, hm, ?_⟩
  rcases h with hw | ⟨hs, hr⟩
  · rw [List.any_eq_true.mpr ⟨o, hw, hcontains⟩, Bool.true_or]
  · rw [hs, List.any_eq_true.mpr ⟨o, hr, hcontains⟩, Bool.and_self, Bool.or_true]

/-- Aligned accesses that exist and touch bytes of pending operations raise row 5 under MSTRICT (R155, R195). -/
theorem checkLocal_hazard (haligned : ∀ y ∈ dists, (localWord la y.2).toNat % size = 0)
    (hthere : ∀ y ∈ dists, (s.localAddr? sh.tid sh.core la y.2 size).isSome = true)
    (hhazard : sh.localHazard (s.ownBytes sh la dists size) store = true)
    (hstrict : modeMstrict sh.mode = true) :
    s.checkLocal slot sh la dists size store = .stop (.trap (TrapInfo.at cMhazard 5 0 (slot.word.setWidth 64)) s) := by
  unfold State.checkLocal
  have hbad : dists.filterMap (fun d => if (localWord la d.2).toNat % size != 0 then
      some { lane := d.1, code := fProt, reason := rAlign, va := (localWord la d.2).setWidth 64, detail := 0 : Failed } else none) = [] := by
    refine List.filterMap_eq_nil_iff.mpr fun y hy => if_neg ?_
    rw [haligned y hy]
    exact Bool.false_ne_true
  have habsent : dists.find? (fun d => (s.localAddr? sh.tid sh.core la d.2 size).isNone) = none := by
    refine List.find?_eq_none.mpr fun y hy => ?_
    rw [← Option.not_isSome, hthere y hy]
    exact Bool.false_ne_true
  simp only [hbad, habsent, hhazard, hstrict, if_true]

end

/-- A local load or store issues with an operation that names the registers that it waits for, writes none but those of a load's data, and stops
where the checks of its accesses do. -/
structure AccessesLocal (i : Instr) (g : BitVec 4) (n : BitVec 1) (b : BitVec 3) (o : BitVec 8) (size : Nat) (store : Bool) (f : Form)
    (op : Slot → Op) : Prop where
  runs   : ∀ s, exec i s = issued f g n op s
  guard  : guardOk g.toNat n.toNat = true
  ximm   : takesXimm i = f.ximm
  la     : takesLa i = f.la
  role   : f.role = .other
  wide   : f.wide = false
  ok     : ∀ slot : Slot, slot.steps = (0, 0, 0) → (op slot).ok = true
  legal  : ∀ (slot : Slot) (sh : Sheaf) (s : State), (op slot).legal sh s = true
  names  : ∀ slot : Slot, slot.steps = (0, 0, 0) → (op slot).uses ++ (op slot).named = repeatNeeds i
  writes : ∀ slot : Slot, slot.steps = (0, 0, 0) → ∀ p ∈ (op slot).writes, store = false ∧ p ∈ (repeatNeeds i).dropLast.dropLast
  stops  : ∀ (slot : Slot) (sh : Sheaf) (s : State) (a : Act), slot.steps = (0, 0, 0) →
    s.checkLocal slot sh (sh.readU (160 + b.toNat)) (sh.localAccesses slot o) size store = .stop a → (op slot).body slot sh s = a

section
variable {i : Instr} {g : BitVec 4} {n : BitVec 1} {b : BitVec 3} {o : BitVec 8} {d : BitVec 5} {size k : Nat}

theorem loadLocal_accesses {w : Widen} {window : Slot → Nat} {la : Bool}
    (hruns : ∀ s, exec i s = issued { formMe with la := la } g n (loadLocal size k w window d.toNat b.toNat o.toNat) s)
    (hg : guardOk g.toNat n.toNat = true) (hximm : takesXimm i = true) (hla : takesLa i = la) (hk : alignV k d.toNat = true)
    (hneeds : span d.toNat k ++ [o.toNat, lbByte b.toNat] = repeatNeeds i) :
    AccessesLocal i g n b o size false { formMe with la := la } (loadLocal size k w window d.toNat b.toNat o.toNat) where
  runs := hruns
  guard := hg
  ximm := hximm
  la := hla
  role := rfl
  wide := rfl
  ok slot h := by simp only [loadLocal, h, stepV_zero, stepB_zero, hk, off_lt, Bool.and_self]
  legal _ _ _ := rfl
  names slot h := by simp only [loadLocal, h, stepV_zero, stepB_zero, List.append_nil, hneeds]
  writes slot h p hp := by
    simp only [loadLocal, h, stepV_zero] at hp
    refine ⟨rfl, ?_⟩
    rw [← hneeds, List.append_cons, List.dropLast_concat, List.dropLast_concat]
    exact hp
  stops slot sh s a h hstop := by simp only [loadLocal, h, stepB_zero, localDists_eq, hstop]

theorem storeLocal_accesses {hint : Nat} (hruns : ∀ s, exec i s = issued formMe g n (storeLocalOp size k hint d.toNat b.toNat o.toNat) s)
    (hg : guardOk g.toNat n.toNat = true) (hximm : takesXimm i = true) (hla : takesLa i = false) (hk : alignV k d.toNat = true)
    (hhint : cacheOk hint = true) (hneeds : span d.toNat k ++ [o.toNat, lbByte b.toNat] = repeatNeeds i) :
    AccessesLocal i g n b o size true formMe (storeLocalOp size k hint d.toNat b.toNat o.toNat) where
  runs := hruns
  guard := hg
  ximm := hximm
  la := hla
  role := rfl
  wide := rfl
  ok slot h := by simp only [storeLocalOp, h, stepV_zero, stepB_zero, hk, hhint, off_lt, Bool.and_self]
  legal _ _ _ := rfl
  names slot h := by simp only [storeLocalOp, h, stepV_zero, stepB_zero, List.append_nil, hneeds]
  writes _ _ _ hp := nomatch hp
  stops slot sh s a h hstop := by simp only [storeLocalOp, h, stepB_zero, localDists_eq, hstop]

end

/-- Every local load and store issues so. -/
theorem localAccess_accesses {i : Instr} {g : BitVec 4} {n : BitVec 1} {b : BitVec 3} {o : BitVec 8} {size : Nat} {store : Bool}
    (h : localAccess i = some (g, n, b, o, size, store)) (hwf : i.wf = true) : ∃ f op, AccessesLocal i g n b o size store f op := by
  unfold localAccess at h
  split at h <;> cases h
  case h_1 | h_4 | h_5 | h_6 | h_7 => exact ⟨_, _, loadLocal_accesses (fun _ => rfl) hwf rfl rfl (alignV_one _) rfl⟩
  case h_2 | h_3 =>
    obtain ⟨hg, hk⟩ := Bool.and_eq_true_iff.mp hwf
    exact ⟨_, _, loadLocal_accesses (fun _ => rfl) hg rfl rfl hk rfl⟩
  case h_8 =>
    obtain ⟨hg, hhint⟩ := Bool.and_eq_true_iff.mp hwf
    exact ⟨_, _, storeLocal_accesses (fun _ => rfl) hg rfl rfl (alignV_one _) hhint rfl⟩
  case h_9 | h_10 =>
    obtain ⟨hgk, hhint⟩ := Bool.and_eq_true_iff.mp hwf
    obtain ⟨hg, hk⟩ := Bool.and_eq_true_iff.mp hgk
    exact ⟨_, _, storeLocal_accesses (fun _ => rfl) hg rfl rfl hk hhint rfl⟩
  case h_11 | h_12 => exact ⟨_, _, storeLocal_accesses (fun _ => rfl) hwf rfl rfl (alignV_one _) rfl rfl⟩

theorem acting_ne_zero_of_access {sh : Sheaf} {slot : Slot} {o : BitVec 8} {x : Nat × Int} (h : x ∈ sh.localAccesses slot o) :
    slot.acting ≠ 0 := by
  intro h0
  have hnone : lanesOf (0 : Mask) = [] := by decide
  rw [Sheaf.localAccesses, h0, hnone] at h
  cases h

theorem localHazards : LocalHazards := by
  intro i g n b o size store s sh m x p k haccess hwf hst hnorep hpend hpx hstrict hregs slot la hall hx hp hown hm hk hbyte
  obtain ⟨f, op, h⟩ := localAccess_accesses haccess hwf
  have hsteps : (s.here sh g.toNat n.toNat).steps = (0, 0, 0) := Slot.steps_none (by rw [State.here_rep, hnorep])
  have hact : (s.here sh g.toNat n.toNat).acting ≠ 0 ∨ f.always = true := Or.inl (acting_ne_zero_of_access hx)
  have hchecks := hst.passesChecks hnorep hpx h.ximm h.la (h.ok _ hsteps) (h.legal ..) (by rw [h.role]; rfl)
    (fun hw => by rw [h.wide] at hw; cases hw)
  have hfree : Unhindered f (op (s.here sh g.toNat n.toNat)) (s.here sh g.toNat n.toNat) sh.begun := by
    refine unhindered_of_mstrict hpend hstrict fun _ => regHazard?_none_of (fun m hm p hp => ?_) (fun m hm p hp => ?_)
    · obtain ⟨q, hq, rfl⟩ := List.mem_map.mp hp
      obtain ⟨hload, hdata⟩ := h.writes _ hsteps q hq
      exact (hregs m hm).1 hload q hdata
    · rw [Op.names, h.names _ hsteps] at hp
      obtain ⟨q, hq, rfl⟩ := List.mem_map.mp hp
      exact (hregs m hm).2 q hq
  have hstop : (s.begun sh).checkLocal slot sh.begun (sh.begun.readU (160 + b.toNat)) (sh.begun.localAccesses slot o) size store =
      .stop (.trap (TrapInfo.at cMhazard 5 0 (slot.word.setWidth 64)) (s.begun sh)) :=
    checkLocal_hazard (fun y hy => (hall y hy).1) (fun y hy => (hall y hy).2)
      (localHazard_of_mem (sh := sh.begun) hm (mem_ownBytes (sh := sh.begun) hx hp hown hk) hbyte) hstrict
  have hword : slot.word = s.slot.word := State.here_word ..
  rw [hword] at hstop
  rw [h.runs]
  exact congrArg Host.Outcome.next (issue_traps hst hnorep h.guard hchecks hfree hact rfl (h.stops _ _ _ _ hsteps hstop))

/-! ## MWAIT and MFENCE with work pending (R192, R193) -/

/-- A matrix instruction without operands, nothing attached to it, issues whatever is pending: its body is what it ends in. -/
theorem bare_issues {body : Slot → Sheaf → State → Act} {g : BitVec 4} {n : BitVec 1} {s : State} {sh : Sheaf} (hg : guardOk g.toNat n.toNat = true)
    (hst : Standing s sh) (hnorep : s.slot.rep = none) (hximm : s.slot.ximm = none) (hla : s.slot.la = none) (hrole : sh.role = .matrix)
    (hact : (s.here sh g.toNat n.toNat).acting ≠ 0) :
    issued formMatrix g n (bareOp body) s =
      .next (endAct (s.here sh g.toNat n.toNat) (s.began sh) (body (s.here sh g.toNat n.toNat) sh.begun (s.begun sh))).settle := by
  have hpx : Prefixed (.mwait g n) s := ⟨Or.inl hximm, Or.inl hla⟩
  have hchecks : PassesChecks formMatrix (bareOp body (s.here sh g.toNat n.toNat)) (s.here sh g.toNat n.toNat) sh.begun (s.begun sh) :=
    hst.passesChecks hnorep hpx rfl rfl rfl rfl (by rw [hrole]; rfl) nofun
  have hrun := issue_unhindered hst hnorep hg hchecks (unhindered_of_bare _ _ _ rfl rfl rfl rfl)
  rw [actOf_body (Or.inl hact) rfl] at hrun
  exact congrArg Host.Outcome.next hrun

theorem matrixWaits : MatrixWaits := by
  intro g n s sh hg hst hnorep hximm hla hrole hact goes
  have hmwait : exec (.mwait g n) s = _ := bare_issues hg hst hnorep hximm hla hrole hact
  have hmfence : exec (.mfence g n) s = _ := bare_issues hg hst hnorep hximm hla hrole hact
  have hgoes : ∀ x, Host.Outcome.next (endAct (s.here sh g.toNat n.toNat) (s.began sh)
      (Act.ofSheaf (s.here sh g.toNat n.toNat) (s.begun sh) x)).settle =
      (Host.Outcome.next ((s.setSheaf s.slot.sid x).finish (s.here sh g.toNat n.toNat) 0 (fun _ => 0) false (s.began sh)).settle :
        Host.Outcome State Fault Refusal) := by
    intro x
    rw [Act.ofSheaf, State.here_sid, State.begun, State.setSheaf_setSheaf, endAct]
  refine ⟨fun hdone => ?_, fun ⟨m, hm, hopen⟩ => waits_of_wait ?_, fun hwritten => ?_, fun ⟨p, hp, hopen⟩ => waits_of_wait ?_⟩
  · have hall : sh.begun.mops.all (fun m => m.done) = true := List.all_eq_true.mpr hdone
    rw [hall, if_pos rfl, hgoes] at hmwait
    exact hmwait
  · have hsome : sh.begun.mops.all (fun m => m.done) = false := List.all_eq_false.mpr ⟨m, hm, by rw [hopen]; exact Bool.false_ne_true⟩
    rw [hsome] at hmwait
    exact hmwait
  · have hall : sh.begun.pend.all (fun p => p.lanes == 0) = true := List.all_eq_true.mpr fun p hp => beq_iff_eq.mpr (hwritten p hp)
    rw [hall, if_pos rfl, hgoes] at hmfence
    exact hmfence
  · have hsome : sh.begun.pend.all (fun p => p.lanes == 0) = false := List.all_eq_false.mpr ⟨p, hp, by simpa using hopen⟩
    rw [hsome] at hmfence
    exact hmfence

end Sys2Proof.Machine

open Sys2Proof Sys2Proof.Machine

/-- Settles O33: every matrix function issues with the body that its table describes, and forbids a tile beyond the allotment; with operations
pending, rows 1 to 5 of R195 are met at issue (varying instructions), in the checks of R184 (matrix instructions) or in those of R155 (local
accesses), and MWAIT and MFENCE, which name no register, always come to their bodies. -/
theorem matrixFunctions : Obligations.MatrixFunctions :=
  ⟨actRules_of_acts fun _ _ _ _ hrule hwf hr hlegal => matrix_acts hrule hwf hr hlegal,
    illegalTraps_of_forbids fun _ _ s sh hrule => matrix_forbids s sh hrule, matrixHazards, laneHazards, localHazards, matrixWaits⟩

end

/-! PROOFS. Tags (R206 to R208) and buffer handles (R213 to R215): each instruction issues with the body that its table describes. -/
section
namespace Sys2Proof.Machine

/-! ## The tags that a mask names (R208) -/

theorem range_zip_eq_map {α : Type} (xs : List α) (d : α) :
    (List.range xs.length).zip xs = (List.range xs.length).map (fun i => (i, xs.getD i d)) := by
  refine List.ext_getElem (by simp) fun i hi _ => ?_
  have hlt : i < xs.length := by simpa using hi
  simp [hlt]

theorem maskTags_eq (t : Tuft) (mask : BitVec 64) : t.maskTags mask =
    (List.range t.tags.length).filterMap (fun i => if mask.getLsbD i then some (i, t.tags.getD i Tag.zero) else none) := by
  rw [Tuft.maskTags, range_zip_eq_map t.tags Tag.zero, ← List.filterMap_eq_filter, List.filterMap_map]
  exact List.filterMap_congr fun i _ => by simp [Option.guard]

/-- TCLR resets the masked tags whose count is zero (R208). -/
theorem cleared_eq (t : Tuft) (mask : BitVec 64) :
    ((List.range t.tags.length).zip t.tags).map (fun e => if mask.getLsbD e.1 && e.2.count == 0 then Tag.zero else e.2) =
      (List.range t.tags.length).map (fun i =>
        let x := t.tags.getD i Tag.zero
        if mask.getLsbD i = true ∧ x.count = 0 then { count := 0, done := false, fail := false, code := 0 } else x) := by
  rw [range_zip_eq_map t.tags Tag.zero, List.map_map]
  exact List.map_congr_left fun i _ => by simp [Tag.zero]

theorem maskLegal_eq (t : Tuft) (mask : BitVec 64) : maskLegal t mask = decide (mask.toNat < 2 ^ t.tags.length) := by
  rw [maskLegal, Bool.eq_iff_iff, beq_iff_eq, decide_eq_true_iff, Nat.div_eq_zero_iff_lt (Nat.two_pow_pos _)]

/-- A wait for any masked tag of which none is DONE is over where none counts (R208). -/
theorem anyReady_of_noneDone {t : Tuft} {mask : BitVec 64} (h : (t.maskTags mask).find? (fun e => e.2.done) = none) :
    t.anyReady mask = (t.maskTags mask).all (fun e => e.2.count == 0) := by
  have hnone : (t.maskTags mask).any (fun e => e.2.done) = false := by simpa [List.any_eq_false] using h
  rw [Tuft.anyReady, hnone, Bool.false_or]

/-! ## Tag functions (R208) -/

/-- A tag function over a mask pair: ILLEGAL for a bit beyond the allotment, else what it does with the masked tags. -/
theorem maskOp_body {ok : Bool} {uses : List Nat} {b : BitVec 8} {body : Slot → Sheaf → Tuft → BitVec 64 → State → Act} {s : State}
    {slot slot' : Slot} {sh : Sheaf} {f : Tuft → List (Nat × Tag) → Act} {a : Act} (h : ofMask s slot sh b f = some a)
    (hf : ∀ t, body slot sh t (sh.readPair (b.toNat - 64)) s = f t (t.maskTags (sh.readPair (b.toNat - 64)))) :
    (maskOp ok uses b.toNat body slot').body slot sh s = a := by
  obtain ⟨t, ht, rfl⟩ := Option.map_eq_some_iff.mp h
  simp only [maskOp, ht, readPairB_eq, maskLegal_eq, hf, maskTags_eq]
  by_cases hmask : (sh.readPair (b.toNat - 64)).toNat < 2 ^ t.tags.length
  · simp only [hmask, decide_true, Bool.not_true, Bool.false_eq_true, if_false, if_true]
  · simp only [hmask, decide_false, Bool.not_false, if_true, if_false]
    rfl

theorem tagResult_eq (s : State) (slot : Slot) (x b : BitVec 8) (done : Bool) (w : Word) :
    tagResult x.toNat b.toNat slot done w s = tagged s slot x b done w := rfl

/-- A tag function over a mask pair issues with the body that the table describes. -/
theorem mask_acts {i : Instr} {wide ok : Bool} {uses : List Nat} {g : BitVec 4} {n : BitVec 1} {b : BitVec 8} {s : State} {sh : Sheaf}
    {body : Slot → Sheaf → Tuft → BitVec 64 → State → Act} {F : State → Slot → Sheaf → Tuft → List (Nat × Tag) → Act}
    (hruns : exec i s = issued { Form.plain with wide := wide } g n (maskOp ok uses b.toNat body) s) (hg : guardOk g.toNat n.toNat = true)
    (hximm : takesXimm i = false) (hla : takesLa i = false) (hok : ok = true)
    (hbody : ∀ s slot sh t, body slot sh t (sh.readPair (b.toNat - 64)) s = F s slot sh t (t.maskTags (sh.readPair (b.toNat - 64)))) :
    ∃ f op, Acts i { g := g, n := n, wide := wide, outcome := fun s slot sh => ofMask s slot sh b (F s slot sh) } f op s sh :=
  ⟨_, _, hruns, hg, hximm, hla, id, rfl, rfl, rfl, hok, rfl, rfl, fun _ h => maskOp_body (f := F _ _ _) h (hbody _ _ _)⟩

theorem tag_acts {i : Instr} {r : ActRule} {s : State} {sh : Sheaf} (hrule : tagRule i = some r) (hwf : i.wf = true) :
    ∃ f op, Acts i r f op s sh := by
  unfold tagRule at hrule
  split at hrule <;> cases hrule
  case h_1 g n x b =>
    obtain ⟨hgx, hb⟩ := Bool.and_eq_true_iff.mp hwf
    obtain ⟨hg, hx⟩ := Bool.and_eq_true_iff.mp hgx
    refine mask_acts rfl hg rfl rfl (Bool.and_eq_true_iff.mpr ⟨hx, hb⟩) fun s slot sh t => ?_
    cases hdone : t.lowestDone (sh.readPair (b.toNat - 64)) with
    | some e =>
      have hfind : (t.maskTags (sh.readPair (b.toNat - 64))).find? (fun e => e.2.done) = some e := hdone
      simp only [hfind]
      rfl
    | none =>
      have hfind : (t.maskTags (sh.readPair (b.toNat - 64))).find? (fun e => e.2.done) = none := hdone
      simp only [anyReady_of_noneDone hfind, hfind]
      rfl
  case h_2 g n x b | h_3 g n x b =>
    obtain ⟨hgx, hb⟩ := Bool.and_eq_true_iff.mp hwf
    obtain ⟨hg, hx⟩ := Bool.and_eq_true_iff.mp hgx
    exact mask_acts rfl hg rfl rfl (Bool.and_eq_true_iff.mpr ⟨hx, hb⟩) fun _ _ _ _ => rfl
  case h_4 g n b =>
    obtain ⟨hg, hb⟩ := Bool.and_eq_true_iff.mp hwf
    exact mask_acts rfl hg rfl rfl hb fun _ _ _ _ => by rw [cleared_eq]
  case h_5 g n x b =>
    obtain ⟨hgx, hb⟩ := Bool.and_eq_true_iff.mp hwf
    obtain ⟨hg, hx⟩ := Bool.and_eq_true_iff.mp hgx
    refine ⟨_, _, rfl, hg, rfl, rfl, fun _ => rfl, rfl, rfl, rfl, Bool.and_eq_true_iff.mpr ⟨hx, hb⟩, rfl, rfl, fun _ h => ?_⟩
    obtain ⟨t, ht, rfl⟩ := Option.map_eq_some_iff.mp h
    simp only [ht, operandMark_uniform _ (le_of_isU hb)]
    rfl

/-! ## Handles (R213 to R215) -/

theorem handleStop_eq (la : Word) (s : State) : handleStop la s = .trap (handleTrap la) s := by
  simp [handleStop, handleTrap]

/-- HGIVE's giver loses its access, and the buffer stands in the queue of arrivals or waits for a place there (R214). -/
theorem give_eq_passes (s : State) (sh : Sheaf) (buffer : Buffer) (slot target channel : Nat) :
    s.give sh buffer slot target channel = passes s sh buffer slot target channel := by
  simp only [State.give, passes, State.queueRoom, beq_iff_eq, decide_eq_true_eq]
  rfl

/-- The target of an HGIVE is a core of the slice, and the bits above its units are zero (R214). -/
theorem giveIllegal_iff {w : Nat} (hw : w < 2 ^ 32) : (decide (191 < field w 0 8) || field w 16 16 != 0) = true ↔ 192 ≤ field w 0 8 ∨ 2 ^ 16 ≤ w := by
  simp only [field, Bool.or_eq_true, decide_eq_true_eq, bne_iff_ne, Nat.pow_zero, Nat.div_one]
  omega

theorem freeSlot?_eq (k : Core) : k.freeSlot? = (List.range' 1 63).find? (fun i => (k.front.handles.find? i).isNone) := rfl

theorem handle_acts {i : Instr} {r : ActRule} {s : State} {sh : Sheaf} (hrule : handleRule i = some r) (hwf : i.wf = true) :
    ∃ f op, Acts i r f op s sh := by
  unfold handleRule at hrule
  split at hrule <;> cases hrule
  case h_1 g n b x =>
    obtain ⟨hg, hb⟩ := Bool.and_eq_true_iff.mp hwf
    refine ⟨_, _, rfl, hg, rfl, rfl, fun _ => rfl, rfl, rfl, rfl, hb, rfl, rfl, fun _ h => ?_⟩
    cases h
    have hnext : b.toNat + 1 - 64 = b.toNat - 63 := by omega
    simp only [readUB_eq, hnext, giveIllegal_iff (BitVec.isLt _), ← handleStop_eq, give_eq_passes, ← Option.isSome_iff_ne_none]
    rfl
  case h_2 g n b x =>
    obtain ⟨hg, hb⟩ := Bool.and_eq_true_iff.mp hwf
    refine ⟨_, _, rfl, hg, rfl, rfl, fun _ => rfl, rfl, rfl, rfl, hb, rfl, rfl, fun _ h => ?_⟩
    cases h
    simp only [operandMark_uniform _ (le_of_isU hb), freeSlot?_eq, ← handleStop_eq, Parcel.isFor]
    split
    · next hnone => simp only [hnone]
    · next p hp =>
      split
      · next hfull => simp only [hp, hfull]
      · next k hk =>
        simp only [hp, hk]
        rfl
  case h_3 g n b =>
    obtain ⟨hg, hb⟩ := Bool.and_eq_true_iff.mp hwf
    refine ⟨_, _, rfl, hg, rfl, rfl, fun _ => rfl, rfl, rfl, rfl, hb, rfl, rfl, fun _ h => ?_⟩
    cases h
    simp only [operandMark_uniform _ (le_of_isU hb)]
    rfl
  case h_4 g n b =>
    obtain ⟨hg, hb⟩ := Bool.and_eq_true_iff.mp hwf
    refine ⟨_, _, rfl, hg, rfl, rfl, fun _ => rfl, rfl, rfl, rfl, hb, rfl, rfl, fun _ h => ?_⟩
    cases h
    simp only [← handleStop_eq]
    rfl

end Sys2Proof.Machine

open Sys2Proof Sys2Proof.Machine

/-- Settles O35: every tag function issues with the body that its table describes; the masked tags are those of the allotment. -/
theorem tagInstructions : Obligations.TagInstructions := actRules_of_acts fun _ _ _ _ hrule hwf _ _ => tag_acts hrule hwf

/-- Settles O37: every handle instruction issues with the body that its table describes. -/
theorem handleInstructions : Obligations.HandleInstructions := actRules_of_acts fun _ _ _ _ hrule hwf _ _ => handle_acts hrule hwf

end

/-! PROOFS. The happenings of the walker and of the engines (R201, R204, R283 to R286, R294 to R296, R351 to R353): each makes the state that the
table of happenings says. -/
section
namespace Sys2Proof.Machine

/-! ## Walks and shoot-downs (R283, R294 to R296) -/

theorem State.walkMiss_of_served {s : State} {core ctx part : Nat} {va : Addr} (hp : s.servedPart? (sliceOf core) = some part) (hc : canonical va = true) :
    s.walkMiss core ctx va = (s.xlateTlb core part ctx none va false).2 := by
  simp only [State.walkMiss, hp, hc, if_true]

/-- A shoot-down has the number it was taken with (R295). -/
theorem shootdownOf?_number {bs : List Byte} {number : Nat} {d : Shootdown} (h : shootdownOf? bs number = some d) : d.number = number := by
  simp only [shootdownOf?] at h
  split at h <;> cases h
  rfl

section Go

variable {s : State} {slice part : Nat} {p : Partition} (ho : (s.slice slice).owner = some part) (hp : s.part? part = some p)
  (hgo : (s.slice slice).walker.go = 1)
include ho hp hgo

theorem State.takeShootdown_malformed (hd : shootdownOf? (s.slice slice).walker.cmd (p.sdseq + 1) = none) : s.takeShootdown slice =
    (s.modSlice slice (fun x => { x with walker := { x.walker with go := 0, result := 1 } })).refuse slice 0x02000020 := by
  simp only [State.takeShootdown, ho, Option.bind_some, hp, hgo, bne_self_eq_false, Bool.false_eq_true, if_false, hd]

theorem State.takeShootdown_taken {d : Shootdown} (hd : shootdownOf? (s.slice slice).walker.cmd (p.sdseq + 1) = some d) : s.takeShootdown slice =
    (s.modSlice slice (fun x => { x with walker := { x.walker with go := 0, result := 0, seq := p.sdseq + 1 } })).setPart part
      { p with sdseq := p.sdseq + 1, shoots := p.shoots ++ [d] } := by
  have hpart : (s.modSlice slice (fun x => { x with walker := { x.walker with go := 0, result := 0, seq := p.sdseq + 1 } })).part? part = some p := hp
  simp only [State.takeShootdown, ho, Option.bind_some, hp, hgo, bne_self_eq_false, Bool.false_eq_true, if_false, hd, shootdownOf?_number hd,
    Option.getD_some, State.modPart, hpart]

end Go

/-- Every job of the partition is over once no sheaf of it is stuck and nothing of it is under way (R296). -/
theorem shotClean_iff (s : State) (part : Nat) : shotClean s part = true ↔
    (s.sheaves.any (fun e => s.partOf e.2 == part && s.stuckSheaf e.1) || s.msgs.any (fun m => m.part == part)) = false := by
  rw [shotClean, Bool.not_eq_true']

/-- The happening of SHOOTDOWN_COMPLETE is what the machine does where every job is over (R296). -/
theorem execShootdownComplete_of_due {part : Nat} {f : Happening} {s t : State} (hi : engineHappening (.shootdownComplete part) = some f) (hf : f s = some t) :
    execShootdownComplete part s = .next t := by
  cases hi
  obtain ⟨d, hd, hf⟩ := Option.bind_eq_some_iff.mp hf
  obtain ⟨hclean, rfl⟩ := due_eq_some.mp hf
  have hover := (shotClean_iff ..).mp hclean
  simp only [execShootdownComplete, State.completeShootdown, hd, hover, Bool.false_eq_true, if_false]
  rfl

/-! ## Copies (R201) -/

/-- A command that may start is decoded, its local extents judged (R201, R205). -/
theorem State.startCopy_of_startable {s : State} {core : Nat} {c : CopyCmd} (h : s.startable? core = some c) : s.startCopy core =
    if c.descOk = false then s.endCopy core c (some 1)
    else if s.extentsOk core c = false then s.endCopy core c (some 2)
    else s.modCopy core c.id (fun c => { c with started := true }) := by
  simp only [State.startCopy, h, Bool.not_eq_true', copyDesc, copyHandle]

theorem State.settleCopy_eq (s : State) (core : Nat) (c : CopyCmd) (failed : Option Nat) :
    s.settleCopy core c failed = (s.invalidate core (fun n => c.wrote.contains n)).endCopy core c (failed.or c.failed) := by
  cases failed <;> rfl

/-- A started command that no fault holds completes, or ends where its writes to other packages have been acknowledged (R201). -/
theorem State.completeCopy_of_started {s : State} {core cmd : Nat} {c : CopyCmd} (h : (s.core core).copies.find? (fun c => c.id == cmd) = some c)
    (hs : c.started = true) (ht : c.token = none) : s.completeCopy core cmd =
      match c.outcome with
      | some failed => if s.engineOut cmd then s else (s.invalidate core (fun n => c.wrote.contains n)).endCopy core c (failed.or c.failed)
      | none =>
      if s.extentsOk core c = false then s.closeCopy core c (some 2)
      else match c.kind with
        | .lin | .t2d | .gath => s.moveIn core c
        | .linw | .t2dw | .scat => s.moveOut core c
        | .xpnd => s.moveXpnd core c
        | .l2l => s.moveLocal core c
        | .fill => s.moveFill core c := by
  simp only [State.completeCopy, h, hs, ht, Bool.not_true, Option.isSome_none, Bool.or_self, Bool.false_eq_true, if_false, State.settleCopy_eq,
    Bool.not_eq_true', copyHandle] <;> rfl

/-! ## Collectives (R351 to R353) -/

/-- The first position whose members have all issued joins, or fails with PEER (R351). -/
theorem State.joinColls_of_ready {s : State} {part group k : Nat} {p : Partition} (hp : s.part? part = some p)
    (hk : (s.collSeqs p group false).find? (s.collReady p group) = some k) : s.joinColls part group =
      let xs := s.collsAt p group k
      if collAgree xs then
        s.forEach xs (fun s e => s.modSlice e.1 (fun y => { y with colls := y.colls.map (fun c => if c.id == e.2.id then { c with joined := true } else c) }))
      else s.endColls (xs.map (fun e => (e.1, e.2, some 10))) := by
  simp only [State.joinColls, hp, hk, collPeer]

section Complete

variable {s : State} {part group k : Nat} {p : Partition} (hp : s.part? part = some p) (hk : (s.collSeqs p group true).head? = some k)
  {xs : List (Nat × CollCmd)} (hxs : inRankOrder ((s.collsAt p group k).filter (fun e => e.2.joined)) = xs)
include hp hk hxs

theorem State.completeColls_failed (h : (xs.any (fun e => e.2.failed == some 10) || !collAgree xs) = true) :
    s.completeColls part group = s.endColls (xs.map (fun e => (e.1, e.2, some 10))) := by
  simp only [State.completeColls, hp, hk, hxs, collPeer, h, if_true]

variable (hgood : ¬ (xs.any (fun e => e.2.failed == some 10) || !collAgree xs) = true)
include hgood

theorem State.completeColls_moved (hmoved : xs.all (fun e => e.2.outcome.isSome) = true) (hout : xs.any (fun e => s.engineOut e.2.id) = false) :
    s.completeColls part group = s.settleColls xs := by
  simp only [State.completeColls, hp, hk, hxs, collPeer, hgood, hmoved, hout, Bool.false_eq_true, if_false, if_true]

theorem State.completeColls_moving (hmoved : ¬ xs.all (fun e => e.2.outcome.isSome) = true) (hfree : s.collFree xs = true)
    (hlinked : xs.all (fun e => s.collLinked e.1 e.2) = true) : s.completeColls part group = s.moveColls xs := by
  simp only [State.completeColls, hp, hk, hxs, collPeer, hgood, hmoved, hfree, hlinked, Bool.not_true, Bool.or_self, Bool.false_eq_true, if_false]

end Complete

end Sys2Proof.Machine

open Sys2Proof Sys2Proof.Machine

/-- Settles O49, happening by happening. -/
theorem engineHappenings : Obligations.EngineHappenings := by
  unfold Obligations.EngineHappenings
  intro i f s t hi hf
  have hi' := hi
  unfold engineHappening at hi
  split at hi <;> cases hi
  case h_1 core ctx va =>
    obtain ⟨part, hp, hf⟩ := Option.bind_eq_some_iff.mp hf
    obtain ⟨hc, rfl⟩ := due_eq_some.mp hf
    exact congrArg Host.Outcome.next (State.walkMiss_of_served hp hc)
  case h_2 slice => exact congrArg Host.Outcome.next (Option.some.inj hf)
  case h_3 slice =>
    obtain ⟨part, ho, hf⟩ := Option.bind_eq_some_iff.mp hf
    obtain ⟨p, hp, hf⟩ := Option.bind_eq_some_iff.mp hf
    obtain ⟨hgo, hf⟩ := Option.ite_none_right_eq_some.mp hf
    split at hf
    next hd => exact congrArg Host.Outcome.next ((State.takeShootdown_malformed ho hp hgo hd).trans (Option.some.inj hf))
    next d hd => exact congrArg Host.Outcome.next ((State.takeShootdown_taken ho hp hgo hd).trans (Option.some.inj hf))
  case h_4 part => exact execShootdownComplete_of_due hi' hf
  case h_5 core =>
    obtain ⟨c, hc, rfl⟩ := Option.map_eq_some_iff.mp hf
    exact congrArg (fun t => Host.Outcome.next (State.settle t)) (State.startCopy_of_startable hc)
  case h_6 core cmd =>
    obtain ⟨c, hc, hf⟩ := Option.bind_eq_some_iff.mp hf
    obtain ⟨⟨hs, ht⟩, rfl⟩ := due_eq_some.mp hf
    exact congrArg (fun t => Host.Outcome.next (State.settle t)) (State.completeCopy_of_started hc hs ht)
  case h_7 part group =>
    obtain ⟨p, hp, hf⟩ := Option.bind_eq_some_iff.mp hf
    obtain ⟨k, hk, rfl⟩ := Option.map_eq_some_iff.mp hf
    exact congrArg (fun t => Host.Outcome.next (State.settle t)) (State.joinColls_of_ready hp hk)
  case h_8 part group =>
    obtain ⟨p, hp, hf⟩ := Option.bind_eq_some_iff.mp hf
    obtain ⟨k, hk, hf⟩ := Option.bind_eq_some_iff.mp hf
    have hcomplete : (s.completeColls part group).settle = t := by
      simp only at hf
      split at hf
      next hfailed => rw [State.completeColls_failed hp hk rfl hfailed]; exact Option.some.inj hf
      next hgood =>
        split at hf
        next hmoved =>
          obtain ⟨hout, rfl⟩ := due_eq_some.mp hf
          rw [State.completeColls_moved hp hk rfl hgood hmoved hout]
        next hmoved =>
          obtain ⟨⟨hfree, hlinked⟩, rfl⟩ := due_eq_some.mp hf
          rw [State.completeColls_moving hp hk rfl hgood hmoved hfree hlinked]
    exact congrArg Host.Outcome.next hcomplete

end

/-! PROOFS. Child kernels: KLAUNCH, KWAIT and KQUOTA issue with the bodies that their table describes (R249 to R252), and what KQUOTA leaves in the
uniform registers (R252). -/
section
namespace Sys2Proof.Machine

/-! ## KLAUNCH (R250) -/

section
variable {s : State} {slot : Slot} {b : BitVec 8}

/-- The release before KLAUNCH ends its sheaf, is complete, or waits for counters (R171, R250). -/
theorem State.releaseFirst_release (s : State) (sid scope : Nat) : s.releaseFirst sid 2 scope =
    if (s.releaseStart sid scope).ended sid then .inl (.stop (s.releaseStart sid scope))
    else if (s.releaseStart sid scope).released sid scope then .inr (s.releaseStart sid scope)
    else .inl (.wait (.counters scope) (s.releaseStart sid scope)) := rfl

/-- A load of the whole sheaf whose check passes and whose fill is not refused hands its bytes on (R155, R157). -/
theorem loadNow_of_fetched {sh : Sheaf} {va : Addr} {size : Nat} {fresh : Bool} {next : List Byte → Mark → State → Act} {x : Reached}
    {xs : List Reached} {u v : State} {bs : List Byte} (hgo : s.checkGlobal sh [(lowestLane slot.lanes, va)] size false 0 = .go (x :: xs) u)
    (hfetch : ((u.setSheaf slot.sid (sh.countMem (touchedLines (x :: xs)))).forceResults slot.sid (fun p => p.reads x.trans.paddr size)).fetchData
      slot.sid (x.src fresh) size = (.ok bs, v)) :
    s.loadNow slot sh va size fresh next = next bs (v.reachedMark (v.partOf sh) (x :: xs)) v := by
  simp only [State.loadNow, hgo, hfetch]

/-- The body of KLAUNCH ends as its rule says, where the rule speaks of it: the sheaf ends in its release, waits in it, or has its packet at hand. -/
theorem klaunchOp_body {sh : Sheaf} {a : Act} (hb : 64 ≤ b.toNat) (h : klaunchOutcome b s slot sh = some a) :
    (klaunchOp b.toNat slot).body slot sh s = a := by
  have hreserved : b.toNat + 2 - 64 = b.toNat - 62 := by omega
  have hstatus : b.toNat + 3 - 64 = b.toNat - 61 := by omega
  simp only [klaunchOutcome] at h
  simp only [klaunchOp, State.releaseFirst_release]
  split at h
  next hend =>
    cases h
    simp only [hend, if_true]
  next hend =>
    split at h
    next hwaits =>
      cases h
      simp only [hend, hwaits, Bool.false_eq_true, if_false]
    next hreleased =>
      obtain ⟨y, hy, h⟩ := Option.bind_eq_some_iff.mp h
      simp only [hend, Bool.eq_true_of_not_eq_false hreleased, Bool.false_eq_true, if_false, if_true, hy]
      split at h
      next x xs u hgo =>
        split at h
        next bs v hfetch =>
          cases h
          simp only [readPairB_eq, readUB_eq, Sheaf.writeUB, uIndex, hreserved, hstatus, loadNow_of_fetched hgo hfetch]
        next => cases h
      next => cases h

end

/-! ## The table of the child instructions -/

theorem child_acts {i : Instr} {r : ActRule} {s : State} {sh : Sheaf} (hrule : childRule i = some r) (hwf : i.wf = true) :
    ∃ f op, Acts i r f op s sh := by
  unfold childRule at hrule
  split at hrule <;> cases hrule
  case h_1 g n b =>
    obtain ⟨hg, hb⟩ := Bool.and_eq_true_iff.mp hwf
    have hu := le_of_isU (Bool.and_eq_true_iff.mp hb).1
    exact ⟨_, _, rfl, hg, rfl, rfl, fun _ => rfl, rfl, rfl, rfl, hb, rfl, rfl, fun _ h => klaunchOp_body hu h⟩
  case h_2 g n b =>
    obtain ⟨hg, hb⟩ := Bool.and_eq_true_iff.mp hwf
    refine ⟨_, _, rfl, hg, rfl, rfl, fun _ => rfl, rfl, rfl, rfl, hb, rfl, rfl, fun _ h => ?_⟩
    cases h
    rfl
  case h_3 g n b =>
    obtain ⟨hg, hb⟩ := Bool.and_eq_true_iff.mp hwf
    refine ⟨_, _, rfl, hg, rfl, rfl, fun _ => rfl, rfl, rfl, rfl, hb, rfl, rfl, fun _ h => ?_⟩
    cases h
    have hnext : b.toNat + 1 - 64 = b.toNat - 63 := by
      have := le_of_isU (Bool.and_eq_true_iff.mp hb).1
      omega
    simp only [kquotaOp, Sheaf.writeUB, uIndex, hnext]
    rfl

/-! ## KQUOTA (R252) -/

/-- The halves of a word packed of two numbers of 16 bits. -/
theorem field_ofNat_packed {x y : Nat} (hx : x < 2 ^ 16) (hy : y < 2 ^ 16) :
    field (BitVec.ofNat 32 (x + y * 2 ^ 16)).toNat 0 16 = x ∧ field (BitVec.ofNat 32 (x + y * 2 ^ 16)).toNat 16 16 = y := by
  simp only [field, BitVec.toNat_ofNat]
  omega

/-- The lower word of KQUOTA holds the queued kernels remaining, capped, in its upper half, and the child entries remaining in its lower half where
they fit there (R252). -/
theorem State.quotaWords_fields (s : State) (part ctx : Nat) :
    ((s.ctx part ctx).childrenLeft < 2 ^ 16 → field (s.quotaWords part ctx).1.toNat 0 16 = (s.ctx part ctx).childrenLeft) ∧
    field (s.quotaWords part ctx).1.toNat 16 16 = min ((s.ctx part ctx).qkern - s.chargedKernels part ctx) 0xFFFF := by
  obtain ⟨hlow, hhigh⟩ := field_ofNat_packed (x := min (s.ctx part ctx).childrenLeft 0xFFFF)
    (y := min ((s.ctx part ctx).qkern - s.chargedKernels part ctx) 0xFFFF) (by omega) (by omega)
  exact ⟨fun hfits => hlow.trans (by omega), hhigh⟩

/-- KQUOTA in a converged sheaf where lanes act: its pair takes the two words of the quotas, and the other uniform registers stay (R252). -/
theorem kquota_writes {g : BitVec 4} {n : BitVec 1} {b : BitVec 8} {s : State} {sh : Sheaf} (hwf : (Instr.kquota g n b).wf = true) (hr : Ready s sh)
    (hpx : Prefixed (.kquota g n b) s) (hw : Wide s sh g.toNat n.toNat) (hacting : (s.here sh g.toNat n.toNat).acting ≠ 0) :
    ∃ sh', exec (.kquota g n b) s = .next (s.setSheaf s.slot.sid sh').settle ∧
      (∀ j, sh'.ureg j = if j = b.toNat - 64 + 1 then { val := (s.quotaWords (s.partOf sh) (s.ctxOf sh)).2, mark := 0 }
        else if j = b.toNat - 64 then { val := (s.quotaWords (s.partOf sh) (s.ctxOf sh)).1, mark := 0 } else sh.ureg j) ∧
      Advanced s sh sh' := by
  obtain ⟨hg, hb⟩ := Bool.and_eq_true_iff.mp hwf
  have hnext : b.toNat + 1 - 64 = b.toNat - 64 + 1 := by
    have := le_of_isU (Bool.and_eq_true_iff.mp hb).1
    omega
  have hbody : (kquotaOp b.toNat (s.here sh g.toNat n.toNat)).body (s.here sh g.toNat n.toNat) sh.begun (s.begun sh) =
      .next (s.setSheaf s.slot.sid ((sh.begun.writeU (b.toNat - 64) (s.quotaWords (s.partOf sh) (s.ctxOf sh)).1 0).writeU (b.toNat - 64 + 1)
        (s.quotaWords (s.partOf sh) (s.ctxOf sh)).2 0)) := by
    simp only [kquotaOp, Act.ofSheaf, Sheaf.writeUB, uIndex, hnext, State.here_sid, State.begun, State.setSheaf_setSheaf]
    rfl
  obtain ⟨sh', hexec, hstill, hadv⟩ := sheaf_ends hr (prefixes_ok hpx hr.norep rfl rfl : formChild.prefixesOk s.slot = true) hg rfl
    (fun _ => ⟨hw.converged, Or.inr hw.uniform⟩) hb rfl (Or.inl hacting) hbody hr.noend rfl rfl (Sheaf.over_of_issuing hr.issuing)
  refine ⟨sh', hexec, fun j => ?_, hadv⟩
  simp only [Sheaf.ureg, Sheaf.still_uregs hstill, Sheaf.writeU, Map.getD_put]
  rfl

end Sys2Proof.Machine

open Sys2Proof Sys2Proof.Machine

/-- Settles O38: every child instruction issues with the body that its table describes. -/
theorem childInstructions : Obligations.ChildInstructions := actRules_of_acts fun _ _ _ _ hrule hwf _ _ => child_acts hrule hwf

/-- Settles O58: KQUOTA writes the two words of the quotas, whose halves are those of R252. -/
theorem kquotaWritesTheQuotas : Obligations.KquotaWritesTheQuotas := by
  unfold Obligations.KquotaWritesTheQuotas
  intro g n b s sh hwf hr hpx hw hacting
  obtain ⟨sh', hexec, hureg, hadv⟩ := kquota_writes hwf hr hpx hw hacting
  obtain ⟨hchildren, hkernels⟩ := s.quotaWords_fields (s.partOf sh) (s.ctxOf sh)
  have hlow : sh'.readU (b.toNat - 64) = (s.quotaWords (s.partOf sh) (s.ctxOf sh)).1 := by
    rw [Sheaf.readU, hureg, if_neg (Nat.ne_of_lt (Nat.lt_succ_self _)), if_pos rfl]
  have hhigh : sh'.readU (b.toNat - 64 + 1) = (s.quotaWords (s.partOf sh) (s.ctxOf sh)).2 := by rw [Sheaf.readU, hureg, if_pos rfl]
  refine ⟨sh', hexec, fun hfits => ?_, ?_, hhigh, fun j hj hj' => ?_, hadv⟩
  · rw [hlow]
    exact hchildren hfits
  · rw [hlow]
    exact hkernels
  · rw [hureg, if_neg hj', if_neg hj]

end

/-! PROOFS. Memory at reset (R394); accesses to addresses that hold nothing (R302); a trap that ends its sheaf (R328, R334, R336): the record that it
posts leaves every sheaf, and what the sheaf poisons leaves the sheaf itself. -/
section
namespace Sys2Proof.Machine

/-! ## What a posted record leaves (R332) -/

theorem State.rekeySector_sheaves (s : State) (key n : Nat) : (s.rekeySector key n).sheaves = s.sheaves := by
  unfold State.rekeySector
  split <;> rfl

theorem State.putByte_sheaves (s : State) (key a : Nat) (b : Byte) : (s.putByte key a b).sheaves = s.sheaves := State.rekeySector_sheaves ..

theorem State.clearPoison_sheaves (s : State) (bs : Map Byte) (a : Nat) : (s.clearPoison bs a).sheaves = s.sheaves := by
  unfold State.clearPoison
  split <;> rfl

theorem State.putBytes_sheaves (s : State) (key a : Nat) (bs : Map Byte) : (s.putBytes key a bs).sheaves = s.sheaves := by
  have hbytes : (s.forEach bs fun s e => s.putByte key (a + e.1) e.2).sheaves = s.sheaves :=
    State.forEach_keeps (fun t => t.sheaves = s.sheaves) _ _ (fun _ _ h => (State.putByte_sheaves ..).trans h) rfl
  exact (State.clearPoison_sheaves ..).trans hbytes

theorem State.countDrop_sheaves (s : State) (part a : Nat) : (s.countDrop part a).sheaves = s.sheaves := by
  unfold State.countDrop
  split
  · split <;> rfl
  · rfl

theorem State.writeRecord_sheaves (s : State) (slice : Nat) (r : FaultRec) : (s.writeRecord slice r).sheaves = s.sheaves := by
  unfold State.writeRecord
  dsimp only
  rw [State.modSlice_sheaves]
  split
  · exact State.putBytes_sheaves ..
  · exact State.countDrop_sheaves ..

theorem State.postRecord_sheaves (s : State) (slice : Nat) (r : FaultRec) : (s.postRecord slice r).sheaves = s.sheaves := by
  unfold State.postRecord
  dsimp only
  split
  · exact State.writeRecord_sheaves ..
  · split <;> rfl

theorem State.newToken_sheaves (s : State) (part : Nat) (t : Token) : (s.newToken part t).2.sheaves = s.sheaves := by
  unfold State.newToken
  split <;> rfl

theorem State.countForeign_sheaves (s : State) (part : Nat) (f : SysFault) : (s.countForeign part f).sheaves = s.sheaves := by
  unfold State.countForeign
  split
  · exact State.countDrop_sheaves ..
  · rfl

/-- The record of a fault of a sheaf (R332, R333) changes no sheaf. -/
theorem State.postSheafFault_sheaves (s : State) (sid : Nat) (slot : Slot) (f : SysFault) (use : TokenUse) :
    (s.postSheafFault sid slot f use).2.sheaves = s.sheaves := by
  unfold State.postSheafFault
  split
  · rfl
  · exact (State.postRecord_sheaves ..).trans ((State.countForeign_sheaves ..).trans (State.newToken_sheaves ..))

/-! ## The end of a sheaf (R18, R33, R275) -/

/-- A sheaf that waits for nothing is left as it is by what another poisons (R275). -/
theorem State.modSheaf_poisonWait_sheaf? {s : State} {sid : Nat} {sh : Sheaf} (h : s.sheaf? sid = some sh) (hwait : sh.wait = none) (y : Nat)
    (groups : List Nat) : (s.modSheaf y fun x => x.poisonWait groups).sheaf? sid = some sh := by
  unfold State.modSheaf
  split
  next x hx =>
    by_cases hy : sid = y
    · subst hy
      cases h.symm.trans hx
      have hkept : sh.poisonWait groups = sh := by simp only [Sheaf.poisonWait, hwait]
      exact (State.setSheaf_sheaf? ..).trans (congrArg some hkept)
    · exact (State.setSheaf_sheaf?_ne s _ hy).trans h
  next => exact h

theorem State.poisonBy_sheaf? {s : State} {sid : Nat} {sh : Sheaf} (h : s.sheaf? sid = some sh) (hwait : sh.wait = none) (x : Sheaf) :
    (s.poisonBy x).sheaf? sid = some sh := by
  unfold State.poisonBy
  split
  · exact h
  · exact State.forEach_keeps (fun t => t.sheaf? sid = some sh) _ _ (fun t y ht => State.modSheaf_poisonWait_sheaf? ht hwait y _) h

/-- A sheaf's ending fault: no lane of it is live any more, and it holds no handler status (R18, R334). -/
structure Sheaf.AllFaulted (sh sh' : Sheaf) : Prop where
  state   : sh'.state = .faulted
  live    : sh'.live = 0
  exited  : sh'.exited = sh.exited
  faulted : sh'.faulted = sh.faulted ||| sh.live
  handler : sh'.handler = none

/-- No lane is live once the live ones have FAULTED (R18). -/
theorem not_live_of_faulted (exited faulted : Mask) : ~~~(exited ||| (faulted ||| ~~~(exited ||| faulted))) = 0#32 := by
  ext i hi
  simp only [BitVec.getElem_not, BitVec.getElem_or, BitVec.getElem_zero]
  cases exited[i] <;> cases faulted[i] <;> rfl

/-- Every live lane of a sheaf that is not over FAULTS (R18, R33). -/
theorem State.faultSheaf_sheaf? {s : State} {sid : Nat} {sh : Sheaf} (h : s.sheaf? sid = some sh) (hexited : sh.state ≠ .exited)
    (hfaulted : sh.state ≠ .faulted) : ∃ sh', (s.faultSheaf sid).sheaf? sid = some sh' ∧ sh.AllFaulted sh' := by
  have hall : allLanes &&& sh.live = sh.live := BitVec.allOnes_and
  have hnone : ∀ saved, ({ sh with faulted := sh.faulted ||| sh.live, handler := saved } : Sheaf).live = 0 := fun _ =>
    not_live_of_faulted sh.exited sh.faulted
  have hover : (sh.state == .exited || sh.state == .faulted) = false := by simp [hexited, hfaulted]
  simp only [State.faultSheaf, State.faultLanes, h, hover, hall, hnone, bne_self_eq_false, Bool.false_eq_true, if_false]
  exact ⟨_, State.poisonBy_sheaf? (State.setSheaf_sheaf? ..) rfl _, rfl, hnone none, rfl, rfl, rfl⟩

/-- An ending fault's record does not hold the end of its sheaf up (R334). -/
theorem State.endSheaf_sheaf? {s : State} {sid : Nat} {sh : Sheaf} (h : s.sheaf? sid = some sh) (hexited : sh.state ≠ .exited)
    (hfaulted : sh.state ≠ .faulted) (slot : Slot) (f : SysFault) : ∃ sh', (s.endSheaf sid slot f).sheaf? sid = some sh' ∧ sh.AllFaulted sh' :=
  State.faultSheaf_sheaf? ((congrArg (fun m => Map.find? m sid) (s.postSheafFault_sheaves sid slot f .info)).trans h) hexited hfaulted

end Sys2Proof.Machine

open Sys2Proof Sys2Proof.Machine

/-- Settles O7: at reset no byte is listed and no sector has a key. -/
theorem resetMeetsTheInvariant : Obligations.ResetMeetsTheInvariant := ⟨memWf_reset, fun _ => rfl⟩

/-- Settles O55: such an address is neither memory nor in the control space of a slice. -/
theorem unmappedAccessesStop : Obligations.UnmappedAccessesStop := by
  unfold Obligations.UnmappedAccessesStop HoleFaults
  intro acc s part howner hmem hhole
  show execServiceCoreAccess acc s = _
  simp only [execServiceCoreAccess, howner]
  exact if_pos ⟨hmem, hhole⟩

/-- Settles O45: a second cause, or one that nothing handles, is an ending fault of its sheaf. -/
theorem doubleTrapsEndTheSheaf : Obligations.DoubleTrapsEndTheSheaf := by
  unfold Obligations.DoubleTrapsEndTheSheaf
  intro s slot t sh h hexited hfaulted hends
  have hfault : ∃ f, s.trap slot t = s.endSheaf slot.sid slot f := by
    unfold State.trap State.doubleTrap
    simp only [h]
    by_cases hhandler : sh.handler.isSome = true
    · exact ⟨_, if_pos hhandler⟩
    · have hentry : s.trapEntryOf sh = 0 := hends.resolve_left hhandler
      simp only [hhandler, hentry, beq_self_eq_true, Bool.false_eq_true, if_false, if_true]
      exact ⟨_, rfl⟩
  obtain ⟨f, hf⟩ := hfault
  rw [hf]
  obtain ⟨sh', hthere, hstate, hlive, hex, hfa, hhandler⟩ := State.endSheaf_sheaf? h hexited hfaulted slot f
  exact ⟨sh', hthere, hstate, hlive, hex, hfa, hhandler⟩

end

/-! PROOFS. Marks, trace and clock (R322 to R326): each instruction issues with the body that its table describes. -/
section
namespace Sys2Proof.Machine

/-- Where a sheaf has no matrix operation pending, none completes (R193). -/
theorem State.drainMatrix_none {s : State} {sid : Nat} {sh : Sheaf} (hs : s.sheaf? sid = some sh) (h : sh.mops = []) : s.drainMatrix sid = s := by
  unfold State.drainMatrix
  simp only [hs, h, List.filter_nil, List.foldl_nil]

section
variable {s : State} {sid : Nat} {sh : Sheaf} (hs : s.sheaf? sid = some sh) (hpend : sh.pend = []) (hmops : sh.mops = [])
include hs hpend hmops

/-- With nothing in flight, what MKGET names is up to date (R324). -/
theorem State.readyMark_none (sel : Nat) : s.readyMark sid sh sel = s := by
  unfold State.readyMark
  split
  · exact State.forceResults_none hs hpend _
  · exact State.drainMatrix_none hs hmops
  · rfl

/-- MKGET writes what its selector names, or is ILLEGAL (R324). -/
theorem mkgetOp_body {slot : Slot} (hsid : slot.sid = sid) (b : Nat) : (mkgetOp b slot).body slot sh s =
    match s.markAnswer? sh (sh.readUB b).toNat with
    | some v => .ofSheaf slot s (sh.writeUB b (BitVec.ofNat 32 v) 0)
    | none => .trap (illegalWord slot) s := by
  subst hsid
  simp only [mkgetOp, State.readyMark_none hs hpend hmops, hs] <;> rfl

/-- CLKRD reads the clock of the sheaf's package (R326). -/
theorem clkrdOp_body {slot : Slot} (hsid : slot.sid = sid) (hissuing : sh.issuing = true) (b : Nat) : (clkrdOp b slot).body slot sh s =
    .next ((s.readClk (packageOf (sliceOf sh.core))).2.setSheaf slot.sid (sh.writePairB b (s.readClk (packageOf (sliceOf sh.core))).1 0)) := by
  subst hsid
  simp only [clkrdOp, State.drainMatrix_none hs hmops, State.forceResults_none hs hpend, hs, hissuing, Bool.not_true, Bool.false_eq_true, if_false]

end

theorem mark_acts {i : Instr} {r : ActRule} {s : State} {sh : Sheaf} (hrule : markRule i = some r) (hwf : i.wf = true) (hr : Ready s sh) :
    ∃ f op, Acts i r f op s sh := by
  have hthere : (s.begun sh).sheaf? s.slot.sid = some sh.begun := State.setSheaf_sheaf? ..
  unfold markRule at hrule
  split at hrule <;> cases hrule
  case h_1 g n m b =>
    refine ⟨_, _, rfl, hwf, rfl, rfl, fun _ => rfl, rfl, rfl, rfl, rfl, rfl, rfl, fun _ h => ?_⟩
    cases h
    rfl
  case h_2 g n b =>
    obtain ⟨hg, hb⟩ := Bool.and_eq_true_iff.mp hwf
    refine ⟨_, _, rfl, hg, rfl, rfl, fun _ => rfl, rfl, rfl, rfl, hb, rfl, rfl, fun _ h => ?_⟩
    cases h
    rw [mkgetOp_body hthere hr.nopend hr.nomops (State.here_sid ..)]
    rfl
  case h_3 g n b =>
    obtain ⟨hg, hb⟩ := Bool.and_eq_true_iff.mp hwf
    refine ⟨_, _, rfl, hg, rfl, rfl, fun h => absurd h Bool.false_ne_true, rfl, rfl, rfl, hb, rfl, rfl, fun _ h => ?_⟩
    cases h
    simp only [trmarkOp, operandMark_uniform _ (le_of_isU hb), beq_iff_eq]
    rfl
  case h_4 g n b =>
    obtain ⟨hg, hb⟩ := Bool.and_eq_true_iff.mp hwf
    refine ⟨_, _, rfl, hg, rfl, rfl, fun _ => rfl, rfl, rfl, rfl, hb, rfl, rfl, fun _ h => ?_⟩
    cases h
    rw [clkrdOp_body hthere hr.nopend hr.nomops (State.here_sid ..) hr.issuing]
    rfl

end Sys2Proof.Machine

open Sys2Proof Sys2Proof.Machine

/-- Settles O39: nothing of the sheaf being in flight, MKGET and CLKRD read what stands. -/
theorem markInstructions : Obligations.MarkInstructions := actRules_of_acts fun _ _ _ _ hrule hwf hr _ => mark_acts hrule hwf hr

end

/-! PROOFS. The happenings of queues and their packets (R255 to R265): each makes the state that the table of happenings says. -/
section
namespace Sys2Proof.Machine

/-! ## Entries -/

theorem State.modSlice_modSlice (s : State) (sl : Nat) (f g : Slice → Slice) : (s.modSlice sl f).modSlice sl g = s.modSlice sl (fun x => g (f x)) := by
  simp only [State.modSlice, State.setSlice, State.slice, Map.getD_put_self, Map.put_put]

/-- Two changes of an entry are one. -/
theorem State.modQueue_modQueue (s : State) (slice entry : Nat) (f g : QueueEntry → QueueEntry) :
    (s.modQueue slice entry f).modQueue slice entry g = s.modQueue slice entry (fun q => g (f q)) := by
  simp only [State.modQueue, State.modSlice_modSlice, Map.getD_put_self, Map.put_put]

theorem State.modQueue_queue (s : State) (slice entry : Nat) (f : QueueEntry → QueueEntry) :
    (s.modQueue slice entry f).queue slice entry = f (s.queue slice entry) := by
  simp only [State.queue, State.modQueue, State.modSlice, State.setSlice, State.slice, Map.getD_put_self]

/-- The queue taken last is no part of an entry. -/
theorem State.modSlice_lastTaken_queue (s : State) (slice entry e : Nat) :
    (s.modSlice slice (fun x => { x with lastTaken := e })).queue slice entry = s.queue slice entry := by
  simp only [State.queue, State.modSlice, State.setSlice, State.slice, Map.getD_put_self]

/-! ## Registration and destruction (R256) -/

/-- A refused command is answered in RESULT and counts in REFUSED (R256, R304). -/
theorem State.answerQueue_refused (s : State) (slice entry : Nat) :
    (s.modQueue slice entry (fun q => { q with cmd := 0 })).answerQueue slice entry 1 =
      (s.modQueue slice entry (fun q => { q with cmd := 0, result := 1 })).refuse slice (0x01000024 + 64 * entry) := by
  have hoffset : queueCmdOffset entry = 0x01000024 + 64 * entry := by
    unfold queueCmdOffset
    omega
  simp only [State.answerQueue, State.modQueue_modQueue, hoffset]
  rfl

/-- REGISTER is taken where no access of the entry is open (R256). -/
theorem State.registerQueue_of_cmd {s : State} {slice entry part : Nat} (howner : (s.slice slice).owner = some part)
    (haccess : (s.queue slice entry).access = none) (hcmd : (s.queue slice entry).cmd = 1) : s.registerQueue slice entry =
      if (s.queue slice entry).state = 0 ∧ (s.queue slice entry).fieldsOk = true ∧ (s.ctx part (s.queue slice entry).ctx).state.mayQueue = true then
        (s.modQueue slice entry (fun q => { q with cmd := 0, part := part })).openQueue slice entry
      else (s.modQueue slice entry (fun q => { q with cmd := 0, result := 1 })).refuse slice (0x01000024 + 64 * entry) := by
  simp only [State.registerQueue, haccess, howner, hcmd, State.answerQueue_refused, Bool.and_eq_true, beq_iff_eq, and_assoc, true_and]
  rfl

/-- DESTROY is taken once an earlier REGISTER has been answered (R256, R265). -/
theorem State.destroyQueue_of_cmd {s : State} {slice entry : Nat} (hcmd : (s.queue slice entry).cmd = 2)
    (haccess : (s.queue slice entry).access.any (fun a => a.2 == .register) = false) : s.destroyQueue slice entry =
      if (s.queue slice entry).state = 1 ∨ (s.queue slice entry).state = 2 then
        ((s.modQueue slice entry (fun q => { q with cmd := 0, result := 0, state := 3, headerDue := true })).writeHeader slice entry).abandonHead slice entry
      else (s.modQueue slice entry (fun q => { q with cmd := 0, result := 1 })).refuse slice (0x01000024 + 64 * entry) := by
  have hoffset : queueCmdOffset entry = 0x01000024 + 64 * entry := by
    unfold queueCmdOffset
    omega
  simp only [State.destroyQueue, hcmd, haccess, hoffset, bne_self_eq_false, Bool.or_self, Bool.false_eq_true, if_false, Bool.or_eq_true, beq_iff_eq]

/-! ## The write index and the fetch (R258, R259, R261) -/

/-- A wake that can read header line 0 judges what it reads (R258, R259). -/
theorem State.wakeQueue_of_read {s t : State} {slice entry : Nat} {bs : List Byte} {khs : List Nat} (hstate : (s.queue slice entry).state = 1)
    (haccess : (s.queue slice entry).access = none)
    (hread : s.unitBytes slice (s.queue slice entry).part (s.queue slice entry).ctx none false (s.queue slice entry).hdr 128 = (.ok bs khs, t)) :
    s.wakeQueue slice entry =
      let q := s.queue slice entry
      let u := t.modQueue slice entry (fun q => { q with wridx := natAt bs 0 8, watch := t.headerHome? slice entry })
      if indexOk (natAt bs 0 8) q.rdidx q.log2n = true ∧ zeroAt bs 8 120 = true then u
      else (u.queueError slice entry qIndex q.rdidx true).writeHeader slice entry := by
  simp only [State.wakeQueue, hstate, haccess, State.readLine0, hread, UnitRead.strict, State.onRead, bne_self_eq_false, Option.isSome_none,
    Bool.or_self, Bool.false_eq_true, if_false, line0Ok, Bool.and_eq_true]

/-- The address of a packet's slot (R255). -/
theorem QueueEntry.slotAddr_eq (q : QueueEntry) (i : Nat) : q.slotAddr i = q.ring + BitVec.ofNat 64 (64 * (i % 2 ^ q.log2n)) :=
  congrArg (q.ring + ·) (BitVec.ofInt_natCast ..)

/-- Which error a KERNEL packet stands at (R260). -/
theorem kernelPacketError?_getD (bs : List Byte) (records : Nat) : (kernelPacketError? bs records).getD 0 =
    if gridOk bs = false then errGrid else if kernelPacketOk bs records = false then errPacket else 0 := by
  unfold kernelPacketError?
  cases gridOk bs <;> cases kernelPacketOk bs records <;> rfl

/-- A KERNEL packet that has not started starts (R234, R260). -/
theorem State.beginKernel_of_not_started {s : State} {slice entry : Nat} (h : (s.queue slice entry).started = false) (p : Packet) :
    s.beginKernel slice entry p = s.kernelStarts slice entry p := by
  simp only [State.beginKernel, h, Bool.false_eq_true, if_false, kernelPacketError?_getD]
  rfl

/-- A fetch that can read its packet takes it where it may start (R258, R261). -/
theorem State.fetchPacket_of_read {s t : State} {slice entry : Nat} {bs : List Byte} {khs : List Nat} (hstate : (s.queue slice entry).state = 1)
    (haccess : (s.queue slice entry).access = none) (hhead : (s.queue slice entry).head = none)
    (hactive : s.ctxActive (s.queue slice entry).part (s.queue slice entry).ctx = true) (hindex : (s.queue slice entry).rdidx < (s.queue slice entry).wridx)
    (hread : s.unitBytes slice (s.queue slice entry).part (s.queue slice entry).ctx none false
      ((s.queue slice entry).ring + BitVec.ofNat 64 (64 * ((s.queue slice entry).rdidx % 2 ^ (s.queue slice entry).log2n))) 64 = (.ok bs khs, t)) :
    s.fetchPacket slice entry =
      let p : Packet := { index := (t.queue slice entry).rdidx, bytes := bs }
      let u := (t.modQueue slice entry (fun q => { q with head := some p, started := false, rdidx := q.rdidx + 1, headerDue := true })).modSlice slice
        (fun x => { x with lastTaken := entry })
      if t.mayStart slice entry bs then (if packetType bs = 1 then u.kernelStarts slice entry p else u).writeHeader slice entry else t := by
  have hmay : s.mayFetch slice entry = true := by
    simp only [State.mayFetch, hstate, haccess, hhead, hactive, hindex, beq_self_eq_true, Option.isNone_none, decide_true, Bool.and_self]
  simp only [State.fetchPacket, hmay, State.readPacket, QueueEntry.slotAddr_eq, hread, UnitRead.strict, State.onRead, Bool.not_true, Bool.false_eq_true,
    if_false, beq_iff_eq]
  rw [State.beginKernel_of_not_started]
  exact (congrArg QueueEntry.started (State.modSlice_lastTaken_queue ..)).trans (congrArg QueueEntry.started (State.modQueue_queue t slice entry _))

/-! ## The packet at the head (R260, R261) -/

/-- The head packet that a happening is due for. -/
structure AtHead (s : State) (slice entry type : Nat) (p : Packet) : Prop where
  head   : (s.queue slice entry).head = some p
  ofType : packetType p.bytes = type
  access : (s.queue slice entry).access = none
  stays  : (s.queue slice entry).state ≠ 3 ∨ p.waits = false
  sound  : type = 1 ∨ otherPacketOk p.bytes = true

theorem atHead_of_headOf {s : State} {slice entry type : Nat} {p : Packet} (h : headOf s slice entry type = some p) : AtHead s slice entry type p := by
  obtain ⟨x, hx, h⟩ := Option.bind_eq_some_iff.mp h
  obtain ⟨⟨htype, haccess, hstays, hsound⟩, h⟩ := Option.ite_none_right_eq_some.mp h
  cases h
  exact ⟨hx, htype, haccess, hstays, hsound⟩

/-- Such a packet acts. -/
theorem AtHead.withHead {s : State} {slice entry type : Nat} {p : Packet} (h : AtHead s slice entry type p) (f : Packet → State → State) :
    s.withHead slice entry type f = f p s := by
  obtain ⟨hhead, htype, haccess, hstays, hsound⟩ := h
  have hgo : ((s.queue slice entry).state == 3 && p.waits) = false := by
    rcases hstays with h | h <;> simp [h]
  have hok : (type == 1 || otherPacketOk p.bytes) = true := by
    rcases hsound with h | h <;> simp [h]
  simp only [State.withHead, hhead, htype, haccess, hgo, hok, bne_self_eq_false, Option.isSome_none, Bool.or_self, Bool.false_eq_true, if_false, if_true]

theorem State.sendSignal_of_atHead {s : State} {slice entry : Nat} {p : Packet} (h : AtHead s slice entry 4 p) : s.sendSignal slice entry =
    State.onWrite (s.unitWrite slice (s.queue slice entry).part (s.queue slice entry).ctx none (addrAt p.bytes 8) 8 (natAt p.bytes 4 4 != 0) (fun old =>
        leBytes 8 (if natAt p.bytes 4 4 = 0 then natAt p.bytes 0x10 8 else (natAt old 0 8 + natAt p.bytes 0x10 8) % 2 ^ 64)))
      slice entry .target (fun s => s.headDone slice entry) := by
  simp only [State.sendSignal, h.withHead, beq_iff_eq]
  rfl

theorem State.takeHold_of_atHead {s : State} {slice entry : Nat} {p : Packet} (h : AtHead s slice entry 5 p) : s.takeHold slice entry =
    let q := s.queue slice entry
    let id := natAt p.bytes 4 4
    let n := (s.ctx q.part q.ctx).holds.getD id 0
    if n = 0 then s.modQueue slice entry (fun q => { q with started := true })
    else (s.modCtx q.part q.ctx (fun x => { x with holds := x.holds.put id (n - 1) })).headDone slice entry := by
  simp only [State.takeHold, h.withHead, beq_iff_eq]
  rfl

theorem execPacketNop_of_atHead {s : State} {slice entry : Nat} {p : Packet} (h : AtHead s slice entry 7 p) :
    execPacketNop slice entry s = .next ((s.headDone slice entry).badHead slice entry).settle := by
  simp only [execPacketNop, h.withHead]
  rfl

/-- A wait that stands at the head is evaluated again, whichever of the two it is (R261). -/
theorem execWaitReevaluate_all {s : State} {slice entry : Nat} {p : Packet} (h : AtHead s slice entry 2 p) :
    execWaitReevaluate slice entry s = .next (s.evaluateWait slice entry p true).settle := by
  simp only [execWaitReevaluate, h.withHead, h.head, h.ofType, Option.map_some, beq_self_eq_true, if_true]

theorem execWaitReevaluate_any {s : State} {slice entry : Nat} {p : Packet} (h : AtHead s slice entry 3 p) :
    execWaitReevaluate slice entry s = .next (s.evaluateWait slice entry p false).settle := by
  simp only [execWaitReevaluate, h.withHead, h.head, h.ofType, Option.map_some]
  rfl

end Sys2Proof.Machine

open Sys2Proof Sys2Proof.Machine

/-- Settles O51, happening by happening: what the launch unit reads, and the packet at the head, act as the table says. -/
theorem queueHappenings : Obligations.QueueHappenings := by
  unfold Obligations.QueueHappenings
  intro i f s t hi hf
  unfold queueHappening at hi
  split at hi <;> cases hi
  case h_1 slice entry =>
    obtain ⟨part, howner, hf⟩ := Option.bind_eq_some_iff.mp hf
    obtain ⟨⟨haccess, hcmd⟩, hf⟩ := Option.ite_none_right_eq_some.mp hf
    cases hf
    exact congrArg (fun t => Host.Outcome.next (State.settle t)) (State.registerQueue_of_cmd howner haccess hcmd)
  case h_2 slice entry =>
    obtain ⟨⟨hcmd, haccess⟩, rfl⟩ := due_eq_some.mp hf
    exact congrArg (fun t => Host.Outcome.next (State.settle t)) (State.destroyQueue_of_cmd hcmd haccess)
  case h_3 slice entry =>
    obtain ⟨⟨hstate, haccess⟩, hf⟩ := Option.ite_none_right_eq_some.mp hf
    split at hf
    next bs khs u hread =>
      show Host.Outcome.next (s.wakeQueue slice entry).settle = _
      rw [State.wakeQueue_of_read hstate haccess hread]
      exact congrArg Host.Outcome.next (Option.some.inj hf)
    next => cases hf
  case h_4 slice entry =>
    obtain ⟨⟨hstate, haccess, hhead, hactive, hindex⟩, hf⟩ := Option.ite_none_right_eq_some.mp hf
    split at hf
    next bs khs u hread =>
      show Host.Outcome.next (s.fetchPacket slice entry).settle = _
      rw [State.fetchPacket_of_read hstate haccess hhead hactive hindex hread]
      exact congrArg Host.Outcome.next ((apply_ite State.settle ..).trans (Option.some.inj hf))
    next => cases hf
  case h_5 slice entry =>
    obtain ⟨p, hp, hf⟩ := Option.bind_eq_some_iff.mp hf
    obtain ⟨hstarted, rfl⟩ := due_eq_some.mp hf
    exact congrArg (fun t => Host.Outcome.next (State.settle t))
      (((atHead_of_headOf hp).withHead _).trans (State.beginKernel_of_not_started hstarted p))
  case h_6 slice entry =>
    obtain ⟨p, hp, rfl⟩ := Option.map_eq_some_iff.mp hf
    exact congrArg (fun t => Host.Outcome.next (State.settle t)) ((atHead_of_headOf hp).withHead _)
  case h_7 slice entry =>
    obtain ⟨p, hp, rfl⟩ := Option.map_eq_some_iff.mp hf
    exact congrArg (fun t => Host.Outcome.next (State.settle t)) ((atHead_of_headOf hp).withHead _)
  case h_8 slice entry =>
    obtain ⟨p, hp, rfl⟩ := Option.map_eq_some_iff.mp hf
    exact congrArg (fun t => Host.Outcome.next (State.settle t)) (State.sendSignal_of_atHead (atHead_of_headOf hp))
  case h_9 slice entry =>
    obtain ⟨p, hp, rfl⟩ := Option.map_eq_some_iff.mp hf
    exact congrArg (fun t => Host.Outcome.next (State.settle t)) (State.takeHold_of_atHead (atHead_of_headOf hp))
  case h_10 slice entry =>
    obtain ⟨p, hp, rfl⟩ := Option.map_eq_some_iff.mp hf
    exact congrArg (fun t => Host.Outcome.next (State.settle t)) ((atHead_of_headOf hp).withHead _)
  case h_11 slice entry =>
    obtain ⟨p, hp, rfl⟩ := Option.map_eq_some_iff.mp hf
    exact execPacketNop_of_atHead (atHead_of_headOf hp)
  case h_12 slice entry =>
    dsimp only at hf
    split at hf
    next p hp => exact (execWaitReevaluate_all (atHead_of_headOf hp)).trans (congrArg Host.Outcome.next (Option.some.inj hf))
    next p _ hp => exact (execWaitReevaluate_any (atHead_of_headOf hp)).trans (congrArg Host.Outcome.next (Option.some.inj hf))
    next => cases hf

end

/-! PROOFS. The happenings of partitions, contexts and key slots (R299 to R317, R338, R357, R394): each makes the state that the table of happenings
says. -/
section
namespace Sys2Proof.Machine

/-! ## Requests and their answers (R301, R305) -/

theorem State.modPart_of_part? {s : State} {part : Nat} {p : Partition} (h : s.part? part = some p) (f : Partition → Partition) :
    s.modPart part f = s.setPart part (f p) := by
  unfold State.modPart
  rw [h]

/-- The mailbox's answer (R301, R305). -/
theorem State.answerMail_eq_mailed (s : State) (part code : Nat) : s.answerMail part code = s.mailed part code := by
  unfold State.answerMail State.mailed State.modPart
  cases s.part? part <;> rfl

/-- What a partition in some state does where the table speaks of it (R306). -/
theorem State.inPartState_of_inState {s t : State} {part : Nat} {x : PartState} {f g : Partition → State} (h : inState s part x f = some t)
    (hfg : ∀ p, s.part? part = some p → f p = g p) : s.inPartState part x g = t := by
  obtain ⟨p, hp, h⟩ := Option.bind_eq_some_iff.mp h
  obtain ⟨hx, h⟩ := Option.ite_none_right_eq_some.mp h
  simp only [State.inPartState, hp, hx, beq_self_eq_true, if_true]
  exact (hfg p hp).symm.trans (Option.some.inj h)

theorem State.inPartState_settle_of_inState {s t : State} {part : Nat} {x : PartState} {f g : Partition → State} (h : inState s part x f = some t)
    (hfg : ∀ p, s.part? part = some p → f p = (g p).settle) : (s.inPartState part x g).settle = t := by
  obtain ⟨p, hp, h⟩ := Option.bind_eq_some_iff.mp h
  obtain ⟨hx, h⟩ := Option.ite_none_right_eq_some.mp h
  simp only [State.inPartState, hp, hx, beq_self_eq_true, if_true]
  exact (hfg p hp).symm.trans (Option.some.inj h)

/-! ## Formation and boot (R306, R357) -/

theorem extendAt_eq_measures (p : Partition) (i : Nat) (bs : List Byte) : { p with ms := extendAt p.ms i (digestOf bs) } = p.measures i bs := by
  simp only [extendAt, Partition.measures, beq_iff_eq]
  rfl

/-- The images of a partition kernel are measured into MS9 and MS10 (R357). -/
theorem State.fetchKernel_eq (s : State) (part : Nat) (image args : List Byte) (p : Partition) : s.fetchKernel part image args p =
    (s.setPart part { (p.measures 1 image).measures 2 args with fetched := true }).forEach p.slices (fun s x =>
      s.modSlice x (fun y => { y with offline := false })) := by
  rw [← extendAt_eq_measures, ← extendAt_eq_measures]
  rfl

/-! ## Resizing and lending (R305, R307, R310) -/

/-- ADD is taken where the layout allows the slice (R299, R305). -/
theorem State.addSlice_eq (s : State) (part slice : Nat) (p : Partition) : s.addSlice part slice p =
    let pkg := packageOf slice
    let slices := ((slice :: p.slices).foldl (fun (m : Map Unit) x => m.put x ()) []).keys
    match (match p.memBase.find? pkg with | some b => some b | none => s.newBase? part pkg) with
    | some b =>
      if s.sliceFree slice = true ∧ layoutOk slices = true ∧ s.windowFree part pkg b (slices.filter (fun x => packageOf x == pkg)).length = true then
        s.setPart part { p with state := .resizing, request := some (.add slice) }
      else s.mailed part 1
    | none => s.mailed part 1 := by
  simp only [State.addSlice, State.addBase?, Partition.withSlice, State.answerMail_eq_mailed, mailLayout]
  have hfits : ∀ (b : Nat) (ok : Nat → Bool) (x y : State), (match Option.filter ok (some b) with | some _ => x | none => y) = if ok b = true then x else y :=
    fun b ok x y => by cases h : ok b <;> simp [Option.filter_some, h]
  cases hbase : p.memBase.find? (packageOf slice) with
  | some b => exact (hfits b _ _ _).trans (by simp only [Bool.and_eq_true, and_assoc])
  | none =>
    cases hnew : s.newBase? part (packageOf slice) with
    | some b => exact (hfits b _ _ _).trans (by simp only [Bool.and_eq_true, and_assoc])
    | none => rfl

/-- REMOVE is taken where the layout allows the slice to leave and nothing on it is busy (R305, R307). -/
theorem State.removeSlice_eq (s : State) (part slice : Nat) (p : Partition) : s.removeSlice part slice p =
    let rest := p.slices.filter (fun x => x != slice)
    let busy := (s.slice slice).offline = false ∧ Config.freeNat s.freeCount % 2 = 0
    let t := if (s.slice slice).offline then s else { s with freeCount := s.freeCount + 1 }
    if !p.slices.contains slice || rest.isEmpty || (s.slice slice).borrower.isSome || !layoutOk rest then s.mailed part 1
    else if (s.queueOn slice = true ∧ (s.slice slice).lost = false) ∨ busy then t.mailed part 2
    else (t.setPart part { p with state := .resizing, request := some (.remove slice) }).modSlice slice (fun x =>
      { x with draining := true, offline := true }) := by
  simp only [State.removeSlice, State.answerMail_eq_mailed, mailLayout, mailBusy, State.choose]
  cases (s.slice slice).offline <;> simp

/-- DRAINMAX passes for the slice that a REMOVE takes (R307). -/
theorem State.expireDrain_of_remove {s : State} {part slice : Nat} {p : Partition} (hp : s.part? part = some p) (hr : p.request = some (.remove slice)) :
    s.expireDrain part = s.forEach (s.tufts.filter (fun e => e.2.resident && sliceOf e.2.core == slice)) (fun s e => s.evictTuft e.1) := by
  simp only [State.expireDrain, hp, Option.bind_some, hr]

theorem State.lendOk_eq_lendable (s : State) (part slice borrower deadline : Nat) (p : Partition) :
    s.lendOk part slice borrower deadline p = lendable s part slice borrower deadline p := by
  simp only [State.lendOk, lendable, Bool.decide_and, Bool.and_assoc]

theorem State.lendSlice_eq (s : State) (part slice borrower deadline : Nat) (p : Partition) : s.lendSlice part slice borrower deadline p =
    if lendable s part slice borrower deadline p = false then s.mailed part 1
    else if s.sliceEmpty slice = false ∨ s.queueOn slice = true then s.mailed part 2
    else s.setPart part { p with state := .lending, request := some (.lend slice borrower deadline) } := by
  simp only [State.lendSlice, State.lendOk_eq_lendable, State.answerMail_eq_mailed, mailLayout, mailBusy, Bool.not_eq_true', Bool.or_eq_true]

/-! ## Recall (R311) -/

theorem State.recallSlice_eq (s : State) (part slice : Nat) (p : Partition) : s.recallSlice part slice p =
    if p.slices.contains slice = false ∨ (s.slice slice).borrower = none then s.mailed part 1
    else (s.setPart part { p with state := .recalling, request := some (.recall slice) }).beginRecall slice := by
  simp only [State.recallSlice, State.answerMail_eq_mailed, mailLayout, Bool.or_eq_true, Bool.not_eq_true', Option.isNone_iff_eq_none]

/-- A slice's write-out is the last step of its recall (R306, R311). -/
theorem State.writeOut_of_due {s : State} {slice part : Nat} (howner : (s.slice slice).owner = some part) (hdue : s.writesOut slice = true) :
    s.writeOut slice =
      let t := (s.forEach (s.parkedOn slice) (fun s e => (s.saveTuft e.1 true).judgeKernel e.2.kid)).scrubBack slice
      match t.part? part with
      | some q => if q.request = some (PartRequest.recall slice) then (t.setPart part { q with state := .running, request := none }).mailed part 0 else t
      | none => t := by
  simp only [State.writeOut, hdue, howner, Option.bind_some, Option.getD_some, Bool.not_true, Bool.false_eq_true, if_false, beq_iff_eq]
  split
  next q hq => simp only [State.refuseRequest, State.answerMail_eq_mailed, State.modPart_of_part? hq, hq]
  next hq => simp only [hq]

/-! ## Errors (R338, R394) -/

/-- The steps of a bring-up that a failing one leaves done (R394). -/
theorem stepsDone_eq (fails : Nat) : stepsDone fails = if 1 ≤ fails ∧ fails ≤ 5 then fails - 1 else 5 := rfl

theorem execPackageReset_eq (pkg : Nat) (s : State) : execPackageReset pkg s =
    let t := s.forEach (s.partsIn pkg) (fun s part => s.leavePackage pkg part)
    let u := t.forEach ((List.range 8).map (fun i => 8 * pkg + i)) (fun s x => if (s.slice x).borrower.isSome then s.loseSlice x else s)
    let fails := Config.bringUpFails u.freeCount
    .next (if 1 ≤ fails ∧ fails ≤ 5 then (u.wipePackage pkg (fails - 1)).reports pkg 0x104 (leBytes 1 fails) else u.wipePackage pkg 5).settle := by
  have hslices : packageSlices pkg = (List.range 8).map (fun i => 8 * pkg + i) := rfl
  simp only [execPackageReset, stepsDone_eq, hslices]
  split
  next h =>
    have hlt : ∀ n, 1 ≤ n ∧ n ≤ 5 → n - 1 < 5 ∧ n - 1 + 1 = n := by omega
    rw [if_pos (hlt _ h).1, (hlt _ h).2]
    rfl
  next => rfl

/-! ## Context commands (R313, R314) -/

/-- A context command where the table speaks of it: taken, refused, or kept back by a DESTROY in progress (R313, R314). -/
theorem State.ctxCommand_of_taken {s t : State} {part ctx : Nat} {allowed : List CtxState} {from_ : CtxState → Bool} {f g : State → State}
    (h : ctxTaken s part ctx allowed f = some t) (hfrom : ∀ x, from_ x = true ↔ x ∈ allowed) (hfg : ∀ s, f s = g s) :
    (s.ctxCommand part ctx from_ g).settle = t := by
  obtain ⟨p, hp, h⟩ := Option.bind_eq_some_iff.mp h
  have hslice : s.firstSlice part = p.slices.headD 0 := by simp only [State.firstSlice, hp]
  have hoffset : ctxCmdOffset ctx = 0x06000018 + 64 * ctx := by
    unfold ctxCmdOffset
    omega
  simp only [State.ctxCommand, hp, Bool.and_eq_true, decide_eq_true_eq, hfrom, hslice, hoffset, ← hfg]
  split at h
  next hending =>
    rw [if_pos hending]
    exact Option.some.inj h
  next hending =>
    rw [if_neg hending]
    split at h
    next htaken =>
      rw [if_pos htaken]
      exact Option.some.inj h
    next htaken =>
      rw [if_neg htaken]
      exact Option.some.inj h

theorem State.resumeKernel_eq (s : State) (kid : Nat) : s.resumeKernel kid = match s.kernel? kid with
    | some k =>
      if k.state = .suspended then s.noteKernel kid (fun k => { k with state := .queued, stage := 0, preempt := false, again := false })
      else if k.state = .draining ∧ k.preempt = true then s.modKernel kid (fun k => { k with again := true })
      else s
    | none => s := by
  simp only [State.resumeKernel, beq_iff_eq, Bool.and_eq_true]
  cases s.kernel? kid <;> rfl

/-! ## Key commands (R315 to R317) -/

theorem slotOfCommand_eq_loadedSlot (c : KeyCommand) (pair : List Byte) : slotOfCommand c pair = loadedSlot c pair := by
  have hdecl : controlDecl c.control = c.control.getLsbD 2 := by
    simp only [controlDecl, field, BitVec.getLsbD, Nat.testBit_eq_decide_div_mod_eq, Nat.pow_one]
    rfl
  have hmark : BitVec.ofNat 2 (controlMark c.control) = c.control.setWidth 2 := by
    apply BitVec.eq_of_toNat_eq
    simp only [controlMark, field, BitVec.toNat_ofNat, BitVec.toNat_setWidth]
    omega
  simp only [slotOfCommand, loadedSlot, hdecl, hmark, controlOwner]

/-- A key command where the table speaks of it: an ERASE in progress keeps it back (R316, R317). -/
theorem State.keyCommand_of_taken {s t : State} {slice : Nat} {f : Nat → State} (h : keyTaken s slice f = some t) :
    ∃ part p, (s.slice slice).owner = some part ∧ s.part? part = some p ∧ s.keyBusy part = p.erasing.isSome ∧
      (if p.erasing.isSome then s.settle else f part) = t := by
  obtain ⟨part, howner, h⟩ := Option.bind_eq_some_iff.mp h
  obtain ⟨p, hp, h⟩ := Option.map_eq_some_iff.mp h
  exact ⟨part, p, howner, hp, by simp only [State.keyBusy, hp], h⟩

/-- A wrapped key's block is read where the command is sound, and its key is put where it opens (R366, R367). -/
theorem State.loadWrapped_eq {s : State} {slice part : Nat} {c : KeyCommand} (howner : (s.slice slice).owner = some part) (hbusy : s.keyBusy part = false) :
    s.loadWrapped slice c =
      let a := natAt c.key 0 8
      if s.loadOk part c = false ∨ (c.key.drop 8).any (fun b => b != 0) = true ∨ a % 64 ≠ 0 ∨ s.kernelFrames part a 256 = false ∨ s.poisoned a 256 = true then
        s.keyResult slice 1
      else match s.unwrap? slice part c (s.viewBytes 0 a 256) with
        | none => s.keyResult slice 2
        | some pair => (s.putKey part c.kh (loadedSlot c pair)).keyResult slice 0 := by
  have hzero : ∀ bs : List Byte, (!allZero bs) = bs.any (fun b => b != 0) := fun bs => by
    simp only [allZero, List.not_all_eq_any_not, bne]
  simp only [State.loadWrapped, howner, hbusy, hzero, slotOfCommand_eq_loadedSlot, Bool.false_eq_true, if_false, Bool.or_eq_true, Bool.not_eq_true',
    bne_iff_ne, or_assoc] <;> rfl

/-- An ERASE begins, and ends where nothing keeps its steps back (R317). -/
theorem State.endErase_of_begun {s : State} {part kh slice : Nat} {p : Partition} (hp : s.part? part = some p) :
    (s.modPart part (fun p => { p with erasing := some (kh, slice) })).endErase part =
      let t := (s.modPart part (fun p => { p with erasing := some (kh, slice) })).sentBefore part
      if t.mayErase part = true then
        (((t.putKey part kh KeySlot.zero).invalidatePart part).modPart part (fun p => { p with erasing := none })).keyResult slice 0
      else t := by
  have herasing : ((s.modPart part (fun p => { p with erasing := some (kh, slice) })).part? part).bind Partition.erasing = some (kh, slice) := by
    rw [State.modPart_of_part? hp]
    exact (congrArg (·.bind Partition.erasing) (Map.find?_put_self ..)).trans rfl
  simp only [State.endErase, herasing]
  rfl

end Sys2Proof.Machine

open Sys2Proof Sys2Proof.Machine

theorem partHappens : Happens partHappening := by
  intro i f s t hi hf
  unfold partHappening at hi
  split at hi <;> cases hi
  case h_1 req => exact congrArg Host.Outcome.next (Option.some.inj hf)
  case h_2 part image args =>
    exact congrArg Host.Outcome.next (State.inPartState_of_inState hf fun p _ => (s.fetchKernel_eq part image args p).symm)
  case h_3 part => exact congrArg Host.Outcome.next (State.inPartState_of_inState hf fun _ _ => rfl)
  case h_4 part => exact congrArg Host.Outcome.next (State.inPartState_of_inState hf fun _ _ => rfl)
  case h_5 part slice => exact congrArg Host.Outcome.next (State.inPartState_of_inState hf fun p _ => (s.addSlice_eq part slice p).symm)
  case h_6 part slice drainMax =>
    exact congrArg Host.Outcome.next (State.inPartState_settle_of_inState hf fun p _ => congrArg State.settle (s.removeSlice_eq part slice p).symm)
  case h_7 part =>
    obtain ⟨p, hp, hf⟩ := Option.bind_eq_some_iff.mp hf
    split at hf
    next slice hr =>
      show Host.Outcome.next (s.expireDrain part).settle = _
      rw [State.expireDrain_of_remove hp hr]
      exact congrArg Host.Outcome.next (Option.some.inj hf)
    next => cases hf
  case h_8 part slice borrower deadline =>
    exact congrArg Host.Outcome.next (State.inPartState_of_inState hf fun p _ => (s.lendSlice_eq part slice borrower deadline p).symm)
  case h_9 part slice =>
    exact congrArg Host.Outcome.next (State.inPartState_settle_of_inState hf fun p _ => congrArg State.settle (s.recallSlice_eq part slice p).symm)
  case h_10 slice =>
    obtain ⟨hrecalled, rfl⟩ := due_eq_some.mp hf
    show Host.Outcome.next (s.recallDeadline slice).settle = _
    simp only [State.recallDeadline, hrecalled, Bool.not_true, Bool.false_eq_true, if_false]
  case h_11 slice =>
    obtain ⟨part, howner, hf⟩ := Option.bind_eq_some_iff.mp hf
    obtain ⟨hdue, rfl⟩ := due_eq_some.mp hf
    exact congrArg (fun t => Host.Outcome.next (State.settle t)) (State.writeOut_of_due howner hdue)
  case h_12 part => exact congrArg Host.Outcome.next (State.inPartState_of_inState hf fun p _ => (State.answerMail_eq_mailed ..).symm)
  case h_13 part =>
    refine congrArg Host.Outcome.next (State.inPartState_of_inState hf fun p _ => ?_)
    simp only [beq_iff_eq, State.answerMail_eq_mailed]
  case h_14 part =>
    refine congrArg Host.Outcome.next (State.inPartState_settle_of_inState hf fun p _ => ?_)
    simp only [beq_iff_eq, State.dissolve]
  case h_15 slice => exact congrArg Host.Outcome.next (Option.some.inj hf)
  case h_16 site =>
    cases site with
    | sector paddr => exact congrArg Host.Outcome.next (Option.some.inj hf)
    | tuft tid =>
      obtain ⟨x, hx, hf⟩ := Option.bind_eq_some_iff.mp hf
      obtain ⟨hresident, rfl⟩ := due_eq_some.mp hf
      show execUncorrectableError (.tuft tid) s = _
      simp only [execUncorrectableError, hx, hresident, if_true]
  case h_17 slice =>
    obtain ⟨_, rfl⟩ := due_eq_some.mp hf
    rfl
  case h_18 pkg => exact (execPackageReset_eq pkg s).trans (congrArg Host.Outcome.next (Option.some.inj hf))

theorem ctxHappens : Happens ctxHappening := by
  intro i f s t hi hf
  unfold ctxHappening at hi
  split at hi <;> cases hi
  case h_1 part ctx => exact congrArg Host.Outcome.next (State.ctxCommand_of_taken hf (by simp) fun _ => rfl)
  case h_2 part ctx => exact congrArg Host.Outcome.next (State.ctxCommand_of_taken hf (by simp) fun _ => rfl)
  case h_3 part ctx save => exact congrArg Host.Outcome.next (State.ctxCommand_of_taken hf (by simp) fun _ => rfl)
  case h_4 part ctx =>
    refine congrArg Host.Outcome.next (State.ctxCommand_of_taken hf (by simp) fun s => ?_)
    simp only [State.resumeKernel_eq]
    rfl
  case h_5 part ctx =>
    exact congrArg Host.Outcome.next (State.ctxCommand_of_taken hf (fun x => by cases x <;> simp [CtxState.standing]) fun _ => rfl)
  case h_6 part ctx =>
    exact congrArg Host.Outcome.next (State.ctxCommand_of_taken hf (fun x => by cases x <;> simp [CtxState.standing]) fun _ => rfl)
  case h_7 slice c =>
    obtain ⟨part, p, howner, hp, hbusy, rfl⟩ := State.keyCommand_of_taken hf
    show Host.Outcome.next (s.loadKey slice c).settle = _
    simp only [State.loadKey, howner, hbusy, slotOfCommand_eq_loadedSlot, keyAnswered, apply_ite State.settle, Bool.and_eq_true, bne_iff_ne, controlMark,
      and_assoc]
  case h_8 slice c =>
    obtain ⟨part, p, howner, hp, hbusy, rfl⟩ := State.keyCommand_of_taken hf
    show Host.Outcome.next (s.loadWrapped slice c).settle = _
    cases herasing : p.erasing.isSome with
    | true => simp only [State.loadWrapped, howner, hbusy, herasing, if_true]
    | false =>
      rw [State.loadWrapped_eq howner (hbusy.trans herasing)]
      simp only [keyAnswered, Bool.false_eq_true, if_false]
      split
      next => rfl
      next => cases s.unwrap? slice part c (s.viewBytes 0 (natAt c.key 0 8) 256) <;> rfl
  case h_9 slice c =>
    obtain ⟨part, p, howner, hp, hbusy, rfl⟩ := State.keyCommand_of_taken hf
    show Host.Outcome.next (s.eraseCommand slice c).settle = _
    simp only [State.eraseCommand, howner, hbusy, State.endErase_of_begun hp, keyAnswered, apply_ite State.settle, Bool.and_eq_true, beq_iff_eq, and_assoc,
      allZero]

/-- Settles O52, happening by happening: the requests of Campion, then the commands of contexts and key slots. -/
theorem partitionHappenings : Obligations.PartitionHappenings := ⟨partHappens, ctxHappens⟩

end

/-! PROOFS. The happenings of ports, power, trace and control space (R302 to R304, R340 to R347, R395 to R403): each makes the state that the table of
happenings says; CAPPED's clock and its CAPMISS. -/
section
namespace Sys2Proof.Machine

/-! ## Port states (R341) -/

theorem State.portBecomes_eq_modPort (s : State) (slice : Nat) (f : Port → Port) : s.portBecomes slice (f (s.slice slice).port) = s.modPort slice f := by
  simp only [State.portBecomes, State.modPort, beq_iff_eq]

/-- A port that the table moves, moves so in the model. -/
theorem State.modPort_of_portFrom {s t : State} {slice : Nat} {l : List PortState} {f g : Port → Port} (h : portFrom s slice l f = some t)
    (hfg : ∀ p : Port, p.state ∈ l → f p = g p) : s.modPort slice g = t := by
  obtain ⟨hl, h⟩ := Option.ite_none_right_eq_some.mp h
  rw [← Option.some.inj h, ← State.portBecomes_eq_modPort, hfg _ hl]

theorem State.modSlice_slice (s : State) (k : Nat) (f : Slice → Slice) : (s.modSlice k f).slice k = f (s.slice k) :=
  congrArg (·.getD Slice.reset) (Map.find?_put_self ..)

theorem State.trace_port (s : State) (slice part cls core slot ctx payload : Nat) (bound : Bool) :
    ((s.trace slice part cls core slot ctx payload bound).slice slice).port = (s.slice slice).port := by
  unfold State.trace
  rw [State.modSlice_slice]
  dsimp only
  split
  · rfl
  · split
    · rfl
    · split <;> rfl

theorem State.modPort_port (s : State) (slice : Nat) (f : Port → Port) : ((s.modPort slice f).slice slice).port = f (s.slice slice).port := by
  unfold State.modPort
  dsimp only
  split
  · rw [State.modSlice_slice]
  · split
    · rw [State.trace_port, State.modSlice_slice]
    · rw [State.modSlice_slice]

theorem Port.carries_iff (p : Port) : p.carries = true ↔ p.state = .up ∨ p.state = .degraded := by
  simp only [Port.carries, Bool.or_eq_true, beq_iff_eq]

/-! ## Keys and epochs (R345) -/

/-- Keying ends (R341, R345) as the table says. -/
theorem State.keyPort_eq {s : State} {slice : Nat} (hk : (s.slice slice).port.state = .keying) :
    s.keyPort slice = s.modPort slice (fun p =>
      if s.portOwned slice = false then { p with state := .fenced }
      else
        let q := if p.secret = s.secretOf slice then p else
          { p with secret := s.secretOf slice, sent := [], seen := p.seen.filter (fun x => (s.trays.find? x.1).isNone) }
        { q with state := if p.txUp = 32 ∧ p.rxUp = 32 then .up else .degraded }) := by
  rw [← State.portBecomes_eq_modPort]
  simp only [State.keyPort, hk, beq_self_eq_true, if_true]
  rw [← State.portBecomes_eq_modPort]
  cases s.portOwned slice with
  | false => simp [Port.keyed, hk]
  | true =>
    by_cases hs : (s.slice slice).port.secret = s.secretOf slice <;>
      simp [State.install, State.forgetTrays, Port.keyed, hk, hs]

/-- A port that reaches 2^63 packet numbers rekeys (R345). -/
theorem execRekey_of_full {s : State} {slice : Nat} (hc : (s.slice slice).port.carries = true) (hn : 2 ^ 63 ≤ (s.slice slice).port.number) :
    let p := (s.slice slice).port
    execRekey slice s =
      .next (((s.portBecomes slice { p with state := .keying, epoch := p.epoch + 1, number := 1 }).forgetSource (sourceId slice)).modPort slice
        s.forgetTrays) := by
  have hrekey : Port.rekey (s.slice slice).port = { (s.slice slice).port with
      state := .keying, epoch := (s.slice slice).port.epoch + 1, number := 1 } := if_pos (by simp only [hc, hn, decide_true, Bool.and_self])
  have hepoch : ((s.modPort slice Port.rekey).slice slice).port.epoch = (s.slice slice).port.epoch + 1 := by
    rw [State.modPort_port, hrekey]
  have hne : ((s.slice slice).port.epoch + 1 == (s.slice slice).port.epoch) = false := by simp
  show execRekey slice s = _
  rw [← hrekey, State.portBecomes_eq_modPort]
  simp only [execRekey, hepoch, hne, Bool.false_eq_true, if_false]

/-! ## Packets (R342 to R346) -/

/-- What a port does with a packet (R346). -/
theorem State.receive_eq (s : State) (slice : Nat) (pkt : LinkPacket) : s.receive slice pkt =
    if s.takes slice pkt = false then s.modSlice slice (fun x => { x with drops := x.drops + 1 })
    else
      let t := s.modSlice slice (fun x => { x with port := x.port.accept pkt.source pkt.number })
      match s.answered? slice pkt with
      | some a => t.emit slice pkt.source a
      | none => match s.trays.find? pkt.source with
        | some (part, ctx) => t.trayPacket slice pkt part ctx
        | none => t.podPacket slice pkt := by
  simp only [State.receive, Bool.not_eq_true'] <;> rfl

/-- A send's timeout (R344). -/
theorem State.timeoutMsg_eq (s : State) (m : Msg) : s.timeoutMsg m =
    if remoteOf (sliceOf m.core) m.paddr = false ∨ (s.heldAtPort m = true ∧ m.tries ≠ 3) then s
    else if m.tries < 2 then (s.setMsg { m with tries := m.tries + 1 }).ask (sliceOf m.core) m.request
    else s.failMsg m := by
  simp only [State.timeoutMsg, Bool.or_eq_true, Bool.not_eq_true', Bool.and_eq_true, bne_iff_ne]
  by_cases h : m.tries < 2
  · simp only [h, Nat.not_le.mpr h, if_true, if_false]
  · simp only [h, Nat.not_lt.mp h, if_true, if_false]

/-! ## Islands (R395, R396) -/

theorem State.modIsland_eq (s : State) (slice n : Nat) (f : Island → Island) : s.modIsland slice n f = s.islandBecomes slice n f := by
  simp only [State.modIsland, State.islandBecomes, beq_iff_eq]

theorem modeClock_eq_clockOf (n mode : Nat) : modeClock n mode = clockOf n mode := by
  cases mode <;> cases n <;> rfl

theorem Island.settleMode_eq_settled (x : Island) (n : Nat) (draw : Nat → Nat) : x.settleMode n draw = settled n x draw := by
  simp only [Island.settleMode, settled, Island.mode, modeClock_eq_clockOf, beq_iff_eq]

theorem Island.throttle_eq (x : Island) (n : Nat) (hot : Bool) (f : Nat) : x.throttle n hot f =
    if hot then { x with therm := true, fclk := min x.fclk f } else if x.therm then settled n { x with therm := false } (drawnWatts n f) else x := by
  simp only [Island.throttle, Island.settleMode_eq_settled]

theorem Island.measure_eq (x : Island) (n watts f : Nat) : x.measure n watts f =
    let y : Island := { x with power := min watts 65535 }
    if field x.ctl.toNat 0 2 = 2 then settled n y (fun g => if g = x.fclk then max watts 6 else drawnWatts n f g) else y := by
  simp only [Island.measure, Island.mode, Island.settleMode_eq_settled, beq_iff_eq]

/-- CAPPED tries exactly the 25 MHz steps from the floor to PEAK's clock (R396). -/
theorem mem_capSteps {n f : Nat} : f ∈ capSteps n ↔
    (if n = 0 then 600 else 800) ≤ f ∧ f ≤ clockOf n 0 ∧ (f - if n = 0 then 600 else 800) % 25 = 0 := by
  simp only [capSteps, List.mem_reverse, List.mem_map, List.mem_range, modeClock_eq_clockOf, floorClock, beq_iff_eq]
  cases n with
  | zero =>
    simp only [if_true, clockOf]
    constructor
    · rintro ⟨i, hi, rfl⟩
      omega
    · exact fun h => ⟨(f - 600) / 25, by omega, by omega⟩
  | succ n =>
    simp only [Nat.succ_ne_zero, if_false, clockOf]
    constructor
    · rintro ⟨i, hi, rfl⟩
      omega
    · exact fun h => ⟨(f - 800) / 25, by omega, by omega⟩

/-- The steps fall, so that the first which keeps within CAP is the highest (R396). -/
theorem capSteps_falling (n : Nat) : (capSteps n).Pairwise (· > ·) := by
  rw [capSteps, List.pairwise_reverse, List.pairwise_map]
  exact List.pairwise_lt_range.imp (by omega)

theorem cappedClocks : CappedClocks := by
  refine ⟨fun n x draw _ => ?_, fun n moment f => ?_⟩
  · unfold Island.capped
    cases h : (capSteps n).find? (fun f => decide (draw f ≤ x.cap)) with
    | none =>
      simp only [List.find?_eq_none, decide_eq_true_eq, Nat.not_le, mem_capSteps] at h
      refine ⟨by simp only [floorClock, beq_iff_eq], h⟩
    | some f =>
      obtain ⟨hf, before, after, hl, hbefore⟩ := List.find?_eq_some_iff_append.mp h
      have hfall := capSteps_falling n
      rw [hl] at hfall
      refine ⟨mem_capSteps.mp (hl ▸ by simp), of_decide_eq_true hf, fun g hg (hfg : f < g) => ?_⟩
      have hmem := hl ▸ mem_capSteps.mpr hg
      rcases List.mem_append.mp hmem with hg | hg
      · have := hbefore g hg
        rwa [Bool.not_eq_true', decide_eq_false_iff_not, Nat.not_le] at this
      · have := (List.pairwise_append.mp hfall).2.1
        rcases List.mem_cons.mp hg with rfl | hg
        · omega
        · have := List.rel_of_pairwise_cons this hg
          omega
  · unfold drawnWatts
    omega

/-! ## Trace and control space (R290, R302 to R304, R397 to R400) -/

theorem State.writePwrctl_eq {s : State} {slice n : Nat} {v : Word} (hn : ¬ 2 ≤ n) : s.writePwrctl slice n v =
    if field v.toNat 2 18 ≠ 0 ∨ field v.toNat 0 2 = 3 ∨ (field v.toNat 0 2 = 2 ∧ field v.toNat 20 12 = 0) then s.refuse slice (0x0A000000 + 0x40 * n)
    else { s with freeCount := s.freeCount + 1 }.islandBecomes slice n (fun x => settled n { x with ctl := v } (drawnWatts n s.freeCount)) := by
  have hlegal : pwrctlLegal v = false ↔
      field v.toNat 2 18 ≠ 0 ∨ field v.toNat 0 2 = 3 ∨ (field v.toNat 0 2 = 2 ∧ field v.toNat 20 12 = 0) := by
    simp only [pwrctlLegal, Bool.and_eq_false_iff, beq_eq_false_iff_ne, bne_eq_false_iff_eq, Bool.not_eq_false', Bool.and_eq_true, beq_iff_eq, or_assoc]
  simp only [State.writePwrctl, hn, if_false, Bool.not_eq_true', hlegal, pwrctlOffset, State.modIsland_eq, Island.settleMode_eq_settled]

theorem State.writeLctl_eq (s : State) (slice : Nat) (v : Word) : s.writeLctl slice v =
    if field v.toNat 24 8 = 0 ∧ field v.toNat 16 8 ≠ 0 ∧ field v.toNat 0 16 ≠ 0 then s.modSlice slice (fun x => { x with port := { x.port with lctl := v } })
    else s.refuse slice 0x08000004 := by
  simp only [State.writeLctl, lctlLegal, Bool.and_eq_true, beq_iff_eq, bne_iff_ne, and_assoc, lctlOffset]

theorem State.writeTrctl_eq (s : State) (slice : Nat) (v : Word) : s.writeTrctl slice v =
    if field v.toNat 20 12 ≠ 0 ∨ field v.toNat 19 1 ≠ 0 ∨ field v.toNat 2 2 ≠ 0 ∨ field v.toNat 0 2 = 3 then s.refuse slice 0x0B000000
    else s.modSlice slice (fun x =>
      let t := { x.teasel with ctl := v }
      let empty := { t with held := [], drops := t.drops + t.held.length }
      { x with teasel := if field v.toNat 0 2 = 0 then empty else t }) := by
  have hlegal : trctlLegal v = false ↔ field v.toNat 20 12 ≠ 0 ∨ field v.toNat 19 1 ≠ 0 ∨ field v.toNat 2 2 ≠ 0 ∨ field v.toNat 0 2 = 3 := by
    simp only [trctlLegal, Bool.and_eq_false_iff, beq_eq_false_iff_ne, bne_eq_false_iff_eq, or_assoc, Ne]
  simp only [State.writeTrctl, Bool.not_eq_true', hlegal, State.modTeasel, Teasel.dest, beq_iff_eq]

theorem State.writeFrame_eq {s : State} {slice frame : Nat} {v : Word} {part : Nat} (howner : (s.slice slice).owner = some part) :
    s.writeFrame slice frame v =
      let f := packageOf slice * 2 ^ 26 + frame
      let w := (s.ownerWord (65536 * f)).toNat
      if frame < 2 ^ 24 ∧ field w 31 1 = 1 ∧ field w 16 10 = part then
        { s with frames := s.frames.put f (BitVec.ofNat 32 (2 ^ 31 + field v.toNat 26 5 * 2 ^ 26 + part % 1024 * 2 ^ 16 + field v.toNat 0 16)) }
      else s.refuse slice (0x10000000 + 4 * frame) := by
  simp only [State.writeFrame, howner, Bool.and_eq_true, decide_eq_true_eq, beq_iff_eq, and_assoc, frameOffset]

/-- A Teasel's first record leaves once CLK is past its TIME (R400). -/
theorem State.drainTeasel_of_due {s : State} {slice part : Nat} {r : TraceRec} (hr : (s.slice slice).teasel.first? = some r)
    (howner : (s.slice slice).owner = some part) (hclk : r.time < (s.package (packageOf slice)).clk) :
    s.drainTeasel slice =
      let x := s.slice slice
      if x.teasel.dest = 2 then
        (s.modPackage (packageOf slice) (fun k => { k with replies := k.replies ++ [{ name := 0x105, bytes := r.bytes }] })).modSlice slice
          (fun x => { x with teasel := { x.teasel with held := dropRecord r x.teasel.held } })
      else if x.teasel.dest = 1 ∧ x.teasel.ringOk = true ∧ x.teasel.room = true then s.ringRecord slice part r
      else s := by
  simp only [State.drainTeasel, hr, howner, Nat.not_le.mpr hclk, if_false, State.modTeasel, beq_iff_eq, Bool.and_eq_true, and_assoc, replyTrace]

/-! ## Service cores (R302, R303, R318, R341, R344) -/

theorem State.serviceMemory_eq (s : State) (acc : ServiceAccess) (part : Nat) : s.serviceMemory acc part = serviceTouches s acc part := by
  simp only [State.serviceMemory, serviceTouches, Bool.not_eq_true', Bool.or_eq_true, beq_iff_eq, fFillOwner, fKeySlot, fMemErr, refusalDetail] <;> rfl

theorem State.serviceReach_memory {s : State} {acc : ServiceAccess} (h : acc.paddr % 2 ^ 42 < 2 ^ 40) :
    s.serviceReach acc = s.reachable acc.slice acc.paddr := if_pos h

theorem State.serviceReach_control {s : State} {acc : ServiceAccess} (h : ¬ acc.paddr % 2 ^ 42 < 2 ^ 40) :
    s.serviceReach acc = serviceCrosses s acc (acc.paddr / 2 ^ 42 * 8 + (acc.paddr % 2 ^ 42 - 3 * 2 ^ 40) / 2 ^ 32) := by
  refine (if_neg h).trans ?_
  simp only [remoteOf, serviceCrosses, bne, Bool.not_not] <;> rfl

theorem State.serviceLost_eq (s : State) (acc : ServiceAccess) (part : Nat) : s.serviceLost acc part = serviceFails s acc part := rfl

theorem State.serviceControl_eq (s : State) (acc : ServiceAccess) (part target off : Nat) : s.serviceControl acc part target off =
    if (s.slice target).owner = some part then
      (match acc.data with
       | some bs => s.writeControl target off bs.length (storeValue bs)
       | none => { s with readData := s.readControl target part off acc.len })
    else { s.modSlice target (fun x => { x with drops := x.drops + 1 }) with readData := [] } := by
  simp only [State.serviceControl, beq_iff_eq] <;> rfl

/-- A service core's access, where an address is there (R302, R303). -/
theorem execServiceCoreAccess_of_owner {s : State} {acc : ServiceAccess} {part : Nat} (howner : (s.slice acc.slice).owner = some part) :
    let t := s.modSlice acc.slice (fun x => { x with offline := false })
    let o := acc.paddr % 2 ^ 42
    (o < 2 ^ 40 → execServiceCoreAccess acc s =
      .next (if t.reachable acc.slice acc.paddr = true then serviceTouches t acc part else serviceFails t acc part).settle) ∧
    (¬ o < 2 ^ 40 → 3 * 2 ^ 40 ≤ o ∧ o < 3 * 2 ^ 40 + 8 * 2 ^ 32 → 
      let target := acc.paddr / 2 ^ 42 * 8 + (o - 3 * 2 ^ 40) / 2 ^ 32
      execServiceCoreAccess acc s =
        .next (if serviceCrosses t acc target = false then serviceFails t acc part else t.serviceControl acc part target (o % 2 ^ 32)).settle) := by
  intro t o
  have hexec : execServiceCoreAccess acc s =
      if 2 ^ 40 ≤ o ∧ (o < 0x30000000000 ∨ 0x30800000000 ≤ o) then .fault (.noSuchAddress acc.paddr)
      else if !t.serviceReach acc then .next (t.serviceLost acc part).settle
      else if o < 2 ^ 40 then .next ((t.serviceMemory acc part).settle)
      else .next ((t.serviceControl acc part (acc.paddr / 2 ^ 42 * 8 + (o - 0x30000000000) / 2 ^ 32) (o % 2 ^ 32)).settle) := by
    simp only [execServiceCoreAccess, howner] <;> rfl
  refine ⟨fun h => ?_, fun h hc => ?_⟩
  · have hhole : ¬ (2 ^ 40 ≤ o ∧ (o < 0x30000000000 ∨ 0x30800000000 ≤ o)) := by omega
    rw [hexec, if_neg hhole, State.serviceReach_memory h, if_pos h, State.serviceMemory_eq, State.serviceLost_eq]
    cases t.reachable acc.slice acc.paddr <;> rfl
  · have hhole : ¬ (2 ^ 40 ≤ o ∧ (o < 0x30000000000 ∨ 0x30800000000 ≤ o)) := by omega
    intro target
    rw [hexec, if_neg hhole, State.serviceReach_control h, if_neg h, State.serviceLost_eq]
    show (if (!serviceCrosses t acc target) = true then _ else _) = _
    cases serviceCrosses t acc target <;> rfl

end Sys2Proof.Machine

open Sys2Proof Sys2Proof.Machine

theorem portHappens : Happens portHappening := by
  intro i f s t hi hf
  unfold portHappening at hi
  split at hi <;> cases hi
  case h_1 slice => exact congrArg Host.Outcome.next (State.modPort_of_portFrom hf fun p hp => by simp_all [Port.enable])
  case h_2 slice => exact congrArg Host.Outcome.next (State.modPort_of_portFrom hf fun p hp => by simp_all [Port.disable])
  case h_3 slice =>
    obtain ⟨hc, hf⟩ := Option.ite_none_right_eq_some.mp hf
    show Host.Outcome.next (s.fencePort slice) = _
    rw [State.fencePort, if_pos ((Port.carries_iff _).mpr hc)]
    exact congrArg Host.Outcome.next (State.modPort_of_portFrom hf fun p hp => by simp_all [Port.fence, Port.carries_iff])
  case h_4 slice =>
    show Host.Outcome.next (if s.secretOf slice != (s.slice slice).port.secret then s.modPort slice Port.unfence else s) = _
    dsimp only at hf
    split at hf
    next h =>
      rw [if_neg (by simp [h])]
      exact congrArg Host.Outcome.next (Option.some.inj hf)
    next h =>
      rw [if_pos (by simp [h])]
      exact congrArg Host.Outcome.next (State.modPort_of_portFrom hf fun p hp => by simp_all [Port.unfence])
  case h_5 slice tx rx =>
    obtain ⟨hw, hf⟩ := Option.ite_none_right_eq_some.mp hf
    exact congrArg Host.Outcome.next (State.modPort_of_portFrom hf fun p hp => by simp_all [Port.trained])
  case h_6 slice =>
    refine congrArg Host.Outcome.next (State.modPort_of_portFrom hf fun p hp => ?_)
    have hthird : 3 ≤ p.fails + 1 ↔ ¬ p.fails < 2 := by omega
    have hp : p.state = .training := by simpa using hp
    simp only [Port.attemptFailed, hp, beq_self_eq_true, if_true, hthird, ite_not]
  case h_7 slice =>
    obtain ⟨u, hu, rfl⟩ := Option.map_eq_some_iff.mp hf
    have hk : (s.slice slice).port.state = .keying := by simpa using (Option.ite_none_right_eq_some.mp hu).1
    show Host.Outcome.next (s.keyPort slice).settle = _
    rw [State.keyPort_eq hk]
    exact congrArg (fun u => Host.Outcome.next (State.settle u)) (State.modPort_of_portFrom hu fun p _ => rfl)
  case h_8 slice tx rx =>
    obtain ⟨hw, hf⟩ := Option.ite_none_right_eq_some.mp hf
    show Host.Outcome.next (s.modPort slice (fun p => p.lose tx rx)) = _
    obtain ⟨hl, hf⟩ := Option.ite_none_right_eq_some.mp hf
    rw [← Option.some.inj hf, ← State.portBecomes_eq_modPort]
    have hc : (s.slice slice).port.carries = true := (Port.carries_iff _).mpr (by simpa using hl)
    simp only [Port.lose, hc, hw, decide_true, Bool.and_self, Bool.and_eq_true, Bool.or_eq_true, decide_eq_true_eq, and_self, if_true, beq_iff_eq]
  case h_9 slice => exact congrArg Host.Outcome.next (State.modPort_of_portFrom hf fun p hp => by simp_all [Port.restore])
  case h_10 slice =>
    obtain ⟨⟨hc, hn⟩, hf⟩ := Option.ite_none_right_eq_some.mp hf
    exact (execRekey_of_full ((Port.carries_iff _).mpr hc) hn).trans (congrArg Host.Outcome.next (Option.some.inj hf))
  case h_11 slice v => exact congrArg Host.Outcome.next ((s.writeLctl_eq slice v).trans (Option.some.inj hf))
  case h_12 slice pkt =>
    show Host.Outcome.next (s.receive slice pkt).settle = _
    rw [State.receive_eq]
    exact congrArg Host.Outcome.next (Option.some.inj hf)
  case h_13 mid =>
    obtain ⟨m, hm, hf⟩ := Option.map_eq_some_iff.mp hf
    show Host.Outcome.next (s.timeout mid).settle = _
    rw [State.timeout, hm]
    exact congrArg Host.Outcome.next ((congrArg State.settle (s.timeoutMsg_eq m)).trans hf)
  case h_14 source part ctx =>
    obtain ⟨p, hp, hf⟩ := Option.bind_eq_some_iff.mp hf
    obtain ⟨hstate, rfl⟩ := due_eq_some.mp hf
    show execCpuTrayRegister source part ctx s = _
    simp only [execCpuTrayRegister, hp, beq_iff_eq, hstate, if_false]

theorem controlHappens : Happens controlHappening := by
  intro i f s t hi hf
  unfold controlHappening at hi
  split at hi <;> cases hi
  case h_1 slice n v =>
    obtain ⟨hn, hf⟩ := Option.ite_none_left_eq_some.mp hf
    show Host.Outcome.next (s.writePwrctl slice n v) = _
    rw [State.writePwrctl_eq hn]
    rw [← apply_ite some] at hf
    exact congrArg Host.Outcome.next (Option.some.inj hf)
  case h_2 slice n hot f =>
    show Host.Outcome.next (s.modIsland slice n (fun x => x.throttle n hot f)) = _
    simp only [State.modIsland_eq, Island.throttle_eq]
    exact congrArg Host.Outcome.next (Option.some.inj hf)
  case h_3 slice n watts f =>
    show Host.Outcome.next (s.modIsland slice n (fun x => x.measure n watts f)) = _
    simp only [State.modIsland_eq, Island.measure_eq]
    exact congrArg Host.Outcome.next (Option.some.inj hf)
  case h_4 slice v => exact congrArg Host.Outcome.next ((s.writeTrctl_eq slice v).trans (Option.some.inj hf))
  case h_5 slice =>
    show Host.Outcome.next (s.drainTeasel slice) = _
    dsimp only at hf
    split at hf
    next r part hr howner =>
      obtain ⟨hclk, hf⟩ := Option.ite_none_right_eq_some.mp hf
      rw [State.drainTeasel_of_due hr howner hclk]
      dsimp only
      split at hf
      next hdest =>
        rw [if_pos hdest]
        exact congrArg Host.Outcome.next (Option.some.inj hf)
      next hdest =>
        obtain ⟨hring, hf⟩ := due_eq_some.mp hf
        rw [if_neg hdest, if_pos hring, hf]
    next => cases hf
  case h_6 slice v => exact congrArg Host.Outcome.next (Option.some.inj hf)
  case h_7 slice frame v =>
    obtain ⟨part, howner, hf⟩ := Option.map_eq_some_iff.mp hf
    exact congrArg Host.Outcome.next ((State.writeFrame_eq howner).trans hf)
  case h_8 slice offset width value => exact congrArg Host.Outcome.next (Option.some.inj hf)
  case h_9 acc =>
    obtain ⟨part, howner, hf⟩ := Option.bind_eq_some_iff.mp hf
    obtain ⟨hmemory, hcontrol⟩ := execServiceCoreAccess_of_owner howner
    show execServiceCoreAccess acc s = _
    dsimp only at hf
    split at hf
    next h => exact (hmemory h).trans (congrArg Host.Outcome.next (Option.some.inj hf))
    next h =>
      obtain ⟨hc, hf⟩ := Option.ite_none_right_eq_some.mp hf
      rw [hcontrol h hc]
      simp only [State.serviceControl_eq]
      exact congrArg Host.Outcome.next (Option.some.inj hf)

/-- Settles O54: the happenings of ports and of power, trace and control space, and CAPPED's clocks. -/
theorem portHappenings : Obligations.PortHappenings := ⟨portHappens, controlHappens, cappedClocks⟩

end

/-! PROOFS. Memory stays in its canonical form: every operation of the model keeps it, from the records up to the step. With it go the steps of the
packages' bring-ups (R394), which only a package reset changes. -/
section
namespace Sys2Proof.Machine

/-- A state keeps what another had: memory stays in its canonical form, and the packages stay at their steps of the bring-up (R394). -/
def State.Kept (s s₀ : State) : Prop := (s₀.Inv → s.Inv) ∧ ∀ p, (s.package p).step = (s₀.package p).step

/-- What one repeat of an instruction ends in keeps it. -/
def Act.Kept (a : Act) (s₀ : State) : Prop :=
  match a with
  | .next s | .jump s _ _ | .leave s | .stop s | .trap _ s | .fault _ s | .wait _ s => s.Kept s₀

/-- The effect of an instruction keeps it. -/
def Op.Kept (op : Op) : Prop := ∀ s₀ slot sh (s : State), s.Kept s₀ → (op.body slot sh s).Kept s₀

/-- The checks of a global access keep it. -/
def Checked.Kept (c : Checked) (s₀ : State) : Prop :=
  match c with
  | .stop a => a.Kept s₀
  | .go _ s => s.Kept s₀

/-- The checks of a local access keep it. -/
def CheckedLocal.Kept (c : CheckedLocal) (s₀ : State) : Prop :=
  match c with
  | .stop a => a.Kept s₀
  | .go _ s => s.Kept s₀

/-- The release before an ordered atomic keeps it, done or not (R167). -/
def ReleaseKept (s₀ : State) (r : Act ⊕ State) : Prop :=
  match r with
  | .inl a => a.Kept s₀
  | .inr s => s.Kept s₀

/-- Where an outcome goes on, it leaves memory in its canonical form. -/
def OutcomeKept (s₀ : State) (o : Host.Outcome State Fault Refusal) : Prop := ∀ t, o = .next t → s₀.Inv → t.Inv

variable {s₀ s : State}

/-! ## Branches, loops and pairs -/

theorem State.Kept.refl (s : State) : s.Kept s := ⟨id, fun _ => rfl⟩

/-- Where the packages stay as they are, the canonical form is what there is to show. -/
theorem State.Kept.of_inv {t : State} (h : s.Kept s₀) (hinv : s.Inv → t.Inv) (hpackages : t.packages = s.packages) : t.Kept s₀ := by
  obtain ⟨hkept, hstep⟩ := h
  exact ⟨hinv ∘ hkept, fun p => by rw [← hstep p, State.package, State.package, hpackages]⟩

theorem State.Kept.same {t : State} (h : s.Kept s₀) (hmem : t.mem = s.mem) (hpackages : t.packages = s.packages) : t.Kept s₀ :=
  .of_inv h (fun hinv => by rwa [State.Inv, hmem]) hpackages

theorem State.Kept.ite {c : Prop} [Decidable c] {a b : State} (ha : a.Kept s₀) (hb : b.Kept s₀) : (if c then a else b).Kept s₀ := by
  split
  · exact ha
  · exact hb

theorem State.Kept.ite_snd {α : Type} {c : Prop} [Decidable c] {a b : α × State} (ha : a.2.Kept s₀) (hb : b.2.Kept s₀) :
    (if c then a else b).2.Kept s₀ := by
  split
  · exact ha
  · exact hb

theorem State.Kept.ite_snd_snd {α β : Type} {c : Prop} [Decidable c] {a b : α × β × State} (ha : a.2.2.Kept s₀) (hb : b.2.2.Kept s₀) :
    (if c then a else b).2.2.Kept s₀ := by
  split
  · exact ha
  · exact hb

theorem State.Kept.of_eq_snd {α : Type} {p : α × State} {a : α} {t : State} (e : p = (a, t)) (h : p.2.Kept s₀) : t.Kept s₀ := by
  subst e
  exact h

theorem State.Kept.of_eq_snd_snd {α β : Type} {p : α × β × State} {a : α} {b : β} {t : State} (e : p = (a, b, t)) (h : p.2.2.Kept s₀) : t.Kept s₀ := by
  subst e
  exact h

theorem State.Kept.foldl {α : Type} {f : State → α → State} {l : List α} (hf : ∀ t x, t.Kept s₀ → (f t x).Kept s₀) (h : s.Kept s₀) :
    (l.foldl f s).Kept s₀ := State.forEach_keeps (·.Kept s₀) l f hf h

theorem State.Kept.forEach {α : Type} {f : State → α → State} {l : List α} (hf : ∀ t x, t.Kept s₀ → (f t x).Kept s₀) (h : s.Kept s₀) :
    (s.forEach l f).Kept s₀ := .foldl hf h

theorem State.Kept.foldl_snd {α β : Type} {f : α × State → β → α × State} {l : List β} {p : α × State}
    (hf : ∀ q x, q.2.Kept s₀ → (f q x).2.Kept s₀) (h : p.2.Kept s₀) : (l.foldl f p).2.Kept s₀ := by
  induction l generalizing p with
  | nil => exact h
  | cons x l ih => exact ih (hf _ _ h)

theorem State.Kept.foldl_snd_snd {α β γ : Type} {f : α × β × State → γ → α × β × State} {l : List γ} {p : α × β × State}
    (hf : ∀ q x, q.2.2.Kept s₀ → (f q x).2.2.Kept s₀) (h : p.2.2.Kept s₀) : (l.foldl f p).2.2.Kept s₀ := by
  induction l generalizing p with
  | nil => exact h
  | cons x l ih => exact ih (hf _ _ h)

theorem Act.Kept.ite {c : Prop} [Decidable c] {a b : Act} (ha : a.Kept s₀) (hb : b.Kept s₀) : (if c then a else b).Kept s₀ := by
  split
  · exact ha
  · exact hb

theorem Act.Kept.next (h : s.Kept s₀) : (Act.next s).Kept s₀ := h
theorem Act.Kept.jump {taken target} (h : s.Kept s₀) : (Act.jump s taken target).Kept s₀ := h
theorem Act.Kept.leave (h : s.Kept s₀) : (Act.leave s).Kept s₀ := h
theorem Act.Kept.stop (h : s.Kept s₀) : (Act.stop s).Kept s₀ := h
theorem Act.Kept.trap {t} (h : s.Kept s₀) : (Act.trap t s).Kept s₀ := h
theorem Act.Kept.fault {f} (h : s.Kept s₀) : (Act.fault f s).Kept s₀ := h
theorem Act.Kept.wait {k} (h : s.Kept s₀) : (Act.wait k s).Kept s₀ := h

theorem Act.Kept.of_eq {a b : Act} (e : a = b) (h : a.Kept s₀) : b.Kept s₀ := e ▸ h

theorem Checked.Kept.stop {a : Act} (h : a.Kept s₀) : (Checked.stop a).Kept s₀ := h
theorem Checked.Kept.go {xs} (h : s.Kept s₀) : (Checked.go xs s).Kept s₀ := h
theorem Checked.Kept.of_eq {a b : Checked} (e : a = b) (h : a.Kept s₀) : b.Kept s₀ := e ▸ h

theorem CheckedLocal.Kept.ite {c : Prop} [Decidable c] {a b : CheckedLocal} (ha : a.Kept s₀) (hb : b.Kept s₀) : (if c then a else b).Kept s₀ := by
  split
  · exact ha
  · exact hb

theorem CheckedLocal.Kept.stop {a : Act} (h : a.Kept s₀) : (CheckedLocal.stop a).Kept s₀ := h
theorem CheckedLocal.Kept.go {xs} (h : s.Kept s₀) : (CheckedLocal.go xs s).Kept s₀ := h
theorem CheckedLocal.Kept.of_eq {a b : CheckedLocal} (e : a = b) (h : a.Kept s₀) : b.Kept s₀ := e ▸ h

theorem ReleaseKept.inl {a : Act} (h : a.Kept s₀) : ReleaseKept s₀ (.inl a) := h
theorem ReleaseKept.inr (h : s.Kept s₀) : ReleaseKept s₀ (.inr s) := h
theorem ReleaseKept.ite {c : Prop} [Decidable c] {a b : Act ⊕ State} (ha : ReleaseKept s₀ a) (hb : ReleaseKept s₀ b) :
    ReleaseKept s₀ (if c then a else b) := by
  split
  · exact ha
  · exact hb
theorem ReleaseKept.of_eq {a b : Act ⊕ State} (e : a = b) (h : ReleaseKept s₀ a) : ReleaseKept s₀ b := e ▸ h

theorem OutcomeKept.next (h : s.Kept s₀) : OutcomeKept s₀ (.next s) := by
  rintro _ ⟨⟩
  obtain ⟨hinv, _⟩ := h
  exact hinv

theorem OutcomeKept.fault {f} : OutcomeKept s₀ (.fault f) := by
  rintro _ ⟨⟩

theorem OutcomeKept.ite {c : Prop} [Decidable c] {o p : Host.Outcome State Fault Refusal} (ho : OutcomeKept s₀ o) (hp : OutcomeKept s₀ p) :
    OutcomeKept s₀ (if c then o else p) := by
  split
  · exact ho
  · exact hp

/-! ## Records, physical memory, faults and traps -/

theorem State.Kept.setSheaf {sid sh} (h : s.Kept s₀) : (s.setSheaf sid sh).Kept s₀ := h

theorem State.Kept.modSheaf {sid f} (h : s.Kept s₀) : (s.modSheaf sid f).Kept s₀ := by
  unfold State.modSheaf
  split
  · exact .setSheaf h
  · exact h

theorem State.Kept.setTuft {tid t} (h : s.Kept s₀) : (s.setTuft tid t).Kept s₀ := h

theorem State.Kept.modTuft {tid f} (h : s.Kept s₀) : (s.modTuft tid f).Kept s₀ := by
  unfold State.modTuft
  split
  · exact .setTuft h
  · exact h

theorem State.Kept.setKernel {kid k} (h : s.Kept s₀) : (s.setKernel kid k).Kept s₀ := h

theorem State.Kept.modKernel {kid f} (h : s.Kept s₀) : (s.modKernel kid f).Kept s₀ := by
  unfold State.modKernel
  split
  · exact .setKernel h
  · exact h

theorem State.Kept.setCore {c k} (h : s.Kept s₀) : (s.setCore c k).Kept s₀ := h

theorem State.Kept.modCore {c f} (h : s.Kept s₀) : (s.modCore c f).Kept s₀ := .setCore h

theorem State.Kept.setSlice {sl x} (h : s.Kept s₀) : (s.setSlice sl x).Kept s₀ := h

theorem State.Kept.modSlice {sl f} (h : s.Kept s₀) : (s.modSlice sl f).Kept s₀ := .setSlice h

theorem State.Kept.modPackage {p f} (hf : ∀ k : Package, (f k).step = k.step) (h : s.Kept s₀) : (s.modPackage p f).Kept s₀ := by
  obtain ⟨hinv, hstep⟩ := h
  refine ⟨hinv, fun q => ?_⟩
  rw [← hstep q]
  simp only [State.modPackage, State.package, Map.getD_put]
  split
  next hq => rw [hf, hq]
  next => rfl

theorem State.Kept.setPart {p x} (h : s.Kept s₀) : (s.setPart p x).Kept s₀ := h

theorem State.Kept.modPart {p f} (h : s.Kept s₀) : (s.modPart p f).Kept s₀ := by
  unfold State.modPart
  split
  · exact .setPart h
  · exact h

theorem State.Kept.modCtx {p c f} (h : s.Kept s₀) : (s.modCtx p c f).Kept s₀ := .modPart h

theorem State.Kept.fresh (h : s.Kept s₀) : s.fresh.2.Kept s₀ := h

theorem State.Kept.rekeySector {key n} (h : s.Kept s₀) : (s.rekeySector key n).Kept s₀ := by
  refine .of_inv h (fun hinv => State.rekeySector_wf hinv key n) ?_
  unfold State.rekeySector
  split <;> rfl

theorem State.Kept.putByte {key paddr b} (h : s.Kept s₀) : (s.putByte key paddr b).Kept s₀ :=
  .of_inv (.rekeySector h) (fun hinv => memPut_wf hinv _ _) rfl

theorem State.Kept.clearPoison {bytes paddr} (h : s.Kept s₀) : (s.clearPoison bytes paddr).Kept s₀ := .ite h h

theorem State.Kept.cacheSectors {written secs} (h : s.Kept s₀) : (s.cacheSectors written secs).Kept s₀ := h

theorem State.Kept.cacheRead {paddr len} (h : s.Kept s₀) : (s.cacheRead paddr len).Kept s₀ := .cacheSectors h

theorem State.Kept.cacheWrite {bytes paddr} (h : s.Kept s₀) : (s.cacheWrite bytes paddr).Kept s₀ := .cacheSectors h

theorem State.Kept.putBytes {key paddr bytes} (h : s.Kept s₀) : (s.putBytes key paddr bytes).Kept s₀ :=
  .cacheWrite (.clearPoison (.forEach (fun _ _ h => .putByte h) h))

theorem State.Kept.putClear {paddr bs} (h : s.Kept s₀) : (s.putClear paddr bs).Kept s₀ := .putBytes h

theorem State.Kept.countDrop {part paddr} (h : s.Kept s₀) : (s.countDrop part paddr).Kept s₀ := by
  unfold State.countDrop
  split
  · exact .ite h (.modSlice h)
  · exact h

theorem State.Kept.noteChild {part ctx id} (h : s.Kept s₀) : (s.noteChild part ctx id).Kept s₀ := .ite (.putClear h) h

theorem State.Kept.zeroChildren {part ctx} (h : s.Kept s₀) :
    (s.zeroChildren part ctx).Kept s₀ := .of_inv h (fun hinv => State.zeroChildren_wf hinv part ctx) rfl

theorem State.Kept.trace {slice part cls core slot ctx payload bound} (h : s.Kept s₀) :
    (s.trace slice part cls core slot ctx payload bound).Kept s₀ :=
  .modSlice h

theorem State.Kept.traceSheaf {sh cls payload} (h : s.Kept s₀) : (s.traceSheaf sh cls payload).Kept s₀ := .trace h

theorem State.Kept.traceTuft {t cls payload} (h : s.Kept s₀) : (s.traceTuft t cls payload).Kept s₀ := by
  unfold State.traceTuft
  split
  · exact .trace h
  · exact h

theorem State.Kept.traceLaunch {k bound} (h : s.Kept s₀) : (s.traceLaunch k bound).Kept s₀ := .trace h

theorem State.Kept.writeRecord {slice r} (h : s.Kept s₀) : (s.writeRecord slice r).Kept s₀ := .modSlice (.ite (.putClear h) (.countDrop h))

theorem State.Kept.postRecord {slice r} (h : s.Kept s₀) : (s.postRecord slice r).Kept s₀ := .ite (.writeRecord h) (.ite (.modSlice h) (.modSlice h))

theorem State.Kept.drainRecords {slice fuel} (h : s.Kept s₀) : (s.drainRecords slice fuel).Kept s₀ := by
  induction fuel generalizing s with
  | zero => exact h
  | succ fuel ih =>
    unfold State.drainRecords
    dsimp only
    split
    · exact .ite (ih (.writeRecord (.modSlice h))) h
    · exact h

theorem State.Kept.newToken {part t} (h : s.Kept s₀) : (s.newToken part t).2.Kept s₀ := by
  unfold State.newToken
  split
  · exact h
  · exact .setPart h

theorem State.Kept.countForeign {part f} (h : s.Kept s₀) : (s.countForeign part f).Kept s₀ := .ite (.countDrop h) h

theorem State.Kept.postSheafFault {sid slot f use} (h : s.Kept s₀) : (s.postSheafFault sid slot f use).2.Kept s₀ := by
  unfold State.postSheafFault
  split
  · exact h
  · exact .traceSheaf (.postRecord (.countForeign (.newToken h)))

theorem State.Kept.postSliceFault {slice part f use ctx kid kernel tid} (h : s.Kept s₀) :
    (s.postSliceFault slice part f use ctx kid kernel tid).2.Kept s₀ :=
  .trace (.postRecord (.countForeign (.newToken h)))

theorem State.Kept.poisonBy {sh} (h : s.Kept s₀) : (s.poisonBy sh).Kept s₀ := by
  unfold State.poisonBy
  split
  · exact h
  · exact .forEach (fun _ _ h => .modSheaf h) (.setTuft h)

theorem State.Kept.faultLanes {sid lanes} (h : s.Kept s₀) : (s.faultLanes sid lanes).Kept s₀ := by
  unfold State.faultLanes
  split
  · exact h
  · exact .ite h (.ite (.setSheaf h) (.poisonBy (.setSheaf h)))

theorem State.Kept.faultSheaf {sid} (h : s.Kept s₀) : (s.faultSheaf sid).Kept s₀ := .faultLanes h

theorem State.Kept.endSheaf {sid slot f} (h : s.Kept s₀) : (s.endSheaf sid slot f).Kept s₀ := .faultSheaf (.postSheafFault h)

theorem State.Kept.doubleTrap {sid slot second} (h : s.Kept s₀) : (s.doubleTrap sid slot second).Kept s₀ := by
  unfold State.doubleTrap
  split
  · exact h
  · exact .endSheaf h

theorem State.Kept.trap {slot t} (h : s.Kept s₀) : (s.trap slot t).Kept s₀ := by
  unfold State.trap
  split
  · exact h
  · exact .ite (.doubleTrap h) (.ite (.endSheaf h) (.traceSheaf (.setSheaf h)))

theorem State.Kept.refuse {slice offset} (h : s.Kept s₀) : (s.refuse slice offset).Kept s₀ := .modSlice h

/-! ## Local store -/

theorem State.Kept.writeLocal {tid bytes mark tag} (h : s.Kept s₀) : (s.writeLocal tid bytes mark tag).Kept s₀ := .modTuft h

/-! ## The matrix sub-arrays (R174 to R195) -/

theorem State.Kept.runMatOp {sid op0} (h : s.Kept s₀) : (s.runMatOp sid op0).Kept s₀ := by
  unfold State.runMatOp
  split
  · exact h
  · dsimp only
    split
    · exact .ite (.ite h h) (.setSheaf (.ite h h))
    · exact .ite (.ite h h) (.setSheaf (.ite h h))
    · exact .ite (.ite h h) (.setSheaf (.ite h h))
    · exact .writeLocal (.ite h h)
    · exact .setSheaf (.ite h h)

theorem State.Kept.runMatUpTo {sid id} (h : s.Kept s₀) : (s.runMatUpTo sid id).Kept s₀ := by
  unfold State.runMatUpTo
  split
  · exact h
  · refine .ite h (.modSheaf (.forEach ?_ h))
    intro _ _ h
    split
    · exact .runMatOp h
    · exact h

theorem State.Kept.completeMatOp {sid} (h : s.Kept s₀) : (s.completeMatOp sid).Kept s₀ := by
  unfold State.completeMatOp
  split
  · exact h
  · split
    · exact .forEach (fun _ _ h => .runMatUpTo h) h
    · exact .runMatUpTo h
    · exact h

theorem State.Kept.drainMatrix {sid} (h : s.Kept s₀) : (s.drainMatrix sid).Kept s₀ := by
  unfold State.drainMatrix
  split
  · exact h
  · exact .foldl (fun _ _ h => .completeMatOp h) h

/-! ## Packets that leave a port (R342 to R345) -/

theorem State.Kept.emit {slice dest pkt} (h : s.Kept s₀) : (s.emit slice dest pkt).Kept s₀ := .ite h (.modSlice h)

theorem State.Kept.ask {slice pkt} (h : s.Kept s₀) : (s.ask slice pkt).Kept s₀ := .ite (.emit h) h

theorem State.Kept.tellBack {slice pkt} (h : s.Kept s₀) : (s.tellBack slice pkt).Kept s₀ := .ite (.emit h) h

theorem State.Kept.readAcross {slice op tag paddr kh len given} (h : s.Kept s₀) : (s.readAcross slice op tag paddr kh len given).Kept s₀ :=
  .ite (.tellBack (.ask (.ite h (.cacheRead h)))) (.ite h (.cacheRead h))

theorem State.Kept.readOnce {slice paddr kh key len} (h : s.Kept s₀) : (s.readOnce slice paddr kh key len).Kept s₀ := .readAcross h

theorem State.Kept.readLines {slice paddr kh key len} (h : s.Kept s₀) : (s.readLines slice paddr kh key len).Kept s₀ :=
  .forEach (fun _ _ h => .readOnce h) h

theorem State.Kept.writeLines {slice paddr kh op bs} (h : s.Kept s₀) : (s.writeLines slice paddr kh op bs).Kept s₀ :=
  .ite (.forEach (fun _ _ h => .tellBack (.ask h)) h) h

theorem State.Kept.engineReads {slice id paddr kh key len} (h : s.Kept s₀) : (s.engineReads slice id paddr kh key len).Kept s₀ :=
  .forEach (fun _ _ h => .readAcross h) h

/-! ## Translation (R280 to R288) -/

theorem State.Kept.setEntryBits {entry bitsWanted} (h : s.Kept s₀) : (s.setEntryBits entry bitsWanted).Kept s₀ := .ite h (.putClear h)

theorem State.Kept.afterWalk {part ctx slice kid w} (h : s.Kept s₀) : (s.afterWalk part ctx slice kid w).Kept s₀ := by
  unfold State.afterWalk
  dsimp only
  split
  · exact .postSliceFault (.ite (.forEach (fun _ _ h => .readOnce h) h) (.same (.forEach (fun _ _ h => .readOnce h) h) rfl rfl))
  · exact .ite (.forEach (fun _ _ h => .readOnce h) h) (.same (.forEach (fun _ _ h => .readOnce h) h) rfl rfl)

theorem State.Kept.walkSetting {part ctx slice kid va bitsOf} (h : s.Kept s₀) : (s.walkSetting part ctx slice kid va bitsOf).2.Kept s₀ := by
  unfold State.walkSetting
  dsimp only
  split
  · exact .setEntryBits (.afterWalk h)
  · exact .afterWalk h

theorem State.Kept.walk {part ctx slice kid va write} (h : s.Kept s₀) : (s.walk part ctx slice kid va write).2.Kept s₀ := .walkSetting h

theorem State.Kept.xlateTlb {core part ctx kid va write} (h : s.Kept s₀) : (s.xlateTlb core part ctx kid va write).2.Kept s₀ := by
  unfold State.xlateTlb
  split
  · exact h
  · split
    next heq => exact .modCore (.of_eq_snd heq (.walk h))
    next heq => exact .of_eq_snd heq (.walk h)

theorem State.Kept.xlateTuft {tid core va write} (h : s.Kept s₀) : (s.xlateTuft tid core va write).2.Kept s₀ := by
  unfold State.xlateTuft
  split
  · exact h
  · split
    · exact h
    · split
      · exact h
      · exact .xlateTlb h

/-! ## Global memory behind the L1 and the store buffers (R157 to R171) -/

theorem State.Kept.setMsg {m} (h : s.Kept s₀) : (s.setMsg m).Kept s₀ := h

theorem State.Kept.depart {m} (h : s.Kept s₀) : (s.depart m).Kept s₀ := .ite (.ask h) h

theorem State.Kept.sendFor {engine sid paddr bytes kh key kind due} (h : s.Kept s₀) : (s.sendFor engine sid paddr bytes kh key kind due).Kept s₀ := by
  unfold State.sendFor
  split
  · exact h
  · exact .depart h

theorem State.Kept.send {sid paddr bytes kh key kind due} (h : s.Kept s₀) : (s.send sid paddr bytes kh key kind due).Kept s₀ := .sendFor h

theorem State.Kept.sendOne {sid e} (h : s.Kept s₀) : (s.sendOne sid e).Kept s₀ := .forEach (fun _ _ h => .send h) (.modSheaf h)

theorem State.Kept.sendEntry {sid e} (h : s.Kept s₀) : (s.sendEntry sid e).Kept s₀ := by
  unfold State.sendEntry
  split
  · exact h
  · exact .forEach (fun _ _ h => .sendOne h) h

theorem State.Kept.sendBuffer {sid} (h : s.Kept s₀) : (s.sendBuffer sid).Kept s₀ := by
  unfold State.sendBuffer
  split
  · exact h
  · exact .forEach (fun _ _ h => .sendEntry h) h

theorem State.Kept.sendLine {sid line} (h : s.Kept s₀) : (s.sendLine sid line).Kept s₀ := by
  unfold State.sendLine
  split
  · exact h
  · exact .forEach (fun _ _ h => .sendEntry h) h

theorem State.Kept.sendOverlaps {sid core line bytes} (h : s.Kept s₀) : (s.sendOverlaps sid core line bytes).Kept s₀ := by
  unfold State.sendOverlaps
  refine .forEach ?_ h
  intro _ _ h
  split
  · exact h
  · exact .forEach (fun _ _ h => .sendEntry h) h

theorem State.Kept.modCopy {core id f} (h : s.Kept s₀) : (s.modCopy core id f).Kept s₀ := .ite (.modCore h) (.ite (.modSlice h) h)

theorem State.Kept.stopFlight {sid a f} (h : s.Kept s₀) : (s.stopFlight sid a f).Kept s₀ := by
  unfold State.stopFlight
  split
  · exact .ite (.postSheafFault h) (.endSheaf h)
  · exact h

theorem State.Kept.engineFails {m code reason detail} (h : s.Kept s₀) : (s.engineFails m code reason detail).Kept s₀ := .modCopy (.postSheafFault h)

theorem State.Kept.turnedAway {m code reason detail lanes a} (h : s.Kept s₀) : (s.turnedAway m code reason detail lanes a).Kept s₀ := by
  unfold State.turnedAway
  refine .ite (.engineFails h) ?_
  split
  · exact .stopFlight h
  · exact .postSliceFault h

theorem State.Kept.atomicAtHome {m op width d d2} (h : s.Kept s₀) : (s.atomicAtHome m op width d d2).Kept s₀ :=
  .setMsg (.ite (.putBytes h) (.cacheRead h))

theorem State.Kept.refuseMsg {m code lanes} (h : s.Kept s₀) : (s.refuseMsg m code lanes).Kept s₀ := by
  unfold State.refuseMsg
  dsimp only
  split
  · exact .turnedAway (.setMsg h)
  · split
    · exact .turnedAway (.setMsg h)
    · split
      · exact .turnedAway (.setSheaf (.setMsg h))
      · exact .setMsg h

theorem State.Kept.layL1 {core key paddr bytes} (h : s.Kept s₀) : (s.layL1 core key paddr bytes).Kept s₀ := .modCore h

theorem State.Kept.updateL1 {core key paddr bytes} (h : s.Kept s₀) : (s.updateL1 core key paddr bytes).Kept s₀ := h

theorem State.Kept.bringDue {m} (h : s.Kept s₀) : (s.bringDue m).Kept s₀ := .layL1 h

theorem State.Kept.ackMsg {m} (h : s.Kept s₀) : (s.ackMsg m).Kept s₀ := .same (.modSheaf h) rfl rfl

theorem State.Kept.replyMsg {m} (h : s.Kept s₀) : (s.replyMsg m).Kept s₀ := by
  unfold State.replyMsg
  split
  · exact .ackMsg h
  · exact .modSheaf (.ackMsg (.bringDue h))

theorem State.Kept.performAt {m} (h : s.Kept s₀) : (s.performAt m).Kept s₀ := by
  unfold State.performAt
  split
  · exact .refuseMsg h
  · split
    · exact .setMsg (.bringDue (.putBytes h))
    · exact .ite (.refuseMsg h) (.atomicAtHome h)

theorem State.Kept.giveAnswer {m} (h : s.Kept s₀) : (s.giveAnswer m).Kept s₀ := .tellBack h

theorem State.Kept.performMsg {m} (h : s.Kept s₀) : (s.performMsg m).Kept s₀ := .ite h (.giveAnswer (.performAt (.depart h)))

theorem State.Kept.answerIf {mid} (h : s.Kept s₀) : (s.answerIf mid).Kept s₀ := by
  unfold State.answerIf
  split
  · exact .ite (.replyMsg h) h
  · exact h

theorem State.Kept.performId {mid} (h : s.Kept s₀) : (s.performId mid).Kept s₀ := by
  unfold State.performId
  split
  · exact .performMsg h
  · exact h

theorem State.Kept.makeRoom {mid} (h : s.Kept s₀) : (s.makeRoom mid).Kept s₀ := by
  unfold State.makeRoom
  split
  · exact .ite (.forEach (fun _ _ h => .answerIf (.performId h)) h) h
  · exact h

theorem State.Kept.performBefore {core line stop} (h : s.Kept s₀) : (s.performBefore core line stop).Kept s₀ :=
  .forEach (fun _ _ h => .ite (.answerIf (.performId (.makeRoom h))) (.performId (.makeRoom h))) h

theorem State.Kept.finishMsg {m} (h : s.Kept s₀) : (s.finishMsg m).Kept s₀ := .answerIf (.performId (.makeRoom (.performBefore h)))

theorem State.Kept.performLine {core line} (h : s.Kept s₀) : (s.performLine core line).Kept s₀ := .performBefore h

theorem State.Kept.bringLine {core line} (h : s.Kept s₀) : (s.bringLine core line).Kept s₀ := .forEach (fun _ _ h => .setMsg (.bringDue h)) h

theorem State.Kept.settleDue {core secs} (h : s.Kept s₀) : (s.settleDue core secs).Kept s₀ := h

theorem State.Kept.evictOver {core keep fuel} (h : s.Kept s₀) : (s.evictOver core keep fuel).Kept s₀ := by
  induction fuel generalizing s with
  | zero => exact h
  | succ fuel ih => exact .ite h (.ite h (ih (.modCore h)))

theorem State.Kept.victimGrant {core owner line} (h : s.Kept s₀) : (s.victimGrant core owner line).Kept s₀ := by
  unfold State.victimGrant
  split
  · exact .ite (.setSheaf (.modCore h)) h
  · exact h

theorem State.Kept.fillUnit {core owner key grain paddr first keep} (h : s.Kept s₀) : (s.fillUnit core owner key grain paddr first keep).Kept s₀ :=
  .evictOver (.settleDue (.modCore (.cacheSectors (.forEach (fun _ _ h => .readOnce h) (.ite (.forEach (fun _ _ h => .performLine h) h) (.victimGrant
    (.forEach (fun _ _ h => .performLine h) h)))))))

theorem State.Kept.refreshSector {core key n} (h : s.Kept s₀) : (s.refreshSector core key n).Kept s₀ := by
  unfold State.refreshSector
  split
  · exact h
  · exact .settleDue (.modCore h)

theorem State.Kept.invalidate {core test} (h : s.Kept s₀) : (s.invalidate core test).Kept s₀ :=
  .forEach (fun _ _ h => .ite (.refreshSector (.readOnce (.performLine h))) (.modCore h)) h

theorem State.Kept.invalidateScope {core part scope} (h : s.Kept s₀) : (s.invalidateScope core part scope).Kept s₀ := .ite h (.invalidate h)

theorem State.Kept.readyLoad {sh src len keep} (h : s.Kept s₀) : (s.readyLoad sh src len keep).Kept s₀ :=
  .ite (.forEach (fun _ _ h => .ite (.refreshSector h) h) h) (.ite (.fillUnit h) h)

theorem State.Kept.readyLane {sid src len keep tag} (h : s.Kept s₀) : (s.readyLane sid src len keep tag).2.Kept s₀ := by
  unfold State.readyLane
  split
  · exact h
  · dsimp only
    split
    · exact .readAcross h
    · exact .ite_snd (.ite (.readAcross (.ite (.performLine h) (.ite (.bringLine (.performLine h)) h))) (.ite (.performLine h) (.ite (.bringLine
        (.performLine h)) h))) (.readyLoad (.ite (.readAcross (.ite (.performLine h) (.ite (.bringLine (.performLine h)) h))) (.ite (.performLine h)
        (.ite (.bringLine (.performLine h)) h))))

theorem State.Kept.fetchData {sid src len} (h : s.Kept s₀) : (s.fetchData sid src len).2.Kept s₀ := by
  unfold State.fetchData
  split
  next heq => exact .of_eq_snd heq (.readyLane h)
  next heq => exact .of_eq_snd heq (.readyLane h)

theorem State.Kept.clearWindow {slice pkg} (h : s.Kept s₀) : (s.clearWindow slice pkg).Kept s₀ := .forEach (fun _ _ h => .answerIf (.performId h)) h

theorem State.Kept.roomFor {slice p} (h : s.Kept s₀) : (s.roomFor slice p).Kept s₀ := .forEach (fun _ _ h => .ite h (.clearWindow h)) h

theorem State.Kept.readyLanes {sid id xs size} (h : s.Kept s₀) : (s.readyLanes sid id xs size).2.Kept s₀ := by
  unfold State.readyLanes
  refine .foldl_snd ?_ h
  intro _ _ h
  split
  · exact h
  · exact .readyLane h

theorem State.Kept.lateSources {sh xs size} (h : s.Kept s₀) : (s.lateSources sh xs size).2.Kept s₀ := .ite_snd h h

theorem State.Kept.bindOne {sid p} (h : s.Kept s₀) : (s.bindOne sid p).Kept s₀ := by
  unfold State.bindOne
  split
  · split
    · exact h
    · refine .ite h ?_
      dsimp only
      split
      next heq => exact .modSheaf (.of_eq_snd heq (.readyLanes (.lateSources (.roomFor h))))
      next heq => exact .stopFlight (.modSheaf (.of_eq_snd heq (.readyLanes (.lateSources (.roomFor h)))))
  · exact h

theorem State.Kept.bindLoad {sid p} (h : s.Kept s₀) : (s.bindLoad sid p).Kept s₀ := by
  unfold State.bindLoad
  split
  · exact h
  · exact .bindOne (.forEach (fun _ _ h => .bindOne h) h)

theorem State.Kept.bindReads {sid paddr len} (h : s.Kept s₀) : (s.bindReads sid paddr len).Kept s₀ := by
  unfold State.bindReads
  split
  · exact h
  · refine .forEach ?_ h
    intro _ _ h
    split
    · exact .bindLoad h
    · exact h

theorem State.Kept.returnLoad {sid pid lanes} (h : s.Kept s₀) : (s.returnLoad sid pid lanes).Kept s₀ := by
  unfold State.returnLoad
  split
  · exact h
  · dsimp only
    split
    · exact .bindLoad h
    · exact .modSheaf (.bindLoad h)

theorem State.Kept.forceResult {sid p} (h : s.Kept s₀) : (s.forceResult sid p).Kept s₀ := by
  unfold State.forceResult
  split
  · exact .returnLoad h
  · exact .modSheaf h
  · exact .forEach (fun _ _ h => .finishMsg h) h

theorem State.Kept.forceResults {sid test} (h : s.Kept s₀) : (s.forceResults sid test).Kept s₀ := by
  unfold State.forceResults
  split
  · exact h
  · exact .forEach (fun _ _ h => .forceResult h) h

theorem State.Kept.buffer {sid line bytes kh key grain hidden} (h : s.Kept s₀) : (s.buffer sid line bytes kh key grain hidden).Kept s₀ := by
  unfold State.buffer
  split
  · exact h
  · refine .ite (.setSheaf h) (.modSheaf (.ite ?_ h))
    split
    · exact .sendEntry h
    · exact h

theorem State.Kept.storeWeak {sid hint line x bytes} (h : s.Kept s₀) : (s.storeWeak sid hint line x bytes).Kept s₀ := by
  unfold State.storeWeak
  split
  · exact h
  · exact .buffer (.updateL1 (.ite (.foldl (fun _ _ h => .fillUnit h) (.sendOverlaps (.bindReads h))) (.sendOverlaps (.bindReads h))))

theorem State.Kept.storeStrong {sid line x bytes} (h : s.Kept s₀) : (s.storeStrong sid line x bytes).Kept s₀ := by
  unfold State.storeStrong
  split
  · exact h
  · exact .send (.updateL1 (.sendLine (.sendOverlaps (.bindReads h))))

theorem State.Kept.storeLanes {sid strong hint xs} (h : s.Kept s₀) : (s.storeLanes sid strong hint xs).Kept s₀ :=
  .forEach (fun _ _ h => .ite (.storeStrong h) (.storeWeak h)) h

theorem State.Kept.atomicL1 {sid src op d d2} (h : s.Kept s₀) : (s.atomicL1 sid src op d d2).2.Kept s₀ := by
  unfold State.atomicL1
  dsimp only
  split
  · exact h
  · split
    next heq => exact .of_eq_snd heq (.readyLane (.bringLine (.performLine (.bindReads h))))
    next heq =>
      exact .ite (.storeLanes (.of_eq_snd heq (.readyLane (.bringLine (.performLine (.bindReads h)))))) (.of_eq_snd heq (.readyLane (.bringLine
        (.performLine (.bindReads h)))))

theorem State.Kept.acquire {sid scope} (h : s.Kept s₀) : (s.acquire sid scope).Kept s₀ := by
  unfold State.acquire
  dsimp only
  split
  · exact .forceResults h
  · exact .invalidateScope (.forceResults h)

theorem State.Kept.drainLocal {sid} (h : s.Kept s₀) : (s.drainLocal sid).Kept s₀ := by
  unfold State.drainLocal
  split
  · exact h
  · exact .ite (.drainMatrix h) h

theorem State.Kept.releaseStart {sid scope} (h : s.Kept s₀) : (s.releaseStart sid scope).Kept s₀ :=
  .ite (.forceResults (.drainLocal h)) (.sendBuffer (.forceResults (.drainLocal h)))

theorem State.Kept.writeBackCore {core} (h : s.Kept s₀) : (s.writeBackCore core).Kept s₀ := .forEach (fun _ _ h => .sendBuffer h) h

/-! ## What follows an instruction (R22 to R26, R99, R141) -/

theorem State.Kept.finish {slot taken target leaves start} (h : s.Kept s₀) : (s.finish slot taken target leaves start).Kept s₀ := .modSheaf h

theorem State.Kept.compareShare {sid} (h : s.Kept s₀) : (s.compareShare sid).Kept s₀ := by
  unfold State.compareShare
  split
  · exact h
  · split <;> exact h

theorem State.Kept.beginWait {slot kind} (h : s.Kept s₀) : (s.beginWait slot kind).Kept s₀ := .compareShare (.modSheaf h)

theorem State.Kept.reissue {sid} (h : s.Kept s₀) : (s.reissue sid).Kept s₀ := .modSheaf h

theorem State.Kept.complete {sid} (h : s.Kept s₀) : (s.complete sid).Kept s₀ := by
  unfold State.complete
  split
  · exact .finish h
  · exact h

theorem State.Kept.trapWait {sid cause sub info} (h : s.Kept s₀) : (s.trapWait sid cause sub info).Kept s₀ := by
  unfold State.trapWait
  split
  · exact .trap h
  · exact h

theorem State.Kept.markAborted {tid} (h : s.Kept s₀) : (s.markAborted tid).Kept s₀ := .modTuft h

theorem State.Kept.raiseFault {slot f} (h : s.Kept s₀) : (s.raiseFault slot f).Kept s₀ := by
  unfold State.raiseFault
  split
  · exact h
  · exact .ite (.endSheaf h) (.ite (.doubleTrap h) (.ite (.markAborted (.modSheaf (.postSheafFault h))) (.beginWait (.postSheafFault h))))

/-! ## Groups, barriers, rings, tags and waits (R206 to R212, R267 to R278) -/

theorem State.Kept.endWait {sid now} (hnow : ∀ t, t.Kept s₀ → (now t).Kept s₀) (h : s.Kept s₀) : (s.endWait sid now).Kept s₀ := by
  unfold State.endWait
  split
  · exact .ite (hnow _ h) (.setSheaf h)
  · exact h

theorem State.Kept.releaseGroup {t g} (h : s.Kept s₀) : (s.releaseGroup t g).Kept s₀ := by
  unfold State.releaseGroup
  refine .forEach ?_ h
  intro _ _ h
  split
  · split
    · exact .ite (.endWait (fun _ h => .complete (.acquire h)) h) h
    · exact .ite (.endWait (fun _ h => .reissue h) h) h
    · exact h
  · exact h

theorem State.Kept.checkComplete {tid g} (h : s.Kept s₀) : (s.checkComplete tid g).Kept s₀ := by
  unfold State.checkComplete
  split
  · exact h
  · split
    · exact h
    · exact .ite h (.releaseGroup (.traceTuft (.forEach (fun _ _ h => .modSheaf h) (.setTuft h))))

theorem State.Kept.addArrived {tid g up} (h : s.Kept s₀) : (s.addArrived tid g up).Kept s₀ := .modTuft h

theorem State.Kept.arrive {sid tid g} (h : s.Kept s₀) : (s.arrive sid tid g).Kept s₀ := .checkComplete (.addArrived (.modSheaf h))

theorem State.Kept.exitGroups {sid} (h : s.Kept s₀) : (s.exitGroups sid).Kept s₀ := by
  unfold State.exitGroups
  split
  · exact h
  · split
    · exact h
    · exact .forEach (fun _ _ h => .checkComplete (.ite (.modSheaf (.addArrived h)) h)) h

theorem State.Kept.modRing {tid n f} (h : s.Kept s₀) : (s.modRing tid n f).Kept s₀ := .modTuft h

theorem State.Kept.modTag {tid n f} (h : s.Kept s₀) : (s.modTag tid n f).Kept s₀ := .modTuft h

theorem State.Kept.completeTag {tid n failed} (h : s.Kept s₀) : (s.completeTag tid n failed).Kept s₀ := by
  unfold State.completeTag
  dsimp only
  split
  · exact .ite (.traceTuft (.modTag h)) (.modTag h)
  · exact .modTag h

theorem State.Kept.exitLanes {sid lanes} (h : s.Kept s₀) : (s.exitLanes sid lanes).Kept s₀ := by
  unfold State.exitLanes
  split
  · exact h
  · exact .ite (.setSheaf h) (.ite (.poisonBy (.setSheaf h)) (.exitGroups (.setSheaf h)))

theorem State.Kept.modFront {core f} (h : s.Kept s₀) : (s.modFront core f).Kept s₀ := .modCore h

theorem State.Kept.postParcel {sh target channel b} (h : s.Kept s₀) : (s.postParcel sh target channel b).Kept s₀ := .modFront h

theorem State.Kept.judgeChild {part ctx id} (h : s.Kept s₀) : (s.judgeChild part ctx id).Kept s₀ := by
  unfold State.judgeChild
  split
  · exact .ite (.noteChild (.modCtx h)) h
  · exact h

theorem State.Kept.childReturn {sid id kid reg k} (h : s.Kept s₀) : (s.childReturn sid id kid reg k).Kept s₀ :=
  .judgeChild (.modCtx (.modSheaf (.acquire h)))

theorem State.Kept.actReply {sid a lanes code} (h : s.Kept s₀) : (s.actReply sid a lanes code).Kept s₀ := by
  unfold State.actReply
  split
  · split
    · exact .reissue h
    · exact .ite (.doubleTrap h) (.ite (.faultSheaf h) (.reissue (.modSheaf (.faultLanes h))))
  · exact h

theorem State.Kept.serviceEnd {sid failed} (h : s.Kept s₀) : (s.serviceEnd sid failed).Kept s₀ := by
  unfold State.serviceEnd
  split
  · split
    · exact .ite (.endSheaf h) (.complete (.acquire h))
    · exact h
  · exact h

theorem State.Kept.settleOne {sid} (h : s.Kept s₀) : (s.settleOne sid).Kept s₀ := by
  unfold State.settleOne
  split
  · exact h
  · split
    · split
      · exact .ite (.reissue h) h
      · exact .ite (.complete (.acquire (.invalidateScope h))) h
      · split
        · exact .ite (.complete (.acquire h)) h
        · exact .trapWait h
        · exact h
      · exact .ite (.reissue h) h
      · exact .ite (.reissue h) h
      · exact .ite (.reissue h) h
      · exact .ite (.reissue h) h
      · exact .ite (.reissue h) h
      · split
        · exact .trapWait h
        · exact .trapWait h
        · exact h
        · exact .reissue h
      · split
        · exact .trapWait h
        · exact .trapWait h
        · exact h
        · exact .reissue h
      · split
        · exact .ite h (.serviceEnd h)
        · exact h
      · exact .ite (.reissue h) h
      · exact .ite (.reissue h) h
      · exact .ite (.complete h) (.ite (.complete (.postParcel h)) h)
      · split
        · exact .ite (.complete (.childReturn h)) h
        · exact .reissue h
      · exact .ite (.complete h) (.ite (.trapWait h) (.ite (.trapWait (.modSheaf h)) h))
      · exact .ite (.reissue h) h
      · exact .ite (.reissue h) h
      · exact h
      · exact .actReply h
      · exact .ite (.reissue h) h
      · exact .ite h (.reissue h)
      · exact .ite (.complete (.acquire h)) h
    · exact h

theorem State.Kept.settlePass (h : s.Kept s₀) : s.settlePass.Kept s₀ := .forEach (fun _ _ h => .settleOne h) h

theorem State.Kept.settleFrom {fuel} (h : s.Kept s₀) : (State.settleFrom fuel s).Kept s₀ := by
  induction fuel generalizing s with
  | zero => exact h
  | succ fuel ih => exact .ite (.settlePass h) (ih (.settlePass h))

theorem State.Kept.settle (h : s.Kept s₀) : s.settle.Kept s₀ := .settleFrom h

/-! ## The issue of one instruction (R86, R92 to R99) -/

theorem State.Kept.interlock {sid start names} (h : s.Kept s₀) : (s.interlock sid start names).Kept s₀ := .forceResults h

theorem State.Kept.replayMatrix {sid sh op} (h : s.Kept s₀) : (s.replayMatrix sid sh op).Kept s₀ := .ite (.drainMatrix h) h

theorem Act.Kept.noteWrites {sid regs x3} (hx3 : x3.Kept s₀) : (Act.noteWrites sid regs x3).Kept s₀ := by
  unfold Act.noteWrites
  split
  · exact .next (.modSheaf hx3)
  · exact hx3

theorem Act.Kept.issueRepeat {f op slot start} (hop : op.Kept) (h : s.Kept s₀) : (issueRepeat f op slot start s).Kept s₀ := by
  unfold Machine.issueRepeat
  split
  · exact .stop h
  · refine .ite (.stop h) ?_
    split
    · exact .trap h
    · dsimp only
      split
      · exact .stop (.interlock (.replayMatrix h))
      · exact .ite (.stop (.interlock (.replayMatrix h))) (.ite (.next (.interlock (.replayMatrix h))) (.ite (hop _ _ _ _ (.interlock (.replayMatrix
          h))) (.noteWrites (hop _ _ _ _ (.interlock (.replayMatrix h))))))

theorem State.Kept.stopAt {slot start} (h : s.Kept s₀) : (s.stopAt slot start).Kept s₀ := .modSheaf h

theorem State.Kept.endAct {slot start x3} (hx3 : x3.Kept s₀) : (endAct slot start x3).Kept s₀ := by
  unfold Machine.endAct
  split
  · exact .finish hx3
  · exact .finish hx3
  · exact .finish hx3
  · exact hx3
  · exact .trap hx3
  · exact .raiseFault (.stopAt hx3)
  · exact .beginWait (.stopAt hx3)

theorem State.Kept.runRepeats {f g n op slot start left k} (hop : ∀ slot, (op slot).Kept) (h : s.Kept s₀) :
    (runRepeats f g n op slot start left k s).Kept s₀ := by
  induction left generalizing s k with
  | zero => exact h
  | succ left ih =>
    unfold Machine.runRepeats
    split
    · exact h
    next sh _ =>
      have hact : (issueRepeat f { op (slot.atRepeat sh g n k) with ok := (op (slot.atRepeat sh g n k)).ok && guardOk g n } (slot.atRepeat sh g n k)
          start s).Kept s₀ := .issueRepeat (fun _ _ _ _ h => hop _ _ _ _ _ h) h
      dsimp only
      split
      next heq =>
        have hnext := Act.Kept.of_eq heq hact
        exact .ite (.endAct hnext) (ih hnext)
      next => exact .endAct hact

theorem State.Kept.issue {f g n op} (hop : ∀ x1, (op x1).Kept) (h : s.Kept s₀) : (issue f g n op s).Kept s₀ := by
  unfold Machine.issue
  split
  · exact h
  · exact .settle (.runRepeats (fun _ => hop _) (.ite (.modSheaf h) h))

theorem OutcomeKept.issued {f g n op} (hop : ∀ slot, (op slot).Kept) (h : s.Kept s₀) : OutcomeKept s₀ (issued f g n op s) := .next (.issue hop h)

theorem State.Kept.issueHint {legal add} (h : s.Kept s₀) : (issueHint legal add s).Kept s₀ := by
  unfold Machine.issueHint
  split
  · exact h
  · exact .ite (.trap h) (.setSheaf h)

theorem Act.Kept.ofSheaf {slot sh} (h : s.Kept s₀) : (Act.ofSheaf slot s sh).Kept s₀ := .next (.setSheaf h)

/-! ## Affine instructions and reductions (R43, R133 to R136) -/

theorem Act.Kept.affineAct {slot sh d r srcs mark} (h : s.Kept s₀) : (affineAct slot sh s d r srcs mark).Kept s₀ := by
  unfold Machine.affineAct
  split
  · exact .ofSheaf h
  · exact .trap h

theorem Op.Kept.afOp {bOk f d0 a0 b0 slot} : (afOp bOk f d0 a0 b0 slot).Kept := fun _ _ _ _ h => .affineAct h

theorem Op.Kept.afFromOp {bOk width f d0 b0 slot} : (afFromOp bOk width f d0 b0 slot).Kept := fun _ _ _ _ h => .affineAct h

theorem Op.Kept.anegOp {d0 a0 slot} : (anegOp d0 a0 slot).Kept := fun _ _ _ _ h => .affineAct h

theorem Op.Kept.acmpOp {p a b c x5} : (acmpOp p a b c x5).Kept := fun _ _ _ _ h => .ofSheaf h

theorem Op.Kept.demoteOp {f d a m p x6} : (demoteOp f d a m p x6).Kept := by
  unfold Machine.demoteOp
  intro _ _ _ _ h
  dsimp only
  split
  · exact .ofSheaf h
  · exact .trap h

theorem Op.Kept.afromvOp {d a x3} : (afromvOp d a x3).Kept := by
  unfold Machine.afromvOp
  intro _ _ _ _ h
  dsimp only
  split
  · exact .affineAct h
  · exact .trap h

/-! ## Special registers (R47 to R49, R131, R132) -/

theorem State.Kept.readClk {package} (h : s.Kept s₀) : (s.readClk package).2.Kept s₀ := .modPackage (fun _ => rfl) h

theorem State.Kept.readSpecial {sh n} (h : s.Kept s₀) : (s.readSpecial sh n).2.Kept s₀ := .ite_snd (.readClk h) h

theorem Op.Kept.srdOp {d r x3} : (srdOp d r x3).Kept := fun _ _ _ _ h => .next (.setSheaf (.readSpecial h))

theorem Op.Kept.swrOp {d r x3} : (swrOp d r x3).Kept := by
  unfold Machine.swrOp
  intro _ _ _ _ h
  dsimp only
  split
  · exact .ofSheaf h
  · exact .trap h

theorem Op.Kept.agetOp {f d r x4} : (agetOp f d r x4).Kept := fun _ _ _ _ h => .ofSheaf h

/-! ## The access of a memory instruction (R153 to R155) -/

theorem Act.Kept.stageFault {f fs} (h : s.Kept s₀) : (stageFault s f fs).Kept s₀ := .ite (.fault h) (.fault h)

theorem State.Kept.translateLanes {sh write accs} (h : s.Kept s₀) : (s.translateLanes sh write accs).2.Kept s₀ :=
  .foldl_snd (fun _ _ h => .xlateTuft h) h

theorem Act.Kept.waitFar {paddr} (h : s.Kept s₀) : (waitFar paddr s).Kept s₀ := .wait h

theorem Checked.Kept.checkGlobal {sh accs width write flow} (h : s.Kept s₀) : (s.checkGlobal sh accs width write flow).Kept s₀ := by
  unfold State.checkGlobal
  split
  · exact .stop (.stageFault h)
  · dsimp only
    split
    · exact .stop (.stageFault (.translateLanes h))
    · split
      · exact .stop (.wait (.translateLanes h))
      · split
        · exact .stop (.waitFar (.translateLanes h))
        · split
          · exact .stop (.stageFault (.translateLanes h))
          · split
            · exact .stop (.stageFault (.translateLanes h))
            · split
              · exact .stop (.waitFar (.translateLanes h))
              · exact .go (.translateLanes h)

theorem CheckedLocal.Kept.checkLocal {slot sh la dists width store} (h : s.Kept s₀) : (s.checkLocal slot sh la dists width store).Kept s₀ := by
  unfold State.checkLocal
  dsimp only
  split
  · exact .stop (.stageFault h)
  · split
    · exact .stop (.trap h)
    · exact .ite (.ite (.stop (.trap h)) (.go (.ite (.drainMatrix h) h))) (.go h)

/-! ## Loads and stores (R156 to R164) -/

theorem Op.Kept.loadGlobal {size k w fresh window d0 base off0 slot} : (loadGlobal size k w fresh window d0 base off0 slot).Kept := by
  unfold Machine.loadGlobal
  intro _ _ _ _ h
  dsimp only
  split
  next heq => exact Checked.Kept.of_eq heq (.checkGlobal h)
  next heq => exact .next (.setSheaf (.same (Checked.Kept.of_eq heq (.checkGlobal h)) rfl rfl))

theorem Op.Kept.storeGlobal {size k strong hint d0 base off0 slot} : (storeGlobal size k strong hint d0 base off0 slot).Kept := by
  unfold Machine.storeGlobal
  intro _ _ _ _ h
  dsimp only
  split
  next heq => exact Checked.Kept.of_eq heq (.checkGlobal h)
  next heq => exact .next (.storeLanes (.setSheaf (Checked.Kept.of_eq heq (.checkGlobal h))))

theorem Op.Kept.loadLocal {size k w window d0 base off0 slot} : (loadLocal size k w window d0 base off0 slot).Kept := by
  unfold Machine.loadLocal
  intro _ _ _ _ h
  dsimp only
  split
  next heq => exact CheckedLocal.Kept.of_eq heq (.checkLocal h)
  next heq => exact .next (.modSheaf (.same (CheckedLocal.Kept.of_eq heq (.checkLocal h)) rfl rfl))

theorem State.Kept.storeLocal {xs bytes mark} (h : s.Kept s₀) : (s.storeLocal xs bytes mark).Kept s₀ := .forEach (fun _ _ h => .writeLocal h) h

theorem Op.Kept.storeLocalOp {size k hint d0 base off0 slot} : (storeLocalOp size k hint d0 base off0 slot).Kept := by
  unfold Machine.storeLocalOp
  intro _ _ _ _ h
  dsimp only
  split
  next heq => exact CheckedLocal.Kept.of_eq heq (.checkLocal h)
  next heq => exact .next (.modSheaf (.storeLocal (CheckedLocal.Kept.of_eq heq (.checkLocal h))))

theorem State.Kept.prefetch {sid fresh va} (h : s.Kept s₀) : (s.prefetch sid fresh va).Kept s₀ := by
  unfold State.prefetch
  split
  · exact h
  · refine .ite h ?_
    split
    next heq =>
      exact .ite (.of_eq_snd heq (.xlateTuft h)) (.ite (.refreshSector (.performLine (.modSheaf (.of_eq_snd heq (.xlateTuft h))))) (.modCore
        (.fillUnit (.modSheaf (.of_eq_snd heq (.xlateTuft h))))))
    · exact h

theorem Op.Kept.prefetchOp {fresh base off0 slot} : (prefetchOp fresh base off0 slot).Kept := by
  unfold Machine.prefetchOp
  intro _ _ _ _ h
  dsimp only
  exact .next (.forEach (fun _ _ h => .prefetch h) (.setSheaf h))

theorem Act.Kept.loadNow {slot sh va size fresh next} (hnext : ∀ x1 x2 t, t.Kept s₀ → (next x1 x2 t).Kept s₀) (h : s.Kept s₀) :
    (s.loadNow slot sh va size fresh next).Kept s₀ := by
  unfold State.loadNow
  split
  next heq => exact Checked.Kept.of_eq heq (.checkGlobal h)
  next heq =>
    split
    · dsimp only
      split
      next heq'' => exact hnext _ _ _ (.of_eq_snd heq'' (.fetchData (.forceResults (.setSheaf (Checked.Kept.of_eq heq (.checkGlobal h))))))
      next heq'' => exact .stop (.endSheaf (.of_eq_snd heq'' (.fetchData (.forceResults (.setSheaf (Checked.Kept.of_eq heq (.checkGlobal h)))))))
    · exact .next (Checked.Kept.of_eq heq (.checkGlobal h))

theorem Op.Kept.ldsOp {k d b x4} : (ldsOp k d b x4).Kept := by
  unfold Machine.ldsOp
  intro _ _ _ _ h
  dsimp only
  exact .loadNow (fun _ _ _ h => .next (.modSheaf h)) h

theorem Op.Kept.ldpOp {d o w slot} : (ldpOp d o w slot).Kept := by
  unfold Machine.ldpOp
  intro _ _ _ _ h
  dsimp only
  split
  · exact .trap h
  · exact .ite (.ofSheaf h) (.loadNow (fun _ _ _ h => .next (.modSheaf h)) h)

theorem Op.Kept.ldlsOp {d b x3} : (ldlsOp d b x3).Kept := by
  unfold Machine.ldlsOp
  intro _ _ _ _ h
  dsimp only
  split
  next heq => exact CheckedLocal.Kept.of_eq heq (.checkLocal h)
  next heq => exact .next (.modSheaf (CheckedLocal.Kept.of_eq heq (.checkLocal h)))

/-! ## Atomics (R165 to R169) -/

theorem ReleaseKept.releaseFirst {sid r scope} (h : s.Kept s₀) : ReleaseKept s₀ (s.releaseFirst sid r scope) :=
  .ite (.inr h) (.ite (.inl (.stop (.releaseStart h))) (.ite (.inr (.releaseStart h)) (.inl (.wait (.releaseStart h)))))

theorem Act.Kept.acquireAfter {sid r scope} (h : s.Kept s₀) : (s.acquireAfter sid r scope).Kept s₀ :=
  .ite (.next h) (.ite (.next (.acquire h)) (.wait h))

theorem State.Kept.sendAtomics {sid op pid xs} (h : s.Kept s₀) : (s.sendAtomics sid op pid xs).Kept s₀ :=
  .forEach (fun _ _ h => .send (.sendLine (.sendOverlaps (.bindReads h)))) h

theorem State.Kept.atomicsL1 {sid op xs} (h : s.Kept s₀) : (s.atomicsL1 sid op xs).2.2.Kept s₀ := by
  unfold State.atomicsL1
  refine .foldl_snd_snd ?_ h
  intro _ _ h
  split
  · exact h
  · split
    next heq => exact .of_eq_snd heq (.atomicL1 h)
    next heq => exact .of_eq_snd heq (.atomicL1 h)

theorem Act.Kept.atomicAct {slot op scope r varying regs lanes whole window xs mark} (h : s.Kept s₀) :
    (s.atomicAct slot op scope r varying regs lanes whole window xs mark).Kept s₀ := by
  unfold State.atomicAct
  split
  next heq => exact ReleaseKept.of_eq heq (.releaseFirst h)
  next heq =>
    refine .ite ?_ (.acquireAfter (.sendAtomics (.modSheaf (.same (ReleaseKept.of_eq heq (.releaseFirst h)) rfl rfl))))
    split
    next heq' => exact .stop (.endSheaf (.of_eq_snd_snd heq' (.atomicsL1 (.same (ReleaseKept.of_eq heq (.releaseFirst h)) rfl rfl))))
    next heq' => exact .acquireAfter (.modSheaf (.of_eq_snd_snd heq' (.atomicsL1 (.same (ReleaseKept.of_eq heq (.releaseFirst h)) rfl rfl))))

theorem Op.Kept.atomgOp {d v base op sc r x7} : (atomgOp d v base op sc r x7).Kept := by
  unfold Machine.atomgOp
  intro _ _ _ _ h
  dsimp only
  split
  next heq => exact Checked.Kept.of_eq heq (.checkGlobal h)
  next heq => exact .atomicAct (.setSheaf (Checked.Kept.of_eq heq (.checkGlobal h)))

theorem State.Kept.atomicLocal {place op d d2 mark} (h : s.Kept s₀) : (s.atomicLocal place op d d2 mark).2.Kept s₀ := .writeLocal h

theorem State.Kept.atomicsLocal {op mark xs} (h : s.Kept s₀) : (s.atomicsLocal op mark xs).2.2.Kept s₀ :=
  .foldl_snd_snd (fun _ _ h => .atomicLocal h) h

theorem Op.Kept.atomlOp {d v base op sc r x7} : (atomlOp d v base op sc r x7).Kept := by
  unfold Machine.atomlOp
  intro _ _ _ _ h
  dsimp only
  split
  next heq => exact CheckedLocal.Kept.of_eq heq (.checkLocal h)
  next heq =>
    split
    next heq' => exact ReleaseKept.of_eq heq' (.releaseFirst (CheckedLocal.Kept.of_eq heq (.checkLocal h)))
    next heq' =>
      exact .acquireAfter (.modSheaf (.same (.atomicsLocal (ReleaseKept.of_eq heq' (.releaseFirst (CheckedLocal.Kept.of_eq heq (.checkLocal h))))) rfl
        rfl))

theorem Op.Kept.atomsOp {d b op a x5} : (atomsOp d b op a x5).Kept := by
  unfold Machine.atomsOp
  intro _ _ _ _ h
  dsimp only
  split
  next heq => exact Checked.Kept.of_eq heq (.checkGlobal h)
  next heq => exact .atomicAct (.setSheaf (Checked.Kept.of_eq heq (.checkGlobal h)))

/-! ## Branches, loops and trap instructions (R137 to R147) -/

theorem Act.Kept.transfer {slot register target} (h : s.Kept s₀) : (transfer slot s register target).Kept s₀ := .ite (.jump h) (.trap h)

theorem Op.Kept.branchOp {test x off x4} : (branchOp test x off x4).Kept := fun _ _ _ _ h => .ite (.transfer h) (.next h)

theorem Act.Kept.callAct {slot sh slide register target} (h : s.Kept s₀) : (callAct slot sh s slide register target).Kept s₀ :=
  .ite (.trap h) (.ite (.trap h) (.jump (.setSheaf h)))

theorem Act.Kept.retAct {slot sh slide target} (h : s.Kept s₀) : (retAct slot sh s slide target).Kept s₀ :=
  .ite (.trap h) (.ite (.trap h) (.jump (.setSheaf h)))

theorem Op.Kept.bareOp {body x2} (hbody : ∀ s₀ x1 x2 t, t.Kept s₀ → (body x1 x2 t).Kept s₀) : (bareOp body x2).Kept :=
  fun _ _ _ _ h => hbody _ _ _ _ h

theorem State.Kept.modQuad {core q f} (h : s.Kept s₀) : (s.modQuad core q f).Kept s₀ := .modCore h

theorem Act.Kept.exitAct {slot} (h : s.Kept s₀) : (exitAct slot s).Kept s₀ := by
  unfold Machine.exitAct
  dsimp only
  split
  · exact .ite (.leave (.exitLanes h)) (.stop (.exitLanes h))
  · exact .stop (.exitLanes h)

theorem Op.Kept.loopOp {c b e x4} : (loopOp c b e x4).Kept := fun _ _ _ _ h => .ite (.jump (.setSheaf h)) (.next (.setSheaf h))

theorem Act.Kept.softTrap {slot cause code} (h : s.Kept s₀) : (softTrap slot cause code s).Kept s₀ := .trap (.finish h)

theorem OutcomeKept.execRte {g n} (h : s.Kept s₀) : OutcomeKept s₀ (execRte g n s) := by
  unfold Machine.execRte
  refine .issued ?_ h
  intro _ _ _ _ _ h
  dsimp only
  split
  · exact .stop (.setSheaf h)
  · exact .trap h

theorem OutcomeKept.execXpcr {g n b l} (h : s.Kept s₀) : OutcomeKept s₀ (execXpcr g n b l s) := by
  unfold Machine.execXpcr
  refine .issued ?_ h
  intro _ _ _ _ _ h
  dsimp only
  split
  · exact .ofSheaf h
  · exact .trap h

theorem OutcomeKept.execXpcw {g n b l} (h : s.Kept s₀) : OutcomeKept s₀ (execXpcw g n b l s) := by
  unfold Machine.execXpcw
  refine .issued ?_ h
  intro _ _ _ _ _ h
  dsimp only
  split
  · exact .ite (.trap h) (.ite (.trap h) (.ofSheaf h))
  · exact .trap h

/-! ## Barrier and group instructions (R270 to R278) -/

theorem Op.Kept.groupOp {ok legal uses q arrives poisonMatters body x8} (hbody : ∀ s₀ x1 x2 x3 x4 t, t.Kept s₀ → (body x1 x2 x3 x4 t).Kept s₀) :
    (groupOp ok legal uses q arrives poisonMatters body x8).Kept := by
  unfold Machine.groupOp
  intro _ _ _ _ h
  dsimp only
  split
  · exact .stop h
  · split
    · exact .trap h
    · exact .ite (.trap h) (.ite (.trap h) (hbody _ _ _ _ _ _ h))

theorem State.Kept.arriveNow {sid tid q} (h : s.Kept s₀) : (s.arriveNow sid tid q).Kept s₀ := .ite (.releaseStart h) (.arrive (.releaseStart h))

/-! ## The copy engine (R197 to R205) -/

theorem Act.Kept.cpyAct {kind tag b slot sh} (h : s.Kept s₀) : (cpyAct kind tag b slot sh s).Kept s₀ :=
  .ite (.wait h) (.ite (.stop (.releaseStart h)) (.next (.modCore (.modTag (.same (.releaseStart h) rfl rfl)))))

theorem Op.Kept.cpyOp {kind tag b x4} : (cpyOp kind tag b x4).Kept := fun _ _ _ _ h => .cpyAct h

theorem State.Kept.endCopy {core c failed} (h : s.Kept s₀) : (s.endCopy core c failed).Kept s₀ := .completeTag (.modCore h)

theorem State.Kept.startCopy {core} (h : s.Kept s₀) : (s.startCopy core).Kept s₀ := by
  unfold State.startCopy
  split
  · exact h
  · exact .ite (.endCopy h) (.ite (.endCopy h) (.modCopy h))

theorem State.Kept.copyRecord {core c code reason va detail reply} (h : s.Kept s₀) : (s.copyRecord core c code reason va detail reply).2.Kept s₀ :=
  .postSheafFault h

theorem State.Kept.copyFault {core c j page code reason va detail} (h : s.Kept s₀) : (s.copyFault core c j page code reason va detail).2.Kept s₀ :=
  .ite_snd (.copyRecord h) (.modCopy (.copyRecord h))

theorem State.Kept.judgeTrans {core c write flow j page t} (h : s.Kept s₀) : (s.judgeTrans core c write flow j page t).2.Kept s₀ := by
  unfold State.judgeTrans
  split
  · exact h
  · refine .ite_snd h ?_
    split
    · exact .copyRecord h
    · exact h

theorem State.Kept.judgePage {core c write flow j va} (h : s.Kept s₀) : (s.judgePage core c write flow j va).2.Kept s₀ := by
  unfold State.judgePage
  refine .ite_snd h (.ite_snd h (.ite_snd (.copyFault h) ?_))
  split
  next heq => exact .copyFault (.of_eq_snd heq (.xlateTuft h))
  next heq => exact .of_eq_snd heq (.xlateTuft h)
  next heq => exact .of_eq_snd heq (.xlateTuft h)
  next heq => exact .copyRecord (.of_eq_snd heq (.xlateTuft h))
  next heq =>
    exact .ite_snd (.copyFault (.of_eq_snd heq (.xlateTuft h))) (.ite_snd (.copyFault (.of_eq_snd heq (.xlateTuft h))) (.ite_snd (.of_eq_snd heq
      (.xlateTuft h)) (.judgeTrans (.of_eq_snd heq (.xlateTuft h)))))

theorem State.Kept.judgePages {core c write flow vas j} (h : s.Kept s₀) : (s.judgePages core c write flow vas j).2.Kept s₀ :=
  .foldl_snd (fun _ _ h => .judgePage h) h

theorem State.Kept.writePlaces {xs mark tag} (h : s.Kept s₀) : (s.writePlaces xs mark tag).Kept s₀ := .forEach (fun _ _ h => .writeLocal h) h

theorem State.Kept.readPieces {core c j ps} (h : s.Kept s₀) : (s.readPieces core c j ps).2.2.Kept s₀ := by
  unfold State.readPieces
  refine .foldl_snd_snd ?_ h
  intro _ _ h
  refine .ite_snd_snd h ?_
  split
  · exact h
  · exact .ite_snd_snd (.copyRecord h) (.engineReads h)

theorem State.Kept.sendPieces {core c t key bytes} (h : s.Kept s₀) : (s.sendPieces core c t key bytes).Kept s₀ :=
  .modCopy (.forEach (fun _ _ h => .ite h (.sendFor h)) h)

theorem State.Kept.writePieces {core c j xs} (h : s.Kept s₀) : (s.writePieces core c j xs).Kept s₀ := by
  unfold State.writePieces
  refine .forEach ?_ h
  intro _ _ h
  split
  · exact .ite (.sendPieces h) (.invalidate (.putBytes h))
  · exact h

theorem State.Kept.closeCopy {core c failed} (h : s.Kept s₀) : (s.closeCopy core c failed).Kept s₀ := .ite (.modCopy h) (.endCopy h)

theorem State.Kept.gatherRow {core c lp acc j} (hacc : acc.2.Kept s₀) : (State.gatherRow core c lp acc j).2.Kept s₀ := by
  unfold State.gatherRow
  split
  · exact hacc
  · exact .judgePages hacc

theorem State.Kept.gather {core c rows} (h : s.Kept s₀) : (s.gather core c rows).2.Kept s₀ := by
  unfold State.gather
  refine .ite_snd ?_ (.judgePages h)
  split
  · exact .foldl_snd (fun _ _ h => .gatherRow h) h
  · exact h

theorem State.Kept.moveIn {core c} (h : s.Kept s₀) : (s.moveIn core c).Kept s₀ :=
  .ite h (.ite (.gather h) (.endCopy (.writePlaces (.readPieces (.gather h)))))

theorem State.Kept.usePage {core c j u} (h : s.Kept s₀) : (s.usePage core c j u).2.Kept s₀ := by
  unfold State.usePage
  split
  · exact h
  · refine .ite_snd h (.ite_snd h ?_)
    split
    · exact .copyRecord h
    · exact h

theorem State.Kept.usePages {core c} (h : s.Kept s₀) : (s.usePages core c).2.Kept s₀ := .foldl_snd (fun _ _ h => .usePage h) h

theorem State.Kept.moveOut {core c} (h : s.Kept s₀) : (s.moveOut core c).Kept s₀ :=
  .ite (.closeCopy h) (.ite h (.ite (.judgePages (.usePages h)) (.closeCopy (.writePieces (.judgePages (.usePages h))))))

theorem State.Kept.finishPages {core c goes} (h : s.Kept s₀) : (s.finishPages core c goes).Kept s₀ := .ite h (.modCopy (.writePieces (.usePages h)))

theorem State.Kept.moveLocal {core c} (h : s.Kept s₀) : (s.moveLocal core c).Kept s₀ := .ite (.endCopy h) (.endCopy (.writePlaces h))

theorem State.Kept.moveFill {core c} (h : s.Kept s₀) : (s.moveFill core c).Kept s₀ := .ite (.endCopy h) (.endCopy (.writePlaces h))

theorem State.Kept.walkUmbel {core c fuel w} (h : s.Kept s₀) : (s.walkUmbel core c fuel w).2.Kept s₀ := by
  induction fuel generalizing s w with
  | zero => exact h
  | succ fuel ih =>
    unfold State.walkUmbel
    split
    · exact h
    · dsimp only
      split
      · exact .judgePage h
      · exact .ite_snd (.copyRecord (.judgePage h)) (ih (.engineReads (.judgePage h)))

theorem State.Kept.moveXpnd {core c} (h : s.Kept s₀) : (s.moveXpnd core c).Kept s₀ :=
  .ite h (.ite (.walkUmbel h) (.endCopy (.writePlaces (.walkUmbel h))))

theorem State.Kept.earlyLocal {core c unit xs mark tag} (h : s.Kept s₀) : (s.earlyLocal core c unit xs mark tag).Kept s₀ := .modCopy (.writePlaces h)

theorem State.Kept.earlyGlobal {core c j mark xs} (h : s.Kept s₀) : (s.earlyGlobal core c j mark xs).Kept s₀ := .modCopy (.writePieces h)

theorem State.Kept.moveSomeIn {core c rows} (h : s.Kept s₀) : (s.moveSomeIn core c rows).Kept s₀ := .ite h (.earlyLocal (.readPieces (.gather h)))

theorem State.Kept.moveSome {core c} (h : s.Kept s₀) : (s.moveSome core c).Kept s₀ := by
  unfold State.moveSome
  split
  · exact .moveSomeIn h
  · exact .moveSomeIn h
  · exact .ite h (.moveSomeIn (.modCopy h))
  · exact .ite h (.earlyGlobal (.judgePages h))
  · exact .ite h (.earlyGlobal (.judgePages h))
  · exact .ite (.earlyLocal h) h
  · exact .earlyLocal h
  · exact h
  · exact h

theorem State.Kept.copyEarly {core id} (h : s.Kept s₀) : (s.copyEarly core id).Kept s₀ := by
  unfold State.copyEarly
  split
  · exact h
  · exact .ite h (.moveSome (.modCopy h))

theorem State.Kept.settleCopy {core c failed} (h : s.Kept s₀) : (s.settleCopy core c failed).Kept s₀ := .endCopy (.invalidate h)

theorem State.Kept.completeCopy {core id} (h : s.Kept s₀) : (s.completeCopy core id).Kept s₀ := by
  unfold State.completeCopy
  split
  · exact h
  · refine .ite h ?_
    split
    · exact .ite h (.settleCopy h)
    · refine .ite (.closeCopy h) ?_
      split
      · exact .moveIn h
      · exact .moveIn h
      · exact .moveIn h
      · exact .moveOut h
      · exact .moveOut h
      · exact .moveOut h
      · exact .moveXpnd h
      · exact .moveLocal h
      · exact .moveFill h

theorem State.Kept.finishCopy {core id} (h : s.Kept s₀) : (s.finishCopy core id).Kept s₀ :=
  .ite (.completeCopy (.forEach (fun _ _ h => .finishMsg h) (.completeCopy h))) (.completeCopy h)

theorem State.Kept.replyCopy {core id abandon code page} (h : s.Kept s₀) : (s.replyCopy core id abandon code page).Kept s₀ := .modCopy h

/-! ## Tags, stage rings and buffer handles (R206 to R215) -/

theorem Op.Kept.maskOp {ok uses b body x5} (hbody : ∀ s₀ x1 x2 x3 x4 t, t.Kept s₀ → (body x1 x2 x3 x4 t).Kept s₀) :
    (maskOp ok uses b body x5).Kept := by
  unfold Machine.maskOp
  intro _ _ _ _ h
  dsimp only
  split
  · exact .stop h
  · exact .ite (.trap h) (hbody _ _ _ _ _ _ h)

theorem Act.Kept.tagResult {d b slot acquires w} (h : s.Kept s₀) : (tagResult d b slot acquires w s).Kept s₀ :=
  .next (.modSheaf (.ite (.acquire h) h))

theorem OutcomeKept.execTwaitany {g n xs b} (h : s.Kept s₀) : OutcomeKept s₀ (execTwaitany g n xs b s) := by
  unfold Machine.execTwaitany
  refine .issued ?_ h
  intro _
  refine .maskOp ?_
  intro _ _ _ _ _ _ h
  split
  · exact .tagResult h
  · exact .ite (.tagResult h) (.wait h)

theorem OutcomeKept.execTfind {g n xs b} (h : s.Kept s₀) : OutcomeKept s₀ (execTfind g n xs b s) := by
  unfold Machine.execTfind
  refine .issued ?_ h
  intro _
  refine .maskOp ?_
  intro _ _ _ _ _ _ h
  split <;> exact .tagResult h

theorem OutcomeKept.execTstat {g n xs b} (h : s.Kept s₀) : OutcomeKept s₀ (execTstat g n xs b s) := by
  unfold Machine.execTstat
  refine .issued ?_ h
  intro _ _ _ _ _ h
  dsimp only
  split
  · exact .stop h
  · exact .ite (.trap h) (.next (.modSheaf (.ite (.acquire h) h)))

theorem Op.Kept.ringOp {ok r uses roles body x6} (hbody : ∀ s₀ x1 x2 x3 t, t.Kept s₀ → (body x1 x2 x3 t).Kept s₀) :
    (ringOp ok r uses roles body x6).Kept := by
  unfold Machine.ringOp
  intro _ _ _ _ h
  dsimp only
  split
  · exact .stop h
  · split
    · exact .ite (hbody _ _ _ _ _ h) (.trap h)
    · exact hbody _ _ _ _ _ h

theorem State.Kept.putToken {sid r b} (h : s.Kept s₀) : (s.putToken sid r b).Kept s₀ := by
  unfold State.putToken
  split
  · exact .modRing h
  · exact h

theorem Act.Kept.putNow {sid r b f} (hf : ∀ t, t.Kept s₀ → (f t).Kept s₀) (h : s.Kept s₀) : (s.putNow sid r b f).Kept s₀ :=
  .ite (.stop (.releaseStart h)) (.next (hf _ (.putToken (.releaseStart h))))

theorem State.Kept.getToken {sid r b ring} (h : s.Kept s₀) : (s.getToken sid r b ring).Kept s₀ := by
  unfold State.getToken
  split
  · exact h
  · split
    · exact .acquire (.setSheaf (.modRing h))
    · exact h

theorem OutcomeKept.execRput {g n r xs} (h : s.Kept s₀) : OutcomeKept s₀ (execRput g n r xs s) := by
  unfold Machine.execRput
  refine .issued ?_ h
  intro _
  refine .ringOp ?_
  intro _ _ _ _ _ h
  split
  · exact .trap h
  · exact .trap h
  · exact .wait h
  · exact .putNow (fun _ h => h) h

theorem OutcomeKept.execRget {g n r xs} (h : s.Kept s₀) : OutcomeKept s₀ (execRget g n r xs s) := by
  unfold Machine.execRget
  refine .issued ?_ h
  intro _
  refine .ringOp ?_
  intro _ _ _ _ _ h
  split
  · exact .trap h
  · exact .trap h
  · exact .wait h
  · exact .next (.getToken h)

theorem State.Kept.answer {sid p yes} (h : s.Kept s₀) : (s.answer sid p yes).Kept s₀ := .modSheaf h

theorem OutcomeKept.execRputNb {g n r xs p} (h : s.Kept s₀) : OutcomeKept s₀ (execRputNb g n r xs p s) := by
  unfold Machine.execRputNb
  refine .issued ?_ h
  intro _
  refine .ringOp ?_
  intro _ _ _ _ _ h
  split
  · exact .trap h
  · exact .trap h
  · exact .next (.answer h)
  · exact .putNow (fun _ h => .answer h) h

theorem OutcomeKept.execRgetNb {g n r xs p} (h : s.Kept s₀) : OutcomeKept s₀ (execRgetNb g n r xs p s) := by
  unfold Machine.execRgetNb
  refine .issued ?_ h
  intro _
  refine .ringOp ?_
  intro _ _ _ _ _ h
  split
  · exact .trap h
  · exact .next (.answer h)
  · exact .next (.answer h)
  · exact .next (.answer (.getToken h))

theorem State.Kept.freeHandle {core slot} (h : s.Kept s₀) : (s.freeHandle core slot).Kept s₀ := .modFront h

theorem Act.Kept.give {sh buffer slot target channel} (h : s.Kept s₀) : (s.give sh buffer slot target channel).Kept s₀ :=
  .ite (.next (.postParcel (.ite h (.freeHandle h)))) (.wait (.ite h (.freeHandle h)))

theorem OutcomeKept.execHgive {g n b x} (h : s.Kept s₀) : OutcomeKept s₀ (execHgive g n b x s) := by
  unfold Machine.execHgive
  refine .issued ?_ h
  intro _ _ _ _ _ h
  dsimp only
  refine .ite (.trap h) (.ite (.trap h) ?_)
  split
  · exact .trap h
  · exact .ite (.stop (.releaseStart h)) (.ite (.give (.releaseStart h)) (.wait (.releaseStart h)))

theorem OutcomeKept.execHrecv {g n b x} (h : s.Kept s₀) : OutcomeKept s₀ (execHrecv g n b x s) := by
  unfold Machine.execHrecv
  refine .issued ?_ h
  intro _ _ _ _ _ h
  dsimp only
  split
  · exact .wait h
  · split
    · exact .trap h
    · exact .next (.modSheaf (.acquire (.modFront h)))

theorem OutcomeKept.execHdrop {g n b} (h : s.Kept s₀) : OutcomeKept s₀ (execHdrop g n b s) := by
  unfold Machine.execHdrop
  refine .issued ?_ h
  intro _ _ _ _ _ h
  dsimp only
  split
  · exact .trap h
  · exact .ite (.stop (.releaseStart h)) (.ite (.next (.freeHandle (.releaseStart h))) (.wait (.releaseStart h)))

/-! ## Launch units (R235, R257, R265, R405) -/

theorem State.Kept.unitPage {slice part ctx kid va write} (h : s.Kept s₀) : (s.unitPage slice part ctx kid va write).2.Kept s₀ := by
  unfold State.unitPage
  refine .ite_snd h ?_
  split
  next heq => exact .of_eq_snd heq (.walk h)
  next heq => exact .of_eq_snd heq (.walk h)
  next heq => exact .of_eq_snd heq (.walk h)
  next heq => exact .of_eq_snd heq (.walk h)
  next heq =>
    exact .ite_snd (.of_eq_snd heq (.walk h)) (.ite_snd (.of_eq_snd heq (.walk h)) (.ite_snd (.of_eq_snd heq (.walk h)) (.of_eq_snd heq (.walk h))))

theorem State.Kept.unitRead {slice part ctx kid sealedToo fuel va len bs khs} (h : s.Kept s₀) :
    (s.unitRead slice part ctx kid sealedToo fuel va len bs khs).2.Kept s₀ := by
  induction fuel generalizing s va len bs khs with
  | zero => exact h
  | succ fuel ih =>
    unfold State.unitRead
    split
    · exact h
    · have hpage : (s.unitPage slice part ctx kid va false).2.Kept s₀ := .unitPage h
      dsimp only
      split
      · exact .ite_snd hpage (ih (.readLines hpage))
      all_goals exact hpage

theorem State.Kept.unitBytes {slice part ctx kid sealedToo va len} (h : s.Kept s₀) : (s.unitBytes slice part ctx kid sealedToo va len).2.Kept s₀ :=
  .unitRead h

theorem State.Kept.unitWrite {slice part ctx kid va len atomic f} (h : s.Kept s₀) : (s.unitWrite slice part ctx kid va len atomic f).2.Kept s₀ := by
  unfold State.unitWrite
  split
  next heq => exact .ite_snd (.of_eq_snd heq (.unitPage h)) (.writeLines (.putBytes (.of_eq_snd heq (.unitPage h))))
  next heq => exact .of_eq_snd heq (.unitPage h)
  next heq => exact .of_eq_snd heq (.unitPage h)
  next heq => exact .of_eq_snd heq (.unitPage h)
  next heq => exact .of_eq_snd heq (.unitPage h)
  next heq => exact .of_eq_snd heq (.unitPage h)

theorem State.Kept.modQueue {slice entry f} (h : s.Kept s₀) : (s.modQueue slice entry f).Kept s₀ := .modSlice h

theorem State.Kept.holdQueue {slice entry f what} (h : s.Kept s₀) : (s.holdQueue slice entry f what).Kept s₀ := by
  unfold State.holdQueue
  dsimp only
  split
  · exact .modQueue h
  · exact .modQueue (.postSliceFault h)

theorem State.Kept.holdFar {slice entry paddr what} (h : s.Kept s₀) : (s.holdFar slice entry paddr what).Kept s₀ := .modQueue h

theorem State.Kept.holdFarKernel {kid paddr page} (h : s.Kept s₀) : (s.holdFarKernel kid paddr page).Kept s₀ := .modKernel h

theorem State.Kept.postQueueFetch {slice entry} (h : s.Kept s₀) : (s.postQueueFetch slice entry).Kept s₀ := .postSliceFault h

theorem State.Kept.queueError {slice entry err fidx header} (h : s.Kept s₀) : (s.queueError slice entry err fidx header).Kept s₀ :=
  .ite (.modSlice (.modQueue h)) h

theorem State.Kept.abandonAccess {slice entry what} (h : s.Kept s₀) : (s.abandonAccess slice entry what).Kept s₀ := by
  unfold State.abandonAccess
  refine .postQueueFetch (.queueError ?_)
  split
  · exact .modKernel (.modQueue h)
  · exact .modKernel (.modQueue h)
  · exact .modQueue (.modQueue h)
  · exact .modQueue (.modQueue h)
  · exact .modQueue (.modQueue h)
  · exact .refuse (.modQueue (.modQueue h))
  · exact .modQueue h

theorem State.Kept.onWrite {r slice entry what next} (hnext : ∀ t, t.Kept s₀ → (next t).Kept s₀) (hr : r.2.Kept s₀) :
    (State.onWrite r slice entry what next).Kept s₀ := by
  unfold State.onWrite
  split
  · exact hnext _ hr
  · exact .holdQueue hr
  · exact .holdQueue hr
  · exact .holdFar hr
  · exact .abandonAccess (.postSliceFault hr)

theorem State.Kept.onRead {r slice entry what next} (hnext : ∀ x1 t, t.Kept s₀ → (next x1 t).Kept s₀) (hr : r.2.Kept s₀) :
    (State.onRead r slice entry what next).Kept s₀ := by
  unfold State.onRead
  split
  · exact hnext _ _ hr
  · exact .holdQueue hr
  · exact .holdQueue hr
  · exact .holdQueue hr
  · exact .holdFar hr
  · exact .abandonAccess (.postSliceFault hr)

theorem State.Kept.writeHeader {slice entry} (h : s.Kept s₀) : (s.writeHeader slice entry).Kept s₀ :=
  .ite h (.onWrite (fun _ h => .modQueue h) (.unitWrite h))

theorem State.Kept.writeRecordOf {kid} (h : s.Kept s₀) : (s.writeRecordOf kid).Kept s₀ := by
  unfold State.writeRecordOf
  split
  · exact h
  · refine .ite h (.ite ?_ (.ite h (.onWrite (fun _ h => .modKernel h) (.unitWrite h))))
    dsimp only
    split
    · exact .noteChild (.modKernel h)
    · exact .modKernel h

theorem State.Kept.noteKernel {kid f} (h : s.Kept s₀) : (s.noteKernel kid f).Kept s₀ := .writeRecordOf (.modKernel h)

theorem State.Kept.endHead {kid} (h : s.Kept s₀) : (s.endHead kid).Kept s₀ := by
  unfold State.endHead
  split
  · exact h
  · exact .ite (.modQueue h) h

theorem State.Kept.freeQueue {slice entry} (h : s.Kept s₀) : (s.freeQueue slice entry).Kept s₀ := .ite (.modQueue h) h

theorem State.Kept.judgeQueue {slice entry} (h : s.Kept s₀) : (s.judgeQueue slice entry).Kept s₀ := .freeQueue (.ite (.writeHeader (.modQueue h)) h)

theorem State.Kept.judgeChildOf {k} (h : s.Kept s₀) : (s.judgeChildOf k).Kept s₀ := by
  unfold State.judgeChildOf
  split
  · refine .judgeChild ?_
    split
    · exact .modKernel h
    · exact h
  · exact h

theorem State.Kept.endKernel {kid state err} (h : s.Kept s₀) : (s.endKernel kid state err).Kept s₀ := by
  unfold State.endKernel
  split
  · exact h
  · exact .ite h (.judgeQueue (.judgeChildOf (.noteKernel (.endHead h))))

theorem State.Kept.judgeKernel {kid} (h : s.Kept s₀) : (s.judgeKernel kid).Kept s₀ := by
  unfold State.judgeKernel
  split
  · exact h
  · exact .ite h (.ite (.endKernel h) (.ite (.noteKernel h) h))

theorem State.Kept.dropColls {tid all} (h : s.Kept s₀) : (s.dropColls tid all).Kept s₀ := h

theorem State.Kept.orphanChildren {tid part ctx} (h : s.Kept s₀) : (s.orphanChildren tid part ctx).Kept s₀ :=
  .forEach (fun _ _ h => .judgeChild h) (.modCtx h)

theorem State.Kept.removeTuft {tid} (h : s.Kept s₀) : (s.removeTuft tid).Kept s₀ := by
  unfold State.removeTuft
  split
  · exact h
  · dsimp only
    split
    · exact .orphanChildren (.same (.ite (.traceTuft h) h) rfl rfl)
    · exact .same (.ite (.traceTuft h) h) rfl rfl

theorem State.Kept.discardTuft {tid} (h : s.Kept s₀) : (s.discardTuft tid).Kept s₀ := by
  unfold State.discardTuft
  split
  · exact h
  · exact .judgeKernel (.noteKernel (.removeTuft (.dropColls h)))

theorem State.Kept.discardKernel {kid} (h : s.Kept s₀) : (s.discardKernel kid).Kept s₀ := by
  unfold State.discardKernel
  split
  · exact h
  · exact .ite h (.endKernel (.forEach (fun _ _ h => .removeTuft (.dropColls h)) h))

theorem State.Kept.recordFaults {xs code reason detail} (h : s.Kept s₀) : (s.recordFaults xs code reason detail).Kept s₀ :=
  .foldl (fun _ _ h => .postSheafFault h) h

theorem State.Kept.faultTuft {tid code reason detail} (h : s.Kept s₀) : (s.faultTuft tid code reason detail).Kept s₀ :=
  .foldl (fun _ _ h => .faultSheaf h) (.recordFaults h)

theorem State.Kept.breakTuft {tid} (h : s.Kept s₀) : (s.breakTuft tid).Kept s₀ := .foldl (fun _ _ h => .faultSheaf h) (.recordFaults h)

theorem State.Kept.leaveLists {part slice} (h : s.Kept s₀) : (s.leaveLists part slice).Kept s₀ := h

theorem State.Kept.passSlice {part slice} (h : s.Kept s₀) : (s.passSlice part slice).Kept s₀ := .forEach (fun _ _ h => .modSlice h) h

/-! ## The layout of partitions (R299 to R308) -/

theorem State.Kept.scrubCores {slice} (h : s.Kept s₀) : (s.scrubCores slice).Kept s₀ := h

theorem State.Kept.moveMemory {f} (h : s.Kept s₀) : (s.moveMemory f).Kept s₀ := .of_inv h (fun hinv => State.moveMemory_wf hinv f) rfl

theorem State.Kept.bringTop {p slice} (h : s.Kept s₀) : (s.bringTop p slice).Kept s₀ := .moveMemory h

theorem State.Kept.leaveTop {p slice} (h : s.Kept s₀) : (s.leaveTop p slice).Kept s₀ := .moveMemory h

theorem State.Kept.modPort {slice f} (h : s.Kept s₀) : (s.modPort slice f).Kept s₀ := by
  unfold State.modPort
  refine .ite (.modSlice h) ?_
  split
  · exact .trace (.modSlice h)
  · exact .modSlice h

theorem State.Kept.dropInFlight {slice} (h : s.Kept s₀) : (s.dropInFlight slice).Kept s₀ := h

theorem State.Kept.fencePort {slice} (h : s.Kept s₀) : (s.fencePort slice).Kept s₀ := .ite (.modPort (.dropInFlight h)) h

theorem State.Kept.handSlice {slice owner} (h : s.Kept s₀) : (s.handSlice slice owner).Kept s₀ := .scrubCores (.modSlice (.fencePort h))

theorem State.Kept.answerMail {part code} (h : s.Kept s₀) : (s.answerMail part code).Kept s₀ := .modSlice (.modPart h)

theorem State.Kept.raiseLseq {part} (h : s.Kept s₀) : (s.raiseLseq part).Kept s₀ := .modPart h

theorem State.Kept.trimFrames {part} (h : s.Kept s₀) : (s.trimFrames part).Kept s₀ := h

theorem State.Kept.rehomeLost {pkg base} (h : s.Kept s₀) : (s.rehomeLost pkg base).Kept s₀ := h

theorem State.Kept.finishRemove {part slice} (h : s.Kept s₀) : (s.finishRemove part slice).Kept s₀ := by
  unfold State.finishRemove
  dsimp only
  split
  · exact h
  · exact .answerMail (.trimFrames (.rehomeLost (.passSlice (.leaveLists (.handSlice (.setPart (.leaveTop h)))))))

/-! ## The dispatch of a kernel (R233, R287) -/

theorem State.Kept.refuseKernel {kid err} (h : s.Kept s₀) : (s.refuseKernel kid err).Kept s₀ := .endKernel h

theorem State.Kept.holdDispatch {kid k f} (h : s.Kept s₀) : (s.holdDispatch kid k f).Kept s₀ := .modKernel (.postSliceFault h)

theorem State.Kept.dispatchRead {kid k va len next} (hnext : ∀ x1 t, t.Kept s₀ → (next x1 t).Kept s₀) (h : s.Kept s₀) :
    (s.dispatchRead kid k va len next).Kept s₀ := by
  unfold State.dispatchRead
  split
  next heq => exact hnext _ _ (.of_eq_snd heq (.unitBytes h))
  next heq => exact .refuseKernel (.of_eq_snd heq (.unitBytes h))
  next heq => exact .holdDispatch (.of_eq_snd heq (.unitBytes h))
  next heq => exact .of_eq_snd heq (.unitBytes h)
  next heq => exact .holdFarKernel (.of_eq_snd heq (.unitBytes h))
  next heq => exact .refuseKernel (.postSliceFault (.of_eq_snd heq (.unitBytes h)))

theorem State.Kept.readDesc {kid k} (h : s.Kept s₀) : (s.readDesc kid k).Kept s₀ := .dispatchRead (fun _ _ h => .modKernel h) h

theorem State.Kept.readTables {kid k} (h : s.Kept s₀) : (s.readTables kid k).Kept s₀ := by
  unfold State.readTables
  refine .dispatchRead ?_ h
  intro _ _ h
  refine .dispatchRead ?_ h
  intro _ _ h
  dsimp only
  split
  · exact .refuseKernel h
  · exact .modKernel h

theorem State.Kept.readBindings {kid k} (h : s.Kept s₀) : (s.readBindings kid k).Kept s₀ :=
  .ite (.modKernel h) (.dispatchRead (fun _ _ h => .ite (.modKernel h) (.refuseKernel h)) h)

theorem State.Kept.readImage {kid k} (h : s.Kept s₀) : (s.readImage kid k).Kept s₀ := by
  unfold State.readImage
  refine .ite (.modKernel h) (.ite (.refuseKernel h) ?_)
  split
  next heq => exact .ite (.refuseKernel (.of_eq_snd heq (.unitBytes h))) (.modKernel (.of_eq_snd heq (.unitBytes h)))
  next heq => exact .holdDispatch (.of_eq_snd heq (.unitBytes h))
  next heq => exact .holdDispatch (.of_eq_snd heq (.unitBytes h))
  next heq => exact .of_eq_snd heq (.unitBytes h)
  next heq => exact .holdFarKernel (.of_eq_snd heq (.unitBytes h))
  next heq => exact .refuseKernel (.postSliceFault (.of_eq_snd heq (.unitBytes h)))

theorem State.Kept.dispatchStage {kid} (h : s.Kept s₀) : (s.dispatchStage kid).Kept s₀ := by
  unfold State.dispatchStage
  split
  · exact h
  · refine .ite (.ite (.modKernel h) h) (.ite (.refuseKernel (.ite (.modKernel h) h)) ?_)
    split
    · exact .readDesc (.ite (.modKernel h) h)
    · exact .readTables (.ite (.modKernel h) h)
    · exact .readBindings (.ite (.modKernel h) h)
    · exact .readImage (.ite (.modKernel h) h)
    · exact .ite (.modKernel h) h

theorem State.Kept.dispatchAll {kid} (h : s.Kept s₀) : (s.dispatchAll kid).Kept s₀ := .foldl (fun _ _ h => .dispatchStage h) h

theorem State.Kept.beginDispatch {kid} (h : s.Kept s₀) : (s.beginDispatch kid).Kept s₀ := by
  unfold State.beginDispatch
  split
  · exact h
  · exact .ite (.noteKernel h) h

theorem State.Kept.passPages {kid k x n page b} (h : s.Kept s₀) : (s.passPages kid k x n page b).2.Kept s₀ := by
  induction n generalizing s page b with
  | zero => exact h
  | succ n ih =>
    unfold State.passPages
    dsimp only
    split
    next heq =>
      have hwalk := State.Kept.of_eq_snd heq (.walkSetting h)
      exact .ite_snd hwalk (ih (.ite (.setEntryBits hwalk) hwalk))
    next heq =>
      have hwalk := State.Kept.of_eq_snd heq (.walkSetting h)
      exact .ite_snd (ih hwalk) hwalk
    next heq =>
      have hwalk := State.Kept.of_eq_snd heq (.walkSetting h)
      exact .ite_snd (ih hwalk) hwalk
    next heq => exact .of_eq_snd heq (.walkSetting h)
    next heq => exact .of_eq_snd heq (.walkSetting h)

theorem State.Kept.passRanges {kid k xs b} (h : s.Kept s₀) : (s.passRanges kid k xs b).2.Kept s₀ := by
  induction xs generalizing s b with
  | nil => exact h
  | cons x xs ih =>
    unfold State.passRanges
    split
    next heq => exact ih (.of_eq_snd heq (.passPages h))
    next => exact .passPages h

theorem State.Kept.residencyPass {kid} (h : s.Kept s₀) : (s.residencyPass kid).Kept s₀ := by
  unfold State.residencyPass
  split
  · exact h
  · refine .ite h ?_
    split
    next heq =>
      exact .ite (.judgeKernel (.noteKernel (.endHead (.noteKernel (.of_eq_snd heq (.passRanges h)))))) (.noteKernel (.of_eq_snd heq (.passRanges h)))
    next heq => exact .of_eq_snd heq (.passRanges h)
    next heq => exact .holdFarKernel (.of_eq_snd heq (.passRanges h))
    next heq => exact .refuseKernel (.of_eq_snd heq (.passRanges h))
    next heq => exact .modKernel (.postSliceFault (.of_eq_snd heq (.passRanges h)))

/-! ## The life of a tuft (R27, R34, R234 to R248) -/

theorem State.Kept.startOn {kid k core} (h : s.Kept s₀) : (s.startOn kid k core).Kept s₀ := .ite h (.modKernel (.invalidateScope h))

theorem State.Kept.placeTuft {kid k tid index core frame} (h : s.Kept s₀) : (s.placeTuft kid k tid index core frame).Kept s₀ :=
  .ite (.traceTuft (.setTuft (.forEach (fun _ _ h => .setSheaf h) (.same (.startOn h) rfl rfl)))) (.modSlice (.traceTuft (.setTuft (.forEach (fun _ _
    h => .setSheaf h) (.same (.startOn h) rfl rfl)))))

theorem State.Kept.advanceNext {kid} (h : s.Kept s₀) : (s.advanceNext kid).Kept s₀ := by
  unfold State.advanceNext
  dsimp only
  split
  · exact .ite (.endHead (.modKernel (.modKernel h))) (.modKernel h)
  · exact .modKernel h

theorem State.Kept.placeNext {kid} (h : s.Kept s₀) : (s.placeNext kid).Kept s₀ := by
  unfold State.placeNext
  split
  · exact h
  · refine .ite h ?_
    split
    · split
      · exact h
      · split
        · exact .noteKernel (.placeTuft h)
        · exact .writeRecordOf (.advanceNext (.placeTuft (.fresh h)))
    · exact h

theorem State.Kept.completeTuft {tid} (h : s.Kept s₀) : (s.completeTuft tid).Kept s₀ := by
  unfold State.completeTuft
  split
  · exact h
  · exact .ite h (.ite (.forEach (fun _ _ h => .sendBuffer h) h) (.judgeKernel (.noteKernel (.removeTuft (.forEach (fun _ _ h => .sendBuffer h) h)))))

theorem State.Kept.signalKernel {kid} (h : s.Kept s₀) : (s.signalKernel kid).Kept s₀ := by
  unfold State.signalKernel
  dsimp only
  split
  · exact .writeRecordOf h
  · exact .ite (.writeRecordOf h) (.ite (.judgeQueue (.modKernel (.writeRecordOf h))) (.onWrite (fun _ h => .judgeQueue (.modKernel h)) (.unitWrite
      (.writeRecordOf h))))

theorem OutcomeKept.execRunmaxExpiry {tid} (h : s.Kept s₀) : OutcomeKept s₀ (execRunmaxExpiry tid s) := by
  unfold Machine.execRunmaxExpiry
  split
  · exact .next h
  · exact .ite (.next (.settle (.faultTuft h))) (.next h)

theorem State.Kept.writeSave {tid} (h : s.Kept s₀) : (s.writeSave tid).Kept s₀ := by
  unfold State.writeSave
  split
  · exact h
  · split
    · exact h
    · refine .forEach ?_ (.modTuft h)
      intro _ _ h
      split
      next heq => exact .putBytes (.of_eq_snd heq (.unitPage h))
      next heq => exact .of_eq_snd heq (.unitPage h)

theorem State.Kept.finishCommands {tid core} (h : s.Kept s₀) : (s.finishCommands tid core).Kept s₀ :=
  .forEach (fun _ _ h => .finishCopy (.startCopy h)) h

theorem State.Kept.quiesce {tid} (h : s.Kept s₀) : (s.quiesce tid).Kept s₀ := by
  unfold State.quiesce
  split
  · exact h
  · exact .forEach (fun _ _ h => .sendBuffer (.forceResults (.drainMatrix h))) (.finishCommands h)

theorem State.Kept.saveTuft {tid forced} (h : s.Kept s₀) : (s.saveTuft tid forced).Kept s₀ := by
  unfold State.saveTuft
  split
  · exact h
  · exact .noteKernel (.writeSave (.modTuft (.forEach (fun _ _ h => .modSheaf h) (.modCore h))))

theorem State.Kept.suspendTuft {tid} (h : s.Kept s₀) : (s.suspendTuft tid).Kept s₀ := by
  unfold State.suspendTuft
  split
  · exact h
  · split
    · exact h
    · refine .ite h ?_
      dsimp only
      split
      · exact .ite (.judgeKernel (.saveTuft (.quiesce h))) (.quiesce h)
      · exact .quiesce h

theorem State.Kept.forceSuspend {tid} (h : s.Kept s₀) : (s.forceSuspend tid).Kept s₀ := by
  unfold State.forceSuspend
  split
  · exact h
  · refine .ite h ?_
    dsimp only
    split
    · exact .ite (.quiesce h) (.judgeKernel (.saveTuft (.quiesce h)))
    · exact .quiesce h

theorem State.Kept.placeAgain {tid t k core} (h : s.Kept s₀) : (s.placeAgain tid t k core).Kept s₀ :=
  .noteKernel (.ite (.setTuft (.same (.forEach (fun _ _ h => .modSheaf h) (.startOn h)) rfl rfl)) (.modSlice (.setTuft (.same (.forEach (fun _ _ h =>
    .modSheaf h) (.startOn h)) rfl rfl))))

theorem State.Kept.reloadTuft {tid} (h : s.Kept s₀) : (s.reloadTuft tid).Kept s₀ := by
  unfold State.reloadTuft
  split
  · exact h
  · split
    · refine .ite h ?_
      split
      · exact h
      · exact .ite (.placeAgain h) (.modTuft (.postSliceFault h))
    · exact h

theorem State.Kept.abortCommands {tid core} (h : s.Kept s₀) : (s.abortCommands tid core).Kept s₀ := .forEach (fun _ _ h => .finishCopy h) (.modCore h)

theorem State.Kept.abortTuft {tid} (h : s.Kept s₀) : (s.abortTuft tid).Kept s₀ := by
  unfold State.abortTuft
  split
  · exact h
  · exact .ite h (.ite (.abortCommands (.dropColls h)) (.judgeKernel (.noteKernel (.setTuft (.removeTuft (.abortCommands (.dropColls h)))))))

/-! ## Child kernels (R249 to R252) -/

theorem State.Kept.launchChild {sh bs reservedOk} (h : s.Kept s₀) : (s.launchChild sh bs reservedOk).2.Kept s₀ := by
  unfold State.launchChild
  split
  · exact h
  · exact .ite_snd h (.ite_snd h (.ite_snd h (.modKernel (.noteChild (.modCtx (.traceLaunch (.setKernel (.fresh h))))))))

theorem Op.Kept.klaunchOp {b x2} : (klaunchOp b x2).Kept := by
  unfold Machine.klaunchOp
  intro _ _ _ _ h
  dsimp only
  split
  next heq => exact ReleaseKept.of_eq heq (.releaseFirst h)
  next heq =>
    split
    · exact .stop (ReleaseKept.of_eq heq (.releaseFirst h))
    · exact .loadNow (fun _ _ _ h => .next (.modSheaf (.launchChild h))) (ReleaseKept.of_eq heq (.releaseFirst h))

theorem Op.Kept.kwaitOp {b x2} : (kwaitOp b x2).Kept := by
  unfold Machine.kwaitOp
  intro _ _ _ _ h
  dsimp only
  split
  · exact .ofSheaf h
  · split
    · exact .ofSheaf h
    · exact .ite (.next (.childReturn h)) (.wait h)

theorem Op.Kept.kquotaOp {b x2} : (kquotaOp b x2).Kept := fun _ _ _ _ h => .ofSheaf h

/-! ## The collective engines (R348 to R353) -/

theorem Act.Kept.collAct {kind tag b x slot sh} (h : s.Kept s₀) : (collAct kind tag b x slot sh s).Kept s₀ :=
  .ite (.wait h) (.ite (.stop (.releaseStart h)) (.ite (.next (.completeTag (.modTag (.releaseStart h)))) (.next (.modSlice (.same (.modTag
    (.releaseStart h)) rfl rfl)))))

theorem Op.Kept.collOp {kind tag b c y x6} : (collOp kind tag b c y x6).Kept := fun _ _ _ _ h => .collAct h

theorem State.Kept.endColls {xs} (h : s.Kept s₀) : (s.endColls xs).Kept s₀ :=
  .forEach (fun _ _ h => .ite (.modSlice h) (.completeTag (.modSlice h))) h

theorem State.Kept.joinColls {part group} (h : s.Kept s₀) : (s.joinColls part group).Kept s₀ := by
  unfold State.joinColls
  split
  · exact h
  · split
    · exact h
    · exact .ite (.forEach (fun _ _ h => .modSlice h) h) (.endColls h)

theorem State.Kept.stretch {core c j chunks} (h : s.Kept s₀) : (s.stretch core c j chunks).2.Kept s₀ := by
  unfold State.stretch
  refine .foldl_snd ?_ h
  intro _ _ h
  split
  · exact .ite_snd (.copyRecord h) (.engineReads h)
  · exact h

theorem State.Kept.readMember {slice c} (h : s.Kept s₀) : (s.readMember slice c).2.Kept s₀ := by
  unfold State.readMember
  refine .ite_snd (.judgePages h) (.ite_snd (.judgePages (.judgePages h)) ?_)
  dsimp only
  split <;> exact .stretch (.stretch (.judgePages (.judgePages h)))

theorem State.Kept.readMembers {xs} (h : s.Kept s₀) : (s.readMembers xs).2.Kept s₀ := by
  unfold State.readMembers
  refine .foldl_snd ?_ h
  intro _ _ h
  split
  · exact h
  · split
    next heq => exact .of_eq_snd heq (.readMember h)
    next heq => exact .of_eq_snd heq (.readMember h)

theorem State.Kept.judgeMember {flow m} (h : s.Kept s₀) : (s.judgeMember flow m).2.Kept s₀ :=
  .ite_snd (.judgePages h) (.ite_snd (.judgePages (.judgePages h)) (.judgePages (.judgePages h)))

theorem State.Kept.judgeMembers {flow ms} (h : s.Kept s₀) : (s.judgeMembers flow ms).2.Kept s₀ := by
  unfold State.judgeMembers
  refine .foldl_snd ?_ h
  intro _ _ h
  split
  · exact h
  · split
    next heq => exact .of_eq_snd heq (.judgeMember h)
    next heq => exact .of_eq_snd heq (.judgeMember h)

theorem State.Kept.writeStretch {core c j chunks bs} (h : s.Kept s₀) : (s.writeStretch core c j chunks bs).Kept s₀ := .writePieces h

theorem State.Kept.writeMember {rank sends m dst back} (h : s.Kept s₀) : (s.writeMember rank sends m dst back).Kept s₀ :=
  .ite (.writeStretch (.writeStretch h)) (.writeStretch h)

theorem State.Kept.closeColls {xs} (h : s.Kept s₀) : (s.closeColls xs).Kept s₀ := .ite (.forEach (fun _ _ h => .modSlice h) h) (.endColls h)

theorem State.Kept.settleColls {xs} (h : s.Kept s₀) : (s.settleColls xs).Kept s₀ := .endColls (.forEach (fun _ _ h => .invalidate h) h)

theorem State.Kept.moveColls {xs} (h : s.Kept s₀) : (s.moveColls xs).Kept s₀ := by
  unfold State.moveColls
  split
  next heq => exact .of_eq_snd heq (.readMembers h)
  next heq =>
    refine .ite (.endColls (.of_eq_snd heq (.readMembers h))) ?_
    split
    next heq' => exact .of_eq_snd heq' (.judgeMembers (.of_eq_snd heq (.readMembers h)))
    next heq' => exact .closeColls (.forEach (fun _ _ h => .writeMember h) (.of_eq_snd heq' (.judgeMembers (.of_eq_snd heq (.readMembers h)))))

theorem State.Kept.completeColls {part group} (h : s.Kept s₀) : (s.completeColls part group).Kept s₀ := by
  unfold State.completeColls
  split
  · exact h
  · split
    · exact h
    · exact .ite (.endColls h) (.ite (.ite h (.settleColls h)) (.ite h (.moveColls h)))

/-! ## Queues (R255 to R265) -/

theorem State.Kept.answerQueue {slice entry result} (h : s.Kept s₀) : (s.answerQueue slice entry result).Kept s₀ :=
  .ite (.modQueue h) (.refuse (.modQueue h))

theorem State.Kept.readLine0 {slice entry} (h : s.Kept s₀) : (s.readLine0 slice entry).2.Kept s₀ := .unitBytes h

theorem State.Kept.openQueue {slice entry} (h : s.Kept s₀) : (s.openQueue slice entry).Kept s₀ :=
  .onRead (fun _ _ h => .ite (.answerQueue h) (.writeHeader (.modQueue (.answerQueue h)))) (.readLine0 h)

theorem State.Kept.registerQueue {slice entry} (h : s.Kept s₀) : (s.registerQueue slice entry).Kept s₀ := by
  unfold State.registerQueue
  dsimp only
  split
  · exact .openQueue (.modQueue h)
  · exact .ite h (.ite (.openQueue (.modQueue h)) (.answerQueue (.modQueue h)))
  · exact h

theorem State.Kept.dropHead {slice entry} (h : s.Kept s₀) : (s.dropHead slice entry).Kept s₀ := .judgeQueue (.modQueue h)

theorem State.Kept.abandonHead {slice entry} (h : s.Kept s₀) : (s.abandonHead slice entry).Kept s₀ := .ite (.dropHead h) h

theorem State.Kept.destroyQueue {slice entry} (h : s.Kept s₀) : (s.destroyQueue slice entry).Kept s₀ :=
  .ite h (.ite (.abandonHead (.writeHeader (.modQueue h))) (.refuse (.modQueue h)))

theorem State.Kept.wakeQueue {slice entry} (h : s.Kept s₀) : (s.wakeQueue slice entry).Kept s₀ :=
  .ite h (.onRead (fun _ _ h => .ite (.modQueue h) (.writeHeader (.queueError (.modQueue h)))) (.readLine0 h))

theorem State.Kept.beginKernel {slice entry p} (h : s.Kept s₀) : (s.beginKernel slice entry p).Kept s₀ :=
  .ite h (.traceLaunch (.noteKernel (.setKernel (.fresh (.modQueue h)))))

theorem State.Kept.readPacket {slice entry} (h : s.Kept s₀) : (s.readPacket slice entry).2.Kept s₀ := .unitBytes h

theorem State.Kept.fetchPacket {slice entry} (h : s.Kept s₀) : (s.fetchPacket slice entry).Kept s₀ :=
  .ite h (.onRead (fun _ _ h => .ite (.writeHeader (.ite (.beginKernel (.modSlice (.modQueue h))) (.modSlice (.modQueue h)))) h) (.readPacket h))

theorem State.Kept.withHead {slice entry type f} (hf : ∀ x1 t, t.Kept s₀ → (f x1 t).Kept s₀) (h : s.Kept s₀) :
    (s.withHead slice entry type f).Kept s₀ := by
  unfold State.withHead
  dsimp only
  split
  · exact h
  · exact .ite h (.ite (.dropHead h) (.ite (hf _ _ h) (.writeHeader (.dropHead (.queueError h)))))

theorem State.Kept.badHead {slice entry} (h : s.Kept s₀) : (s.badHead slice entry).Kept s₀ := by
  unfold State.badHead
  dsimp only
  split
  · exact .ite (.writeHeader (.dropHead (.queueError h))) h
  · exact h

theorem State.Kept.startKernel {slice entry} (h : s.Kept s₀) : (s.startKernel slice entry).Kept s₀ := .withHead (fun _ _ h => .beginKernel h) h

theorem State.Kept.readSignals {slice q as vs} (h : s.Kept s₀) : (s.readSignals slice q as vs).2.2.Kept s₀ := by
  induction as generalizing s vs with
  | nil => exact h
  | cons a as ih =>
    unfold State.readSignals
    split
    next heq => exact ih (.of_eq_snd heq (.unitBytes h))
    next heq => exact .of_eq_snd heq (.unitBytes h)

theorem State.Kept.evaluateWait {slice entry p all} (h : s.Kept s₀) : (s.evaluateWait slice entry p all).Kept s₀ :=
  .onRead (fun _ _ h => .ite (.writeHeader (.dropHead (.queueError h))) (.ite (.dropHead h) (.modQueue h))) (.readSignals h)

theorem State.Kept.sendSignal {slice entry} (h : s.Kept s₀) : (s.sendSignal slice entry).Kept s₀ :=
  .withHead (fun _ _ h => .onWrite (fun _ h => .dropHead h) (.unitWrite h)) h

theorem State.Kept.takeHold {slice entry} (h : s.Kept s₀) : (s.takeHold slice entry).Kept s₀ :=
  .withHead (fun _ _ h => .ite (.modQueue h) (.dropHead (.modCtx h))) h

theorem State.Kept.addHold {slice entry} (h : s.Kept s₀) : (s.addHold slice entry).Kept s₀ := .withHead (fun _ _ h => .dropHead (.modCtx h)) h

theorem State.Kept.retryAccess {slice entry} (h : s.Kept s₀) : (s.retryAccess slice entry).Kept s₀ := by
  unfold State.retryAccess
  split
  · exact h
  · dsimp only
    split
    · exact .registerQueue (.modQueue h)
    · exact .judgeQueue (.wakeQueue (.modQueue h))
    · exact .judgeQueue (.fetchPacket (.modQueue h))
    · exact .withHead (fun _ _ h => .evaluateWait h) (.withHead (fun _ _ h => .evaluateWait h) (.modQueue h))
    · exact .judgeQueue (.writeRecordOf (.modQueue h))
    · exact .signalKernel (.modQueue h)
    · exact .judgeQueue (.writeHeader (.modQueue h))
    · exact .sendSignal (.modQueue h)

/-! ## Contexts and key slots (R312 to R317, R366, R367) -/

theorem State.Kept.writeBackPart {part} (h : s.Kept s₀) : (s.writeBackPart part).Kept s₀ := .forEach (fun _ _ h => .sendBuffer h) h

theorem State.Kept.finishPart {part} (h : s.Kept s₀) : (s.finishPart part).Kept s₀ := .forEach (fun _ _ h => .finishMsg h) h

theorem State.Kept.invalidatePart {part} (h : s.Kept s₀) : (s.invalidatePart part).Kept s₀ := .forEach (fun _ _ h => .invalidate h) h

theorem State.Kept.putKey {part kh k} (h : s.Kept s₀) : (s.putKey part kh k).Kept s₀ := .modPart h

theorem State.Kept.eraseKey {part kh} (h : s.Kept s₀) : (s.eraseKey part kh).Kept s₀ := .invalidatePart (.putKey h)

theorem State.Kept.ctxCommand {part ctx from_ f} (hf : ∀ t, t.Kept s₀ → (f t).Kept s₀) (h : s.Kept s₀) : (s.ctxCommand part ctx from_ f).Kept s₀ := by
  unfold State.ctxCommand
  split
  · exact h
  · exact .ite h (.ite (hf _ (.modCtx h)) (.refuse (.modCtx h)))

theorem State.Kept.setCtxState {part ctx x} (h : s.Kept s₀) : (s.setCtxState part ctx x).Kept s₀ := .modCtx h

theorem State.Kept.ctxCreate {part ctx} (h : s.Kept s₀) : (s.ctxCreate part ctx).Kept s₀ := .ctxCommand (fun _ h => .zeroChildren (.modCtx h)) h

theorem State.Kept.ctxActivate {part ctx} (h : s.Kept s₀) : (s.ctxActivate part ctx).Kept s₀ := .ctxCommand (fun _ h => .setCtxState h) h

theorem State.Kept.preemptKernel {kid} (h : s.Kept s₀) : (s.preemptKernel kid).Kept s₀ := by
  unfold State.preemptKernel
  split
  · exact h
  · exact .ite (.judgeKernel (.noteKernel (.endHead h))) (.ite (.judgeKernel (.modKernel h)) h)

theorem State.Kept.orderSuspension {tid} (h : s.Kept s₀) : (s.orderSuspension tid).Kept s₀ := by
  unfold State.orderSuspension
  split
  · exact h
  · exact .ite (.modTuft h) h

theorem State.Kept.ctxSuspend {part ctx save} (h : s.Kept s₀) : (s.ctxSuspend part ctx save).Kept s₀ :=
  .ctxCommand (fun _ h => .ite (.forEach (fun _ _ h => .orderSuspension h) (.forEach (fun _ _ h => .preemptKernel h) (.setCtxState h))) (.forEach (fun
    _ _ h => .preemptKernel h) (.setCtxState h))) h

theorem State.Kept.resumeKernel {kid} (h : s.Kept s₀) : (s.resumeKernel kid).Kept s₀ := by
  unfold State.resumeKernel
  split
  · exact h
  · exact .ite (.noteKernel h) (.ite (.modKernel h) h)

theorem State.Kept.ctxResume {part ctx} (h : s.Kept s₀) : (s.ctxResume part ctx).Kept s₀ :=
  .ctxCommand (fun _ h => .forEach (fun _ _ h => .resumeKernel h) (.setCtxState h)) h

theorem State.Kept.discardCtx {part ctx} (h : s.Kept s₀) : (s.discardCtx part ctx).Kept s₀ := .forEach (fun _ _ h => .discardKernel h) h

theorem State.Kept.ctxFault {part ctx} (h : s.Kept s₀) : (s.ctxFault part ctx).Kept s₀ := .ctxCommand (fun _ h => .discardCtx (.setCtxState h)) h

theorem State.Kept.drainQueue {slice entry} (h : s.Kept s₀) : (s.drainQueue slice entry).Kept s₀ := .abandonHead (.writeHeader (.modQueue h))

theorem State.Kept.endDestroy {part ctx} (h : s.Kept s₀) : (s.endDestroy part ctx).Kept s₀ :=
  .ite h (.ite (.finishPart (.writeBackPart (.forEach (fun _ _ h => .finishMsg h) (.modCtx (.discardCtx (.forEach (fun _ _ h => .drainQueue h) h))))))
    (.modCtx (.forEach (fun _ _ h => .eraseKey h) (.invalidatePart (.finishPart (.writeBackPart (.forEach (fun _ _ h => .finishMsg h) (.modCtx
    (.discardCtx (.forEach (fun _ _ h => .drainQueue h) h))))))))))

theorem State.Kept.destroyCtx {part ctx} (h : s.Kept s₀) : (s.destroyCtx part ctx).Kept s₀ := .endDestroy (.modCtx h)

theorem State.Kept.ctxDestroy {part ctx} (h : s.Kept s₀) : (s.ctxDestroy part ctx).Kept s₀ := .ctxCommand (fun _ h => .destroyCtx h) h

theorem State.Kept.keyResult {slice code} (h : s.Kept s₀) : (s.keyResult slice code).Kept s₀ := .ite (.modSlice h) (.refuse (.modSlice h))

theorem State.Kept.loadKey {slice c} (h : s.Kept s₀) : (s.loadKey slice c).Kept s₀ := by
  unfold State.loadKey
  split
  · exact h
  · exact .ite h (.ite (.keyResult (.putKey h)) (.keyResult h))

theorem State.Kept.loadWrapped {slice c} (h : s.Kept s₀) : (s.loadWrapped slice c).Kept s₀ := by
  unfold State.loadWrapped
  split
  · exact h
  · refine .ite h (.ite (.keyResult h) ?_)
    split
    · exact .keyResult h
    · exact .keyResult (.putKey h)

theorem State.Kept.endErase {part} (h : s.Kept s₀) : (s.endErase part).Kept s₀ := by
  unfold State.endErase
  split
  · exact h
  · exact .ite (.keyResult (.modPart (.eraseKey (.finishPart (.writeBackPart h))))) (.finishPart (.writeBackPart h))

theorem State.Kept.eraseCommand {slice c} (h : s.Kept s₀) : (s.eraseCommand slice c).Kept s₀ := by
  unfold State.eraseCommand
  split
  · exact h
  · exact .ite h (.ite (.endErase (.modPart h)) (.keyResult h))

/-! ## Releases, acquires and leases (R171, R172, R245) -/

theorem Act.Kept.relAct {slot scope next} (hnext : ∀ t, t.Kept s₀ → (next t).Kept s₀) (h : s.Kept s₀) : (relAct slot scope s next).Kept s₀ :=
  .ite (.stop (.releaseStart h)) (.ite (hnext _ (.releaseStart h)) (.wait (.releaseStart h)))

theorem Act.Kept.acqAct {slot scope} (h : s.Kept s₀) : (acqAct slot scope s).Kept s₀ := by
  unfold Machine.acqAct
  split
  · exact .waitFar h
  · exact .next (.acquire h)

theorem Op.Kept.scopeOp {k body x3} (hbody : ∀ s₀ x1 t, t.Kept s₀ → (body x1 t).Kept s₀) : (scopeOp k body x3).Kept := fun _ _ _ _ h => hbody _ _ _ h

theorem OutcomeKept.execAcqRmt {g n b} (h : s.Kept s₀) : OutcomeKept s₀ (execAcqRmt g n b s) := by
  unfold Machine.execAcqRmt
  refine .issued ?_ h
  intro _ _ _ _ _ h
  dsimp only
  split
  · exact .wait (.writeBackCore h)
  · exact .trap h

theorem OutcomeKept.execL1inv {g n} (h : s.Kept s₀) : OutcomeKept s₀ (execL1inv g n s) := by
  unfold Machine.execL1inv
  refine .issued ?_ h
  intro _ _ _ _ _ h
  dsimp only
  split
  · exact .waitFar h
  · exact .next (.invalidate h)

/-! ## What is in flight (R157, R166, R170, R193) -/

theorem State.Kept.sendOldest {sid} (h : s.Kept s₀) : (s.sendOldest sid).Kept s₀ := by
  unfold State.sendOldest
  split
  · exact .sendEntry h
  · exact h

theorem State.Kept.performNumber {mid} (h : s.Kept s₀) : (s.performNumber mid).Kept s₀ := by
  unfold State.performNumber
  split
  · exact h
  · exact .performId (.performBefore h)

theorem State.Kept.answerMsg {mid atomic} (h : s.Kept s₀) : (s.answerMsg mid atomic).Kept s₀ := by
  unfold State.answerMsg
  split
  · exact h
  · exact .ite (.replyMsg h) h

theorem OutcomeKept.execLoadReturn {sid pid lanes} (h : s.Kept s₀) : OutcomeKept s₀ (execLoadReturn sid pid lanes s) := by
  unfold Machine.execLoadReturn
  split
  · exact .next h
  · split
    · exact .next (.settle (.returnLoad h))
    · exact .next h

theorem State.Kept.freeLanes {lanes} (h : s.Kept s₀) : (s.freeLanes lanes).2.Kept s₀ := h

theorem OutcomeKept.execLongLatencyResult {sid pid} (h : s.Kept s₀) : OutcomeKept s₀ (execLongLatencyResult sid pid s) := by
  unfold Machine.execLongLatencyResult
  split
  · exact .next h
  · split
    · exact .next (.settle (.modSheaf (.freeLanes h)))
    · exact .next h

/-! ## Spills, fills and service calls (R148, R149) -/

theorem Act.Kept.spillRegs {slot n ks} (h : s.Kept s₀) : (spillRegs slot n ks s).Kept s₀ := by
  induction ks generalizing s with
  | nil => exact .next (.modSheaf h)
  | cons k ks ih =>
    unfold Machine.spillRegs
    split
    · exact .stop h
    · dsimp only
      split
      next heq => exact Checked.Kept.of_eq heq (.checkGlobal h)
      next heq => exact ih (.storeLanes (.setSheaf (Checked.Kept.of_eq heq (.checkGlobal h))))

theorem Act.Kept.spillHazard {slot sh names writes go} (hgo : ∀ t, t.Kept s₀ → (go t).Kept s₀) (h : s.Kept s₀) :
    (spillHazard slot sh names writes go s).Kept s₀ := by
  unfold Machine.spillHazard
  split
  · exact hgo _ h
  · exact .ite (.trap h) (hgo _ (.ite (.drainMatrix h) h))

theorem Op.Kept.wspillOp {n x2} : (wspillOp n x2).Kept := by
  unfold Machine.wspillOp
  intro _ _ _ _ h
  dsimp only
  exact .ite (.spillHazard (fun _ h => .spillRegs (.forceResults h)) h) (.trap h)

theorem State.Kept.fetchLanes {sid xs} (h : s.Kept s₀) : (s.fetchLanes sid xs).2.2.Kept s₀ := by
  unfold State.fetchLanes
  refine .foldl_snd_snd ?_ h
  intro _ _ h
  split
  · exact h
  · split
    next heq => exact .of_eq_snd heq (.fetchData h)
    next heq => exact .of_eq_snd heq (.fetchData h)

theorem Act.Kept.fillRegs {slot n ks} (h : s.Kept s₀) : (fillRegs slot n ks s).Kept s₀ := by
  induction ks generalizing s with
  | nil => exact .next (.modSheaf h)
  | cons k ks ih =>
    unfold Machine.fillRegs
    split
    · exact .stop h
    · split
      next heq => exact Checked.Kept.of_eq heq (.checkGlobal h)
      next heq =>
        have hgo := Checked.Kept.of_eq heq (.checkGlobal h)
        split
        next hfetch => exact .stop (.endSheaf (.of_eq_snd_snd hfetch (.fetchLanes hgo)))
        next hfetch => exact ih (.modSheaf (.of_eq_snd_snd hfetch (.fetchLanes hgo)))

theorem Op.Kept.wfillOp {n x2} : (wfillOp n x2).Kept := by
  unfold Machine.wfillOp
  intro _ _ _ _ h
  dsimp only
  exact .ite (.spillHazard (fun _ h => .noteWrites (.fillRegs (.forceResults h))) h) (.trap h)

theorem State.Kept.postService {sh addr number} (h : s.Kept s₀) : (s.postService sh addr number).Kept s₀ := .modSlice h

theorem Op.Kept.svcOp {b number x3} : (svcOp b number x3).Kept := by
  unfold Machine.svcOp
  intro _ _ _ _ h
  dsimp only
  refine .ite (.trap h) ?_
  split
  next heq => exact ReleaseKept.of_eq heq (.releaseFirst h)
  next heq => exact .wait (.postService (ReleaseKept.of_eq heq (.releaseFirst h)))

/-! ## Walks and shoot-downs (R283 to R297) -/

theorem State.Kept.walkMiss {core ctx va} (h : s.Kept s₀) : (s.walkMiss core ctx va).Kept s₀ := by
  unfold State.walkMiss
  split
  · exact h
  · exact .ite (.xlateTlb h) h

theorem State.Kept.wakeSheaf {shot sid} (h : s.Kept s₀) : (s.wakeSheaf shot sid).Kept s₀ := by
  unfold State.wakeSheaf
  split
  · split
    · exact .ite h (.endWait (fun _ h => .reissue h) h)
    · exact h
  · exact h

theorem State.Kept.wakeAccess {slice entry} (h : s.Kept s₀) : (s.wakeAccess slice entry).Kept s₀ := by
  unfold State.wakeAccess
  split
  · exact .ite h (.retryAccess h)
  · exact h

theorem State.Kept.wakeWalks {shot slice} (h : s.Kept s₀) : (s.wakeWalks shot slice).Kept s₀ :=
  .forEach (fun _ _ h => .wakeAccess h) (.forEach (fun _ _ h => .wakeSheaf h) h)

theorem State.Kept.takeShootdown {slice} (h : s.Kept s₀) : (s.takeShootdown slice).Kept s₀ := by
  unfold State.takeShootdown
  dsimp only
  split
  · exact h
  · refine .ite h ?_
    split
    · exact .refuse (.modSlice h)
    · exact .modPart (.modSlice h)

theorem State.Kept.revokeExtents {part d} (h : s.Kept s₀) : (s.revokeExtents part d).Kept s₀ :=
  .forEach (fun _ _ h => .forEach (fun _ _ h => .modTuft h) (.modKernel h)) h

theorem State.Kept.dropShot {part d} (h : s.Kept s₀) : (s.dropShot part d).Kept s₀ :=
  .revokeExtents (.forEach (fun _ _ h => .modSlice h) (.forEach (fun _ _ h => .modCore h) h))

theorem State.Kept.finishCopies {part d} (h : s.Kept s₀) : (s.finishCopies part d).Kept s₀ := by
  unfold State.finishCopies
  refine .forEach ?_ h
  intro _ _ h
  split
  · exact .ite (.finishPages h) h
  · exact h

theorem State.Kept.completeShootdown {part} (h : s.Kept s₀) : (s.completeShootdown part).Kept s₀ := by
  unfold State.completeShootdown
  split
  · exact h
  · exact .ite (.finishPart (.writeBackPart (.finishCopies (.forEach (fun _ _ h => .forceResults h) h)))) (.forEach (fun _ _ h => .wakeWalks h)
      (.modPart (.dropShot (.finishPart (.writeBackPart (.finishCopies (.forEach (fun _ _ h => .forceResults h) h)))))))

/-! ## Replies (R292, R293, R335, R336) -/

theorem State.Kept.modToken {part token f} (h : s.Kept s₀) : (s.modToken part token f).Kept s₀ := .modPart h

theorem State.Kept.replySheaf {sid t a} (h : s.Kept s₀) : (s.replySheaf sid t a).Kept s₀ := by
  unfold State.replySheaf
  split
  · exact h
  · exact .ite (.actReply h) (.setSheaf h)

theorem State.Kept.replyTo {t a} (h : s.Kept s₀) : (s.replyTo t a).Kept s₀ := by
  unfold State.replyTo
  split
  · exact .replySheaf h
  · exact .replyCopy h
  · exact .ite h (.modKernel h)
  · exact .ite (.refuseKernel h) (.modKernel h)
  · refine .ite ?_ (.retryAccess h)
    split
    · exact .judgeQueue (.abandonHead (.abandonAccess h))
    · exact h
  · exact .ite (.discardTuft h) (.modTuft h)
  · exact h

theorem State.Kept.reply {slice token a} (h : s.Kept s₀) : (s.reply slice token a).Kept s₀ := by
  unfold State.reply
  split
  · exact h
  · split
    · exact .refuse h
    · exact .ite (.replyTo (.modToken h)) (.refuse h)

theorem State.Kept.replyDiscard {slice token} (h : s.Kept s₀) : (s.replyDiscard slice token).Kept s₀ := by
  unfold State.replyDiscard
  split
  · exact h
  · split
    · exact .refuse h
    · split
      · exact .ite (.discardTuft h) (.refuse h)
      · split
        · exact .ite (.refuse h) (.discardKernel h)
        · exact .refuse h
      · exact .refuse h

theorem State.Kept.serviceReply {sid failed} (h : s.Kept s₀) : (s.serviceReply sid failed).Kept s₀ := by
  unfold State.serviceReply
  split
  · exact .ite (.serviceEnd h) (.setSheaf h)
  · exact h

/-! ## Partitions and lost slices (R299 to R311, R338) -/

theorem State.Kept.tellPort {pkg name bs} (h : s.Kept s₀) : (s.tellPort pkg name bs).Kept s₀ := .modPackage (fun _ => rfl) h

theorem State.Kept.formPartition {req} (h : s.Kept s₀) : (s.formPartition req).Kept s₀ :=
  .ite (.forEach (fun _ _ h => .handSlice h) (.moveMemory (.setPart h))) (.tellPort h)

theorem State.Kept.inPartState {part x f} (hf : ∀ x1, (f x1).Kept s₀) (h : s.Kept s₀) : (s.inPartState part x f).Kept s₀ := by
  unfold State.inPartState
  split
  · exact .ite (hf _) h
  · exact h

theorem State.Kept.fetchKernel {part image args p} (h : s.Kept s₀) : (s.fetchKernel part image args p).Kept s₀ :=
  .forEach (fun _ _ h => .modSlice h) (.setPart h)

theorem State.Kept.clearWork {part} (h : s.Kept s₀) : (s.clearWork part).Kept s₀ := .same (.forEach (fun _ _ h => .removeTuft h) h) rfl rfl

theorem State.Kept.swapPlanes {slice} (h : s.Kept s₀) : (s.swapPlanes slice).Kept s₀ := h

theorem State.Kept.scrubBack {slice} (h : s.Kept s₀) : (s.scrubBack slice).Kept s₀ := h

theorem State.Kept.returnSlice {slice} (h : s.Kept s₀) : (s.returnSlice slice).Kept s₀ := by
  unfold State.returnSlice
  dsimp only
  split
  · exact .raiseLseq (.modSlice (.scrubBack (.swapPlanes h)))
  · exact .modSlice (.scrubBack (.swapPlanes h))

theorem State.Kept.endPartition {part} (h : s.Kept s₀) : (s.endPartition part).Kept s₀ := by
  unfold State.endPartition
  split
  · exact h
  · exact .setPart (.forEach (fun _ _ h => .handSlice h) (.same (.moveMemory (.forEach (fun _ _ h => .returnSlice h) (.clearWork h))) rfl rfl))

theorem State.Kept.request {part f} (hf : ∀ x1, (f x1).Kept s₀) (h : s.Kept s₀) : (s.request part f).Kept s₀ := .inPartState (fun _ => hf _) h

theorem State.Kept.refuseRequest {part code} (h : s.Kept s₀) : (s.refuseRequest part code).Kept s₀ := .answerMail (.modPart h)

theorem State.Kept.addSlice {part slice p} (h : s.Kept s₀) : (s.addSlice part slice p).Kept s₀ := by
  unfold State.addSlice
  split
  · exact .setPart h
  · exact .answerMail h

theorem State.Kept.finishAdd {part slice p} (h : s.Kept s₀) : (s.finishAdd part slice p).Kept s₀ := by
  unfold State.finishAdd
  split
  · exact .answerMail (.handSlice (.setPart (.bringTop h)))
  · exact .refuseRequest h

theorem State.Kept.removeSlice {part slice p} (h : s.Kept s₀) : (s.removeSlice part slice p).Kept s₀ :=
  .ite (.answerMail h) (.ite (.answerMail (.ite_snd h h)) (.modSlice (.setPart (.ite_snd h h))))

theorem State.Kept.evictTuft {tid} (h : s.Kept s₀) : (s.evictTuft tid).Kept s₀ := by
  unfold State.evictTuft
  split
  · exact h
  · exact .ite (.discardTuft (.faultTuft h)) (.ite (.forceSuspend (.modTuft h)) h)

theorem State.Kept.expireDrain {part} (h : s.Kept s₀) : (s.expireDrain part).Kept s₀ := by
  unfold State.expireDrain
  split
  · exact .forEach (fun _ _ h => .evictTuft h) h
  · exact h

theorem State.Kept.lendSlice {part slice borrower deadline p} (h : s.Kept s₀) : (s.lendSlice part slice borrower deadline p).Kept s₀ :=
  .ite (.answerMail h) (.ite (.answerMail h) (.setPart h))

theorem State.Kept.finishLend {part slice borrower deadline p} (h : s.Kept s₀) : (s.finishLend part slice borrower deadline p).Kept s₀ :=
  .ite (.refuseRequest h) (.ite (.refuseRequest h) (.answerMail (.raiseLseq (.raiseLseq (.modSlice (.swapPlanes (.passSlice (.setPart h))))))))

theorem State.Kept.haltSlice {slice} (h : s.Kept s₀) : (s.haltSlice slice).Kept s₀ := .forEach (fun _ _ h => .quiesce h) h

theorem State.Kept.judgeRecall {slice} (h : s.Kept s₀) : (s.judgeRecall slice).Kept s₀ := by
  unfold State.judgeRecall
  dsimp only
  split
  · exact .ite h (.ite (.haltSlice h) (.raiseLseq (.raiseLseq (.modSlice (.swapPlanes (.forEach (fun _ _ h => .modTuft h) (.haltSlice h)))))))
  · exact h

theorem State.Kept.beginRecall {slice} (h : s.Kept s₀) : (s.beginRecall slice).Kept s₀ := by
  unfold State.beginRecall
  dsimp only
  split
  · exact .judgeRecall (.passSlice (.leaveLists (.modSlice h)))
  · exact h

theorem State.Kept.recallSlice {part slice p} (h : s.Kept s₀) : (s.recallSlice part slice p).Kept s₀ :=
  .ite (.answerMail h) (.beginRecall (.setPart h))

theorem State.Kept.recallTuft {tid} (h : s.Kept s₀) : (s.recallTuft tid).Kept s₀ := .discardTuft (.faultTuft h)

theorem State.Kept.recallDeadline {slice} (h : s.Kept s₀) : (s.recallDeadline slice).Kept s₀ :=
  .ite h (.judgeRecall (.forEach (fun _ _ h => .recallTuft h) h))

theorem State.Kept.writeOut {slice} (h : s.Kept s₀) : (s.writeOut slice).Kept s₀ := by
  unfold State.writeOut
  refine .ite h ?_
  dsimp only
  split
  · exact .ite (.refuseRequest (.scrubBack (.forEach (fun _ _ h => .judgeKernel (.saveTuft h)) h))) (.scrubBack (.forEach (fun _ _ h => .judgeKernel
      (.saveTuft h)) h))
  · exact .scrubBack (.forEach (fun _ _ h => .judgeKernel (.saveTuft h)) h)

theorem State.Kept.dissolve {part p} (h : s.Kept s₀) : (s.dissolve part p).Kept s₀ := .forEach (fun _ _ h => .beginRecall h) (.setPart h)

theorem State.Kept.endRequest {part} (h : s.Kept s₀) : (s.endRequest part).Kept s₀ := by
  unfold State.endRequest
  split
  · exact h
  · refine .ite h ?_
    split
    · exact .setPart h
    · exact .finishAdd h
    · exact .finishRemove h
    · exact .finishLend h
    · exact .endPartition h
    · exact h

theorem OutcomeKept.execUncorrectableError {site} (h : s.Kept s₀) : OutcomeKept s₀ (execUncorrectableError site s) := by
  unfold Machine.execUncorrectableError
  split
  · exact .next (.ite h h)
  · split
    · exact .ite (.next (.settle (.breakTuft h))) (.next h)
    · exact .next h

theorem State.Kept.tellLost {part slice} (h : s.Kept s₀) : (s.tellLost part slice).Kept s₀ := by
  unfold State.tellLost
  split
  · exact h
  · exact .forEach (fun _ _ h => .postSliceFault h) h

theorem State.Kept.loseSlice {slice} (h : s.Kept s₀) : (s.loseSlice slice).Kept s₀ := by
  unfold State.loseSlice
  extract_lets x s1 _ s2 s3 s4
  have h2 : s2.Kept s₀ := .scrubCores (.modSlice (.forEach (fun _ _ h => .discardTuft h) h))
  have h3 : s3.Kept s₀ := by
    dsimp only [s3]
    split
    · split
      · exact h2
      · exact h2
    · exact h2
  have h4 : s4.Kept s₀ := by
    dsimp only [s4]
    split
    · exact .tellLost h3
    · exact h3
  refine .ite h ?_
  split
  · exact .tellLost h4
  · exact h4

/-! ## Fabric ports (R340 to R347) -/

theorem State.Kept.forgetSource {source} (h : s.Kept s₀) : (s.forgetSource source).Kept s₀ := h

theorem State.Kept.keyPort {slice} (h : s.Kept s₀) : (s.keyPort slice).Kept s₀ := .ite (.modPort h) h

theorem State.Kept.writeLctl {slice v} (h : s.Kept s₀) : (s.writeLctl slice v).Kept s₀ := .ite (.modSlice h) (.refuse h)

theorem State.Kept.failMsg {m} (h : s.Kept s₀) : (s.failMsg m).Kept s₀ := .turnedAway (.ackMsg h)

theorem State.Kept.timeoutMsg {m} (h : s.Kept s₀) : (s.timeoutMsg m).Kept s₀ := .ite h (.ite (.failMsg h) (.ask (.setMsg h)))

theorem State.Kept.timeoutLoad {sid sh p} (h : s.Kept s₀) : (s.timeoutLoad sid sh p).Kept s₀ := by
  unfold State.timeoutLoad
  split
  · exact h
  · exact .ite h (.ite (.endSheaf (.modSheaf h)) (.ask (.modSheaf h)))

theorem State.Kept.askAgain {slice id paddr} (h : s.Kept s₀) : (s.askAgain slice id paddr).Kept s₀ := .ask h

theorem State.Kept.timeoutCopy {core c} (h : s.Kept s₀) : (s.timeoutCopy core c).Kept s₀ := by
  unfold State.timeoutCopy
  split
  · exact h
  · exact .ite (.closeCopy (.copyRecord h)) (.askAgain (.modCopy h))

theorem State.Kept.timeoutColl {slice c} (h : s.Kept s₀) : (s.timeoutColl slice c).Kept s₀ := by
  unfold State.timeoutColl
  split
  · exact h
  · refine .ite (.askAgain (.modSlice h)) ?_
    split
    · exact h
    · exact .endColls h

theorem State.Kept.timeoutFar {id sid w paddr tries} (h : s.Kept s₀) : (s.timeoutFar id sid w paddr tries).Kept s₀ := by
  unfold State.timeoutFar
  split
  · exact h
  · exact .ite (.endSheaf h) (.ask (.setSheaf h))

theorem State.Kept.timeoutQueue {slice entry f what} (h : s.Kept s₀) : (s.timeoutQueue slice entry f what).Kept s₀ :=
  .ite (.abandonAccess (.postSliceFault h)) (.ask (.modQueue h))

theorem State.Kept.timeoutKernel {kid k f} (h : s.Kept s₀) : (s.timeoutKernel kid k f).Kept s₀ := by
  unfold State.timeoutKernel
  refine .ite (.ask (.modKernel h)) ?_
  dsimp only
  split
  · exact .modKernel (.postSliceFault (.modKernel h))
  · exact .refuseKernel (.postSliceFault (.modKernel h))

theorem State.Kept.timeout {id} (h : s.Kept s₀) : (s.timeout id).Kept s₀ := by
  unfold State.timeout
  split
  · exact .timeoutMsg h
  · split
    · exact .timeoutLoad h
    · split
      · exact .timeoutCopy h
      · split
        · exact .timeoutColl h
        · split
          · exact .timeoutFar h
          · split
            · exact .timeoutQueue h
            · split
              · exact .timeoutKernel h
              · exact h

theorem State.Kept.trayRefused {slice part ctx code pkt} (h : s.Kept s₀) : (s.trayRefused slice part ctx code pkt).Kept s₀ := .postSliceFault h

theorem State.Kept.answerTray {slice pkt op bytes} (h : s.Kept s₀) : (s.answerTray slice pkt op bytes).Kept s₀ := .emit h

theorem State.Kept.trayWrite {slice pkt part ctx} (h : s.Kept s₀) : (s.trayWrite slice pkt part ctx).Kept s₀ := by
  unfold State.trayWrite
  refine .answerTray ?_
  split
  · exact .trayRefused h
  · exact .putBytes h

theorem State.Kept.trayRead {slice pkt part ctx} (h : s.Kept s₀) : (s.trayRead slice pkt part ctx).Kept s₀ := by
  unfold State.trayRead
  refine .answerTray ?_
  split
  · exact .trayRefused h
  · split
    · exact .trayRefused h
    · exact h

theorem State.Kept.trayPacket {slice pkt part ctx} (h : s.Kept s₀) : (s.trayPacket slice pkt part ctx).Kept s₀ := by
  unfold State.trayPacket
  split
  · exact .trayWrite h
  · exact .trayRead h
  · exact h

theorem State.Kept.remoteRequest {slice pkt} (h : s.Kept s₀) : (s.remoteRequest slice pkt).Kept s₀ := by
  unfold State.remoteRequest
  split
  · exact .ite (.performNumber h) h
  · exact h

theorem State.Kept.remoteRead {slice pkt} (h : s.Kept s₀) : (s.remoteRead slice pkt).Kept s₀ := by
  unfold State.remoteRead
  split
  · exact .ite (.bindLoad h) h
  · exact h

theorem State.Kept.engineRequest {slice pkt} (h : s.Kept s₀) : (s.engineRequest slice pkt).Kept s₀ := by
  unfold State.engineRequest
  split
  · exact .ite (.copyEarly h) h
  · exact h

theorem State.Kept.remoteAnswer {slice pkt} (h : s.Kept s₀) : (s.remoteAnswer slice pkt).Kept s₀ := by
  unfold State.remoteAnswer
  refine .ite h ?_
  split
  · split
    · exact .answerIf h
    · exact h
  · split
    · exact .answerIf h
    · exact h
  · split
    · exact .answerIf h
    · exact h
  · split
    · exact .returnLoad h
    · exact h
  · split
    · exact .completeCopy h
    · exact h

theorem State.Kept.podPacket {slice pkt} (h : s.Kept s₀) : (s.podPacket slice pkt).Kept s₀ := by
  unfold State.podPacket
  split
  · exact .remoteRequest h
  · exact .remoteRequest h
  · exact .remoteRequest h
  · exact .remoteRead h
  · exact .engineRequest h
  · exact .remoteAnswer h
  · exact .remoteAnswer h
  · exact .remoteAnswer h
  · exact .remoteAnswer h
  · exact .remoteAnswer h
  · exact h
  · exact h

theorem State.Kept.receive {slice pkt} (h : s.Kept s₀) : (s.receive slice pkt).Kept s₀ := by
  unfold State.receive
  refine .ite (.modSlice h) ?_
  dsimp only
  split
  · exact .emit (.modSlice h)
  · split
    · exact .trayPacket (.modSlice h)
    · exact .podPacket (.modSlice h)

theorem OutcomeKept.execCpuTrayRegister {source part ctx} (h : s.Kept s₀) : OutcomeKept s₀ (execCpuTrayRegister source part ctx s) := by
  unfold Machine.execCpuTrayRegister
  split
  · exact .ite (.next h) (.next h)
  · exact .next h

/-! ## Marks, trace and clock (R321 to R326) -/

theorem Op.Kept.mkdownOp {b m x3} : (mkdownOp b m x3).Kept := fun _ _ _ _ h => .ite (.ofSheaf h) (.fault h)

theorem State.Kept.readyMark {sid sh sel} (h : s.Kept s₀) : (s.readyMark sid sh sel).Kept s₀ := by
  unfold State.readyMark
  split
  · exact .forceResults h
  · exact .drainMatrix h
  · exact h

theorem Op.Kept.mkgetOp {b x2} : (mkgetOp b x2).Kept := by
  unfold Machine.mkgetOp
  intro _ _ _ _ h
  dsimp only
  split
  · exact .stop (.readyMark h)
  · split
    · exact .ofSheaf (.readyMark h)
    · exact .trap (.readyMark h)

theorem Op.Kept.trmarkOp {b x2} : (trmarkOp b x2).Kept := fun _ _ _ _ h => .next (.traceSheaf h)

theorem Op.Kept.clkrdOp {b x2} : (clkrdOp b x2).Kept := by
  unfold Machine.clkrdOp
  intro _ _ _ _ h
  dsimp only
  split
  · exact .stop (.forceResults (.drainMatrix h))
  · exact .ite (.stop (.forceResults (.drainMatrix h))) (.next (.setSheaf (.readClk (.forceResults (.drainMatrix h)))))

/-! ## Matrix instructions (R177 to R195) -/

theorem State.Kept.replayMma {slot sh regs} (h : s.Kept s₀) : (s.replayMma slot sh regs).Kept s₀ := .ite h (.forceResults (.ite (.drainMatrix h) h))

theorem State.Kept.dropArrival {sid} (h : s.Kept s₀) : (s.dropArrival sid).Kept s₀ := by
  unfold State.dropArrival
  dsimp only
  split
  · split
    · exact .ite (.trapWait (.modSheaf h)) (.modSheaf (.modSheaf h))
    · exact .modSheaf h
  · exact .modSheaf h

theorem Act.Kept.fusedStart {m slot sh t others} (h : s.Kept s₀) : (fusedStart m slot sh t others s).Kept s₀ :=
  .ite (.trap (.modSheaf (.forEach (fun _ _ h => .dropArrival h) h))) (.next (.fresh (.forEach (fun _ _ h => .endWait (fun _ h => .complete h) h)
    (.forEach (fun _ _ h => .modSheaf h) h))))

theorem Act.Kept.fusedArrive {m slot sh t} (h : s.Kept s₀) : (fusedArrive m slot sh t s).Kept s₀ :=
  .ite (.trap h) (.ite (.fusedStart h) (.wait (.modSheaf h)))

theorem Op.Kept.mmaOp {m x2} : (mmaOp m x2).Kept := by
  unfold Machine.mmaOp
  intro _ _ _ _ h
  dsimp only
  split
  · exact .trap h
  · split
    · exact .ite (.fusedArrive (.replayMma h)) (.ite (.next (.replayMma h)) (.next (.fresh (.setSheaf (.replayMma h)))))
    · exact .stop (.replayMma h)

theorem Op.Kept.mldtOp {mt dd fmt x4} : (mldtOp mt dd fmt x4).Kept := by
  unfold Machine.mldtOp
  intro _ _ _ _ h
  dsimp only
  split
  · exact .trap h
  · exact .ite (.next h) (.next (.fresh (.setSheaf h)))
  · exact .stop h

theorem Op.Kept.msttOp {mt dd fmt x4} : (msttOp mt dd fmt x4).Kept := by
  unfold Machine.msttOp
  intro _ _ _ _ h
  dsimp only
  refine .ite (.next h) ?_
  split
  · exact .trap h
  · exact .next (.fresh (.setSheaf h))

theorem Op.Kept.mrowvOp {vd mt x3} : (mrowvOp vd mt x3).Kept := by
  unfold Machine.mrowvOp
  intro _ _ _ _ h
  dsimp only
  split
  · exact .trap h
  · exact .next (.fresh (.setSheaf h))

/-! ## Attestation, the management port and package reset (R355 to R365, R394) -/

theorem State.Kept.asked {part f} (hf : ∀ x1, (f x1).Kept s₀) (h : s.Kept s₀) : (s.asked part f).Kept s₀ := by
  unfold State.asked
  split
  · exact .ite h (hf _)
  · exact h

theorem State.Kept.giveEvidence {part pkg out nonce p} (h : s.Kept s₀) : (s.giveEvidence part pkg out nonce p).Kept s₀ :=
  .ite (.answerMail h) (.answerMail (.putClear h))

theorem State.Kept.giveCerts {part pkg out len p} (h : s.Kept s₀) : (s.giveCerts part pkg out len p).Kept s₀ :=
  .ite (.answerMail h) (.answerMail (.putClear h))

theorem State.Kept.extendBank {part slot digestAt p} (h : s.Kept s₀) : (s.extendBank part slot digestAt p).Kept s₀ :=
  .ite (.answerMail h) (.answerMail (.setPart h))

theorem State.Kept.tell {pkg name bs} (h : s.Kept s₀) : (s.tell pkg name bs).Kept s₀ := .modPackage (fun _ => by split <;> rfl) h

theorem State.Kept.respond {pkg request answer hear} (h : s.Kept s₀) : (s.respond pkg request answer hear).Kept s₀ :=
  .modPackage (fun _ => by split <;> rfl) (.tell h)

theorem State.Kept.respondError {pkg bs} (h : s.Kept s₀) : (s.respondError pkg bs).Kept s₀ := .modPackage (fun _ => by split <;> rfl) (.tell h)

theorem State.Kept.tellInvalid {pkg} (h : s.Kept s₀) : (s.tellInvalid pkg).Kept s₀ := .respondError h

theorem OutcomeKept.execGetMeasurements {pkg index nonce} (h : s.Kept s₀) : OutcomeKept s₀ (execGetMeasurements pkg index nonce s) := by
  unfold Machine.execGetMeasurements
  split
  · exact .next (.tellInvalid h)
  · exact .ite (.next (.respond h)) (.ite (.next (.tellInvalid h)) (.next (.respond h)))

theorem State.Kept.portDissolve {pkg part} (h : s.Kept s₀) : (s.portDissolve pkg part).Kept s₀ := by
  unfold State.portDissolve
  split
  · exact .ite (.tell (.dissolve h)) (.tell h)
  · exact .tell h

theorem State.Kept.leavePackage {pkg part} (h : s.Kept s₀) : (s.leavePackage pkg part).Kept s₀ := by
  unfold State.leavePackage
  split
  · exact h
  · exact .ite (.endPartition h) (.modPart (.same (.forEach (fun _ _ h => .loseSlice h) (.forEach (fun _ _ h => .removeTuft h) h)) rfl rfl))

/-- A package reset puts the package back to the first steps of its bring-up, and what it leaves of memory is canonical (R394). -/
theorem OutcomeKept.execPackageReset {pkg} (h : s.Kept s₀) : OutcomeKept s₀ (execPackageReset pkg s) := by
  have hleft : ((s.forEach (s.partsIn pkg) (fun s part => s.leavePackage pkg part)).forEach (packageSlices pkg)
      (fun s x => if (s.slice x).borrower.isSome then s.loseSlice x else s)).Kept s₀ :=
    .forEach (fun _ _ h => .ite (.loseSlice h) h) (.forEach (fun _ _ h => .leavePackage h) h)
  have hwiped : ∀ (t : State) (done : Nat), OutcomeKept (t.wipePackage pkg done) (.next
      (if done < 5 then (t.wipePackage pkg done).tellPort pkg replyBootFailure (leBytes 1 (done + 1)) else t.wipePackage pkg done).settle) :=
    fun t done => .next (.settle (.ite (.tellPort (.refl _)) (.refl _)))
  exact fun t ht hinv => hwiped _ _ t ht (State.wipePackage_wf (hleft.1 hinv) pkg _)

/-! ## Power, clocks and Teasel (R395 to R401) -/

theorem State.Kept.modIsland {slice n f} (h : s.Kept s₀) : (s.modIsland slice n f).Kept s₀ := .modSlice h

theorem State.Kept.writePwrctl {slice n v} (h : s.Kept s₀) : (s.writePwrctl slice n v).Kept s₀ := .ite h (.ite (.refuse h) (.modIsland h))

theorem State.Kept.modTeasel {slice f} (h : s.Kept s₀) : (s.modTeasel slice f).Kept s₀ := .modSlice h

theorem State.Kept.writeTrctl {slice v} (h : s.Kept s₀) : (s.writeTrctl slice v).Kept s₀ := .ite (.refuse h) (.modTeasel h)

theorem State.Kept.ringRecord {slice part r} (h : s.Kept s₀) : (s.ringRecord slice part r).Kept s₀ :=
  .ite (.modTeasel (.putBytes h)) (.modTeasel (.countDrop h))

theorem State.Kept.drainTeasel {slice} (h : s.Kept s₀) : (s.drainTeasel slice).Kept s₀ := by
  unfold State.drainTeasel
  dsimp only
  split
  · exact .ite (.readClk h) (.ite (.modTeasel (.modPackage (fun _ => rfl) h)) (.ite (.ringRecord h) h))
  · exact h

/-! ## The lease scheduler (R24, R241 to R246) -/

theorem State.Kept.chargeSlot {core quad sid} (h : s.Kept s₀) : (s.chargeSlot core quad sid).Kept s₀ :=
  .modQuad (.forEach (fun _ _ h => .modSheaf h) h)

theorem OutcomeKept.execStarvationLimit {core quad} (h : s.Kept s₀) : OutcomeKept s₀ (execStarvationLimit core quad s) := by
  unfold Machine.execStarvationLimit
  split
  · exact .next (.modQuad h)
  · exact .next h

theorem State.Kept.letIn {sid kept} (h : s.Kept s₀) : (s.letIn sid kept).Kept s₀ := by
  unfold State.letIn
  split
  · exact .ite (.compareShare (.traceSheaf (.setSheaf h))) (.traceSheaf (.setSheaf h))
  · exact h

theorem State.Kept.withdraw {core sid} (h : s.Kept s₀) : (s.withdraw core sid).Kept s₀ := by
  unfold State.withdraw
  split
  · exact h
  · exact .ite h (.ite (.traceSheaf (.setSheaf h)) (.setSheaf h))

theorem State.Kept.tryAdmit {core sid} (h : s.Kept s₀) : (s.tryAdmit core sid).Kept s₀ := by
  unfold State.tryAdmit
  split
  · exact h
  · exact .ite (.letIn h) h

theorem State.Kept.admissionPass {core} (h : s.Kept s₀) : (s.admissionPass core).Kept s₀ :=
  .forEach (fun _ _ h => .tryAdmit h) (.forEach (fun _ _ h => .withdraw h) h)

theorem OutcomeKept.execAgeBoundExpiry {sid} (h : s.Kept s₀) : OutcomeKept s₀ (execAgeBoundExpiry sid s) := by
  unfold Machine.execAgeBoundExpiry
  split
  · exact .next h
  · exact .ite (.next (.settle (.letIn h))) (.next h)

theorem State.Kept.endWindow {sid estimate} (h : s.Kept s₀) : (s.endWindow sid estimate).Kept s₀ := .modSheaf h

theorem State.Kept.closeWindow {sid} (h : s.Kept s₀) : (s.closeWindow sid).Kept s₀ := by
  unfold State.closeWindow
  split
  · exact .ite h (.endWindow h)
  · exact h

theorem State.Kept.writeLsched {core v} (h : s.Kept s₀) : (s.writeLsched core v).Kept s₀ := .ite (.modCore h) (.refuse h)

/-! ## Control registers and service cores (R302 to R304, R318) -/

theorem State.Kept.writeUrgent {slice v} (h : s.Kept s₀) : (s.writeUrgent slice v).Kept s₀ := .ite (.modSlice h) (.refuse h)

theorem State.Kept.writeFrame {slice frame v} (h : s.Kept s₀) : (s.writeFrame slice frame v).Kept s₀ := by
  unfold State.writeFrame
  split
  · exact h
  · exact .ite h (.refuse h)

theorem State.Kept.writeQueue {slice entry off width value at_} (h : s.Kept s₀) : (s.writeQueue slice entry off width value at_).Kept s₀ := by
  unfold State.writeQueue
  refine .ite (.ite h (.ite (.modQueue h) (.ite (.modQueue h) (.answerQueue h)))) ?_
  split
  · exact .modQueue h
  · exact .refuse h

theorem State.Kept.ctxTake {part ctx value} (h : s.Kept s₀) : (s.ctxTake part ctx value).Kept s₀ := by
  unfold State.ctxTake
  refine .ite (.ctxCommand (fun _ h => h) h) ?_
  split
  · exact .ctxCreate h
  · exact .ctxActivate h
  · exact .ctxSuspend h
  · exact .ctxResume h
  · exact .ctxFault h
  · exact .ctxDestroy h
  · exact .ctxCommand (fun _ h => h) h

theorem State.Kept.ctxTakeAt {slice part ctx value at_} (h : s.Kept s₀) : (s.ctxTakeAt slice part ctx value at_).Kept s₀ :=
  .ite (.modCtx h) (.ite (.ctxTake h) (.refuse (.modSlice (.ctxTake h))))

theorem State.Kept.writeCtx {slice part ctx off width value at_} (h : s.Kept s₀) : (s.writeCtx slice part ctx off width value at_).Kept s₀ :=
  .ite (.refuse h) (.ite (.ctxTakeAt h) (.ite (.modCtx h) (.ite (.modCtx h) (.ite (.modCtx h) (.ite (.modCtx h) (.ite (.modCtx h) (.refuse h)))))))

theorem State.Kept.writeWalker {slice off width value at_} (h : s.Kept s₀) : (s.writeWalker slice off width value at_).Kept s₀ :=
  .ite (.ite h (.ite (.modSlice h) (.refuse (.modSlice h)))) (.ite (.modSlice h) (.refuse h))

theorem State.Kept.takeKey {slice} (h : s.Kept s₀) : (s.takeKey slice).Kept s₀ := by
  unfold State.takeKey
  refine .ite h ?_
  split
  · exact h
  · exact .loadKey h
  · exact .loadWrapped h
  · exact .eraseCommand h
  · exact .keyResult h

theorem State.Kept.writeKeyBlock {slice off width value at_} (h : s.Kept s₀) : (s.writeKeyBlock slice off width value at_).Kept s₀ :=
  .ite (.ite h (.takeKey (.modSlice h))) (.ite (.modSlice h) (.refuse h))

theorem State.Kept.writeReply {slice value} (h : s.Kept s₀) : (s.writeReply slice value).Kept s₀ := by
  unfold State.writeReply
  dsimp only
  split
  · exact .reply h
  · exact .reply h
  · exact .reply h
  · exact .replyDiscard h
  · exact .refuse h

theorem State.Kept.writeFaultQueue {slice off width value at_} (h : s.Kept s₀) : (s.writeFaultQueue slice off width value at_).Kept s₀ :=
  .ite (.writeReply h) (.ite (.drainRecords (.modSlice h)) (.ite (.drainRecords (.modSlice h)) (.ite (.drainRecords (.modSlice h)) (.refuse h))))

theorem State.Kept.writeColl {slice part off width value at_} (h : s.Kept s₀) : (s.writeColl slice part off width value at_).Kept s₀ :=
  .ite (.refuse h) (.modPart h)

theorem State.Kept.writeTeasel {slice off width value at_} (h : s.Kept s₀) : (s.writeTeasel slice off width value at_).Kept s₀ :=
  .ite (.writeTrctl h) (.ite (.modTeasel h) (.ite (.modTeasel h) (.ite (.modTeasel h) (.ite (.modTeasel h) (.refuse h)))))

theorem State.Kept.writeControl {slice off width value0} (h : s.Kept s₀) : (s.writeControl slice off width value0).Kept s₀ := by
  unfold State.writeControl
  dsimp only
  split
  · exact h
  · exact .ite (.ite (.writeLsched h) (.refuse h)) (.ite (.writeUrgent h) (.ite (.writeQueue h) (.ite (.writeWalker h) (.ite (.writeKeyBlock h) (.ite
      (.writeCtx h) (.ite (.writeFaultQueue h) (.ite (.writeLctl h) (.ite (.writeColl h) (.ite (.writePwrctl h) (.ite (.writeTeasel h) (.ite
      (.writeFrame h) (.ite h (.refuse h)))))))))))))

theorem State.Kept.serviceMemory {acc part} (h : s.Kept s₀) : (s.serviceMemory acc part).Kept s₀ := by
  unfold State.serviceMemory
  refine .ite (.same (.postSliceFault h) rfl rfl) (.ite (.same (.postSliceFault h) rfl rfl) ?_)
  split
  · exact .writeLines (.putBytes h)
  · exact .ite (.same (.postSliceFault h) rfl rfl) (.same (.readLines h) rfl rfl)

theorem State.Kept.serviceControl {acc part target off} (h : s.Kept s₀) : (s.serviceControl acc part target off).Kept s₀ := by
  unfold State.serviceControl
  refine .ite ?_ h
  split
  · exact .writeControl h
  · exact h

theorem State.Kept.serviceLost {acc part} (h : s.Kept s₀) : (s.serviceLost acc part).Kept s₀ := .same (.postSliceFault h) rfl rfl

theorem OutcomeKept.execServiceCoreAccess {acc} (h : s.Kept s₀) : OutcomeKept s₀ (execServiceCoreAccess acc s) := by
  unfold Machine.execServiceCoreAccess
  split
  · exact .next h
  · exact .ite .fault (.ite (.next (.settle (.serviceLost (.modSlice h)))) (.ite (.next (.settle (.serviceMemory (.modSlice h)))) (.next (.settle
      (.serviceControl (.modSlice h))))))

theorem Op.Kept.illegalOp : (illegalOp).Kept := fun _ _ _ _ h => .stop h

theorem OutcomeKept.execUnassignedEncoding {w} (h : s.Kept s₀) : OutcomeKept s₀ (execUnassignedEncoding w s) :=
  .ite (.next (.settle (.issueHint h))) (.issued (fun _ => .illegalOp) h)

/-! ## Uniform instructions (R125 to R130) -/

theorem Op.Kept.urOp {readsD f d0 b0 slot} : (urOp readsD f d0 b0 slot).Kept := fun _ _ _ _ h => .ofSheaf h

theorem Op.Kept.urLongOp {readsD f d0 b0 slot} : (urLongOp readsD f d0 b0 slot).Kept := fun _ _ _ _ h => .next (.setSheaf h)

theorem Op.Kept.urWideOp {f d0 b0 slot} : (urWideOp f d0 b0 slot).Kept := fun _ _ _ _ h => .ofSheaf h

theorem Op.Kept.smovpOp {d0 b0 slot} : (smovpOp d0 b0 slot).Kept := fun _ _ _ _ h => .ofSheaf h

theorem Op.Kept.pmovsOp {d0 b0 slot} : (pmovsOp d0 b0 slot).Kept := fun _ _ _ _ h => .ofSheaf h

theorem Op.Kept.uiOp {readsD f d imm x5} : (uiOp readsD f d imm x5).Kept := fun _ _ _ _ h => .ofSheaf h

/-! ## Varying instructions (R105 to R124) -/

theorem Op.Kept.vvOp {readsD f d0 a0 b0 slot} : (vvOp readsD f d0 a0 b0 slot).Kept := fun _ _ _ _ h => .ofSheaf h

theorem Op.Kept.vuOp {f d0 b0 slot} : (vuOp f d0 b0 slot).Kept := fun _ _ _ _ h => .ofSheaf h

theorem Op.Kept.vcOp {readsD f d b x5} : (vcOp readsD f d b x5).Kept := fun _ _ _ _ h => .ofSheaf h

theorem Op.Kept.vsOp {f d l b x5} : (vsOp f d l b x5).Kept := fun _ _ _ _ h => .next (.setSheaf h)

theorem Op.Kept.cmpOp {ok f p a b x6} : (cmpOp ok f p a b x6).Kept := fun _ _ _ _ h => .ofSheaf h

theorem Op.Kept.ppOp {srcs f d x4} : (ppOp srcs f d x4).Kept := fun _ _ _ _ h => .ofSheaf h

theorem Op.Kept.rankOp {a d x3} : (rankOp a d x3).Kept := fun _ _ _ _ h => .ofSheaf h

theorem Op.Kept.shuffleOp {kind d a b m x6} : (shuffleOp kind d a b m x6).Kept := fun _ _ _ _ h => .ite (.next h) (.next (.setSheaf h))

theorem Op.Kept.halfOp {p op slot} (hop : ∀ x1, (op x1).Kept) : (halfOp p op slot).Kept := fun _ _ _ _ h => hop _ _ _ _ _ h

/-! ## Every instruction and happening -/

theorem OutcomeKept.exec {i} (h : s.Kept s₀) : OutcomeKept s₀ (exec i s) := by
  cases i with
  | vadd | vsub | vsubr | vminS | vmaxS | vminU | vmaxU | vadifS | vand | vor | vxor | vandn | vshl | vshrU | vshrS | vrotl | vmul | vmulhS | vmulhU
    | vmad | vaddsS | vsubsS | vaddsU | vsubsU | vbfeU | vbfeS | vbfi | vpermb | vfadd | vfsub | vfmul | vfma | vfnma | vfmin | vfmax | vfcpys |
    vhadd2 | vhsub2 | vhmul2 | vhfma2 | vhmin2 | vhmax2 =>
    exact .issued (fun _ => .vvOp) h
  | vpopc | vclz | vbrev | vmov => exact .issued (fun _ => .vuOp) h
  | vcvtF32Si32 | vcvtF32Ui32 | vcvtSi32F32 | vcvtUi32F32 | vfrint | vcvtF32E4m3 | vcvtF32E5m2 | vcvtE4m3F32 | vcvtE5m2F32 | vfclass | vfgetexp |
    vfscaleb =>
    exact .issued (fun _ => .vcOp) h
  | vcvtF32Bf16 | vcvtBf16F32 => exact .issued (fun _ => .halfOp (fun _ => .vcOp)) h
  | vrcp | vrsq | vsqrt | vexp2 | vlog2 | vsinpi | vcospi | vtanh => exact .issued (fun _ => .vsOp) h
  | vcmpI | vcmpF => exact .issued (fun _ => .cmpOp) h
  | pand | por | pxor | pandn | pnot | pmov | pset | pclr => exact .issued (fun _ => .ppOp) h
  | vrank => exact .issued (fun _ => .rankOp) h
  | shflIdx | shflXor | shflUp | shflDn => exact .issued (fun _ => .shuffleOp) h
  | sadd | ssub | ssubr | smul | smulhS | smulhU | sand | sor | sxor | sandn | sshl | sshrU | sshrS | sminS | smaxS | sminU | smaxU | smov | spopc |
    sclz | sseq | ssne | ssltS | ssltU | sfadd | sfsub | sfmul | sfrcp | sfrsq | sfmin | sfmax | scvtF32Si32 | scvtF32Ui32 | scvtSi32F32 | scvtUi32F32
    | scvtSi32F32Rn | sflt | sfle | sfeq =>
    exact .issued (fun _ => .urOp) h
  | sdivS | sdivU | sremS | sremU | sfdiv | sfsqrt => exact .issued (fun _ => .urLongOp) h
  | saddW | ssubW => exact .issued (fun _ => .urWideOp) h
  | smovp => exact .issued (fun _ => .smovpOp) h
  | pmovs => exact .issued (fun _ => .pmovsOp) h
  | smovi | saddi => exact .issued (fun _ => .uiOp) h
  | srd => exact .issued (fun _ => .srdOp) h
  | swr => exact .issued (fun _ => .swrOp) h
  | agetb | agets | agetw => exact .issued (fun _ => .agetOp) h
  | lds | ldsW | ldsQ | ldsO => exact .issued (fun _ => .ldsOp) h
  | ldp => exact .issued (fun _ => .ldpOp) h
  | ldls => exact .issued (fun _ => .ldlsOp) h
  | aadd | asub | amul | ashl => exact .issued (fun _ => .afOp) h
  | aset | alane | amov => exact .issued (fun _ => .afFromOp) h
  | aneg => exact .issued (fun _ => .anegOp) h
  | acmp => exact .issued (fun _ => .acmpOp) h
  | bra | brx => exact .issued (fun _ _ _ _ _ h => .transfer h) h
  | brz | brnz => exact .issued (fun _ => .branchOp) h
  | call | callr => exact .issued (fun _ _ _ _ _ h => .callAct h) h
  | nop => exact .issued (fun _ => .bareOp (fun _ _ _ _ h => .next h)) h
  | exit => exact .issued (fun _ => .bareOp (fun _ _ _ _ h => .exitAct h)) h
  | ret => exact .issued (fun _ _ _ _ _ h => .retAct h) h
  | yield => exact .issued (fun _ => .bareOp (fun _ _ _ _ h => .next (.modQuad h))) h
  | loopx => exact .issued (fun _ => .bareOp (fun _ _ _ _ h => .ofSheaf h)) h
  | wspill => exact .issued (fun _ => .wspillOp) h
  | wfill => exact .issued (fun _ => .wfillOp) h
  | bkpt | trap => exact .issued (fun _ => .bareOp (fun _ _ _ _ h => .softTrap h)) h
  | rte => exact .execRte h
  | svc => exact .issued (fun _ => .svcOp) h
  | xpcr => exact .execXpcr h
  | xpcw => exact .execXpcw h
  | loop => exact .issued (fun _ => .loopOp) h
  | sfromv | sfirst | sunif | sredaddSi32 | sredaddF32 | sredminSi32 | sredmaxSi32 => exact .issued (fun _ => .demoteOp) h
  | afromv => exact .issued (fun _ => .afromvOp) h
  | ldg | ldgW | ldgQ | ldgU8 | ldgS8 | ldgU16 | ldgS16 => exact .issued (fun _ => .loadGlobal) h
  | stg | stgW | stgQ | stgB8 | stgB16 => exact .issued (fun _ => .storeGlobal) h
  | ldl | ldlW | ldlQ | ldlU8 | ldlS8 | ldlU16 | ldlS16 => exact .issued (fun _ => .loadLocal) h
  | stl | stlW | stlQ | stlB8 | stlB16 => exact .issued (fun _ => .storeLocalOp) h
  | pfg => exact .issued (fun _ => .prefetchOp) h
  | atomg => exact .issued (fun _ => .atomgOp) h
  | atoml => exact .issued (fun _ => .atomlOp) h
  | atoms => exact .issued (fun _ => .atomsOp) h
  | fence => exact .issued (fun _ => .scopeOp (fun _ _ _ h => .relAct (fun _ h => .acqAct h) h)) h
  | rel => exact .issued (fun _ => .scopeOp (fun _ _ _ h => .relAct (fun _ h => .next h) h)) h
  | acq => exact .issued (fun _ => .scopeOp (fun _ _ _ h => .acqAct h)) h
  | acqRmt => exact .execAcqRmt h
  | wdrain => exact .issued (fun _ _ _ _ _ h => .ite (.next (.sendBuffer h)) (.wait (.sendBuffer h))) h
  | l1wb => exact .issued (fun _ _ _ _ _ h => .next (.writeBackCore h)) h
  | l1inv => exact .execL1inv h
  | leaseSet | leaseMeas | leaseGet | mdescGet | hqry => exact .issued (fun _ _ _ _ _ h => .ofSheaf h) h
  | barv => exact .issued (fun _ => .groupOp (fun _ _ _ _ _ _ h => .ite (.wait h) (.ite (.stop (.arriveNow h)) (.next (.modSheaf (.arriveNow h)))))) h
  | bwait => exact .issued (fun _ => .groupOp (fun _ _ _ _ _ _ h => .ite (.wait h) (.next (.acquire h)))) h
  | bsync =>
    exact .issued (fun _ => .groupOp (fun _ _ _ _ _ _ h => .ite (.stop (.ite h (.arriveNow h))) (.ite (.ite (.trap (.ite h (.arriveNow h))) (.wait
      (.ite h (.arriveNow h)))) (.next (.acquire (.ite h (.arriveNow h))))))) h
  | barvn =>
    exact .issued (fun _ => .groupOp (fun _ _ _ _ _ _ h => .ite (.stop (.ite (.addArrived h) (.releaseStart h))) (.next (.checkComplete (.modSheaf
      (.ite (.addArrived h) (.releaseStart h))))))) h
  | btest | gmask | gqry | gsave => exact .issued (fun _ => .groupOp (fun _ _ _ _ _ _ h => .ofSheaf h)) h
  | gload => exact .issued (fun _ => .groupOp (fun _ _ _ _ _ _ h => .ite (.trap h) (.ite (.fault h) (.next (.setTuft h))))) h
  | mma => exact .issued (fun _ => .mmaOp) h
  | mzero => exact .issued (fun _ _ _ _ _ h => .ite (.next h) (.next (.fresh (.setSheaf h)))) h
  | mldt => exact .issued (fun _ => .mldtOp) h
  | mstt => exact .issued (fun _ => .msttOp) h
  | mrowv => exact .issued (fun _ => .mrowvOp) h
  | mwait | mfence => exact .issued (fun _ => .bareOp (fun _ _ _ _ h => .ite (.ofSheaf h) (.wait h))) h
  | mdesc => exact .issued (fun _ _ _ _ _ h => .ite (.ofSheaf h) (.trap h)) h
  | cpyLin | cpyLinw | cpyT2d | cpyT2dw | cpyXpnd | cpyGath | cpyScat | cpyL2l | cpyFill => exact .issued (fun _ => .cpyOp) h
  | twaitany => exact .execTwaitany h
  | twaitall => exact .issued (fun _ => .maskOp (fun _ _ _ _ _ _ h => .ite (.tagResult h) (.wait h))) h
  | tfind => exact .execTfind h
  | tclr => exact .issued (fun _ => .maskOp (fun _ _ _ _ _ _ h => .next (.setTuft h))) h
  | tstat => exact .execTstat h
  | rput => exact .execRput h
  | rget => exact .execRget h
  | rputNb => exact .execRputNb h
  | rgetNb => exact .execRgetNb h
  | rclose => exact .issued (fun _ => .ringOp (fun _ _ _ _ _ h => .next (.setSheaf h))) h
  | rstat => exact .issued (fun _ => .ringOp (fun _ _ _ _ _ h => .ofSheaf h)) h
  | hgive => exact .execHgive h
  | hrecv => exact .execHrecv h
  | hdrop => exact .execHdrop h
  | klaunch => exact .issued (fun _ => .klaunchOp) h
  | kwait => exact .issued (fun _ => .kwaitOp) h
  | kquota => exact .issued (fun _ => .kquotaOp) h
  | crs | cag | car => exact .issued (fun _ => .collOp) h
  | mkdown => exact .issued (fun _ => .mkdownOp) h
  | mkget => exact .issued (fun _ => .mkgetOp) h
  | trmark => exact .issued (fun _ => .trmarkOp) h
  | clkrd => exact .issued (fun _ => .clkrdOp) h
  | ximm | rep | la => exact .next (.settle (.issueHint h))
  | quantumExpiry => exact .next (.modSheaf h)
  | starvationLimit => exact .execStarvationLimit h
  | greedyLimit => exact .ite (.next h) (.next (.modQuad h))
  | admissionPass => exact .next (.settle (.admissionPass h))
  | ageBoundExpiry => exact .execAgeBoundExpiry h
  | footprintWindow => exact .next (.endWindow h)
  | kernelDispatch => exact .next (.settle (.dispatchAll (.beginDispatch h)))
  | kernelRunning => exact .next (.settle (.residencyPass h))
  | tuftPlacement => exact .next (.settle (.placeNext h))
  | tuftComplete => exact .next (.settle (.completeTuft h))
  | completionSignal => exact .next (.settle (.signalKernel h))
  | runmaxExpiry => exact .execRunmaxExpiry h
  | tuftSuspend => exact .next (.settle (.suspendTuft h))
  | forcedSuspension => exact .next (.settle (.forceSuspend h))
  | tuftReload => exact .next (.settle (.reloadTuft h))
  | tuftAbort => exact .next (.settle (.abortTuft h))
  | storeBufferSend => exact .next (.sendOldest h)
  | writePerform => exact .next (.settle (.performNumber h))
  | writeAck | atomicReply => exact .next (.settle (.answerMsg h))
  | loadReturn => exact .execLoadReturn h
  | walk => exact .next (.walkMiss h)
  | walkWake => exact .next (.settle (.wakeWalks h))
  | shootdownGo => exact .next (.takeShootdown h)
  | shootdownComplete => exact .next (.settle (.completeShootdown h))
  | matrixOpComplete => exact .next (.settle (.completeMatOp h))
  | copyStart => exact .next (.settle (.startCopy h))
  | copyComplete => exact .next (.settle (.completeCopy h))
  | collectiveJoin => exact .next (.settle (.joinColls h))
  | collectiveComplete => exact .next (.settle (.completeColls h))
  | serviceReply => exact .next (.settle (.serviceReply h))
  | replyResume | replyAbandon | replyDroplanes => exact .next (.settle (.reply h))
  | replyDiscard => exact .next (.settle (.replyDiscard h))
  | queueRegister => exact .next (.settle (.registerQueue h))
  | queueDestroy => exact .next (.settle (.destroyQueue h))
  | queueWake => exact .next (.settle (.wakeQueue h))
  | packetFetch => exact .next (.settle (.fetchPacket h))
  | packetKernel => exact .next (.settle (.startKernel h))
  | packetWaitall | packetWaitany => exact .next (.settle (.withHead (fun _ _ h => .evaluateWait h) h))
  | packetSignal => exact .next (.settle (.sendSignal h))
  | packetHold => exact .next (.settle (.takeHold h))
  | packetRelease => exact .next (.settle (.addHold h))
  | packetNop => exact .next (.settle (.badHead (.withHead (fun _ _ h => .dropHead h) h)))
  | waitReevaluate =>
    exact .ite (.next (.settle (.withHead (fun _ _ h => .evaluateWait h) h))) (.next (.settle (.withHead (fun _ _ h => .evaluateWait h) h)))
  | partitionForm => exact .next (.formPartition h)
  | partitionReady => exact .next (.inPartState (fun _ => .ite (.setPart h) h) h)
  | bootFailure => exact .next (.inPartState (fun _ => .tellPort (.endPartition h)) h)
  | partAdd => exact .next (.request (fun _ => .addSlice h) h)
  | partRemove => exact .next (.settle (.request (fun _ => .removeSlice h) h))
  | drainmaxExpiry => exact .next (.settle (.expireDrain h))
  | partLend => exact .next (.request (fun _ => .lendSlice h) h)
  | partRecall => exact .next (.settle (.request (fun _ => .recallSlice h) h))
  | recallDeadline => exact .next (.settle (.recallDeadline h))
  | recallWriteOut => exact .next (.settle (.writeOut h))
  | partHalt => exact .next (.request (fun _ => .answerMail (.setPart h)) h)
  | partResume => exact .next (.inPartState (fun _ => .ite (.answerMail (.setPart h)) h) h)
  | partDissolve => exact .next (.settle (.inPartState (fun _ => .ite (.dissolve h) h) h))
  | evidence => exact .next (.asked (fun _ => .giveEvidence h) h)
  | certs => exact .next (.asked (fun _ => .giveCerts h) h)
  | extend => exact .next (.asked (fun _ => .extendBank h) h)
  | ctxCreate => exact .next (.settle (.ctxCreate h))
  | ctxActivate => exact .next (.settle (.ctxActivate h))
  | ctxSuspend => exact .next (.settle (.ctxSuspend h))
  | ctxResume => exact .next (.settle (.ctxResume h))
  | ctxFault => exact .next (.settle (.ctxFault h))
  | ctxDestroy => exact .next (.settle (.ctxDestroy h))
  | keyLoad => exact .next (.settle (.loadKey h))
  | keyLoadw => exact .next (.settle (.loadWrapped h))
  | keyErase => exact .next (.settle (.eraseCommand h))
  | correctableError => exact .next (.modSlice h)
  | uncorrectableError => exact .execUncorrectableError h
  | sliceLost => exact .next (.settle (.loseSlice h))
  | portEnable | portDisable | trainingDone | trainingFailed | wavelengthLoss | retrainingRestored => exact .next (.modPort h)
  | portFence => exact .next (.fencePort h)
  | portUnfence => exact .next (.ite (.modPort h) h)
  | keyingDone => exact .next (.settle (.keyPort h))
  | rekey => exact .ite (.next (.modPort h)) (.next (.modPort (.forgetSource (.modPort h))))
  | packetReceive => exact .next (.settle (.receive h))
  | retransmitTimeout => exact .next (.settle (.timeout h))
  | lctlWrite => exact .next (.writeLctl h)
  | getVersion | getCapabilities | negotiateAlgorithms | getDigests => exact .next (.respond h)
  | getCertificate | challenge => exact .ite (.next (.tellInvalid h)) (.next (.respond h))
  | getMeasurements => exact .execGetMeasurements h
  | spdmUnsupported => exact .next (.respondError h)
  | firmwareStage => exact .ite (.next (.tell h)) (.next (.tell (.modPackage (fun _ => by split <;> rfl) h)))
  | activationStart => exact .ite (.next h) (.ite (.next (.tell h)) (.next (.tell (.modPackage (fun _ => rfl) h))))
  | activationCommit => exact .ite (.next (.tell h)) (.next (.tell (.forEach (fun _ _ h => .raiseLseq h) (.modPackage (fun _ => rfl) h))))
  | activationRollback => exact .ite (.next (.tell h)) (.next (.tell (.modPackage (fun _ => rfl) h)))
  | mgmtOtherMessage => exact .ite (.next (.tell h)) (.ite (.next (.settle (.portDissolve h))) (.next (.tell h)))
  | packageReset => exact .execPackageReset h
  | pwrctlWrite => exact .next (.writePwrctl h)
  | thermThrottle | powerWindow => exact .next (.modIsland h)
  | trctlWrite => exact .next (.writeTrctl h)
  | teaselDrain => exact .next (.drainTeasel h)
  | lschedWrite => exact .next (.writeLsched h)
  | urgentWrite => exact .next (.settle (.writeUrgent h))
  | frameOwnerWrite => exact .next (.writeFrame h)
  | controlRegWrite => exact .next (.settle (.writeControl h))
  | unassignedEncoding => exact .execUnassignedEncoding h
  | longLatencyResult => exact .execLongLatencyResult h
  | serviceCoreAccess => exact .execServiceCoreAccess h
  | partitionKernelFetch => exact .next (.inPartState (fun _ => .fetchKernel h) h)
  | cpuTrayRegister => exact .execCpuTrayRegister h

/-! ## An issue slot (R20, R83, R155, R246) -/

theorem OutcomeKept.runWord {w} (h : s.Kept s₀) : OutcomeKept s₀ (runWord w s) := by
  rw [run_eq_decode]
  unfold ranAs
  split
  · exact .exec h
  · exact .execUnassignedEncoding h

theorem State.Kept.fetchWord {sh a} (h : s.Kept s₀) : (s.fetchWord sh a).2.Kept s₀ := by
  unfold State.fetchWord
  refine .ite_snd h ?_
  dsimp only
  split
  · exact .xlateTuft h
  · exact .xlateTuft h
  · exact .xlateTuft h
  · exact .xlateTuft h
  · exact .ite_snd (.xlateTuft h) (.xlateTuft h)

theorem State.Kept.sampleIssue {core quad sh a} (h : s.Kept s₀) : (s.sampleIssue core quad sh a).Kept s₀ :=
  .ite h (.ite (.traceSheaf (.modSlice h)) (.modSlice h))

theorem OutcomeKept.issueSheaf {core quad sid sh} (h : s.Kept s₀) : OutcomeKept s₀ (s.issueSheaf core quad sid sh) := by
  unfold State.issueSheaf
  split
  · exact .next h
  · dsimp only
    split
    next heq => exact .runWord (.same (.sampleIssue (.of_eq_snd heq (.fetchWord (.setSheaf h)))) rfl rfl)
    next heq => exact .next (.settle (.raiseFault (.of_eq_snd heq (.fetchWord (.setSheaf h)))))
    next heq => exact .next (.beginWait (.of_eq_snd heq (.fetchWord (.setSheaf h))))
    next heq => exact .next (.beginWait (.same (.of_eq_snd heq (.fetchWord (.setSheaf h))) rfl rfl))

theorem OutcomeKept.issueQuad {core quad} (h : s.Kept s₀) : OutcomeKept s₀ (s.issueQuad core quad) := by
  unfold State.issueQuad
  split
  · exact .next h
  · dsimp only
    split
    · exact .issueSheaf (.closeWindow (.chargeSlot h))
    · exact .next (.closeWindow (.chargeSlot h))

/-! ## What can happen next -/

theorem OutcomeKept.runPacket {slice entry} (h : s.Kept s₀) : OutcomeKept s₀ (s.runPacket slice entry) := by
  unfold State.runPacket
  split
  · exact .next (.settle (.startKernel h))
  · exact .next (.settle (.withHead (fun _ _ h => .evaluateWait h) h))
  · exact .next (.settle (.withHead (fun _ _ h => .evaluateWait h) h))
  · exact .next (.settle (.sendSignal h))
  · exact .next (.settle (.takeHold h))
  · exact .next (.settle (.addHold h))
  · exact .next (.settle (.badHead (.withHead (fun _ _ h => .dropHead h) h)))

theorem OutcomeKept.runAnswer {mid} (h : s.Kept s₀) : OutcomeKept s₀ (s.runAnswer mid) := by
  unfold State.runAnswer
  split
  · split <;> exact .next (.settle (.answerMsg h))
  · exact .next h

theorem OutcomeKept.runLoad {sid pid} (h : s.Kept s₀) : OutcomeKept s₀ (s.runLoad sid pid) := .execLoadReturn (.freeLanes h)

theorem OutcomeKept.runTime {tid} (h : s.Kept s₀) : OutcomeKept s₀ (s.runTime tid) := by
  unfold State.runTime
  dsimp only
  split
  · exact .ite (.execRunmaxExpiry (.modTuft h)) (.next (.modTuft h))
  · exact .next (.modTuft h)

theorem OutcomeKept.runDue {d} (h : s.Kept s₀) : OutcomeKept s₀ (runDue d s) := by
  unfold Machine.runDue
  split
  · exact .issueQuad h
  · exact .next (.sendOldest h)
  · exact .next (.settle (.performNumber h))
  · exact .runAnswer h
  · exact .runLoad h
  · exact .execLongLatencyResult h
  · exact .next (.settle (.completeMatOp h))
  · exact .next (.settle (.startCopy h))
  · exact .next (.settle (.completeCopy h))
  · exact .next (.settle (.copyEarly h))
  · exact .next (.settle (.joinColls h))
  · exact .next (.settle (.completeColls h))
  · exact .next (.settle (.admissionPass h))
  · exact .execAgeBoundExpiry h
  · exact .next (.closeWindow h)
  · exact .runTime h
  · exact .next (.settle (.endErase h))
  · exact .next (.settle (.endDestroy h))
  · exact .next (.settle (.ctxTakeAt h))
  · exact .next (.settle (.takeKey h))
  · exact .next (.settle (.dispatchAll (.beginDispatch h)))
  · exact .next (.settle (.residencyPass h))
  · exact .next (.settle (.writeRecordOf h))
  · exact .next (.settle (.placeNext h))
  · exact .next (.settle (.signalKernel h))
  · exact .next (.settle (.completeTuft h))
  · exact .next (.settle (.suspendTuft h))
  · exact .next (.settle (.forceSuspend h))
  · exact .next (.settle (.reloadTuft h))
  · exact .next (.settle (.abortTuft h))
  · exact .next (.settle (.registerQueue h))
  · exact .next (.settle (.destroyQueue h))
  · exact .next (.settle (.judgeQueue (.writeHeader h)))
  · exact .next (.settle (.wakeQueue h))
  · exact .next (.settle (.fetchPacket h))
  · exact .runPacket h
  · exact .next (.settle (.wakeWalks h))
  · exact .next (.takeShootdown h)
  · exact .next (.settle (.completeShootdown h))
  · exact .next (.drainTeasel h)
  · exact .ite (.next (.modPort h)) (.next (.modPort (.forgetSource (.modPort h))))
  · exact .next (.settle (.ite (.judgeRecall h) (.writeOut h)))
  · exact .next (.settle (.endRequest h))

theorem OutcomeKept.progress (h : s.Kept s₀) : OutcomeKept s₀ s.progress := by
  unfold State.progress
  split
  · exact .next h
  · exact .ite (.runDue h) (.runDue (.same h rfl rfl))

/-! ## The step -/

theorem OutcomeKept.step (h : s.Kept s₀) : OutcomeKept s₀ (step s) := by
  unfold Machine.step
  split
  · exact .exec h
  · split
    · exact .issueQuad h
    · exact .progress h

end Sys2Proof.Machine

open Sys2Proof Sys2Proof.Machine

/-- Settles O8: the invariant is part of what every operation keeps. -/
theorem stepsKeepMemoryCanonical : Obligations.StepsKeepMemoryCanonical := by
  intro s t hs hstep
  exact OutcomeKept.step (.refl s) t hstep hs

end

/-! PROOFS. The happenings of attestation, of the management port and of live activation (R356 to R365, R402): each makes the state that the table of
happenings says. -/
section
namespace Sys2Proof.Machine

/-! ## Answers of the management port (R362, R394, R402) -/

/-- What a package that is up does. -/
theorem State.modPackage_of_up {s : State} {pkg : Nat} (hup : 5 ≤ (s.package pkg).step) (f : Package → Package) :
    s.modPackage pkg (fun k => if k.up then f k else k) = s.modPackage pkg f := by
  simp only [State.modPackage, Package.up, hup, decide_true, if_true]

theorem State.tell_of_told {s t : State} {pkg name : Nat} {bs : List Byte} (h : told s pkg name bs = some t) : s.tell pkg name bs = t := by
  obtain ⟨hup, h⟩ := Option.ite_none_right_eq_some.mp h
  rw [State.tell, State.modPackage_of_up hup]
  exact Option.some.inj h

/-- A package that has answered is still up. -/
theorem step_of_told {s t : State} {pkg name : Nat} {bs : List Byte} (h : told s pkg name bs = some t) : 5 ≤ (t.package pkg).step := by
  obtain ⟨hup, h⟩ := Option.ite_none_right_eq_some.mp h
  rw [← Option.some.inj h]
  simpa only [State.modPackage, State.package, Map.getD_put_self] using hup

theorem State.respond_of_responds {s t : State} {pkg request : Nat} {bs : List Byte} {hear : Transcript → Transcript}
    (h : responds s pkg request bs hear = some t) : s.respond pkg request bs hear = t := by
  obtain ⟨u, hu, rfl⟩ := Option.map_eq_some_iff.mp h
  rw [State.respond, State.tell_of_told hu, State.modPackage_of_up (step_of_told hu)]

theorem State.respondError_of_errs {s t : State} {pkg : Nat} {bs : List Byte} (h : errs s pkg bs = some t) : s.respondError pkg bs = t := by
  obtain ⟨u, hu, rfl⟩ := Option.map_eq_some_iff.mp h
  rw [State.respondError, replyError, State.tell_of_told hu, State.modPackage_of_up (step_of_told hu)]

/-- A package that answers after a change which leaves the step of its bring-up alone was up before it. -/
theorem up_of_told_modPackage {s t : State} {pkg name : Nat} {bs : List Byte} {f : Package → Package}
    (h : told (s.modPackage pkg f) pkg name bs = some t) (hstep : (f (s.package pkg)).step = (s.package pkg).step) : (s.package pkg).up = true := by
  obtain ⟨hup, _⟩ := Option.ite_none_right_eq_some.mp h
  rw [Package.up, ← hstep, decide_eq_true_eq]
  simpa only [State.modPackage, State.package, Map.getD_put_self] using hup

theorem State.tell_of_told_modPackage {s t : State} {pkg name : Nat} {bs : List Byte} {f g : Package → Package}
    (h : told (s.modPackage pkg f) pkg name bs = some t) (hfg : g (s.package pkg) = f (s.package pkg)) : (s.modPackage pkg g).tell pkg name bs = t := by
  have hmod : s.modPackage pkg g = s.modPackage pkg f := by rw [State.modPackage, State.modPackage, hfg]
  rw [hmod]
  exact State.tell_of_told h

/-! ## Requests on evidence (R357, R358) -/

theorem State.asked_of_whileUp {s t : State} {part : Nat} {f g : Partition → State} (h : whileUp s part f = some t) (hfg : ∀ p, f p = g p) :
    s.asked part g = t := by
  obtain ⟨p, hp, h⟩ := Option.bind_eq_some_iff.mp h
  obtain ⟨hstate, h⟩ := Option.ite_none_left_eq_some.mp h
  simp only [State.asked, hp, hfg] at h ⊢
  rw [← Option.some.inj h]
  cases hr : p.request <;> simp [hstate]

theorem ite_of_iff_not {c p : Prop} [Decidable c] [Decidable p] (h : c ↔ ¬ p) (a b : State) : (if c then a else b) = if p then b else a := by
  simp only [h, ite_not]

theorem State.giveEvidence_eq (s : State) (part pkg out nonce : Nat) (p : Partition) : s.giveEvidence part pkg out nonce p =
    if (packagesOf p.slices).contains pkg = true ∧ s.mailAddress part out 1472 = true ∧ s.mailAddress part nonce 64 = true ∧
        s.poisoned nonce 64 = false then
      (s.putClear out (s.evidence part pkg p (s.viewBytes 0 nonce 64))).mailed part 0
    else s.mailed part 3 := by
  simp only [State.giveEvidence, State.answerMail_eq_mailed, mailRefused]
  exact ite_of_iff_not (by simp only [Bool.or_eq_true, Bool.not_eq_true', not_and_or, Bool.not_eq_true, Bool.not_eq_false, or_assoc]) _ _

theorem State.giveCerts_eq (s : State) (part pkg out len : Nat) (p : Partition) : s.giveCerts part pkg out len p =
    let bs := s.chain pkg
    if (packagesOf p.slices).contains pkg = true ∧ bs.length ≤ len ∧ s.mailAddress part out (4 + bs.length) = true then
      (s.putClear out (leBytes 4 bs.length ++ bs)).mailed part 0
    else s.mailed part 3 := by
  simp only [State.giveCerts, State.answerMail_eq_mailed, mailRefused]
  exact ite_of_iff_not (by simp only [Bool.or_eq_true, Bool.not_eq_true', decide_eq_true_eq, not_and_or, Nat.not_le, Bool.not_eq_true, or_assoc]) _ _

theorem State.extendBank_eq (s : State) (part slot a : Nat) (p : Partition) : s.extendBank part slot a p =
    if 11 ≤ slot ∧ slot ≤ 15 ∧ s.mailAddress part a 64 = true ∧ s.poisoned a 64 = false then
      (s.setPart part { p with ms := (List.range p.ms.length).map (fun j =>
        if j = slot - 8 then Config.shake256 (p.ms.getD j zeroSlot ++ s.viewBytes 0 a 64) 64 else p.ms.getD j zeroSlot) }).mailed part 0
    else s.mailed part 3 := by
  simp only [State.extendBank, State.answerMail_eq_mailed, mailRefused, extendAt, extendSlot, beq_iff_eq]
  exact ite_of_iff_not (by simp only [Bool.or_eq_true, Bool.not_eq_true', decide_eq_true_eq, not_and_or, Nat.not_le, Bool.not_eq_true,
    Bool.not_eq_false, or_assoc]) _ _

/-! ## A dissolution command (R306, R402) -/

/-- A dissolution leaves the bring-up of the package alone, so that its answer goes out (R402). -/
theorem State.tell_dissolve {s : State} {pkg : Nat} (hup : 5 ≤ (s.package pkg).step) (part : Nat) (p : Partition) :
    (s.dissolve part p).tell pkg replyDone [] = (s.dissolve part p).reports pkg 0x101 [] := by
  obtain ⟨_, hstep⟩ := State.Kept.dissolve (State.Kept.refl s) (part := part) (p := p)
  exact State.tell_of_told (if_pos (hstep pkg ▸ hup))

theorem State.portDissolve_of_halted {s : State} {pkg part : Nat} {p : Partition} (hp : s.part? part = some p)
    (h : p.state = .halted ∧ p.request = none ∧ (packagesOf p.slices).contains pkg = true ∧ 5 ≤ (s.package pkg).step) :
    s.portDissolve pkg part = (s.dissolve part p).reports pkg 0x101 [] := by
  obtain ⟨hhalted, hrequest, hpkg, hup⟩ := h
  simp only [State.portDissolve, hp, Package.up, hup, hhalted, hrequest, hpkg, decide_true, beq_self_eq_true, Bool.and_self, if_true,
    State.tell_dissolve hup]

theorem State.portDissolve_of_refused {s t : State} {pkg part : Nat}
    (h : ∀ p, s.part? part = some p →
      ¬ (p.state = .halted ∧ p.request = none ∧ (packagesOf p.slices).contains pkg = true ∧ 5 ≤ (s.package pkg).step))
    (ht : told s pkg 0x100 [] = some t) : s.portDissolve pkg part = t := by
  have htell : s.tell pkg replyMctp [] = t := State.tell_of_told ht
  unfold State.portDissolve
  split
  next p hp =>
    rw [if_neg fun hc => h p hp (by simp_all [Package.up]), htell]
  next => exact htell

end Sys2Proof.Machine

open Sys2Proof Sys2Proof.Machine

theorem getMeasurements_happens {pkg index nonce f s t} (hi : trustHappening (.getMeasurements pkg index nonce) = some f) (hf : f s = some t) :
    exec (.getMeasurements pkg index nonce) s = .next t := by
  cases hi
  show execGetMeasurements pkg index nonce s = _
  unfold execGetMeasurements
  dsimp only at hf ⊢
  cases hm : s.measurements? pkg index with
  | none =>
    simp only [hm] at hf
    exact congrArg Host.Outcome.next (State.respondError_of_errs hf)
  | some bs =>
    simp only [hm] at hf
    dsimp only
    split at hf
    next hz =>
      rw [if_pos (by simp [hz])]
      exact congrArg Host.Outcome.next (State.respond_of_responds hf)
    next hz =>
      rw [if_neg (by simpa using hz)]
      split at hf
      next hn =>
        rw [if_neg (by simp [hn])]
        exact congrArg Host.Outcome.next (State.respond_of_responds hf)
      next hn =>
        rw [if_pos (by simp [hn])]
        exact congrArg Host.Outcome.next (State.respondError_of_errs hf)

theorem mgmtOtherMessage_happens {pkg code f s t} (hi : trustHappening (.mgmtOtherMessage pkg code) = some f) (hf : f s = some t) :
    exec (.mgmtOtherMessage pkg code) s = .next t := by
  cases hi
  show execMgmtOtherMessage pkg code s = _
  unfold execMgmtOtherMessage
  dsimp only at hf
  split at hf
  next hread =>
    rw [if_pos hread]
    exact congrArg Host.Outcome.next (State.tell_of_told hf)
  next hread =>
    rw [if_neg hread]
    split at hf
    next hcode =>
      rw [if_pos hcode]
      split at hf
      next p hp =>
        split at hf
        next hhalted =>
          rw [State.portDissolve_of_halted hp hhalted]
          exact congrArg Host.Outcome.next (Option.some.inj hf)
        next hhalted =>
          obtain ⟨u, hu, rfl⟩ := Option.map_eq_some_iff.mp hf
          rw [State.portDissolve_of_refused (fun q hq => Option.some.inj (hp.symm.trans hq) ▸ hhalted) hu]
      next hp =>
        obtain ⟨u, hu, rfl⟩ := Option.map_eq_some_iff.mp hf
        rw [State.portDissolve_of_refused (fun q hq => absurd (hp.symm.trans hq) nofun) hu]
    next hcode =>
      rw [if_neg hcode]
      exact congrArg Host.Outcome.next (State.tell_of_told hf)

theorem activationStart_happens {pkg f s t} (hi : trustHappening (.activationStart pkg) = some f) (hf : f s = some t) :
    exec (.activationStart pkg) s = .next t := by
  cases hi
  show execActivationStart pkg s = _
  unfold execActivationStart
  dsimp only at hf ⊢
  split at hf
  next hidle =>
    rw [if_neg (by simp [up_of_told_modPackage hf rfl]), if_neg (by simp [hidle])]
    exact congrArg Host.Outcome.next (State.tell_of_told hf)
  next hactive =>
    obtain ⟨hup, _⟩ := Option.ite_none_right_eq_some.mp hf
    rw [if_neg (by simp [Package.up, hup]), if_pos (by simpa [Option.isSome_iff_ne_none] using hactive)]
    exact congrArg Host.Outcome.next (State.tell_of_told hf)

/-- Settles O53, happening by happening: requests on evidence, the messages of the management port, live activation. -/
theorem trustHappenings : Obligations.TrustHappenings := by
  intro i f s t hi hf
  unfold trustHappening at hi
  split at hi <;> cases hi
  case h_1 part pkg out nonce =>
    exact congrArg Host.Outcome.next (State.asked_of_whileUp hf fun p => (s.giveEvidence_eq part pkg out nonce p).symm)
  case h_2 part pkg out len => exact congrArg Host.Outcome.next (State.asked_of_whileUp hf fun p => (s.giveCerts_eq part pkg out len p).symm)
  case h_3 part slot a => exact congrArg Host.Outcome.next (State.asked_of_whileUp hf fun p => (s.extendBank_eq part slot a p).symm)
  case h_4 pkg => exact congrArg Host.Outcome.next (State.respond_of_responds hf)
  case h_5 pkg => exact congrArg Host.Outcome.next (State.respond_of_responds hf)
  case h_6 x => exact congrArg Host.Outcome.next (State.respond_of_responds hf)
  case h_7 pkg => exact congrArg Host.Outcome.next (State.respond_of_responds hf)
  case h_8 pkg slot offset len =>
    show execGetCertificate pkg slot offset len s = _
    unfold execGetCertificate
    dsimp only at hf ⊢
    split at hf
    next hc =>
      rw [if_neg (by simp; omega), State.respond_of_responds hf]
    next hc =>
      rw [if_pos (by simp; omega), State.tellInvalid, State.respondError_of_errs hf]
  case h_9 pkg nonce =>
    show execChallenge pkg nonce s = _
    unfold execChallenge
    dsimp only at hf ⊢
    split at hf
    next hc =>
      rw [if_neg (by simp [hc])]
      exact congrArg Host.Outcome.next (State.respond_of_responds hf)
    next hc => rw [if_pos (by simp [hc]), State.tellInvalid, State.respondError_of_errs hf]
  case h_10 pkg index nonce => exact getMeasurements_happens rfl hf
  case h_11 pkg code => exact congrArg Host.Outcome.next (State.respondError_of_errs hf)
  case h_12 pkg code => exact mgmtOtherMessage_happens rfl hf
  case h_13 pkg slot image =>
    show execFirmwareStage pkg slot image s = _
    unfold execFirmwareStage
    dsimp only at hf
    split at hf
    next hslot =>
      rw [if_neg (by simp; omega)]
      exact congrArg Host.Outcome.next (State.tell_of_told_modPackage hf (if_pos (up_of_told_modPackage hf rfl)))
    next hslot =>
      rw [if_pos (by simp; omega)]
      exact congrArg Host.Outcome.next (State.tell_of_told hf)
  case h_14 pkg => exact activationStart_happens rfl hf
  case h_15 pkg =>
    show execActivationCommit pkg s = _
    unfold execActivationCommit
    dsimp only at hf ⊢
    split at hf
    next hidle =>
      rw [if_pos (by simp [hidle])]
      exact congrArg Host.Outcome.next (State.tell_of_told hf)
    next hactive =>
      rw [if_neg (by simpa using hactive)]
      exact congrArg Host.Outcome.next (State.tell_of_told hf)
  case h_16 pkg =>
    show execActivationRollback pkg s = _
    unfold execActivationRollback
    dsimp only at hf
    split at hf
    next hidle =>
      rw [if_pos (by simp [hidle])]
      exact congrArg Host.Outcome.next (State.tell_of_told hf)
    next hactive =>
      rw [if_neg (by simpa using hactive)]
      exact congrArg Host.Outcome.next (State.tell_of_told hf)

end
